-- ==== Sys2Proof/Word.lean ====
section
/-! DEFINITION. The word types of the CK940 (R3, R49, R92): bytes, the 16-bit words of the instruction stream,
64-bit scalar words, and 512-bit vector words of 16 lanes. -/

namespace Sys2Proof

/-- One byte of memory. -/
abbrev Byte := BitVec 8

/-- One 16-bit word of the instruction stream (R49). -/
abbrev Half := BitVec 16

/-- One 32-bit lane of a vector register (R121). -/
abbrev Lane := BitVec 32

/-- A scalar register, an address, or a 64-bit word of memory (R92). -/
abbrev Word := BitVec 64

/-- A vector register: lane `i` is bits `32*i+31 .. 32*i` (R121). -/
abbrev Vec := BitVec 512

end Sys2Proof
end

