-- ==== Sys2Proof/Syntax.lean ====
section
/-! DEFINITION. The syntax of the model: one constructor of `Instr` for every row of the opcode table.
229 rows are instructions of the instruction stream, 8 are matrix command types (R221), and 105 are whole steps
of the device, its firmware and its host. Operands are written as the spec names them: registers by file bank and number
(R53), immediates at the exact width their words can carry (R52), field codes as named constructors. -/

namespace Sys2Proof

/-- A register of the scalar or the vector file: the private or the shared bank, and the number 0 to 31 (R53).
Which file it belongs to is decided by the opcode, field by field. -/
inductive Reg where
  | priv (n : BitVec 5)
  | shared (n : BitVec 5)
  deriving DecidableEq, Repr

/-- A scalar source: a scalar register; in maintenance decode also a constant-bank entry or an inline literal (R64). -/
inductive SSrc where
  | reg (r : Reg)
  | const (n : BitVec 4)
  | lit (v : Word)
  deriving DecidableEq, Repr

/-- A vector source: a vector register; in maintenance decode also a scalar source whose bits [31:0] are broadcast (R64). -/
inductive VSrc where
  | reg (r : Reg)
  | bcast (s : SSrc)
  deriving DecidableEq, Repr

/-- A predicate register p0 to p7 (R53). -/
abbrev PReg := BitVec 3

/-- The predication of an instruction (R61): none, a whole-instruction XPRED, or a per-lane XPRED.
`sense = false` acts where the bit is 1, `sense = true` where it is 0. -/
inductive Pred where
  | always
  | whole (p : PReg) (sense : Bool)
  | lanes (p : PReg) (sense : Bool)
  deriving DecidableEq, Repr

/-- The rounding modes that m2 carries (R37, R82). -/
inductive Rnd where
  | rne | rtz | rup | rdn
  deriving DecidableEq, Repr

/-- The width codes of SEXT and ZEXT (R37, R116). -/
inductive Width where
  | b | h | w | d
  deriving DecidableEq, Repr

/-- The scopes of release, acquire and fence (R37, R180). -/
inductive Scope where
  | thread | core | cluster | die | module | system
  deriving DecidableEq, Repr

/-- The types of a sync slot (R260). -/
inductive SlotType where
  | signal | barrier | join
  deriving DecidableEq, Repr

/-- The kinds of obligation (R263). -/
inductive ObKind where
  | put | signal | arrive | reply | tuple | release
  deriving DecidableEq, Repr

/-- The modes of OBGIVE (R281). -/
inductive GiveMode where
  | toRecord | toActivity | poison
  deriving DecidableEq, Repr

/-- The byte readings of VDOT4 (R126). -/
inductive DotMode where
  | ss | uu | su
  deriving DecidableEq, Repr

/-- The saturation codes of VPACK (R139). -/
inductive Sat where
  | trunc | signed | unsigned
  deriving DecidableEq, Repr

/-- The targets of VBLKMAX (R141). -/
inductive BlkTarget where
  | e4m3 | e5m2 | e2m3 | e3m2 | e2m1 | int8
  deriving DecidableEq, Repr

/-- The system registers of R96. -/
inductive SysReg where
  | tstat | tcause | tepc | tval | tvec | fpflags | ls | le | lc
  | fmta | fmtb | scla | sclb | dtab
  | obmin | obcnt | obspill | guard | dqspill
  | hbi | hbc | maxpt | ptc
  | member | gangw | gangh | stage | coreid | vfid | tenant | slotno | sigacc
  deriving DecidableEq, Repr

/-- Why the fetch of an instruction failed (R59 step 1). -/
inductive FetchCause where
  | xlate | perm
  deriving DecidableEq, Repr

/-- The instructions, matrix commands and device events of the opcode table. The first field `g` of an instruction is
its predication; an instruction on which XPRED is barred (R62) has none. -/
inductive Instr where
  -- page 0 and 1, scalar (R111 to R120)
  | nop (g : Pred)
  | mov (g : Pred) (d : Reg) (a : SSrc)
  | movi (g : Pred) (d : Reg) (imm : BitVec 35)
  | add (g : Pred) (d : Reg) (a b : SSrc)
  | addi (g : Pred) (d : Reg) (imm : BitVec 35)
  | sub (g : Pred) (d : Reg) (a b : SSrc)
  | mul (g : Pred) (d : Reg) (a b : SSrc)
  | and (g : Pred) (d : Reg) (a b : SSrc)
  | andi (g : Pred) (d : Reg) (imm : BitVec 35)
  | or (g : Pred) (d : Reg) (a b : SSrc)
  | ori (g : Pred) (d : Reg) (imm : BitVec 35)
  | xor (g : Pred) (d : Reg) (a b : SSrc)
  | shl (g : Pred) (d : Reg) (a b : SSrc)
  | shli (g : Pred) (d : Reg) (n : BitVec 6)
  | shr (g : Pred) (d : Reg) (a b : SSrc)
  | shri (g : Pred) (d : Reg) (n : BitVec 6)
  | sar (g : Pred) (d : Reg) (a b : SSrc)
  | sari (g : Pred) (d : Reg) (n : BitVec 6)
  | sel (g : Pred) (d : Reg) (a b : SSrc)
  | lea (g : Pred) (d : Reg) (imm : BitVec 35)
  -- loads and stores (R194 to R200)
  | ldb (g : Pred) (d : Reg) (base : SSrc) (off : BitVec 30)
  | ldh (g : Pred) (d : Reg) (base : SSrc) (off : BitVec 30)
  | ldw (g : Pred) (d : Reg) (base : SSrc) (off : BitVec 30)
  | ldd (g : Pred) (d : Reg) (base : SSrc) (off : BitVec 30)
  | stb (g : Pred) (a : SSrc) (base : SSrc) (off : BitVec 30)
  | sth (g : Pred) (a : SSrc) (base : SSrc) (off : BitVec 30)
  | stw (g : Pred) (a : SSrc) (base : SSrc) (off : BitVec 30)
  | std (g : Pred) (a : SSrc) (base : SSrc) (off : BitVec 30)
  | vld (g : Pred) (d : Reg) (base : SSrc) (off : BitVec 30)
  | vst (g : Pred) (a : VSrc) (base : SSrc) (off : BitVec 30)
  -- control (R142 to R156)
  | br (g : Pred) (dist : BitVec 40)
  | brp (p : PReg) (sense : Bool) (dist : BitVec 36)
  | call (g : Pred) (dist : BitVec 40)
  | ret (g : Pred)
  | jmpr (g : Pred) (d : Reg) (a : SSrc)
  | loop (a : SSrc) (dist : BitVec 35)
  | exit (g : Pred)
  | trap (g : Pred) (code : BitVec 40)
  | beat (g : Pred)
  | ypt (g : Pred)
  | sigchk (imm : BitVec 16)
  | fence (g : Pred) (rst : Bool) (scope : Scope)
  | lds (g : Pred) (d : Reg) (base : SSrc) (off : BitVec 30)
  | take (g : Pred) (d : Reg) (base : SSrc) (off : BitVec 30)
  | put (g : Pred) (a : SSrc) (base : SSrc) (off : BitVec 30)
  -- page 0, vector (R124)
  | vadd (g : Pred) (d : Reg) (a b : VSrc)
  | vsub (g : Pred) (d : Reg) (a b : VSrc)
  | vmul (g : Pred) (d : Reg) (a b : VSrc)
  | vmov (g : Pred) (d : Reg) (b : VSrc)
  | vbcast (g : Pred) (d : Reg) (b : SSrc)
  | vfadd (g : Pred) (d : Reg) (a b : VSrc) (r : Rnd)
  | vfmul (g : Pred) (d : Reg) (a b : VSrc) (r : Rnd)
  | vffma (g : Pred) (d : Reg) (a b : VSrc) (r : Rnd)
  | mxq (g : Pred) (a : VSrc)
  | sywait (g : Pred) (d : Reg) (sa st : SSrc)
  | syadd (g : Pred) (sa sv : SSrc)
  | mfs (g : Pred) (d : Reg) (n : SysReg)
  | mts (g : Pred) (n : SysReg) (a : SSrc)
  | cmpeq (g : Pred) (d : PReg) (a b : SSrc)
  | cmplt (g : Pred) (d : PReg) (a b : SSrc)
  -- page 1
  | mulh (g : Pred) (d : Reg) (a b : SSrc)
  | mulhu (g : Pred) (d : Reg) (a b : SSrc)
  | div (g : Pred) (d : Reg) (a b : SSrc)
  | divu (g : Pred) (d : Reg) (a b : SSrc)
  | rem (g : Pred) (d : Reg) (a b : SSrc)
  | remu (g : Pred) (d : Reg) (a b : SSrc)
  | min (g : Pred) (d : Reg) (a b : SSrc)
  | max (g : Pred) (d : Reg) (a b : SSrc)
  | minu (g : Pred) (d : Reg) (a b : SSrc)
  | maxu (g : Pred) (d : Reg) (a b : SSrc)
  | abs (g : Pred) (d : Reg) (b : SSrc)
  | neg (g : Pred) (d : Reg) (b : SSrc)
  | clz (g : Pred) (d : Reg) (b : SSrc)
  | ctz (g : Pred) (d : Reg) (b : SSrc)
  | popc (g : Pred) (d : Reg) (b : SSrc)
  | brev (g : Pred) (d : Reg) (b : SSrc)
  | rotl (g : Pred) (d : Reg) (a b : SSrc)
  | ext (g : Pred) (d : Reg) (b : SSrc) (pos w1 : BitVec 6)
  | extu (g : Pred) (d : Reg) (b : SSrc) (pos w1 : BitVec 6)
  | ins (g : Pred) (d : Reg) (b : SSrc) (pos w1 : BitVec 6)
  | sext (g : Pred) (d : Reg) (b : SSrc) (w : Width)
  | zext (g : Pred) (d : Reg) (b : SSrc) (w : Width)
  | cmpne (g : Pred) (d : PReg) (a b : SSrc)
  | cmpge (g : Pred) (d : PReg) (a b : SSrc)
  | cmpltu (g : Pred) (d : PReg) (a b : SSrc)
  | cmpgeu (g : Pred) (d : PReg) (a b : SSrc)
  | cmpeqi (g : Pred) (d : PReg) (a : SSrc) (imm : BitVec 35)
  | cmplti (g : Pred) (d : PReg) (a : SSrc) (imm : BitVec 35)
  | cmpltui (g : Pred) (d : PReg) (a : SSrc) (imm : BitVec 35)
  | pand (g : Pred) (d a b : PReg)
  | por (g : Pred) (d a b : PReg)
  | pxor (g : Pred) (d a b : PReg)
  | pnot (g : Pred) (d b : PReg)
  | pset (g : Pred) (d : PReg) (imm : BitVec 16)
  | pmovs (g : Pred) (d : Reg) (b : PReg)
  | pmovp (g : Pred) (d : PReg) (b : SSrc)
  -- page 2
  | vand (g : Pred) (d : Reg) (a b : VSrc)
  | vor (g : Pred) (d : Reg) (a b : VSrc)
  | vxor (g : Pred) (d : Reg) (a b : VSrc)
  | vshl (g : Pred) (d : Reg) (a b : VSrc)
  | vshr (g : Pred) (d : Reg) (a b : VSrc)
  | vsar (g : Pred) (d : Reg) (a b : VSrc)
  | vshli (g : Pred) (d : Reg) (n : BitVec 5)
  | vshri (g : Pred) (d : Reg) (n : BitVec 5)
  | vsari (g : Pred) (d : Reg) (n : BitVec 5)
  | vaddi (g : Pred) (d : Reg) (imm : BitVec 32)
  | vmin (g : Pred) (d : Reg) (a b : VSrc)
  | vmax (g : Pred) (d : Reg) (a b : VSrc)
  | vminu (g : Pred) (d : Reg) (a b : VSrc)
  | vmaxu (g : Pred) (d : Reg) (a b : VSrc)
  | vmulh (g : Pred) (d : Reg) (a b : VSrc) (u : Bool)
  | vmad (g : Pred) (d : Reg) (a b : VSrc)
  | vabs (g : Pred) (d : Reg) (b : VSrc)
  | vneg (g : Pred) (d : Reg) (b : VSrc)
  | vaddsat (g : Pred) (d : Reg) (a b : VSrc) (u : Bool)
  | vsubsat (g : Pred) (d : Reg) (a b : VSrc) (u : Bool)
  | vcmpeq (g : Pred) (d : PReg) (a b : VSrc)
  | vcmpne (g : Pred) (d : PReg) (a b : VSrc)
  | vcmplt (g : Pred) (d : PReg) (a b : VSrc)
  | vcmpge (g : Pred) (d : PReg) (a b : VSrc)
  | vcmpltu (g : Pred) (d : PReg) (a b : VSrc)
  | vcmpgeu (g : Pred) (d : PReg) (a b : VSrc)
  | vsel (g : Pred) (d : Reg) (a b : VSrc)
  | vpopc (g : Pred) (d : Reg) (b : VSrc)
  | vclz (g : Pred) (d : Reg) (b : VSrc)
  | vdot4 (g : Pred) (d : Reg) (a b : VSrc) (mode : DotMode)
  -- page 3
  | vfsub (g : Pred) (d : Reg) (a b : VSrc) (r : Rnd)
  | vfmin (g : Pred) (d : Reg) (a b : VSrc)
  | vfmax (g : Pred) (d : Reg) (a b : VSrc)
  | vfabs (g : Pred) (d : Reg) (b : VSrc)
  | vfneg (g : Pred) (d : Reg) (b : VSrc)
  | vffms (g : Pred) (d : Reg) (a b : VSrc) (r : Rnd)
  | vffnma (g : Pred) (d : Reg) (a b : VSrc) (r : Rnd)
  | vfdiv (g : Pred) (d : Reg) (a b : VSrc) (r : Rnd)
  | vfsqrt (g : Pred) (d : Reg) (b : VSrc) (r : Rnd)
  | vfrcp (g : Pred) (d : Reg) (b : VSrc)
  | vfrsq (g : Pred) (d : Reg) (b : VSrc)
  | vfexp2 (g : Pred) (d : Reg) (b : VSrc)
  | vflog2 (g : Pred) (d : Reg) (b : VSrc)
  | vftanh (g : Pred) (d : Reg) (b : VSrc)
  | vfcmpeq (g : Pred) (d : PReg) (a b : VSrc)
  | vfcmplt (g : Pred) (d : PReg) (a b : VSrc)
  | vfcmple (g : Pred) (d : PReg) (a b : VSrc)
  | vfcmpun (g : Pred) (d : PReg) (a b : VSrc)
  | vfclass (g : Pred) (d : Reg) (b : VSrc)
  | vfscale (g : Pred) (d : Reg) (a b : VSrc) (r : Rnd)
  | vfredsum (g : Pred) (d : Reg) (b : VSrc) (r : Rnd)
  | vfredmax (g : Pred) (d : Reg) (b : VSrc)
  | vfdot2 (g : Pred) (d : Reg) (a b : VSrc) (r : Rnd) (bf : Bool)
  -- page 4
  | cvtfi (g : Pred) (d : Reg) (b : VSrc) (r : Rnd)
  | cvtif (g : Pred) (d : Reg) (b : VSrc) (r : Rnd)
  | cvtfh (g : Pred) (d : Reg) (b : VSrc) (r : Rnd) (part : BitVec 1)
  | cvthf (g : Pred) (d : Reg) (b : VSrc) (part : BitVec 1)
  | cvtfb (g : Pred) (d : Reg) (b : VSrc) (r : Rnd) (part : BitVec 1)
  | cvtbf (g : Pred) (d : Reg) (b : VSrc) (part : BitVec 1)
  | cvtfq (g : Pred) (d : Reg) (b : VSrc) (part : BitVec 2) (ovf : Bool)
  | cvtqf (g : Pred) (d : Reg) (b : VSrc) (part : BitVec 2)
  | cvtfs (g : Pred) (d : Reg) (b : VSrc) (part : BitVec 2) (e3m2 : Bool)
  | cvtsf (g : Pred) (d : Reg) (b : VSrc) (part : BitVec 2) (e3m2 : Bool)
  | cvtfn (g : Pred) (d : Reg) (b : VSrc) (part : BitVec 3)
  | cvtnf (g : Pred) (d : Reg) (b : VSrc) (part : BitVec 3)
  | tblld (g : Pred) (t : BitVec 2) (b : SSrc)
  | tblsel (g : Pred) (d : Reg) (b : VSrc)
  | vperm (g : Pred) (d : Reg) (a b : VSrc)
  | vrotl (g : Pred) (d : Reg) (a : VSrc) (b : SSrc)
  | vextr (g : Pred) (d : Reg) (a : VSrc) (b : SSrc) (s : Bool)
  | vins (g : Pred) (d : Reg) (a b : SSrc)
  | vpack (g : Pred) (d : Reg) (a b : VSrc) (mode : BitVec 2) (sat : Sat)
  | vunpk (g : Pred) (d : Reg) (b : VSrc) (mode part : BitVec 2) (s : Bool)
  | vscale (g : Pred) (d : Reg) (a : VSrc) (b : SSrc) (r : Rnd)
  | vblkmax (g : Pred) (d : Reg) (a b : VSrc) (t : BlkTarget)
  -- page 5
  | vldg (g : Pred) (d : Reg) (base : SSrc) (off : BitVec 30) (vi : VSrc)
  | vsts (g : Pred) (a : VSrc) (base : SSrc) (off : BitVec 30) (vi : VSrc)
  | vlds (g : Pred) (d : Reg) (base : SSrc) (off : BitVec 30)
  | rld (g : Pred) (d : Reg) (base : SSrc) (off : BitVec 30)
  | rst (g : Pred) (a : SSrc) (base : SSrc) (off : BitVec 30) (f ord : Bool)
  | rstv (g : Pred) (a : VSrc) (base : SSrc) (off : BitVec 30) (f ord : Bool)
  | ldacq (g : Pred) (d : Reg) (base : SSrc) (off : BitVec 30) (scope : Scope)
  | strel (g : Pred) (a : SSrc) (base : SSrc) (off : BitVec 30) (scope : Scope)
  | fill (g : Pred) (base : SSrc) (off : BitVec 30)
  | empty (g : Pred) (base : SSrc) (off : BitVec 30)
  | takenb (g : Pred) (d : Reg) (base : SSrc) (off : BitVec 30)
  | festat (g : Pred) (d : Reg) (base : SSrc) (off : BitVec 30)
  | pref (g : Pred) (base : SSrc) (off : BitVec 30)
  | flushl (g : Pred) (base : SSrc) (off : BitVec 30)
  -- page 6
  | syinit (g : Pred) (sa sr sv : SSrc) (type : SlotType) (owe : Bool)
  | syarrive (g : Pred) (d : Reg) (sa : SSrc)
  | syret (g : Pred) (sa : SSrc)
  | syread (g : Pred) (d : Reg) (sa : SSrc) (w : Bool)
  | gbar
  | obnew (g : Pred) (d : Reg) (lo hi : SSrc) (owe : Bool)
  | obowe (g : Pred) (sa : SSrc)
  | obgive (g : Pred) (so sh : SSrc) (mode : GiveMode) (kind : ObKind)
  | obq (g : Pred) (d : Reg) (si : SSrc) (field : BitVec 2)
  | obrank (g : Pred) (d : Reg) (so : SSrc) (kind : BitVec 2)
  -- page 7
  | tsput (a : VSrc) (sr : SSrc)
  | tscopy (d : Reg) (vp : Reg) (sr : SSrc)
  | tscopyNb (d : Reg) (vp : Reg) (sr : SSrc)
  | tstake (d : Reg) (vp : Reg) (sr : SSrc)
  | tstakeNb (d : Reg) (vp : Reg) (sr : SSrc)
  | tsowe (g : Pred) (d : Reg) (sr st : SSrc)
  | tscount (g : Pred) (d : Reg) (vp : Reg) (sr : SSrc)
  -- page 8
  | fork (g : Pred) (dist : BitVec 40)
  | taskend (g : Pred)
  | send (g : Pred) (a : VSrc) (st : SSrc)
  | sendSys (g : Pred) (a : VSrc) (st : SSrc) (chan : BitVec 2)
  | sendr (g : Pred) (a : VSrc) (st : SSrc)
  | reply (g : Pred) (a sk : SSrc)
  | msgend (g : Pred)
  | mbw (g : Pred) (n : BitVec 2) (a : SSrc)
  | mbr (g : Pred) (d : Reg) (n : BitVec 2)
  | mbrMovement (g : Pred) (d : Reg) (a : SSrc)
  | copy (g : Pred) (d : BitVec 5) (a : VSrc)
  | reduceExact (g : Pred) (d : BitVec 5) (a : VSrc)
  | reduceTree (g : Pred) (d : BitVec 5) (a : VSrc)
  -- page 9
  | claim (g : Pred) (bay : BitVec 4)
  | release (g : Pred) (bay : BitVec 4)
  | mxstat (g : Pred) (d : Reg) (sel : BitVec 3)
  | mxdrain (g : Pred) (mask : BitVec 4)
  -- page 10
  | trapret
  | rdctr (g : Pred) (d : Reg) (k : BitVec 4)
  | pwrhint (g : Pred) (level : BitVec 3)
  | turnend (g : Pred)
  | rdturn (g : Pred) (d : Reg) (sel : BitVec 2)
  | tlbinv (g : Pred) (vfScope : Bool)
  | dbgbrk (g : Pred) (code : BitVec 10)
  | halt (g : Pred)
  | setmode (maint : Bool)
  | setmodeConst (n : BitVec 4)
  -- matrix command types (R221): the array of `core` starts the command at the head of `stream` of VF `vf`
  | tload (core vf stream : Nat)
  | tstore (core vf stream : Nat)
  | mma (core vf stream : Nat)
  | mmasp (core vf stream : Nat)
  | accz (core vf stream : Nat)
  | spload (core vf stream : Nat)
  | mxnote (core vf stream : Nat)
  | mxbar (core vf stream : Nat)
  -- launches (R8 to R31, R314, R347 to R350)
  | launchTake (die hq : Nat)
  | gangRelease (launch stage : Nat)
  | launchSweep (launch : Nat)
  | doorbell (vf : Nat) (pasid : BitVec 20) (v : Word)
  | vqPlacement (vf tenant vq die hq : Nat)
  -- tasks and steals (R22, R23, R240)
  | taskPop (core slot : Nat)
  | stealVisit (core vf : Nat)
  | stealArrival (core vf : Nat)
  | stealBackoffExpiry (core vf : Nat)
  | dequeSpill (core vf : Nat)
  | dequeRefill (core vf : Nat)
  -- messages, mailboxes, copies, collectives (R24, R25, R245 to R256)
  | messageEntry (core slot : Nat)
  | handlerStart (core : Nat)
  | handlerBudgetExhausted (core : Nat)
  | systemChannelMessage (core vf : Nat)
  | mailboxService (core : Nat)
  | copyStart (die engine : Nat)
  | copyComplete (die engine idx : Nat)
  | collectiveComplete (idx : Nat)
  | movementRestart (core : Nat)
  -- memory (R19, R110, R164, R172 to R176, R179, R203, R204)
  | storeBufferDrain (core slot idx : Nat)
  | postedStoreArrival (core slot idx : Nat)
  | postedReplyArrival (core slot idx : Nat)
  | memoryReply (core slot : Nat)
  | divideComplete (core slot : Nat)
  | lateReplyLand (vf tenant core slot : Nat)
  | deferredEntryJoin (home : Nat)
  | rdcInvalidation (die idx : Nat)
  | invalidationAck (die idx : Nat)
  | faultQueueReplay (page : Nat)
  | uncorrectableError (addr : Nat)
  | busRepair (die bus conn : Nat)
  | busRetire (die bus : Nat)
  | matrixUnitRetire (core : Nat)
  | obligationStateLoss (vf : Nat)
  -- faults, kills, edges (R153, R154, R307 to R313, R331 to R342)
  | heartbeatMiss (core slot : Nat)
  | hbmissDelivery (core slot : Nat)
  | ptgapRecord (core slot : Nat)
  | ptgapDelivery (core slot : Nat)
  | replyFaultDelivery (core slot : Nat)
  | activityKill (core slot : Nat)
  | slotScrubComplete (core slot : Nat) (again : Bool)
  | drainLead (vf : Nat)
  | synchronisedStop (vf : Nat)
  | turnEdgeRestore (vf : Nat)
  | turnBoundary
  | roundBoundary
  | capacityChange (res die cap : Nat)
  | donationEffect (vf : Nat)
  -- power, time, trace (R317 to R330)
  | frequencyStep (island : Nat)
  | relockComplete (island : Nat)
  | powerCapHold (island : Nat)
  | ncycAnchor (island : Nat)
  | ncycHeldClear (island : Nat)
  | timeCorrection (ppm : Int)
  | traceStateRecord (core slot : Nat) (state : BitVec 3)
  -- Kiosk (R357 to R359)
  | kioskHalt (cluster : Nat)
  | kioskResume (cluster : Nat)
  | crossTrigger
  | haltComplete (cluster : Nat)
  -- device registers (R303, R306, R315, R316, R322, R327, R328, R330, R339, R342, R343, R345)
  | bscommit (v : Word)
  | bsepochWrite (v : Word)
  | vfUp (vf : Nat)
  | vfDown (vf : Nat)
  | vfReset (vf : Nat)
  | partitionWrite (vf off : Nat) (v : Word)
  | preempt (vf : Nat) (handle : Word)
  | resume (vf : Nat) (handle : Word)
  | unfence (vf : Nat) (core : BitVec 13)
  | killgang (vf : Nat) (core : BitVec 13)
  | syschanBind (vf c : Nat) (v : Word)
  | pcselWrite (vf j : Nat) (v : Word)
  | pcselEffect (vf j : Nat)
  | trctlWrite (v : Word)
  | trctlEffect
  | timelRead (vf : Nat) (pasid : Option (BitVec 20))
  | pctlRead (vf : Nat) (pasid : Option (BitVec 20)) (j : Nat)
  | residencyWrite (e : Nat) (v : Word)
  | pwrpolWrite (vf : Nat) (v : Word)
  | updcmd (v : Word)
  | liveUpdateTakeover
  | lodgeFailover
  | bootclr (v : Word)
  | moduleStart (failed : Option (BitVec 8))
  | registerWrite (vf : Option Nat) (off : Nat) (v : Word)
  -- links (R354, R355)
  | linkRetire (a b : Nat)
  | flitReplay (port : Nat)
  | portRetrain (port : Nat)
  | portFailure (port : Nat)
  -- tuple slices (R290 to R292)
  | tsRequestArrival (core slot : Nat)
  | tsDepositArrival (core slot : Nat)
  -- decoding (R56, R59, R70)
  | illegal (w : Half)
  | instructionFetchFault (c : FetchCause)
  -- the rest of the device's steps
  | pageUnavailable (page : Nat)
  | busHoldEnd (die bus : Nat)
  | portTrainingComplete (port : Nat)
  | laneRepair (a b : Nat)
  | liveUpdateAbandon (reason : BitVec 8)
  | registerError (core slot : Nat) (vec : Bool) (r : Reg)
  | powerCapRelease (island : Nat)
  | pcTotalSample
  | channelRetire (die channel : Nat)
  | clusterRetire (cluster : Nat)
  | islandPowerDown (island : Nat)
  | islandStart (island : Nat)
  deriving DecidableEq, Repr

end Sys2Proof
end

