-- ==== Sys2Proof/WellFormed.lean ====
section
/-! DEFINITION. Which instructions are well formed: every check of the field step of R59 that the constructors' field widths do
not already make (R53, R54, R60 to R64 and each instruction's own description). An instruction that is not well formed has no
words; the decoder answers ILLEGAL for such words. -/

namespace Sys2Proof

/-- What the decoding of a word depends on besides its bits: maintenance decode (R63), and whether the slot is the movement
slot, in which MBR's fb is a register (R235). -/
structure DecMode where
  maint : Bool := false
  slot0 : Bool := false
  deriving DecidableEq, Repr

/-- The number of a register in its file. -/
def Reg.num : Reg → BitVec 5
  | .priv n => n
  | .shared n => n

/-- Whether a predication masks lane by lane (R61). -/
def Pred.isLanes : Pred → Bool
  | .lanes _ _ => true
  | _ => false

/-- MTS may name it: its write level in R96 is not a dash (R95). -/
def SysReg.writable : SysReg → Bool
  | .obmin | .obcnt | .hbc | .ptc | .member | .gangw | .gangh | .stage | .coreid | .vfid | .tenant | .slotno => false
  | _ => true

/-- A register field that is written, or read and written: any register in normal decode, a private one in maintenance
decode (R64). -/
def okDst (m : DecMode) : Reg → Bool
  | .priv _ => true
  | .shared _ => !m.maint

/-- A scalar source (R53, R64). `wide` says that XIMM may extend a literal of this field. -/
def okS (m : DecMode) (wide : Bool) : SSrc → Bool
  | .reg (.priv n) => !m.maint || n.toNat < 16
  | .reg (.shared _) => !m.maint
  | .const _ => m.maint
  | .lit v => m.maint && v.toNat < (if wide then 2 ^ 33 else 8)

/-- A vector source (R53, R64). -/
def okV (m : DecMode) (wide : Bool) : VSrc → Bool
  | .reg (.priv n) => !m.maint || n.toNat < 16
  | .reg (.shared _) => !m.maint
  | .bcast s => m.maint && okS m wide s

/-- Whether a scalar source is an inline literal. -/
def isLitS : SSrc → Bool
  | .lit _ => true
  | _ => false

/-- Whether a vector source is an inline literal. -/
def isLitV : VSrc → Bool
  | .bcast (.lit _) => true
  | _ => false

/-- The pattern pair of page 7: an even register, with the next one in its file (R293). -/
def okPair (m : DecMode) : Reg → Bool
  | .priv n => n.toNat % 2 == 0 && (!m.maint || n.toNat < 16)
  | .shared n => n.toNat % 2 == 0 && !m.maint

/-- A source that needs no XREG number bit, for the instructions that take no XREG (R215). -/
def lowS (m : DecMode) : SSrc → Bool
  | .reg r => r.num.toNat < (if m.maint then 8 else 16)
  | .const n => n.toNat < 8
  | .lit _ => true

/-- As `lowS`, for a vector source. -/
def lowV (m : DecMode) : VSrc → Bool
  | .reg r => r.num.toNat < (if m.maint then 8 else 16)
  | .bcast s => lowS m s

/-- The field checks of each instruction (R59 step 4). -/
def wf (m : DecMode) : Instr → Bool
  | .nop g => !g.isLanes
  | .mov g d a => !g.isLanes && okDst m d && okS m true a
  | .movi g d _ => !g.isLanes && okDst m d
  | .add g d a b => !g.isLanes && okDst m d && okS m (!isLitS b) a && okS m true b
  | .addi g d _ => !g.isLanes && okDst m d
  | .sub g d a b => !g.isLanes && okDst m d && okS m (!isLitS b) a && okS m true b
  | .mul g d a b => !g.isLanes && okDst m d && okS m (!isLitS b) a && okS m true b
  | .and g d a b => !g.isLanes && okDst m d && okS m (!isLitS b) a && okS m true b
  | .andi g d _ => !g.isLanes && okDst m d
  | .or g d a b => !g.isLanes && okDst m d && okS m (!isLitS b) a && okS m true b
  | .ori g d _ => !g.isLanes && okDst m d
  | .xor g d a b => !g.isLanes && okDst m d && okS m (!isLitS b) a && okS m true b
  | .shl g d a b => !g.isLanes && okDst m d && okS m (!isLitS b) a && okS m true b
  | .shli g d _ => !g.isLanes && okDst m d
  | .shr g d a b => !g.isLanes && okDst m d && okS m (!isLitS b) a && okS m true b
  | .shri g d _ => !g.isLanes && okDst m d
  | .sar g d a b => !g.isLanes && okDst m d && okS m (!isLitS b) a && okS m true b
  | .sari g d _ => !g.isLanes && okDst m d
  | .sel g d a b => !g.isLanes && okDst m d && okS m (!isLitS b) a && okS m true b
  | .lea g d _ => !g.isLanes && okDst m d
  | .ldb g d base _ => !g.isLanes && okDst m d && okS m false base
  | .ldh g d base _ => !g.isLanes && okDst m d && okS m false base
  | .ldw g d base _ => !g.isLanes && okDst m d && okS m false base
  | .ldd g d base _ => !g.isLanes && okDst m d && okS m false base
  | .stb g a base _ => !g.isLanes && okS m false a && okS m false base
  | .sth g a base _ => !g.isLanes && okS m false a && okS m false base
  | .stw g a base _ => !g.isLanes && okS m false a && okS m false base
  | .std g a base _ => !g.isLanes && okS m false a && okS m false base
  | .vld _ d base _ => okDst m d && okS m false base
  | .vst _ a base _ => okV m false a && okS m false base
  | .br g _ => !g.isLanes
  | .brp _ _ _ => true
  | .call g _ => !g.isLanes
  | .ret g => !g.isLanes
  | .jmpr g d a => !g.isLanes && okDst m d && okS m false a
  | .loop a dist => okS m false a && (if lowS m a then 1 else 2) ≤ dist.toInt
  | .exit g => !g.isLanes
  | .trap g _ => !g.isLanes
  | .beat g => !g.isLanes
  | .ypt g => !g.isLanes
  | .sigchk _ => true
  | .fence g _ _ => !g.isLanes
  | .lds g d base _ => !g.isLanes && okDst m d && okS m false base
  | .take g d base _ => !g.isLanes && okDst m d && okS m false base
  | .put g a base _ => !g.isLanes && okS m false a && okS m false base
  | .vadd _ d a b => okDst m d && okV m (!isLitV b) a && okV m true b
  | .vsub _ d a b => okDst m d && okV m (!isLitV b) a && okV m true b
  | .vmul _ d a b => okDst m d && okV m (!isLitV b) a && okV m true b
  | .vmov _ d b => okDst m d && okV m true b
  | .vbcast _ d b => okDst m d && okS m true b
  | .vfadd _ d a b _ => okDst m d && okV m (!isLitV b) a && okV m true b
  | .vfmul _ d a b _ => okDst m d && okV m (!isLitV b) a && okV m true b
  | .vffma _ d a b _ => okDst m d && okV m (!isLitV b) a && okV m true b
  | .mxq g a => !g.isLanes && okV m false a && (lowV m a)
  | .sywait g d sa st => !g.isLanes && okDst m d && okS m false sa && okS m false st
  | .syadd g sa sv => !g.isLanes && okS m false sa && okS m false sv
  | .mfs g d _ => !g.isLanes && okDst m d
  | .mts g n a => !g.isLanes && okS m false a && n.writable
  | .cmpeq g _ a b => !g.isLanes && okS m (!isLitS b) a && okS m true b
  | .cmplt g _ a b => !g.isLanes && okS m (!isLitS b) a && okS m true b
  | .mulh g d a b => !g.isLanes && okDst m d && okS m (!isLitS b) a && okS m true b
  | .mulhu g d a b => !g.isLanes && okDst m d && okS m (!isLitS b) a && okS m true b
  | .div g d a b => !g.isLanes && okDst m d && okS m (!isLitS b) a && okS m true b
  | .divu g d a b => !g.isLanes && okDst m d && okS m (!isLitS b) a && okS m true b
  | .rem g d a b => !g.isLanes && okDst m d && okS m (!isLitS b) a && okS m true b
  | .remu g d a b => !g.isLanes && okDst m d && okS m (!isLitS b) a && okS m true b
  | .min g d a b => !g.isLanes && okDst m d && okS m (!isLitS b) a && okS m true b
  | .max g d a b => !g.isLanes && okDst m d && okS m (!isLitS b) a && okS m true b
  | .minu g d a b => !g.isLanes && okDst m d && okS m (!isLitS b) a && okS m true b
  | .maxu g d a b => !g.isLanes && okDst m d && okS m (!isLitS b) a && okS m true b
  | .abs g d b => !g.isLanes && okDst m d && okS m true b
  | .neg g d b => !g.isLanes && okDst m d && okS m true b
  | .clz g d b => !g.isLanes && okDst m d && okS m true b
  | .ctz g d b => !g.isLanes && okDst m d && okS m true b
  | .popc g d b => !g.isLanes && okDst m d && okS m true b
  | .brev g d b => !g.isLanes && okDst m d && okS m true b
  | .rotl g d a b => !g.isLanes && okDst m d && okS m (!isLitS b) a && okS m true b
  | .ext g d b pos w1 => !g.isLanes && okDst m d && okS m false b && (pos.toNat + w1.toNat + 1 ≤ 64)
  | .extu g d b pos w1 => !g.isLanes && okDst m d && okS m false b && (pos.toNat + w1.toNat + 1 ≤ 64)
  | .ins g d b pos w1 => !g.isLanes && okDst m d && okS m false b && (pos.toNat + w1.toNat + 1 ≤ 64)
  | .sext g d b _ => !g.isLanes && okDst m d && okS m true b
  | .zext g d b _ => !g.isLanes && okDst m d && okS m true b
  | .cmpne g _ a b => !g.isLanes && okS m (!isLitS b) a && okS m true b
  | .cmpge g _ a b => !g.isLanes && okS m (!isLitS b) a && okS m true b
  | .cmpltu g _ a b => !g.isLanes && okS m (!isLitS b) a && okS m true b
  | .cmpgeu g _ a b => !g.isLanes && okS m (!isLitS b) a && okS m true b
  | .cmpeqi g _ a _ => !g.isLanes && okS m false a
  | .cmplti g _ a _ => !g.isLanes && okS m false a
  | .cmpltui g _ a _ => !g.isLanes && okS m false a
  | .pand g _ _ _ => !g.isLanes
  | .por g _ _ _ => !g.isLanes
  | .pxor g _ _ _ => !g.isLanes
  | .pnot g _ _ => !g.isLanes
  | .pset g _ _ => !g.isLanes
  | .pmovs g d _ => !g.isLanes && okDst m d
  | .pmovp g _ b => !g.isLanes && okS m true b
  | .vand _ d a b => okDst m d && okV m (!isLitV b) a && okV m true b
  | .vor _ d a b => okDst m d && okV m (!isLitV b) a && okV m true b
  | .vxor _ d a b => okDst m d && okV m (!isLitV b) a && okV m true b
  | .vshl _ d a b => okDst m d && okV m (!isLitV b) a && okV m true b
  | .vshr _ d a b => okDst m d && okV m (!isLitV b) a && okV m true b
  | .vsar _ d a b => okDst m d && okV m (!isLitV b) a && okV m true b
  | .vshli _ d _ => okDst m d
  | .vshri _ d _ => okDst m d
  | .vsari _ d _ => okDst m d
  | .vaddi _ d _ => okDst m d
  | .vmin _ d a b => okDst m d && okV m (!isLitV b) a && okV m true b
  | .vmax _ d a b => okDst m d && okV m (!isLitV b) a && okV m true b
  | .vminu _ d a b => okDst m d && okV m (!isLitV b) a && okV m true b
  | .vmaxu _ d a b => okDst m d && okV m (!isLitV b) a && okV m true b
  | .vmulh _ d a b _ => okDst m d && okV m (!isLitV b) a && okV m true b
  | .vmad _ d a b => okDst m d && okV m (!isLitV b) a && okV m true b
  | .vabs _ d b => okDst m d && okV m true b
  | .vneg _ d b => okDst m d && okV m true b
  | .vaddsat _ d a b _ => okDst m d && okV m (!isLitV b) a && okV m true b
  | .vsubsat _ d a b _ => okDst m d && okV m (!isLitV b) a && okV m true b
  | .vcmpeq _ _ a b => okV m (!isLitV b) a && okV m true b
  | .vcmpne _ _ a b => okV m (!isLitV b) a && okV m true b
  | .vcmplt _ _ a b => okV m (!isLitV b) a && okV m true b
  | .vcmpge _ _ a b => okV m (!isLitV b) a && okV m true b
  | .vcmpltu _ _ a b => okV m (!isLitV b) a && okV m true b
  | .vcmpgeu _ _ a b => okV m (!isLitV b) a && okV m true b
  | .vsel _ d a b => okDst m d && okV m (!isLitV b) a && okV m true b
  | .vpopc _ d b => okDst m d && okV m true b
  | .vclz _ d b => okDst m d && okV m true b
  | .vdot4 _ d a b _ => okDst m d && okV m (!isLitV b) a && okV m true b
  | .vfsub _ d a b _ => okDst m d && okV m (!isLitV b) a && okV m true b
  | .vfmin _ d a b => okDst m d && okV m (!isLitV b) a && okV m true b
  | .vfmax _ d a b => okDst m d && okV m (!isLitV b) a && okV m true b
  | .vfabs _ d b => okDst m d && okV m true b
  | .vfneg _ d b => okDst m d && okV m true b
  | .vffms _ d a b _ => okDst m d && okV m (!isLitV b) a && okV m true b
  | .vffnma _ d a b _ => okDst m d && okV m (!isLitV b) a && okV m true b
  | .vfdiv _ d a b _ => okDst m d && okV m (!isLitV b) a && okV m true b
  | .vfsqrt _ d b _ => okDst m d && okV m true b
  | .vfrcp _ d b => okDst m d && okV m true b
  | .vfrsq _ d b => okDst m d && okV m true b
  | .vfexp2 _ d b => okDst m d && okV m true b
  | .vflog2 _ d b => okDst m d && okV m true b
  | .vftanh _ d b => okDst m d && okV m true b
  | .vfcmpeq _ _ a b => okV m (!isLitV b) a && okV m true b
  | .vfcmplt _ _ a b => okV m (!isLitV b) a && okV m true b
  | .vfcmple _ _ a b => okV m (!isLitV b) a && okV m true b
  | .vfcmpun _ _ a b => okV m (!isLitV b) a && okV m true b
  | .vfclass _ d b => okDst m d && okV m true b
  | .vfscale _ d a b _ => okDst m d && okV m (!isLitV b) a && okV m true b
  | .vfredsum _ d b _ => okDst m d && okV m true b
  | .vfredmax _ d b => okDst m d && okV m true b
  | .vfdot2 _ d a b _ _ => okDst m d && okV m (!isLitV b) a && okV m true b
  | .cvtfi _ d b _ => okDst m d && okV m true b
  | .cvtif _ d b _ => okDst m d && okV m true b
  | .cvtfh _ d b _ _ => okDst m d && okV m true b
  | .cvthf _ d b _ => okDst m d && okV m true b
  | .cvtfb _ d b _ _ => okDst m d && okV m true b
  | .cvtbf _ d b _ => okDst m d && okV m true b
  | .cvtfq _ d b _ _ => okDst m d && okV m true b
  | .cvtqf _ d b _ => okDst m d && okV m true b
  | .cvtfs _ d b _ _ => okDst m d && okV m true b
  | .cvtsf _ d b _ _ => okDst m d && okV m true b
  | .cvtfn _ d b _ => okDst m d && okV m true b
  | .cvtnf _ d b _ => okDst m d && okV m true b
  | .tblld g _ b => !g.isLanes && okS m true b
  | .tblsel _ d b => okDst m d && okV m true b
  | .vperm g d a b => !g.isLanes && okDst m d && okV m (!isLitV b) a && okV m true b
  | .vrotl g d a b => !g.isLanes && okDst m d && okV m (!isLitS b) a && okS m true b
  | .vextr g d a b _ => !g.isLanes && okDst m d && okV m (!isLitS b) a && okS m true b
  | .vins g d a b => !g.isLanes && okDst m d && okS m (!isLitS b) a && okS m true b
  | .vpack g d a b mode sat => !g.isLanes && okDst m d && okV m (!isLitV b) a && okV m true b && (mode.toNat < 2 || mode = 2 && sat = .trunc)
  | .vunpk g d b mode part s => !g.isLanes && okDst m d && okV m true b && (mode = 0 && part.toNat < 2 || mode = 1 || mode = 2 && part = 0 && !s)
  | .vscale _ d a b _ => okDst m d && okV m (!isLitS b) a && okS m true b
  | .vblkmax g d a b _ => !g.isLanes && okDst m d && okV m (!isLitV b) a && okV m true b
  | .vldg _ d base _ vi => okDst m d && okS m false base && okV m false vi
  | .vsts _ a base _ vi => okV m false a && okS m false base && okV m false vi
  | .vlds _ d base _ => okDst m d && okS m false base
  | .rld g d base _ => !g.isLanes && okDst m d && okS m false base
  | .rst g a base _ _ _ => !g.isLanes && okS m false a && okS m false base
  | .rstv g a base _ f _ => okV m false a && okS m false base && !(f && g.isLanes)
  | .ldacq g d base _ _ => !g.isLanes && okDst m d && okS m false base
  | .strel g a base _ _ => !g.isLanes && okS m false a && okS m false base
  | .fill g base _ => !g.isLanes && okS m false base
  | .empty g base _ => !g.isLanes && okS m false base
  | .takenb g d base _ => !g.isLanes && okDst m d && okS m false base
  | .festat g d base _ => !g.isLanes && okDst m d && okS m false base
  | .pref g base _ => !g.isLanes && okS m false base
  | .flushl g base _ => !g.isLanes && okS m false base
  | .syinit g sa sr sv _ _ => !g.isLanes && okS m false sa && okS m false sr && okS m false sv
  | .syarrive g d sa => !g.isLanes && okDst m d && okS m false sa
  | .syret g sa => !g.isLanes && okS m false sa
  | .syread g d sa _ => !g.isLanes && okDst m d && okS m false sa
  | .gbar => true
  | .obnew g d lo hi _ => !g.isLanes && okDst m d && okS m false lo && okS m false hi
  | .obowe g sa => !g.isLanes && okS m false sa
  | .obgive g so sh _ _ => !g.isLanes && okS m false so && okS m false sh
  | .obq g d si field => !g.isLanes && okDst m d && okS m false si && (field.toNat ≤ 2)
  | .obrank g d so _ => !g.isLanes && okDst m d && okS m false so
  | .tsput a sr => okV m false a && okS m false sr
  | .tscopy d vp sr => okDst m d && okPair m vp && okS m false sr
  | .tscopyNb d vp sr => okDst m d && okPair m vp && okS m false sr
  | .tstake d vp sr => okDst m d && okPair m vp && okS m false sr
  | .tstakeNb d vp sr => okDst m d && okPair m vp && okS m false sr
  | .tsowe g d sr st => !g.isLanes && okDst m d && okS m false sr && okS m false st
  | .tscount g d vp sr => !g.isLanes && okDst m d && okPair m vp && okS m false sr
  | .fork g _ => !g.isLanes
  | .taskend g => !g.isLanes
  | .send g a st => !g.isLanes && okV m false a && okS m false st
  | .sendSys g a st _ => !g.isLanes && okV m false a && okS m false st
  | .sendr g a st => !g.isLanes && okV m false a && okS m false st
  | .reply g a sk => !g.isLanes && okS m false a && okS m false sk
  | .msgend g => !g.isLanes
  | .mbw g _ a => !g.isLanes && okS m false a
  | .mbr g d _ => !g.isLanes && okDst m d && !m.slot0
  | .mbrMovement g d a => !g.isLanes && okDst m d && okS m false a && m.slot0
  | .copy g _ a => !g.isLanes && okV m false a
  | .reduceExact g _ a => !g.isLanes && okV m false a
  | .reduceTree g _ a => !g.isLanes && okV m false a
  | .claim g _ => !g.isLanes
  | .release g _ => !g.isLanes
  | .mxstat g d sel => !g.isLanes && okDst m d && (d.num.toNat < 16 && sel.toNat ≤ 4)
  | .mxdrain g mask => !g.isLanes && (mask ≠ 0)
  | .trapret => true
  | .rdctr g d k => !g.isLanes && okDst m d && (k ≠ 6 && k ≠ 7)
  | .pwrhint g level => !g.isLanes && (level.toNat ≤ 4)
  | .turnend g => !g.isLanes
  | .rdturn g d _ => !g.isLanes && okDst m d
  | .tlbinv g _ => !g.isLanes
  | .dbgbrk g _ => !g.isLanes
  | .halt g => !g.isLanes
  | .setmode _ => true
  | .setmodeConst _ => true
  | .tload _ _ _ => true
  | .tstore _ _ _ => true
  | .mma _ _ _ => true
  | .mmasp _ _ _ => true
  | .accz _ _ _ => true
  | .spload _ _ _ => true
  | .mxnote _ _ _ => true
  | .mxbar _ _ _ => true
  | .launchTake _ _ => true
  | .gangRelease _ _ => true
  | .launchSweep _ => true
  | .doorbell _ _ _ => true
  | .vqPlacement _ _ _ _ _ => true
  | .taskPop _ _ => true
  | .stealVisit _ _ => true
  | .stealArrival _ _ => true
  | .stealBackoffExpiry _ _ => true
  | .dequeSpill _ _ => true
  | .dequeRefill _ _ => true
  | .messageEntry _ _ => true
  | .handlerStart _ => true
  | .handlerBudgetExhausted _ => true
  | .systemChannelMessage _ _ => true
  | .mailboxService _ => true
  | .copyStart _ _ => true
  | .copyComplete _ _ _ => true
  | .collectiveComplete _ => true
  | .movementRestart _ => true
  | .storeBufferDrain _ _ _ => true
  | .postedStoreArrival _ _ _ => true
  | .postedReplyArrival _ _ _ => true
  | .memoryReply _ _ => true
  | .divideComplete _ _ => true
  | .lateReplyLand _ _ _ _ => true
  | .deferredEntryJoin _ => true
  | .rdcInvalidation _ _ => true
  | .invalidationAck _ _ => true
  | .faultQueueReplay _ => true
  | .uncorrectableError _ => true
  | .busRepair _ _ _ => true
  | .busRetire _ _ => true
  | .matrixUnitRetire _ => true
  | .obligationStateLoss _ => true
  | .heartbeatMiss _ _ => true
  | .hbmissDelivery _ _ => true
  | .ptgapRecord _ _ => true
  | .ptgapDelivery _ _ => true
  | .replyFaultDelivery _ _ => true
  | .activityKill _ _ => true
  | .slotScrubComplete _ _ _ => true
  | .drainLead _ => true
  | .synchronisedStop _ => true
  | .turnEdgeRestore _ => true
  | .turnBoundary => true
  | .roundBoundary => true
  | .capacityChange _ _ _ => true
  | .donationEffect _ => true
  | .frequencyStep _ => true
  | .relockComplete _ => true
  | .powerCapHold _ => true
  | .ncycAnchor _ => true
  | .ncycHeldClear _ => true
  | .timeCorrection _ => true
  | .traceStateRecord _ _ _ => true
  | .kioskHalt _ => true
  | .kioskResume _ => true
  | .crossTrigger => true
  | .haltComplete _ => true
  | .bscommit _ => true
  | .bsepochWrite _ => true
  | .vfUp _ => true
  | .vfDown _ => true
  | .vfReset _ => true
  | .partitionWrite _ _ _ => true
  | .preempt _ _ => true
  | .resume _ _ => true
  | .unfence _ _ => true
  | .killgang _ _ => true
  | .syschanBind _ _ _ => true
  | .pcselWrite _ _ _ => true
  | .pcselEffect _ _ => true
  | .trctlWrite _ => true
  | .trctlEffect => true
  | .timelRead _ _ => true
  | .pctlRead _ _ _ => true
  | .residencyWrite _ _ => true
  | .pwrpolWrite _ _ => true
  | .updcmd _ => true
  | .liveUpdateTakeover => true
  | .lodgeFailover => true
  | .bootclr _ => true
  | .moduleStart _ => true
  | .registerWrite _ _ _ => true
  | .linkRetire _ _ => true
  | .flitReplay _ => true
  | .portRetrain _ => true
  | .portFailure _ => true
  | .tsRequestArrival _ _ => true
  | .tsDepositArrival _ _ => true
  | .illegal _ => true
  | .instructionFetchFault _ => true
  | .pageUnavailable _ => true
  | .busHoldEnd _ _ => true
  | .portTrainingComplete _ => true
  | .laneRepair _ _ => true
  | .liveUpdateAbandon _ => true
  | .registerError _ _ _ _ => true
  | .powerCapRelease _ => true
  | .pcTotalSample => true
  | .channelRetire _ _ => true
  | .clusterRetire _ => true
  | .islandPowerDown _ => true
  | .islandStart _ => true

/-- An instruction is well formed in a decode mode. -/
abbrev WellFormed (m : DecMode) (i : Instr) : Prop := wf m i = true

end Sys2Proof
end

