-- ==== Sys2Proof/Decode.lean ====
section
/-! DEFINITION. The decoder (R49 to R70), total on any words and rejecting by name, and after it the encoder, written from the
same encoding tables. -/

namespace Sys2Proof

/-! ## The chain -/

/-- Why a chain of words is no instruction (R56, R57, R59). -/
inductive Reject where
  /-- R56 item 9, R57: the words end before a base word. -/
  | noBase
  /-- R56 item 1. -/
  | fifthPrefix
  /-- R56 item 2. -/
  | repeatedPrefix
  /-- R56 item 3. -/
  | fourthXimm
  /-- R56 items 4 and 5. -/
  | badPage
  /-- R56 item 7. -/
  | predLow
  /-- R56 items 6 and 8, R59 step 4: an unlisted code, or a field its instruction does not define. -/
  | badCode
  deriving DecidableEq, Repr

/-- A chain taken apart (R50, R55): the payloads of its prefixes, the op and [9:0] of its base word, and its words. -/
structure Raw where
  page : BitVec 4 := 0
  m6 : BitVec 6 := 0
  op : BitVec 6 := 0
  f10 : BitVec 10 := 0
  ximm : List (BitVec 10) := []
  xreg : Option (BitVec 10) := none
  xpage : Bool := false
  xpred : Option (BitVec 10) := none
  words : Nat := 0
  deriving DecidableEq, Repr

/-- One prefix word joins a chain (R55, R56 items 2 to 5 and 7). -/
def addPrefix (r : Raw) (w : Half) : Except Reject Raw :=
  let p : BitVec 10 := w.extractLsb' 0 10
  match (w.extractLsb' 10 6).toNat with
  | 0x3C => if r.ximm.length = 3 then .error .fourthXimm else .ok { r with ximm := r.ximm ++ [p] }
  | 0x3D => if r.xreg.isSome then .error .repeatedPrefix else .ok { r with xreg := some p }
  | 0x3E =>
    if r.xpage then .error .repeatedPrefix
    else if p.extractLsb' 6 4 = 0 || 10 < (p.extractLsb' 6 4).toNat then .error .badPage
    else .ok { r with xpage := true, page := p.extractLsb' 6 4, m6 := p.extractLsb' 0 6 }
  | _ =>
    if r.xpred.isSome then .error .repeatedPrefix
    else if p.extractLsb' 0 5 ≠ 0 then .error .predLow
    else .ok { r with xpred := some p }

/-- The walk over a chain (R60). `n` prefixes have been read. -/
def walk (n : Nat) (r : Raw) : List Half → Except Reject Raw
  | [] => .error .noBase
  | w :: ws =>
    if (w.extractLsb' 10 6).toNat < 0x3C then
      .ok { r with op := w.extractLsb' 10 6, f10 := w.extractLsb' 0 10, words := n + 1 }
    else if n = 4 then .error .fifthPrefix
    else
      match addPrefix r w with
      | .error e => .error e
      | .ok r' => walk (n + 1) r' ws

/-- The length in bytes of the chain at the head of the words, by steps 1 and 2 of R59 (R145). -/
def chainLength (ws : List Half) : Option Nat :=
  match walk 0 {} ws with
  | .ok r => some (2 * r.words)
  | .error _ => none

namespace Raw

/-- Field fa (R50). -/
def fa (r : Raw) : BitVec 5 := r.f10.extractLsb' 5 5
/-- Field fb (R50). -/
def fb (r : Raw) : BitVec 5 := r.f10.extractLsb' 0 5
/-- XREG's payload, zero without XREG. -/
def xr (r : Raw) : BitVec 10 := r.xreg.getD 0
/-- Field fc (R55). -/
def fc (r : Raw) : BitVec 5 := r.xr.extractLsb' 5 5
/-- Number bit 4 of fa (R55). -/
def a4 (r : Raw) : Bool := r.xr.getLsbD 4
/-- Number bit 4 of fb (R55). -/
def b4 (r : Raw) : Bool := r.xr.getLsbD 3
/-- Number bit 4 of fc (R55). -/
def c4 (r : Raw) : Bool := r.xr.getLsbD 2
/-- Field m2 (R55). -/
def m2 (r : Raw) : BitVec 2 := r.xr.extractLsb' 0 2
/-- No third operand: fc and its number bit are zero (R56 item 8). -/
def noC (r : Raw) : Bool := r.fc == 0 && !r.c4

end Raw

/-! ## Fields -/

/-- A 5-bit register field with its number bit in normal decode (R53). -/
def regOf (f : BitVec 5) (hi : Bool) : Reg :=
  let n : BitVec 5 := (BitVec.ofBool hi) ++ f.extractLsb' 0 4
  if f.getLsbD 4 then .shared n else .priv n

/-- A register field that is written (R53; R64: private in maintenance decode). -/
def dstOf (m : DecMode) (f : BitVec 5) (hi : Bool) : Option Reg :=
  if m.maint && f.getLsbD 4 then none else some (regOf f hi)

/-- The index of a tagged source (R64). -/
def tagIx (f : BitVec 5) (hi : Bool) : BitVec 4 := BitVec.ofBool hi ++ f.extractLsb' 0 3

/-- A scalar source field (R53, R64); `ext` is what XIMM puts above the three bits of a literal. DESIGN CHOICE (log 65): a literal that XIMM
widens is zero-extended, as it is without XIMM; R64 sends to R52, whose table has no row for format F2. -/
def rdS (m : DecMode) (f : BitVec 5) (hi : Bool) (ext : BitVec 30) : Option SSrc :=
  if m.maint then
    match (f.extractLsb' 3 2).toNat with
    | 0 => none
    | 1 => some (.reg (.priv ((tagIx f hi).setWidth 5)))
    | 2 => some (.const (tagIx f hi))
    | _ => if hi then none else some (.lit ((ext ++ f.extractLsb' 0 3).setWidth 64))
  else some (.reg (regOf f hi))

/-- A vector source field (R53, R64). -/
def rdV (m : DecMode) (f : BitVec 5) (hi : Bool) (ext : BitVec 30) : Option VSrc :=
  if m.maint then
    match (f.extractLsb' 3 2).toNat with
    | 0 => some (.reg (.priv ((tagIx f hi).setWidth 5)))
    | _ => (rdS m f hi ext).map .bcast
  else some (.reg (regOf f hi))

/-- A predicate field (R53). -/
def pregOf (f : BitVec 5) (hi : Bool) : Option PReg :=
  if hi || f.extractLsb' 3 2 ≠ 0 then none else some (f.extractLsb' 0 3)

/-- The value XIMM words form above no base field (R52). -/
def ximmVal (xs : List (BitVec 10)) : BitVec 30 :=
  match xs with
  | [] => 0
  | [x] => x.setWidth 30
  | [x, y] => (x ++ y).setWidth 30
  | x :: y :: z :: _ => x ++ y ++ z

/-- Sign extension of an immediate of base width `bw` (R52). -/
def extS (bw w : Nat) (xs : List (BitVec 10)) (b : BitVec bw) : BitVec w :=
  match xs with
  | [] => b.signExtend w
  | [x] => (x ++ b).signExtend w
  | [x, y] => (x ++ (y ++ b)).signExtend w
  | x :: y :: z :: _ => (x ++ (y ++ (z ++ b))).signExtend w

/-- Zero extension of an immediate of base width `bw` (R52). -/
def extU (bw w : Nat) (xs : List (BitVec 10)) (b : BitVec bw) : BitVec w :=
  match xs with
  | [] => b.setWidth w
  | [x] => (x ++ b).setWidth w
  | [x, y] => (x ++ (y ++ b)).setWidth w
  | x :: y :: z :: _ => (x ++ (y ++ (z ++ b))).setWidth w

/-- The signed immediate of an FI instruction. -/
def immS (w : Nat) (r : Raw) : BitVec w := extS 5 w r.ximm r.fb

/-- The unsigned immediate of an FI instruction. -/
def immU (w : Nat) (r : Raw) : BitVec w := extU 5 w r.ximm r.fb

/-- Predication where per-lane masking is ILLEGAL (R61). -/
def predW (r : Raw) : Option Pred :=
  match r.xpred with
  | none => some .always
  | some p => if p.getLsbD 5 then none else some (.whole (p.extractLsb' 7 3) (p.getLsbD 6))

/-- Predication where per-lane masking is allowed (R61). -/
def predL (r : Raw) : Option Pred :=
  match r.xpred with
  | none => some .always
  | some p =>
    some (if p.getLsbD 5 then .lanes (p.extractLsb' 7 3) (p.getLsbD 6) else .whole (p.extractLsb' 7 3) (p.getLsbD 6))

/-- XPRED is barred (R62). -/
def noPred (r : Raw) (x : Option Instr) : Option Instr := if r.xpred.isSome then none else x

/-- No XIMM (R60). -/
def noImm (r : Raw) (x : Option Instr) : Option Instr := if r.ximm.isEmpty then x else none

/-- What XIMM puts above the literals of fa and fb of a format-F2 instruction without an immediate of its own (R64): in
maintenance decode it extends the literal of fb if fb is one, else that of fa; otherwise XIMM is ILLEGAL (R60). -/
def litExt (m : DecMode) (r : Raw) (aRead bRead : Bool) : Option (BitVec 30 × BitVec 30) :=
  if r.ximm.isEmpty then some (0, 0)
  else if !m.maint then none
  else if bRead && r.fb.extractLsb' 3 2 = 3 then some (0, ximmVal r.ximm)
  else if aRead && r.fa.extractLsb' 3 2 = 3 then some (ximmVal r.ximm, 0)
  else none

/-! ## Codes -/

/-- m2 as a rounding mode (R37). -/
def rndOf (c : BitVec 2) : Rnd :=
  match c.toNat with
  | 0 => .rne | 1 => .rtz | 2 => .rup | _ => .rdn

/-- m2 as a width (R37). -/
def widthOf (c : BitVec 2) : Width :=
  match c.toNat with
  | 0 => .b | 1 => .h | 2 => .w | _ => .d

/-- A scope code (R37). -/
def scopeOf (c : Nat) : Option Scope :=
  match c with
  | 0 => some .thread | 1 => some .core | 2 => some .cluster | 3 => some .die | 4 => some .module | 5 => some .system
  | _ => none

/-- m2 as the mode of VDOT4 (R126). -/
def dotOf (c : BitVec 2) : Option DotMode :=
  match c.toNat with
  | 0 => some .ss | 1 => some .uu | 2 => some .su | _ => none

/-- m2 as a saturation (R139). -/
def satOf (c : BitVec 2) : Option Sat :=
  match c.toNat with
  | 0 => some .trunc | 1 => some .signed | 2 => some .unsigned | _ => none

/-- m6 as a target of VBLKMAX (R141). -/
def blkOf (c : BitVec 6) : Option BlkTarget :=
  match c.toNat with
  | 0 => some .e4m3 | 1 => some .e5m2 | 2 => some .e2m3 | 3 => some .e3m2 | 4 => some .e2m1 | 5 => some .int8
  | _ => none

/-- The type of a sync slot (R260). -/
def typeOf (c : Nat) : Option SlotType :=
  match c with
  | 1 => some .signal | 2 => some .barrier | 3 => some .join | _ => none

/-- The kind of an obligation (R263). -/
def kindOf (c : Nat) : Option ObKind :=
  match c with
  | 1 => some .put | 2 => some .signal | 3 => some .arrive | 4 => some .reply | 5 => some .tuple | 6 => some .release
  | _ => none

/-- The mode of OBGIVE (R281). -/
def giveOf (c : Nat) : Option GiveMode :=
  match c with
  | 0 => some .toRecord | 1 => some .toActivity | 2 => some .poison | _ => none

/-- A system-register number (R96). -/
def sysOf (n : Nat) : Option SysReg :=
  match n with
  | 0x000 => some .tstat | 0x001 => some .tcause | 0x002 => some .tepc | 0x003 => some .tval | 0x004 => some .tvec
  | 0x005 => some .fpflags | 0x006 => some .ls | 0x007 => some .le | 0x008 => some .lc
  | 0x010 => some .fmta | 0x011 => some .fmtb | 0x012 => some .scla | 0x013 => some .sclb | 0x014 => some .dtab
  | 0x018 => some .obmin | 0x019 => some .obcnt | 0x01A => some .obspill | 0x01B => some .guard | 0x01C => some .dqspill
  | 0x020 => some .hbi | 0x021 => some .hbc | 0x022 => some .maxpt | 0x023 => some .ptc
  | 0x028 => some .member | 0x029 => some .gangw | 0x02A => some .gangh | 0x02B => some .stage | 0x02C => some .coreid
  | 0x02D => some .vfid | 0x02E => some .tenant | 0x02F => some .slotno | 0x030 => some .sigacc
  | _ => none

/-- A one-bit m2 field (R124). -/
def flag1 (c : BitVec 2) (k : Bool → Instr) : Option Instr :=
  match c.toNat with
  | 0 => some (k false) | 1 => some (k true) | _ => none

/-! ## Shapes: the forms of R51 to R54, R60, R124 and R194 that many instructions share -/

/-- Format F2 with an optional fc (R54): three operands with XREG, two without. -/
def opt3MM {α β : Type} (m : DecMode) (r : Raw) (pd : Option Pred) (ra : BitVec 30 → Option α) (own : Reg → α)
    (rb : BitVec 30 → Option β) (k : Pred → Reg → α → β → Option Instr) : Option Instr :=
  match r.xreg with
  | none => do
    let g ← pd
    let x ← litExt m r false true
    let d ← dstOf m r.fa r.a4
    let b ← rb x.2
    k g d (own d) b
  | some _ => do
    let g ← pd
    let x ← litExt m r true true
    let d ← dstOf m r.fc r.c4
    let a ← ra x.1
    let b ← rb x.2
    k g d a b

/-- As `opt3MM`, without m6. -/
def opt3M {α β : Type} (m : DecMode) (r : Raw) (pd : Option Pred) (ra : BitVec 30 → Option α) (own : Reg → α)
    (rb : BitVec 30 → Option β) (k : Pred → Reg → α → β → Option Instr) : Option Instr :=
  if r.m6 = 0 then opt3MM m r pd ra own rb k else none

/-- As `opt3MM`, without m2 and m6. -/
def opt3 {α β : Type} (m : DecMode) (r : Raw) (pd : Option Pred) (ra : BitVec 30 → Option α) (own : Reg → α)
    (rb : BitVec 30 → Option β) (k : Pred → Reg → α → β → Instr) : Option Instr :=
  if r.m6 = 0 && r.m2 = 0 then opt3MM m r pd ra own rb fun g d a b => some (k g d a b) else none

/-- Format F2 with a required fc that is written (R121). -/
def req3M {α β : Type} (m : DecMode) (r : Raw) (pd : Option Pred) (ra : BitVec 30 → Option α)
    (rb : BitVec 30 → Option β) (k : Pred → Reg → α → β → Option Instr) : Option Instr :=
  match r.xreg with
  | none => none
  | some _ => do
    let g ← pd
    let x ← litExt m r true true
    let d ← dstOf m r.fc r.c4
    let a ← ra x.1
    let b ← rb x.2
    k g d a b

/-- As `req3M`, without m6. -/
def req3 {α β : Type} (m : DecMode) (r : Raw) (pd : Option Pred) (ra : BitVec 30 → Option α)
    (rb : BitVec 30 → Option β) (k : Pred → Reg → α → β → Option Instr) : Option Instr :=
  if r.m6 = 0 then req3M m r pd ra rb k else none

/-- Format F2 with destination fa and source fb. -/
def twoMM {β : Type} (m : DecMode) (r : Raw) (pd : Option Pred) (rb : BitVec 30 → Option β)
    (k : Pred → Reg → β → Option Instr) : Option Instr :=
  if r.noC then do
    let g ← pd
    let x ← litExt m r false true
    let d ← dstOf m r.fa r.a4
    let b ← rb x.2
    k g d b
  else none

/-- As `twoMM`, without m6. -/
def twoM {β : Type} (m : DecMode) (r : Raw) (pd : Option Pred) (rb : BitVec 30 → Option β)
    (k : Pred → Reg → β → Option Instr) : Option Instr :=
  if r.m6 = 0 then twoMM m r pd rb k else none

/-- As `twoMM`, without m2 and m6. -/
def two {β : Type} (m : DecMode) (r : Raw) (pd : Option Pred) (rb : BitVec 30 → Option β)
    (k : Pred → Reg → β → Instr) : Option Instr :=
  if r.m6 = 0 && r.m2 = 0 then twoMM m r pd rb fun g d b => some (k g d b) else none

/-- As `two` with a scalar fb and no XIMM. -/
def twoN (m : DecMode) (r : Raw) (k : Pred → Reg → SSrc → Instr) : Option Instr :=
  noImm r (two m r (predW r) (rdS m r.fb r.b4) k)

/-- A conversion whose m6 is its part of `n` bits (R124, R134). -/
def twoP {β : Type} (m : DecMode) (r : Raw) (rb : BitVec 30 → Option β) (n : Nat)
    (k : Pred → Reg → β → Option Instr) : Option Instr :=
  if r.m6.toNat < 2 ^ n then twoMM m r (predL r) rb k else none

/-- CVTFQ: m6 [4] is OVF and [1:0] the part (R124). -/
def twoO {β : Type} (m : DecMode) (r : Raw) (rb : BitVec 30 → Option β)
    (k : Pred → Reg → β → Option Instr) : Option Instr :=
  if r.m6 &&& 0b101100#6 = 0 && r.m2 = 0 then twoMM m r (predL r) rb k else none

/-- CVTFS and CVTSF: m6 [3] is K and [1:0] the part (R124). -/
def twoK {β : Type} (m : DecMode) (r : Raw) (rb : BitVec 30 → Option β)
    (k : Pred → Reg → β → Option Instr) : Option Instr :=
  if r.m6 &&& 0b110100#6 = 0 && r.m2 = 0 then twoMM m r (predL r) rb k else none

/-- Two sources and no destination, no XIMM. -/
def srcs2 {α β : Type} (r : Raw) (ra : BitVec 30 → Option α) (rb : BitVec 30 → Option β)
    (k : Pred → α → β → Option Instr) : Option Instr :=
  if r.noC && r.m2 = 0 && r.ximm.isEmpty then do
    let g ← predW r
    let a ← ra 0
    let b ← rb 0
    k g a b
  else none

/-- Source fb alone, fa zero, no XIMM. -/
def oneB (m : DecMode) (r : Raw) (k : Pred → SSrc → Instr) : Option Instr :=
  if r.noC && r.m2 = 0 && r.m6 = 0 && r.ximm.isEmpty && r.fa = 0 && !r.a4 then do
    let g ← predW r
    let b ← rdS m r.fb r.b4 0
    some (k g b)
  else none

/-- A compare: fc names the destination predicate, p0 without XREG (R54, R118). -/
def cmp3 {α β : Type} (m : DecMode) (r : Raw) (pd : Option Pred) (ra : BitVec 30 → Option α)
    (rb : BitVec 30 → Option β) (k : Pred → PReg → α → β → Instr) : Option Instr :=
  if r.m6 = 0 && r.m2 = 0 then do
    let g ← pd
    let x ← litExt m r true true
    let d ← pregOf r.fc r.c4
    let a ← ra x.1
    let b ← rb x.2
    some (k g d a b)
  else none

/-- Format FI with destination fa (R51, R108). -/
def fiP {γ : Type} (m : DecMode) (r : Raw) (pd : Option Pred) (i : γ) (k : Pred → Reg → γ → Option Instr) : Option Instr :=
  if r.noC && r.m2 = 0 && r.m6 = 0 && !r.b4 then do
    let g ← pd
    let d ← dstOf m r.fa r.a4
    k g d i
  else none

/-- A compare with an immediate (R111). DEDUCED (log 67): in maintenance decode its fa, which it only reads, is a tagged source (R64). -/
def cmpI {γ : Type} (m : DecMode) (r : Raw) (i : γ) (k : Pred → PReg → SSrc → γ → Instr) : Option Instr :=
  if r.m2 = 0 && r.m6 = 0 && !r.b4 then do
    let g ← predW r
    let d ← pregOf r.fc r.c4
    let a ← rdS m r.fa r.a4 0
    some (k g d a i)
  else none

/-- Format FS and format FB or FP: no XREG (R60). -/
def bare (r : Raw) (x : Option Instr) : Option Instr := if r.xreg.isSome || r.m6 ≠ 0 then none else x

/-- Format FS with a field and no XIMM. -/
def fsF (r : Raw) (k : Pred → BitVec 10 → Option Instr) : Option Instr :=
  bare r (noImm r ((predW r).bind fun g => k g r.f10))

/-- Format FS with field10 zero (R60). -/
def noOps (_ : DecMode) (r : Raw) (k : Pred → Instr) : Option Instr :=
  fsF r fun g f => if f = 0 then some (k g) else none

/-- Format FB (R51). -/
def fbF (r : Raw) (k : Pred → BitVec 40 → Instr) : Option Instr :=
  bare r ((predW r).map fun g => k g (extS 10 40 r.ximm r.f10))

/-- Format FM without a data register (R194). -/
def fmN (m : DecMode) (r : Raw) (k : Pred → SSrc → BitVec 30 → Instr) : Option Instr :=
  if r.noC && r.m2 = 0 && r.m6 = 0 && r.fa = 0 && !r.a4 then do
    let g ← predW r
    let b ← rdS m r.fb r.b4 0
    some (k g b (extS 0 30 r.ximm 0))
  else none

/-- Format FM with a data register that is written (R194). -/
def fmD (m : DecMode) (r : Raw) (pd : Option Pred) (m2 : BitVec 2) (k : Pred → Reg → SSrc → BitVec 30 → Instr) :
    Option Instr :=
  if r.noC && r.m2 = m2 && r.m6 = 0 then do
    let g ← pd
    let d ← dstOf m r.fa r.a4
    let b ← rdS m r.fb r.b4 0
    some (k g d b (extS 0 30 r.ximm 0))
  else none

/-- Format FM with a data register that is read (R194). -/
def fmS {α : Type} (m : DecMode) (r : Raw) (pd : Option Pred) (m2 : BitVec 2) (ra : BitVec 30 → Option α)
    (k : Pred → α → SSrc → BitVec 30 → Instr) : Option Instr :=
  if r.noC && r.m2 = m2 && r.m6 = 0 then do
    let g ← pd
    let a ← ra 0
    let b ← rdS m r.fb r.b4 0
    some (k g a b (extS 0 30 r.ximm 0))
  else none

/-- The pattern instructions of page 7 (R293): fa an even vector register, fc required. A pattern is a pair of registers, so in
maintenance decode fa names a vector register (log 8). -/
def pairF (m : DecMode) (r : Raw) (k : Pred → Reg → Reg → SSrc → Option Instr) : Option Instr :=
  if r.xreg.isSome && r.m2 = 0 && r.ximm.isEmpty then do
    let g ← predW r
    let d ← dstOf m r.fc r.c4
    let a ← rdV m r.fa r.a4 0
    let b ← rdS m r.fb r.b4 0
    match a with
    | .reg vp => if okPair m vp then k g d vp b else none
    | .bcast _ => none
  else none

/-! ## Instructions with a form of their own -/

/-- Format FI with a scalar destination. -/
def fi {γ : Type} (m : DecMode) (r : Raw) (i : γ) (k : Pred → Reg → γ → Option Instr) : Option Instr := fiP m r (predW r) i k

/-- Format FI with a vector destination. -/
def fiV {γ : Type} (m : DecMode) (r : Raw) (i : γ) (k : Pred → Reg → γ → Option Instr) : Option Instr := fiP m r (predL r) i k

/-- EXT, EXTU and INS: XIMM carries pos and width (R108, R116). DESIGN CHOICE (log 66): in maintenance decode it does so beside a literal in fb
too, which then keeps its three bits. -/
def extF (m : DecMode) (r : Raw) (k : Pred → Reg → SSrc → BitVec 6 → BitVec 6 → Instr) : Option Instr :=
  let v := ximmVal r.ximm
  let pos : BitVec 6 := v.extractLsb' 0 6
  let w1 : BitVec 6 := v.extractLsb' 6 6
  if r.noC && r.m2 = 0 && r.m6 = 0 && v.toNat < 4096 && pos.toNat + w1.toNat + 1 ≤ 64 then do
    let g ← predW r
    let d ← dstOf m r.fa r.a4
    let b ← rdS m r.fb r.b4 0
    some (k g d b pos w1)
  else none

/-- PAND, POR and PXOR (R111). -/
def p3 (r : Raw) (k : Pred → PReg → PReg → PReg → Instr) : Option Instr :=
  if r.m2 = 0 && r.m6 = 0 && r.ximm.isEmpty then do
    let g ← predW r
    let a ← pregOf r.fa r.a4
    let b ← pregOf r.fb r.b4
    let d ← if r.xreg.isSome then pregOf r.fc r.c4 else some a
    some (k g d a b)
  else none

/-- PNOT (R111). -/
def p2 (r : Raw) (k : Pred → PReg → PReg → Instr) : Option Instr :=
  if r.noC && r.m2 = 0 && r.m6 = 0 && r.ximm.isEmpty then do
    let g ← predW r
    let d ← pregOf r.fa r.a4
    let b ← pregOf r.fb r.b4
    some (k g d b)
  else none

/-- PSET (R108, R111). -/
def psetF (_ : DecMode) (r : Raw) : Option Instr :=
  if r.noC && r.m2 = 0 && r.m6 = 0 && !r.b4 && (immU 35 r).toNat < 65536 then do
    let g ← predW r
    let d ← pregOf r.fa r.a4
    some (.pset g d ((immU 35 r).setWidth 16))
  else none

/-- PMOVS (R111, R119). -/
def pmovsF (m : DecMode) (r : Raw) : Option Instr :=
  if r.noC && r.m2 = 0 && r.m6 = 0 && r.ximm.isEmpty then do
    let g ← predW r
    let d ← dstOf m r.fa r.a4
    let b ← pregOf r.fb r.b4
    some (.pmovs g d b)
  else none

/-- PMOVP (R111, R119). -/
def pmovpF (m : DecMode) (r : Raw) : Option Instr :=
  if r.noC && r.m2 = 0 && r.m6 = 0 then do
    let g ← predW r
    let x ← litExt m r false true
    let d ← pregOf r.fa r.a4
    let b ← rdS m r.fb r.b4 x.2
    some (.pmovp g d b)
  else none

/-- MFS (R69). -/
def mfsF (m : DecMode) (r : Raw) : Option Instr :=
  if r.xreg.isSome && r.m6 = 0 && !r.a4 && !r.b4 && r.m2 = 0 && r.ximm.isEmpty then do
    let g ← predW r
    let d ← dstOf m r.fc r.c4
    let n ← sysOf r.f10.toNat
    some (.mfs g d n)
  else none

/-- MTS (R69, R95). -/
def mtsF (m : DecMode) (r : Raw) : Option Instr :=
  if r.xreg.isSome && r.m6 = 0 && !r.a4 && !r.b4 && r.m2 = 0 && r.ximm.isEmpty then do
    let g ← predW r
    let a ← rdS m r.fc r.c4 0
    let n ← sysOf r.f10.toNat
    if n.writable then some (.mts g n a) else none
  else none

/-- VPACK (R124, R139). -/
def packOf (r : Raw) (g : Pred) (d : Reg) (a b : VSrc) : Option Instr := do
  let q ← satOf r.m2
  if r.m6.toNat < 2 || (r.m6 = 2 && q = .trunc) then some (.vpack g d a b (r.m6.setWidth 2) q) else none

/-- VUNPK (R124, R139). -/
def unpkOf (r : Raw) (g : Pred) (d : Reg) (b : VSrc) : Option Instr :=
  let mode : BitVec 2 := r.m6.extractLsb' 0 2
  let part : BitVec 2 := r.m6.extractLsb' 2 2
  let s : Bool := r.m2 == 1
  if r.m6.toNat < 16 && r.m2.toNat < 2 &&
      (mode = 0 && part.toNat < 2 || mode = 1 || mode = 2 && part = 0 && !s) then
    some (.vunpk g d b mode part s)
  else none

/-- TBLLD (R124, R136). -/
def tblldF (m : DecMode) (r : Raw) : Option Instr :=
  if r.noC && r.m2 = 0 && r.m6 = 0 && !r.a4 && r.fa.extractLsb' 2 3 = 1 then do
    let g ← predW r
    let x ← litExt m r false true
    let b ← rdS m r.fb r.b4 x.2
    some (.tblld g (r.fa.extractLsb' 0 2) b)
  else none

/-- VLDG (R194): fc is the index register, required. -/
def vldgF (m : DecMode) (r : Raw) : Option Instr :=
  if r.xreg.isSome && r.m2 = 0 && r.m6 = 0 then do
    let g ← predL r
    let d ← dstOf m r.fa r.a4
    let b ← rdS m r.fb r.b4 0
    let vi ← rdV m r.fc r.c4 0
    some (.vldg g d b (extS 0 30 r.ximm 0) vi)
  else none

/-- VSTS (R194). -/
def vstsF (m : DecMode) (r : Raw) : Option Instr :=
  if r.xreg.isSome && r.m2 = 0 && r.m6 = 0 then do
    let g ← predL r
    let a ← rdV m r.fa r.a4 0
    let b ← rdS m r.fb r.b4 0
    let vi ← rdV m r.fc r.c4 0
    some (.vsts g a b (extS 0 30 r.ximm 0) vi)
  else none

/-- LDACQ (R194). -/
def ldacqF (m : DecMode) (r : Raw) : Option Instr :=
  if r.noC && r.m2 = 0 then do
    let g ← predW r
    let sc ← scopeOf r.m6.toNat
    let d ← dstOf m r.fa r.a4
    let b ← rdS m r.fb r.b4 0
    some (.ldacq g d b (extS 0 30 r.ximm 0) sc)
  else none

/-- STREL (R194). -/
def strelF (m : DecMode) (r : Raw) : Option Instr :=
  if r.noC && r.m2 = 0 then do
    let g ← predW r
    let sc ← scopeOf r.m6.toNat
    let a ← rdS m r.fa r.a4 0
    let b ← rdS m r.fb r.b4 0
    some (.strel g a b (extS 0 30 r.ximm 0) sc)
  else none

/-- BRP (R51, R142): XPRED is barred. -/
def brpF (r : Raw) : Option Instr :=
  noPred r (bare r (some (.brp (r.f10.extractLsb' 7 3) (r.f10.getLsbD 6) (extS 6 36 r.ximm (r.f10.extractLsb' 0 6)))))

/-- LOOP (R142, R145): a distance below its own length is ILLEGAL. DEDUCED (log 67): in maintenance decode its fa, which it only reads, is a
tagged source (R64). -/
def loopF (m : DecMode) (r : Raw) : Option Instr :=
  if r.noC && r.m2 = 0 && r.m6 = 0 && !r.b4 && (r.words : Int) ≤ (immS 35 r).toInt then
    noPred r ((rdS m r.fa r.a4 0).map fun a => .loop a (immS 35 r))
  else none

/-- TRAP (R142). -/
def trapF (r : Raw) : Option Instr :=
  bare r ((predW r).map fun g => .trap g (extU 10 40 r.ximm r.f10))

/-- SIGCHK (R142): XPRED is barred. -/
def sigF (r : Raw) : Option Instr :=
  noPred r (bare r (
    if (extU 10 40 r.ximm r.f10).toNat < 65536 then some (.sigchk ((extU 10 40 r.ximm r.f10).setWidth 16)) else none))

/-- PWRHINT (R323): its level is an immediate of FS, zero-extended with any XIMM (R52, R60). -/
def pwrhintF (r : Raw) : Option Instr :=
  bare r ((predW r).bind fun g =>
    if (extU 10 40 r.ximm r.f10).toNat < 5 then some (.pwrhint g ((extU 10 40 r.ximm r.f10).setWidth 3)) else none)

/-- FENCE (R200). -/
def fenceF (r : Raw) : Option Instr :=
  fsF r fun g f =>
    if f.toNat < 16 then (scopeOf (f.toNat % 8)).map fun sc => .fence g (f.getLsbD 3) sc else none

/-- No XREG at all: the matrix instructions (R215). -/
def noXreg (r : Raw) (x : Option Instr) : Option Instr := noImm r (bare r x)

/-- MXQ (R215). -/
def mxqF (m : DecMode) (r : Raw) : Option Instr :=
  noXreg r (if r.fb = 0 then do
    let g ← predW r
    let a ← rdV m r.fa false 0
    some (.mxq g a)
  else none)

/-- CLAIM and RELEASE (R215). -/
def bayF (r : Raw) (k : Pred → BitVec 4 → Instr) : Option Instr :=
  noXreg r (if r.fb = 0 && !r.fa.getLsbD 4 then (predW r).map fun g => k g (r.fa.setWidth 4) else none)

/-- MXSTAT (R215). -/
def mxstatF (m : DecMode) (r : Raw) : Option Instr :=
  noXreg r (if r.fb.toNat < 5 then do
    let g ← predW r
    let d ← dstOf m r.fa false
    some (.mxstat g d (r.fb.setWidth 3))
  else none)

/-- MXDRAIN (R215). -/
def mxdrainF (r : Raw) : Option Instr :=
  noXreg r (if r.fa = 0 && r.fb ≠ 0 && r.fb.toNat < 16 then (predW r).map fun g => .mxdrain g (r.fb.setWidth 4) else none)

/-- SYINIT (R271). -/
def syinitF (m : DecMode) (r : Raw) : Option Instr :=
  if r.xreg.isSome && r.m2 = 0 && r.ximm.isEmpty && r.m6.toNat < 8 then do
    let g ← predW r
    let t ← typeOf (r.m6.toNat % 4)
    let sa ← rdS m r.fa r.a4 0
    let sr ← rdS m r.fb r.b4 0
    let sv ← rdS m r.fc r.c4 0
    some (.syinit g sa sr sv t (r.m6.getLsbD 2))
  else none

/-- GBAR (R271): XPRED is barred, both fields are zero. -/
def gbarF (_ : DecMode) (r : Raw) : Option Instr :=
  noPred r (noImm r (if r.noC && r.m2 = 0 && r.m6 = 0 && r.f10 = 0 && !r.a4 && !r.b4 then some .gbar else none))

/-- OBGIVE (R271). -/
def obgiveF (m : DecMode) (r : Raw) : Option Instr :=
  srcs2 r (rdS m r.fa r.a4) (rdS m r.fb r.b4) fun g a b =>
    if r.m6.toNat < 32 then do
      let mo ← giveOf (r.m6.toNat % 4)
      let k ← kindOf (r.m6.toNat / 4)
      some (.obgive g a b mo k)
    else none

/-- MBW (R235). -/
def mbwF (m : DecMode) (r : Raw) : Option Instr :=
  if r.noC && r.m2 = 0 && r.m6 = 0 && r.ximm.isEmpty && !r.a4 && r.fa.toNat < 4 then do
    let g ← predW r
    let a ← rdS m r.fb r.b4 0
    some (.mbw g (r.fa.setWidth 2) a)
  else none

/-- MBR outside the movement slot (R235). -/
def mbrF (m : DecMode) (r : Raw) : Option Instr :=
  if r.noC && r.m2 = 0 && r.m6 = 0 && r.ximm.isEmpty && !r.b4 && r.fb.toNat < 4 then do
    let g ← predW r
    let d ← dstOf m r.fa r.a4
    some (.mbr g d (r.fb.setWidth 2))
  else none

/-- COPY and REDUCE (R235): fa names a private scalar register. -/
def copyF (m : DecMode) (r : Raw) (k : Pred → BitVec 5 → VSrc → Option Instr) : Option Instr :=
  if r.noC && r.m6 = 0 && r.ximm.isEmpty && !r.fa.getLsbD 4 then do
    let g ← predW r
    let a ← rdV m r.fb r.b4 0
    k g (regOf r.fa r.a4).num a
  else none

/-- RDCTR (R323). -/
def rdctrF (m : DecMode) (r : Raw) : Option Instr :=
  if r.noC && r.m2 = 0 && r.m6 = 0 && r.ximm.isEmpty && !r.b4 && r.fb.toNat < 16 && r.fb ≠ 6 && r.fb ≠ 7 then do
    let g ← predW r
    let d ← dstOf m r.fa r.a4
    some (.rdctr g d (r.fb.setWidth 4))
  else none

/-- RDTURN (R323). -/
def rdturnF (m : DecMode) (r : Raw) : Option Instr :=
  if r.noC && r.m2 = 0 && r.m6 = 0 && r.ximm.isEmpty && !r.b4 && r.fb.toNat < 4 then do
    let g ← predW r
    let d ← dstOf m r.fa r.a4
    some (.rdturn g d (r.fb.setWidth 2))
  else none

/-! ## The pages -/

/-- The codes of page 0 (R66, R67): the fields of each by its description. -/
def page0 (m : DecMode) (r : Raw) : Option Instr :=
  match r.op.toNat with
  | 0x00 => noOps m r .nop
  | 0x01 => two m r (predW r) (rdS m r.fb r.b4) .mov
  | 0x02 => fi m r (immS 35 r) fun g d i => some (.movi g d i)
  | 0x03 => opt3 m r (predW r) (rdS m r.fa r.a4) SSrc.reg (rdS m r.fb r.b4) .add
  | 0x04 => fi m r (immS 35 r) fun g d i => some (.addi g d i)
  | 0x05 => opt3 m r (predW r) (rdS m r.fa r.a4) SSrc.reg (rdS m r.fb r.b4) .sub
  | 0x06 => opt3 m r (predW r) (rdS m r.fa r.a4) SSrc.reg (rdS m r.fb r.b4) .mul
  | 0x07 => opt3 m r (predW r) (rdS m r.fa r.a4) SSrc.reg (rdS m r.fb r.b4) .and
  | 0x08 => fi m r (immS 35 r) fun g d i => some (.andi g d i)
  | 0x09 => opt3 m r (predW r) (rdS m r.fa r.a4) SSrc.reg (rdS m r.fb r.b4) .or
  | 0x0A => fi m r (immU 35 r) fun g d i => some (.ori g d i)
  | 0x0B => opt3 m r (predW r) (rdS m r.fa r.a4) SSrc.reg (rdS m r.fb r.b4) .xor
  | 0x0C => opt3 m r (predW r) (rdS m r.fa r.a4) SSrc.reg (rdS m r.fb r.b4) .shl
  | 0x0D => fi m r (immU 35 r) fun g d i => if i.toNat < 64 then some (.shli g d (i.setWidth 6)) else none
  | 0x0E => opt3 m r (predW r) (rdS m r.fa r.a4) SSrc.reg (rdS m r.fb r.b4) .shr
  | 0x0F => fi m r (immU 35 r) fun g d i => if i.toNat < 64 then some (.shri g d (i.setWidth 6)) else none
  | 0x10 => opt3 m r (predW r) (rdS m r.fa r.a4) SSrc.reg (rdS m r.fb r.b4) .sar
  | 0x11 => fi m r (immU 35 r) fun g d i => if i.toNat < 64 then some (.sari g d (i.setWidth 6)) else none
  | 0x12 => opt3 m r (predW r) (rdS m r.fa r.a4) SSrc.reg (rdS m r.fb r.b4) .sel
  | 0x13 => fi m r (immS 35 r) fun g d i => some (.lea g d i)
  | 0x14 => fmD m r (predW r) 0 .ldb
  | 0x15 => fmD m r (predW r) 0 .ldh
  | 0x16 => fmD m r (predW r) 0 .ldw
  | 0x17 => fmD m r (predW r) 0 .ldd
  | 0x18 => fmS m r (predW r) 0 (rdS m r.fa r.a4) .stb
  | 0x19 => fmS m r (predW r) 0 (rdS m r.fa r.a4) .sth
  | 0x1A => fmS m r (predW r) 0 (rdS m r.fa r.a4) .stw
  | 0x1B => fmS m r (predW r) 0 (rdS m r.fa r.a4) .std
  | 0x1C => fmD m r (predL r) 0 .vld
  | 0x1D => fmS m r (predL r) 0 (rdV m r.fa r.a4) .vst
  | 0x1E => fbF r .br
  | 0x1F => brpF r
  | 0x20 => fbF r .call
  | 0x21 => noOps m r .ret
  | 0x22 => twoN m r .jmpr
  | 0x23 => loopF m r
  | 0x24 => noOps m r .exit
  | 0x25 => trapF r
  | 0x26 => noOps m r .beat
  | 0x27 => noOps m r .ypt
  | 0x28 => sigF r
  | 0x29 => fenceF r
  | 0x2A => fmD m r (predW r) 0 .lds
  | 0x2B => fmD m r (predW r) 0 .take
  | 0x2C => fmS m r (predW r) 0 (rdS m r.fa r.a4) .put
  | 0x2D => opt3 m r (predL r) (rdV m r.fa r.a4) VSrc.reg (rdV m r.fb r.b4) .vadd
  | 0x2E => opt3 m r (predL r) (rdV m r.fa r.a4) VSrc.reg (rdV m r.fb r.b4) .vsub
  | 0x2F => opt3 m r (predL r) (rdV m r.fa r.a4) VSrc.reg (rdV m r.fb r.b4) .vmul
  | 0x30 => two m r (predL r) (rdV m r.fb r.b4) .vmov
  | 0x31 => two m r (predL r) (rdS m r.fb r.b4) .vbcast
  | 0x32 => opt3M m r (predL r) (rdV m r.fa r.a4) VSrc.reg (rdV m r.fb r.b4) fun g d a b => some (.vfadd g d a b (rndOf r.m2))
  | 0x33 => opt3M m r (predL r) (rdV m r.fa r.a4) VSrc.reg (rdV m r.fb r.b4) fun g d a b => some (.vfmul g d a b (rndOf r.m2))
  | 0x34 => req3 m r (predL r) (rdV m r.fa r.a4) (rdV m r.fb r.b4) fun g d a b => some (.vffma g d a b (rndOf r.m2))
  | 0x35 => mxqF m r
  | 0x36 => noImm r (opt3 m r (predW r) (rdS m r.fa r.a4) SSrc.reg (rdS m r.fb r.b4) .sywait)
  | 0x37 => srcs2 r (rdS m r.fa r.a4) (rdS m r.fb r.b4) fun g a b => if r.m6 = 0 then some (.syadd g a b) else none
  | 0x38 => mfsF m r
  | 0x39 => mtsF m r
  | 0x3A => cmp3 m r (predW r) (rdS m r.fa r.a4) (rdS m r.fb r.b4) .cmpeq
  | 0x3B => cmp3 m r (predW r) (rdS m r.fa r.a4) (rdS m r.fb r.b4) .cmplt
  | _ => none

/-- The codes of page 1 (R66, R67): the fields of each by its description. -/
def page1 (m : DecMode) (r : Raw) : Option Instr :=
  match r.op.toNat with
  | 0x00 => opt3 m r (predW r) (rdS m r.fa r.a4) SSrc.reg (rdS m r.fb r.b4) .mulh
  | 0x01 => opt3 m r (predW r) (rdS m r.fa r.a4) SSrc.reg (rdS m r.fb r.b4) .mulhu
  | 0x02 => opt3 m r (predW r) (rdS m r.fa r.a4) SSrc.reg (rdS m r.fb r.b4) .div
  | 0x03 => opt3 m r (predW r) (rdS m r.fa r.a4) SSrc.reg (rdS m r.fb r.b4) .divu
  | 0x04 => opt3 m r (predW r) (rdS m r.fa r.a4) SSrc.reg (rdS m r.fb r.b4) .rem
  | 0x05 => opt3 m r (predW r) (rdS m r.fa r.a4) SSrc.reg (rdS m r.fb r.b4) .remu
  | 0x06 => opt3 m r (predW r) (rdS m r.fa r.a4) SSrc.reg (rdS m r.fb r.b4) .min
  | 0x07 => opt3 m r (predW r) (rdS m r.fa r.a4) SSrc.reg (rdS m r.fb r.b4) .max
  | 0x08 => opt3 m r (predW r) (rdS m r.fa r.a4) SSrc.reg (rdS m r.fb r.b4) .minu
  | 0x09 => opt3 m r (predW r) (rdS m r.fa r.a4) SSrc.reg (rdS m r.fb r.b4) .maxu
  | 0x0A => two m r (predW r) (rdS m r.fb r.b4) .abs
  | 0x0B => two m r (predW r) (rdS m r.fb r.b4) .neg
  | 0x0C => two m r (predW r) (rdS m r.fb r.b4) .clz
  | 0x0D => two m r (predW r) (rdS m r.fb r.b4) .ctz
  | 0x0E => two m r (predW r) (rdS m r.fb r.b4) .popc
  | 0x0F => two m r (predW r) (rdS m r.fb r.b4) .brev
  | 0x10 => opt3 m r (predW r) (rdS m r.fa r.a4) SSrc.reg (rdS m r.fb r.b4) .rotl
  | 0x11 => extF m r .ext
  | 0x12 => extF m r .extu
  | 0x13 => extF m r .ins
  | 0x14 => twoM m r (predW r) (rdS m r.fb r.b4) fun g d b => some (.sext g d b (widthOf r.m2))
  | 0x15 => twoM m r (predW r) (rdS m r.fb r.b4) fun g d b => some (.zext g d b (widthOf r.m2))
  | 0x16 => cmp3 m r (predW r) (rdS m r.fa r.a4) (rdS m r.fb r.b4) .cmpne
  | 0x17 => cmp3 m r (predW r) (rdS m r.fa r.a4) (rdS m r.fb r.b4) .cmpge
  | 0x18 => cmp3 m r (predW r) (rdS m r.fa r.a4) (rdS m r.fb r.b4) .cmpltu
  | 0x19 => cmp3 m r (predW r) (rdS m r.fa r.a4) (rdS m r.fb r.b4) .cmpgeu
  | 0x1A => cmpI m r (immS 35 r) .cmpeqi
  | 0x1B => cmpI m r (immS 35 r) .cmplti
  | 0x1C => cmpI m r (immU 35 r) .cmpltui
  | 0x1D => p3 r .pand
  | 0x1E => p3 r .por
  | 0x1F => p3 r .pxor
  | 0x20 => p2 r .pnot
  | 0x21 => psetF m r
  | 0x22 => pmovsF m r
  | 0x23 => pmovpF m r
  | _ => none

/-- The codes of page 2 (R66, R67): the fields of each by its description. -/
def page2 (m : DecMode) (r : Raw) : Option Instr :=
  match r.op.toNat with
  | 0x00 => opt3 m r (predL r) (rdV m r.fa r.a4) VSrc.reg (rdV m r.fb r.b4) .vand
  | 0x01 => opt3 m r (predL r) (rdV m r.fa r.a4) VSrc.reg (rdV m r.fb r.b4) .vor
  | 0x02 => opt3 m r (predL r) (rdV m r.fa r.a4) VSrc.reg (rdV m r.fb r.b4) .vxor
  | 0x03 => opt3 m r (predL r) (rdV m r.fa r.a4) VSrc.reg (rdV m r.fb r.b4) .vshl
  | 0x04 => opt3 m r (predL r) (rdV m r.fa r.a4) VSrc.reg (rdV m r.fb r.b4) .vshr
  | 0x05 => opt3 m r (predL r) (rdV m r.fa r.a4) VSrc.reg (rdV m r.fb r.b4) .vsar
  | 0x06 => fiV m r (immU 35 r) fun g d i => if i.toNat < 32 then some (.vshli g d (i.setWidth 5)) else none
  | 0x07 => fiV m r (immU 35 r) fun g d i => if i.toNat < 32 then some (.vshri g d (i.setWidth 5)) else none
  | 0x08 => fiV m r (immU 35 r) fun g d i => if i.toNat < 32 then some (.vsari g d (i.setWidth 5)) else none
  | 0x09 => fiV m r (immS 35 r) fun g d i => if (i.setWidth 32).signExtend 35 = i then some (.vaddi g d (i.setWidth 32)) else none
  | 0x0A => opt3 m r (predL r) (rdV m r.fa r.a4) VSrc.reg (rdV m r.fb r.b4) .vmin
  | 0x0B => opt3 m r (predL r) (rdV m r.fa r.a4) VSrc.reg (rdV m r.fb r.b4) .vmax
  | 0x0C => opt3 m r (predL r) (rdV m r.fa r.a4) VSrc.reg (rdV m r.fb r.b4) .vminu
  | 0x0D => opt3 m r (predL r) (rdV m r.fa r.a4) VSrc.reg (rdV m r.fb r.b4) .vmaxu
  | 0x0E => opt3M m r (predL r) (rdV m r.fa r.a4) VSrc.reg (rdV m r.fb r.b4) fun g d a b => flag1 r.m2 (.vmulh g d a b)
  | 0x0F => req3 m r (predL r) (rdV m r.fa r.a4) (rdV m r.fb r.b4) fun g d a b => if r.m2 = 0 then some (.vmad g d a b) else none
  | 0x10 => two m r (predL r) (rdV m r.fb r.b4) .vabs
  | 0x11 => two m r (predL r) (rdV m r.fb r.b4) .vneg
  | 0x12 => opt3M m r (predL r) (rdV m r.fa r.a4) VSrc.reg (rdV m r.fb r.b4) fun g d a b => flag1 r.m2 (.vaddsat g d a b)
  | 0x13 => opt3M m r (predL r) (rdV m r.fa r.a4) VSrc.reg (rdV m r.fb r.b4) fun g d a b => flag1 r.m2 (.vsubsat g d a b)
  | 0x14 => cmp3 m r (predL r) (rdV m r.fa r.a4) (rdV m r.fb r.b4) .vcmpeq
  | 0x15 => cmp3 m r (predL r) (rdV m r.fa r.a4) (rdV m r.fb r.b4) .vcmpne
  | 0x16 => cmp3 m r (predL r) (rdV m r.fa r.a4) (rdV m r.fb r.b4) .vcmplt
  | 0x17 => cmp3 m r (predL r) (rdV m r.fa r.a4) (rdV m r.fb r.b4) .vcmpge
  | 0x18 => cmp3 m r (predL r) (rdV m r.fa r.a4) (rdV m r.fb r.b4) .vcmpltu
  | 0x19 => cmp3 m r (predL r) (rdV m r.fa r.a4) (rdV m r.fb r.b4) .vcmpgeu
  | 0x1A => opt3 m r (predL r) (rdV m r.fa r.a4) VSrc.reg (rdV m r.fb r.b4) .vsel
  | 0x1B => two m r (predL r) (rdV m r.fb r.b4) .vpopc
  | 0x1C => two m r (predL r) (rdV m r.fb r.b4) .vclz
  | 0x1D => req3 m r (predL r) (rdV m r.fa r.a4) (rdV m r.fb r.b4) fun g d a b => (dotOf r.m2).map (.vdot4 g d a b)
  | _ => none

/-- The codes of page 3 (R66, R67): the fields of each by its description. -/
def page3 (m : DecMode) (r : Raw) : Option Instr :=
  match r.op.toNat with
  | 0x00 => opt3M m r (predL r) (rdV m r.fa r.a4) VSrc.reg (rdV m r.fb r.b4) fun g d a b => some (.vfsub g d a b (rndOf r.m2))
  | 0x01 => opt3 m r (predL r) (rdV m r.fa r.a4) VSrc.reg (rdV m r.fb r.b4) .vfmin
  | 0x02 => opt3 m r (predL r) (rdV m r.fa r.a4) VSrc.reg (rdV m r.fb r.b4) .vfmax
  | 0x03 => two m r (predL r) (rdV m r.fb r.b4) .vfabs
  | 0x04 => two m r (predL r) (rdV m r.fb r.b4) .vfneg
  | 0x05 => req3 m r (predL r) (rdV m r.fa r.a4) (rdV m r.fb r.b4) fun g d a b => some (.vffms g d a b (rndOf r.m2))
  | 0x06 => req3 m r (predL r) (rdV m r.fa r.a4) (rdV m r.fb r.b4) fun g d a b => some (.vffnma g d a b (rndOf r.m2))
  | 0x07 => opt3M m r (predL r) (rdV m r.fa r.a4) VSrc.reg (rdV m r.fb r.b4) fun g d a b => some (.vfdiv g d a b (rndOf r.m2))
  | 0x08 => twoM m r (predL r) (rdV m r.fb r.b4) fun g d b => some (.vfsqrt g d b (rndOf r.m2))
  | 0x09 => two m r (predL r) (rdV m r.fb r.b4) .vfrcp
  | 0x0A => two m r (predL r) (rdV m r.fb r.b4) .vfrsq
  | 0x0B => two m r (predL r) (rdV m r.fb r.b4) .vfexp2
  | 0x0C => two m r (predL r) (rdV m r.fb r.b4) .vflog2
  | 0x0D => two m r (predL r) (rdV m r.fb r.b4) .vftanh
  | 0x0E => cmp3 m r (predL r) (rdV m r.fa r.a4) (rdV m r.fb r.b4) .vfcmpeq
  | 0x0F => cmp3 m r (predL r) (rdV m r.fa r.a4) (rdV m r.fb r.b4) .vfcmplt
  | 0x10 => cmp3 m r (predL r) (rdV m r.fa r.a4) (rdV m r.fb r.b4) .vfcmple
  | 0x11 => cmp3 m r (predL r) (rdV m r.fa r.a4) (rdV m r.fb r.b4) .vfcmpun
  | 0x12 => two m r (predL r) (rdV m r.fb r.b4) .vfclass
  | 0x13 => opt3M m r (predL r) (rdV m r.fa r.a4) VSrc.reg (rdV m r.fb r.b4) fun g d a b => some (.vfscale g d a b (rndOf r.m2))
  | 0x14 => twoM m r (predL r) (rdV m r.fb r.b4) fun g d b => some (.vfredsum g d b (rndOf r.m2))
  | 0x15 => two m r (predL r) (rdV m r.fb r.b4) .vfredmax
  | 0x16 => req3M m r (predL r) (rdV m r.fa r.a4) (rdV m r.fb r.b4) fun g d a b => if r.m6.toNat < 2 then some (.vfdot2 g d a b (rndOf r.m2) (r.m6 == 1)) else none
  | _ => none

/-- The codes of page 4 (R66, R67): the fields of each by its description. -/
def page4 (m : DecMode) (r : Raw) : Option Instr :=
  match r.op.toNat with
  | 0x00 => twoM m r (predL r) (rdV m r.fb r.b4) fun g d b => some (.cvtfi g d b (rndOf r.m2))
  | 0x01 => twoM m r (predL r) (rdV m r.fb r.b4) fun g d b => some (.cvtif g d b (rndOf r.m2))
  | 0x02 => twoP m r (rdV m r.fb r.b4) 1 fun g d b => some (.cvtfh g d b (rndOf r.m2) (r.m6.setWidth 1))
  | 0x03 => twoP m r (rdV m r.fb r.b4) 1 fun g d b => if r.m2 = 0 then some (.cvthf g d b (r.m6.setWidth 1)) else none
  | 0x04 => twoP m r (rdV m r.fb r.b4) 1 fun g d b => some (.cvtfb g d b (rndOf r.m2) (r.m6.setWidth 1))
  | 0x05 => twoP m r (rdV m r.fb r.b4) 1 fun g d b => if r.m2 = 0 then some (.cvtbf g d b (r.m6.setWidth 1)) else none
  | 0x06 => twoO m r (rdV m r.fb r.b4) fun g d b => some (.cvtfq g d b (r.m6.setWidth 2) (r.m6.getLsbD 4))
  | 0x07 => twoP m r (rdV m r.fb r.b4) 2 fun g d b => if r.m2 = 0 then some (.cvtqf g d b (r.m6.setWidth 2)) else none
  | 0x08 => twoK m r (rdV m r.fb r.b4) fun g d b => some (.cvtfs g d b (r.m6.setWidth 2) (r.m6.getLsbD 3))
  | 0x09 => twoK m r (rdV m r.fb r.b4) fun g d b => some (.cvtsf g d b (r.m6.setWidth 2) (r.m6.getLsbD 3))
  | 0x0A => twoP m r (rdV m r.fb r.b4) 3 fun g d b => if r.m2 = 0 then some (.cvtfn g d b (r.m6.setWidth 3)) else none
  | 0x0B => twoP m r (rdV m r.fb r.b4) 3 fun g d b => if r.m2 = 0 then some (.cvtnf g d b (r.m6.setWidth 3)) else none
  | 0x0C => tblldF m r
  | 0x0D => two m r (predL r) (rdV m r.fb r.b4) .tblsel
  | 0x0E => opt3 m r (predW r) (rdV m r.fa r.a4) VSrc.reg (rdV m r.fb r.b4) .vperm
  | 0x0F => opt3 m r (predW r) (rdV m r.fa r.a4) VSrc.reg (rdS m r.fb r.b4) .vrotl
  | 0x10 => req3 m r (predW r) (rdV m r.fa r.a4) (rdS m r.fb r.b4) fun g d a b => flag1 r.m2 (.vextr g d a b)
  | 0x11 => req3 m r (predW r) (rdS m r.fa r.a4) (rdS m r.fb r.b4) fun g d a b => if r.m2 = 0 then some (.vins g d a b) else none
  | 0x12 => opt3MM m r (predW r) (rdV m r.fa r.a4) VSrc.reg (rdV m r.fb r.b4) fun g d a b => packOf r g d a b
  | 0x13 => twoMM m r (predW r) (rdV m r.fb r.b4) fun g d b => unpkOf r g d b
  | 0x14 => opt3M m r (predL r) (rdV m r.fa r.a4) VSrc.reg (rdS m r.fb r.b4) fun g d a b => some (.vscale g d a b (rndOf r.m2))
  | 0x15 => req3M m r (predW r) (rdV m r.fa r.a4) (rdV m r.fb r.b4) fun g d a b => if r.m2 = 0 then (blkOf r.m6).map (.vblkmax g d a b) else none
  | _ => none

/-- The codes of page 5 (R66, R67): the fields of each by its description. -/
def page5 (m : DecMode) (r : Raw) : Option Instr :=
  match r.op.toNat with
  | 0x00 => vldgF m r
  | 0x01 => vstsF m r
  | 0x02 => fmD m r (predL r) 0 .vlds
  | 0x03 => fmD m r (predW r) 0 .rld
  | 0x04 => fmS m r (predW r) r.m2 (rdS m r.fa r.a4) fun g a b o => .rst  g a b o (r.m2.getLsbD 0) (r.m2.getLsbD 1)
  | 0x05 => fmS m r (if r.m2.getLsbD 0 then predW r else predL r) r.m2 (rdV m r.fa r.a4) fun g a b o => .rstv g a b o (r.m2.getLsbD 0) (r.m2.getLsbD 1)
  | 0x06 => ldacqF m r
  | 0x07 => strelF m r
  | 0x08 => fmN m r .fill
  | 0x09 => fmN m r .empty
  | 0x0A => fmD m r (predW r) 0 .takenb
  | 0x0B => fmD m r (predW r) 0 .festat
  | 0x0C => fmN m r .pref
  | 0x0D => fmN m r .flushl
  | _ => none

/-- The codes of page 6 (R66, R67): the fields of each by its description. -/
def page6 (m : DecMode) (r : Raw) : Option Instr :=
  match r.op.toNat with
  | 0x00 => syinitF m r
  | 0x01 => twoN m r .syarrive
  | 0x02 => oneB m r .syret
  | 0x03 => noImm r (twoMM m r (predW r) (rdS m r.fb r.b4) fun g d b => if r.m2 = 0 && r.m6.toNat < 2 then some (.syread g d b (r.m6 == 1)) else none)
  | 0x04 => gbarF m r
  | 0x05 => noImm r (req3M m r (predW r) (rdS m r.fa r.a4) (rdS m r.fb r.b4) fun g d a b => if r.m2 = 0 && r.m6.toNat < 2 then some (.obnew g d a b (r.m6 == 1)) else none)
  | 0x06 => oneB m r .obowe
  | 0x07 => obgiveF m r
  | 0x08 => noImm r (twoMM m r (predW r) (rdS m r.fb r.b4) fun g d b => if r.m2 = 0 && r.m6.toNat < 3 then some (.obq g d b (r.m6.setWidth 2)) else none)
  | 0x09 => noImm r (twoMM m r (predW r) (rdS m r.fb r.b4) fun g d b => if r.m2 = 0 && r.m6.toNat < 4 then some (.obrank g d b (r.m6.setWidth 2)) else none)
  | _ => none

/-- The codes of page 7 (R66, R67): the fields of each by its description. -/
def page7 (m : DecMode) (r : Raw) : Option Instr :=
  match r.op.toNat with
  | 0x00 => noPred r (srcs2 r (rdV m r.fa r.a4) (rdS m r.fb r.b4) fun _ a b => if r.m6 = 0 then some (.tsput a b) else none)
  | 0x01 => noPred r (pairF m r fun _ d vp sr => if r.m6 = 0 then some (.tscopy d vp sr) else if r.m6 = 1 then some (.tscopyNb d vp sr) else none)
  | 0x02 => noPred r (pairF m r fun _ d vp sr => if r.m6 = 0 then some (.tstake d vp sr) else if r.m6 = 1 then some (.tstakeNb d vp sr) else none)
  | 0x03 => noImm r (req3 m r (predW r) (rdS m r.fa r.a4) (rdS m r.fb r.b4) fun g d a b => if r.m2 = 0 then some (.tsowe g d a b) else none)
  | 0x04 => pairF m r fun g d vp sr => if r.m6 = 0 then some (.tscount g d vp sr) else none
  | _ => none

/-- The codes of page 8 (R66, R67): the fields of each by its description. -/
def page8 (m : DecMode) (r : Raw) : Option Instr :=
  match r.op.toNat with
  | 0x00 => fbF r .fork
  | 0x01 => noOps m r .taskend
  | 0x02 => srcs2 r (rdV m r.fa r.a4) (rdS m r.fb r.b4) fun g a b => if r.m6 = 0 then some (.send g a b) else if r.m6.toNat / 4 = 1 then some (.sendSys g a b (r.m6.setWidth 2)) else none
  | 0x03 => srcs2 r (rdV m r.fa r.a4) (rdS m r.fb r.b4) fun g a b => if r.m6 = 0 then some (.sendr g a b) else none
  | 0x04 => srcs2 r (rdS m r.fa r.a4) (rdS m r.fb r.b4) fun g a b => if r.m6 = 0 then some (.reply g a b) else none
  | 0x05 => noOps m r .msgend
  | 0x06 => mbwF m r
  | 0x07 => if m.slot0 then twoN m r .mbrMovement else mbrF m r
  | 0x08 => copyF m r fun g d a => if r.m2 = 0 then some (.copy g d a) else none
  | 0x09 => copyF m r fun g d a => if r.m2 = 0 then some (.reduceExact g d a) else if r.m2 = 1 then some (.reduceTree g d a) else none
  | _ => none

/-- The codes of page 9 (R66, R67): the fields of each by its description. -/
def page9 (m : DecMode) (r : Raw) : Option Instr :=
  match r.op.toNat with
  | 0x00 => bayF r .claim
  | 0x01 => bayF r .release
  | 0x02 => mxstatF m r
  | 0x03 => mxdrainF r
  | _ => none

/-- The codes of page 10 (R66, R67): the fields of each by its description. -/
def page10 (m : DecMode) (r : Raw) : Option Instr :=
  match r.op.toNat with
  | 0x00 => noPred r (noOps m r fun _ => .trapret)
  | 0x01 => rdctrF m r
  | 0x02 => pwrhintF r
  | 0x03 => noOps m r .turnend
  | 0x04 => rdturnF m r
  | 0x05 => fsF r fun g f => if f.toNat < 2 then some (.tlbinv g (f == 1)) else none
  | 0x06 => fsF r fun g f => some (.dbgbrk g f)
  | 0x07 => noOps m r .halt
  | 0x08 => noPred r (fsF r fun _ f => if f.toNat < 2 then some (.setmode (f == 1)) else if f.toNat / 16 = 1 then some (.setmodeConst (f.setWidth 4)) else none)
  | _ => none


/-- The instruction of a chain: its page, its code, its fields (R59 steps 3 and 4). -/
def decodeRaw (m : DecMode) (r : Raw) : Option Instr :=
  match r.page.toNat with
  | 0 => page0 m r
  | 1 => page1 m r
  | 2 => page2 m r
  | 3 => page3 m r
  | 4 => page4 m r
  | 5 => page5 m r
  | 6 => page6 m r
  | 7 => page7 m r
  | 8 => page8 m r
  | 9 => page9 m r
  | 10 => page10 m r
  | _ => none

/-- The decoder (R59 steps 2 to 4) on the words from an instruction's address up to the fetch boundary: the instruction and
its length in bytes, or the reason why the words are none. -/
def decode (m : DecMode) (ws : List Half) : Except Reject (Instr × Nat) :=
  match walk 0 {} ws with
  | .error e => .error e
  | .ok r =>
    match decodeRaw m r with
    | none => .error .badCode
    | some i => .ok (i, 2 * r.words)

/-- Little-endian words of bytes (R3, R49); a last odd byte is no word. -/
def halves : List Byte → List Half
  | a :: b :: bs => (b ++ a) :: halves bs
  | _ => []

/-- The decoder on bytes. -/
def decodeBytes (m : DecMode) (bs : List Byte) : Except Reject (Instr × Nat) := decode m (halves bs)

/-! ## The encoder -/

/-- The field and number bit of a register (R53). -/
def fD : Reg → BitVec 5 × Bool × List (BitVec 10)
  | .priv n => (0#1 ++ n.setWidth 4, n.getLsbD 4, [])
  | .shared n => (1#1 ++ n.setWidth 4, n.getLsbD 4, [])

/-- A field that names a predicate register (R53). -/
def fP (p : PReg) : BitVec 5 × Bool × List (BitVec 10) := (p.setWidth 5, false, [])

/-- The XIMM words of a value that needs `n` of them, most significant first. -/
def ximms (w : Nat) (v : BitVec w) (bw : Nat) : Nat → List (BitVec 10)
  | 0 => []
  | n + 1 => v.extractLsb' (bw + 10 * n) 10 :: ximms w v bw n

/-- The fewest XIMM words whose sign extension gives an immediate, and its base field (R52). -/
def splitS (bw : Nat) {w : Nat} (v : BitVec w) : List (BitVec 10) × BitVec bw :=
  let n := if (v.setWidth bw).signExtend w = v then 0
    else if (v.setWidth (bw + 10)).signExtend w = v then 1
    else if (v.setWidth (bw + 20)).signExtend w = v then 2 else 3
  (ximms w v bw n, v.setWidth bw)

/-- The fewest XIMM words whose zero extension gives an immediate, and its base field (R52). -/
def splitU (bw : Nat) {w : Nat} (v : BitVec w) : List (BitVec 10) × BitVec bw :=
  let n := if v.toNat < 2 ^ bw then 0
    else if v.toNat < 2 ^ (bw + 10) then 1
    else if v.toNat < 2 ^ (bw + 20) then 2 else 3
  (ximms w v bw n, v.setWidth bw)

/-- The field of a scalar source (R53, R64), with the XIMM words of a literal. -/
def fS (m : DecMode) : SSrc → BitVec 5 × Bool × List (BitVec 10)
  | .reg r => if m.maint then (1#2 ++ r.num.setWidth 3, r.num.getLsbD 3, []) else fD r
  | .const n => (2#2 ++ n.setWidth 3, n.getLsbD 3, [])
  | .lit v => (3#2 ++ v.setWidth 3, false, (splitU 3 v).1)

/-- The field of a vector source (R53, R64). -/
def fV (m : DecMode) : VSrc → BitVec 5 × Bool × List (BitVec 10)
  | .reg r => if m.maint then (0#2 ++ r.num.setWidth 3, r.num.getLsbD 3, []) else fD r
  | .bcast s => fS m s

/-- Codes of R37 and of the field tables, the inverses of the decoder's. -/
def rndCode : Rnd → BitVec 2
  | .rne => 0 | .rtz => 1 | .rup => 2 | .rdn => 3
/-- Width codes. -/
def widthCode : Width → BitVec 2
  | .b => 0 | .h => 1 | .w => 2 | .d => 3
/-- Scope codes. -/
def scopeCode : Scope → BitVec 6
  | .thread => 0 | .core => 1 | .cluster => 2 | .die => 3 | .module => 4 | .system => 5
/-- Modes of VDOT4. -/
def dotCode : DotMode → BitVec 2
  | .ss => 0 | .uu => 1 | .su => 2
/-- Saturations. -/
def satCode : Sat → BitVec 2
  | .trunc => 0 | .signed => 1 | .unsigned => 2
/-- Targets of VBLKMAX. -/
def blkCode : BlkTarget → BitVec 6
  | .e4m3 => 0 | .e5m2 => 1 | .e2m3 => 2 | .e3m2 => 3 | .e2m1 => 4 | .int8 => 5
/-- Types of a sync slot. -/
def typeCode : SlotType → BitVec 6
  | .signal => 1 | .barrier => 2 | .join => 3
/-- Kinds of obligation. -/
def kindCode : ObKind → BitVec 6
  | .put => 1 | .signal => 2 | .arrive => 3 | .reply => 4 | .tuple => 5 | .release => 6
/-- Modes of OBGIVE. -/
def giveCode : GiveMode → BitVec 6
  | .toRecord => 0 | .toActivity => 1 | .poison => 2
/-- A one-bit field in m2. -/
def bit2 (b : Bool) : BitVec 2 := (BitVec.ofBool b).setWidth 2
/-- A one-bit field in m6. -/
def bit6 (b : Bool) : BitVec 6 := (BitVec.ofBool b).setWidth 6
/-- A one-bit field in field10. -/
def bit10 (b : Bool) : BitVec 10 := (BitVec.ofBool b).setWidth 10
/-- The field of FENCE (R200). -/
def fenceCode (rst : Bool) (sc : Scope) : BitVec 10 := (scopeCode sc).setWidth 10 ||| (bit10 rst <<< 3)

/-- System-register numbers (R96). -/
def sysCode : SysReg → BitVec 10
  | .tstat => 0x000 | .tcause => 0x001 | .tepc => 0x002 | .tval => 0x003 | .tvec => 0x004 | .fpflags => 0x005
  | .ls => 0x006 | .le => 0x007 | .lc => 0x008
  | .fmta => 0x010 | .fmtb => 0x011 | .scla => 0x012 | .sclb => 0x013 | .dtab => 0x014
  | .obmin => 0x018 | .obcnt => 0x019 | .obspill => 0x01A | .guard => 0x01B | .dqspill => 0x01C
  | .hbi => 0x020 | .hbc => 0x021 | .maxpt => 0x022 | .ptc => 0x023
  | .member => 0x028 | .gangw => 0x029 | .gangh => 0x02A | .stage => 0x02B | .coreid => 0x02C | .vfid => 0x02D
  | .tenant => 0x02E | .slotno => 0x02F | .sigacc => 0x030

/-- The payload of XPRED (R55). -/
def encPred : Pred → Option (BitVec 10)
  | .always => none
  | .whole p s => some ((p ++ BitVec.ofBool s).setWidth 10 <<< 6)
  | .lanes p s => some (((p ++ BitVec.ofBool s).setWidth 10 <<< 6) ||| 0x20#10)

/-- The payload of XREG (R55). -/
def xregOf (c : BitVec 5) (a4 b4 c4 : Bool) (m2 : BitVec 2) : BitVec 10 :=
  c ++ (BitVec.ofBool a4 ++ (BitVec.ofBool b4 ++ (BitVec.ofBool c4 ++ m2)))

/-- XREG is left out where its payload is zero and the instruction does not require it. -/
def optXreg (x : BitVec 10) : Option (BitVec 10) := if x = 0 then none else some x

/-- An encoded field: 5 bits, the number bit, and the XIMM words of a literal. -/
abbrev EField := BitVec 5 × Bool × List (BitVec 10)

/-- Which XIMM words a pair of sources carries (R64). -/
def litXimm (a b : EField) : List (BitVec 10) := if b.2.2.isEmpty then a.2.2 else b.2.2

/-- A chain of page `p` and code `c`. -/
def mkRaw (g : Pred) (xreg : Option (BitVec 10)) (ximm : List (BitVec 10)) (f10 : BitVec 10) (m6 : BitVec 6) (p c : Nat) : Raw :=
  { page := BitVec.ofNat 4 p, m6 := m6, op := BitVec.ofNat 6 c, f10 := f10, ximm := ximm, xreg := xreg,
    xpage := p != 0, xpred := encPred g,
    words := 1 + ximm.length + (if p != 0 then 1 else 0) + (if xreg.isSome then 1 else 0) +
      (if (encPred g).isSome then 1 else 0) }

/-- Destination fa, source fb. -/
def eTwo (g : Pred) (d : Reg) (b : EField) (m2 : BitVec 2) (m6 : BitVec 6) (p c : Nat) : Raw :=
  mkRaw g (optXreg (xregOf 0 (fD d).2.1 b.2.1 false m2)) b.2.2 ((fD d).1 ++ b.1) m6 p c

/-- Destination fa, source fb, and XIMM words of the instruction's own. -/
def eTwoI (g : Pred) (d : Reg) (b : EField) (i : List (BitVec 10) × BitVec 0) (p c : Nat) : Raw :=
  mkRaw g (optXreg (xregOf 0 (fD d).2.1 b.2.1 false 0)) i.1 ((fD d).1 ++ b.1) 0 p c

/-- Three operands, fc required. -/
def eReq3 (g : Pred) (d : Reg) (a b : EField) (m2 : BitVec 2) (m6 : BitVec 6) (p c : Nat) : Raw :=
  mkRaw g (some (xregOf (fD d).1 a.2.1 b.2.1 (fD d).2.1 m2)) (litXimm a b) (a.1 ++ b.1) m6 p c

/-- Three operands; a destination that is the first source takes the two-operand form where that needs no XREG, and always in
maintenance decode, in which the tagged source may not reach it (R54, R64). -/
def eOpt3 (m : DecMode) (g : Pred) (d : Reg) (same : Bool) (a b : EField) (m2 : BitVec 2) (m6 : BitVec 6) (p c : Nat) : Raw :=
  if same && !(fD d).2.1 && !b.2.1 && m2 = 0 then mkRaw g none b.2.2 ((fD d).1 ++ b.1) m6 p c
  else if same && m.maint && 16 ≤ d.num.toNat then mkRaw g none b.2.2 ((fD d).1 ++ b.1) m6 p c
  else eReq3 g d a b m2 m6 p c

/-- Two sources and no destination. -/
def eSrc2 (g : Pred) (a b : EField) (m2 : BitVec 2) (m6 : BitVec 6) (p c : Nat) : Raw :=
  mkRaw g (optXreg (xregOf 0 a.2.1 b.2.1 false m2)) [] (a.1 ++ b.1) m6 p c

/-- Three sources. -/
def eC3 (g : Pred) (x a b : EField) (m6 : BitVec 6) (p c : Nat) : Raw :=
  mkRaw g (some (xregOf x.1 a.2.1 b.2.1 x.2.1 0)) [] (a.1 ++ b.1) m6 p c

/-- A compare; p0 needs no XREG (R54). -/
def eCmp (g : Pred) (d : PReg) (a b : EField) (p c : Nat) : Raw :=
  mkRaw g (optXreg (xregOf (d.setWidth 5) a.2.1 b.2.1 false 0)) (litXimm a b) (a.1 ++ b.1) 0 p c

/-- A compare with an immediate. -/
def eCmpI (g : Pred) (d : PReg) (a : EField) (i : List (BitVec 10) × BitVec 5) (p c : Nat) : Raw :=
  mkRaw g (optXreg (xregOf (d.setWidth 5) a.2.1 false false 0)) i.1 (a.1 ++ i.2) 0 p c

/-- Format FI. -/
def eFI (g : Pred) (d : Reg) (i : List (BitVec 10) × BitVec 5) (p c : Nat) : Raw :=
  mkRaw g (optXreg (xregOf 0 (fD d).2.1 false false 0)) i.1 ((fD d).1 ++ i.2) 0 p c

/-- PAND, POR, PXOR. -/
def eP3 (g : Pred) (d a b : PReg) (p c : Nat) : Raw :=
  mkRaw g (some (xregOf (d.setWidth 5) false false false 0)) [] (a.setWidth 5 ++ b.setWidth 5) 0 p c

/-- PNOT. -/
def eP2 (g : Pred) (d b : PReg) (p c : Nat) : Raw := mkRaw g none [] (d.setWidth 5 ++ b.setWidth 5) 0 p c

/-- PSET. -/
def ePset (g : Pred) (d : PReg) (i : List (BitVec 10) × BitVec 5) (p c : Nat) : Raw :=
  mkRaw g none i.1 (d.setWidth 5 ++ i.2) 0 p c

/-- PMOVP. -/
def ePmovp (g : Pred) (d : PReg) (b : EField) (p c : Nat) : Raw :=
  mkRaw g (optXreg (xregOf 0 false b.2.1 false 0)) b.2.2 (d.setWidth 5 ++ b.1) 0 p c

/-- MFS and MTS (R69). -/
def eSys (g : Pred) (x : EField) (n : SysReg) (p c : Nat) : Raw :=
  mkRaw g (some (xregOf x.1 false false x.2.1 0)) [] (sysCode n) 0 p c

/-- TBLLD. -/
def eTbl (g : Pred) (t : BitVec 2) (b : EField) (p c : Nat) : Raw :=
  mkRaw g (optXreg (xregOf 0 false b.2.1 false 0)) b.2.2 ((1#3 ++ t) ++ b.1) 0 p c

/-- Format FM. -/
def eFM (g : Pred) (a b : EField) (o : BitVec 30) (m2 : BitVec 2) (m6 : BitVec 6) (p c : Nat) : Raw :=
  mkRaw g (optXreg (xregOf 0 a.2.1 b.2.1 false m2)) (splitS 0 o).1 (a.1 ++ b.1) m6 p c

/-- VLDG and VSTS. -/
def eFMc (g : Pred) (a b : EField) (o : BitVec 30) (x : EField) (p c : Nat) : Raw :=
  mkRaw g (some (xregOf x.1 a.2.1 b.2.1 x.2.1 0)) (splitS 0 o).1 (a.1 ++ b.1) 0 p c

/-- Format FB and the FS instructions with an immediate. -/
def eFB (g : Pred) (i : List (BitVec 10) × BitVec 10) (p c : Nat) : Raw := mkRaw g none i.1 i.2 0 p c

/-- BRP. -/
def eBrp (q : PReg) (s : Bool) (i : List (BitVec 10) × BitVec 6) (p c : Nat) : Raw :=
  mkRaw .always none i.1 ((q ++ BitVec.ofBool s) ++ i.2) 0 p c

/-- LOOP. -/
def eLoop (a : EField) (i : List (BitVec 10) × BitVec 5) (p c : Nat) : Raw :=
  mkRaw .always (optXreg (xregOf 0 a.2.1 false false 0)) i.1 (a.1 ++ i.2) 0 p c

/-- Format FS. -/
def eF (g : Pred) (f : BitVec 10) (p c : Nat) : Raw := mkRaw g none [] f 0 p c

/-- The matrix instructions, without XREG. -/
def eNX (g : Pred) (a b : BitVec 5) (p c : Nat) : Raw := mkRaw g none [] (a ++ b) 0 p c

/-- The pattern instructions of page 7. -/
def ePair (m : DecMode) (g : Pred) (d vp : Reg) (b : EField) (m6 : BitVec 6) (p c : Nat) : Raw :=
  eReq3 g d (fV m (.reg vp)) b 0 m6 p c

/-- The fields, page and code of an instruction of the table, from the spec's encoding of it; `none` for a matrix command, an
event, or a decoding or fetch fault, which have no words. -/
def toRaw (m : DecMode) : Instr → Option Raw
  | .nop g => some (eF g 0 0 0x00)
  | .mov g d b => some (eTwo g d (fS m b) 0 0 0 0x01)
  | .movi g d i => some (eFI g d (splitS 5 i) 0 0x02)
  | .add g d a b => some (eOpt3 m g d (a == .reg d) (fS m a) (fS m b) 0 0 0 0x03)
  | .addi g d i => some (eFI g d (splitS 5 i) 0 0x04)
  | .sub g d a b => some (eOpt3 m g d (a == .reg d) (fS m a) (fS m b) 0 0 0 0x05)
  | .mul g d a b => some (eOpt3 m g d (a == .reg d) (fS m a) (fS m b) 0 0 0 0x06)
  | .and g d a b => some (eOpt3 m g d (a == .reg d) (fS m a) (fS m b) 0 0 0 0x07)
  | .andi g d i => some (eFI g d (splitS 5 i) 0 0x08)
  | .or g d a b => some (eOpt3 m g d (a == .reg d) (fS m a) (fS m b) 0 0 0 0x09)
  | .ori g d i => some (eFI g d (splitU 5 i) 0 0x0A)
  | .xor g d a b => some (eOpt3 m g d (a == .reg d) (fS m a) (fS m b) 0 0 0 0x0B)
  | .shl g d a b => some (eOpt3 m g d (a == .reg d) (fS m a) (fS m b) 0 0 0 0x0C)
  | .shli g d i => some (eFI g d (splitU 5 (i.setWidth 35)) 0 0x0D)
  | .shr g d a b => some (eOpt3 m g d (a == .reg d) (fS m a) (fS m b) 0 0 0 0x0E)
  | .shri g d i => some (eFI g d (splitU 5 (i.setWidth 35)) 0 0x0F)
  | .sar g d a b => some (eOpt3 m g d (a == .reg d) (fS m a) (fS m b) 0 0 0 0x10)
  | .sari g d i => some (eFI g d (splitU 5 (i.setWidth 35)) 0 0x11)
  | .sel g d a b => some (eOpt3 m g d (a == .reg d) (fS m a) (fS m b) 0 0 0 0x12)
  | .lea g d i => some (eFI g d (splitS 5 i) 0 0x13)
  | .ldb g d b o => some (eFM g (fD d) (fS m b) o 0 0 0 0x14)
  | .ldh g d b o => some (eFM g (fD d) (fS m b) o 0 0 0 0x15)
  | .ldw g d b o => some (eFM g (fD d) (fS m b) o 0 0 0 0x16)
  | .ldd g d b o => some (eFM g (fD d) (fS m b) o 0 0 0 0x17)
  | .stb g a b o => some (eFM g (fS m a) (fS m b) o 0 0 0 0x18)
  | .sth g a b o => some (eFM g (fS m a) (fS m b) o 0 0 0 0x19)
  | .stw g a b o => some (eFM g (fS m a) (fS m b) o 0 0 0 0x1A)
  | .std g a b o => some (eFM g (fS m a) (fS m b) o 0 0 0 0x1B)
  | .vld g d b o => some (eFM g (fD d) (fS m b) o 0 0 0 0x1C)
  | .vst g a b o => some (eFM g (fV m a) (fS m b) o 0 0 0 0x1D)
  | .br g o => some (eFB g (splitS 10 o) 0 0x1E)
  | .brp p q o => some (eBrp p q (splitS 6 o) 0 0x1F)
  | .call g o => some (eFB g (splitS 10 o) 0 0x20)
  | .ret g => some (eF g 0 0 0x21)
  | .jmpr g d a => some (eTwo g d (fS m a) 0 0 0 0x22)
  | .loop a o => some (eLoop (fS m a) (splitS 5 o) 0 0x23)
  | .exit g => some (eF g 0 0 0x24)
  | .trap g c => some (eFB g (splitU 10 c) 0 0x25)
  | .beat g => some (eF g 0 0 0x26)
  | .ypt g => some (eF g 0 0 0x27)
  | .sigchk i => some (eFB .always (splitU 10 (i.setWidth 40)) 0 0x28)
  | .fence g q sc => some (eF g (fenceCode q sc) 0 0x29)
  | .lds g d b o => some (eFM g (fD d) (fS m b) o 0 0 0 0x2A)
  | .take g d b o => some (eFM g (fD d) (fS m b) o 0 0 0 0x2B)
  | .put g a b o => some (eFM g (fS m a) (fS m b) o 0 0 0 0x2C)
  | .vadd g d a b => some (eOpt3 m g d (a == .reg d) (fV m a) (fV m b) 0 0 0 0x2D)
  | .vsub g d a b => some (eOpt3 m g d (a == .reg d) (fV m a) (fV m b) 0 0 0 0x2E)
  | .vmul g d a b => some (eOpt3 m g d (a == .reg d) (fV m a) (fV m b) 0 0 0 0x2F)
  | .vmov g d b => some (eTwo g d (fV m b) 0 0 0 0x30)
  | .vbcast g d b => some (eTwo g d (fS m b) 0 0 0 0x31)
  | .vfadd g d a b q => some (eOpt3 m g d (a == .reg d) (fV m a) (fV m b) (rndCode q) 0 0 0x32)
  | .vfmul g d a b q => some (eOpt3 m g d (a == .reg d) (fV m a) (fV m b) (rndCode q) 0 0 0x33)
  | .vffma g d a b q => some (eReq3 g d (fV m a) (fV m b) (rndCode q) 0 0 0x34)
  | .mxq g a => some (eNX g (fV m a).1 0 0 0x35)
  | .sywait g d a b => some (eOpt3 m g d (a == .reg d) (fS m a) (fS m b) 0 0 0 0x36)
  | .syadd g a b => some (eSrc2 g (fS m a) (fS m b) 0 0 0 0x37)
  | .mfs g d n => some (eSys g (fD d) n 0 0x38)
  | .mts g n a => some (eSys g (fS m a) n 0 0x39)
  | .cmpeq g d a b => some (eCmp g d (fS m a) (fS m b) 0 0x3A)
  | .cmplt g d a b => some (eCmp g d (fS m a) (fS m b) 0 0x3B)
  | .mulh g d a b => some (eOpt3 m g d (a == .reg d) (fS m a) (fS m b) 0 0 1 0x00)
  | .mulhu g d a b => some (eOpt3 m g d (a == .reg d) (fS m a) (fS m b) 0 0 1 0x01)
  | .div g d a b => some (eOpt3 m g d (a == .reg d) (fS m a) (fS m b) 0 0 1 0x02)
  | .divu g d a b => some (eOpt3 m g d (a == .reg d) (fS m a) (fS m b) 0 0 1 0x03)
  | .rem g d a b => some (eOpt3 m g d (a == .reg d) (fS m a) (fS m b) 0 0 1 0x04)
  | .remu g d a b => some (eOpt3 m g d (a == .reg d) (fS m a) (fS m b) 0 0 1 0x05)
  | .min g d a b => some (eOpt3 m g d (a == .reg d) (fS m a) (fS m b) 0 0 1 0x06)
  | .max g d a b => some (eOpt3 m g d (a == .reg d) (fS m a) (fS m b) 0 0 1 0x07)
  | .minu g d a b => some (eOpt3 m g d (a == .reg d) (fS m a) (fS m b) 0 0 1 0x08)
  | .maxu g d a b => some (eOpt3 m g d (a == .reg d) (fS m a) (fS m b) 0 0 1 0x09)
  | .abs g d b => some (eTwo g d (fS m b) 0 0 1 0x0A)
  | .neg g d b => some (eTwo g d (fS m b) 0 0 1 0x0B)
  | .clz g d b => some (eTwo g d (fS m b) 0 0 1 0x0C)
  | .ctz g d b => some (eTwo g d (fS m b) 0 0 1 0x0D)
  | .popc g d b => some (eTwo g d (fS m b) 0 0 1 0x0E)
  | .brev g d b => some (eTwo g d (fS m b) 0 0 1 0x0F)
  | .rotl g d a b => some (eOpt3 m g d (a == .reg d) (fS m a) (fS m b) 0 0 1 0x10)
  | .ext g d b pos w1 => some (eTwoI g d (fS m b) (splitU 0 ((w1 ++ pos).setWidth 30)) 1 0x11)
  | .extu g d b pos w1 => some (eTwoI g d (fS m b) (splitU 0 ((w1 ++ pos).setWidth 30)) 1 0x12)
  | .ins g d b pos w1 => some (eTwoI g d (fS m b) (splitU 0 ((w1 ++ pos).setWidth 30)) 1 0x13)
  | .sext g d b q => some (eTwo g d (fS m b) (widthCode q) 0 1 0x14)
  | .zext g d b q => some (eTwo g d (fS m b) (widthCode q) 0 1 0x15)
  | .cmpne g d a b => some (eCmp g d (fS m a) (fS m b) 1 0x16)
  | .cmpge g d a b => some (eCmp g d (fS m a) (fS m b) 1 0x17)
  | .cmpltu g d a b => some (eCmp g d (fS m a) (fS m b) 1 0x18)
  | .cmpgeu g d a b => some (eCmp g d (fS m a) (fS m b) 1 0x19)
  | .cmpeqi g d a i => some (eCmpI g d (fS m a) (splitS 5 i) 1 0x1A)
  | .cmplti g d a i => some (eCmpI g d (fS m a) (splitS 5 i) 1 0x1B)
  | .cmpltui g d a i => some (eCmpI g d (fS m a) (splitU 5 i) 1 0x1C)
  | .pand g d a b => some (eP3 g d a b 1 0x1D)
  | .por g d a b => some (eP3 g d a b 1 0x1E)
  | .pxor g d a b => some (eP3 g d a b 1 0x1F)
  | .pnot g d b => some (eP2 g d b 1 0x20)
  | .pset g d i => some (ePset g d (splitU 5 (i.setWidth 35)) 1 0x21)
  | .pmovs g d b => some (eTwo g d (fP b) 0 0 1 0x22)
  | .pmovp g d b => some (ePmovp g d (fS m b) 1 0x23)
  | .vand g d a b => some (eOpt3 m g d (a == .reg d) (fV m a) (fV m b) 0 0 2 0x00)
  | .vor g d a b => some (eOpt3 m g d (a == .reg d) (fV m a) (fV m b) 0 0 2 0x01)
  | .vxor g d a b => some (eOpt3 m g d (a == .reg d) (fV m a) (fV m b) 0 0 2 0x02)
  | .vshl g d a b => some (eOpt3 m g d (a == .reg d) (fV m a) (fV m b) 0 0 2 0x03)
  | .vshr g d a b => some (eOpt3 m g d (a == .reg d) (fV m a) (fV m b) 0 0 2 0x04)
  | .vsar g d a b => some (eOpt3 m g d (a == .reg d) (fV m a) (fV m b) 0 0 2 0x05)
  | .vshli g d i => some (eFI g d (splitU 5 (i.setWidth 35)) 2 0x06)
  | .vshri g d i => some (eFI g d (splitU 5 (i.setWidth 35)) 2 0x07)
  | .vsari g d i => some (eFI g d (splitU 5 (i.setWidth 35)) 2 0x08)
  | .vaddi g d i => some (eFI g d (splitS 5 (i.signExtend 35)) 2 0x09)
  | .vmin g d a b => some (eOpt3 m g d (a == .reg d) (fV m a) (fV m b) 0 0 2 0x0A)
  | .vmax g d a b => some (eOpt3 m g d (a == .reg d) (fV m a) (fV m b) 0 0 2 0x0B)
  | .vminu g d a b => some (eOpt3 m g d (a == .reg d) (fV m a) (fV m b) 0 0 2 0x0C)
  | .vmaxu g d a b => some (eOpt3 m g d (a == .reg d) (fV m a) (fV m b) 0 0 2 0x0D)
  | .vmulh g d a b u => some (eOpt3 m g d (a == .reg d) (fV m a) (fV m b) (bit2 u) 0 2 0x0E)
  | .vmad g d a b => some (eReq3 g d (fV m a) (fV m b) 0 0 2 0x0F)
  | .vabs g d b => some (eTwo g d (fV m b) 0 0 2 0x10)
  | .vneg g d b => some (eTwo g d (fV m b) 0 0 2 0x11)
  | .vaddsat g d a b u => some (eOpt3 m g d (a == .reg d) (fV m a) (fV m b) (bit2 u) 0 2 0x12)
  | .vsubsat g d a b u => some (eOpt3 m g d (a == .reg d) (fV m a) (fV m b) (bit2 u) 0 2 0x13)
  | .vcmpeq g d a b => some (eCmp g d (fV m a) (fV m b) 2 0x14)
  | .vcmpne g d a b => some (eCmp g d (fV m a) (fV m b) 2 0x15)
  | .vcmplt g d a b => some (eCmp g d (fV m a) (fV m b) 2 0x16)
  | .vcmpge g d a b => some (eCmp g d (fV m a) (fV m b) 2 0x17)
  | .vcmpltu g d a b => some (eCmp g d (fV m a) (fV m b) 2 0x18)
  | .vcmpgeu g d a b => some (eCmp g d (fV m a) (fV m b) 2 0x19)
  | .vsel g d a b => some (eOpt3 m g d (a == .reg d) (fV m a) (fV m b) 0 0 2 0x1A)
  | .vpopc g d b => some (eTwo g d (fV m b) 0 0 2 0x1B)
  | .vclz g d b => some (eTwo g d (fV m b) 0 0 2 0x1C)
  | .vdot4 g d a b q => some (eReq3 g d (fV m a) (fV m b) (dotCode q) 0 2 0x1D)
  | .vfsub g d a b q => some (eOpt3 m g d (a == .reg d) (fV m a) (fV m b) (rndCode q) 0 3 0x00)
  | .vfmin g d a b => some (eOpt3 m g d (a == .reg d) (fV m a) (fV m b) 0 0 3 0x01)
  | .vfmax g d a b => some (eOpt3 m g d (a == .reg d) (fV m a) (fV m b) 0 0 3 0x02)
  | .vfabs g d b => some (eTwo g d (fV m b) 0 0 3 0x03)
  | .vfneg g d b => some (eTwo g d (fV m b) 0 0 3 0x04)
  | .vffms g d a b q => some (eReq3 g d (fV m a) (fV m b) (rndCode q) 0 3 0x05)
  | .vffnma g d a b q => some (eReq3 g d (fV m a) (fV m b) (rndCode q) 0 3 0x06)
  | .vfdiv g d a b q => some (eOpt3 m g d (a == .reg d) (fV m a) (fV m b) (rndCode q) 0 3 0x07)
  | .vfsqrt g d b q => some (eTwo g d (fV m b) (rndCode q) 0 3 0x08)
  | .vfrcp g d b => some (eTwo g d (fV m b) 0 0 3 0x09)
  | .vfrsq g d b => some (eTwo g d (fV m b) 0 0 3 0x0A)
  | .vfexp2 g d b => some (eTwo g d (fV m b) 0 0 3 0x0B)
  | .vflog2 g d b => some (eTwo g d (fV m b) 0 0 3 0x0C)
  | .vftanh g d b => some (eTwo g d (fV m b) 0 0 3 0x0D)
  | .vfcmpeq g d a b => some (eCmp g d (fV m a) (fV m b) 3 0x0E)
  | .vfcmplt g d a b => some (eCmp g d (fV m a) (fV m b) 3 0x0F)
  | .vfcmple g d a b => some (eCmp g d (fV m a) (fV m b) 3 0x10)
  | .vfcmpun g d a b => some (eCmp g d (fV m a) (fV m b) 3 0x11)
  | .vfclass g d b => some (eTwo g d (fV m b) 0 0 3 0x12)
  | .vfscale g d a b q => some (eOpt3 m g d (a == .reg d) (fV m a) (fV m b) (rndCode q) 0 3 0x13)
  | .vfredsum g d b q => some (eTwo g d (fV m b) (rndCode q) 0 3 0x14)
  | .vfredmax g d b => some (eTwo g d (fV m b) 0 0 3 0x15)
  | .vfdot2 g d a b q f => some (eReq3 g d (fV m a) (fV m b) (rndCode q) (bit6 f) 3 0x16)
  | .cvtfi g d b q => some (eTwo g d (fV m b) (rndCode q) 0 4 0x00)
  | .cvtif g d b q => some (eTwo g d (fV m b) (rndCode q) 0 4 0x01)
  | .cvtfh g d b q p => some (eTwo g d (fV m b) (rndCode q) (p.setWidth 6) 4 0x02)
  | .cvthf g d b p => some (eTwo g d (fV m b) 0 (p.setWidth 6) 4 0x03)
  | .cvtfb g d b q p => some (eTwo g d (fV m b) (rndCode q) (p.setWidth 6) 4 0x04)
  | .cvtbf g d b p => some (eTwo g d (fV m b) 0 (p.setWidth 6) 4 0x05)
  | .cvtfq g d b p o => some (eTwo g d (fV m b) 0 (p.setWidth 6 ||| (bit6 o <<< 4)) 4 0x06)
  | .cvtqf g d b p => some (eTwo g d (fV m b) 0 (p.setWidth 6) 4 0x07)
  | .cvtfs g d b p k => some (eTwo g d (fV m b) 0 (p.setWidth 6 ||| (bit6 k <<< 3)) 4 0x08)
  | .cvtsf g d b p k => some (eTwo g d (fV m b) 0 (p.setWidth 6 ||| (bit6 k <<< 3)) 4 0x09)
  | .cvtfn g d b p => some (eTwo g d (fV m b) 0 (p.setWidth 6) 4 0x0A)
  | .cvtnf g d b p => some (eTwo g d (fV m b) 0 (p.setWidth 6) 4 0x0B)
  | .tblld g t b => some (eTbl g t (fS m b) 4 0x0C)
  | .tblsel g d b => some (eTwo g d (fV m b) 0 0 4 0x0D)
  | .vperm g d a b => some (eOpt3 m g d (a == .reg d) (fV m a) (fV m b) 0 0 4 0x0E)
  | .vrotl g d a b => some (eOpt3 m g d (a == .reg d) (fV m a) (fS m b) 0 0 4 0x0F)
  | .vextr g d a b u => some (eReq3 g d (fV m a) (fS m b) (bit2 u) 0 4 0x10)
  | .vins g d a b => some (eReq3 g d (fS m a) (fS m b) 0 0 4 0x11)
  | .vpack g d a b mo q => some (eOpt3 m g d (a == .reg d) (fV m a) (fV m b) (satCode q) (mo.setWidth 6) 4 0x12)
  | .vunpk g d b mo p u => some (eTwo g d (fV m b) (bit2 u) (mo.setWidth 6 ||| (p.setWidth 6 <<< 2)) 4 0x13)
  | .vscale g d a b q => some (eOpt3 m g d (a == .reg d) (fV m a) (fS m b) (rndCode q) 0 4 0x14)
  | .vblkmax g d a b t => some (eReq3 g d (fV m a) (fV m b) 0 (blkCode t) 4 0x15)
  | .vldg g d b o vi => some (eFMc g (fD d) (fS m b) o (fV m vi) 5 0x00)
  | .vsts g a b o vi => some (eFMc g (fV m a) (fS m b) o (fV m vi) 5 0x01)
  | .vlds g d b o => some (eFM g (fD d) (fS m b) o 0 0 5 0x02)
  | .rld g d b o => some (eFM g (fD d) (fS m b) o 0 0 5 0x03)
  | .rst g a b o f q => some (eFM g (fS m a) (fS m b) o (bit2 f ||| (bit2 q <<< 1)) 0 5 0x04)
  | .rstv g a b o f q => some (eFM g (fV m a) (fS m b) o (bit2 f ||| (bit2 q <<< 1)) 0 5 0x05)
  | .ldacq g d b o sc => some (eFM g (fD d) (fS m b) o 0 (scopeCode sc) 5 0x06)
  | .strel g a b o sc => some (eFM g (fS m a) (fS m b) o 0 (scopeCode sc) 5 0x07)
  | .fill g b o => some (eFM g (0, false, []) (fS m b) o 0 0 5 0x08)
  | .empty g b o => some (eFM g (0, false, []) (fS m b) o 0 0 5 0x09)
  | .takenb g d b o => some (eFM g (fD d) (fS m b) o 0 0 5 0x0A)
  | .festat g d b o => some (eFM g (fD d) (fS m b) o 0 0 5 0x0B)
  | .pref g b o => some (eFM g (0, false, []) (fS m b) o 0 0 5 0x0C)
  | .flushl g b o => some (eFM g (0, false, []) (fS m b) o 0 0 5 0x0D)
  | .syinit g a b c t o => some (eC3 g (fS m c) (fS m a) (fS m b) (typeCode t ||| (bit6 o <<< 2)) 6 0x00)
  | .syarrive g d a => some (eTwo g d (fS m a) 0 0 6 0x01)
  | .syret g a => some (eSrc2 g (0, false, []) (fS m a) 0 0 6 0x02)
  | .syread g d a w => some (eTwo g d (fS m a) 0 (bit6 w) 6 0x03)
  | .gbar => some (eF .always 0 6 0x04)
  | .obnew g d a b o => some (eReq3 g d (fS m a) (fS m b) 0 (bit6 o) 6 0x05)
  | .obowe g a => some (eSrc2 g (0, false, []) (fS m a) 0 0 6 0x06)
  | .obgive g a b mo k => some (eSrc2 g (fS m a) (fS m b) 0 (giveCode mo ||| (kindCode k <<< 2)) 6 0x07)
  | .obq g d a f => some (eTwo g d (fS m a) 0 (f.setWidth 6) 6 0x08)
  | .obrank g d a k => some (eTwo g d (fS m a) 0 (k.setWidth 6) 6 0x09)
  | .tsput a b => some (eSrc2 .always (fV m a) (fS m b) 0 0 7 0x00)
  | .tscopy d vp sr => some (ePair m .always d vp (fS m sr) 0 7 0x01)
  | .tscopyNb d vp sr => some (ePair m .always d vp (fS m sr) 1 7 0x01)
  | .tstake d vp sr => some (ePair m .always d vp (fS m sr) 0 7 0x02)
  | .tstakeNb d vp sr => some (ePair m .always d vp (fS m sr) 1 7 0x02)
  | .tsowe g d a b => some (eReq3 g d (fS m a) (fS m b) 0 0 7 0x03)
  | .tscount g d vp sr => some (ePair m g d vp (fS m sr) 0 7 0x04)
  | .fork g o => some (eFB g (splitS 10 o) 8 0x00)
  | .taskend g => some (eF g 0 8 0x01)
  | .send g a b => some (eSrc2 g (fV m a) (fS m b) 0 0 8 0x02)
  | .sendSys g a b c => some (eSrc2 g (fV m a) (fS m b) 0 (4#6 ||| c.setWidth 6) 8 0x02)
  | .sendr g a b => some (eSrc2 g (fV m a) (fS m b) 0 0 8 0x03)
  | .reply g a b => some (eSrc2 g (fS m a) (fS m b) 0 0 8 0x04)
  | .msgend g => some (eF g 0 8 0x05)
  | .mbw g n a => some (eSrc2 g (n.setWidth 5, false, []) (fS m a) 0 0 8 0x06)
  | .mbr g d n => some (eTwo g d (n.setWidth 5, false, []) 0 0 8 0x07)
  | .mbrMovement g d a => some (eTwo g d (fS m a) 0 0 8 0x07)
  | .copy g d a => some (eTwo g (.priv d) (fV m a) 0 0 8 0x08)
  | .reduceExact g d a => some (eTwo g (.priv d) (fV m a) 0 0 8 0x09)
  | .reduceTree g d a => some (eTwo g (.priv d) (fV m a) 1 0 8 0x09)
  | .claim g b => some (eNX g (b.setWidth 5) 0 9 0x00)
  | .release g b => some (eNX g (b.setWidth 5) 0 9 0x01)
  | .mxstat g d s => some (eNX g (fD d).1 (s.setWidth 5) 9 0x02)
  | .mxdrain g k => some (eNX g 0 (k.setWidth 5) 9 0x03)
  | .trapret => some (eF .always 0 10 0x00)
  | .rdctr g d k => some (eTwo g d (k.setWidth 5, false, []) 0 0 10 0x01)
  | .pwrhint g l => some (eF g (l.setWidth 10) 10 0x02)
  | .turnend g => some (eF g 0 10 0x03)
  | .rdturn g d s => some (eTwo g d (s.setWidth 5, false, []) 0 0 10 0x04)
  | .tlbinv g s => some (eF g (bit10 s) 10 0x05)
  | .dbgbrk g c => some (eF g c 10 0x06)
  | .halt g => some (eF g 0 10 0x07)
  | .setmode b => some (eF .always (bit10 b) 10 0x08)
  | .setmodeConst n => some (eF .always (16#10 ||| n.setWidth 10) 10 0x08)
  | .tload _ _ _ => none
  | .tstore _ _ _ => none
  | .mma _ _ _ => none
  | .mmasp _ _ _ => none
  | .accz _ _ _ => none
  | .spload _ _ _ => none
  | .mxnote _ _ _ => none
  | .mxbar _ _ _ => none
  | .launchTake _ _ => none
  | .gangRelease _ _ => none
  | .launchSweep _ => none
  | .doorbell _ _ _ => none
  | .vqPlacement _ _ _ _ _ => none
  | .taskPop _ _ => none
  | .stealVisit _ _ => none
  | .stealArrival _ _ => none
  | .stealBackoffExpiry _ _ => none
  | .dequeSpill _ _ => none
  | .dequeRefill _ _ => none
  | .messageEntry _ _ => none
  | .handlerStart _ => none
  | .handlerBudgetExhausted _ => none
  | .systemChannelMessage _ _ => none
  | .mailboxService _ => none
  | .copyStart _ _ => none
  | .copyComplete _ _ _ => none
  | .collectiveComplete _ => none
  | .movementRestart _ => none
  | .storeBufferDrain _ _ _ => none
  | .postedStoreArrival _ _ _ => none
  | .postedReplyArrival _ _ _ => none
  | .memoryReply _ _ => none
  | .divideComplete _ _ => none
  | .lateReplyLand _ _ _ _ => none
  | .deferredEntryJoin _ => none
  | .rdcInvalidation _ _ => none
  | .invalidationAck _ _ => none
  | .faultQueueReplay _ => none
  | .uncorrectableError _ => none
  | .busRepair _ _ _ => none
  | .busRetire _ _ => none
  | .matrixUnitRetire _ => none
  | .obligationStateLoss _ => none
  | .heartbeatMiss _ _ => none
  | .hbmissDelivery _ _ => none
  | .ptgapRecord _ _ => none
  | .ptgapDelivery _ _ => none
  | .replyFaultDelivery _ _ => none
  | .activityKill _ _ => none
  | .slotScrubComplete _ _ _ => none
  | .drainLead _ => none
  | .synchronisedStop _ => none
  | .turnEdgeRestore _ => none
  | .turnBoundary => none
  | .roundBoundary => none
  | .capacityChange _ _ _ => none
  | .donationEffect _ => none
  | .frequencyStep _ => none
  | .relockComplete _ => none
  | .powerCapHold _ => none
  | .ncycAnchor _ => none
  | .ncycHeldClear _ => none
  | .timeCorrection _ => none
  | .traceStateRecord _ _ _ => none
  | .kioskHalt _ => none
  | .kioskResume _ => none
  | .crossTrigger => none
  | .haltComplete _ => none
  | .bscommit _ => none
  | .bsepochWrite _ => none
  | .vfUp _ => none
  | .vfDown _ => none
  | .vfReset _ => none
  | .partitionWrite _ _ _ => none
  | .preempt _ _ => none
  | .resume _ _ => none
  | .unfence _ _ => none
  | .killgang _ _ => none
  | .syschanBind _ _ _ => none
  | .pcselWrite _ _ _ => none
  | .pcselEffect _ _ => none
  | .trctlWrite _ => none
  | .trctlEffect => none
  | .timelRead _ _ => none
  | .pctlRead _ _ _ => none
  | .residencyWrite _ _ => none
  | .pwrpolWrite _ _ => none
  | .updcmd _ => none
  | .liveUpdateTakeover => none
  | .lodgeFailover => none
  | .bootclr _ => none
  | .moduleStart _ => none
  | .registerWrite _ _ _ => none
  | .linkRetire _ _ => none
  | .flitReplay _ => none
  | .portRetrain _ => none
  | .portFailure _ => none
  | .tsRequestArrival _ _ => none
  | .tsDepositArrival _ _ => none
  | .illegal _ => none
  | .instructionFetchFault _ => none
  | .pageUnavailable _ => none
  | .busHoldEnd _ _ => none
  | .portTrainingComplete _ => none
  | .laneRepair _ _ => none
  | .liveUpdateAbandon _ => none
  | .registerError _ _ _ _ => none
  | .powerCapRelease _ => none
  | .pcTotalSample => none
  | .channelRetire _ _ => none
  | .clusterRetire _ => none
  | .islandPowerDown _ => none
  | .islandStart _ => none

/-- The words of a chain: XPAGE, XREG, XPRED, XIMM, base; none where it would need a fifth prefix (R56). -/
def assemble (r : Raw) : Option (List Half) :=
  let pre : List Half :=
    (if r.xpage then [0x3E#6 ++ (r.page ++ r.m6)] else []) ++
    (match r.xreg with | some x => [0x3D#6 ++ x] | none => []) ++
    (match r.xpred with | some x => [0x3F#6 ++ x] | none => []) ++
    r.ximm.map fun x => 0x3C#6 ++ x
  if pre.length ≤ 4 then some (pre ++ [r.op ++ r.f10]) else none

/-- The words of an instruction, if it is one of the instruction stream and four prefixes carry it. -/
def encode (m : DecMode) (i : Instr) : Option (List Half) :=
  match toRaw m i with
  | some r => assemble r
  | none => none

/-- The little-endian bytes of words (R3, R49). -/
def bytesOf : List Half → List Byte
  | [] => []
  | w :: ws => w.setWidth 8 :: w.extractLsb' 8 8 :: bytesOf ws

/-! ## Rows of the opcode table -/

/-- `n` words of a number, its low 16 bits first. -/
def wordsLow : Nat → Nat → List Half
  | 0, _ => []
  | n + 1, w => BitVec.ofNat 16 w :: wordsLow n (w / 65536)

/-- The words of a table row's number in the order of a chain. The table writes a 32-bit row with its prefix in the HIGH half; a
number whose low word is a prefix is read from its low half, any other from its high half, so that the chain ends with its base
word (log 9). -/
def tableWords (nbits w : Nat) : List Half :=
  let ws := wordsLow ((nbits + 15) / 16) w
  match ws with
  | x :: _ => if (x.extractLsb' 10 6).toNat < 0x3C && 16 < nbits then ws.reverse else ws
  | [] => []

/-- The instruction of a table row's number: as the general slots decode it, or as the movement slot does (R235). -/
def decodeTableWord (nbits w : Nat) : Option Instr :=
  match decode {} (tableWords nbits w) with
  | .ok p => some p.1
  | .error _ =>
    match decode { slot0 := true } (tableWords nbits w) with
    | .ok p => some p.1
    | .error _ => none

end Sys2Proof
end

