-- ==== Sys2Proof/Config.lean ====
section
/-! DEFINITION. What the module fixes: its sizes and clock periods, and the free values that no rule of the spec states.
A free value is an opaque constant: no proof can see what it is. -/

namespace Sys2Proof.Config

/-- Dies of the module (R1, R13). -/
def dies : Nat := 4

/-- Columns of a die's core grid (R13). -/
def width : Nat := 48

/-- Rows of a die's core grid (R13). -/
def height : Nat := 32

/-- Ticks of the model's time base in one nanosecond: the least common unit of the five clock periods (R317, R325). -/
def ticksPerNs : Nat := 36

/-- Ticks of one core cycle at clock level 0 to 4: 3.6, 3.0, 2.4, 1.8 and 1.2 GHz (R325). -/
def period (level : Nat) : Nat :=
  match level with
  | 0 => 10 | 1 => 12 | 2 => 15 | 3 => 20 | _ => 30

/-- Bytes of the hardware's page of instruction fetch (R57). -/
def fetchPage : Nat := 4096

/-- FREE VALUE (log 18). Whether the module at the other end of the fabric binds no VF to the one that reaches it, as the `n`-th request finds (R355). -/
opaque farUnbound : Nat → Bool

/-- FREE VALUE (log 72). The page of a tenant's intermediate addresses where firmware places the `n`-th tuple region it maps (R285). -/
opaque regionPage : Nat → Nat

/-- FREE VALUE (log 72). The page of a tenant's intermediate addresses that firmware takes for the `n`-th table it adds (R48). -/
opaque tablePage : Nat → Nat

/-- FREE VALUE (log 17). The byte of the movement program at an address: its image is not in the spec (R334, R353). -/
opaque movementByte : Nat → Byte

/-- FREE VALUE (log 4). Byte `i` of the `n`-th load from host memory or a device window of the host (R157, R192). -/
opaque hostByte : Nat → Nat → Byte

/-- FREE VALUE (log 6). VFRCP within 1 ulp (R130): whether the neighbour away from zero is taken. -/
opaque rcpAway : Lane → Bool

/-- FREE VALUE (log 6). VFRSQ within 1 ulp (R130): whether the neighbour away from zero is taken. -/
opaque rsqAway : Lane → Bool

/-- FREE VALUE (log 6). VFEXP2 outside its exact and special cases, where it is within the error limit of R130. -/
opaque exp2 : Lane → Lane

/-- FREE VALUE (log 6). VFLOG2 outside its exact and special cases, where it is within the error limit of R130. -/
opaque log2 : Lane → Lane

/-- FREE VALUE (log 6). VFTANH of a positive operand outside its exact and special cases, where it is within the error limit
of R130. -/
opaque tanh : Lane → Lane

/-- Sets of a die's L2, 64 MiB in 32 ways of 64-byte lines, and of its RDC, 32 MiB in 16 ways of them (R157). -/
def cacheSets : Nat := 32768

/-- Lines of 64 bytes of a core's instruction cache of 32 KiB (R157; log 50). -/
def icacheLines : Nat := 512

/-- FREE VALUE (log 11). The set of an RDC that a line falls in, modulo its sets: R157 and R164 do not say how lines are placed. -/
opaque rdcSet : Nat → Nat

/-- FREE VALUE (log 11). The set of an L2 that a line falls in, modulo its sets. -/
opaque l2Set : Nat → Nat

/-- FREE VALUE (log 11). Which of its mask's ways the `n`-th line brought into an L2 or an RDC takes: R163 and R164 give no replacement rule. -/
opaque cacheWay : Nat → Nat

/-- FREE VALUE (log 50). Which line of a full instruction cache the `n`-th line brought into one replaces. -/
opaque icacheWay : Nat → Nat

/-- FREE VALUE (log 70). The set, of 16, of a VF's share of a cluster TLB that a translation falls in, by PASID and page number: R169 gives
8 ways and 128 entries. -/
opaque tlbSet : Nat → Nat → Nat

/-- FREE CONSTANT (log 71). How many vertical buses a die's near memory is interleaved over (R158). -/
opaque nearBuses : Nat

/-- FREE VALUE (log 71). The vertical bus of its die that serves a 256-byte granule of the scratchpad (R175). -/
opaque spadBus : Nat → Nat

/-- FREE VALUE (log 71). What remains of a capacity after the `n`-th retirement of a bus or a link (R176, R312). -/
opaque capLeft : Nat → Nat

/-- FREE VALUE (log 12). The total of a counter as PCTL gives it, at the `n`-th such read, to a requester without a PASID, which has
no tenant (R328). -/
opaque untaggedTotal : Nat → Word

/-- FREE VALUE (log 13). The gang-barrier rank that OBRANK gives on a core that no live launch of the VF holds: R283 names the packet's. -/
opaque noGang : Nat → BitVec 56

/-- FREE CONSTANT (log 14). The modulus of the key in the signed configuration store, which verifies image signatures (R48). -/
opaque imageKey : Nat

/-- FREE CONSTANT (log 14). The public exponent of that key. -/
opaque imageExponent : Nat

/-- FREE VALUE (log 14). Whether a number is an encoding of a digest: R48 does not name the padding of its signatures. -/
opaque sigEncodes : Nat → Nat → Bool

/-- FREE VALUE (log 17). The address at which a reloaded movement program starts: R334 reloads it from its signed image, which the spec does
not give. -/
opaque movementEntry : Nat → Word

/-- FREE VALUE (log 18). Where the part of the `n`-th copy to another module that lies there ends it, if it does: the number of words written, and
the cause, modulo four, by its place among those R254 names. -/
opaque farFault : Nat → Option (Nat × Nat)

/-- FREE VALUE (log 18). Whether the `n`-th copy to another module reads a poisoned destination word there. -/
opaque farPoison : Nat → Bool

/-- FREE VALUE (log 35). At which instant of the `n`-th command that moves words, between its start and its completion, it moves its word `i`. -/
opaque engineNow : Nat → Nat → Nat

/-- FREE VALUE (log 80). Whether the `n`-th RLD that finds its slot's posted store to the word held by the Kiosk reads the word at once (R188, R359). -/
opaque rldPasses : Nat → Bool

/-- FREE CONSTANT (log 21). MODID, the module's number on the fabric, set at start from the signed configuration store (R352, R353). -/
opaque moduleId : BitVec 12

/-- FREE VALUE (log 22). The state-table version (bits 15 to 0) and the firmware version (bits 47 to 16) of the `n`-th update image. -/
opaque lodgeVersion : Nat → BitVec 48

/-- FREE VALUE (log 24). TVAL of the `n`-th POISON trap that a read of a poisoned shared register raises (R335): R332 names the lowest poisoned
address read, and a register has none. -/
opaque registerPoison : Nat → Word

end Sys2Proof.Config
end

