-- ==== Sys2Proof/Machine/State.lean ====
section
/-! DEFINITION. The state of the module as plain data: slots, cores, clusters, dies, islands, memories, tables, queues,
the Bandstand, the host-visible registers and the moves still to come; the ways a step can stop; and the state after reset.
Sparse arrays are association lists (`SMap`); an index that is not listed has the value its accessor names. -/

namespace Sys2Proof.Machine

/-- A sparse array: the first pair with an index gives its value; an index without a pair has the reader's default. -/
abbrev SMap (α : Type) := List (Nat × α)

/-- Physical memory: bytes by physical address (R158), in the canonical form of `Memory.wf`. -/
abbrev Memory := List Host.Cell

/-- Trap and kill causes (R332). -/
inductive Cause where
  | illegal | priv | align | xlate | perm | fekind | poison | remote
  | obrank | obexit | obgive | rankspace | obspill | obstray
  | tskind | tspark | tspat
  | hbmiss | ptgap | sigfail | loopend | double | regerr
  | sykind | syfull | hwait | trapi | brk
  deriving DecidableEq, Repr

/-- The memory types an address resolves to (R157, R168). -/
inductive MemKind where
  | window | near | far | ts | device
  deriving DecidableEq, Repr

/-- The names of registers, as check 1 of R20 compares them. -/
inductive RegName where
  | s (r : Reg)
  | v (r : Reg)
  | p (n : PReg)
  | sys (n : SysReg)
  deriving DecidableEq, Repr

/-- A write of a slot's own register within its fixed latency (R19, R20, R94): the register, the cycle it lands in, the bits it writes, and, of
TVEC, what it holds until then. -/
structure Busy where
  reg : RegName
  cycle : Nat
  bits : Vec := BitVec.allOnes 512
  old : Word := 0
  deriving DecidableEq, Repr

/-- An obligation (R263, R264): object, kind, rank, the slot of this core that holds it, whether it is marked for the
next FORK (R268), whether it came from a FORK's join (R242), the entry of the OBSPILL area it is spilled to (R264), whether its spill write is still
held (R172, R311, R358), and whether it is held in the carried store after dispatch (R268). Lists are in order of creation. -/
structure Oblig where
  obj : Word
  kind : ObKind
  rank : BitVec 56
  holder : Nat := 0
  marked : Bool := false
  fromFork : Bool := false
  spill : Option Nat := none
  unwritten : Bool := false
  carried : Bool := false
  deriving DecidableEq, Repr

/-- A task record (R237), with the obligations bound to it (R268) and the object and rank of the ARRIVE of its join (R239). -/
structure TaskRec where
  entry : Word := 0
  arg1 : Word := 0
  arg2 : Word := 0
  arg3 : Word := 0
  arg4 : Word := 0
  join : Word := 0
  fsa : Word := 0
  fsb : Word := 0
  arrive : Option (Word × BitVec 56) := none
  bound : List Oblig := []
  launch : Nat := 0
  deriving DecidableEq, Repr

/-- What a message is (R243, R249, R270, R337). -/
inductive MsgKind where
  | plain | sendr | sys (chan : BitVec 2) | orphan | gangfault
  deriving DecidableEq, Repr

/-- A message (R24, R243): its 64 bytes, the source word its handler finds in s1 (R246), the target core or module,
and the obligations an ORPHAN message holds (R270). -/
structure Msg where
  data : Vec
  src : Word := 0
  kind : MsgKind := .plain
  target : Nat := 0
  xmod : Option (BitVec 12) := none
  vf : Nat := 0
  tenant : Nat := 0
  obs : List Oblig := []
  launch : Option Nat := none
  deriving DecidableEq, Repr

/-- A store-buffer entry (R179): the bytes it writes, by physical address, in order, the scope of a STREL (R199), whether it is a VSTS, whose
elements leave in lane order (R198), and whose it is: VF, 8 for the physical function, and tenant. -/
structure StoreEntry where
  bytes : List (Nat × Byte)
  release : Option Scope := none
  scatter : Bool := false
  vf : Nat := 8
  tenant : Nat := 0
  deriving DecidableEq, Repr

/-- A posted remote store in flight (R203): bytes, the words still to be performed, whether it sets its words full, its target
core, ORD (R188), and whose it is. -/
structure Posted where
  bytes : List (Nat × Byte)
  words : List Nat
  full : Bool
  target : Nat
  ord : Bool
  vf : Nat := 8
  tenant : Nat := 0
  deriving DecidableEq, Repr

/-- A REPLY's write in flight (R248): the token, the value, or poison, and whose it is; `xmod` is another module it goes to. -/
structure PostedReply where
  token : Word
  vf : Nat
  value : Option Word
  xmod : Option (BitVec 12) := none
  tenant : Nat := 0
  deriving DecidableEq, Repr

/-- One word of a VLD or VLDS, or one element of a gather (R197, R198, R206): its address, its physical address, whether its page is poisoned on
read (R174), and the acting lanes it serves. -/
structure VldsWord where
  ea : Word
  pa : Nat
  pr : Bool
  lanes : List Nat
  deriving DecidableEq, Repr

/-- What a slot asks of a home (R178): every act that is performed at a home and answered by a reply. Registers and
addresses are resolved at issue; `pr` says that the page is poisoned on read (R174). -/
inductive Req where
  | load (d : Reg) (size : Nat) (ea : Word) (pa : Nat) (pr home : Bool)
  | vload (d : Reg) (size : Nat) (els : List VldsWord)
  | lds (d : Reg) (ea : Word) (pa : Nat) (pr : Bool) (rank : BitVec 56)
  | vlds (d : Reg) (todo : List VldsWord) (rank : BitVec 56)
  | vldsWord (w : VldsWord)
  | take (d : Reg) (ea : Word) (pa : Nat) (pr : Bool) (obj : Word) (rank : BitVec 56)
  | takenb (d : Reg) (ea : Word) (pa : Nat) (pr : Bool) (obj : Word) (rank : BitVec 56)
  | put (v : Word) (ea : Word) (pa : Nat) (obj : Word)
  | fill (pa : Nat) (obj : Word)
  | empty (pa : Nat)
  | festat (d : Reg) (pa : Nat) (pr : Bool)
  | flush (pa : Nat)
  | rld (d : Reg) (addr base : Word) (pa : Nat) (target : Nat)
  | devLoad (d : Reg) (size : Nat) (pa : Nat)
  | devStore (size : Nat) (pa : Nat) (v : Word)
  | devLanes (parts : List (Nat × Nat × Word)) (rest : StoreEntry)
  | syinit (sa : Word) (pa : Nat) (obj : Word) (rank : BitVec 56) (w0 : Word) (owe : Option ObKind) (d : Option Reg)
  | syadd (sa : Word) (pa : Nat) (obj : Word) (v : Word)
  | syarrive (d : Reg) (sa : Word) (pa : Nat) (obj : Word)
  | sywait (d : Reg) (sa : Word) (pa : Nat) (target : Word) (obmin : BitVec 56)
  | syread (d : Reg) (sa : Word) (pa : Nat) (w : Bool)
  | syret (sa : Word) (pa : Nat) (obj : Word)
  | obowe (sa : Word) (pa : Nat) (obj : Word)
  | obrank (d : Reg) (sa : Word) (pa : Nat)
  | forkJoin (sa : Word) (pa : Nat) (r : TaskRec)
  | taskArrive (sa : Word) (pa : Nat)
  deriving DecidableEq, Repr

/-- What a slot out of rotation waits for (R19, R152): a reply the hardware owes or an object that software owes. -/
inductive Wait where
  /-- a request parked in a home fault queue (R172); hardware -/
  | parked (r : Req) (page : Nat)
  /-- a divide, or VFDIV and VFSQRT, whose result has not landed (R110, R123); hardware -/
  | divide (d : Reg) (v : Word)
  | vdivide (d : Reg) (mask : BitVec 16) (v : Vec) (flags : BitVec 5)
  /-- TBLLD waiting for matrix commands pushed before number `seq` that use table `t` (R78); hardware -/
  | tblld (t : BitVec 2) (addr : Word) (seq : Nat)
  /-- a store, or a posted store, that found its buffer full (R179, R203); hardware -/
  | storeFull (e : StoreEntry)
  | postFull (e : Posted)
  /-- MXQ with a full share and its place among the pushes, RELEASE and MXDRAIN waiting for commands (R216, R218, R220); hardware -/
  | mxFull (cmd : Vec) (order : Nat)
  | release (bay : Nat) (seq : Nat)
  | mxdrain (seqs : List Nat)
  /-- COPY, MBW and the movement slot's MBR at a mailbox (R250, R252); hardware -/
  | copyBox (d : BitVec 5) (words : List Word)
  | mbwBox (n : BitVec 2) (v : Word)
  | mbrBox (d : Reg) (slot box : Nat)
  /-- an instruction held on a register whose COPY status is pending (R252); hardware -/
  | copyStatus (r : BitVec 5)
  /-- EXIT or TASKEND draining its replies (R149, R242); hardware -/
  | exiting
  /-- FENCE or a release waiting for acknowledgements (R181); hardware -/
  | fence (scope : Scope) (rst : Bool)
  /-- TURNEND holds the slot's memory traffic (R311); hardware -/
  | donated
  /-- a remote load at the FIFO of an island that relocks, its own or its target's (R326); hardware -/
  | fifo (target : Nat)
  /-- held before any effect until the slot's own buffered stores can be performed (R172, R175, R185); hardware -/
  | drain
  /-- an instruction that would write a spill area at the home of a halted cluster (R358); hardware -/
  | kiosk (pa : Nat)
  /-- an instruction fetch that misses in a page that is not available, a page walk that reads one, or a spill write to one (R172, R265); hardware -/
  | fetch (pa : Nat)
  /-- TLBINV waiting for accesses of its VF, or of its tenant, that an old translation serves (R170); hardware -/
  | tlbinv (vfScope : Bool)
  /-- a DBGBRK that has halted its cluster, until it resumes (R361); hardware -/
  | halted
  /-- a deferred list of a full/empty word (R204); software -/
  | deferred (rank : BitVec 56)
  /-- VLDS with `left` words still to be read: what it has got, and the lowest poisoned address (R206); software -/
  | vlds (d : Reg) (got : List (Nat × Lane)) (poisoned : Option Word) (left : Nat) (rank : BitVec 56)
  /-- the waiters of a sync slot (R276); software -/
  | sync (rank : BitVec 56)
  /-- the gang barrier (R279); software -/
  | gbar (phase : Nat) (rank : BitVec 56)
  /-- the claim queue of a bay (R217); software -/
  | claim (bay : Nat) (rank : BitVec 56)
  /-- a tuple request or deposit on its way to its slice, or parked there (R292); software while parked -/
  | tupleSent (rank : Option (BitVec 56))
  | tupleParked (rank : BitVec 56)
  /-- SEND or SENDR on a full send queue (R244); software -/
  | sendFull (m : Msg)
  /-- an instruction held on a pending REDUCE status (R256); software -/
  | reduceStatus (r : BitVec 5) (rank : BitVec 56)
  deriving DecidableEq, Repr

/-- The state of a slot (R17, R149, R336): empty; running; out of rotation; parked with its reason (R340: 1 YPT, 2 PREEMPT,
3 synchronised stop); its bank being scrubbed; its number retired on this core. -/
inductive Status where
  | empty | run | wait (w : Wait) | parked (reason : Nat) | scrub | retired
  deriving DecidableEq, Repr

/-- What the activity in a slot is (R10, R22, R24, R14). -/
inductive ActKind where
  | first | task | handler | movement
  deriving DecidableEq, Repr

/-- A pending kill (R336): its cause and what goes into the KILL record. -/
structure KillRec where
  cause : Cause
  tepc : Word
  tval : Word
  deriving DecidableEq, Repr

/-- One barrel slot with the activity in it (R92, R96, R340). -/
structure Slot where
  status : Status := .empty
  kind : ActKind := .task
  -- R92: the private files
  s : SMap Word := []
  v : SMap Vec := []
  p : SMap (BitVec 16) := []
  -- R105: mailboxes
  mb : SMap Word := []
  mbFull : BitVec 4 := 0
  mbTag : Option (BitVec 5) := none
  -- R187: words that a COPY in the mailboxes keeps as they stood before a stop performed later stores of its slot
  boxGot : SMap (Word × Bool) := []
  -- R357: whether a halt withdrew the wait of the slot, whose instruction issues again
  withdrawn : Bool := false
  -- R144: the program counter
  pc : Word := 0
  -- the instruction being executed: its length in bytes, first word, the SIGACC before its words (R97, R332)
  ilen : Nat := 0
  iword : Half := 0
  sigPrev : BitVec 16 := 0xFFFF
  -- R98: TSTAT
  pl : BitVec 2 := 0
  md : Bool := false
  ppl : BitVec 2 := 0
  pmd : Bool := false
  ih : Bool := false
  tcause : Byte := 0
  tepc : Word := 0
  tval : Word := 0
  tvec : Word := 0
  fpflags : BitVec 5 := 0
  ls : Word := 0
  le : Word := 0
  lc : Word := 0
  fmta : BitVec 4 := 0
  fmtb : BitVec 4 := 0
  scla : Word := 0
  sclb : Word := 0
  qtab : BitVec 3 := 0
  obspill : Word := 0
  guard : Word := 0
  hbi : BitVec 32 := 0
  hbc : BitVec 32 := 0
  maxpt : BitVec 32 := 0
  ptc : BitVec 32 := 0
  member : BitVec 11 := 0
  gangw : BitVec 6 := 0
  gangh : BitVec 6 := 0
  stage : BitVec 3 := 0
  vfid : BitVec 4 := 0
  tenant : BitVec 5 := 0
  sigacc : BitVec 16 := 0xFFFF
  vcyc : Word := 0
  -- R153, R154, R338, R340: marks of the context; `gap` is a PTGAP recorded, `ptgap` the PTC it is delivered with after a resume
  missed : Bool := false
  hbPend : Bool := false
  gap : Bool := false
  ptgap : Option (BitVec 32) := none
  replyFault : Option (Cause × Word) := none
  preLead : Bool := false
  prePreempt : Bool := false
  barPhase : Option Nat := none
  -- R252, R256: scalar registers with a status pending; `true` is a REDUCE
  pendRegs : List (BitVec 5 × Bool) := []
  gen : BitVec 32 := 0
  launch : Option Nat := none
  -- R179, R188, R244, R248: what has issued and is not performed
  storeBuf : List StoreEntry := []
  posted : List Posted := []
  replies : List PostedReply := []
  sendq : List Msg := []
  -- R25, R270: the handler's budget, its address, and whether its message was an ORPHAN
  hcount : Nat := 0
  hstart : Word := 0
  orphan : Bool := false
  kill : Option KillRec := none
  -- R335: private registers struck by an uncorrectable error; `true` is a vector register
  regErr : List (Bool × BitVec 5) := []
  -- R103, R265: the OBSPILL area counts as full since a spill write failed
  spillBad : Bool := false
  -- R20, R94: its own writes still within their fixed latency: of earlier instructions, and of the last
  busy : List Busy := []
  busyNow : List Busy := []
  -- R266: how often the slot has been dispatched; `gen` is that count for the activity in it, and comes back with a restored one
  dispatches : BitVec 32 := 0
  -- the instruction at pc was held before any effect, and its next issue is the same issue (the model's own mark)
  reissue : Bool := false
  -- R152: the first cycle whose seat has not been counted
  seen : Nat := 0
  deriving DecidableEq, Repr

/-- A matrix command in a VF's share (R216): its 64 bytes, the number of its push, the slot that pushed it, the window ranges it reads (R187);
once it has started (R234), whether it has, and the words it has read or written so far, by offset, with whether each was poisoned (R186). -/
structure MxCmd where
  cmd : Vec
  seq : Nat
  slot : Nat := 0
  reads : List (Nat × Nat) := []
  begun : Bool := false
  early : SMap (Word × Bool) := []
  deriving DecidableEq, Repr

/-- A tile bay (R213): codes, scales, tags, NB, valid, poison, claim (the claiming activity's handle) and claim queue (slots of this core). -/
structure Bay where
  codes : SMap Byte := []
  scales : SMap Byte := []
  fmt : BitVec 4 := 0
  layout : BitVec 4 := 0
  nb : Nat := 0
  valid : Bool := false
  poison : Bool := false
  claim : Option Word := none
  queue : List Nat := []
  deriving DecidableEq, Repr

/-- An accumulator (R213): 32 x 32 FP32 elements by 32*i + j, and its poison bit. -/
structure Acc where
  vals : SMap Lane := []
  poison : Bool := false
  deriving DecidableEq, Repr

/-- A steal under way (R23): the distance of the next victim, and a record in transit. -/
structure Steal where
  dist : Nat
  found : Option TaskRec := none
  deriving DecidableEq, Repr

/-- What a core keeps for one VF, or for the physical function, number 8 (R93, R75, R22, R24, R261, R317, R337). -/
structure CoreVf where
  c : SMap Word := []
  w : SMap Vec := []
  cPoison : List (BitVec 5) := []
  wPoison : List (BitVec 5) := []
  tables : SMap (SMap (BitVec 21)) := []
  brb : BitVec 56 := 0xFFFFFFFFFFFF00
  mxq : List MxCmd := []
  mxSeq : Nat := 0
  mxErr : Word := 0
  deque : List TaskRec := []
  spilled : List TaskRec := []
  dqspill : Word := 0
  dqBad : Bool := false
  dqTold : Bool := false
  dqToldRefill : Bool := false
  dqResv : List Nat := []
  dqHead : Nat := 0
  sync : SMap Nat := []
  syncResv : List Nat := []
  barArrived : Bool := false
  barPhase : Nat := 0
  inbox : List Msg := []
  devOut : List Msg := []
  hold : BitVec 4 := 0
  ready : BitVec 4 := 0
  steal : Option Steal := none
  backoff : Option Nat := none
  lastDonated : Nat := 14
  mboxLast : Nat := 0
  msgSent : Word := 0
  msgRecv : Word := 0
  pcnt : SMap Word := []
  fenced : Bool := false
  launch : Option Nat := none
  member : Nat := 0
  stage : Nat := 0
  deriving DecidableEq, Repr

/-- A write to a shared register on its way (R94): the cycle it lands in, the slot, and the write; a vector write carries the
lanes that act; `dq` marks a write to DQSPILL (R103). -/
structure Landing where
  cycle : Nat
  slot : Nat
  vf : Nat
  reg : BitVec 5
  scalar : Option Word := none
  lanes : List (Nat × Lane) := []
  dq : Bool := false
  deriving DecidableEq, Repr

/-- A cached translation (R169): VF, PASID, page number and size in address bits, and what the walk gave (R168). -/
structure TlbEntry where
  vf : Nat
  pasid : BitVec 20
  vpn : Nat
  bits : Nat
  pa : Nat
  kind : MemKind
  rankClass : BitVec 16
  w : Bool
  x : Bool
  fe : Bool
  pr : Bool
  deriving DecidableEq, Repr

/-- A line of text in an instruction cache (R9, R157, R309): the VF it was fetched for, its physical address, its bytes. -/
structure TextLine where
  vf : Nat
  line : Nat
  bytes : List Byte
  deriving DecidableEq, Repr

/-- A core (R14, R65, R157, R169, R213, R258); `hand` lists the requests whose mailboxes the movement program has read: slot, GEN and sd (R334). -/
structure Core where
  slots : SMap Slot := []
  vfs : SMap CoreVf := []
  constBank : SMap Word := []
  landing : List Landing := []
  obs : List Oblig := []
  obResv : SMap Nat := []
  bays : SMap Bay := []
  accs : SMap Acc := []
  side : SMap Byte := []
  mxRetired : Bool := false
  mxTurn : Nat := 0
  utlb : List TlbEntry := []
  icache : List TextLine := []
  hand : List (Nat × BitVec 32 × BitVec 5) := []
  lastCycle : Option Nat := none
  handlerTurn : Nat := 0
  mboxTurn : Nat := 0
  traceStart : Nat := 0
  traceLast : Nat := 0
  traceRecs : List Lane := []
  traceState : SMap (BitVec 3) := []
  deriving DecidableEq, Repr

/-- A packet at a halted cluster's ingress, or in the network before it (R358): a word of a posted store or a REPLY's write that its slot still
lists; the request of a slot that waits for its reply; a poisoned discharge; a posted store or a REPLY's write whose slot has been stopped (R193); the zeroing of a
VF's banks and scratchpad share by its reset (R342). -/
inductive Packet where
  | store (core slot word : Nat)
  | reply (core slot token : Nat)
  | request (core slot pa : Nat)
  | poison (core slot vf tenant : Nat) (o : Oblig)
  | sweptStore (core slot : Nat) (e : Posted)
  | sweptReply (core slot : Nat) (r : PostedReply)
  | zero (cluster : Nat) (banks : List Nat) (spad : Nat × Nat)
  deriving DecidableEq, Repr

/-- A cluster (R169, R329, R357, R358): its TLB, Kiosk registers, packets held at its ingress and in the network before it, in order of arrival,
the tenant of each VF it was halted with, trace ring bytes. -/
structure Cluster where
  tlb : List TlbEntry := []
  kcfg : Word := 0
  ksel : Word := 0
  halting : Bool := false
  halted : Bool := false
  haltBy : BitVec 8 := 0
  ingress : List Packet := []
  frozen : SMap Nat := []
  trptr : Word := 0
  retired : Bool := false
  deriving DecidableEq, Repr

/-- An entry of a copy engine's chain (R253): descriptor words, VF, PASID, core, slot and sd; once it has started, whether it has, the words it has
moved so far and whether each was poisoned, and those it has read and not yet written (R186). -/
structure CopyEntry where
  w0 : Word
  w1 : Word
  w2 : Word
  w3 : Word
  vf : Nat
  tenant : Nat
  pasid : Nat := 0
  core : Nat
  slot : Nat
  gen : BitVec 32
  sd : BitVec 5
  started : Bool := false
  moved : SMap Bool := []
  got : SMap (Word × Bool) := []
  seq : Nat := 0
  deriving DecidableEq, Repr

/-- A copy engine (R253): its chain, the next sequence number, and the chain's completion word. -/
structure CopyEngine where
  chain : List CopyEntry := []
  next : Nat := 0
  done : Nat := 0
  deriving DecidableEq, Repr

/-- An invalidation of a line on its way to a die, or its acknowledgement on its way home (R164), with the slot whose write
caused it (slot 16 and above: an engine). -/
structure Inval where
  line : Nat
  die : Nat
  core : Nat
  slot : Nat
  deriving DecidableEq, Repr

/-- A die (R163, R164, R173, R175, R176, R253, R312): RDC lines (64 bytes by line address), the VF each was fetched for, the way it stands
in, the poisoned words they carry; the lines of far memory its L2 holds, with the way and whether it is dirty, whose data is the memory's own;
sharer vectors of the lines it homes, invalidations on their way, copy engines; buses held, with
connections their multiplexers have shifted past and which, buses whose range is being rewritten, and buses and channels retired. -/
structure Die where
  rdc : SMap (List Byte) := []
  rdcOwner : SMap Nat := []
  rdcWay : SMap Nat := []
  rdcPoison : List Nat := []
  l2 : SMap (Nat × Bool) := []
  sharers : SMap (BitVec 4) := []
  invals : List Inval := []
  acks : List Inval := []
  engines : SMap CopyEngine := []
  busHeld : List Nat := []
  busShifts : SMap Nat := []
  busFailed : List (Nat × Nat) := []
  busMoving : List Nat := []
  busRetired : List Nat := []
  chanRetired : List Nat := []
  deriving DecidableEq, Repr

/-- An island (R317, R320, R325, R326): its clock level, relock, power-cap hold, the VFs' requests; its clock has run at its
present period since tick `t0`, when CYC was `cyc0`; at tick `anchor` NCYC was `ncyc0`, with 16 fraction bits, and HELD `held`. -/
structure Island where
  level : Nat := 0
  relock : Bool := false
  target : Nat := 0
  lastStep : Option Nat := none
  capHold : Bool := false
  reqs : SMap Nat := []
  t0 : Nat := 0
  cyc0 : Nat := 0
  anchor : Nat := 0
  ncyc0 : Nat := 0
  held : Bool := false
  powered : Bool := true
  deriving DecidableEq, Repr

/-- A waiter at a home: of a full/empty word (R204) or a sync slot (R261). `held` is a request kept in the network past the
home's 256 entries. -/
structure Waiter where
  home : Nat
  pa : Nat
  core : Nat
  slot : Nat
  req : Req
  held : Bool := false
  deriving DecidableEq, Repr

/-- A request of the tuple instructions (R291 to R296). -/
inductive TsReq where
  | put (tuple : Vec) (poison : Bool) (ob : Bool)
  | copy (d : Reg) (val mask : Vec) (nb : Bool)
  | take (d : Reg) (val mask : Vec) (nb : Bool)
  | owe (d : Reg) (tag : Lane)
  | count (d : Reg) (val mask : Vec)
  deriving DecidableEq, Repr

/-- A tuple request on its way to its slice (`parked = false`), or an entry of the slice's PRT in arrival order (R291): the requester's handle is its
core, slot and GEN; a device deposit has no requester (R299). -/
structure TsEntry where
  core : Nat
  slot : Nat
  gen : BitVec 32 := 0
  device : Bool := false
  vf : Nat
  tenant : Nat
  sr : Word
  region : Nat
  slice : Nat
  req : TsReq
  obmin : BitVec 56 := 0
  rank : BitVec 56 := 0
  seq : Nat := 0
  parked : Bool := false
  deriving DecidableEq, Repr

/-- One stage of a launch (R7, R348). -/
structure StageInfo where
  die : Nat
  x : Nat
  y : Nat
  w : Nat
  h : Nat
  bar : Bool
  rank : BitVec 56
  entry : Word
  deriving DecidableEq, Repr

/-- Where a launch stands (R8, R9, R31, R339, R342). -/
inductive LaunchPhase where
  | taken | live | ended
  deriving DecidableEq, Repr

/-- A launch the front end has taken (R8 to R12, R31, R348); `fenced` says that a core of it has been fenced, so that it does not end by counting (R32). -/
structure Launch where
  vf : Nat
  tenant : Nat
  die : Nat
  hq : Nat
  num : BitVec 32
  stat : Word
  image : Word
  compl : Word
  fsa : Word
  fsb : Word
  maxpt : BitVec 32
  hbi : BitVec 32
  guardian : Word
  bayrank : BitVec 56
  stages : List StageInfo
  released : Nat := 0
  phase : LaunchPhase := .taken
  sweep : Option (Bool × Word × Word) := none
  fenced : Bool := false
  deriving DecidableEq, Repr

/-- A virtual queue the front end knows (R314, R346, R347): its accepted tail. -/
structure Vq where
  vf : Nat
  tenant : Nat
  vq : Nat
  tail : BitVec 32
  deriving DecidableEq, Repr

/-- A participant of a collective (R255, R256). -/
structure Participant where
  index : Nat
  core : Nat
  slot : Nat
  gen : BitVec 32
  sd : BitVec 5
  vf : Nat
  tenant : Nat
  w0 : Word
  w1 : Word
  w2 : Word
  w3 : Word
  tree : Bool
  deriving DecidableEq, Repr

/-- A collective in progress (R256): of a gang (launch and stage) or of the fabric. -/
structure Collective where
  tag : BitVec 16
  gang : Option (Nat × Nat)
  vf : Nat
  tenant : Nat
  parts : List Participant
  deriving DecidableEq, Repr

/-- A saved activity (R338, R340): whose it is, where it ran, its registers and marks, its obligations, its reason, and the
wait whose reply may still land in the saved image (R338). -/
structure Saved where
  vf : Nat
  tenant : Nat
  core : Nat
  slot : Nat
  act : Slot
  obs : List Oblig
  reason : Nat
  late : Option Wait := none
  deriving DecidableEq, Repr

/-- What an edge saves of a core for a tenant besides its activities (R257, R309): the per-VF state, the messages that ended activities have left in
send queues, by slot, and the bays, accumulators and side memory. -/
structure TenantCore where
  vf : Nat
  tenant : Nat
  core : Nat
  cv : CoreVf
  sendqs : SMap (List Msg) := []
  bays : SMap Bay
  accs : SMap Acc
  side : SMap Byte
  deriving DecidableEq, Repr

/-- What an edge saves for a tenant outside its cores (R309): local banks and the scratchpad share, copy commands not started,
with their die and engine, and collectives in progress (R257). -/
structure TenantMem where
  vf : Nat
  tenant : Nat
  copies : List (Nat × Nat × CopyEntry) := []
  colls : List Collective := []
  bytes : Memory
  full : List Nat
  poison : List Nat
  deriving DecidableEq, Repr

/-- A VF's entry of a live turn row (R305). -/
structure RowEntry where
  idle : Bool := true
  tenant : Nat := 0
  donate : Nat := 8
  nearw : Nat := 0
  farw : Nat := 0
  linkw : Nat := 0
  l2w : BitVec 32 := 0
  rdcw : BitVec 16 := 0
  deriving DecidableEq, Repr

/-- A turn row (R305). -/
structure Row where
  len : Nat := 0
  pfl2 : BitVec 32 := 0
  pfrdc : BitVec 16 := 0
  vfs : SMap RowEntry := []
  deriving DecidableEq, Repr

/-- The edge a VF is in (R307): running, draining toward a stop, stopped until its restore. -/
inductive EdgePhase where
  | running | draining | stopped
  deriving DecidableEq, Repr

/-- The Bandstand (R304 to R313): the live rows, an accepted commit with its TIME and minima, the drain lead and guard in force in
ns, the live epoch, turn, round and rounds completed, whether it runs, the DONE bits, the donations in effect and to come, and for
each VF its edge, the outgoing tenant, the edge's TIME, its weights; live minima by (8v + r)4 + d. -/
structure Band where
  rows : List Row := []
  pending : Option (List Row) := none
  pendAt : Nat := 0
  pendMin : SMap Nat := []
  lead : Nat := 16000
  guard : Nat := 4000
  epoch : Nat := 0
  turn : Nat := 0
  round : Nat := 0
  rounds : Nat := 0
  started : Bool := false
  done : BitVec 8 := 0
  effect : BitVec 8 := 0
  donateAt : SMap Nat := []
  edge : SMap EdgePhase := []
  out : SMap Nat := []
  edgeAt : SMap Nat := []
  weights : SMap (Nat × Nat × Nat) := []
  lmin : SMap Nat := []
  deriving DecidableEq, Repr

/-- An event record (R343): ring (a VF, or 8 for the PF) and its eight words. -/
structure EventRec where
  ring : Nat
  code : Byte
  cause : Byte
  word0 : Word
  time : Word
  detail : List Word
  deriving DecidableEq, Repr

/-- A vector of an MSI-X table (R344): where the signal is written, what is written, and whether the vector is masked; PRESUMED (log 78) for the form, which is PCIe's. -/
structure MsixVec where
  addr : Word := 0
  data : BitVec 32 := 0
  masked : Bool := true
  deriving DecidableEq, Repr

/-- A Jotar port (R355, R356); `recent` lists the ticks of the replays since it last trained. -/
structure Port where
  rate : Nat := 0
  training : Bool := false
  retired : Bool := false
  replays : Nat := 0
  recent : List Nat := []
  remote : BitVec 12 := 0
  deriving DecidableEq, Repr

/-- The Lodges (R351 to R353): whether the last start was completed, so that the movement program stands in every slot 0 and the PCIe functions are
up; `since` is the tick at which an update started. -/
structure Lodge where
  up : Bool := true
  west : Bool := false
  ready : Bool := false
  updating : Bool := false
  since : Nat := 0
  result : Byte := 0
  stVersion : BitVec 16 := 0
  fwVersion : BitVec 32 := 0
  clearReq : Bool := false
  fails : BitVec 2 := 0
  minimal : Bool := false
  reason : Byte := 0
  deriving DecidableEq, Repr

/-- A word of a copy that has left for another module (R251, R355): the module and the VF there, its address there, the operation, the word, and whether it
is poisoned. -/
structure FarWord where
  module : BitVec 12
  vf : Nat
  addr : Word
  op : Nat
  word : Word
  poison : Bool
  deriving DecidableEq, Repr

/-- One move of the machine: the next seat in which a slot issues (R16 to R20), or an event of the device. -/
inductive Move where
  | seat
  | ev (i : Instr)
  deriving DecidableEq, Repr

/-- What has parked in a home fault queue (R172): the request of a slot that waits; a buffered store; a tuple request; the present request of a copy (by die,
engine and number), of a matrix command (by VF and number) or of a collective; and of the front end a doorbell, the taking of a launch (by die and hardware
queue slot), the end of a packet, a write of a tenant's memory, and an event record (R344). -/
inductive ParkedBy where
  | slot | store | tuple
  | copy (die engine seq : Nat)
  | matrix (vf seq : Nat)
  | collective
  | bell (vf : Nat) (pasid : Option Nat) (whole : Bool) (w : Word)
  | take (die hq : Nat)
  | packet (vf tenant code stage n : Nat) (stat compl : Word)
  | io (vf tenant a : Nat) (bs : List Byte)
  | record (vf : Nat) (r : EventRec)
  deriving DecidableEq, Repr

/-- A request that found its page unavailable, in order of arrival (R172): its physical address, the slot it is for (of a collective, the first
participant's; of the front end, none), and what it is. -/
structure Parked where
  pa : Nat
  core : Nat
  slot : Nat
  by' : ParkedBy := .slot
  deriving DecidableEq, Repr

/-- The whole module. `core`/`slot` name the slot whose instruction `exec` executes; `agenda` lists the moves still to come;
`fresh` numbers the free values taken so far (the model's own fields). `msix` lists the MSI-X signals sent: function, 8 for the PF, and vector; `msixTab` is the table of
two vectors of each function, vector `j` of function `f` at 2f + j (R344). `slew` is what corrections have added to TIME, the last by slewing at
tick `slewAt`, and `timeMin` the TIME it had then, which it keeps while a slew holds it back (R318). -/
structure State where
  core : Nat := 0
  slot : Nat := 0
  agenda : List Move := []
  fresh : Nat := 0
  now : Nat := 0
  slew : Int := 0
  slewAt : Nat := 0
  timeMin : Nat := 0
  mem : Memory := []
  full : List Nat := []
  poison : List Nat := []
  hostMem : Memory := []
  waiters : List Waiter := []
  faultQ : List Parked := []
  unavail : List Nat := []
  cores : SMap Core := []
  clusters : SMap Cluster := []
  dies : SMap Die := []
  islands : SMap Island := []
  root1 : SMap Nat := []
  root2 : SMap Nat := []
  ts : List TsEntry := []
  launches : SMap Launch := []
  nextLaunch : Nat := 0
  vqs : List Vq := []
  colls : List Collective := []
  saved : List Saved := []
  tcores : List TenantCore := []
  tmems : List TenantMem := []
  pf : SMap Word := []
  vfb : SMap Word := []
  latches : SMap Word := []
  samples : SMap Word := []
  sampled : Nat := 0
  pcselPend : SMap (Word × Nat) := []
  trctlPend : Option (Word × Nat) := none
  events : List EventRec := []
  band : Band := {}
  lodge : Lodge := {}
  linksRetired : List (Nat × Nat) := []
  lanesRepaired : List (Nat × Nat) := []
  ports : SMap Port := []
  fabricOut : List Msg := []
  devOut : List (Nat × Nat × Word) := []
  copyOut : List FarWord := []
  msix : List (Nat × Nat) := []
  msixTab : SMap MsixVec := []
  lastRead : Word := 0
  deriving DecidableEq, Repr

/-- How a step can stop with a fault. -/
inductive Fault where
  /-- A slot reads or writes a device address inside a register block at which no map of the spec lists a register
  (R315, R316 give no effect for it): raised by device loads and stores. Safe: the hardware may go on, the model stops. -/
  | noDeviceRegister (addr : Nat)
  deriving DecidableEq, Repr

/-- How a step can have no meaning. -/
inductive Refusal where
  /-- An instruction of the table that the model has not reached: raised by `exec` alone. Safe: the model stops. -/
  | notModelled (mnemonic : String)
  deriving DecidableEq, Repr

/-- The module right after a cold start (R162, R317, R353): every register and memory word zero and empty, every slot empty,
all VFs down, RUN 0, TIME 0, all islands at level 0. -/
def State.reset : State := {}

end Sys2Proof.Machine
end

