-- ==== Sys2Proof/Machine/Maps.lean ====
section
/-! DEFINITION. Reading and writing sparse arrays, physical memory in its canonical form, and sorted sets of addresses. -/

namespace Sys2Proof.Machine

/-- The value at an index, if a pair lists it. -/
def SMap.look {α : Type} : SMap α → Nat → Option α
  | [], _ => none
  | (j, x) :: m, k => if j = k then some x else SMap.look m k

/-- Sets the value at an index. -/
def SMap.put {α : Type} : SMap α → Nat → α → SMap α
  | [], k, x => [(k, x)]
  | (j, y) :: m, k, x => if j = k then (k, x) :: m else (j, y) :: SMap.put m k x

/-- Forgets an index. -/
def SMap.drop {α : Type} (m : SMap α) (k : Nat) : SMap α := m.filter fun p => p.1 != k

/-- Changes every value, by its index. -/
def SMap.over {α : Type} (m : SMap α) (f : Nat → α → α) : SMap α := m.map fun p => (p.1, f p.1 p.2)

/-- The byte at an address; an address that is not listed reads as zero (R162, R353 step 3; log 1). -/
def Memory.get : Memory → Nat → Byte
  | [], _ => 0
  | (j, x) :: m, a => if j = a then x else Memory.get m a

/-- Puts a pair before the first higher address. -/
def Memory.insert : Memory → Nat → Byte → Memory
  | [], a, b => [(a, b)]
  | (j, x) :: m, a, b => if a < j then (a, b) :: (j, x) :: m else (j, x) :: Memory.insert m a b

/-- Writes a byte: a zero is not listed, so that equal memories are equal lists. -/
def Memory.put (m : Memory) (a : Nat) (b : Byte) : Memory :=
  let m' := m.filter fun p => p.1 != a
  if b = 0 then m' else Memory.insert m' a b

/-- The canonical form: every address above `lo` and strictly rising, no zero byte listed. -/
def Memory.wfFrom : Nat → Memory → Bool
  | _, [] => true
  | lo, (j, x) :: m => decide (lo ≤ j) && x != 0 && Memory.wfFrom (j + 1) m

/-- The canonical form of a memory. -/
def Memory.wf (m : Memory) : Bool := Memory.wfFrom 0 m

/-- `n` bytes from an address. -/
def Memory.bytes (m : Memory) (a : Nat) : Nat → List Byte
  | 0 => []
  | n + 1 => m.get a :: Memory.bytes m (a + 1) n

/-- Bytes written from an address. -/
def Memory.store (m : Memory) (a : Nat) : List Byte → Memory
  | [] => m
  | b :: bs => Memory.store (m.put a b) (a + 1) bs

/-- Bytes written each at its own address, in order. -/
def Memory.patch (m : Memory) : List (Nat × Byte) → Memory
  | [] => m
  | p :: ps => Memory.patch (m.put p.1 p.2) ps

/-- The number of little-endian bytes (R3). -/
def leNat : List Byte → Nat
  | [] => 0
  | b :: bs => b.toNat + 256 * leNat bs

/-- The `n` little-endian bytes of a number (R3). -/
def leBytes : Nat → Nat → List Byte
  | 0, _ => []
  | n + 1, v => BitVec.ofNat 8 v :: leBytes n (v / 256)

/-- A 64-bit word of memory (R3). -/
def Memory.word (m : Memory) (a : Nat) : Word := BitVec.ofNat 64 (leNat (m.bytes a 8))

/-- Bytes of a word, each with its address. -/
def cellsOf (a : Nat) : List Byte → List (Nat × Byte)
  | [] => []
  | b :: bs => (a, b) :: cellsOf (a + 1) bs

/-- Membership of a sorted set of addresses. -/
def setHas (l : List Nat) (a : Nat) : Bool := l.elem a

/-- Adds an address to a sorted set. -/
def setAdd : List Nat → Nat → List Nat
  | [], a => [a]
  | x :: l, a => if a < x then a :: x :: l else if a = x then x :: l else x :: setAdd l a

/-- Removes an address from a sorted set. -/
def setDel (l : List Nat) (a : Nat) : List Nat := l.filter fun x => x != a

/-- Adds or removes an address. -/
def setPut (l : List Nat) (a : Nat) (b : Bool) : List Nat := if b then setAdd l a else setDel l a

/-- The numbers below `n`, rising. -/
def upTo (n : Nat) : List Nat := List.range n

/-- The numbers of the set bits of a mask below `n`, rising. -/
def bitsOf (mask : Nat) (n : Nat) : List Nat := (List.range n).filter fun i => mask.testBit i

end Sys2Proof.Machine
end

