-- ==== Sys2Proof/Machine/Access.lean ====
section
/-! DEFINITION. Where things are in the state: cores, slots, virtual functions, partition registers, clocks, and the one home of
each register. -/

namespace Sys2Proof.Machine

/-! ## Places (R13, R7, R317) -/

/-- A core number that names a core (R13, R158). -/
def validCore (c : Nat) : Bool := c < 8192 && (c % 2048) / 64 < Config.height && c % 64 < Config.width

/-- The die of a core. -/
def dieOf (c : Nat) : Nat := c / 2048
/-- The column of a core. -/
def xOf (c : Nat) : Nat := c % 64
/-- The row of a core. -/
def yOf (c : Nat) : Nat := (c % 2048) / 64
/-- The core number of a place (R13). -/
def coreAt (d x y : Nat) : Nat := d * 2048 + y * 64 + x
/-- The cluster of a core, 96d + 12cy + cx (R330). -/
def clusterOf (c : Nat) : Nat := 96 * dieOf c + 12 * (yOf c / 4) + xOf c / 4
/-- The island of a core, 8d + cy (R317, R327). -/
def islandOf (c : Nat) : Nat := 8 * dieOf c + yOf c / 4

/-! ## Records -/

/-- Core `c`. -/
def State.coreOf (s : State) (c : Nat) : Core := (s.cores.look c).getD {}
/-- Replaces core `c`. -/
def State.setCore (s : State) (c : Nat) (x : Core) : State := { s with cores := s.cores.put c x }
/-- Changes core `c`. -/
def State.modCore (s : State) (c : Nat) (f : Core → Core) : State := s.setCore c (f (s.coreOf c))

/-- Slot `k` of core `c`. -/
def State.slotOf (s : State) (c k : Nat) : Slot := ((s.coreOf c).slots.look k).getD {}
/-- Replaces slot `k` of core `c`. -/
def State.setSlot (s : State) (c k : Nat) (x : Slot) : State :=
  s.modCore c fun co => { co with slots := co.slots.put k x }
/-- Changes slot `k` of core `c`. -/
def State.modSlot (s : State) (c k : Nat) (f : Slot → Slot) : State := s.setSlot c k (f (s.slotOf c k))

/-- The issuing slot. -/
def State.cur (s : State) : Slot := s.slotOf s.core s.slot
/-- Changes the issuing slot. -/
def State.modCur (s : State) (f : Slot → Slot) : State := s.modSlot s.core s.slot f
/-- The state with slot `k` of core `c` as the issuing slot. -/
def State.at (s : State) (c k : Nat) : State := { s with core := c, slot := k }

/-- What core `c` keeps for VF `v`; 8 is the physical function. -/
def State.vfOf (s : State) (c v : Nat) : CoreVf := ((s.coreOf c).vfs.look v).getD {}
/-- Changes what core `c` keeps for VF `v`. -/
def State.modVf (s : State) (c v : Nat) (f : CoreVf → CoreVf) : State :=
  s.modCore c fun co => { co with vfs := co.vfs.put v (f ((co.vfs.look v).getD {})) }

/-- Die `d`. -/
def State.die (s : State) (d : Nat) : Die := (s.dies.look d).getD {}
/-- Changes die `d`. -/
def State.modDie (s : State) (d : Nat) (f : Die → Die) : State := { s with dies := s.dies.put d (f (s.die d)) }
/-- Cluster `c`. -/
def State.clus (s : State) (c : Nat) : Cluster := (s.clusters.look c).getD {}
/-- Changes cluster `c`. -/
def State.modClus (s : State) (c : Nat) (f : Cluster → Cluster) : State :=
  { s with clusters := s.clusters.put c (f (s.clus c)) }
/-- Island `i`. -/
def State.isl (s : State) (i : Nat) : Island := (s.islands.look i).getD {}
/-- Changes island `i`. -/
def State.modIsl (s : State) (i : Nat) (f : Island → Island) : State := { s with islands := s.islands.put i (f (s.isl i)) }

/-- Bay `b` of core `c`. -/
def State.bay (s : State) (c b : Nat) : Bay := ((s.coreOf c).bays.look b).getD {}
/-- Changes bay `b` of core `c`. -/
def State.modBay (s : State) (c b : Nat) (f : Bay → Bay) : State :=
  s.modCore c fun co => { co with bays := co.bays.put b (f ((co.bays.look b).getD {})) }
/-- Accumulator `a` of core `c`. -/
def State.acc (s : State) (c a : Nat) : Acc := ((s.coreOf c).accs.look a).getD {}
/-- Changes accumulator `a` of core `c`. -/
def State.modAcc (s : State) (c a : Nat) (f : Acc → Acc) : State :=
  s.modCore c fun co => { co with accs := co.accs.put a (f ((co.accs.look a).getD {})) }

/-! ## Device registers (R302, R315, R316, R327, R330, R339, R343) -/

/-- The reset value of the PF register at an offset (R305, R315, R327). -/
def pfDefault (off : Nat) : Word :=
  if off = 0 then 0x41000
  else if 0x40 ≤ off && off < 0x68 then 0x0400040004000400
  else if 0x1000 ≤ off && off < 0x5000 then
    (if 0x10 ≤ off % 0x100 && off % 0x100 < 0x90 && off % 0x10 = 0 then 0x820 else 0)
  else if 0x9000 ≤ off && off < 0x9040 then 0x40
  else if off = 0xB380 then Config.moduleId.setWidth 64
  else 0

/-- A stored register of the PF block. -/
def State.pfReg (s : State) (off : Nat) : Word := (s.pf.look off).getD (pfDefault off)
/-- Stores a register of the PF block. -/
def State.setPf (s : State) (off : Nat) (v : Word) : State := { s with pf := s.pf.put off v }
/-- A stored register of VF `v`'s block. -/
def State.vfReg (s : State) (v off : Nat) : Word := (s.vfb.look (v * 0x100000 + off)).getD 0
/-- Stores a register of VF `v`'s block. -/
def State.setVfReg (s : State) (v off : Nat) (w : Word) : State := { s with vfb := s.vfb.put (v * 0x100000 + off) w }

/-- Bits [hi:lo] of a word, as a number. -/
def field (w : Word) (hi lo : Nat) : Nat := w.toNat / 2 ^ lo % 2 ^ (hi + 1 - lo)
/-- The bits [56:1] of an address register (R96). -/
def addrBits (v : Word) : Word := v &&& 0x1FFFFFFFFFFFFFE
/-- The fields of GUARD: SUP, and of HANDLE its GEN, slot and COREID (R104, R266); its zero fields are ignored (R4). -/
def guardBits (v : Word) : Word := v &&& 0x800FFFFFFFFF1FFF
/-- Bit `i` of a word. -/
def bit (w : Word) (i : Nat) : Bool := w.toNat.testBit i

/-- VF `v` is up (R303, R315). -/
def State.vfIsUp (s : State) (v : Nat) : Bool := bit (s.pfReg (0x100 + 0x80 * v)) 0
/-- The general slot mask of VF `v` (R15, R302). -/
def State.slotMask (s : State) (v : Nat) : Nat := if v < 8 then (s.pfReg (0x108 + 0x80 * v)).toNat % 2 ^ 15 / 2 * 2 else 0
/-- The general slots VF `v` owns, rising. -/
def State.ownSlots (s : State) (v : Nat) : List Nat := bitsOf (s.slotMask v) 15
/-- The VF that owns general slot `k`, or 8 (R15). -/
def State.slotOwner (s : State) (k : Nat) : Nat :=
  ((List.range 8).find? fun v => (s.slotMask v).testBit k).getD 8
/-- The local banks of VF `v`, rising (R160). -/
def State.banks (s : State) (v : Nat) : List Nat := if v < 8 then bitsOf (field (s.pfReg (0x110 + 0x80 * v)) 15 0) 16 else []
/-- Base and size of VF `v`'s scratchpad share in bytes (R161). -/
def State.spad (s : State) (v : Nat) : Nat × Nat :=
  if v < 8 then (field (s.pfReg (0x118 + 0x80 * v)) 6 0 * 65536, field (s.pfReg (0x118 + 0x80 * v)) 15 8 * 65536) else (0, 0)
/-- The bays VF `v` owns, as a mask (R212). -/
def State.bayMask (s : State) (v : Nat) : Nat := if v < 8 then field (s.pfReg (0x120 + 0x80 * v)) 15 0 else 0
/-- The accumulators VF `v` owns, as a mask (R212). -/
def State.accMask (s : State) (v : Nat) : Nat := if v < 8 then field (s.pfReg (0x120 + 0x80 * v)) 19 16 else 0
/-- VF `v`'s matrix queue share (R212). -/
def State.mxShare (s : State) (v : Nat) : Nat := if v < 8 then field (s.pfReg (0x120 + 0x80 * v)) 25 20 else 0
/-- Whether VF `v` owns the side memory (R212). -/
def State.ownsSide (s : State) (v : Nat) : Bool := v < 8 && bit (s.pfReg (0x120 + 0x80 * v)) 26
/-- VF `v`'s share of the sync unit (R261). -/
def State.syncShare (s : State) (v : Nat) : Nat := if v < 8 then field (s.pfReg (0x128 + 0x80 * v)) 6 0 else 0
/-- The hardware queue slots VF `v` owns on die `d`, as a mask (R302). -/
def State.hwqMask (s : State) (v d : Nat) : Nat := if v < 8 then field (s.pfReg (0x130 + 0x80 * v + 8 * d)) 47 0 else 0
/-- Tenant interface `i` of VF `v` is valid (R316). -/
def State.tenantValid (s : State) (v i : Nat) : Bool := bit (s.vfReg v (0x100 + 8 * i)) 63
/-- The PASID of tenant interface `i` of VF `v` (R302, R316). -/
def State.pasid (s : State) (v i : Nat) : Nat := field (s.vfReg v (0x100 + 8 * i)) 19 0

/-! ## Clocks (R16, R317 to R320, R325, R326) -/

/-- The period of an island's clock in ticks; a relocking island runs on its bypass clock (R326). -/
def Island.ticks (i : Island) : Nat := if i.relock then Config.period 4 else Config.period i.level

/-- TIME in nanoseconds (R318). -/
def State.time (s : State) : Nat := max ((s.now : Int) / 36 + s.slew).toNat s.timeMin

/-- CYC of island `i` (R319). -/
def State.cyc (s : State) (i : Nat) : Nat :=
  let x := s.isl i
  if x.powered then x.cyc0 + (s.now - x.t0) / x.ticks else x.cyc0

/-- The cycle number of core `c`. -/
def State.cycle (s : State) (c : Nat) : Nat := s.cyc (islandOf c)

/-! ## Registers (R53, R92, R93) -/

/-- The shared bank a slot reaches (R93): its VF's, or the physical function's in the movement slot and in slot 15 between messages (R96). -/
def State.bankVf (s : State) : Nat := if s.slot = 0 || (s.slot = 15 && s.cur.status == .empty) then 8 else s.cur.vfid.toNat

/-- What the issuing slot's core keeps for its VF. -/
def State.curVf (s : State) : CoreVf := s.vfOf s.core s.bankVf

/-- The value of a scalar register. -/
def State.sreg (s : State) : Reg → Word
  | .priv n => (s.cur.s.look n.toNat).getD 0
  | .shared n => (s.curVf.c.look n.toNat).getD 0

/-- The value of a vector register. -/
def State.vreg (s : State) : Reg → Vec
  | .priv n => (s.cur.v.look n.toNat).getD 0
  | .shared n => (s.curVf.w.look n.toNat).getD 0

/-- The value of a predicate register. -/
def State.preg (s : State) (p : PReg) : BitVec 16 := (s.cur.p.look p.toNat).getD 0

/-- Lane `i` of a vector (R121). -/
def lane (v : Vec) (i : Nat) : Lane := v.extractLsb' (32 * i) 32

/-- The vector whose lane `i` is `f i` for `i` below `n`. -/
def packLanes (f : Nat → Lane) : Nat → Nat
  | 0 => 0
  | n + 1 => packLanes f n + (f n).toNat * 2 ^ (32 * n)

/-- The vector with lanes `f 0` to `f 15`. -/
def ofLanes (f : Nat → Lane) : Vec := BitVec.ofNat 512 (packLanes f 16)

/-- The value of a scalar source (R64, R65). -/
def State.ssrc (s : State) : SSrc → Word
  | .reg r => s.sreg r
  | .const n => ((s.coreOf s.core).constBank.look n.toNat).getD 0
  | .lit v => v

/-- The value of a vector source (R64): a scalar value is broadcast from its bits [31:0]. -/
def State.vsrc (s : State) : VSrc → Vec
  | .reg r => s.vreg r
  | .bcast x => ofLanes fun _ => (s.ssrc x).setWidth 32

/-- Writes a private scalar register of a slot; an error in its old value is never found (R335). -/
def Slot.setS (x : Slot) (n : Nat) (v : Word) : Slot :=
  { x with s := x.s.put n v, regErr := x.regErr.filter (· != (false, BitVec.ofNat 5 n)) }
/-- Writes a private vector register of a slot. -/
def Slot.setV (x : Slot) (n : Nat) (v : Vec) : Slot := { x with v := x.v.put n v }
/-- A private vector register has been written whole: an error in its old value is never found (R335). -/
def Slot.soundV (x : Slot) (n : BitVec 5) : Slot := { x with regErr := x.regErr.filter (· != (true, n)) }
/-- Writes a predicate register of a slot. -/
def Slot.setP (x : Slot) (n : Nat) (v : BitVec 16) : Slot := { x with p := x.p.put n v }

/-- Queues a write to a shared register, landing `lat` cycles after the issue cycle (R94). -/
def State.land (s : State) (lat : Nat) (w : Landing) : State :=
  s.modCore s.core fun co =>
    { co with landing := co.landing ++ [{ w with cycle := s.cycle s.core + lat, slot := s.slot, vf := s.bankVf }] }

/-- The slot's own writes that have not landed in cycle `n` (R20). -/
def Slot.pending (x : Slot) (n : Nat) : List Busy := (x.busy ++ x.busyNow).filter fun b => n < b.cycle

/-- The last cycle in which a write of a register lands (R94), or 0. -/
def Slot.landsIn (x : Slot) (r : RegName) : Nat := ((x.busy ++ x.busyNow).filter fun b => b.reg == r).foldl (fun m b => max m b.cycle) 0

/-- Whether every write of a register of slot `k` has landed by now (R94). -/
def State.landedIn (s : State) (c k : Nat) (r : RegName) : Bool := (s.slotOf c k).landsIn r ≤ s.cycle c

/-- The bits of a private register that earlier instructions of the slot still write after the present one's write lands (R94): the present
one lands when its latency says, or in cycle `n` where it has none. -/
def Slot.older (x : Slot) (n : Nat) (r : RegName) : Vec :=
  let lands := ((x.busyNow.find? fun b => b.reg == r).map fun b => b.cycle).getD n
  (x.busy.filter fun b => b.reg == r && lands < b.cycle).foldl (fun v b => v ||| b.bits) 0

/-- The bits of a private register of the issuing slot that land after the present instruction's write (R94). -/
def State.older (s : State) (r : RegName) : Vec := s.cur.older (s.cycle s.core) r

/-- Writes a scalar register with a fixed latency, or 0 for a reply (R94). A private register is written at once: no instruction of the slot reads
it before the write lands (R20), and a write of an earlier instruction that lands later is what remains. -/
def State.putS (s : State) (lat : Nat) (d : Reg) (v : Word) : State :=
  match d with
  | .priv n => if s.older (.s d) = 0 then s.modCur fun x => x.setS n.toNat v else s
  | .shared n => s.land lat { cycle := 0, slot := 0, vf := 0, reg := n, scalar := some v }

/-- The lanes of a 16-bit mask, rising. -/
def lanesOf (m : BitVec 16) : List Nat := bitsOf m.toNat 16

/-- A vector with the lanes of a mask taken from another. -/
def mergeLanes (m : BitVec 16) (old new : Vec) : Vec := ofLanes fun i => if m.getLsbD i then lane new i else lane old i

/-- Writes the lanes of a mask of a vector register with a fixed latency (R94, R122); the bits that an earlier instruction writes later keep
that instruction's value. -/
def State.putV (s : State) (lat : Nat) (d : Reg) (m : BitVec 16) (v : Vec) : State :=
  match d with
  | .priv n =>
    let kept := s.older (.v d)
    s.modCur fun x =>
      let old := (x.v.look n.toNat).getD 0
      let y := x.setV n.toNat ((mergeLanes m old v &&& ~~~ kept) ||| (old &&& kept))
      if m = 0xFFFF then y.soundV n else y
  | .shared n => s.land lat { cycle := 0, slot := 0, vf := 0, reg := n, lanes := (lanesOf m).map fun i => (i, lane v i) }

/-- Writes a predicate register; the bits that an earlier instruction writes later keep that instruction's value (R94). -/
def State.putP (s : State) (d : PReg) (v : BitVec 16) : State :=
  let kept := (s.older (.p d)).setWidth 16
  s.modCur fun x => x.setP d.toNat ((v &&& ~~~ kept) ||| ((x.p.look d.toNat).getD 0 &&& kept))

/-- One landing write takes effect on the banks of its core (R94); a write to DQSPILL is ignored while records are spilled
(R103). -/
def Core.settle1 (co : Core) (w : Landing) : Core :=
  let cv := (co.vfs.look w.vf).getD {}
  let n := w.reg.toNat
  let cv' : CoreVf :=
    match w.scalar with
    | some v =>
      if w.dq then (if cv.spilled.isEmpty then { cv with dqspill := v, dqBad := false, dqTold := false, dqToldRefill := false, dqHead := 0 } else cv)
      else { cv with c := cv.c.put n v, cPoison := cv.cPoison.filter (· != w.reg) }
    | none =>
      let old := (cv.w.look n).getD 0
      let new := w.lanes.foldl (fun (v : Vec) p => ofLanes fun i => if i = p.1 then p.2 else lane v i) old
      { cv with w := cv.w.put n new,
                wPoison := if w.lanes.length = 16 then cv.wPoison.filter (· != w.reg) else cv.wPoison }
  { co with vfs := co.vfs.put w.vf cv' }

/-- Where a write stands among the writes that have landed: by cycle; in one cycle a lower slot's write comes last and so
remains, and of one slot the later issue comes last (R94). -/
def Landing.before (a b : Landing) : Bool := a.cycle < b.cycle || (a.cycle == b.cycle && b.slot < a.slot)

/-- Puts a write into the landing order, behind those that do not come after it. -/
def landInsert (w : Landing) : List Landing → List Landing
  | [] => [w]
  | x :: l => if w.before x then w :: x :: l else x :: landInsert w l

/-- The writes that have landed by a cycle, in landing order. -/
def landed (l : List Landing) (cycle : Nat) : List Landing :=
  (l.filter fun w => w.cycle ≤ cycle).foldl (fun acc w => landInsert w acc) []

/-- All shared-register writes of core `c` that have landed by now take effect (R94). -/
def State.settle (s : State) (c : Nat) : State :=
  s.modCore c fun co =>
    let t := s.cycle c
    let co' := (landed co.landing t).foldl Core.settle1 co
    { co' with landing := co.landing.filter fun w => t < w.cycle }

/-! ## Predication (R61) -/

/-- Whether an instruction acts at all: a whole-instruction XPRED tests bit 0. -/
def State.acts (s : State) : Pred → Bool
  | .always => true
  | .whole p sense => (s.preg p).getLsbD 0 != sense
  | .lanes _ _ => true

/-- The lanes in which an instruction acts. -/
def State.mask (s : State) : Pred → BitVec 16
  | .always => 0xFFFF
  | .whole _ _ => 0xFFFF
  | .lanes p sense => if sense then ~~~ (s.preg p) else s.preg p

/-! ## The program counter (R144, R146) -/

/-- The slot after its instruction has issued and completed: the next address, with the hardware loop's count at LE
(R146 item 3), which IH suspends (R147). -/
def Slot.advance (x : Slot) : Slot :=
  let next := x.pc + BitVec.ofNat 64 x.ilen
  if !x.ih && x.lc != 0 && x.pc == x.le then
    if x.lc = 1 then { x with lc := 0, pc := next } else { x with lc := x.lc - 1, pc := x.ls }
  else { x with pc := next }

/-- The address of the instruction that follows (R144). -/
def Slot.next (x : Slot) : Word := x.pc + BitVec.ofNat 64 x.ilen

/-- The slot after a taken control transfer: a target outside the loop disarms it (R146 item 2). -/
def Slot.jump (x : Slot) (t : Word) : Slot :=
  if !x.ih && x.lc != 0 && (t.toNat < x.ls.toNat || x.le.toNat < t.toNat) then { x with lc := 0, pc := t }
  else { x with pc := t }

/-- The instruction of the issuing slot completes. -/
def State.retire (s : State) : State := s.modCur fun x => { x.advance with status := .run }

/-! ## Turns (R305 to R307) -/

/-- The live turn row (R305), if the Bandstand runs. -/
def State.row (s : State) : Option Row := if s.band.started then s.band.rows[s.band.turn]? else none

/-- VF `v`'s entry of the live row: idle when there is none (R306). -/
def State.rowEntry (s : State) (v : Nat) : RowEntry :=
  match s.row with
  | none => {}
  | some r => (r.vfs.look v).getD {}

/-- The tenant a row runs for VF `v`. -/
def Row.tenantOf (r : Row) (v : Nat) : Option Nat :=
  match r.vfs.look v with
  | none => none
  | some e => if e.idle then none else some e.tenant

/-- The tenant of the current turn. -/
def State.tenantNow (s : State) (v : Nat) : Option Nat := s.row.bind fun r => r.tenantOf v

/-- Where VF `v` stands at an edge. -/
def State.phase (s : State) (v : Nat) : EdgePhase := (s.band.edge.look v).getD .running

/-- Whether the tenant that VF `v`'s row names is scheduled: outside the edge that stops it (R27, R307). -/
def State.vfRuns (s : State) (v : Nat) : Bool := !(s.rowEntry v).idle && s.phase v != .stopped

/-! ## Outcomes -/

/-- A step's outcomes. -/
abbrev Out := Host.Outcome State Fault Refusal

/-- An instruction under a whole-instruction XPRED: when the condition fails it only issues (R61). -/
def guarded (g : Pred) (s : State) (x : Out) : Out := if s.acts g then x else .next s.retire

end Sys2Proof.Machine
end

