-- ==== Sys2Proof/Machine/Float.lean ====
section
/-! DEFINITION. Floating-point numbers as exact dyadic values, one rounding into an IEEE-style format, and the vector FP32 operations
with their flags (R71, R72, R82 to R86, R128 to R133). -/

namespace Sys2Proof.Machine

/-- An IEEE-style format: exponent bits, fraction bits, bias (R71). -/
structure Fmt where
  ebits : Nat
  fbits : Nat
  bias : Nat

/-- FP32. -/
def fp32 : Fmt := ⟨8, 23, 127⟩
/-- FP16. -/
def fp16 : Fmt := ⟨5, 10, 15⟩
/-- BF16. -/
def bf16 : Fmt := ⟨8, 7, 127⟩
/-- e8m10. -/
def e8m10 : Fmt := ⟨8, 10, 127⟩

/-- A number: a NaN, signalling or not; an infinity; or (-1)^neg * m * 2^e. -/
inductive FNum where
  | nan (signalling : Bool)
  | inf (neg : Bool)
  | fin (neg : Bool) (m : Nat) (e : Int)
  deriving DecidableEq, Repr

/-- The flags NV, DZ, OF, UF, NX in bits 4 to 0 (R99). -/
abbrev FFlags := BitVec 5

/-- Invalid. -/
def flagNV : FFlags := 0x10
/-- Division by zero. -/
def flagDZ : FFlags := 0x08
/-- Overflow. -/
def flagOF : FFlags := 0x04
/-- Underflow. -/
def flagUF : FFlags := 0x02
/-- Inexact. -/
def flagNX : FFlags := 0x01

/-- A flag where a condition holds. -/
def flagIf (b : Bool) (f : FFlags) : FFlags := if b then f else 0

/-- The number of a code of an IEEE-style format (R71). -/
def Fmt.read (f : Fmt) (code : Nat) : FNum :=
  let neg := code.testBit (f.ebits + f.fbits)
  let ex := code / 2 ^ f.fbits % 2 ^ f.ebits
  let fr := code % 2 ^ f.fbits
  if ex = 2 ^ f.ebits - 1 then (if fr = 0 then .inf neg else .nan (!fr.testBit (f.fbits - 1)))
  else if ex = 0 then .fin neg fr (1 - (f.bias : Int) - f.fbits)
  else .fin neg (2 ^ f.fbits + fr) ((ex : Int) - f.bias - f.fbits)

/-- The number of an FP32 lane. -/
def readLane (x : Lane) : FNum := fp32.read x.toNat

/-- The sign bit of a format. -/
def Fmt.signBit (f : Fmt) (neg : Bool) : Nat := if neg then 2 ^ (f.ebits + f.fbits) else 0
/-- The code of an infinity. -/
def Fmt.infCode (f : Fmt) (neg : Bool) : Nat := f.signBit neg + (2 ^ f.ebits - 1) * 2 ^ f.fbits
/-- The canonical NaN of a format (R72, R82, R85). -/
def Fmt.nanCode (f : Fmt) : Nat := (2 ^ f.ebits - 1) * 2 ^ f.fbits + 2 ^ (f.fbits - 1)

/-- `m * 2^e` as a whole number of units 2^q, and what is left over: none, below half, half, above half (0 to 3). -/
def quantise (m : Nat) (e q : Int) : Nat × Nat :=
  if q ≤ e then (m * 2 ^ (e - q).toNat, 0)
  else
    let k := (q - e).toNat
    let r := m % 2 ^ k
    (m / 2 ^ k, if r = 0 then 0 else if 2 * r < 2 ^ k then 1 else if 2 * r = 2 ^ k then 2 else 3)

/-- Whether a magnitude rounds up in a mode, from its last digit and what is left over (R82). -/
def roundsUp (mode : Rnd) (neg : Bool) (digit rest : Nat) : Bool :=
  match mode with
  | .rne => rest == 3 || (rest == 2 && digit % 2 == 1)
  | .rtz => false
  | .rup => !neg && rest != 0
  | .rdn => neg && rest != 0

/-- A magnitude rounded to units 2^q. -/
def roundUnits (mode : Rnd) (neg : Bool) (m : Nat) (e q : Int) : Nat × Bool :=
  let (d, r) := quantise m e q
  (if roundsUp mode neg d r then d + 1 else d, r != 0)

/-- Round(x, fmt, mode) of the exact value (-1)^neg * m * 2^e, with the flags OF, UF and NX (R82, R83): the code. -/
def Fmt.round (f : Fmt) (mode : Rnd) (neg : Bool) (m : Nat) (e : Int) : Nat × FFlags :=
  if m = 0 then (f.signBit neg, 0)
  else
    let top : Int := (Nat.log2 m : Int) + e
    let emin : Int := 1 - (f.bias : Int)
    let q := max top emin - f.fbits
    let (d, nx) := roundUnits mode neg m e q
    let (d, q) := if 2 ^ (f.fbits + 1) ≤ d then (d / 2, q + 1) else (d, q)
    if (f.bias : Int) < q + f.fbits && 2 ^ f.fbits ≤ d then
      let away := match mode with
        | .rne => true
        | .rtz => false
        | .rup => !neg
        | .rdn => neg
      (if away then f.infCode neg else f.infCode neg - 1, flagOF ||| flagNX)
    else
      let carried := top + 1 = emin && 2 ^ (f.fbits + 1) ≤ (roundUnits mode neg m e (top - f.fbits)).1
      let tiny := decide (top < emin) && !carried
      (f.signBit neg + d + (q - (emin - f.fbits)).toNat * 2 ^ f.fbits, flagIf nx flagNX ||| flagIf (tiny && nx) flagUF)

/-- A number rounded into a format; a NaN gives the canonical one. -/
def Fmt.write (f : Fmt) (mode : Rnd) : FNum → Nat × FFlags
  | .nan _ => (f.nanCode, 0)
  | .inf neg => (f.infCode neg, 0)
  | .fin neg m e => f.round mode neg m e

/-- A rounded FP32 lane. -/
def roundLane (mode : Rnd) (x : FNum) : Lane × FFlags :=
  let r := fp32.write mode x
  (BitVec.ofNat 32 r.1, r.2)

/-- The canonical NaN of FP32. -/
def nanLane : Lane := 0x7FC00000

/-- NV of a signalling operand (R83). -/
def FNum.snan : FNum → FFlags
  | .nan true => flagNV
  | _ => 0

/-- Whether a number is a NaN. -/
def FNum.isNan : FNum → Bool
  | .nan _ => true
  | _ => false

/-- The negation of a number. -/
def FNum.neg : FNum → FNum
  | .nan q => .nan q
  | .inf n => .inf (!n)
  | .fin n m e => .fin (!n) m e

/-- The exact sum of two finite numbers, with the sign of an exact zero (R82). -/
def addFin (mode : Rnd) (n1 : Bool) (m1 : Nat) (e1 : Int) (n2 : Bool) (m2 : Nat) (e2 : Int) : FNum :=
  let e := min e1 e2
  let a : Int := (if n1 then -1 else 1) * (m1 * 2 ^ (e1 - e).toNat : Nat)
  let b : Int := (if n2 then -1 else 1) * (m2 * 2 ^ (e2 - e).toNat : Nat)
  let t := a + b
  if t = 0 then .fin (if n1 == n2 then n1 else mode == .rdn) 0 0
  else .fin (decide (t < 0)) t.natAbs e

/-- A sum before rounding: NV for infinities of opposite sign (R83). Signalling operands are the caller's. -/
def addNum (mode : Rnd) (x y : FNum) : FNum × FFlags :=
  match x, y with
  | .nan _, _ => (.nan false, 0)
  | _, .nan _ => (.nan false, 0)
  | .inf a, .inf b => if a == b then (.inf a, 0) else (.nan false, flagNV)
  | .inf a, .fin _ _ _ => (.inf a, 0)
  | .fin _ _ _, .inf b => (.inf b, 0)
  | .fin a m e, .fin b k f => (addFin mode a m e b k f, 0)

/-- A product, exact: NV for infinity times zero (R83). -/
def mulNum (x y : FNum) : FNum × FFlags :=
  match x, y with
  | .nan _, _ => (.nan false, 0)
  | _, .nan _ => (.nan false, 0)
  | .inf a, .inf b => (.inf (a != b), 0)
  | .inf a, .fin b m _ => if m = 0 then (.nan false, flagNV) else (.inf (a != b), 0)
  | .fin a m _, .inf b => if m = 0 then (.nan false, flagNV) else (.inf (a != b), 0)
  | .fin a m e, .fin b k f => (.fin (a != b) (m * k) (e + f), 0)

/-- VFADD (R128). -/
def fadd (mode : Rnd) (a b : Lane) : Lane × FFlags :=
  let x := readLane a
  let y := readLane b
  let (r, f) := addNum mode x y
  let (v, g) := roundLane mode r
  (v, x.snan ||| y.snan ||| f ||| g)

/-- VFSUB (R128). -/
def fsub (mode : Rnd) (a b : Lane) : Lane × FFlags :=
  let x := readLane a
  let y := readLane b
  let (r, f) := addNum mode x y.neg
  let (v, g) := roundLane mode r
  (v, x.snan ||| y.snan ||| f ||| g)

/-- VFMUL (R128). -/
def fmul (mode : Rnd) (a b : Lane) : Lane × FFlags :=
  let x := readLane a
  let y := readLane b
  let (r, f) := mulNum x y
  let (v, g) := roundLane mode r
  (v, x.snan ||| y.snan ||| f ||| g)

/-- The fused forms (R128): the product, negated or not, plus the addend, negated or not, rounded once. -/
def ffma (mode : Rnd) (negProd negAdd : Bool) (a b d : Lane) : Lane × FFlags :=
  let x := readLane a
  let y := readLane b
  let z := readLane d
  let (p, f) := mulNum x y
  let p := if negProd then p.neg else p
  let (r, g) := addNum mode p (if negAdd then z.neg else z)
  let (v, h) := roundLane mode r
  (v, x.snan ||| y.snan ||| z.snan ||| f ||| g ||| h)

/-- A quotient with enough digits, the last one sticky, for one correct rounding. -/
def quotient (neg : Bool) (m : Nat) (e : Int) (k : Nat) (f : Int) : FNum :=
  let sh := 64 + Nat.log2 k
  let n := m * 2 ^ sh
  .fin neg (2 * (n / k) + (if n % k = 0 then 0 else 1)) (e - f - sh - 1)

/-- VFDIV (R129). -/
def fdiv (mode : Rnd) (a b : Lane) : Lane × FFlags :=
  let x := readLane a
  let y := readLane b
  let fl := x.snan ||| y.snan
  match x, y with
  | .nan _, _ => (nanLane, fl)
  | _, .nan _ => (nanLane, fl)
  | .inf _, .inf _ => (nanLane, flagNV)
  | .inf n, .fin k _ _ => (BitVec.ofNat 32 (fp32.infCode (n != k)), 0)
  | .fin n _ _, .inf k => (BitVec.ofNat 32 (fp32.signBit (n != k)), 0)
  | .fin n m e, .fin k l f =>
    if l = 0 then (if m = 0 then (nanLane, flagNV) else (BitVec.ofNat 32 (fp32.infCode (n != k)), flagDZ))
    else roundLane mode (quotient (n != k) m e l f)

/-- The digits of a square root, from bit `b - 1` down. -/
def isqrtFrom (n : Nat) : Nat → Nat → Nat
  | 0, acc => acc
  | b + 1, acc => if (acc + 2 ^ b) * (acc + 2 ^ b) ≤ n then isqrtFrom n b (acc + 2 ^ b) else isqrtFrom n b acc

/-- The integer square root. -/
def isqrt (n : Nat) : Nat := isqrtFrom n (Nat.log2 n / 2 + 1) 0

/-- A square root with enough digits, the last one sticky, for one correct rounding. -/
def root (m : Nat) (e : Int) : FNum :=
  let (m, e) := if e % 2 = 0 then (m, e) else (2 * m, e - 1)
  let n := m * 2 ^ 80
  let r := isqrt n
  .fin false (2 * r + (if r * r = n then 0 else 1)) (e / 2 - 41)

/-- VFSQRT (R129). -/
def fsqrt (mode : Rnd) (b : Lane) : Lane × FFlags :=
  match readLane b with
  | .nan q => (nanLane, (FNum.nan q).snan)
  | .inf n => if n then (nanLane, flagNV) else (b, 0)
  | .fin n m e => if m = 0 then (b, 0) else if n then (nanLane, flagNV) else roundLane mode (root m e)

/-- The order of VFMIN and VFMAX over numbers that are not NaNs, with -0 below +0 (R129). -/
def orderKey (b : Lane) : Int := if b.getLsbD 31 then -(b.toNat % 2 ^ 31 : Nat) - 1 else (b.toNat : Int)

/-- VFMIN and VFMAX (R129). -/
def fpick (greater : Bool) (a b : Lane) : Lane × FFlags :=
  let x := readLane a
  let y := readLane b
  let fl := x.snan ||| y.snan
  if x.isNan then (if y.isNan then nanLane else b, fl)
  else if y.isNan then (a, fl)
  else (if (orderKey a < orderKey b) == greater then b else a, fl)

/-- VFABS and VFNEG (R129). -/
def fsign (b : Lane) (v : Lane) : Lane × FFlags :=
  match readLane b with
  | .nan q => (nanLane, (FNum.nan q).snan)
  | _ => (v, 0)

/-- VFSCALE, and VSCALE below 0xFF (R129, R140): a lane times a power of two. Beyond 2^600 either way the rounded result no longer
depends on the exponent. -/
def fscale (mode : Rnd) (a : Lane) (n : Int) : Lane × FFlags :=
  match readLane a with
  | .nan q => (nanLane, (FNum.nan q).snan)
  | .inf _ => (a, 0)
  | .fin s m e => if m = 0 then (a, 0) else roundLane mode (.fin s m (e + max (-600) (min 600 n)))

/-- A comparison of two numbers: whether they are ordered, equal, less (R131). -/
def fcompare (a b : Lane) : Bool × Bool × Bool :=
  let x := readLane a
  let y := readLane b
  if x.isNan || y.isNan then (false, false, false)
  else
    let zero (v : Lane) : Bool := v.toNat % 2 ^ 31 == 0
    let eq := a == b || (zero a && zero b)
    (true, eq, !eq && decide (orderKey a < orderKey b))

/-- NV of a compare (R131): for any NaN, or for a signalling one. -/
def fcmpFlags (any : Bool) (a b : Lane) : FFlags :=
  let x := readLane a
  let y := readLane b
  if any then flagIf (x.isNan || y.isNan) flagNV else x.snan ||| y.snan

/-- VFCLASS (R131). -/
def fclass (b : Lane) : Lane :=
  match readLane b with
  | .inf true => 0x001
  | .inf false => 0x080
  | .nan true => 0x100
  | .nan false => 0x200
  | .fin n m _ =>
    if m = 0 then (if n then 0x008 else 0x010)
    else if m < 2 ^ 23 then (if n then 0x004 else 0x020)
    else if n then 0x002 else 0x040

/-! ## Approximations (R130) -/

/-- A result within one unit in the last place: one of the two neighbours of the exact value, or an infinity at 2^128 and beyond. -/
def nearLane (away : Bool) (x : FNum) : Lane × FFlags :=
  match x with
  | .fin n m e => roundLane (if 128 ≤ (Nat.log2 m : Int) + e then .rne else if away then (if n then .rdn else .rup) else .rtz) x
  | _ => roundLane .rne x

/-- VFRCP. -/
def frcp (b : Lane) : Lane × FFlags :=
  match readLane b with
  | .nan q => (nanLane, (FNum.nan q).snan)
  | .inf n => (BitVec.ofNat 32 (fp32.signBit n), 0)
  | .fin n m e =>
    if m = 0 then (BitVec.ofNat 32 (fp32.infCode n), flagDZ) else nearLane (Config.rcpAway b) (quotient n 1 0 m e)

/-- VFRSQ. -/
def frsq (b : Lane) : Lane × FFlags :=
  match readLane b with
  | .nan q => (nanLane, (FNum.nan q).snan)
  | .inf n => if n then (nanLane, flagNV) else (0, 0)
  | .fin n m e =>
    if m = 0 then (BitVec.ofNat 32 (fp32.infCode n), flagDZ)
    else if n then (nanLane, flagNV)
    else
      let (m, e) := if e % 2 = 0 then (m, e) else (2 * m, e - 1)
      let k := 2 ^ (2 * (64 + Nat.log2 m)) / m
      let exact := k * m = 2 ^ (2 * (64 + Nat.log2 m))
      let r := isqrt k
      let sticky := if exact && r * r = k then 0 else 1
      nearLane (Config.rsqAway b) (.fin false (2 * r + sticky) (-(e / 2) - 65 - Nat.log2 m))

/-- Whether a number is an integer, and which. -/
def wholeOf (neg : Bool) (m : Nat) (e : Int) : Option Int :=
  let (d, r) := quantise m e 0
  if r = 0 then some (if neg then -(d : Int) else d) else none

/-- The flags of an approximation whose exact value is not zero and not its result: NX, and UF where the result is below the least
normal number, zero included (R83, R130). -/
def nearFlags (v : Lane) : FFlags := flagNX ||| flagIf (decide (v.toNat % 2 ^ 31 < 2 ^ 23)) flagUF

/-- The exponent of one unit in the last place of `m * 2^e`. -/
def ulpExp (m : Nat) (e : Int) : Int := max ((Nat.log2 m : Int) + e) (-126) - 23

/-- A free lane, where it is a number no further than `k * 2^q` from every value whose magnitude lies from `lo * 2^e` to `hi * 2^e`, and otherwise the
nearer end rounded toward zero (R130). -/
def limited (free : Lane) (neg : Bool) (lo hi : Nat) (e : Int) (k : Nat) (q : Int) : Lane :=
  let near : Bool := match readLane free with
    | .fin b n f =>
      let u := min (min e f) q
      let y : Int := (if b then -1 else 1) * ((n * 2 ^ (f - u).toNat : Nat) : Int)
      [lo, hi].all fun m =>
        decide (((if neg then -1 else 1) * ((m * 2 ^ (e - u).toNat : Nat) : Int) - y).natAbs ≤ k * 2 ^ (q - u).toNat)
    | _ => false
  if near then free else (roundLane .rtz (.fin neg lo e)).1

/-- The series of e^y from its term `k`, in units of 2^-p. -/
def expSeries (p y : Nat) : Nat → Nat → Nat → Nat
  | 0, _, _ => 0
  | fuel + 1, k, term => term + expSeries p y fuel (k + 1) (term * y / 2 ^ p / (k + 1))

/-- The natural logarithm of 2 in units of 2^-100. -/
def ln2 : Nat := 878668439483319573618263538048

/-- 2 to a number: it lies from `lo * 2^e`, where every division rounds down, to `hi * 2^e`. -/
def exp2Near (neg : Bool) (m : Nat) (e : Int) : Nat × Nat × Int :=
  let d := quantise m e (-100)
  let x : Int := if neg then -((d.1 : Int) + if d.2 = 0 then 0 else 1) else d.1
  let lo := expSeries 100 ((x % 2 ^ 100).toNat * ln2 / 2 ^ 100) 40 0 (2 ^ 100)
  (lo, lo + 2 ^ 10, x / 2 ^ 100 - 100)

/-- The binary digits of the logarithm to base 2 of `z * 2^-160`, which is 1 or more and below 2. -/
def log2Digits : Nat → Nat → Nat → Nat
  | 0, _, acc => acc
  | n + 1, z, acc =>
    let w := z * z / 2 ^ 160
    if 2 ^ 161 ≤ w then log2Digits n (w / 2) (2 * acc + 1) else log2Digits n w (2 * acc)

/-- The logarithm to base 2 of `m * 2^e`: it lies from this number to two more, in units of 2^-80. -/
def log2Near (m : Nat) (e : Int) : Int :=
  ((Nat.log2 m : Int) + e) * 2 ^ 80 + (log2Digits 80 (m * 2 ^ 160 / 2 ^ Nat.log2 m) 0 : Nat)

/-- The hyperbolic tangent of `m * 2^e`, below 10: it lies from `lo * 2^e` to `hi * 2^e`. Below 2^-12 it is x - x^3/3 with less than x^5 more. -/
def tanhNear (m : Nat) (e : Int) : Nat × Nat × Int :=
  if (quantise m e (-12)).1 = 0 then
    let r := 2 ^ 60 - m * m * 2 ^ 60 / (3 * 2 ^ (-2 * e).toNat)
    (m * (r - 1), m * (r + 2 ^ 10), e - 60)
  else
    let x := expSeries 120 (quantise (2 * m) e (-120)).1 120 0 (2 ^ 120)
    let lo := (x - 2 ^ 120) * 2 ^ 100 / (x + 2 ^ 120)
    (lo, lo + 2 ^ 10, -100)

/-- VFEXP2. -/
def fexp2 (b : Lane) : Lane × FFlags :=
  match readLane b with
  | .nan q => (nanLane, (FNum.nan q).snan)
  | .inf n => if n then (0, 0) else (b, 0)
  | .fin n m e =>
    match wholeOf n m e with
    | some k =>
      if 128 ≤ k then (BitVec.ofNat 32 (fp32.infCode false), flagOF ||| flagNX)
      else if -149 ≤ k then roundLane .rne (.fin false 1 k)
      else if k < -150 then (0, flagUF ||| flagNX)
      else
        let v := limited (Config.exp2 b) false 1 1 k 2 (-149)
        (v, nearFlags v)
    | none =>
      let below : Int := -((quantise m e 0).1 : Int)
      if !n && 128 ≤ (quantise m e 0).1 then (BitVec.ofNat 32 (fp32.infCode false), flagOF ||| flagNX)
      else if n && below ≤ -150 then (0, flagUF ||| flagNX)
      else
        let (lo, hi, q) := exp2Near n m e
        let v := limited (Config.exp2 b) false lo hi q 2 (ulpExp lo q)
        (v, nearFlags v)

/-- VFLOG2. -/
def flog2 (b : Lane) : Lane × FFlags :=
  match readLane b with
  | .nan q => (nanLane, (FNum.nan q).snan)
  | .inf n => if n then (nanLane, flagNV) else (b, 0)
  | .fin n m e =>
    if m = 0 then (BitVec.ofNat 32 (fp32.infCode true), flagDZ)
    else if n then (nanLane, flagNV)
    else if m = 2 ^ Nat.log2 m then
      let k : Int := e + Nat.log2 m
      roundLane .rne (.fin (decide (k < 0)) k.natAbs 0)
    else
      let r := log2Near m e
      let (lo, hi) := if r < 0 then ((r + 2).natAbs, r.natAbs) else (r.natAbs, (r + 2).natAbs)
      let top := (Nat.log2 m : Int) + e
      let v :=
        if top = -1 || top = 0 then limited (Config.log2 b) (decide (r < 0)) lo hi (-80) 1 (-21)
        else limited (Config.log2 b) (decide (r < 0)) lo hi (-80) 2 (ulpExp lo (-80))
      (v, nearFlags v)

/-- VFTANH: odd to the bit. -/
def ftanh (b : Lane) : Lane × FFlags :=
  match readLane b with
  | .nan q => (nanLane, (FNum.nan q).snan)
  | .inf n => (BitVec.ofNat 32 (fp32.signBit n + 0x3F800000), 0)
  | .fin n m e =>
    if m = 0 then (b, 0)
    else if 10 ≤ (quantise m e 0).1 then (BitVec.ofNat 32 (fp32.signBit n + 0x3F800000), flagNX)
    else
      let (lo, hi, q) := tanhNear m e
      let v := limited (Config.tanh (BitVec.ofNat 32 (b.toNat % 2 ^ 31))) false lo hi q 2 (ulpExp lo q)
      (if n then v ^^^ 0x80000000 else v, nearFlags v)

/-! ## Dot products and conversions (R85, R86, R133, R135) -/

/-- Adds a number to an exact sum, or says that the sum has no value. -/
def dotAdd (mode : Rnd) (acc : FNum × FFlags) (p : FNum × FFlags) : FNum × FFlags :=
  let (r, f) := addNum mode acc.1 p.1
  (r, acc.2 ||| p.2 ||| f)

/-- Whether infinities of both signs are among some numbers (R133). -/
def bothInfs (l : List FNum) : Bool := l.contains (.inf false) && l.contains (.inf true)

/-- VFDOT2 (R133). -/
def fdot2 (mode : Rnd) (bf : Bool) (a b d : Lane) : Lane × FFlags :=
  let f := if bf then bf16 else fp16
  let lo (x : Lane) : FNum := f.read (x.toNat % 2 ^ 16)
  let hi (x : Lane) : FNum := f.read (x.toNat / 2 ^ 16)
  let z := readLane d
  let fl := (lo a).snan ||| (hi a).snan ||| (lo b).snan ||| (hi b).snan ||| z.snan
  let p := mulNum (lo a) (lo b)
  let q := mulNum (hi a) (hi b)
  if (lo a).isNan || (hi a).isNan || (lo b).isNan || (hi b).isNan || z.isNan then
    (nanLane, fl ||| p.2 ||| q.2 ||| flagIf (bothInfs [p.1, q.1, z]) flagNV)
  else
    let pq := dotAdd mode p q
    let r := dotAdd mode pq (z, 0)
    let r : FNum × FFlags := match r.1 with
      | .fin _ 0 e =>
        let signs := [p.1, q.1, z].map fun x => match x with
          | .fin s 0 _ => some s
          | _ => none
        (.fin (if signs.all (· == some true) then true
               else if signs.all (· == some false) then false
               else mode == .rdn) 0 e, r.2)
      | _ => r
    let (v, g) := roundLane mode r.1
    (v, fl ||| r.2 ||| g)

/-- FP32 to INT32 (R86). -/
def cvtInt (mode : Rnd) (b : Lane) : Lane × FFlags :=
  match readLane b with
  | .nan _ => (0, flagNV)
  | .inf n => (if n then 0x80000000 else 0x7FFFFFFF, flagNV)
  | .fin n m e =>
    let (d, nx) := roundUnits mode n m e 0
    if n then (if 2 ^ 31 < d then (0x80000000, flagNV) else (BitVec.ofInt 32 (-(d : Int)), flagIf nx flagNX))
    else if 2 ^ 31 - 1 < d then (0x7FFFFFFF, flagNV)
    else (BitVec.ofNat 32 d, flagIf nx flagNX)

/-- INT32 to FP32 (R86). -/
def intCvt (mode : Rnd) (b : Lane) : Lane × FFlags :=
  roundLane mode (.fin (decide (b.toInt < 0)) b.toInt.natAbs 0)

/-- FP32 to FP16 or BF16 (R85). -/
def cvtHalf (f : Fmt) (mode : Rnd) (b : Lane) : BitVec 16 × FFlags :=
  let x := readLane b
  let r := f.write mode x
  (BitVec.ofNat 16 r.1, x.snan ||| r.2)

/-- FP16 or BF16 to FP32, exact (R72); a NaN gives the canonical one. -/
def halfCvt (f : Fmt) (h : BitVec 16) : Lane := (roundLane .rne (f.read h.toNat)).1

end Sys2Proof.Machine
end

