-- ==== Sys2Proof/Machine/Translate.lean ====
section
/-! DEFINITION. The physical address map, the windows, the two-stage walk, the translation caches and the checks of an access
(R157 to R171, R174). -/

namespace Sys2Proof.Machine

/-- The range of R158 a physical address lies in. -/
inductive PhysRange where
  | near (die : Nat) | spad (cluster : Nat) | loc (core : Nat) | far (die : Nat) | device | unmapped
  deriving DecidableEq, Repr

/-- The physical address map (R158). -/
def rangeOf (pa : Nat) : PhysRange :=
  if pa < 0x1000000000 then
    (if pa % 0x400000000 < 0x300000000 then .near (pa / 0x400000000) else .unmapped)
  else if pa < 0x1400000000 then
    (if (pa - 0x1000000000) % 0x100000000 < 0x30000000 then
      .spad (96 * ((pa - 0x1000000000) / 0x100000000) + (pa - 0x1000000000) % 0x100000000 / 0x800000)
    else .unmapped)
  else if 0x2000000000 ≤ pa && pa < 0x2040000000 then
    (if validCore ((pa - 0x2000000000) / 0x20000) then .loc ((pa - 0x2000000000) / 0x20000) else .unmapped)
  else if 0x10000000000 ≤ pa && pa < 0x30000000000 then
    (if (pa - 0x10000000000) % 0x8000000000 < 0x6000000000 then .far ((pa - 0x10000000000) / 0x8000000000) else .unmapped)
  else if 0x8000000000000 ≤ pa && pa < 0x10000000000000 then .device
  else .unmapped

/-- The physical alias of core `n`'s local memory (R158). -/
def localBase (n : Nat) : Nat := 0x2000000000 + n * 0x20000

/-- The physical alias of cluster `c`'s scratchpad; clusters are numbered 96d + 12cy + cx (R158, R330). -/
def spadBase (c : Nat) : Nat := 0x1000000000 + (c / 96) * 0x100000000 + (c % 96) * 0x800000

/-- The die at which a physical address is homed, 4 for the I/O die and the host (R178). -/
def homeDie (pa : Nat) : Nat :=
  match rangeOf pa with
  | .near d => d
  | .far d => d
  | .spad c => c / 96
  | .loc c => dieOf c
  | _ => 4

/-- The home that keeps a word's deferred entries: a core, a cluster, or a near-memory controller (R204). -/
def homeId (pa : Nat) : Nat :=
  match rangeOf pa with
  | .near d => d * 16 + (pa % 0x400000000) / 256 % 16
  | .spad c => 0x1000 + c
  | .loc c => 0x2000 + c
  | _ => 0x5000

/-- The vertical bus of its die that serves a physical address: consecutive granules of 256 bytes of near memory on consecutive buses (R158, R175). -/
def busOf (pa : Nat) : Nat :=
  match rangeOf pa with
  | .near _ => pa % 0x400000000 / 256 % Config.nearBuses
  | _ => Config.spadBus (pa / 256)

/-- Memory whose words carry full/empty bits (R157). -/
def hasFE (pa : Nat) : Bool :=
  match rangeOf pa with
  | .near _ | .spad _ | .loc _ => true
  | _ => false

/-! ## Events counted for a VF on a core (R322) -/

/-- Counts event `code` of R322 in each PCj of VF `v` on core `c` whose PCSEL selects it, while its tenant is scheduled. -/
def State.count (s : State) (c v code : Nat) : State :=
  if 8 ≤ v || code = 0 || !s.vfRuns v then s
  else
    ((List.range 8).filter fun j => field (s.vfReg v (0x300 + 8 * j)) 5 0 = code).foldl
      (fun s j => s.modVf c v fun cv => { cv with pcnt := cv.pcnt.put j ((cv.pcnt.look j).getD 0 + 1) }) s

/-! ## The L2 (R163) -/

/-- The L2 ways that VF `v` uses in a turn row (R163, R305); the physical function has its own. -/
def Row.l2Mask (r : Row) (v : Nat) : Nat :=
  if v < 8 then (let e := (r.vfs.look v).getD {}; if e.idle then 0 else e.l2w.toNat) else r.pfl2.toNat

/-- The L2 ways VF `v` may use now (R163, R305). -/
def State.l2Ways (s : State) (v : Nat) : Nat := (s.row.map fun r => r.l2Mask v).getD 0

/-- The way of a mask of `n` ways that a line takes, by a free number (log 11). -/
def wayIn (mask n pick : Nat) : Nat := ((bitsOf mask n)[pick % (bitsOf mask n).length]?).getD 0

/-- Whether two lines fall in one set of a cache (log 11). -/
def sameSet (set : Nat → Nat) (a b : Nat) : Bool := set a % Config.cacheSets == set b % Config.cacheSets

/-- The die whose L2 takes a line into a way, in place of the line of its set that stands there, which is written back (R163). -/
def Die.l2Fill (d : Die) (way line : Nat) (dirty : Bool) : Die :=
  let kept : SMap (Nat × Bool) := d.l2.filter fun p => !(p.2.1 == way && sameSet Config.l2Set p.1 line)
  { d with l2 := kept.put line (way, dirty) }

/-- An access of VF `v` to a physical address of far memory passes its home die's L2, in the VF's ways: a hit, or a miss that allocates the line;
a VF without ways is not cached, and lines in other ways are invisible to it (R163). With it goes the event of R322 that it is. -/
def State.l2Pass (s : State) (v pa : Nat) (write : Bool) : State × Nat :=
  match rangeOf pa with
  | .far d =>
    let line := pa / 64 * 64
    let mask := s.l2Ways v
    let hit := match (s.die d).l2.look line with
      | some (w, dirty) => if mask.testBit w then some (w, dirty) else none
      | none => none
    if mask = 0 then (s, 0)
    else
      match hit with
      | some (w, dirty) => (s.modDie d fun x => { x with l2 := x.l2.put line (w, dirty || write) }, 10)
      | none =>
        ({ s.modDie d fun x => x.l2Fill (wayIn mask 32 (Config.cacheWay s.fresh)) line write with fresh := s.fresh + 1 }, 11)
  | _ => (s, 0)

/-- An access that no slot causes passes the L2 (R163). -/
def State.l2Touch (s : State) (v pa : Nat) (write : Bool) : State := (s.l2Pass v pa write).1

/-- An access that a slot of core `c` causes passes the L2, and R322 counts it there. -/
def State.l2Access (s : State) (c v pa : Nat) (write : Bool) : State :=
  let r := s.l2Pass v pa write
  r.1.count c v r.2

/-! ## Walks (R166 to R168) -/

/-- A leaf: the page's address and size in address bits, and its fields. -/
structure Leaf where
  page : Nat
  bits : Nat
  entry : Word
  deriving DecidableEq, Repr

/-- The address field of a page table entry (R166). -/
def pteAddr (e : Word) : Nat := field e 47 8 * 4096

/-- Whether the entries of a group are alike except for addresses that rise by `step` pages (R167). -/
def groupOk (read : Nat → Option Word) (table first n step : Nat) : Bool :=
  match read (table + 8 * first) with
  | none => false
  | some e0 =>
    pteAddr e0 % (n * step * 4096) = 0 &&
      (List.range n).all fun j => read (table + 8 * (first + j)) == some (e0 + BitVec.ofNat 64 (j * step * 256))

/-- A leaf entry at a level (R167). -/
def leafOf (read : Nat → Option Word) (stage1 : Bool) (table va level : Nat) (e : Word) : Option Leaf :=
  let ix := va / 2 ^ (12 + 9 * level) % 512
  if !stage1 && field e 63 48 ≠ 0 then none
  else
    match level with
    | 0 =>
      if bit e 6 then
        (if groupOk read table (ix / 16 * 16) 16 1 then some ⟨pteAddr e - ix % 16 * 4096, 16, e⟩ else none)
      else some ⟨pteAddr e, 12, e⟩
    | 1 =>
      if pteAddr e % 0x200000 ≠ 0 then none
      else if bit e 6 then
        (if groupOk read table (ix / 32 * 32) 32 512 then some ⟨pteAddr e - ix % 32 * 0x200000, 26, e⟩ else none)
      else some ⟨pteAddr e, 21, e⟩
    | 2 => if pteAddr e % 0x40000000 ≠ 0 || bit e 6 then none else some ⟨pteAddr e, 30, e⟩
    | _ => none

/-- A walk from a level down (R167). -/
def walkFrom (read : Nat → Option Word) (stage1 : Bool) (va : Nat) : Nat → Nat → Option Leaf
  | 0, table =>
    match read (table + 8 * (va / 4096 % 512)) with
    | none => none
    | some e => if field e 2 0 < 2 || 5 < field e 2 0 then none else leafOf read stage1 table va 0 e
  | l + 1, table =>
    match read (table + 8 * (va / 2 ^ (12 + 9 * (l + 1)) % 512)) with
    | none => none
    | some e =>
      if field e 2 0 = 1 then
        (if field e 63 48 ≠ 0 || field e 7 3 ≠ 0 then none else walkFrom read stage1 va l (pteAddr e))
      else if field e 2 0 < 2 || 5 < field e 2 0 then none
      else leafOf read stage1 table va (l + 1) e

/-- The second stage: an intermediate address of VF `v` (R168). Log 3: the root is held by VF. -/
def State.stage2 (s : State) (v ia : Nat) : Option Leaf :=
  match s.root2.look v with
  | none => none
  | some root => walkFrom (fun a => some (s.mem.word a)) false ia 4 root

/-- Whether a physical page lies in a range of its memory type (R168). -/
def kindFits (k : MemKind) (pa : Nat) : Bool :=
  match k, rangeOf pa with
  | .near, .near _ => true
  | .ts, .near _ => true
  | .far, .far _ => true
  | .device, .device => true
  | _, _ => false

/-- A word at an intermediate address: how the walker reads first-stage tables (R168). A page in an alias or an unmapped range fails the walk, and
so does one that is no near or far memory; a poisoned table word, or one of a page poisoned on read, is taken as it stands (log 3). -/
def State.readIA (s : State) (v ia : Nat) : Option Word :=
  match s.stage2 v ia with
  | none => none
  | some l =>
    let pa := l.page + ia % 2 ^ l.bits
    if (field l.entry 2 0 = 2 && kindFits .near pa) || (field l.entry 2 0 = 3 && kindFits .far pa) then some (s.mem.word pa) else none

/-- The memory type of a pair of leaf kinds (R168). -/
def pairKind (k1 k2 : Nat) : Option MemKind :=
  match k1, k2 with
  | 2, 2 => some .near
  | 3, 3 => some .far
  | 4, 2 => some .ts
  | 5, 5 => some .device
  | _, _ => none

/-- Both stages of a walk for VF `v` and a PASID (R168). -/
def State.walkBoth (s : State) (v pasid va : Nat) : Option TlbEntry :=
  if 2 ^ 57 ≤ va then none
  else
    match s.root1.look (v * 2 ^ 20 + pasid) with
    | none => none
    | some root =>
      match walkFrom (s.readIA v) true va 4 root with
      | none => none
      | some l1 =>
        let ia := l1.page + va % 2 ^ l1.bits
        match s.stage2 v ia with
        | none => none
        | some l2 =>
          let pa := l2.page + ia % 2 ^ l2.bits
          match pairKind (field l1.entry 2 0) (field l2.entry 2 0) with
          | none => none
          | some k =>
            if !kindFits k pa then none
            else
              let bits := min l1.bits l2.bits
              some { vf := v, pasid := BitVec.ofNat 20 pasid, vpn := va / 2 ^ bits, bits := bits,
                     pa := pa / 2 ^ bits * 2 ^ bits, kind := k, rankClass := BitVec.ofNat 16 (field l1.entry 63 48),
                     w := bit l1.entry 3 && bit l2.entry 3, x := bit l1.entry 4 && bit l2.entry 4,
                     fe := bit l1.entry 5 && bit l2.entry 5, pr := bit l1.entry 7 || bit l2.entry 7 }

/-- The lines of a contiguous group, beside its leaf's own, that a walk reads at a level (R167). -/
def groupReads (table va level : Nat) (e : Word) : List Nat :=
  let ix := va / 2 ^ (12 + 9 * level) % 512
  let lines (n : Nat) : List Nat := ((List.range (n / 8)).map fun i => table + 8 * (ix / n * n) + 64 * i).filter fun a => a / 64 != (table + 8 * ix) / 64
  if !bit e 6 then [] else match level with
    | 0 => lines 16
    | 1 => lines 32
    | _ => []

/-- The addresses a walk reads, in order (R167). -/
def walkReads (read : Nat → Option Word) (va : Nat) : Nat → Nat → List Nat
  | 0, table =>
    let a := table + 8 * (va / 4096 % 512)
    a :: ((read a).map fun e => groupReads table va 0 e).getD []
  | l + 1, table =>
    let a := table + 8 * (va / 2 ^ (12 + 9 * (l + 1)) % 512)
    a :: match read a with
      | none => []
      | some e => if field e 2 0 = 1 then walkReads read va l (pteAddr e) else groupReads table va (l + 1) e

/-- The physical addresses a second-stage walk reads. -/
def State.stage2Reads (s : State) (v ia : Nat) : List Nat :=
  match s.root2.look v with
  | none => []
  | some root => walkReads (fun a => some (s.mem.word a)) ia 4 root

/-- The physical addresses a walk of both stages reads, in order (R168). -/
def State.walkPas (s : State) (v pasid va : Nat) : List Nat :=
  if 2 ^ 57 ≤ va then []
  else
    match s.root1.look (v * 2 ^ 20 + pasid) with
    | none => []
    | some root =>
      let table (ia : Nat) : List Nat := s.stage2Reads v ia ++ ((s.stage2 v ia).map fun l => [l.page + ia % 2 ^ l.bits]).getD []
      (walkReads (s.readIA v) va 4 root).flatMap table ++
        ((walkFrom (s.readIA v) true va 4 root).map fun l1 => s.stage2Reads v (l1.page + va % 2 ^ l1.bits)).getD []

/-! ## Translation caches (R169) -/

/-- Whether a cached translation serves an address. -/
def TlbEntry.hits (e : TlbEntry) (v pasid va : Nat) : Bool :=
  e.vf == v && e.pasid.toNat == pasid && va / 2 ^ e.bits == e.vpn

/-- A list of translations, most recently used first, after `e` has been used: at most `n` of those `mine` picks, its own share, stay (R169). -/
def tlbUse (n : Nat) (mine : TlbEntry → Bool) (e : TlbEntry) (l : List TlbEntry) : List TlbEntry :=
  let rest := l.filter (· != e)
  e :: (rest.filter mine).take (n - 1) ++ rest.filter fun x => !mine x

/-- The set of a cluster TLB's share that a translation falls in: 128 entries in 8 ways (R169; log 70). -/
def TlbEntry.set (e : TlbEntry) : Nat := Config.tlbSet e.pasid.toNat e.vpn % 16

/-- A micro-TLB after `e` has been used: 4 entries for each VF (R169). -/
def microUse (e : TlbEntry) (l : List TlbEntry) : List TlbEntry := tlbUse 4 (fun x => x.vf == e.vf) e l

/-- A cluster TLB after `e` has been used: the 8 ways of its set in its VF's share (R169). -/
def clusterUse (e : TlbEntry) (l : List TlbEntry) : List TlbEntry := tlbUse 8 (fun x => x.vf == e.vf && x.set == e.set) e l

/-- Translates an address for VF `v` and a PASID through core `c`'s caches, filling them on misses (R168, R169). -/
def State.translate (s : State) (c v pasid va : Nat) : State × Option TlbEntry :=
  match (s.coreOf c).utlb.find? fun e => e.hits v pasid va with
  | some e => (s.modCore c fun co => { co with utlb := microUse e co.utlb }, some e)
  | none =>
    let s := s.count c v 8
    let found (s : State) (e : TlbEntry) : State :=
      (s.modClus (clusterOf c) fun cl => { cl with tlb := clusterUse e cl.tlb }).modCore c fun co => { co with utlb := microUse e co.utlb }
    match (s.clus (clusterOf c)).tlb.find? fun e => e.hits v pasid va with
    | some e => (found s e, some e)
    | none =>
      let s := (s.walkPas v pasid va).foldl (fun s a => s.l2Access c v a false) (s.count c v 9)
      match s.walkBoth v pasid va with
      | none => (s, none)
      | some e => (found s e, some e)

/-- Whether an access of slot `k` of core `c` to an address needs a page walk (R168, R169). -/
def State.needsWalk (s : State) (c k v pasid : Nat) (ea : Word) : Bool :=
  k != 0 && decide (0x2000000 ≤ ea.toNat) && decide (ea.toNat < 2 ^ 57) && !((s.coreOf c).utlb.any fun e => e.hits v pasid ea.toNat) &&
    !((s.clus (clusterOf c)).tlb.any fun e => e.hits v pasid ea.toNat)

/-! ## Places -/

/-- Where an address leads: its physical address, memory type, rank class, permissions (R168). -/
structure Place where
  pa : Nat
  kind : MemKind
  rankClass : BitVec 16 := 0
  w : Bool := true
  x : Bool := false
  fe : Bool := true
  pr : Bool := false
  deriving DecidableEq, Repr

/-- The place of a window address of VF `v` on core `c` (R159 to R161); none raises PERM. -/
def State.windowPlace (s : State) (c v va : Nat) : Option Place :=
  if va < 0x20000 then
    match (s.banks v)[va / 8192]? with
    | some b => some { pa := localBase c + b * 8192 + va % 8192, kind := .window }
    | none => none
  else if 0x1000000 ≤ va && va < 0x1800000 then
    (if va - 0x1000000 < (s.spad v).2 then
      some { pa := spadBase (clusterOf c) + (s.spad v).1 + (va - 0x1000000), kind := .window }
    else none)
  else none

/-- The place of a physical address the movement slot names (R158; log 10: its addresses at and above the fixed range are
physical, since it has no virtual function and no rule gives it page tables). -/
def physPlace (pa : Nat) : Option Place :=
  match rangeOf pa with
  | .near _ => some { pa := pa, kind := .near, x := true }
  | .far _ => some { pa := pa, kind := .far, fe := false, x := true }
  | .spad _ | .loc _ => some { pa := pa, kind := .window, x := true }
  | .device => some { pa := pa, kind := .device, fe := false }
  | .unmapped => none

/-- What an access wants of its address (R171): `takes` is a change of the full/empty bit that also reads the word, which a page
poisoned on read answers with poison (R174). -/
structure Want where
  size : Nat
  write : Bool := false
  takes : Bool := false
  fe : Bool := false
  fetch : Bool := false
  deriving DecidableEq, Repr

/-- Steps 2 and 3 of R171 for an access by slot `k` of core `c` acting for VF `v` and a PASID: the place, or PERM or XLATE. -/
def State.locate (s : State) (c k v pasid : Nat) (ea : Word) : State × Except Cause Place :=
  if ea.toNat < 0x2000000 then
    if k = 0 then (s, .error .perm)
    else
      match s.windowPlace c v ea.toNat with
      | some p => (s, .ok p)
      | none => (s, .error .perm)
  else if k = 0 then
    match physPlace ea.toNat with
    | some p => (s, .ok p)
    | none => (s, .error .xlate)
  else
    match s.translate c v pasid ea.toNat with
    | (s', none) => (s', .error .xlate)
    | (s', some e) =>
      (s', .ok { pa := e.pa + ea.toNat % 2 ^ e.bits, kind := e.kind, rankClass := e.rankClass, w := e.w, x := e.x,
                 fe := e.fe, pr := e.pr })

/-- Steps 4 and 5 of R171, R165 and R174 at a place. -/
def Place.check (p : Place) (w : Want) : Option Cause :=
  if w.write && (!p.w || (p.pr && !w.takes)) then some .perm
  else if w.fetch && !p.x then some .perm
  else if p.kind = .ts then some .tskind
  else if w.fe && !(p.kind = .window || (p.kind = .near && p.fe)) then some .fekind
  else none

/-- The checks of an access of the issuing slot in the order of R171: the place, or the cause. -/
def State.resolve (s : State) (ea : Word) (w : Want) : State × Except Cause Place :=
  if ea.toNat % w.size ≠ 0 then (s, .error .align)
  else
    match s.locate s.core s.slot s.bankVf (s.pasid s.bankVf s.cur.tenant.toNat) ea with
    | (s', .error c) => (s', .error c)
    | (s', .ok p) =>
      match p.check w with
      | some c => (s', .error c)
      | none => (s', .ok p)

/-- The rank of a full/empty word (R205, R259). -/
def feRank (p : Place) (ea : Word) : BitVec 56 := p.rankClass ++ ea.setWidth 40

/-- The object of a word or slot: bound to this core in a window, otherwise the virtual address (R263). -/
def boundObj (c : Nat) (ea : Word) : Word :=
  if ea.toNat < 0x2000000 then BitVec.ofNat 64 (2 ^ 63 + c * 2 ^ 32 + ea.toNat) else ea

/-- The core and the plain address of an object (R263): the core it is bound to, or `c`. -/
def unbind (c : Nat) (obj : Word) : Nat × Word :=
  if bit obj 63 then (field obj 44 32, BitVec.ofNat 64 (field obj 24 0)) else (c, obj)

end Sys2Proof.Machine
end

