-- ==== Sys2Proof/Machine/Ops.lean ====
section
/-! DEFINITION. The named operations over memory and slots that the meanings share: taking a trap and returning from one, reading
and writing memory at its home, the store buffer, the RDC, and release. -/

namespace Sys2Proof.Machine

/-! ## Traps (R331 to R334, R151) -/

/-- The code of a cause (R332). -/
def Cause.code : Cause → Byte
  | .illegal => 0x01 | .priv => 0x02 | .align => 0x03 | .xlate => 0x04 | .perm => 0x05 | .fekind => 0x06 | .poison => 0x07
  | .remote => 0x08 | .obrank => 0x10 | .obexit => 0x11 | .obgive => 0x12 | .rankspace => 0x13 | .obspill => 0x14
  | .obstray => 0x15 | .tskind => 0x18 | .tspark => 0x19 | .tspat => 0x1A | .hbmiss => 0x20 | .ptgap => 0x21
  | .sigfail => 0x22 | .loopend => 0x23 | .double => 0x24 | .regerr => 0x25 | .sykind => 0x30 | .syfull => 0x31
  | .hwait => 0x32 | .trapi => 0x38 | .brk => 0x39

/-- TVEC as it stands in cycle `n`: an MTS to it that lands later has not changed it (R94, R96). -/
def Slot.vector (x : Slot) (n : Nat) : Word :=
  (((x.busy ++ x.busyNow).find? fun b => b.reg == .sys .tvec && decide (n < b.cycle)).map fun b => b.old).getD x.tvec

/-- Delivers a trap of a cause with a TEPC and a TVAL in cycle `n` to an activity that is not in its trap handler (R331); TEPC holds the bits [56:1] of
the address (R96). DEDUCED (log 47): what a trap writes stays, though an older MTS to TEPC lands later. -/
def Slot.deliver (x : Slot) (n : Nat) (cause : Cause) (tepc tval : Word) : Slot :=
  { x with status := .run, reissue := false, tepc := addrBits tepc, tcause := cause.code, tval := tval, ppl := x.pl, pmd := x.md, ih := true,
           pc := x.vector n }

/-- Marks an activity for a kill (R336), or a handler for its abandonment (R25). The first mark stands. -/
def Slot.mark (x : Slot) (cause : Cause) (tepc tval : Word) : Slot :=
  { x with status := .run, kill := some (x.kill.getD ⟨cause, tepc, tval⟩) }

/-- A trap of slot `k` in cycle `n` (R331): in the handler slot the handler is abandoned (R25); in a trap handler it is DOUBLE, which kills
the activity, or restarts the movement slot (R334); the kill, the abandonment and the restart act at the boundary. -/
def Slot.trap (k n : Nat) (x : Slot) (cause : Cause) (tepc tval : Word) : Slot :=
  if k = 15 then x.mark cause tepc tval
  else if x.ih then x.mark .double tepc tval
  else x.deliver n cause tepc tval

/-- The issuing slot takes a trap whose TEPC is its instruction, which writes no register. -/
def State.trap (s : State) (cause : Cause) (tval : Word) : State :=
  s.modCur fun x => { x with busyNow := [] }.trap s.slot (s.cycle s.core) cause x.pc tval

/-- A decoding fault: ILLEGAL or PRIV at the instruction, with its first word, which stays out of SIGACC (R56, R155). -/
def State.decodeFault (s : State) (cause : Cause) : State :=
  s.modCur fun x => { x with sigacc := x.sigPrev, busyNow := [] }.trap s.slot (s.cycle s.core) cause x.pc (x.iword.setWidth 64)

/-- The handler slot is abandoned with HWAIT before any effect of a wait (R25). -/
def State.hwait (s : State) : State := s.modCur fun x => x.mark .hwait x.pc 0

/-- Return from a trap handler (R151). -/
def Slot.trapret (x : Slot) : Slot := { x with pl := x.ppl, md := x.pmd, ih := false, pc := x.tepc, status := .run }

/-- The issuing slot leaves rotation for a wait. -/
def State.wait (s : State) (w : Wait) : State := s.modCur fun x => { x with status := .wait w }

/-- The instruction is held before any effect, and issues again: its words are not folded twice, and it counts once. -/
def State.hold (s : State) (w : Wait) : State :=
  s.modCur fun x => { x with status := .wait w, sigacc := x.sigPrev, busyNow := [], reissue := true }

/-! ## The RDC and the homes (R164, R178, R182 to R184) -/

/-- The RDC ways that VF `v` uses in a turn row (R164, R305); the physical function has its own. -/
def Row.rdcMask (r : Row) (v : Nat) : Nat :=
  if v < 8 then (let e := (r.vfs.look v).getD {}; if e.idle then 0 else e.rdcw.toNat) else r.pfrdc.toNat

/-- The RDC ways VF `v` may use now (R164, R305). -/
def State.rdcWays (s : State) (v : Nat) : Nat := (s.row.map fun r => r.rdcMask v).getD 0

/-- Whether an access to a physical address from a die goes through that die's RDC (R164). -/
def isRemote (die pa : Nat) : Bool :=
  match rangeOf pa with
  | .near d => d != die
  | .far d => d != die
  | _ => false

/-- Whether any of the words holding `n` bytes from `pa` is in a set. -/
def wordsHit (l : List Nat) (pa n : Nat) : Bool := l.any fun a => decide (pa / 8 * 8 ≤ a) && decide (a < pa + n)

/-- The die without the RDC lines that `gone` picks. -/
def Die.dropRdc (d : Die) (gone : Nat → Bool) : Die :=
  { d with rdc := d.rdc.filter fun p => !gone p.1, rdcOwner := d.rdcOwner.filter fun p => !gone p.1,
           rdcWay := d.rdcWay.filter fun p => !gone p.1, rdcPoison := d.rdcPoison.filter fun a => !gone (a / 64 * 64) }

/-- Fetches a line for VF `v` from its home into one of the VF's ways of a die's RDC, in place of the line of its set that stands there, and sets the
die's sharer bit (R164 item 1). -/
def State.rdcFetch (s : State) (die v line : Nat) : State :=
  let way := wayIn (s.rdcWays v) 16 (Config.cacheWay s.fresh)
  let gone (l : Nat) : Bool := l == line || ((s.die die).rdcWay.look l == some way && sameSet Config.rdcSet l line)
  let s := { s with fresh := s.fresh + 1 }.modDie die fun d =>
    let d := d.dropRdc gone
    { d with rdc := d.rdc.put line (s.mem.bytes line 64), rdcOwner := d.rdcOwner.put line v, rdcWay := d.rdcWay.put line way,
             rdcPoison := d.rdcPoison ++ s.poison.filter fun a => a / 64 * 64 == line }
  s.modDie (homeDie line) fun h =>
    { h with sharers := h.sharers.put line (((h.sharers.look line).getD 0) ||| BitVec.ofNat 4 (2 ^ die)) }

/-- The RDC line of a die that a VF's access may use: one fetched for it that stands in its present ways (R164). -/
def State.rdcLine (s : State) (die v line : Nat) : Option (List Byte) :=
  let d := s.die die
  if d.rdcOwner.look line = some v && (s.rdcWays v).testBit ((d.rdcWay.look line).getD 16) then d.rdc.look line else none

/-- A word of another die's memory is read at its home for a slot of core `c`: its die keeps no copy of the line, so that no later load of the slot
returns an earlier value (R181, R183, R185; log 11). -/
def State.readHome (s : State) (c pa : Nat) : State :=
  if isRemote (dieOf c) pa then s.modDie (dieOf c) fun d => d.dropRdc (· == pa / 64 * 64) else s

/-- Reads `n` bytes, which lie within a line, for VF `v` from core `c`: the bytes and whether a word of them is poisoned. A remote read uses
the die's RDC unless `home` asks for the home (R164, R181, R185). -/
def State.readMem (s : State) (c v : Nat) (home : Bool) (pa n : Nat) : State × List Byte × Bool :=
  let die := dieOf c
  let line := pa / 64 * 64
  if !isRemote die pa then (s.l2Access c v pa false, s.mem.bytes pa n, wordsHit s.poison pa n)
  else if home then ((s.l2Access c v pa false).readHome c pa, s.mem.bytes pa n, wordsHit s.poison pa n)
  else if s.rdcWays v = 0 then (s.l2Access c v pa false, s.mem.bytes pa n, wordsHit s.poison pa n)
  else
    match s.rdcLine die v line with
    | some bs =>
      (s.count c v 12,
       (List.range n).map fun i => if (pa + i) / 64 * 64 = line then bs.getD (pa + i - line) 0 else s.mem.get (pa + i),
       wordsHit (s.die die).rdcPoison pa n)
    | none => (((s.count c v 13).l2Access c v pa false).rdcFetch die v line, s.mem.bytes pa n, wordsHit s.poison pa n)

/-- The aligned words a list of cells writes whole. -/
def wholeWords (cells : List (Nat × Byte)) : List Nat :=
  (cells.filterMap fun p => if p.1 % 8 = 0 then some p.1 else none).filter fun a =>
    (List.range 8).all fun j => cells.any fun p => p.1 == a + j

/-- The lines a list of cells touches, each once. -/
def linesOf (cells : List (Nat × Byte)) : List Nat :=
  cells.foldl (fun l p => if l.elem (p.1 / 64 * 64) then l else l ++ [p.1 / 64 * 64]) []

/-- Sends the invalidations a write to a line causes: to every die whose sharer bit is set, apart from the writer's (R164
item 4). -/
def State.sendInvals (s : State) (core slot die line : Nat) : State :=
  let mask := (((s.die (homeDie line)).sharers.look line).getD 0).toNat
  ((bitsOf mask 4).filter fun d => d != die).foldl
    (fun s d => s.modDie d fun x => { x with invals := x.invals ++ [⟨line, d, core, slot⟩] }) s

/-- Cells written into a line an RDC holds (R164 item 2). -/
def patchLine (line : Nat) (bs : List Byte) (cells : List (Nat × Byte)) : List Byte :=
  ((List.range 64).zip bs).map fun p =>
    match cells.reverse.find? fun q => q.1 == line + p.1 with
    | some q => q.2
    | none => p.2

/-- A write of cells by an agent of a die, 4 for one of no die with an RDC, is performed at the home (R178, R182): the bytes change, a word written whole
loses its poison (R173), the writer's own RDC copy is updated in place, and the sharers are sent invalidations (R164). -/
def State.performAt (s : State) (die core slot : Nat) (cells : List (Nat × Byte)) : State :=
  let whole := wholeWords cells
  let s := { s with mem := s.mem.patch cells, poison := s.poison.filter fun a => !whole.elem a }
  (linesOf cells).foldl
    (fun s line =>
      let s := match (if isRemote die line then (s.die die).rdc.look line else none) with
        | some bs =>
          s.modDie die fun d => { d with rdc := d.rdc.put line (patchLine line bs cells), rdcPoison := d.rdcPoison.filter fun a => !whole.elem a }
        | none => s
      match rangeOf line with
      | .near _ | .far _ => s.sendInvals core slot die line
      | _ => s) s

/-- A write of cells from a core is performed. -/
def State.perform (s : State) (core slot : Nat) (cells : List (Nat × Byte)) : State := s.performAt (dieOf core) core slot cells

/-- A write of VF `v` is performed, through the L2 of a far word's home (R163, R178). -/
def State.performFor (s : State) (core slot v : Nat) (cells : List (Nat × Byte)) : State :=
  ((linesOf cells).foldl (fun s line => s.l2Access core v line true) s).perform core slot cells

/-- A write for VF `v` by the front end or by firmware, which stand on no die, is performed, through the L2 of a far word's home (R163, R164, R178). -/
def State.performIo (s : State) (slot v : Nat) (cells : List (Nat × Byte)) : State :=
  ((linesOf cells).foldl (fun s line => s.l2Touch v line true) s).performAt 4 0 slot cells

/-- Firmware writes whole words from an address for VF `v`: their poison is cleared, and the sharers of their lines are sent invalidations (R163, R164,
R173). -/
def State.storeWords (s : State) (v a : Nat) (ws : List Word) : State :=
  let n := 8 * ws.length
  let s := { s with mem := s.mem.store a (ws.flatMap fun w => leBytes 8 w.toNat), poison := s.poison.filter fun x => x < a || a + n ≤ x }
  (List.range ((a % 64 + n + 63) / 64)).foldl (fun s i => (s.l2Touch v (a / 64 * 64 + 64 * i) true).sendInvals 0 18 4 (a / 64 * 64 + 64 * i)) s

/-- A word is written poisoned from a die: the copy in the writer's RDC is poisoned with it (R164, R173). -/
def State.poisonFrom (s : State) (core pa : Nat) : State :=
  { s with poison := setAdd s.poison pa }.modDie (dieOf core) fun d =>
    if (d.rdc.look (pa / 64 * 64)).isSome then { d with rdcPoison := setDel d.rdcPoison pa ++ [pa] } else d

/-- An invalidation arrives: the die drops its line, and the acknowledgement sets out (R164 item 4). -/
def State.invalArrive (s : State) (v : Inval) : State :=
  let s := s.modDie v.die fun d => { d.dropRdc (· == v.line) with invals := d.invals.erase v }
  s.modDie (homeDie v.line) fun h => { h with acks := h.acks ++ [v] }

/-- An acknowledgement arrives at the home, which clears the sharer bit unless the die has read the line again meanwhile: its
bit then stands for the new copy (R164, R183). -/
def State.ackArrive (s : State) (v : Inval) : State :=
  let again := ((s.die v.die).rdc.look v.line).isSome
  s.modDie (homeDie v.line) fun h =>
    { h with acks := h.acks.erase v,
             sharers := if again then h.sharers
               else h.sharers.put v.line (((h.sharers.look v.line).getD 0) &&& ~~~ (BitVec.ofNat 4 (2 ^ v.die))) }

/-- Every invalidation that a slot's writes have caused is delivered and acknowledged (R181). -/
def State.flushInvals (s : State) (core slot : Nat) : State :=
  let mine (l : List Inval) : List Inval := l.filter fun v => v.core == core && v.slot == slot
  let s := (List.range 4).foldl (fun s d => (mine (s.die d).invals).foldl State.invalArrive s) s
  (List.range 4).foldl (fun s d => (mine (s.die d).acks).foldl State.ackArrive s) s

/-! ## The store buffer (R179, R193, R199) -/

/-- The youngest buffered value of a byte. -/
def bufferedByte (buf : List StoreEntry) (pa : Nat) : Option Byte :=
  (buf.flatMap fun e => e.bytes).foldl (fun acc p => if p.1 = pa then some p.2 else acc) none

/-- The cluster whose cores' local memories or scratchpad hold a physical address. -/
def homeCluster (pa : Nat) : Option Nat :=
  match rangeOf pa with
  | .loc c => some (clusterOf c)
  | .spad n => some n
  | _ => none

/-- Whether the Kiosk halts a cluster (R358). -/
def State.haltOn (s : State) (n : Nat) : Bool := (s.clus n).halting || (s.clus n).halted

/-- Whether requests that write are held at a physical address's home by the Kiosk (R358). -/
def State.heldHome (s : State) (pa : Nat) : Bool := ((homeCluster pa).map fun n => s.haltOn n).getD false

/-- The tenant of VF `v` whose state a cluster holds (R307, R359). -/
def State.tenantOn (s : State) (n v : Nat) : Option Nat :=
  if s.haltOn n then (s.clus n).frozen.look v
  else match s.band.out.look v with
    | some a => some a
    | none => if s.phase v = .stopped then none else s.tenantNow v

/-- Whether a tenant's window memory at a physical address stands saved, and another's, or none, in its place (R309, R359). -/
def State.away (s : State) (v tenant pa : Nat) : Bool :=
  match homeCluster pa with
  | some n => (s.tmems.any fun t => t.vf == v && t.tenant == tenant) && s.tenantOn n v != some tenant
  | none => false

/-- Whether the memory traffic of VF `v` is held until its turn ends (R311). -/
def State.donated (s : State) (v : Nat) : Bool := v < 8 && s.band.effect.getLsbD v

/-- Whether traffic of VF `v` to a physical address is held by a donation (R311). -/
def State.heldFor (s : State) (v pa : Nat) : Bool :=
  s.donated v &&
    match rangeOf pa with
    | .near _ | .far _ | .device => true
    | _ => false

/-- Whether traffic of VF `v` between two cores waits until a donated turn ends: it uses a link between dies (R311, R354). -/
def State.linkHeld (s : State) (v a b : Nat) : Bool := s.donated v && dieOf a != dieOf b

/-- Whether the page of a physical address is marked unavailable (R172). -/
def State.pageGone (s : State) (pa : Nat) : Bool := setHas s.unavail (pa / 4096)

/-- Whether the vertical bus of a physical address is held for a repair, or its range is being rewritten (R175, R176; log 71). -/
def State.busHolds (s : State) (pa : Nat) : Bool :=
  let on (d : Nat) : Bool := ((s.die d).busHeld ++ (s.die d).busMoving).elem (busOf pa)
  match rangeOf pa with
  | .near d => on d
  | .spad c => on (c / 96)
  | _ => false

/-- Whether an access to a physical address waits for its page or its bus (R172, R175, R176). -/
def State.isUnavail (s : State) (pa : Nat) : Bool := s.pageGone pa || s.busHolds pa

/-- A request joins the fault queue of its home, once (R172). -/
def State.parkAt (s : State) (pa core slot : Nat) (b : ParkedBy) : State :=
  if s.faultQ.elem ⟨pa, core, slot, b⟩ then s else { s with faultQ := s.faultQ ++ [⟨pa, core, slot, b⟩] }

/-- A fetch, or a page walk, of the issuing slot that is held by a page that is not available joins the home's fault queue (R172). -/
def State.joinFetch (s : State) (w : Wait) : State :=
  match w with
  | .fetch pa => s.parkAt pa s.core s.slot .slot
  | _ => s

/-- What holds the page walk that an address of slot `k` of core `c` needs: a donated turn (R311), or a page of the tables that is not available (R172). -/
def State.walkHold (s : State) (c k v pasid : Nat) (ea : Word) : Option Wait :=
  if !s.needsWalk c k v pasid ea then none
  else if s.donated v then some .donated
  else ((s.walkPas v pasid ea.toNat).find? fun a => s.isUnavail a).map .fetch

/-- What holds the page walk that an address of the issuing slot needs. -/
def State.walkWait (s : State) (ea : Word) : Option Wait :=
  s.walkHold s.core s.slot s.bankVf (s.pasid s.bankVf s.cur.tenant.toNat) ea

/-- Whether the page walk of an address of the issuing slot is held. -/
def State.walkHeld (s : State) (ea : Word) : Bool := (s.walkWait ea).isSome

/-- The instruction is held before any effect; where a page that is not available holds it, it joins the fault queue of its home (R172). -/
def State.holdFor (s : State) (w : Wait) : State := (s.hold w).joinFetch w

/-- The instruction is held, before any effect, by its page walk. -/
def State.holdWalk (s : State) (ea : Word) : State :=
  match s.walkWait ea with
  | some w => s.holdFor w
  | none => s

/-- What holds an access of VF `v` to a physical address: its page (R172), a donated turn (R311), or, where it writes, a halted cluster (R358). -/
def State.accessWait (s : State) (v pa : Nat) (write : Bool) : Option Wait :=
  if s.isUnavail pa then some (.fetch pa)
  else if s.heldFor v pa then some .donated
  else if write && s.heldHome pa then some (.kiosk pa)
  else none

/-- Whether an engine's walk for an address of a tenant is held: by a donated turn (R311), or a page of the tables that is not available (R172). -/
def State.engineWalkHeld (s : State) (v pasid : Nat) (ea : Word) : Bool :=
  decide (0x2000000 ≤ ea.toNat) && decide (ea.toNat < 2 ^ 57) && (s.donated v || (s.walkPas v pasid ea.toNat).any fun a => s.isUnavail a)

/-- Cells one lane at a time. -/
def inLanes : List (Nat × Byte) → List (List (Nat × Byte))
  | a :: b :: c :: d :: l => [a, b, c, d] :: inLanes l
  | _ => []

/-- A whole entry of a slot's store buffer is performed (R178); the elements of a VSTS are, in lane order, writes of their own (R198). -/
def State.performEntry (s : State) (c k : Nat) (e : StoreEntry) : State :=
  if e.scatter then (inLanes e.bytes).foldl (fun s l => s.performFor c k e.vf l) s else s.performFor c k e.vf e.bytes

/-- The command that the matrix unit of core `c` has started and not completed, with its VF (R212, R234). -/
def State.mxBegun (s : State) (c : Nat) : Option (Nat × MxCmd) :=
  (List.range 8).findSome? fun v => ((s.vfOf c v).mxq.find? fun q => q.begun).map fun q => (v, q)

/-- The 8-byte words an entry may write next: those it still writes, or of a VSTS that of its next lane (R191, R198). -/
def StoreEntry.words (e : StoreEntry) : List Nat :=
  if e.scatter then (e.bytes.take 1).map fun p => p.1 / 8
  else e.bytes.foldl (fun l p => if l.elem (p.1 / 8) then l else l ++ [p.1 / 8]) []

/-- Words of a row of a copy. -/
def CopyEntry.rowWords (e : CopyEntry) : Nat := field e.w2 23 0 / 8
/-- Words of a copy. -/
def CopyEntry.total (e : CopyEntry) : Nat := field e.w2 39 24 * e.rowWords
/-- Word `i` of a copy in row order, from a base with a stride. -/
def CopyEntry.addr (e : CopyEntry) (base : Word) (stride : BitVec 32) (i : Nat) : Word :=
  base + stride.signExtend 64 * BitVec.ofNat 64 (i / e.rowWords) + BitVec.ofNat 64 (8 * (i % e.rowWords))
/-- The source address of word `i`. -/
def CopyEntry.src (e : CopyEntry) (i : Nat) : Word := e.addr e.w0 (e.w3.extractLsb' 0 32) i
/-- The destination address of word `i`. -/
def CopyEntry.dst (e : CopyEntry) (i : Nat) : Word := e.addr e.w1 (e.w3.extractLsb' 32 32) i

/-- Whether a store of slot `k` to a physical address waits for a command that the slot pushed before it (R187): a matrix command that reads the line,
or a copy of the slot that is not complete. -/
def State.pushHolds (s : State) (c k pa : Nat) : Bool :=
  let x := s.slotOf c k
  let hit (v : Nat) (r : Nat × Nat) : Bool :=
    (List.range (r.2 / 64 + 2)).any fun i => ((s.windowPlace c v (min (r.1 + 64 * i) (r.1 + r.2 - 1))).map fun p => p.pa / 64 == pa / 64).getD false
  ((List.range 8).any fun v => (s.vfOf c v).mxq.any fun q => q.slot == k && q.reads.any (hit v)) || (x.mbFull == 0xF && x.mbTag.isSome) ||
    (s.die (dieOf c)).engines.any fun p => p.2.chain.any fun e => e.core == c && e.slot == k

/-- The physical address of the source of word `i` of a copy. -/
def State.srcPa (s : State) (e : CopyEntry) (i : Nat) : Option Nat :=
  let a := (e.src i).toNat
  if a < 0x2000000 then (s.windowPlace e.core e.vf a).map fun p => p.pa
  else (s.walkBoth e.vf e.pasid a).map fun t => t.pa + a % 2 ^ t.bits

/-- The entry of a copy engine's chain that a slot's mailboxes ask for (R252, R253). -/
def State.boxEntry (s : State) (c k seq : Nat) : CopyEntry :=
  let x := s.slotOf c k
  let w (n : Nat) : Word := (x.mb.look n).getD 0
  { w0 := w 0, w1 := w 1, w2 := w 2, w3 := w 3, vf := x.vfid.toNat, tenant := x.tenant.toNat, pasid := s.pasid x.vfid.toNat x.tenant.toNat, core := c,
    slot := k, gen := x.gen, sd := x.mbTag.getD 0, seq := seq, got := x.boxGot }

/-- Word `w`, of 8 bytes, as a command holds it before a store writes it, where it has not read it yet. -/
def State.kept (s : State) (w : Nat) (i : Nat) (m : SMap (Word × Bool)) : SMap (Word × Bool) :=
  if (m.look i).isSome then m else m.put i (s.mem.word (8 * w), setHas s.poison (8 * w))

/-- Before a stop performs stores of slot `k`, the commands the slot pushed before them take the words they read as these stand, so that none reads such a
store (R187, R193): those that wait with the context, or complete after it, included. -/
def State.keepPushed (s : State) (c k : Nat) (words : List Nat) : State :=
  if !words.any fun w => s.pushHolds c k (8 * w) then s
  else
    let mx (v : Nat) (q : MxCmd) : MxCmd :=
      if q.slot != k then q
      else
        let reads := q.reads.flatMap fun r => (List.range ((r.1 + r.2 + 7) / 8 - r.1 / 8)).map fun i => r.1 / 8 + i
        { q with early := reads.foldl (fun m i =>
            match s.windowPlace c v (8 * i) with
            | some p => if words.elem (p.pa / 8) then s.kept (p.pa / 8) i m else m
            | none => m) q.early }
    let copy (e : CopyEntry) : CopyEntry :=
      if e.core != c || e.slot != k then e
      else
        { e with got := (List.range e.total).foldl (fun m i =>
            match s.srcPa e i with
            | some pa => if words.elem (pa / 8) && (e.moved.look i).isNone then s.kept (pa / 8) i m else m
            | none => m) e.got }
    let t := (List.range 8).foldl (fun t v =>
      if (s.vfOf c v).mxq.isEmpty then t else t.modVf c v fun cv => { cv with mxq := cv.mxq.map (mx v) }) s
    (t.modDie (dieOf c) fun d => { d with engines := d.engines.over fun _ g => { g with chain := g.chain.map copy } }).modSlot c k fun x =>
      if x.mbFull = 0xF && x.mbTag.isSome then { x with boxGot := (copy (s.boxEntry c k 0)).got } else x

/-- The first entry of a slot's store buffer leaves for its home, if its pages are available (R172, R179). A STREL entry is
performed only when its earlier accesses are, with their invalidations where its scope asks for them (R181, R199). A stop does not wait for the
slot's commands, which keep the words they read (R187, R193; log 35). -/
def State.drain1 (stop : Bool) (s : State) (c k : Nat) : Option State :=
  match (s.slotOf c k).storeBuf with
  | [] => none
  | e :: rest =>
    if e.bytes.any fun p => s.isUnavail p.1 || s.heldHome p.1 || s.heldFor e.vf p.1 || (!stop && s.pushHolds c k p.1) then none
    else
      let s := if stop then s.keepPushed c k ((e.bytes.map fun p => p.1 / 8).eraseDups) else s
      let s := match e.release with
        | some .module | some .system => s.flushInvals c k
        | _ => s
      some ((s.performEntry c k e).modSlot c k fun x => { x with storeBuf := rest })

/-- What an entry writes of word `w`, of a VSTS its next lane; and what is then left. -/
def StoreEntry.cut (e : StoreEntry) (w : Nat) : List (Nat × Byte) × List (Nat × Byte) :=
  if e.scatter then (e.bytes.take 4, e.bytes.drop 4) else (e.bytes.filter fun p => p.1 / 8 == w, e.bytes.filter fun p => p.1 / 8 != w)

/-- Whether word `w` of entry `i` may be performed now: the first entry's words in no order (R191), and a later entry's when it and
every entry before it write remote words, other than `w` (R184). -/
def mayDrain (die : Nat) (buf : List StoreEntry) (i w : Nat) : Bool :=
  i = 0 ||
    (match buf[i]? with
    | none => false
    | some e => e.release.isNone && isRemote die (8 * w)) &&
      (buf.take i).all fun x => x.release.isNone && x.bytes.all fun p => isRemote die p.1 && p.1 / 8 != w

/-- The buffer without word `w` of entry `i`; an entry whose words have all left is gone. -/
def takeWord (buf : List StoreEntry) (i w : Nat) : List StoreEntry :=
  (buf.modify i fun e => { e with bytes := (e.cut w).2 }).filter fun e => !e.bytes.isEmpty

/-- One word of a slot's store buffer is performed at its home (R179, R184, R191): `idx` counts the words of all entries. -/
def State.drainWord (s : State) (c k idx : Nat) : Option State :=
  let buf := (s.slotOf c k).storeBuf
  match ((List.range buf.length).flatMap fun i => ((buf[i]?.map StoreEntry.words).getD []).map fun w => (i, w))[idx]? with
  | none => none
  | some (i, w) =>
    let e := (buf[i]?).getD { bytes := [] }
    if !mayDrain (dieOf c) buf i w || s.isUnavail (8 * w) || s.heldHome (8 * w) || s.heldFor e.vf (8 * w) || s.pushHolds c k (8 * w) then none
    else
      let s := match e.release with
        | some .module | some .system => s.flushInvals c k
        | _ => s
      some ((s.performFor c k e.vf (e.cut w).1).modSlot c k fun x => { x with storeBuf := takeWord buf i w })

/-- A slot's store buffer drains as far as it can. -/
def State.drainAll (stop : Bool) (s : State) (c k : Nat) : Nat → State
  | 0 => s
  | n + 1 =>
    match s.drain1 stop c k with
    | none => s
    | some s' => State.drainAll stop s' c k n

/-- The state with a slot's store buffer empty, or none where a store cannot be performed yet (R172, R185). -/
def State.drained (s : State) (c k : Nat) : Option State :=
  let s' := s.drainAll false c k (s.slotOf c k).storeBuf.length
  if (s'.slotOf c k).storeBuf.isEmpty then some s' else none

/-- A release of the issuing slot at a scope (R181): its stores are performed at their homes; at MODULE and SYSTEM scope the
invalidations they caused are acknowledged too. -/
def State.release (s : State) (sc : Scope) : Option State :=
  match s.drained s.core s.slot with
  | none => none
  | some s' =>
    match sc with
    | .module | .system => some (s'.flushInvals s.core s.slot)
    | .thread => some s'
    | _ => some s'

/-- A store of the issuing slot, as its buffer holds it. -/
def State.storeEntry (s : State) (bytes : List (Nat × Byte)) (release : Option Scope) (scatter : Bool) : StoreEntry :=
  { bytes := bytes, release := release, scatter := scatter, vf := s.bankVf, tenant := s.cur.tenant.toNat }

/-- A store enters the issuing slot's buffer, or waits for room (R179); with room, the instruction completes. -/
def State.bufferStore (s : State) (e : StoreEntry) : State :=
  if s.cur.storeBuf.length < 8 then (s.modCur fun x => { x with storeBuf := x.storeBuf ++ [e] }).retire
  else s.wait (.storeFull e)

/-- Whether the issuing slot's buffered stores supply `n` bytes, so that a load of them reads nothing from memory (R179). -/
def State.forwarded (s : State) (pa n : Nat) : Bool := (List.range n).all fun i => (bufferedByte s.cur.storeBuf (pa + i)).isSome

/-- A load of the issuing slot: each byte from the youngest buffered store, the rest from memory; poisoned when a byte taken
from memory lies in a poisoned word (R173, R179), or the page is poisoned on read (R174). -/
def State.loadBytes (s : State) (home : Bool) (pr : Bool) (pa n : Nat) : State × List Byte × Bool :=
  let buf := s.cur.storeBuf
  let own := (List.range n).map fun i => bufferedByte buf (pa + i)
  if own.all Option.isSome then (s, own.map fun o => o.getD 0, false)
  else
    match s.readMem s.core s.bankVf home pa n with
    | (s', bs, p) => (s', (own.zip bs).map fun q => q.1.getD q.2, p || pr)

/-! ## Event records (R343) -/

/-- The 64 bytes of an event record (R343). -/
def EventRec.bytes (r : EventRec) : List Byte :=
  ((r.word0 :: r.time :: r.detail ++ List.replicate 6 0).take 8).flatMap fun (w : Word) => leBytes 8 w.toNat

/-- Where entry `i` of a ring lies (R343): the physical function's ring at a physical address, a VF's at an intermediate address. -/
def State.ringPlace (s : State) (ring i : Nat) : Option Nat :=
  let fits (pa : Nat) : Option Nat :=
    if kindFits .near pa || kindFits .far pa || (kindFits .device pa && !(0x8000001000000 ≤ pa && pa < 0x8000002800000)) then some pa else none
  if ring < 8 then
    let ia := field (s.vfReg ring 0x500) 56 0 + 64 * i
    (s.stage2 ring ia).bind fun l => fits (l.page + ia % 2 ^ l.bits)
  else fits (field (s.pfReg 0xB000) 56 0 + 64 * i)

/-- A function signals a vector of its MSI-X table: the host's memory takes the message of a vector that is not masked (R344; log 78). -/
def State.signal (s : State) (f n : Nat) : State :=
  let s := { s with msix := s.msix ++ [(f, n)] }
  match s.msixTab.look (2 * f + n) with
  | some m => if m.masked then s else { s with hostMem := s.hostMem.store m.addr.toNat (leBytes 4 m.data.toNat) }
  | none => s

/-- A record enters its ring, in the module's memory or in the host's (R343), or waits for its page (R172, R344). -/
def State.ringWrite (s : State) (v pa : Nat) (r : EventRec) : State :=
  if s.isUnavail pa then { s with faultQ := s.faultQ ++ [{ pa := pa, core := 0, slot := 18, by' := .record v r }] }
  else if kindFits .device pa then { s with hostMem := s.hostMem.store pa r.bytes } else s.performIo 18 v (cellsOf pa r.bytes)

/-- An event record of VF `v` goes to a ring, a VF's, or the physical function's (8), and its function signals MSI-X vector 1 (R343, R344). -/
def State.record (s : State) (ring v code cause core slot tenant : Nat) (detail : List Word) : State :=
  let ctl := if ring < 8 then s.vfReg ring 0x508 else s.pfReg 0xB008
  let head := if ring < 8 then s.vfReg ring 0x510 else s.pfReg 0xB010
  let tail := if ring < 8 then s.vfReg ring 0x518 else s.pfReg 0xB018
  let lost := if ring < 8 then s.vfReg ring 0x520 else s.pfReg 0xB020
  let set (s : State) (off : Nat) (w : Word) : State :=
    if ring < 8 then s.setVfReg ring (0x500 + off) w else s.setPf (0xB000 + off) w
  if !bit ctl 8 || (tail - head).toNat = 2 ^ field ctl 4 0 then set s 0x20 (lost + 1)
  else
    let w0 := code + cause * 2 ^ 8 + v * 2 ^ 16 + tenant * 2 ^ 20 + core * 2 ^ 32 + slot * 2 ^ 48
    let r : EventRec := ⟨ring, BitVec.ofNat 8 code, BitVec.ofNat 8 cause, BitVec.ofNat 64 w0, BitVec.ofNat 64 s.time, detail⟩
    let s := match s.ringPlace ring (tail.toNat % 2 ^ field ctl 4 0) with
      | some pa => s.ringWrite ring pa r
      | none => s
    { set s 0x18 (tail + 1) with events := s.events ++ [r] }.signal ring 1

/-- An event record goes to a VF's ring, or the physical function's (8). -/
def State.event (s : State) (ring code cause core slot tenant : Nat) (detail : List Word) : State :=
  s.record ring (if ring < 8 then ring else 0) code cause core slot tenant detail

end Sys2Proof.Machine
end

