-- ==== Sys2Proof/Machine/Duty.lean ====
section
/-! DEFINITION. Obligations as data: what an activity owes, the room for one more, spilling to the OBSPILL area, which of several
matches an act discharges, and the obligation counts of the sync units (R258, R261, R263 to R268). -/

namespace Sys2Proof.Machine

/-- The code of an obligation kind (R263). -/
def kindCode : ObKind → Nat
  | .put => 1 | .signal => 2 | .arrive => 3 | .reply => 4 | .tuple => 5 | .release => 6

/-- The obligation kind of a code (R263). -/
def kindOf : Nat → Option ObKind
  | 1 => some .put | 2 => some .signal | 3 => some .arrive | 4 => some .reply | 5 => some .tuple | 6 => some .release
  | _ => none

/-- The reserved rank (R259): OBMIN when nothing is owed. -/
def noRank : BitVec 56 := 0xFFFFFFFFFFFFFF

/-- The obligations of the activity in slot `k` of core `c`, in order of creation. -/
def State.obsOf (s : State) (c k : Nat) : List Oblig := (s.coreOf c).obs.filter fun o => o.holder == k

/-- The least rank of a list of obligations, or the reserved rank (R264). -/
def leastRank (l : List Oblig) : BitVec 56 := l.foldl (fun m o => if o.rank.toNat < m.toNat then o.rank else m) noRank

/-- OBMIN (R264). -/
def State.obmin (s : State) (c k : Nat) : BitVec 56 := leastRank (s.obsOf c k)

/-- OBCNT (R264). -/
def State.obcnt (s : State) (c k : Nat) : Nat := (s.obsOf c k).length

/-- Puts an obligation among others by increasing rank, behind those of its own rank (R282). -/
def rankInsert (o : Oblig) : List Oblig → List Oblig
  | [] => [o]
  | x :: l => if o.rank.toNat < x.rank.toNat then o :: x :: l else x :: rankInsert o l

/-- Obligations by increasing rank, ties in order of creation (R282). -/
def byRank (l : List Oblig) : List Oblig := l.foldl (fun acc o => rankInsert o acc) []

/-- The two words of a spilled entry (R264). -/
def Oblig.words (o : Oblig) : List Byte :=
  leBytes 8 o.obj.toNat ++ leBytes 8 (kindCode o.kind * 2 ^ 56 + o.rank.toNat)

/-! ## Room (R103, R264, R265) -/

/-- Entries of the obligation table in use on a core: those neither spilled nor in the carried store (R258). -/
def Core.tableUsed (co : Core) : Nat := (co.obs.filter fun o => o.spill.isNone && !o.marked && !o.carried).length

/-- Reservations of table entries on a core; key `k` is slot `k`'s, and key `16 + k` that of entry `i` of its spill area, as `i + 1`. -/
def Core.tableResv (co : Core) : Nat := (co.obResv.filter fun p => p.1 < 16 && 0 < p.2).length

/-- The first entry of a spill area that is not in use. -/
def freeSpill (used : List Nat) : Nat := ((List.range (used.length + 1)).find? fun i => !used.elem i).getD used.length

/-- The entry of its spill area that slot `k` has reserved (R264). -/
def Core.spillResv (co : Core) (k : Nat) : Option Nat :=
  match co.obResv.look (16 + k) with
  | some (i + 1) => some i
  | _ => none

/-- The place of entry `i` of the OBSPILL area of slot `k`, for a read or a write (R265). -/
def State.spillPlace (s : State) (c k i : Nat) (write : Bool) : State × Option Place :=
  let x := s.slotOf c k
  let ea := BitVec.ofNat 64 (field x.obspill 56 0 + 16 * i)
  match s.locate c k x.vfid.toNat (s.pasid x.vfid.toNat x.tenant.toNat) ea with
  | (s', .error _) => (s', none)
  | (s', .ok p) => (s', if p.kind = .device || (p.check { size := 16, write := write }).isSome then none else some p)

/-- The place of entry `i` of the OBSPILL area of slot `k`, unless its walk or its access is held now (R172, R311, R358). -/
def State.spillAt (s : State) (c k i : Nat) (write : Bool) : Except Wait (State × Option Place) :=
  let x := s.slotOf c k
  let v := x.vfid.toNat
  match s.walkHold c k v (s.pasid v x.tenant.toNat) (BitVec.ofNat 64 (field x.obspill 56 0 + 16 * i)) with
  | some w => .error w
  | none =>
    match s.spillPlace c k i write with
    | (s', none) => .ok (s', none)
    | (s', some p) =>
      match s'.accessWait v p.pa write with
      | some w => .error w
      | none => .ok (s', some p)

/-- What a request for room finds: room, in the table or in an entry of the spill area; room whose spill write is held now, and what holds it; or none. -/
inductive Room where
  | ok (s : State) (spill : Option Nat)
  | busy (s : State) (spill : Option Nat) (w : Wait)
  | full (s : State)

/-- Room for one more obligation of slot `k` beside what is reserved (R264): an entry of the table, or one of its spill area, whose write is
checked now (R265). -/
def State.findRoom (s : State) (c k : Nat) : Room :=
  let co := s.coreOf c
  let x := s.slotOf c k
  if co.tableUsed + co.tableResv < 128 then .ok s none
  else
    let used := (s.obsOf c k).filterMap (fun o => o.spill) ++ (co.spillResv k).toList
    let i := freeSpill used
    let log2n := field x.obspill 63 58
    if x.spillBad || log2n = 0 || 2 ^ log2n ≤ used.length || field x.obspill 56 0 % (16 * 2 ^ log2n) ≠ 0 then .full s
    else
      match s.spillAt c k i true with
      | .error w => .busy s (some i) w
      | .ok (s', none) => .full (s'.modSlot c k fun x => { x with spillBad := true })
      | .ok (s', some _) => .ok s' (some i)

/-- Reserves room for one obligation of slot `k` (R264); a reservation it holds already stands. -/
def State.reserveOb (s : State) (c k : Nat) : Room :=
  let co := s.coreOf c
  if (co.obResv.look k).isSome || (co.spillResv k).isSome then .ok s none
  else
    match s.findRoom c k with
    | .ok s' none => .ok (s'.modCore c fun co => { co with obResv := co.obResv.put k 1 }) none
    | .ok s' (some i) => .ok (s'.modCore c fun co => { co with obResv := co.obResv.put (16 + k) (i + 1) }) (some i)
    | r => r

/-- A slot's reservation is released (R264). -/
def State.freeResv (s : State) (c k : Nat) : State :=
  s.modCore c fun co => { co with obResv := (co.obResv.drop k).drop (16 + k) }

/-- Every reservation of a slot goes: room for an obligation, a sync-unit entry, a place in the deque (R239, R264, R272). -/
def State.unreserve (s : State) (c k : Nat) : State :=
  let co := s.coreOf c
  let v := (s.slotOf c k).vfid.toNat
  let cv := s.vfOf c v
  let s := if (co.obResv.look k).isSome || (co.obResv.look (16 + k)).isSome then s.freeResv c k else s
  if cv.syncResv.elem k || cv.dqResv.elem k then s.modVf c v fun cv => { cv with syncResv := cv.syncResv.erase k, dqResv := cv.dqResv.erase k }
  else s

/-- An obligation goes into the room found for it: the table, or an entry of the spill area, whose write waits where it is held (R264, R265). -/
def State.placeOb (s : State) (c k : Nat) (o : Oblig) (spill : Option Nat) : State :=
  let o := { o with holder := k, marked := false, spill := spill, unwritten := false, carried := false }
  let r : State × Bool := match spill with
    | none => (s, false)
    | some i =>
      match s.spillAt c k i true with
      | .error _ => (s, true)
      | .ok (s', none) => (s', false)
      | .ok (s', some p) => (s'.performFor c k (s.slotOf c k).vfid.toNat (cellsOf p.pa o.words), false)
  r.1.modCore c fun co => { co with obs := co.obs ++ [{ o with unwritten := r.2 }] }

/-- An obligation arrives and fills the room reserved for it (R264). -/
def State.addOb (s : State) (c k : Nat) (o : Oblig) : State := (s.freeResv c k).placeOb c k o ((s.coreOf c).spillResv k)

/-- Asks for the reset of a VF (R342): VFCTL.RESET reads 1 until the reset is complete. -/
def State.askReset (s : State) (v : Nat) : State :=
  if v < 8 then s.setPf (0x100 + 0x80 * v) (s.pfReg (0x100 + 0x80 * v) ||| 2) else s

/-- Reads one spilled entry back (R265): none when it cannot be recovered. Where the read is held and nothing waits for it, or the entry is not written
yet, the entry is as the device holds it (log 82). -/
def State.readSpill (s : State) (c k : Nat) (o : Oblig) (i : Nat) : State × Option Oblig :=
  match (if o.unwritten then .error .drain else s.spillAt c k i false) with
  | .error _ => (s, some o)
  | .ok (s', none) => (s', none)
  | .ok (s', some p) =>
    if wordsHit s'.poison p.pa 16 || p.pr then (s', none)
    else
      let w1 := s'.mem.word (p.pa + 8)
      match kindOf (field w1 59 56) with
      | none => (s', none)
      | some kd => (s', some { o with obj := s'.mem.word p.pa, kind := kd, rank := w1.setWidth 56 })

/-- The first entry of a list that is `o` becomes `o'`. -/
def swapOb (o o' : Oblig) : List Oblig → List Oblig
  | [] => []
  | x :: l => if x = o then o' :: l else x :: swapOb o o' l

/-- An entry is read back before it is used, if it is spilled (R265); one that cannot be recovered asks for the reset of its VF. -/
def State.recallOb (s : State) (c k : Nat) (o : Oblig) : State × Oblig :=
  match o.spill with
  | none => (s, o)
  | some i =>
    match s.readSpill c k o i with
    | (s', none) => (s'.askReset (s.slotOf c k).vfid.toNat, o)
    | (s', some o') => (s'.modCore c fun co => { co with obs := swapOb o o' co.obs }, o')

/-- What holds the read that an instruction of the issuing slot needs of an obligation it discharges, gives or lists (R265, R311). -/
def State.recallWait (s : State) (o : Option Oblig) : Option Wait :=
  o.bind fun o => (if o.unwritten then none else o.spill).bind fun i =>
    match s.spillAt s.core s.slot i false with
    | .error w => some w
    | .ok _ => none

/-- The instruction waits until an obligation's entry can be read back, then goes on. -/
def State.afterRecall (s : State) (o : Option Oblig) (f : State → Out) : Out :=
  match s.recallWait o with
  | some w => .next (s.holdFor w)
  | none => f s

/-- A spill write that was held is made, if it may be now. -/
def State.writeSpill (s : State) (c : Nat) (o : Oblig) : State :=
  match o.spill with
  | none => s
  | some i =>
    match s.spillAt c o.holder i true with
    | .error _ => s
    | .ok (s', p) =>
      let s' := match p with
        | some p => s'.performFor c o.holder (s.slotOf c o.holder).vfid.toNat (cellsOf p.pa o.words)
        | none => s'
      s'.modCore c fun co => { co with obs := swapOb o { o with unwritten := false } co.obs }

/-- The spill writes that were held are made (R172, R311, R358). -/
def State.writeSpills (s : State) : State :=
  s.cores.foldl (fun s p => (p.2.obs.filter fun o => o.unwritten).foldl (fun s o => s.writeSpill p.1 o) s) s

/-- Every spilled entry of slot `k` is read back, where all are passed on or saved (R265). -/
def State.recallObs (s : State) (c k : Nat) : State := (s.obsOf c k).foldl (fun s o => (s.recallOb c k o).1) s

/-! ## Choosing and removing (R268) -/

/-- The matching obligation an act takes: the earliest-created unmarked one, else the earliest-created marked one (R268). -/
def pickOb (l : List Oblig) (kind : ObKind) (obj : Word) : Option Oblig :=
  let m := l.filter fun o => o.kind == kind && o.obj == obj
  match m.find? fun o => !o.marked with
  | some o => some o
  | none => m.head?

/-- Removes an obligation of a core. -/
def State.dropOb (s : State) (c : Nat) (o : Oblig) : State := s.modCore c fun co => { co with obs := co.obs.erase o }

/-- Changes the obligation count of the sync-unit entry of a slot of VF `v` (R261), on whichever core holds the entry. -/
def State.syncBump (s : State) (v pa : Nat) (f : Nat → Nat) : State :=
  { s with cores := s.cores.map fun q =>
      match q.2.vfs.look v with
      | none => q
      | some cv =>
        match cv.sync.look pa with
        | none => q
        | some n => (q.1, { q.2 with vfs := q.2.vfs.put v { cv with sync := cv.sync.put pa (f n) } }) }

/-- Discharges one obligation of slot `k` with a kind and an object, if it holds one (R268); the flag says whether it did. -/
def State.discharge (s : State) (c k : Nat) (kind : ObKind) (obj : Word) : State × Bool :=
  match pickOb (s.obsOf c k) kind obj with
  | none => (s, false)
  | some o => let (s, o) := s.recallOb c k o; (s.dropOb c o, true)

/-! ## Activities by handle (R266) -/

/-- The handle of the activity in slot `k` of core `c`. -/
def State.handleOf (s : State) (c k : Nat) : Word :=
  BitVec.ofNat 64 (c + k * 2 ^ 16 + (s.slotOf c k).gen.toNat * 2 ^ 20)

/-- Whether a slot holds an activity. -/
def Slot.holds (x : Slot) : Bool :=
  match x.status with
  | .run | .wait _ | .parked _ => true
  | .empty | .scrub | .retired => false

/-- The core and slot of a live activity that a handle names. -/
def State.byHandle (s : State) (h : Word) : Option (Nat × Nat) :=
  let c := field h 12 0
  let k := field h 19 16
  let x := s.slotOf c k
  if field h 63 52 = 0 && field h 15 13 = 0 && validCore c && 1 ≤ k && k ≤ 15 && x.holds && x.kind != .movement &&
      field h 51 20 = x.gen.toNat && h != 0 then
    some (c, k)
  else none

/-- The rank of the object a wait waits on, from its issue (R259, R268); a request parked in a fault queue is still that wait, and a
SYWAIT's rank is read at its slot. -/
def State.waitRank (s : State) : Wait → Option (BitVec 56)
  | .parked (.lds _ _ _ _ r) _ => some r
  | .parked (.take _ _ _ _ _ r) _ => some r
  | .parked (.vlds _ _ r) _ => some r
  | .parked (.sywait _ _ pa _ _) _ => some ((s.mem.word (pa + 8)).setWidth 56)
  | .deferred r => some r
  | .sync r => some r
  | .vlds _ _ _ _ r => some r
  | .gbar _ r => some r
  | .claim _ r => some r
  | .tupleSent r => r
  | .tupleParked r => some r
  | .reduceStatus _ r => some r
  | .sendFull _ => some 0
  | _ => none

/-- Whether an activity waits on an object whose rank is at or above a rank (R268). -/
def State.waitsAbove (s : State) (c k : Nat) (rank : BitVec 56) : Bool :=
  match (s.slotOf c k).status with
  | .wait w =>
    match s.waitRank w with
    | some r => rank.toNat ≤ r.toNat
    | none => false
  | _ => false

end Sys2Proof.Machine
end

