-- ==== Sys2Proof/Machine/Home.lean ====
section
/-! DEFINITION. What homes do: deferred lists of full/empty words and their service (R204 to R209), and sync slots with their
waiters (R260, R261, R276). -/

namespace Sys2Proof.Machine

/-- Acts as slot `k` of core `c`, and goes back to the issuing slot. -/
def State.asSlot (s : State) (c k : Nat) (f : State → State) : State := (f (s.at c k)).at s.core s.slot

/-- A reply that writes a scalar register and completes the instruction of a slot (R19). -/
def State.replyS (s : State) (c k : Nat) (d : Reg) (v : Word) : State := s.asSlot c k fun s => (s.putS 0 d v).retire

/-- A reply that reports a fault, with TEPC at the waiting instruction (R332). -/
def State.replyTrap (s : State) (c k : Nat) (cause : Cause) (tval : Word) : State :=
  s.asSlot c k fun s => (s.freeResv c k).trap cause tval

/-- The full/empty bit of a word. -/
def State.isFull (s : State) (pa : Nat) : Bool := setHas s.full pa

/-- Sets the full/empty bit of a word. -/
def State.setFull (s : State) (pa : Nat) (b : Bool) : State := { s with full := setPut s.full pa b }

/-- Whether a word is poisoned (R173). -/
def State.isPoisoned (s : State) (pa : Nat) : Bool := setHas s.poison pa

/-- Poisons a word. -/
def State.setPoison (s : State) (pa : Nat) : State := { s with poison := setAdd s.poison pa }

/-! ## Deferred entries (R204) -/

/-- Deferred entries of a home in use. -/
def State.homeUsed (s : State) (home : Nat) : Nat := (s.waiters.filter fun w => w.home == home && !w.held).length

/-- Counts an entry that joins a deferred list (R322); the waiters of a sync slot are no deferred list. -/
def State.countJoin (s : State) (c k : Nat) (r : Req) : State :=
  match r with
  | .sywait _ _ _ _ _ => s
  | _ => s.count c (s.slotOf c k).vfid.toNat 14

/-- A request joins the list of its word, or is held in the network: when the home's 256 entries are in use, or behind requests
that are held already (R204). -/
def State.join (s : State) (c k pa : Nat) (r : Req) : State :=
  let h := homeId pa
  let held := 256 ≤ s.homeUsed h || s.waiters.any fun w => w.home == h && w.held
  let s := if held then s else s.countJoin c k r
  { s with waiters := s.waiters ++ [⟨h, pa, c, k, r, held⟩] }

/-- Takes a waiter out of its list. -/
def State.unjoin (s : State) (w : Waiter) : State := { s with waiters := s.waiters.erase w }

/-- The data of the acting lanes of a VLDS word. -/
def VldsWord.data (w : VldsWord) (v : Word) : List (Nat × Lane) :=
  w.lanes.map fun i => (i, v.extractLsb' (32 * (i % 2)) 32)

/-- The lower of two addresses, where there are two. -/
def lowerAddr (a : Option Word) (b : Word) : Word :=
  match a with
  | none => b
  | some x => if x.toNat < b.toNat then x else b

/-- A list of lane values as a mask and a vector. -/
def gather (got : List (Nat × Lane)) : BitVec 16 × Vec :=
  (BitVec.ofNat 16 (got.foldl (fun m p => m ||| 2 ^ p.1) 0),
   ofLanes fun i => ((got.find? fun p => p.1 == i).map fun p => p.2).getD 0)

/-- One word of a VLDS of slot `k` is read; at the last reply the instruction completes, or raises POISON (R206). -/
def State.vldsGot (s : State) (c k : Nat) (w : VldsWord) (v : Word) (poisoned : Bool) : State :=
  match (s.slotOf c k).status with
  | .wait (.vlds d got p left rank) =>
    let got := got ++ w.data v
    let p := if poisoned then some (lowerAddr p w.ea) else p
    if left ≤ 1 then
      match p with
      | some a => s.replyTrap c k .poison a
      | none => s.asSlot c k fun s => (s.putV 0 d (gather got).1 (gather got).2).retire
    else s.modSlot c k fun x => { x with status := .wait (.vlds d got p (left - 1) rank) }
  | _ => s

/-- Serves one entry of a deferred list with the word's data, or with poison (R204). -/
def State.serveOne (s : State) (w : Waiter) (v : Word) (poisoned : Bool) : State :=
  let s := s.unjoin w
  match w.req with
  | .lds d ea _ pr _ => if poisoned || pr then s.replyTrap w.core w.slot .poison ea else (s.readHome w.core w.pa).replyS w.core w.slot d v
  | .vldsWord x => (s.readHome w.core w.pa).vldsGot w.core w.slot x v (poisoned || x.pr)
  | .take d ea _ pr obj rank =>
    if poisoned || pr then s.replyTrap w.core w.slot .poison ea
    else ((s.readHome w.core w.pa).addOb w.core w.slot { obj := obj, kind := .put, rank := rank }).replyS w.core w.slot d v
  | _ => s

/-- Whether a served entry takes the word (R204): a TAKE that receives no poison. -/
def Req.takes (r : Req) (poisoned : Bool) : Bool :=
  match r with
  | .take _ _ _ pr _ _ => !(poisoned || pr)
  | _ => false

/-- Whether a request waits on a full/empty word. -/
def Req.isFE : Req → Bool
  | .lds _ _ _ _ _ | .vldsWord _ | .take _ _ _ _ _ _ => true
  | _ => false

/-- Serves the entries of a list in order until a TAKE takes the word; without one the word becomes full (R204). -/
def State.serveList (s : State) (pa : Nat) (v : Word) (poisoned : Bool) : List Waiter → State
  | [] => s.setFull pa true
  | w :: ws =>
    let s' := s.serveOne w v poisoned
    if w.req.takes poisoned then s' else State.serveList s' pa v poisoned ws

/-- A write makes a word full: its deferred list is served with what the word holds (R204). -/
def State.serveWord (s : State) (pa : Nat) : State :=
  s.serveList pa (s.mem.word pa) (s.isPoisoned pa) (s.waiters.filter fun w => w.pa == pa && !w.held && w.req.isFE)

/-! ## Full/empty operations of the issuing slot (R206 to R208) -/

/-- LDS at the home. -/
def State.actLds (s : State) (d : Reg) (ea : Word) (pa : Nat) (pr : Bool) (rank : BitVec 56) : State :=
  if s.isFull pa then
    (if s.isPoisoned pa || pr then s.trap .poison ea else ((s.readHome s.core pa).putS 0 d (s.mem.word pa)).retire)
  else (s.join s.core s.slot pa (.lds d ea pa pr rank)).wait (.deferred rank)

/-- One word of a VLDS arrives at its home. -/
def State.actVldsWord (s : State) (w : VldsWord) : State :=
  if s.isFull w.pa then (s.readHome s.core w.pa).vldsGot s.core s.slot w (s.mem.word w.pa) (s.isPoisoned w.pa || w.pr)
  else s.join s.core s.slot w.pa (.vldsWord w)

/-- VLDS: every word at its home. -/
def State.actVlds (s : State) (d : Reg) (todo : List VldsWord) (rank : BitVec 56) : State :=
  todo.foldl State.actVldsWord (s.wait (.vlds d [] none todo.length rank))

/-- TAKE at the home; its room is reserved. -/
def State.actTake (s : State) (d : Reg) (ea : Word) (pa : Nat) (pr : Bool) (obj : Word) (rank : BitVec 56) : State :=
  if s.isFull pa then
    (if s.isPoisoned pa || pr then (s.freeResv s.core s.slot).trap .poison ea
    else
      ((((s.readHome s.core pa).setFull pa false).addOb s.core s.slot { obj := obj, kind := .put, rank := rank }).putS 0 d (s.mem.word pa)).retire)
  else (s.join s.core s.slot pa (.take d ea pa pr obj rank)).wait (.deferred rank)

/-- TAKENB at the home; its room is reserved. -/
def State.actTakenb (s : State) (d : Reg) (ea : Word) (pa : Nat) (pr : Bool) (obj : Word) (rank : BitVec 56) : State :=
  if s.isFull pa then
    (if s.isPoisoned pa || pr then (s.freeResv s.core s.slot).trap .poison ea
    else
      (((((s.readHome s.core pa).setFull pa false).addOb s.core s.slot { obj := obj, kind := .put, rank := rank }).putS 0 d (s.mem.word pa)).putP 0
        0xFFFF).retire)
  else ((s.freeResv s.core s.slot).putP 0 0).retire

/-- PUT at the home. -/
def State.actPut (s : State) (v ea : Word) (pa : Nat) (obj : Word) : State :=
  if s.isFull pa then s.trap .fekind ea
  else (((s.perform s.core s.slot (cellsOf pa (leBytes 8 v.toNat))).serveWord pa).discharge s.core s.slot .put obj).1.retire

/-- FILL at the home. -/
def State.actFill (s : State) (pa : Nat) (obj : Word) : State :=
  ((if s.isFull pa then s else s.serveWord pa).discharge s.core s.slot .put obj).1.retire

/-- EMPTY at the home. -/
def State.actEmpty (s : State) (pa : Nat) : State := (s.setFull pa false).retire

/-- FESTAT at the home. -/
def State.actFestat (s : State) (d : Reg) (pa : Nat) (pr : Bool) : State :=
  let waiting := s.waiters.any fun w => w.pa == pa && !w.held && w.req.isFE
  let v := (if s.isPoisoned pa || pr then 4 else 0) + (if waiting then 2 else 0) + (if s.isFull pa then 1 else 0)
  (s.putS 0 d (BitVec.ofNat 64 v)).retire

/-! ## Sync slots (R260, R276) -/

/-- The type of an active slot from its word 0 (R260, R261). -/
def syncType (w0 : Word) : Option SlotType :=
  if !bit w0 60 then none
  else match field w0 59 56 with
    | 1 => some .signal
    | 2 => some .barrier
    | 3 => some .join
    | _ => none

/-- Word 0 from its fields. -/
def syncWord (poisoned : Bool) (type phase value : Nat) : Word :=
  BitVec.ofNat 64 ((if poisoned then 2 ^ 61 else 0) + 2 ^ 60 + type * 2 ^ 56 + phase * 2 ^ 48 + value)

/-- Word 0 with another VALUE. -/
def withValue (w0 : Word) (value : Nat) : Word := BitVec.ofNat 64 (field w0 63 48 * 2 ^ 48 + value % 2 ^ 48)

/-- Word 0 with P set. -/
def withPoison (w0 : Word) : Word := w0 ||| BitVec.ofNat 64 (2 ^ 61)

/-- Word 0 after an arrival at a barrier (R274). -/
def arriveWord (w0 : Word) : Word :=
  let n := field w0 47 24
  let r := field w0 23 0
  if r = 1 then
    BitVec.ofNat 64 (field w0 63 56 * 2 ^ 56 + (field w0 55 48 + 1) % 256 * 2 ^ 48 + n * 2 ^ 24 + n)
  else withValue w0 (n * 2 ^ 24 + (r + 2 ^ 24 - 1) % 2 ^ 24)

/-- The condition of SYWAIT (R276). -/
def syncHolds (w0 target : Word) : Bool :=
  bit w0 61 ||
    match syncType w0 with
    | some .signal => decide (field target 47 0 ≤ field w0 47 0)
    | some .join => field w0 47 0 == 0
    | some .barrier => field w0 55 48 != field target 7 0
    | none => false

/-- Every waiter of a slot whose condition holds receives word 0 (R276). -/
def State.serveSync (s : State) (pa : Nat) : State :=
  (s.waiters.filter fun w => w.pa == pa && !w.held).foldl
    (fun s w =>
      match w.req with
      | .sywait d _ _ t _ => if syncHolds (s.mem.word pa) t then ((s.unjoin w).readHome w.core pa).replyS w.core w.slot d (s.mem.word pa) else s
      | _ => s) s

/-- A word is written at its home by a slot's update (R190). -/
def State.writeWord (s : State) (c k pa : Nat) (v : Word) : State := s.perform c k (cellsOf pa (leBytes 8 v.toNat))

/-- An update of a slot: its new word 0 is written, and the waiters are served. -/
def State.syncUpdate (s : State) (c k pa : Nat) (w0 : Word) : State := (s.writeWord c k pa w0).serveSync pa

/-- The value of a SIGNAL after an addition (R273). -/
def clampAdd (w0 v : Word) : Word := withValue w0 (min (max ((field w0 47 0 : Int) + v.toInt) 0) (2 ^ 48 - 1)).toNat

/-- SYINIT and OBNEW at the home (R272, R275); the unit's entry, and the room of an owed obligation, are reserved. -/
def State.actSyinit (s : State) (sa : Word) (pa : Nat) (obj : Word) (rank : BitVec 56) (w0 : Word) (owe : Option ObKind)
    (d : Option Reg) : State :=
  let done (s : State) : State := s.modVf s.core s.bankVf fun cv => { cv with syncResv := cv.syncResv.erase s.slot }
  if (syncType (s.mem.word pa)).isSome then ((done s).freeResv s.core s.slot).trap .sykind sa
  else
    let s := ((done s).writeWord s.core s.slot (pa + 8) (rank.setWidth 64)).writeWord s.core s.slot pa w0
    let s := s.modVf s.core s.bankVf fun cv => { cv with sync := cv.sync.put pa (if owe.isSome then 1 else 0) }
    let s := match owe with
      | some kd => s.addOb s.core s.slot { obj := obj, kind := kd, rank := rank }
      | none => s
    match d with
    | some d => (s.putS 0 d (rank.setWidth 64)).retire
    | none => s.retire

/-- After an update of a slot, the obligation it discharges and the slot's count (R273, R274). -/
def State.syncPaid (s : State) (kind : ObKind) (obj : Word) (pa : Nat) : State :=
  match s.discharge s.core s.slot kind obj with
  | (s', true) => s'.syncBump s.bankVf pa fun n => n - 1
  | (s', false) => s'

/-- SYADD at the home (R273). -/
def State.actSyadd (s : State) (sa : Word) (pa : Nat) (obj v : Word) : State :=
  let w0 := s.mem.word pa
  match syncType w0 with
  | some .signal => ((s.syncUpdate s.core s.slot pa (clampAdd w0 v)).syncPaid .signal obj pa).retire
  | _ => s.trap .sykind sa

/-- SYARRIVE at the home (R274). -/
def State.actSyarrive (s : State) (d : Reg) (sa : Word) (pa : Nat) (obj : Word) : State :=
  let w0 := s.mem.word pa
  match syncType w0 with
  | some .barrier =>
    (((s.syncUpdate s.core s.slot pa (arriveWord w0)).syncPaid .arrive obj pa).putS 0 d (BitVec.ofNat 64 (field w0 55 48))).retire
  | _ => s.trap .sykind sa

/-- SYWAIT at the home (R276). -/
def State.actSywait (s : State) (d : Reg) (sa : Word) (pa : Nat) (target : Word) (obmin : BitVec 56) : State :=
  let w0 := s.mem.word pa
  let rank : BitVec 56 := (s.mem.word (pa + 8)).setWidth 56
  if (syncType w0).isNone then s.trap .sykind sa
  else if obmin.toNat ≤ rank.toNat then s.trap .obrank (rank.setWidth 64)
  else if syncHolds w0 target then ((s.readHome s.core pa).putS 0 d w0).retire
  else (s.join s.core s.slot pa (.sywait d sa pa target obmin)).wait (.sync rank)

/-- SYREAD at the home (R277). -/
def State.actSyread (s : State) (d : Reg) (sa : Word) (pa : Nat) (w : Bool) : State :=
  if (syncType (s.mem.word pa)).isNone then s.trap .sykind sa
  else ((s.readHome s.core pa).putS 0 d (s.mem.word (if w then pa + 8 else pa))).retire

/-- Whether SYRET of a slot raises SYKIND (R262, R278): the pair is not active, the issuing core's unit holds no entry for it, or it has waiters or
owed obligations. -/
def State.syretBad (s : State) (pa : Nat) : Bool :=
  (syncType (s.mem.word pa)).isNone || s.waiters.any (fun w => w.pa == pa && !w.req.isFE) ||
    match (s.vfOf s.core s.bankVf).sync.look pa with
    | none => true
    | some n => n != 0

/-- SYRET at the home (R278). -/
def State.actSyret (s : State) (sa : Word) (pa : Nat) : State :=
  if s.syretBad pa then s.trap .sykind sa
  else
    (((s.writeWord s.core s.slot pa 0).writeWord s.core s.slot (pa + 8) 0).modVf s.core s.bankVf fun cv =>
      { cv with sync := cv.sync.drop pa }).retire

/-- OBOWE at the home (R280); its room is reserved. -/
def State.actObowe (s : State) (sa : Word) (pa : Nat) (obj : Word) : State :=
  let rank : BitVec 56 := (s.mem.word (pa + 8)).setWidth 56
  let owe (kd : ObKind) : State :=
    ((s.addOb s.core s.slot { obj := obj, kind := kd, rank := rank }).syncBump s.bankVf pa fun n => n + 1).retire
  match syncType (s.mem.word pa) with
  | some .signal => owe .signal
  | some .barrier => owe .arrive
  | _ => (s.freeResv s.core s.slot).trap .sykind sa

/-- OBRANK of a sync slot at the home (R283). -/
def State.actObrank (s : State) (d : Reg) (sa : Word) (pa : Nat) : State :=
  if (syncType (s.mem.word pa)).isNone then s.trap .sykind sa
  else (s.putS 0 d (((s.mem.word (pa + 8)).setWidth 56).setWidth 64)).retire

/-! ## Packets at halted clusters (R358) -/

/-- A packet arrives at a halted cluster: it joins the 256 held at the ingress, or waits behind them in the network (R358). -/
def State.holdPacket (s : State) (pa : Nat) (p : Packet) : State :=
  match homeCluster pa with
  | none => s
  | some n => if (s.clus n).ingress.elem p then s else s.modClus n fun cl => { cl with ingress := cl.ingress ++ [p] }

/-- Whether a packet is the request of a slot. -/
def Packet.asks (p : Packet) (c k : Nat) : Bool :=
  match p with
  | .request c' k' _ => c' == c && k' == k
  | _ => false

/-- Whether a request writes, or changes a full/empty bit or a list, at its home (R358). -/
def State.alters (s : State) : Req → Bool
  | .load _ _ _ _ _ _ | .vload _ _ _ | .festat _ _ _ | .flush _ | .rld _ _ _ _ _ | .devLoad _ _ _ | .devStore _ _ _ | .devLanes _ _
  | .syread _ _ _ _ | .obowe _ _ _ | .obrank _ _ _ => false
  | .lds _ _ pa _ _ => !s.isFull pa
  | .vlds _ todo _ => todo.any fun w => !s.isFull w.pa
  | .vldsWord w => !s.isFull w.pa
  | .takenb _ _ pa _ _ _ => s.isFull pa
  | .sywait _ _ pa t _ => !syncHolds (s.mem.word pa) t
  | .take _ _ _ _ _ _ | .put _ _ _ _ | .fill _ _ | .empty _ | .syinit _ _ _ _ _ _ _ | .syadd _ _ _ _ | .syarrive _ _ _ _ | .syret _ _ _
  | .forkJoin _ _ _ | .taskArrive _ _ => true

/-! ## Withdrawal (R209) -/

/-- Every entry of slot `k` leaves the lists, fault queues, tuple slices, claim queues and halted ingresses in which it waits, with no effect, and
what it has reserved is released. -/
def State.unlist (s : State) (c k : Nat) : State :=
  let x := s.slotOf c k
  let s := { s with waiters := s.waiters.filter fun w => !(w.core == c && w.slot == k),
                    faultQ := s.faultQ.filter fun q => !(q.core == c && q.slot == k && (q.by' == ParkedBy.slot || q.by' == ParkedBy.tuple)),
                    ts := s.ts.filter fun t => t.device || !(t.core == c && t.slot == k && t.gen == x.gen) }
  let s : State := { s with clusters := s.clusters.over fun _ cl => { cl with ingress := cl.ingress.filter fun p => !p.asks c k } }
  (s.unreserve c k).modCore c fun co =>
    { co with bays := co.bays.map fun p => (p.1, { p.2 with queue := p.2.queue.filter (· != k) }) }

end Sys2Proof.Machine
end

