-- ==== Sys2Proof/Machine/Activity.lean ====
section
/-! DEFINITION. Activities: dispatch into a slot, the end of an activity, task records, deques and their spill areas, the carried
store (R10, R21, R22, R149, R237 to R242, R268). -/

namespace Sys2Proof.Machine

/-! ## Dispatch (R10, R96, R238) -/

/-- A slot with the dispatch values of a new activity: what the slot has issued and not performed stays with the slot. -/
def Slot.fresh (x : Slot) (kind : ActKind) (pc : Word) : Slot :=
  { status := .run, kind := kind, pc := pc, gen := x.dispatches + 1, dispatches := x.dispatches + 1,
    storeBuf := x.storeBuf, posted := x.posted, replies := x.replies, sendq := x.sendq, seen := x.seen }

/-- A slot that holds no activity (R149 step 4): registers, mailboxes and per-activity system registers cleared. -/
def Slot.cleared (x : Slot) : Slot :=
  { gen := x.gen, dispatches := x.dispatches, storeBuf := x.storeBuf, posted := x.posted, replies := x.replies, sendq := x.sendq, seen := x.seen }

/-- The coordinates of an activity of VF `v` on core `c` (R13) and the packet values of its launch (R10, R238). -/
def State.coords (s : State) (c v tenant : Nat) (x : Slot) : Slot :=
  let cv := s.vfOf c v
  let x := { x with vfid := BitVec.ofNat 4 v, tenant := BitVec.ofNat 5 tenant, member := BitVec.ofNat 11 cv.member,
                    stage := BitVec.ofNat 3 cv.stage, launch := cv.launch }
  match cv.launch.bind fun l => s.launches.look l with
  | none => x
  | some l =>
    let x := { x with maxpt := l.maxpt, hbi := l.hbi }
    match l.stages[cv.stage]? with
    | none => x
    | some g => { x with gangw := BitVec.ofNat 6 g.w, gangh := BitVec.ofNat 6 g.h }

/-- FMT of a format pointer (R237). -/
def ptrFmt (w : Word) : BitVec 4 := BitVec.ofNat 4 (field w 60 57)
/-- The scale source of a format pointer (R237). -/
def ptrScale (w : Word) : Word := w &&& 0x81FFFFFFFFFFFFFF
/-- A format pointer from FMT and the scale source (R239). -/
def ptrOf (fmt : BitVec 4) (scale : Word) : Word := ptrScale scale ||| (fmt.setWidth 64 <<< 57)

/-- The two format and scale pointers loaded into a slot (R10, R21). -/
def Slot.pointers (x : Slot) (fsa fsb : Word) : Slot :=
  { x with fmta := ptrFmt fsa, fmtb := ptrFmt fsb, scla := ptrScale fsa, sclb := ptrScale fsb }

/-! ## Task records (R237) -/

/-- The eight words of a record. -/
def TaskRec.words (r : TaskRec) : List Word := [r.entry, r.arg1, r.arg2, r.arg3, r.arg4, r.join, r.fsa, r.fsb]

/-- The 64 bytes of a record. -/
def TaskRec.bytes (r : TaskRec) : List Byte := r.words.flatMap fun w => leBytes 8 w.toNat

/-- A record with its words read from memory. -/
def TaskRec.reread (r : TaskRec) (m : Memory) (pa : Nat) : TaskRec :=
  { r with entry := m.word pa, arg1 := m.word (pa + 8), arg2 := m.word (pa + 16), arg3 := m.word (pa + 24),
           arg4 := m.word (pa + 32), join := m.word (pa + 40), fsa := m.word (pa + 48), fsb := m.word (pa + 56) }

/-! ## The carried store (R258, R268) -/

/-- Entries of the carried store of VF `v` in use on a core. -/
def State.carriedUsed (s : State) (c v : Nat) : Nat :=
  let co := s.coreOf c
  let cv := s.vfOf c v
  (co.obs.filter fun o => (o.marked || o.carried) && (s.slotOf c o.holder).vfid.toNat == v).length +
    (cv.deque.map fun r => r.bound.length).sum + (cv.spilled.map fun r => r.bound.length).sum +
    match cv.steal.bind fun x => x.found with
    | some r => r.bound.length
    | none => 0

/-- The physical number of a VF's bay `b` (R212). -/
def State.physBay (s : State) (v b : Nat) : Option Nat := (bitsOf (s.bayMask v) 16)[b]?

/-- The claim of a bay whose RELEASE obligation goes to slot `k` of core `c` is that activity's (R213). -/
def State.reclaim (s : State) (c k : Nat) (o : Oblig) : State :=
  if o.kind = .release then
    let at' := unbind c o.obj
    match s.physBay (s.slotOf c k).vfid.toNat at'.2.toNat with
    | some p => s.modBay at'.1 p fun x => { x with claim := some (s.handleOf c k) }
    | none => s
  else s

/-- An obligation given to a slot by dispatch: into the room it finds, or held in the carried store (R268). -/
def State.giveOb (s : State) (c k : Nat) (o : Oblig) : State :=
  let s := s.reclaim c k o
  match s.findRoom c k with
  | .ok s' i | .busy s' i _ => s'.placeOb c k o i
  | .full s' =>
    s'.modCore c fun co => { co with obs := co.obs ++ [{ o with holder := k, marked := false, spill := none, carried := true }] }

/-- A slot takes a record (R238). -/
def State.dispatchRec (s : State) (c k v : Nat) (r : TaskRec) : State :=
  let x := (s.slotOf c k).fresh .task (r.entry &&& 0x1FFFFFFFFFFFFFE)
  let x := (((s.coords c v (s.rowEntry v).tenant x).pointers r.fsa r.fsb).setS 1 r.arg1).setS 2 r.arg2
  let x := (x.setS 3 r.arg3).setS 4 r.arg4
  let s := s.setSlot c k { x with guard := 0x8000000000000000 }
  let s := r.bound.foldl (fun s o => s.giveOb c k o) s
  match r.arrive with
  | none => s
  | some (obj, rank) => s.giveOb c k { obj := obj, kind := .arrive, rank := rank, fromFork := true }

/-! ## Deques (R22, R240, R241) -/

/-- Capacity of the spill area: none when DQSPILL names none, is misaligned, or has failed (R103, R241). -/
def CoreVf.dqRoom (cv : CoreVf) : Nat :=
  let n := field cv.dqspill 63 58
  if cv.dqBad || n = 0 || field cv.dqspill 56 0 % (64 * 2 ^ n) ≠ 0 then 0 else 2 ^ n - cv.spilled.length

/-- The place of ring entry `i` of VF `v`'s spill area on core `c`, and its address. -/
def State.dqPlace (s : State) (c v i : Nat) (write : Bool) : State × Word × Option Place :=
  let q := (s.vfOf c v).dqspill
  let ea := BitVec.ofNat 64 (field q 56 0 + 64 * (((s.vfOf c v).dqHead + i) % 2 ^ field q 63 58))
  match s.locate c 1 v (s.pasid v (s.rowEntry v).tenant) ea with
  | (s', .error _) => (s', ea, none)
  | (s', .ok p) => (s', ea, if p.kind = .device || (p.check { size := 64, write := write }).isSome then none else some p)

/-- What holds the walk for ring entry `i` of VF `v`'s spill area on core `c` (R172, R311). -/
def State.dqHold (s : State) (c v i : Nat) : Option Wait :=
  let q := (s.vfOf c v).dqspill
  s.walkHold c 1 v (s.pasid v (s.rowEntry v).tenant) (BitVec.ofNat 64 (field q 56 0 + 64 * (((s.vfOf c v).dqHead + i) % 2 ^ field q 63 58)))

/-- A SPILLFAULT record (R241, R343), once for each DQSPILL value, of a spill and of a refill. -/
def State.spillFault (s : State) (c v : Nat) (ea : Word) (refill : Bool) : State :=
  if (if refill then (s.vfOf c v).dqToldRefill else (s.vfOf c v).dqTold) then s
  else
    (s.modVf c v fun cv => if refill then { cv with dqToldRefill := true } else { cv with dqTold := true }).event v 0x68 0 c 0 (s.rowEntry v).tenant [ea, if refill then 1 else 0]

/-- The oldest record of the hardware deque moves to the spill area (R240); a write that faults makes the area count as full
(R241). -/
def State.spillOldest (s : State) (c v : Nat) : Room :=
  let cv := s.vfOf c v
  match cv.deque with
  | [] => .full s
  | r :: rest =>
    if cv.dqRoom = 0 then .full s
    else
      match s.dqHold c v cv.spilled.length, s.dqPlace c v cv.spilled.length true with
      | some w, _ => .busy s none w
      | none, (s', ea, none) => .full ((s'.modVf c v fun cv => { cv with dqBad := true }).spillFault c v ea false)
      | none, (s', _, some p) =>
        match s'.accessWait v p.pa true with
        | some w => .busy s' none w
        | none =>
          .ok ((s'.performFor c 16 v (cellsOf p.pa r.bytes)).modVf c v fun cv => { cv with deque := rest, spilled := cv.spilled ++ [r] }) none

/-- A spilled record read back (R240, R241): none while its page is not available or a donated turn holds the read, and where it is poisoned, which
resets the VF; the flag says that its address has no place. -/
def State.readRec (s : State) (c v i : Nat) (r : TaskRec) : State × Option TaskRec × Bool :=
  match s.dqHold c v i, s.dqPlace c v i false with
  | some _, _ => (s, none, false)
  | none, (s', ea, none) => (s'.spillFault c v ea true, none, true)
  | none, (s', _, some p) =>
    if (s'.accessWait v p.pa false).isSome then (s', none, false)
    else if wordsHit s'.poison p.pa 64 || p.pr then (s'.askReset v, none, false)
    else (s', some (r.reread s'.mem p.pa), false)

/-- Whether the spilled records of a deque cannot be translated, so that takers see the hardware deque alone (R241). -/
def State.dqLost (s : State) (c v : Nat) : Bool :=
  let n := (s.vfOf c v).spilled.length - 1
  (s.dqHold c v n).isNone && (s.dqPlace c v n false).2.2.isNone

/-- The youngest spilled record moves back into the hardware deque (R240). -/
def State.refill (s : State) (c v : Nat) : State :=
  let cv := s.vfOf c v
  match cv.spilled.getLast? with
  | none => s
  | some r =>
    if 32 ≤ cv.deque.length then s
    else
      match s.readRec c v (cv.spilled.length - 1) r with
      | (s', none, _) => s'
      | (s', some r', _) => s'.modVf c v fun cv => { cv with deque := r' :: cv.deque, spilled := cv.spilled.dropLast }

/-- Room for one more record in a deque beside what is reserved, with a spill if it is full (R239, R240). -/
def State.roomDq (s : State) (c v : Nat) : Room :=
  let cv := s.vfOf c v
  if cv.deque.length + cv.dqResv.length < 32 then .ok s none else s.spillOldest c v

/-- Whether a deque takes one more record now. -/
def State.dqTakes (s : State) (c v : Nat) : Bool :=
  match s.roomDq c v with
  | .ok _ _ => true
  | _ => false

/-- A place in the deque is reserved for slot `k` (R239); a reservation it holds already stands. -/
def State.reserveDq (s : State) (c v k : Nat) : Room :=
  if (s.vfOf c v).dqResv.elem k then .ok s none
  else
    match s.roomDq c v with
    | .ok s' _ => .ok (s'.modVf c v fun cv => { cv with dqResv := cv.dqResv ++ [k] }) none
    | r => r

/-- A record is pushed at the bottom. -/
def State.pushRec (s : State) (c v : Nat) (r : TaskRec) : State := s.modVf c v fun cv => { cv with deque := cv.deque ++ [r] }

/-- The bottom record of the hardware deque is taken (R22). -/
def State.popRec (s : State) (c v : Nat) : Option (State × TaskRec) :=
  let cv := s.vfOf c v
  match cv.deque.getLast? with
  | none => none
  | some r => some (s.modVf c v fun cv => { cv with deque := cv.deque.dropLast }, r)

/-- The top record of a deque is taken by a steal, from the spill area if it holds records (R23, R240), from the hardware deque where they cannot be
translated (R241); the thief's carried store must have room for what is bound to it (R268). -/
def State.stealRec (s : State) (victim v thief : Nat) : State × Option TaskRec :=
  let fits (r : TaskRec) : Bool := s.carriedUsed thief v + r.bound.length ≤ 64
  let fromDeque (s : State) : State × Option TaskRec :=
    match (s.vfOf victim v).deque with
    | [] => (s, none)
    | r :: rest => if fits r then (s.modVf victim v fun cv => { cv with deque := rest }, some r) else (s, none)
  match (s.vfOf victim v).spilled with
  | [] => fromDeque s
  | r :: rest =>
    match s.readRec victim v 0 r with
    | (s', none, true) => fromDeque s'
    | (s', none, false) => (s', none)
    | (s', some r', _) =>
      if fits r' then
        (s'.modVf victim v fun cv => { cv with spilled := rest, dqHead := (cv.dqHead + 1) % 2 ^ field cv.dqspill 63 58 }, some r')
      else (s, none)

/-! ## The end of an activity (R149, R242) -/

/-- The slot holds no activity (R149 step 4). -/
def State.endActivity (s : State) (c k : Nat) : State := s.modSlot c k Slot.cleared

/-- The activity in slot `k` ends once no COPY status is owed to it (R149, R252). -/
def State.finish (s : State) (c k : Nat) : State :=
  if (s.slotOf c k).pendRegs.any fun p => !p.2 then s.modSlot c k fun x => { x with status := .wait .exiting }
  else s.endActivity c k

/-- FORK's record is pushed after the join's add, with every marked entry bound to it (R239, R268). -/
def State.forkPush (s : State) (r : TaskRec) : State :=
  let mine := (s.obsOf s.core s.slot).filter fun o => o.marked
  let s := s.modCore s.core fun co => { co with obs := co.obs.filter fun o => !(o.holder == s.slot && o.marked) }
  let s := s.modVf s.core s.bankVf fun cv => { cv with dqResv := cv.dqResv.erase s.slot }
  ((s.pushRec s.core s.bankVf { r with bound := mine.map fun o => { o with marked := false } }).putP 0 0xFFFF).retire

/-- The add of a FORK at the home of its join (R239). -/
def State.actForkJoin (s : State) (sa : Word) (pa : Nat) (r : TaskRec) : State :=
  let w0 := s.mem.word pa
  match syncType w0 with
  | some .join =>
    let rank : BitVec 56 := (s.mem.word (pa + 8)).setWidth 56
    let s := (s.syncUpdate s.core s.slot pa (withValue w0 (min (field w0 47 0 + 1) (2 ^ 48 - 1)))).syncBump s.bankVf pa fun n => n + 1
    s.forkPush { r with arrive := some (boundObj s.core sa, rank) }
  | _ => (s.modVf s.core s.bankVf fun cv => { cv with dqResv := cv.dqResv.erase s.slot }).trap .sykind sa

/-- The obligation a FORK gave the activity (R242). -/
def State.forkOb (s : State) (c k : Nat) : Option Oblig := (s.obsOf c k).find? fun o => o.fromFork

/-- The arrival of a TASKEND at its join, and the end of the activity (R242). -/
def State.actTaskArrive (s : State) (sa : Word) (pa : Nat) : State :=
  let w0 := s.mem.word pa
  match syncType w0 with
  | some .join =>
    let s := (s.syncUpdate s.core s.slot pa (withValue w0 (field w0 47 0 - 1))).syncBump s.bankVf pa fun n => n - 1
    let s := match s.forkOb s.core s.slot with
      | some o => let (s, o) := s.recallOb s.core s.slot o; s.dropOb s.core o
      | none => s
    s.finish s.core s.slot
  | _ => s.trap .sykind sa

/-! ## Requests at the homes of words (R178) -/

/-- A request of the issuing slot that needs no device and no cache is performed at its home. -/
def State.actHome (s : State) : Req → State
  | .lds d ea pa pr rank => s.actLds d ea pa pr rank
  | .vlds d todo rank => s.actVlds d todo rank
  | .vldsWord w => s.actVldsWord w
  | .take d ea pa pr obj rank => s.actTake d ea pa pr obj rank
  | .takenb d ea pa pr obj rank => s.actTakenb d ea pa pr obj rank
  | .put v ea pa obj => s.actPut v ea pa obj
  | .fill pa obj => s.actFill pa obj
  | .empty pa => s.actEmpty pa
  | .festat d pa pr => s.actFestat d pa pr
  | .syinit sa pa obj rank w0 owe d => s.actSyinit sa pa obj rank w0 owe d
  | .syadd sa pa obj v => s.actSyadd sa pa obj v
  | .syarrive d sa pa obj => s.actSyarrive d sa pa obj
  | .sywait d sa pa t m => s.actSywait d sa pa t m
  | .syread d sa pa w => s.actSyread d sa pa w
  | .syret sa pa _ => s.actSyret sa pa
  | .obowe sa pa obj => s.actObowe sa pa obj
  | .obrank d sa pa => s.actObrank d sa pa
  | .forkJoin sa pa r => s.actForkJoin sa pa r
  | .taskArrive sa pa => s.actTaskArrive sa pa
  | .load _ _ _ _ _ _ | .vload _ _ _ | .flush _ | .rld _ _ _ _ _ | .devLoad _ _ _ | .devStore _ _ _ | .devLanes _ _ => s

end Sys2Proof.Machine
end

