-- ==== Sys2Proof/Machine/Operands.lean ====
section
/-! DEFINITION. The operand forms: immediates, effective addresses, elements of vectors, and system registers as words
(R52, R96 to R105, R121, R134, R195). -/

namespace Sys2Proof.Machine

/-- A sign-extended immediate (R108). -/
def simm {n : Nat} (x : BitVec n) : Word := x.signExtend 64

/-- A zero-extended immediate (R108). -/
def uimm {n : Nat} (x : BitVec n) : Word := x.setWidth 64

/-- A distance in 2-byte units from the instruction's address (R142). -/
def State.target2 (s : State) {n : Nat} (dist : BitVec n) : Word := s.cur.pc + 2 * simm dist

/-- The effective address of a base and an offset in units (R195). -/
def State.ea (s : State) (base : SSrc) (off : BitVec 30) (unit : Nat) : Word := s.ssrc base + simm off * BitVec.ofNat 64 unit

/-- A vector computed lane by lane from one. -/
def mapLanes (f : Lane → Lane) (a : Vec) : Vec := ofLanes fun i => f (lane a i)

/-- A vector computed lane by lane from two. -/
def zipLanes (f : Lane → Lane → Lane) (a b : Vec) : Vec := ofLanes fun i => f (lane a i) (lane b i)

/-- Element `k` of width `w` of a vector (R121). -/
def elem (v : Vec) (w k : Nat) : Nat := v.toNat / 2 ^ (w * k) % 2 ^ w

/-- A vector with element `k` of width `w` replaced. -/
def setElem (v : Vec) (w k x : Nat) : Vec :=
  BitVec.ofNat 512 (v.toNat - elem v w k * 2 ^ (w * k) + x % 2 ^ w * 2 ^ (w * k))

/-- Writes acting elements of part `p` of a narrow register (R122, R134): every other bit keeps its value; the lanes that hold an
acting element are written. -/
def State.putElems (s : State) (lat : Nat) (d : Reg) (m : BitVec 16) (w p : Nat) (f : Nat → Nat) : State :=
  let acting := lanesOf m
  let v := acting.foldl (fun v i => setElem v w (16 * p + i) (f i)) (s.vreg d)
  s.putV lat d (BitVec.ofNat 16 (acting.foldl (fun k i => k ||| 2 ^ (w * (16 * p + i) / 32)) 0)) v

/-! ## System registers (R96) -/

/-- TSTAT as a word (R98). -/
def Slot.tstat (x : Slot) : Word :=
  BitVec.ofNat 64 (x.pl.toNat + (if x.md then 4 else 0) + x.ppl.toNat * 16 + (if x.pmd then 64 else 0) + if x.ih then 128 else 0)

/-- The fields LOG2N and BASE of a spill register (R103). -/
def spillBits (v : Word) : Word := v &&& 0xFDFFFFFFFFFFFFFF

/-- What MFS reads in the issue cycle (R95 to R97, R120). -/
def State.readSys (s : State) : SysReg → Word
  | .tstat => s.cur.tstat
  | .tcause => s.cur.tcause.setWidth 64
  | .tepc => s.cur.tepc
  | .tval => s.cur.tval
  | .tvec => s.cur.tvec
  | .fpflags => s.cur.fpflags.setWidth 64
  | .ls => s.cur.ls
  | .le => s.cur.le
  | .lc => s.cur.lc
  | .fmta => s.cur.fmta.setWidth 64
  | .fmtb => s.cur.fmtb.setWidth 64
  | .scla => s.cur.scla
  | .sclb => s.cur.sclb
  | .dtab => s.cur.qtab.setWidth 64
  | .obmin => (s.obmin s.core s.slot).setWidth 64
  | .obcnt => BitVec.ofNat 64 (s.obcnt s.core s.slot)
  | .obspill => s.cur.obspill
  | .guard => s.cur.guard
  | .dqspill => s.curVf.dqspill
  | .hbi => s.cur.hbi.setWidth 64
  | .hbc => s.cur.hbc.setWidth 64
  | .maxpt => s.cur.maxpt.setWidth 64
  | .ptc => s.cur.ptc.setWidth 64
  | .member => s.cur.member.setWidth 64
  | .gangw => s.cur.gangw.setWidth 64
  | .gangh => s.cur.gangh.setWidth 64
  | .stage => s.cur.stage.setWidth 64
  | .coreid => BitVec.ofNat 64 s.core
  | .vfid => BitVec.ofNat 64 s.bankVf
  | .tenant => s.cur.tenant.setWidth 64
  | .slotno => BitVec.ofNat 64 s.slot
  | .sigacc => s.cur.sigPrev.setWidth 64

/-- The write level of a register: 0 U, 1 S, 2 F (R96). -/
def sysLevel : SysReg → Nat
  | .tstat | .tcause | .tval => 2
  | .fmta | .fmtb | .scla | .sclb | .obspill | .guard | .dqspill | .hbi | .maxpt => 1
  | _ => 0

/-- What MTS writes into the slot: the RW fields (R96, R98 to R104, R120). A register without a write level keeps its value. DESIGN CHOICE
(log 68): GUARD keeps a HANDLE written beside SUP = 1. -/
def Slot.writeSys (x : Slot) (n : SysReg) (v : Word) : Slot :=
  match n with
  | .tstat => { x with ih := bit v 7, ppl := v.extractLsb' 4 2 }
  | .tcause => { x with tcause := v.setWidth 8 }
  | .tepc => { x with tepc := addrBits v }
  | .tval => { x with tval := v }
  | .tvec => { x with tvec := addrBits v }
  | .fpflags => { x with fpflags := v.setWidth 5 }
  | .ls => { x with ls := addrBits v }
  | .le => { x with le := addrBits v }
  | .lc => { x with lc := v }
  | .fmta => { x with fmta := v.setWidth 4 }
  | .fmtb => { x with fmtb := v.setWidth 4 }
  | .scla => { x with scla := ptrScale v }
  | .sclb => { x with sclb := ptrScale v }
  | .dtab => { x with qtab := v.setWidth 3 }
  | .obspill => { x with obspill := spillBits v, spillBad := false }
  | .guard => { x with guard := guardBits v }
  | .hbi => { x with hbi := v.setWidth 32 }
  | .maxpt => { x with maxpt := v.setWidth 32 }
  | .sigacc => { x with sigacc := v.setWidth 16 }
  | .dqspill | .obmin | .obcnt | .hbc | .ptc | .member | .gangw | .gangh | .stage | .coreid | .vfid | .tenant | .slotno => x

/-- MTS after its checks (R103, R120): OBSPILL keeps its value while entries are spilled in its area; DQSPILL lands as the shared
register it is; FPFLAGS loses the flags of every earlier instruction, which have landed (R95, R99). -/
def State.writeSys (s : State) (n : SysReg) (v : Word) : State :=
  match n with
  | .dqspill => s.land 3 { cycle := 0, slot := 0, vf := 0, reg := 0, scalar := some (spillBits v), dq := true }
  | .obspill =>
    if (s.obsOf s.core s.slot).any fun o => o.spill.isSome then s else s.modCur fun x => x.writeSys n v
  | _ => s.modCur fun x => x.writeSys n v

end Sys2Proof.Machine
end

