-- ==== Sys2Proof/Machine/Flags.lean ====
section
/-! DEFINITION. The shapes of a result with its flags: predicates written by compares, FPFLAGS gathered over acting lanes, and the
results of fixed latency (R83, R99, R109, R118, R122, R127). -/

namespace Sys2Proof.Machine

/-- A scalar compare writes all 16 bits alike (R118). -/
def allBits (b : Bool) : BitVec 16 := if b then 0xFFFF else 0

/-- The predicate whose bit `i` is `f i` (R127). -/
def predOf (f : Nat → Bool) : BitVec 16 :=
  BitVec.ofNat 16 ((List.range 16).foldl (fun n i => if f i then n ||| 2 ^ i else n) 0)

/-- The bits of a mask taken from another predicate (R122). -/
def mergeBits (m old new : BitVec 16) : BitVec 16 := (new &&& m) ||| (old &&& ~~~ m)

/-- The union of the flags of the acting lanes (R83). -/
def unionFlags (m : BitVec 16) (f : Nat → FFlags) : FFlags := (lanesOf m).foldl (fun a i => a ||| f i) 0

/-- Flags are only set (R99). -/
def State.addFlags (s : State) (f : FFlags) : State := s.modCur fun x => { x with fpflags := x.fpflags ||| f }

/-- A scalar result of fixed latency (R19, R109). -/
def scalarResult (g : Pred) (s : State) (lat : Nat) (d : Reg) (v : Word) : Out :=
  guarded g s (.next (s.putS lat d v).retire)

/-- A predicate result, of latency 2 or 3. -/
def predResult (g : Pred) (s : State) (d : PReg) (v : BitVec 16) : Out := guarded g s (.next (s.putP d v).retire)

/-- The result of a divide, which lands when the divider replies (R110). -/
def divideResult (g : Pred) (s : State) (d : Reg) (v : Word) : Out := guarded g s (.next (s.wait (.divide d v)))

/-- A vector result of fixed latency in the acting lanes (R122, R123). -/
def vectorResult (g : Pred) (s : State) (lat : Nat) (d : Reg) (v : Vec) : Out :=
  guarded g s (.next (s.putV lat d (s.mask g) v).retire)

/-- A vector compare: the acting bits of the destination (R122, R127). -/
def maskResult (g : Pred) (s : State) (d : PReg) (f : Nat → Bool) : Out :=
  guarded g s (.next (s.putP d (mergeBits (s.mask g) (s.preg d) (predOf f))).retire)

/-- A float result: values and flags of the acting lanes (R83, R122). -/
def floatResult (g : Pred) (s : State) (lat : Nat) (d : Reg) (f : Nat → Lane × FFlags) : Out :=
  guarded g s (.next ((s.putV lat d (s.mask g) (ofLanes fun i => (f i).1)).addFlags
    (unionFlags (s.mask g) fun i => (f i).2)).retire)

/-- A float compare: the acting bits of the destination, and flags (R131). -/
def floatMask (g : Pred) (s : State) (d : PReg) (f : Nat → Bool) (fl : Nat → FFlags) : Out :=
  guarded g s (.next ((s.putP d (mergeBits (s.mask g) (s.preg d) (predOf f))).addFlags (unionFlags (s.mask g) fl)).retire)

/-- VFDIV and VFSQRT: the result lands when the divider replies (R123). -/
def floatDivide (g : Pred) (s : State) (d : Reg) (f : Nat → Lane × FFlags) : Out :=
  guarded g s (.next (s.wait (.vdivide d (s.mask g) (ofLanes fun i => (f i).1) (unionFlags (s.mask g) fun i => (f i).2))))

/-- A narrowing conversion: acting elements of a part, and flags (R134, R135). -/
def narrowResult (g : Pred) (s : State) (lat : Nat) (d : Reg) (w p : Nat) (f : Nat → Nat × FFlags) : Out :=
  guarded g s (.next ((s.putElems lat d (s.mask g) w p fun i => (f i).1).addFlags
    (unionFlags (s.mask g) fun i => (f i).2)).retire)

end Sys2Proof.Machine
end

