-- ==== Sys2Proof/Machine/Image.lean ====
section
/-! DEFINITION. The saved image of an activity: the words of its context block, and what a reply that comes after the save does to it (R300, R338 to
R340). -/

namespace Sys2Proof.Machine

/-! ## The context block (R339, R340) -/

/-- The system registers of a context block, in number order (R340). -/
def ctxRegs : List SysReg :=
  [.tstat, .tcause, .tepc, .tval, .tvec, .fpflags, .ls, .le, .lc, .fmta, .fmtb, .scla, .sclb, .dtab,
   .obmin, .obcnt, .obspill, .guard, .hbi, .hbc, .maxpt, .ptc]

/-- A bit of a word, as a number. -/
def flagAt (b : Bool) (i : Nat) : Nat := if b then 2 ^ i else 0

/-- The marks of a context, word 0x18 (R340). -/
def Slot.marks (x : Slot) (reissue : Bool) : Word :=
  BitVec.ofNat 64 (flagAt x.ptgap.isSome 0 + flagAt x.missed 1 + flagAt x.hbPend 2 + flagAt x.barPhase.isSome 3 +
    x.barPhase.getD 0 % 256 * 16 + flagAt reissue 12 + flagAt x.replyFault.isSome 13)

/-- A list of words made `n` long. -/
def padTo (n : Nat) (l : List Word) : List Word := (l ++ List.replicate n 0).take n

/-- Words of 64 bits of a vector. -/
def vecWords (v : Vec) : List Word := (List.range 8).map fun j => v.extractLsb' (64 * j) 64

/-- The 1,024 words of the context block of slot `k` (R340). -/
def State.ctxWords (s : State) (c k reason : Nat) (reissue : Bool) : List Word :=
  let x := s.slotOf c k
  let s' := s.at c k
  let pend := x.pendRegs.foldl (fun n p => n ||| 2 ^ p.1.toNat) 0
  let pw (j : Nat) : Word :=
    BitVec.ofNat 64 (leNat ((List.range 4).flatMap fun i => leBytes 2 (s'.preg (BitVec.ofNat 3 (4 * j + i))).toNat))
  [BitVec.ofNat 64 (0x43580001 + reason * 2 ^ 32), s.handleOf c k, x.pc, x.marks reissue] ++
  (List.range 4).map (fun n => (x.mb.look n).getD 0) ++
  [BitVec.ofNat 64 (x.mbFull.toNat + (match x.mbTag with
    | some d => 16 + d.toNat * 32
    | none => 0)),
   BitVec.ofNat 64 pend, BitVec.ofNat 64 x.sendq.length,
   match x.replyFault with
    | some f => f.1.code.setWidth 64
    | none => 0] ++
  ctxRegs.map (fun n => s'.readSys n) ++ [x.sigacc.setWidth 64, x.vcyc] ++
  [pw 0, pw 1, match x.replyFault with
    | some f => f.2
    | none => 0, 0] ++
  (List.range 32).map (fun n => (x.s.look n).getD 0) ++
  (List.range 32).flatMap (fun n => vecWords ((x.v.look n).getD 0)) ++
  padTo 256 ((byRank ((s.obsOf c k).filter fun o => o.spill.isNone)).flatMap fun o =>
    [o.obj, BitVec.ofNat 64 (kindCode o.kind * 2 ^ 56 + o.rank.toNat)]) ++
  padTo 64 (x.sendq.flatMap fun m => vecWords m.data) ++
  List.replicate 376 0

/-- The place of the context block of slot `k` of core `c` (R339): none when the tenant's area is not valid. -/
def State.ctxPlace (s : State) (v tenant c k : Nat) : Option Nat :=
  let a := s.pfReg (0xA800 + 0x100 * v + 8 * tenant)
  if bit a 0 then
    some (field a 51 30 * 2 ^ 30 + 0x180000000 + (14 * (1536 * dieOf c + 48 * yOf c + xOf c) + k - 1) * 8192)
  else none

/-- The words of a context block that a change of the saved image changes are written (R338). -/
def State.patchCtx (s : State) (v tenant c k : Nat) (old new : List Word) : State :=
  match s.ctxPlace v tenant c k with
  | none => s
  | some a =>
    let put (s : State) (p : Nat × Word × Word) : State := if p.2.1 = p.2.2 then s else s.storeWords v (a + 8 * p.1) [p.2.2]
    ((List.range 1024).zip (old.zip new)).foldl put s

/-- The context block of a slot as memory holds it: none without a valid area, or without its magic. DESIGN CHOICE (log 30): a poisoned word is
restored as it stands. -/
def State.ctxBlock (s : State) (v tenant c k : Nat) : Option (List Word) :=
  (s.ctxPlace v tenant c k).bind fun a =>
    if field (s.mem.word a) 31 0 = 0x43580001 then some ((List.range 1024).map fun i => s.mem.word (a + 8 * i)) else none

/-- The core's landing writes of VF `v` take effect at once (R309). -/
def State.landAll (s : State) (c v : Nat) : State :=
  s.modCore c fun co =>
    let mine := (co.landing.filter fun w => w.vf == v).foldl (fun acc w => landInsert w acc) []
    { mine.foldl Core.settle1 co with landing := co.landing.filter fun w => w.vf != v }

/-! ## Late replies (R338) -/

/-- The cause with a code, among those a late reply can report (R338). -/
def lateCause (code : Byte) : Cause :=
  if code = Cause.tskind.code then .tskind else if code = Cause.tspark.code then .tspark else .poison

/-- Acts on a saved activity as if it stood in its slot, with its obligations and its shared bank, puts everything back, and changes its context block
with it (R338); an activity that the act kills has no context (R338). `late` is the reply still to come; an act that leaves the activity waiting leaves its instruction to issue again. -/
def State.inImage (s : State) (sv : Saved) (late : Option Wait) (f : State → State) : State :=
  let c := sv.core
  let k := sv.slot
  let old := s.slotOf c k
  let oldObs := s.obsOf c k
  let oldVf := s.vfOf c sv.vf
  let oldLand := (s.coreOf c).landing
  let tc := s.tcores.find? fun t => t.vf == sv.vf && t.tenant == sv.tenant && t.core == c
  let swap (s : State) (l : List Oblig) (g : List Landing) : State :=
    s.modCore c fun co => { co with obs := (co.obs.filter fun o => o.holder != k) ++ l.map fun o => { o with holder := k }, landing := g }
  let s1 := swap ((s.setSlot c k sv.act).modVf c sv.vf fun _ => ((tc.map fun t => t.cv).getD oldVf)) sv.obs []
  let s2 := (f s1).landAll c sv.vf
  let y := s2.slotOf c k
  let again := late.isSome || match y.status with
    | .wait _ => true
    | _ => false
  let sv' := { sv with act := { y with status := .run }, obs := s2.obsOf c k, late := late }
  let s2' := if !y.holds then s2 else s2.patchCtx sv.vf sv.tenant c k (s1.ctxWords c k sv.reason sv.late.isSome) (s2.ctxWords c k sv.reason again)
  let cv' := s2.vfOf c sv.vf
  let s3 := swap ((s2'.setSlot c k old).modVf c sv.vf fun _ => if tc.isSome then oldVf else cv') oldObs oldLand
  { s3 with saved := s3.saved.map fun x => if x = sv then sv' else x,
            tcores := s3.tcores.map fun t => if some t = tc then { t with cv := cv' } else t }

/-- A reply that landed in the image: a fault it reports is recorded, and the image keeps its registers and its pc (R338). -/
def Slot.lateResult (old new : Slot) : Slot :=
  if new.ih then { old with status := .run, ih := old.ih, replyFault := some (lateCause new.tcause, new.tval) }
  else { new with status := .run, ih := old.ih, lc := if old.ih then old.lc else new.lc }

/-- A reply does to the saved image what it would do to the waiting activity (R338). -/
def State.lateReply (s : State) (sv : Saved) (f : State → State) : State :=
  let c := sv.core
  let k := sv.slot
  s.inImage sv none fun s =>
    let x := s.slotOf c k
    let s := s.setSlot c k { x with status := (sv.late.map Status.wait).getD x.status, ih := false, lc := if x.ih then 0 else x.lc }
    (s.asSlot c k f).modSlot c k fun y => x.lateResult y

/-- A slice's reply reaches the activity that asked, in its slot or in its saved image (R300): the tenant that stands in the slot meanwhile is not the
one that asked. -/
def State.tell (s : State) (e : TsEntry) (f : State → State) : State :=
  let x := s.slotOf e.core e.slot
  if x.holds && x.gen = e.gen then s.asSlot e.core e.slot f
  else
    match s.saved.find? fun y => y.core == e.core && y.slot == e.slot && y.act.gen == e.gen with
    | some y => s.lateReply y f
    | none => s

/-- The tuple requests of an activity that has left its slot leave their slices (R300). -/
def State.dropTs (s : State) (c k : Nat) (gen : BitVec 32) : State :=
  { s with ts := s.ts.filter fun t => t.device || !(t.core == c && t.slot == k && t.gen == gen) }

/-- No reply is still to come to a saved activity: its instruction issues again (R300). -/
def State.lateOver (s : State) (c k : Nat) (gen : BitVec 32) : State :=
  { s with saved := s.saved.map fun y => if y.core = c && y.slot = k && y.act.gen = gen then { y with late := none } else y }

end Sys2Proof.Machine
end

