-- ==== Sys2Proof/Machine/Slices.lean ====
section
/-! DEFINITION. Tuple regions and slices: tuples, patterns, matching, parking, deposits and their service (R285 to R300). -/

namespace Sys2Proof.Machine

/-- The tag of a tuple or a pattern (R287). -/
def tagOf (t : Vec) : Lane := lane t 0

/-- Field `f`, 1 to 7 (R287). -/
def fieldOf (t : Vec) (f : Nat) : Word := t.extractLsb' (64 * f) 64

/-- A well-formed tuple (R287). -/
def tupleOk (t : Vec) : Bool :=
  let a := (lane t 1).toNat
  tagOf t != 0 && a < 8 && (List.range 7).all fun i => i + 1 ≤ a || fieldOf t (i + 1) == 0

/-- A well-formed pattern of values and masks (R288). -/
def patternOk (v m : Vec) : Bool :=
  tagOf v != 0 && tagOf m == 0xFFFFFFFF && (lane m 1 == 0 || lane m 1 == 7) && (lane v 1).toNat < 8

/-- Whether a tuple matches a pattern (R288); a poisoned tuple matches every pattern with its tag (R299). -/
def tupleMatch (v m t : Vec) (poisoned : Bool) : Bool :=
  tagOf t == tagOf v &&
    (poisoned ||
      ((lane m 1 == 0 || lane t 1 == lane v 1) &&
        (List.range 7).all fun i => (fieldOf t (i + 1) &&& fieldOf m (i + 1)) == (fieldOf v (i + 1) &&& fieldOf m (i + 1))))

/-- The home slice of a tag in a region (R289). -/
def homeSlice (n : Nat) (tag : Lane) : Nat :=
  let x := (BitVec.ofNat 32 n) ^^^ tag
  ((x.extractLsb' 0 6 ^^^ x.extractLsb' 6 6) ^^^ (x.extractLsb' 12 6 ^^^ x.extractLsb' 18 6) ^^^
    (x.extractLsb' 24 6 ^^^ (x.extractLsb' 30 2).setWidth 6)).toNat

/-- The rank of a tag in a region's rank class (R285). -/
def tupleRank (cls : BitVec 16) (tag : Lane) : BitVec 56 := (cls.setWidth 56 <<< 40) ||| (tag.setWidth 56 <<< 8)

/-- The TUPLE object of a tag in a region (R263, R297). -/
def tupleObj (n : Nat) (tag : Lane) : Word := (tag.setWidth 64 <<< 32) ||| BitVec.ofNat 64 n

/-! ## Regions in memory (R286) -/

/-- The header's address of a region. -/
def regionPa (n : Nat) : Nat := n * 4096

/-- Check 6 of R294: the header is that of region `n` and of VF `v`. -/
def State.regionLive (s : State) (n v : Nat) : Bool :=
  let a := regionPa n
  field (s.mem.word a) 31 0 = 0x54530001 && field (s.mem.word (a + 8)) 31 0 = n && field (s.mem.word (a + 8)) 35 32 = v

/-- Whether a region's header holds the magic value (R285). -/
def State.regionExists (s : State) (n : Nat) : Bool := field (s.mem.word (regionPa n)) 31 0 = 0x54530001

/-- Entries per slice. -/
def State.sliceCap (s : State) (n : Nat) : Nat := field (s.mem.word (regionPa n)) 63 32

/-- The address of entry `i` of slice `j`. -/
def State.entryPa (s : State) (n j i : Nat) : Nat := regionPa n + 0x1000 + (j * s.sliceCap n + i) * 128

/-- Writes by a slice: no slot's, on the region's die. -/
def State.sliceWrite (s : State) (n pa : Nat) (bs : List Byte) : State :=
  (s.perform (coreAt (homeDie (regionPa n)) 0 0) 17 (cellsOf pa bs)).flushInvals (coreAt (homeDie (regionPa n)) 0 0) 17

/-- A slice's next sequence number, which rises (R290). -/
def State.takeSeq (s : State) (n j : Nat) : State × Nat :=
  let a := regionPa n + 0x40 + 16 * j
  let q := (s.mem.word a).toNat
  (s.sliceWrite n a (leBytes 8 (q + 1)), q)

/-- Changes a slice's stored count. -/
def State.bumpStored (s : State) (n j : Nat) (up : Bool) : State :=
  let a := regionPa n + 0x48 + 16 * j
  let q := leNat (s.mem.bytes a 4)
  s.sliceWrite n a (leBytes 4 (if up then q + 1 else q - 1))

/-- A stored tuple: its entry, sequence number, and whether it is poisoned (R299). -/
structure Stored where
  index : Nat
  seq : Nat
  tuple : Vec
  poisoned : Bool
  deriving DecidableEq, Repr

/-- The entry `i` of a slice, if it is valid. -/
def State.storedAt (s : State) (n j i : Nat) : Option Stored :=
  let a := s.entryPa n j i
  let st := s.mem.word (a + 0x48)
  if bit st 0 then
    some ⟨i, (s.mem.word (a + 0x40)).toNat, BitVec.ofNat 512 (leNat (s.mem.bytes a 64)), bit st 1 || wordsHit s.poison a 128⟩
  else none

/-- The stored tuples of a slice. -/
def State.storedAll (s : State) (n j : Nat) : List Stored := (List.range (s.sliceCap n)).filterMap fun i => s.storedAt n j i

/-- The first free entry of a slice. -/
def State.freeEntry (s : State) (n j : Nat) : Option Nat :=
  (List.range (s.sliceCap n)).find? fun i => (s.storedAt n j i).isNone

/-- A tuple is stored in entry `i`. -/
def State.storeAt (s : State) (n j i seq : Nat) (t : Vec) (poisoned : Bool) : State :=
  (s.sliceWrite n (s.entryPa n j i)
    (leBytes 64 t.toNat ++ leBytes 8 seq ++ leBytes 8 (if poisoned then 3 else 1) ++ leBytes 48 0)).bumpStored n j true

/-- Entry `i` is freed. -/
def State.freeAt (s : State) (n j i : Nat) : State :=
  (s.sliceWrite n (s.entryPa n j i + 0x48) (leBytes 8 0)).bumpStored n j false

/-! ## The parked-request table (R291) -/

/-- Removes a tuple request. -/
def State.tsDrop (s : State) (e : TsEntry) : State := { s with ts := s.ts.erase e }

/-- Entries of a slice's PRT in use, on the region's die. -/
def State.prtUsed (s : State) (n j : Nat) : Nat :=
  (s.ts.filter fun e => e.parked && !e.device && e.slice == j && homeDie (regionPa e.region) == homeDie (regionPa n)).length

/-- A reply that reports a fault to the activity that asked (R294, R300). -/
def State.tellTrap (s : State) (e : TsEntry) (cause : Cause) (tval : Word) : State :=
  s.tell e fun s => (s.freeResv s.core s.slot).trap cause tval

/-- A reply that writes a scalar register of the activity that asked. -/
def State.tellS (s : State) (e : TsEntry) (d : Reg) (v : Word) : State := s.tell e fun s => (s.putS 0 d v).retire

/-- A request parks at the tail of arrival order; that of an activity saved meanwhile is withdrawn (R300). -/
def State.tsPark (s : State) (e : TsEntry) (seq : Nat) (rank : BitVec 56) : State :=
  let s' := { s.tsDrop e with ts := (s.tsDrop e).ts ++ [{ e with parked := true, seq := seq }] }
  if e.device then s'
  else if (s.slotOf e.core e.slot).gen ≠ e.gen then s.tsDrop e
  else (s'.count e.core e.vf 15).modSlot e.core e.slot fun x => { x with status := .wait (.tupleParked rank) }

/-- A tuple is delivered to a request (R296): its registers, or POISON at the instruction (R299). -/
def State.tsGive (s : State) (e : TsEntry) (t : Vec) (poisoned : Bool) : State :=
  let s := s.tsDrop e
  match e.req with
  | .copy d _ _ nb | .take d _ _ nb =>
    if poisoned then s.tellTrap e .poison e.sr
    else s.tell e fun s => ((if nb then s.putP 0 0xFFFF else s).putV 0 d 0xFFFF t).retire
  | _ => s

/-- A deposit is served (R295): the holder's obligation on its tag is discharged, and the instruction completes. -/
def State.tsDone (s : State) (e : TsEntry) : State :=
  let s := s.tsDrop e
  if e.device then s
  else
    match e.req with
    | .put t _ ob =>
      s.tell e fun s => (if ob then (s.discharge s.core s.slot .tuple (tupleObj e.region (tagOf t))).1 else s).retire
    | _ => s

/-- The values and masks of a request, if it takes or copies. -/
def TsReq.pattern : TsReq → Option (Vec × Vec)
  | .copy _ v m _ | .take _ v m _ | .count _ v m => some (v, m)
  | _ => none

/-- Whether a parked request of a region's slice matches a tuple. -/
def TsEntry.wants (e : TsEntry) (n j : Nat) (t : Vec) (poisoned takes : Bool) : Bool :=
  e.parked && e.region == n && e.slice == j &&
    match e.req with
    | .copy _ v m _ => !takes && tupleMatch v m t poisoned
    | .take _ v m _ => takes && tupleMatch v m t poisoned
    | _ => false

/-- A tuple is offered to the parked requests (R292): every matching copy, then the earliest matching take; the flag says
whether it was taken. -/
def State.tsOffer (s : State) (n j : Nat) (t : Vec) (poisoned : Bool) : State × Bool :=
  let s := (s.ts.filter fun e => e.wants n j t poisoned false).foldl (fun s e => s.tsGive e t poisoned) s
  match s.ts.find? fun e => e.wants n j t poisoned true with
  | some e => (s.tsGive e t poisoned, true)
  | none => (s, false)

/-- The deposits that wait for space in a slice, in arrival order. -/
def State.waitingPuts (s : State) (n j : Nat) : List TsEntry :=
  s.ts.filter fun e => e.parked && e.region == n && e.slice == j &&
    match e.req with
    | .put _ _ _ => true
    | _ => false

/-- The tuple of a deposit. -/
def TsEntry.deposit (e : TsEntry) : Vec × Bool :=
  match e.req with
  | .put t p _ => (t, p)
  | _ => (0, false)

/-- Space has been freed in a slice: waiting deposits are offered and stored in order while space lasts (R292). -/
def State.tsAdmit (s : State) (n j : Nat) : Nat → State
  | 0 => s
  | fuel + 1 =>
    match s.waitingPuts n j, s.freeEntry n j with
    | e :: _, some i =>
      let (t, p) := e.deposit
      match s.tsOffer n j t p with
      | (s', true) => State.tsAdmit (s'.tsDone e) n j fuel
      | (s', false) => State.tsAdmit ((s'.storeAt n j i e.seq t p).tsDone e) n j fuel
    | _, _ => s

/-- A deposit at its slice (R292, R295, R299). -/
def State.tsDeposit (s : State) (e : TsEntry) : State :=
  let n := e.region
  let j := e.slice
  let (t, p) := e.deposit
  let (s, seq) := s.takeSeq n j
  match s.tsOffer n j t p with
  | (s', true) => s'.tsDone e
  | (s', false) =>
    match s'.waitingPuts n j, s'.freeEntry n j with
    | [], some i => (s'.storeAt n j i seq t p).tsDone e
    | _, _ =>
      if !e.device && 1024 ≤ s'.prtUsed n j then (s'.tsDrop e).tellTrap e .tspark 0
      else s'.tsPark e seq e.rank

/-- The candidate of a pattern: the matching stored tuple or waiting deposit with the lowest sequence number (R292). -/
def State.tsCandidate (s : State) (n j : Nat) (v m : Vec) : Option (Nat × Vec × Bool × Option Nat × Option TsEntry) :=
  let st := ((s.storedAll n j).filter fun x => tupleMatch v m x.tuple x.poisoned).map fun x =>
    (x.seq, x.tuple, x.poisoned, some x.index, (none : Option TsEntry))
  let wt := ((s.waitingPuts n j).filter fun e => tupleMatch v m e.deposit.1 e.deposit.2).map fun e =>
    (e.seq, e.deposit.1, e.deposit.2, (none : Option Nat), some e)
  (st ++ wt).foldl (fun best x => match best with
    | none => some x
    | some b => if x.1 < b.1 then some x else some b) none

/-- A candidate leaves its slice with a take. -/
def State.tsRemove (s : State) (n j : Nat) (index : Option Nat) (dep : Option TsEntry) : State :=
  match index, dep with
  | some i, _ => let s := s.freeAt n j i; s.tsAdmit n j (s.ts.length + 1)
  | none, some e => s.tsDone e
  | none, none => s

/-- A request at its slice (R292, R296 to R298). -/
def State.tsServe (s : State) (e : TsEntry) : State :=
  let n := e.region
  let j := e.slice
  match e.req with
  | .put _ _ _ => s.tsDeposit e
  | .owe d tag =>
    (s.tsDrop e).tell e fun s =>
      ((s.addOb s.core s.slot { obj := tupleObj n tag, kind := .tuple, rank := e.rank }).putS 0 d (tupleObj n tag)).retire
  | .count d v m =>
    (s.tsDrop e).tellS e d (BitVec.ofNat 64 ((s.storedAll n j).filter fun x => tupleMatch v m x.tuple x.poisoned).length)
  | .copy _ v m nb | .take _ v m nb =>
    match s.tsCandidate n j v m with
    | some (_, t, p, index, dep) =>
      let takes := match e.req with
        | .take _ _ _ _ => true
        | _ => false
      let s := s.tsGive e t p
      if takes then s.tsRemove n j index dep else s
    | none =>
      if nb then (s.tsDrop e).tell e fun s => (s.putP 0 0).retire
      else if 1024 ≤ s.prtUsed n j then (s.tsDrop e).tellTrap e .tspark 0
      else s.tsPark e 0 e.rank

/-- A request arrives at the region's die: check 6 of R294, then its slice. Where the region's page is unavailable it joins the home's fault queue (R172). -/
def State.tsArrive (s : State) (e : TsEntry) : State :=
  if s.isUnavail (regionPa e.region) then
    if (s.slotOf e.core e.slot).gen = e.gen then s.parkAt (regionPa e.region) e.core e.slot .tuple else s
  else if !s.regionLive e.region e.vf then (s.tsDrop e).tellTrap e .tskind e.sr
  else s.tsServe e

/-- The request in flight of slot `k`. -/
def State.tsFlight (s : State) (c k : Nat) : Option TsEntry :=
  s.ts.find? fun e => !e.device && !e.parked && e.core == c && e.slot == k && e.gen == (s.slotOf c k).gen

/-- A poisoned deposit that the device makes (R299): nothing into a region that is no longer live (R281). -/
def State.deviceDeposit (s : State) (v n : Nat) (tag : Lane) : State :=
  if s.regionExists n then
    let e : TsEntry := { core := 0, slot := 0, device := true, vf := v, tenant := 0, sr := 0, region := n, slice := homeSlice n tag,
                         req := .put (BitVec.ofNat 512 tag.toNat) true false }
    { s with ts := s.ts ++ [e] }.tsDeposit e
  else s

end Sys2Proof.Machine
end

