-- ==== Sys2Proof/Machine/Contain.lean ====
section
/-! DEFINITION. Containment: poisoned discharges, orphans and guardians, bays handed on, abandoned handlers, kills, fences and VF
resets (R25, R218, R263, R268, R270, R335 to R342). -/

namespace Sys2Proof.Machine

/-! ## Places of objects -/

/-- The place of a virtual address of a tenant by a walk, outside the windows. -/
def State.virt (s : State) (v pasid : Nat) (va : Word) : Option Place :=
  match s.walkBoth v pasid va.toNat with
  | none => none
  | some e => some { pa := e.pa + va.toNat % 2 ^ e.bits, kind := e.kind, rankClass := e.rankClass, w := e.w, x := e.x, fe := e.fe,
                     pr := e.pr }

/-- The place of the word or slot an obligation's object names (R263). -/
def State.objPlace (s : State) (c v tenant : Nat) (obj : Word) : Option Place :=
  let (c', a) := unbind c obj
  if a.toNat < 0x2000000 then s.windowPlace c' v a.toNat else s.virt v (s.pasid v tenant) a

/-! ## Bays (R213, R217, R218) -/

/-- The physical number of a VF's accumulator (R212). -/
def State.physAcc (s : State) (v a : Nat) : Option Nat := (bitsOf (s.accMask v) 4)[a]?

/-- The object of a bay: bound to its core (R263). -/
def bayObj (c b : Nat) : Word := boundObj c (BitVec.ofNat 64 b)

/-- The rank of bay `b` (R214). -/
def State.bayRank (s : State) (c v b : Nat) : BitVec 56 := (s.vfOf c v).brb + BitVec.ofNat 56 b

/-- A bay passes to the head of its claim queue, which then owes the RELEASE, or becomes free (R217, R218). -/
def State.passBay (s : State) (c v b : Nat) (poisoned : Bool) : State :=
  match s.physBay v b with
  | none => s
  | some p =>
    let s := if poisoned then s.modBay c p fun x => { x with poison := true } else s
    match (s.bay c p).queue with
    | [] => s.modBay c p fun x => { x with claim := none }
    | k :: rest =>
      let s := s.modBay c p fun x => { x with claim := some (s.handleOf c k), queue := rest }
      (s.addOb c k { obj := bayObj c b, kind := .release, rank := s.bayRank c v b }).asSlot c k State.retire

/-! ## Poisoned discharge (R263, R281) -/

/-- A poisoned discharge on a sync slot: the slot's own change, with P set (R263). -/
def poisonedSync (kind : ObKind) (w0 : Word) : Option Word :=
  match syncType w0, kind with
  | some .signal, .signal => some (withPoison (withValue w0 (min (field w0 47 0 + 1) (2 ^ 48 - 1))))
  | some .barrier, .arrive => some (withPoison (arriveWord w0))
  | some .join, .arrive => some (withPoison (withValue w0 (field w0 47 0 - 1)))
  | _, _ => none

/-- An obligation of VF `v` is discharged with poison on core `c`, in the name of slot `k` (R263), or its write is held at a halted cluster (R358).
The obligation itself has left its holder. -/
def State.poisonOb (s : State) (c k v tenant : Nat) (o : Oblig) : State :=
  match o.kind with
  | .put =>
    match s.objPlace c v tenant o.obj with
    | none => s
    | some p =>
      if s.heldHome p.pa then s.holdPacket p.pa (.poison c k v tenant o)
      else if hasFE p.pa then (s.setPoison p.pa).serveWord p.pa
      else s
  | .signal | .arrive =>
    match s.objPlace c v tenant o.obj with
    | none => s
    | some p =>
      if s.heldHome p.pa then s.holdPacket p.pa (.poison c k v tenant o)
      else
        let s := match poisonedSync o.kind (s.mem.word p.pa) with
          | some w => s.syncUpdate c k p.pa w
          | none => s
        s.syncBump v p.pa fun n => n - 1
  | .reply =>
    let x := if field o.obj 56 45 = field (s.pfReg 0xB380) 11 0 then none else some (BitVec.ofNat 12 (field o.obj 56 45))
    let w : PostedReply := { token := o.obj, vf := v, value := none, xmod := x, tenant := tenant }
    s.modSlot c k fun x => { x with replies := x.replies ++ [w] }
  | .tuple => s.deviceDeposit v (field o.obj 31 0) (BitVec.ofNat 32 (field o.obj 63 32))
  | .release => s.passBay (unbind c o.obj).1 v (unbind c o.obj).2.toNat true

/-! ## Orphans and guardians (R270) -/

/-- The guardian handler of a launch (R348); no launch, or an offset of 0, gives 0. -/
def State.guardianOf (s : State) (l : Option Nat) : Word := ((l.bind fun i => s.launches.look i).map fun x => x.guardian).getD 0

/-- A message from words of 64 bits. -/
def vecOf (l : List Word) : Vec := BitVec.ofNat 512 (leNat (l.flatMap fun w => leBytes 8 w.toNat))

/-- One ORPHAN message (R270). -/
def orphanData (guardian : Word) (cause : Byte) (entries : List Oblig) (route : Bool) (gh kh : Word) : Vec :=
  let e (o : Oblig) : List Word := [o.obj, BitVec.ofNat 64 (kindCode o.kind * 2 ^ 56 + o.rank.toNat)]
  vecOf ([guardian, BitVec.ofNat 64 (cause.toNat + entries.length * 2 ^ 8 + if route then 2 ^ 16 else 0), gh, kh] ++
    entries.flatMap e)

/-- Obligations two by two. -/
def inPairs : List Oblig → List (List Oblig)
  | a :: b :: l => [a, b] :: inPairs l
  | [a] => [[a]]
  | [] => []

/-- A message the device sends from core `c` (R31): it counts in MSGSENT there. -/
def State.deviceSend (s : State) (c : Nat) (m : Msg) : State :=
  s.modVf c m.vf fun cv => { cv with devOut := cv.devOut ++ [m], msgSent := cv.msgSent + 1 }

/-- The ORPHAN messages for a list of obligations, in increasing rank, two to a message (R270). With the route bit they hold them. -/
def State.sendOrphans (s : State) (c v tenant target : Nat) (launch : Option Nat) (cause : Byte) (route : Bool) (gh kh : Word)
    (obs : List Oblig) : State :=
  (inPairs (byRank obs)).foldl
    (fun s l =>
      s.deviceSend c { data := orphanData (s.guardianOf launch) cause l route gh kh, src := BitVec.ofNat 64 (s.vfOf c v).member,
                       kind := .orphan, target := target, vf := v, tenant := tenant, launch := launch,
                       obs := if route then l.map fun o => { o with holder := 15, marked := false, spill := none, unwritten := false,
                                                                     carried := false }
                              else [] })
    s

/-- The member cores of the gang a core belongs to for VF `v`, by member index. -/
def State.gangCores (s : State) (c v : Nat) : List Nat :=
  let cv := s.vfOf c v
  match (cv.launch.bind fun l => s.launches.look l).bind fun l => l.stages[cv.stage]? with
  | none => []
  | some g => (List.range (g.w * g.h)).map fun m => coreAt g.die (g.x + m % g.w) (g.y + m / g.w)

/-- A report to the supervisor that a handler was abandoned (R25, R343). -/
def State.handlerReport (s : State) (c v tenant : Nat) (cause : Byte) (addr : Word) : State :=
  s.event v 0x66 cause.toNat c 15 tenant [addr]

/-- Obligations that an ORPHAN handler would have left: each is discharged with poison, and OBEXIT is reported (R270). -/
def State.poisonLeft (s : State) (c v tenant : Nat) (launch : Option Nat) (obs : List Oblig) : State :=
  if obs.isEmpty then s
  else (obs.foldl (fun s o => s.poisonOb c 15 v tenant o) s).handlerReport c v tenant Cause.obexit.code (s.guardianOf launch)

/-- The core whose guardian handler an ORPHAN of core `c` with the route bit goes to (R270): itself; where it is fenced, and would discard it, the first
other member of the gang that is not (R337; log 75). -/
def State.orphanCore (s : State) (c v : Nat) : Option Nat :=
  if (s.vfOf c v).fenced then (s.gangCores c v).find? fun m => m != c && !(s.vfOf m v).fenced else some c

/-- Obligations without a guardian pass to the supervisor, in ORPHAN messages, or where no core takes those, as an ORPHAN handler that discharges
nothing would leave them (R270 step 3, R337; log 75). -/
def State.toSupervisor (s : State) (c v tenant : Nat) (launch : Option Nat) (cause : Byte) (kh : Word) (obs : List Oblig) : State :=
  match s.orphanCore c v with
  | some t => s.sendOrphans c v tenant t launch cause true 0 kh obs
  | none => s.poisonLeft c v tenant launch obs

/-- Whether an obligation may move to the activity in slot `k` (R268). -/
def State.mayReceive (s : State) (c k : Nat) (o : Oblig) : Bool := !s.waitsAbove c k o.rank

/-- Obligations moved, all together, to an activity: none if any one is refused (R268, R270). -/
def State.moveAll (s : State) (c k : Nat) : List Oblig → Option State
  | [] => some s
  | o :: l =>
    if !s.mayReceive c k o then none
    else
      match (s.reclaim c k o).findRoom c k with
      | .ok s' i | .busy s' i _ => State.moveAll (s'.placeOb c k o i) c k l
      | .full _ => none

/-- The obligations of slot `k` leave it for its guardian (R270): the state, and how many there were. -/
def State.passObs (s : State) (c k : Nat) (cause : Byte) : State × Nat :=
  let s := s.recallObs c k
  let x := s.slotOf c k
  let obs := s.obsOf c k
  let v := x.vfid.toNat
  let kh := s.handleOf c k
  let s := s.modCore c fun co => { co with obs := co.obs.filter fun o => o.holder != k }
  if obs.isEmpty then (s, 0)
  else
    let orphaned := s.toSupervisor c v x.tenant.toNat x.launch cause kh obs
    let r :=
      if bit x.guard 63 then orphaned
      else
        match s.byHandle x.guard with
        | none => orphaned
        | some (gc, gk) =>
          if (s.slotOf gc gk).vfid.toNat ≠ v || (gc = c && gk = k) then orphaned
          else
            match s.moveAll gc gk (byRank obs) with
            | none => orphaned
            | some s' => s'.sendOrphans c v x.tenant.toNat gc x.launch cause false x.guard kh obs
    (r, obs.length)

/-! ## Handlers (R25, R247, R270) -/

/-- The handler slot becomes free and the message counts as received (R246). -/
def State.endHandler (s : State) (c v : Nat) : State :=
  (s.modVf c v fun cv => { cv with msgRecv := cv.msgRecv + 1 }).modSlot c 15 Slot.cleared

/-- Every obligation of the handler slot is discharged with poison by the device (R270). -/
def State.poisonAll (s : State) (c : Nat) : State :=
  let s := s.recallObs c 15
  let x := s.slotOf c 15
  let obs := s.obsOf c 15
  let s := s.modCore c fun co => { co with obs := co.obs.filter fun o => o.holder != 15 }
  obs.foldl (fun s o => s.poisonOb c 15 x.vfid.toNat x.tenant.toNat o) s

/-- The handler is abandoned (R25). -/
def State.abandonHandler (s : State) (c : Nat) (cause : Byte) : State :=
  let x := s.slotOf c 15
  let v := x.vfid.toNat
  let s := s.unlist c 15
  let s := if x.orphan then s.poisonAll c
    else
      let s := s.recallObs c 15
      let obs := s.obsOf c 15
      let kh := s.handleOf c 15
      (s.modCore c fun co => { co with obs := co.obs.filter fun o => o.holder != 15 }).toSupervisor c v x.tenant.toNat x.launch
        cause kh obs
  (s.handlerReport c v x.tenant.toNat cause x.hstart).endHandler c v

/-! ## Kills (R336) -/

/-- The kill of an activity that waits nowhere: its obligations pass on, the KILL record is written, and its slot leaves service for the scrub of its
registers. -/
def State.killAct (s : State) (c k : Nat) (r : KillRec) : State :=
  let x := s.slotOf c k
  let handle := s.handleOf c k
  let (s, n) := s.passObs c k r.cause.code
  let s := s.event x.vfid.toNat 0x67 r.cause.code.toNat c k x.tenant.toNat [r.tepc, r.tval, handle, BitVec.ofNat 64 n]
  s.modSlot c k fun x => { x.cleared with status := .scrub }

/-- An activity is killed: its wait is withdrawn, and then its kill acts. -/
def State.killSlot (s : State) (c k : Nat) (r : KillRec) : State := (s.unlist c k).killAct c k r

/-! ## Fences (R337) -/

/-- A general slot of VF `v` that holds an activity. -/
def State.liveSlots (s : State) (c v : Nat) : List Nat :=
  (s.ownSlots v).filter fun k => (s.slotOf c k).holds && (s.slotOf c k).vfid.toNat == v

/-- A SENDR whose message is discarded has its reply word written poisoned and set full (R337); the obligations that a discarded ORPHAN holds are left
(log 75). -/
def State.refuseReply (s : State) (c : Nat) (m : Msg) : State :=
  if m.kind = .sendr then
    s.poisonOb c 15 m.vf m.tenant { obj := m.data.extractLsb' 64 64, kind := .reply, rank := 0 }
  else s.poisonLeft c m.vf m.tenant m.launch m.obs

/-- The deque and spill ring of a VF on a core are discarded: what is bound to their records passes to the supervisor (R337). -/
def State.discardDeque (s : State) (c v tenant : Nat) (cause : Byte) : State :=
  let cv := s.vfOf c v
  let obs := (cv.spilled ++ cv.deque).flatMap fun r =>
    r.bound ++ match r.arrive with
      | some (obj, rank) => [({ obj := obj, kind := .arrive, rank := rank } : Oblig)]
      | none => []
  (s.modVf c v fun cv => { cv with deque := [], spilled := [], dqHead := 0 }).toSupervisor c v tenant cv.launch cause 0 obs

/-- A fenced core discards the messages that wait for the VF, and counts them as received (R337). -/
def State.discardInbox (s : State) (c v : Nat) : State :=
  let msgs := (s.vfOf c v).inbox
  let s := s.modVf c v fun cv => { cv with inbox := [], msgRecv := cv.msgRecv + BitVec.ofNat 64 msgs.length }
  msgs.foldl (fun s m => s.refuseReply c m) s

/-- The GANGFAULT messages of a fenced core (R337). -/
def State.sendGangFaults (s : State) (c v : Nat) : State :=
  let cv := s.vfOf c v
  ((s.gangCores c v).filter fun m => m != c).foldl
    (fun s m =>
      s.deviceSend c { data := vecOf [s.guardianOf cv.launch, BitVec.ofNat 64 (0x20 + 2 ^ 24), BitVec.ofNat 64 c],
                       src := BitVec.ofNat 64 cv.member, kind := .gangfault, target := m, vf := v,
                       tenant := (s.rowEntry v).tenant, launch := cv.launch })
    s

/-- A second heartbeat miss fences VF `v` on core `c` (R337); a handler of the VF there is abandoned (R25). -/
def State.fenceVf (s : State) (c v : Nat) : State :=
  let tenant := (s.rowEntry v).tenant
  let s := s.modVf c v fun cv => { cv with fenced := true }
  let s := { s with launches := s.launches.over fun l x => if (s.vfOf c v).launch = some l then { x with fenced := true } else x }
  let s := (s.liveSlots c v).foldl
    (fun s k => s.killSlot c k ⟨.hbmiss, (s.slotOf c k).pc, (s.slotOf c k).hbi.setWidth 64⟩) s
  let h := s.slotOf c 15
  let s := if h.holds && h.vfid.toNat = v then s.abandonHandler c Cause.hbmiss.code else s
  let s := (s.discardDeque c v tenant 0x20).discardInbox c v
  (s.sendGangFaults c v).event v 0x63 0x20 c 0 tenant [BitVec.ofNat 64 c]

/-! ## VF reset (R342) -/

/-- The pages of a second-stage tree: address, size in bits, kind. -/
def leavesFrom (read : Nat → Word) : Nat → Nat → List (Nat × Nat × Nat)
  | 0, table =>
    (List.range 512).filterMap fun i =>
      let e := read (table + 8 * i)
      if 2 ≤ field e 2 0 && field e 2 0 ≤ 5 then some (pteAddr e, 12, field e 2 0) else none
  | l + 1, table =>
    (List.range 512).flatMap fun i =>
      let e := read (table + 8 * i)
      if field e 2 0 = 1 then leavesFrom read l (pteAddr e)
      else if 2 ≤ field e 2 0 && field e 2 0 ≤ 5 && l < 2 then [(pteAddr e, 12 + 9 * (l + 1), field e 2 0)]
      else []

/-- The near and far pages of VF `v` (R302). -/
def State.vfPages (s : State) (v : Nat) : List (Nat × Nat) :=
  match s.root2.look v with
  | none => []
  | some root => ((leavesFrom s.mem.word 4 root).filter fun p => p.2.2 == 2 || p.2.2 == 3).map fun p => (p.1, p.2.1)

/-- Whether a physical address lies in one of the local banks `banks`, or in a share of a scratchpad. -/
def inShare (banks : List Nat) (spad : Nat × Nat) (pa : Nat) : Bool :=
  match rangeOf pa with
  | .loc _ => banks.elem ((pa - 0x2000000000) % 0x20000 / 8192)
  | .spad _ =>
    let off := (pa - 0x1000000000) % 0x100000000 % 0x800000
    spad.1 ≤ off && off < spad.1 + spad.2
  | _ => false

/-- Whether a physical address lies in VF `v`'s banks, scratchpad share or given pages (R162). -/
def State.inVf (s : State) (v : Nat) (pages : List (Nat × Nat)) (pa : Nat) : Bool :=
  inShare (s.banks v) (s.spad v) pa || match rangeOf pa with
  | .near _ | .far _ => pages.any fun p => p.1 ≤ pa && pa < p.1 + 2 ^ p.2
  | _ => false

/-- The words at the addresses `gone` picks become zero and empty, and sound (R162). -/
def State.zeroWhere (s : State) (gone : Nat → Bool) : State :=
  { s with mem := s.mem.filter (fun p => !gone p.1), full := s.full.filter fun a => !gone a, poison := s.poison.filter fun a => !gone a }

/-- Step 3 of R342 for memory: every word of the VF zero and empty (R162), in a halted cluster at its resume (R358). -/
def State.zeroMem (s : State) (v : Nat) : State :=
  let pages := s.vfPages v
  let s := s.zeroWhere fun a => s.inVf v pages a && !s.heldHome a
  { s with clusters := s.clusters.over fun n cl =>
             if cl.halting || cl.halted then { cl with ingress := cl.ingress ++ [.zero n (s.banks v) (s.spad v)] } else cl,
           dies := s.dies.over fun _ d => { d.dropRdc (fun l => s.inVf v pages l) with l2 := d.l2.filter fun p => !s.inVf v pages p.1 } }

/-- What a core keeps for a VF right after the VF's reset. -/
def resetVf : CoreVf := {}

/-- A core after the reset of VF `v`: its activities, queues, banks, bays and accumulators (R342). -/
def State.resetCore (s : State) (v : Nat) (co : Core) : Core :=
  let mine (k : Nat) (x : Slot) : Bool := x.vfid.toNat == v && k != 0 && x.status != .retired && x.status != .scrub && (x.holds || k == 15)
  let gone := (co.slots.filter fun p => mine p.1 p.2).map fun p => p.1
  { co with
    slots := co.slots.map fun p =>
      let y := if mine p.1 p.2 then ({ gen := p.2.gen, dispatches := p.2.dispatches, storeBuf := p.2.storeBuf, posted := p.2.posted, replies := p.2.replies,
                                       sendq := p.2.sendq } : Slot) else p.2
      (p.1, { y with storeBuf := y.storeBuf.filter fun e => e.vf != v, posted := y.posted.filter fun e => e.vf != v,
                     replies := y.replies.filter fun e => e.vf != v, sendq := y.sendq.filter fun m => m.vf != v }),
    obs := co.obs.filter fun o => !gone.elem o.holder,
    obResv := co.obResv.filter fun p => !gone.elem (p.1 % 16),
    vfs := co.vfs.put v resetVf,
    landing := co.landing.filter fun w => w.vf != v,
    bays := co.bays.filter fun p => !(s.bayMask v).testBit p.1,
    accs := co.accs.filter fun p => !(s.accMask v).testBit p.1,
    side := if s.ownsSide v then [] else co.side,
    utlb := co.utlb.filter fun e => e.vf != v,
    icache := co.icache.filter fun l => l.vf != v }

/-- A VF's slots: whether slot `k` of core `c` holds something of VF `v`. -/
def State.ofVf (s : State) (v c k : Nat) : Bool := (s.slotOf c k).vfid.toNat == v && k != 0

/-- Whether what has parked is a matrix command or a doorbell of VF `v`. -/
def ParkedBy.ofVf (b : ParkedBy) (v : Nat) : Bool :=
  match b with
  | .matrix u _ | .bell u _ _ _ => u == v
  | _ => false

/-- Whether a held packet is of VF `v`. -/
def State.packetOf (s : State) (v : Nat) (p : Packet) : Bool :=
  match p with
  | .store c k w => (s.slotOf c k).posted.any fun e => e.vf == v && e.words.elem w
  | .reply c k t => (s.slotOf c k).replies.any fun r => r.vf == v && r.token.toNat == t
  | .request c k _ => s.ofVf v c k
  | .poison _ _ u _ _ => u == v
  | .sweptStore _ _ e => e.vf == v
  | .sweptReply _ _ r => r.vf == v
  | .zero _ _ _ => false

/-- A VF is reset (R342). The status records of its live launches that lie outside its ranges are the caller's. -/
def State.resetVfState (s : State) (v : Nat) : State :=
  let s' := { s with
    waiters := s.waiters.filter fun w => !s.ofVf v w.core w.slot,
    faultQ := s.faultQ.filter fun q => !s.ofVf v q.core q.slot && !q.by'.ofVf v,
    ts := s.ts.filter fun e => e.vf != v,
    colls := s.colls.filter fun q => q.vf != v,
    saved := s.saved.filter fun x => x.vf != v,
    tcores := s.tcores.filter fun x => x.vf != v,
    tmems := s.tmems.filter fun x => x.vf != v,
    samples := s.samples.filter fun p => p.1 / 1024 != v,
    latches := s.latches.filter fun p => p.1 / 2 ^ 32 != v,
    vqs := s.vqs.filter fun q => q.vf != v,
    dies := s.dies.over fun _ d =>
      { d with engines := d.engines.over fun _ e => { e with chain := e.chain.filter fun x => x.vf != v || x.started } },
    clusters := s.clusters.over fun _ x => { x with tlb := x.tlb.filter (fun e => e.vf != v), ingress := x.ingress.filter fun p => !s.packetOf v p },
    pf := s.pf.over fun off w => if 0x8000 ≤ off && off < 0x8600 && field w 24 21 = v then 0 else w }
  let s' := { s' with cores := s'.cores.over fun _ co => s.resetCore v co }
  s'.zeroMem v

end Sys2Proof.Machine
end

