-- ==== Sys2Proof/Machine/Clock.lean ====
section
/-! DEFINITION. Time: the instants of TIME and of island cycles, NCYC, which slots may run, entitled cycles, and the passing of time
(R16, R17, R152 to R154, R304, R317 to R321, R326). -/

namespace Sys2Proof.Machine

/-! ## Instants -/

/-- The tick at which TIME reaches `ns` nanoseconds (R318). -/
def State.tickOf (s : State) (ns : Nat) : Nat := (36 * ((ns : Int) - s.slew)).toNat

/-- The next whole microsecond of TIME after now, in ns. -/
def State.nextUs (s : State) : Nat := (s.time / 1000 + 1) * 1000

/-- The first whole microsecond of TIME that is not past, in ns. -/
def usFrom (ns : Nat) : Nat := (ns + 999) / 1000 * 1000

/-- The tick at which cycle `n` of an island begins. -/
def Island.cycleTick (x : Island) (n : Nat) : Nat := x.t0 + (n - x.cyc0) * x.ticks

/-- CYC of an island at a tick (R319). -/
def Island.cycAt (x : Island) (tick : Nat) : Nat := if x.powered then x.cyc0 + (tick - x.t0) / x.ticks else x.cyc0

/-! ## NCYC (R320) -/

/-- The increment of NCYC per cycle, in 1/65,536 (R320). -/
def ncycInc (x : Island) : Nat :=
  if x.relock then 0x30000
  else match x.level with
    | 0 => 0x10000 | 1 => 0x13333 | 2 => 0x18000 | 3 => 0x20000 | _ => 0x30000

/-- The anchor value of NCYC at a TIME (R320). -/
def ncycAnchorOf (ns : Nat) : Nat := ns * 18 / 5

/-- Re-anchors an island at a tick at which its counter has been brought up to date (R320). -/
def Island.reanchor (x : Island) (ns : Nat) : Island :=
  if x.ncyc0 / 65536 ≤ ncycAnchorOf ns then { x with ncyc0 := ncycAnchorOf ns * 65536, held := false } else { x with held := true }

/-- The counter brought up to a tick before the next anchor instant: held, it advances again from the nanosecond at which the anchor
value reaches its integer part (R320). -/
def Island.ncycTo (x : Island) (slew : Int) (tick : Nat) : Island :=
  let go (x : Island) (from' : Nat) : Island :=
    { x with ncyc0 := x.ncyc0 + ncycInc x * (x.cycAt tick - x.cycAt from'), anchor := tick }
  if x.held then
    let free := (36 * (((x.ncyc0 / 65536 * 5 + 17) / 18 : Nat) - slew)).toNat
    if free ≤ tick then go { x with held := false } (max free x.anchor) else { x with anchor := max tick x.anchor }
  else go x x.anchor

/-- The counter brought up to a tick through `n` anchor instants, the next at TIME `ns` (R320). -/
def Island.ncycRun (slew : Int) (tick : Nat) : Nat → Nat → Island → Island
  | 0, _, x => x.ncycTo slew tick
  | n + 1, ns, x =>
    let t := (36 * ((ns : Int) - slew)).toNat
    if t ≤ tick then Island.ncycRun slew tick n (ns + 1024) ((x.ncycTo slew t).reanchor ns) else x.ncycTo slew tick

/-- An island with its NCYC brought up to date. -/
def State.ncycNow (s : State) (i : Nat) : Island :=
  let x := s.isl i
  if !x.powered then x
  else
    let t := (max ((x.anchor : Int) / 36 + s.slew).toNat s.timeMin / 1024 + 1) * 1024
    x.ncycRun s.slew s.now ((s.time + 1024 - t) / 1024 + 1) t

/-- An island whose clock takes a new period: its counters are brought up to date and its NCYC is re-anchored (R320, R326). -/
def State.reclock (s : State) (i : Nat) (f : Island → Island) : State :=
  let cyc := s.cyc i
  let x := (s.ncycNow i).reanchor s.time
  s.modIsl i fun _ => f { x with t0 := s.now, cyc0 := cyc, anchor := s.now }

/-! ## Which slots may run (R17) -/

/-- Whether the tenant of a slot's activity is scheduled (R17, R27, R307): the movement slot is the physical function's, and a
handler that runs at the edge runs on. -/
def State.scheduled (s : State) (k : Nat) (x : Slot) : Bool :=
  if k = 0 then true
  else
    let v := x.vfid.toNat
    match s.band.edge.look v with
    | some .stopped => k == 15
    | _ => !(s.rowEntry v).idle && (s.rowEntry v).tenant == x.tenant.toNat

/-- Whether a core's seats are withheld: its island relocks, is held for power capping or is powered down, or its cluster halts or is
halted or retired (R17, R319, R326, R358). -/
def State.stalled (s : State) (c : Nat) : Bool :=
  let i := s.isl (islandOf c)
  let cl := s.clus (clusterOf c)
  i.relock || i.capHold || !i.powered || cl.halting || cl.halted || cl.retired

/-- Whether slot `k` of core `c` is runnable (R17). -/
def State.runnable (s : State) (c k : Nat) : Bool :=
  let x := s.slotOf c k
  x.status == .run && !s.stalled c && s.scheduled k x

/-- Waits on an object that software owes (R152). -/
def Wait.software : Wait → Bool
  | .deferred _ | .vlds _ _ _ _ _ | .sync _ | .gbar _ _ | .claim _ _ | .tupleParked _ | .sendFull _ | .reduceStatus _ _ => true
  | _ => false

/-- Whether the seats of an activity are entitled cycles (R152). -/
def State.entitled (s : State) (c k : Nat) : Bool :=
  let x := s.slotOf c k
  s.scheduled k x && !s.stalled c &&
    match x.status with
    | .run => true
    | .wait w => w.software
    | _ => false

/-! ## The passing of time -/

/-- The seats of slot `k` in the cycles from `a` up to `b`. -/
def seatsIn (k a b : Nat) : Nat := (b + 15 - k) / 16 - (a + 15 - k) / 16

/-- Entitled cycles of an activity (R152 to R154, R321). -/
def Slot.accrue (x : Slot) (n : Nat) : Slot :=
  { x with vcyc := x.vcyc + BitVec.ofNat 64 n,
           ptc := BitVec.ofNat 32 (min (x.ptc.toNat + n) (2 ^ 32 - 1)),
           hbc := if x.hbi = 0 then 0 else BitVec.ofNat 32 (min (x.hbc.toNat + n) x.hbi.toNat) }

/-- Counts `n` events of R322. -/
def State.countN (s : State) (c v code : Nat) : Nat → State
  | 0 => s
  | n + 1 => State.countN (s.count c v code) c v code n

/-- Seats of slot `k` pass, up to cycle `b` (R152, R322); those of the movement slot are no VF's. -/
def State.passSeats (s : State) (c k a b : Nat) : State :=
  let x := s.slotOf c k
  let n := seatsIn k (max a x.seen) b
  let v := if k = 0 then 8 else x.vfid.toNat
  if n = 0 then s
  else if s.entitled c k then
    let s := s.modSlot c k fun x => x.accrue n
    match x.status with
    | .wait _ => s.countN c v 4 n
    | _ => s.countN c v 3 n
  else
    match x.status with
    | .wait _ => if s.scheduled k x && !s.stalled c then s.countN c v 5 n else s
    | _ => s

/-- Time moves on to a tick (R16, R152): it never moves back. -/
def State.advance (s : State) (tick : Nat) : State :=
  if tick ≤ s.now then s
  else
    let s' := s.cores.foldl
      (fun s' q =>
        let i := s.isl (islandOf q.1)
        q.2.slots.foldl (fun s' p => s'.passSeats q.1 p.1 (i.cycAt s.now) (i.cycAt tick)) s') s
    { s' with now := tick }

/-- The issuing slot's own seat counts before its instruction issues (R152, R153). -/
def State.countSeat (s : State) (c k : Nat) : State :=
  let n := s.cycle c
  let x := s.slotOf c k
  if n % 16 = k && x.seen ≤ n then
    s.modSlot c k fun x => { (if s.entitled c k then x.accrue 1 else x) with seen := n + 1 }
  else s

/-! ## Turns (R304) -/

/-- Length of turn `u` in ns (R304). -/
def turnNs (rows : List Row) (u : Nat) : Nat := ((rows[u]?).map fun r => r.len * 1000).getD 0

/-- RoundLen (R304). -/
def roundNs (rows : List Row) : Nat := (rows.map fun r => r.len * 1000).sum

/-- Start(k, t) (R304). -/
def Band.startOf (b : Band) (k t : Nat) : Nat :=
  b.epoch + k * roundNs b.rows + ((List.range t).map (turnNs b.rows)).sum

/-- TIME of the next turn boundary (R304, R324). -/
def Band.nextBoundary (b : Band) : Nat :=
  if b.turn + 1 < b.rows.length then b.startOf b.round (b.turn + 1) else b.startOf (b.round + 1) 0

end Sys2Proof.Machine
end

