-- ==== Sys2Proof/Machine/Posted.lean ====
section
/-! DEFINITION. Posted writes in the network: remote stores and the writes of REPLY (R188, R191, R203, R248, R337, R358). -/

namespace Sys2Proof.Machine

/-- The words of a slot's posted stores, each with its store. -/
def postedWords (l : List Posted) : List (Nat × Nat) :=
  (List.range l.length).flatMap fun i => ((l[i]?.map fun e => e.words).getD []).map fun w => (i, w)

/-- Whether word `w` of posted store `i` may be performed now (R188): no earlier store writes it, and of the `.ord` stores to one core
the earlier are performed. -/
def mayPost (l : List Posted) (i w : Nat) : Bool :=
  match l[i]? with
  | none => false
  | some e => (l.take i).all fun x => !x.words.elem w && !(e.ord && x.ord && x.target == e.target)

/-- The stores without word `w` of store `i`. -/
def takePosted (l : List Posted) (i w : Nat) : List Posted :=
  (l.modify i fun e => { e with words := e.words.filter (· != w) }).filter fun e => !e.words.isEmpty

/-- A store held back by the sixteen of R203 enters when one has been performed. -/
def Slot.postNext (x : Slot) : Slot :=
  match x.status with
  | .wait (.postFull e) =>
    if x.posted.length < 16 then { { x with posted := x.posted ++ [e] }.advance with status := .run } else x
  | _ => x

/-! ## Ways through the network (R311, R326, R355, R358) -/

/-- Port `p` of the sixteen (R355, R356). -/
def State.port (s : State) (p : Nat) : Port := (s.ports.look p).getD {}

/-- The ports to another module that are not retired (R355, R356). -/
def State.portsTo (s : State) (m : Nat) : List Nat := (List.range 16).filter fun p => (s.port p).remote.toNat == m && !(s.port p).retired

/-- LINKDOWN (R245, R343), to the sending VF's ring and the physical function's; log 16 gives the layout of its word 2. -/
def State.linkDown (s : State) (v c k tenant port m : Nat) (addr : Word) : State :=
  let d : List Word := [BitVec.ofNat 64 (port + m * 2 ^ 16), addr]
  (s.event v 0x64 0 c k tenant d).record 8 v 0x64 0 c k tenant d

/-- The VF that VF `v` reaches on every other module (R355). -/
def State.partner (s : State) (v : Nat) : Nat := field (s.pfReg (0xB300 + 8 * v)) 3 0

/-- Whether every port to another module trains, so that its traffic is held (R355). -/
def State.portsTrain (s : State) (m : Nat) : Bool := !(s.portsTo m).isEmpty && (s.portsTo m).all fun p => (s.port p).training

/-- Whether nothing leads from VF `v` to another module: it has no partner, or no port that is not retired (R245, R355). -/
def State.cutOff (s : State) (v m : Nat) : Bool := !bit (s.pfReg (0xB300 + 8 * v)) 63 || (s.portsTo m).isEmpty

/-- Whether the clock-crossing FIFOs between two cores stand still: one of their islands relocks (R326). -/
def State.fifoHeld (s : State) (a b : Nat) : Bool :=
  islandOf a != islandOf b && ((s.isl (islandOf a)).relock || (s.isl (islandOf b)).relock)

/-- Whether a write from core `a` to core `b` for VF `v` waits: a Kiosk halts its home (R358), a donated turn holds its link (R311), or an island
relocks (R326). -/
def State.wayHeld (s : State) (v a b pa : Nat) : Bool := s.heldHome pa || s.linkHeld v a b || s.fifoHeld a b

/-- Word `w` of a posted store of slot `k` is performed at its bank, or discarded at the port of a fenced core (R203, R337). -/
def State.postAct (s : State) (c k : Nat) (e : Posted) (w : Nat) : State :=
  if (s.vfOf e.target e.vf).fenced then s
  else
    let s := s.perform c k (e.bytes.filter fun p => p.1 / 8 * 8 == w)
    if e.full then s.serveWord w else s

/-- Word `w` of posted store `i` of slot `k` is performed, and leaves its list. -/
def State.postWord (s : State) (c k i w : Nat) : State :=
  match (s.slotOf c k).posted[i]? with
  | none => s
  | some e => ((s.modSlot c k fun x => { x with posted := takePosted x.posted i w }).postAct c k e w).modSlot c k Slot.postNext

/-- Whether word `w` of posted store `i` of slot `k` may be performed now (R188), and nothing holds it on its way. -/
def State.postReady (s : State) (c k i w : Nat) : Bool :=
  let l := (s.slotOf c k).posted
  mayPost l i w && ((l[i]?).map fun e => !s.wayHeld e.vf c e.target w).getD false

/-- A slot's posted stores are performed as far as nothing holds them. -/
def State.flushPosted (s : State) (c k : Nat) : Nat → State
  | 0 => s
  | n + 1 =>
    match (postedWords (s.slotOf c k).posted).find? fun p => s.postReady c k p.1 p.2 with
    | none => s
    | some p => State.flushPosted (s.postWord c k p.1 p.2) c k n

/-- The state with every posted store of a slot performed, or none where something holds one. -/
def State.postedDone (s : State) (c k : Nat) : Option State :=
  let s' := s.flushPosted c k (postedWords (s.slotOf c k).posted).length
  if (s'.slotOf c k).posted.isEmpty then some s' else none

/-- The posted stores of a slot up to the last that writes word `w` are performed (R188), or none where something holds one. -/
def State.postedTo (s : State) (c k w : Nat) : Nat → Option State
  | 0 => some s
  | n + 1 =>
    match (postedWords (s.slotOf c k).posted).find? fun p => p.2 == w with
    | none => some s
    | some p =>
      let l := (s.slotOf c k).posted
      if s.postReady c k p.1 w then State.postedTo (s.postWord c k p.1 w) c k w n
      else if mayPost l p.1 w then none
      else
        match (postedWords l).find? fun q => q.1 < p.1 && s.postReady c k q.1 q.2 with
        | none => none
        | some q => State.postedTo (s.postWord c k q.1 q.2) c k w n

/-- The word a REPLY token names: an offset in a core's window of the VF (R248, R263). -/
def State.replyPlace (s : State) (v : Nat) (token : Word) : Option Place := s.windowPlace (field token 44 32) v (field token 16 0)

/-- A REPLY's write of slot `k` is performed at its word: it sets it full and serves its list (R248); a write to another module is that module's,
or is discarded with LINKDOWN as a message is where none leads there (log 73). -/
def State.replyAct (s : State) (c k : Nat) (r : PostedReply) : State :=
  match r.xmod with
  | some m => if s.cutOff r.vf m.toNat then s.linkDown r.vf c k r.tenant 0 m.toNat r.token else s
  | none =>
    match s.replyPlace r.vf r.token with
    | none => s
    | some p =>
      let s := match r.value with
        | some v => s.perform c k (cellsOf p.pa (leBytes 8 v.toNat))
        | none => s.setPoison p.pa
      s.serveWord p.pa

/-- REPLY write `i` of slot `k` is performed, and leaves its list. -/
def State.replyWord (s : State) (c k i : Nat) : State :=
  match (s.slotOf c k).replies[i]? with
  | none => s
  | some r => (s.modSlot c k fun x => { x with replies := x.replies.eraseIdx i }).replyAct c k r

/-- Where a REPLY's write goes in this module, if it does. -/
def State.replyHome (s : State) (r : PostedReply) : Option Nat :=
  if r.xmod.isSome then none else (s.replyPlace r.vf r.token).map fun p => p.pa

/-- Whether a REPLY's write of core `c` waits on its way (R311, R326, R358); to another module, for a port as a message does (R355). -/
def State.replyHeld (s : State) (c : Nat) (r : PostedReply) : Bool :=
  match r.xmod with
  | some m => s.donated r.vf || (s.isl (islandOf c)).relock || s.portsTrain m.toNat
  | none =>
    match s.replyHome r with
    | none => false
    | some pa => s.wayHeld r.vf c (field r.token 44 32) pa

/-- A slot's REPLY writes are performed as far as nothing holds them (R193). -/
def State.flushReplies (s : State) (c k : Nat) : Nat → State
  | 0 => s
  | n + 1 =>
    match (List.range (s.slotOf c k).replies.length).find? fun i => (((s.slotOf c k).replies[i]?).map fun r => !s.replyHeld c r).getD false with
    | none => s
    | some i => State.flushReplies (s.replyWord c k i) c k n

/-- A packet of a tenant that stops takes the place of the one it stands for, or joins a cluster's ingress (R193, R358). -/
def State.putPacket (s : State) (pa : Nat) (old new : Packet) : State :=
  match homeCluster pa with
  | none => s
  | some n => s.modClus n fun cl =>
      { cl with ingress := if cl.ingress.elem old then cl.ingress.map fun p => if p = old then new else p else cl.ingress ++ [new] }

/-- The posted stores and REPLY writes of a tenant that are held on their way leave a slot for the network's save buffers (R193). -/
def State.sweepHeld (s : State) (c k v tenant : Nat) : State :=
  let x := s.slotOf c k
  let s := (x.posted.filter fun e => e.vf == v && e.tenant == tenant).foldl
    (fun s e => e.words.foldl (fun s w => s.putPacket w (.store c k w) (.sweptStore c k { e with words := [w] })) s) s
  let s := (x.replies.filter fun e => e.vf == v && e.tenant == tenant).foldl
    (fun s r => match s.replyHome r with
      | none => s
      | some pa => s.putPacket pa (.reply c k r.token.toNat) (.sweptReply c k r)) s
  s.modSlot c k fun x => { x with posted := x.posted.filter fun e => !(e.vf == v && e.tenant == tenant),
                                  replies := x.replies.filter fun e => !(e.vf == v && e.tenant == tenant && e.xmod.isNone) }

/-- What a slot's stores and replies of a tenant have left is performed, and what is held on its way is swept (R193). -/
def State.sweepSlot (s : State) (c k v tenant : Nat) : State :=
  let s := (s.drainAll true c k 8).flushPosted c k 128
  (s.flushReplies c k (s.slotOf c k).replies.length).sweepHeld c k v tenant

/-! ## Held packets (R358) -/

/-- A held packet is performed (R358). -/
def State.releasePacket (s : State) (p : Packet) : State :=
  match p with
  | .reply c k t =>
    match (List.range (s.slotOf c k).replies.length).find? fun i => ((s.slotOf c k).replies[i]?.map fun r => r.token.toNat) == some t with
    | some i => s.replyWord c k i
    | none => s
  | .store c k w =>
    match (postedWords (s.slotOf c k).posted).find? fun q => q.2 == w && mayPost (s.slotOf c k).posted q.1 q.2 with
    | some q => s.postWord c k q.1 q.2
    | none => s
  | .request c k _ =>
    match (s.slotOf c k).status with
    | .wait (.parked r _) => s.asSlot c k fun s => s.actHome r
    | _ => s
  | .poison c k v tenant o => s.poisonOb c k v tenant o
  | .sweptStore c k e => e.words.foldl (fun s w => s.postAct c k e w) s
  | .sweptReply c k r => s.replyAct c k r
  | .zero n banks spad => s.zeroWhere fun a => inShare banks spad a && homeCluster a = some n

/-- Whether a packet waits for its tenant's windows to come back (R193, R359). -/
def State.packetAway (s : State) (p : Packet) : Bool :=
  match p with
  | .poison c _ v tenant o => ((s.objPlace c v tenant o.obj).map fun p => s.away v tenant p.pa).getD false
  | .sweptStore _ _ e => e.words.any fun w => s.away e.vf e.tenant w
  | .sweptReply _ _ r => ((s.replyHome r).map fun pa => s.away r.vf r.tenant pa).getD false
  | .store _ _ _ | .reply _ _ _ | .request _ _ _ | .zero _ _ _ => false

/-- The packets of a cluster that is not halted are performed in order of arrival, apart from those whose tenant's windows stand saved (R193, R358). -/
def State.releaseIngress (s : State) (n : Nat) : State :=
  if s.haltOn n then s
  else
    (s.clus n).ingress.foldl
      (fun s p => if s.packetAway p then s
        else (s.modClus n fun cl => { cl with ingress := cl.ingress.erase p }).releasePacket p) s

end Sys2Proof.Machine
end

