-- ==== Sys2Proof/Machine/Save.lean ====
section
/-! DEFINITION. Contexts: their layout, withdrawal of waits, parks and stops, what a turn edge saves and clears, and restores
(R148, R193, R196, R209, R234, R257, R284, R301, R307 to R309, R338 to R341). -/

namespace Sys2Proof.Machine

/-! ## The context block in memory (R339, R340) -/

/-- The context block is written, once the spilled obligations have been read back (R265, R338). -/
def State.writeCtx (s : State) (c k reason : Nat) (reissue : Bool) : State :=
  let s := s.recallObs c k
  let x := s.slotOf c k
  match s.ctxPlace x.vfid.toNat x.tenant.toNat c k with
  | none => s
  | some a => s.storeWords x.vfid.toNat a (s.ctxWords c k reason reissue)

/-! ## Withdrawal (R196, R209, R276, R279, R300) -/

/-- A wait of slot `k` is withdrawn, or its instruction abandoned: it will issue again. A GBAR keeps the phase it waits for. DEDUCED (log 58): SIGACC keeps
the words of an abandoned instruction, and its next issue folds them in again (R110, R155). -/
def State.withdraw (s : State) (c k : Nat) : State :=
  match (s.slotOf c k).status with
  | .wait _ =>
    (s.unlist c k).modSlot c k fun x =>
      { x with status := .run, reissue := false, barPhase := match x.status with
          | .wait (.gbar p _) => some p
          | _ => x.barPhase }
  | _ => s

/-- Whether a reply may still land after a save (R338). A divide is abandoned and issues again (R110, R123). -/
def Wait.lands : Wait → Bool
  | .tupleSent _ => true
  | _ => false

/-- A save records a PTGAP with the PTC it happens at (R154). -/
def Slot.gapAt (x : Slot) : Slot :=
  let late := (x.preLead || x.prePreempt) && x.maxpt.toNat < x.ptc.toNat
  if (x.gap || late) && x.ptgap.isNone then { x with gap := false, ptgap := some x.ptc } else { x with gap := false }

/-- The reason of a save with its pending pre-emptions (R316, R340). -/
def Slot.saveReason (x : Slot) (other : Nat) : Nat := if x.prePreempt then 2 else other

/-! ## Parks (R154, R307, R316, R338, R341) -/

/-- Before a park, the slot's stores and posted stores are performed (R338, R341): none while one cannot be. -/
def State.settledSlot (s : State) (c k : Nat) : Option State :=
  match s.drained c k with
  | none => none
  | some s' => s'.postedDone c k

/-- Slot `k` parks: its wait is withdrawn, its context is saved, and the pre-emption is no longer pending. -/
def State.park (s : State) (c k : Nat) : State :=
  let x := s.slotOf c k
  let waiting := match x.status with
    | .wait _ => true
    | _ => false
  let reason := x.saveReason 1
  let s := (s.withdraw c k).modSlot c k fun x => { x.gapAt with status := .parked reason, preLead := false, prePreempt := false }
  s.writeCtx c k reason waiting

/-- An uncorrectable error in a register that a save reads kills the activity instead (R335). -/
def State.saveError (s : State) (c k : Nat) : Option State :=
  let x := s.slotOf c k
  match x.regErr with
  | [] => none
  | e :: _ =>
    some (s.modSlot c k fun x => x.mark .regerr x.pc (BitVec.ofNat 64 ((if e.1 then 32 else 0) + e.2.toNat)))

/-- An activity that waits on an object parks at once when a pre-emption is pending (R307); where its save finds an error, it is killed (R335). -/
def State.parkWaiting (s : State) (c k : Nat) : State :=
  match (s.slotOf c k).status with
  | .wait w =>
    if w.software then
      match s.settledSlot c k with
      | some s' =>
        match (s'.saveError c k).bind fun y => (y.slotOf c k).kill with
        | some r => s'.killSlot c k r
        | none => s'.park c k
      | none => s
    else s
  | _ => s

/-! ## The synchronised stop (R307, R338) -/

/-- The activity in slot `k` moves into its tenant's contexts; the slot is cleared. -/
def State.moveOut (s : State) (c k reason : Nat) (late : Option Wait) : State :=
  let x := s.slotOf c k
  let sv : Saved := { vf := x.vfid.toNat, tenant := x.tenant.toNat, core := c, slot := k, act := { x with storeBuf := [], posted := [], replies := [] },
                      obs := s.obsOf c k, reason := reason, late := late }
  let s := { s with saved := s.saved ++ [sv] }
  (s.modCore c fun co => { co with obs := co.obs.filter fun o => o.holder != k }).modSlot c k fun x => { x.cleared with sendq := [] }

/-- Slot `k` of an outgoing tenant is stopped and saved (R307): a kill that is pending acts first (R333); the flag says whether the slot
had not parked. -/
def State.stopSlot (s : State) (c k : Nat) : State × Bool :=
  let x := s.slotOf c k
  match x.kill with
  | some r => (s.killSlot c k r, false)
  | none =>
    match s.saveError c k with
    | some s' =>
      match (s'.slotOf c k).kill with
      | some r => (s'.killSlot c k r, false)
      | none => (s', false)
    | none =>
      let s := s.sweepSlot c k x.vfid.toNat x.tenant.toNat
      match x.status with
      | .parked r =>
        let again := ((s.ctxBlock x.vfid.toNat x.tenant.toNat c k).map fun b => bit (b.getD 3 0) 12).getD false
        ((s.writeCtx c k r again).moveOut c k r none, false)
      | .wait w =>
        let late := if w.lands then some w else none
        let flight := s.tsFlight c k
        let s := s.withdraw c k
        let s := match w, flight with
          | .tupleSent _, some e => { s with ts := s.ts ++ [e] }
          | _, _ => s
        let reason := x.saveReason 3
        let s := s.modSlot c k fun x => { x.gapAt with preLead := false, prePreempt := false }
        ((s.writeCtx c k reason true).moveOut c k reason late, true)
      | _ =>
        let reason := x.saveReason 3
        let s := s.modSlot c k fun x => { x.gapAt with preLead := false, prePreempt := false }
        ((s.writeCtx c k reason x.withdrawn).moveOut c k reason none, true)

/-- The cores that the state lists, in its order. -/
def State.coreList (s : State) : List Nat := s.cores.map fun p => p.1

/-- Whether the Kiosk halts a core, whose tenant's state no edge touches (R359). -/
def State.frozen (s : State) (c : Nat) : Bool := (s.clus (clusterOf c)).halted || (s.clus (clusterOf c)).halting

/-! ## Residue (R309) -/

/-- What a core keeps of a VF across an edge: the fence, and the handler and mailbox rotations. -/
def keptVf (cv : CoreVf) : CoreVf := { fenced := cv.fenced, mboxLast := cv.mboxLast }

/-- A tenant's state of one core is saved and cleared (R234, R257, R284, R309). -/
def State.saveCore (s : State) (v tenant c : Nat) : State :=
  let s := s.landAll c v
  let co := s.coreOf c
  let cv := s.vfOf c v
  let left (m : Msg) : Bool := m.vf == v && m.tenant == tenant
  let tc : TenantCore :=
    { vf := v, tenant := tenant, core := c, cv := { cv with lastDonated := 14, syncResv := [], dqResv := [] },
      sendqs := (co.slots.map fun p => (p.1, p.2.sendq.filter left)).filter fun p => !p.2.isEmpty,
      bays := co.bays.filter fun p => (s.bayMask v).testBit p.1,
      accs := co.accs.filter fun p => (s.accMask v).testBit p.1,
      side := if s.ownsSide v then co.side else [] }
  let others := s.tcores.filter fun t => !(t.vf == v && t.tenant == tenant && t.core == c)
  let s := { s with tcores := others ++ [tc] }
  s.modCore c fun co =>
    { co with vfs := co.vfs.put v (keptVf cv),
              slots := co.slots.over fun _ x => { x with sendq := x.sendq.filter fun m => !left m },
              bays := co.bays.filter fun p => !(s.bayMask v).testBit p.1,
              accs := co.accs.filter fun p => !(s.accMask v).testBit p.1,
              side := if s.ownsSide v then [] else co.side,
              utlb := co.utlb.filter fun e => !(e.vf == v && e.pasid.toNat == s.pasid v tenant),
              icache := co.icache.filter fun l => l.vf != v }

/-- A tenant's window memory at the addresses `sel` picks is saved and cleared (R309). -/
def State.saveWindows (s : State) (v tenant : Nat) (sel : Nat → Bool) : State :=
  let mine (a : Nat) : Bool := s.inVf v [] a && sel a
  let old := (s.tmems.find? fun t => t.vf == v && t.tenant == tenant).getD { vf := v, tenant := tenant, bytes := [], full := [], poison := [] }
  let others := s.tmems.filter fun t => !(t.vf == v && t.tenant == tenant)
  let tm : TenantMem :=
    { old with bytes := old.bytes.patch (s.mem.filter fun p => mine p.1),
               full := (s.full.filter fun a => mine a).foldl setAdd old.full,
               poison := (s.poison.filter fun a => mine a).foldl setAdd old.poison }
  { s with tmems := others ++ [tm], mem := s.mem.filter fun p => !mine p.1,
           full := s.full.filter fun a => !mine a, poison := s.poison.filter fun a => !mine a }

/-- The lines in ways of the RDC and of the L2 of every die are written back and invalidated (R309). -/
def State.dropWays (s : State) (rdc l2 : Nat) : State :=
  { s with dies := s.dies.over fun _ d =>
      { d.dropRdc fun l => rdc.testBit ((d.rdcWay.look l).getD 16) with l2 := d.l2.filter fun p => !l2.testBit p.2.1 } }

/-- A tenant's copy commands not started and its collectives in progress are saved; its translations and the lines in its VF's ways are dropped, and its frequency requests
are withdrawn (R257, R309). -/
def State.saveShared (s : State) (v tenant : Nat) : State :=
  let mine (d g : Nat) (l : List CopyEntry) : List (Nat × Nat × CopyEntry) :=
    (l.filter fun e => e.vf == v && e.tenant == tenant && !e.started).map fun e => (d, g, e)
  let copies := s.dies.flatMap fun p => p.2.engines.flatMap fun q => mine p.1 q.1 q.2.chain
  let own (q : Collective) : Bool := q.vf == v && q.tenant == tenant
  let s := s.dropWays (s.rdcWays v) (s.l2Ways v)
  { s with
    tmems := s.tmems.map fun t => if t.vf = v && t.tenant = tenant then { t with copies := t.copies ++ copies, colls := t.colls ++ s.colls.filter own } else t,
    colls := s.colls.filter fun q => !own q,
    dies := s.dies.over fun _ d =>
      { d with engines := d.engines.over fun _ e =>
                 { e with chain := e.chain.filter fun x => !(x.vf == v && x.tenant == tenant) || x.started } },
    clusters := s.clusters.over fun _ x =>
      { x with tlb := x.tlb.filter fun e => !(e.vf == v && e.pasid.toNat == s.pasid v tenant) },
    islands := s.islands.over fun _ x => { x with reqs := x.reqs.drop v } }

/-! ## Restores (R307, R308, R316, R338) -/

/-- A system register as a context block gives it (R340): the whole of TSTAT, HBC and PTC too. -/
def Slot.ofSys (x : Slot) (n : SysReg) (w : Word) : Slot :=
  match n with
  | .tstat => { x with pl := w.extractLsb' 0 2, md := bit w 2, ppl := w.extractLsb' 4 2, pmd := bit w 6, ih := bit w 7 }
  | .hbc => { x with hbc := w.setWidth 32 }
  | .ptc => { x with ptc := w.setWidth 32 }
  | .obspill => { x with obspill := spillBits w }
  | _ => x.writeSys n w

/-- An activity as the words `b` of its context block give it (R340): what the block does not hold stays. -/
def Slot.ofBlock (x : Slot) (b : List Word) : Slot :=
  let at' (i : Nat) : Word := b.getD i 0
  let m := at' 3
  let pend := x.pendRegs.filter fun p => bit (at' 9) p.1.toNat
  let more := (List.range 32).filter fun n => bit (at' 9) n && !pend.any fun p => p.1.toNat == n
  let x := (ctxRegs.zip (b.drop 12)).foldl (fun x p => x.ofSys p.1 p.2) x
  { x with
    status := if field (at' 0) 35 32 = 2 then .parked 2 else .run,
    pc := addrBits (at' 2),
    ptgap := if bit m 0 then some x.ptc else none, missed := bit m 1, hbPend := bit m 2,
    barPhase := if bit m 3 then some (field m 11 4) else none,
    replyFault := if bit m 13 then some (lateCause ((at' 11).setWidth 8), at' 38) else none,
    mb := (List.range 4).map fun n => (n, at' (4 + n)), mbFull := BitVec.ofNat 4 (field (at' 8) 3 0),
    mbTag := if bit (at' 8) 4 then some (BitVec.ofNat 5 (field (at' 8) 9 5)) else none,
    pendRegs := pend ++ more.map fun n => (BitVec.ofNat 5 n, false),
    sigacc := (at' 34).setWidth 16, vcyc := at' 35,
    p := (List.range 8).map fun n => (n, BitVec.ofNat 16 (field (at' (36 + n / 4)) (16 * (n % 4) + 15) (16 * (n % 4)))),
    s := (List.range 32).map fun n => (n, at' (40 + n)),
    v := (List.range 32).map fun n => (n, vecOf ((b.drop (72 + 8 * n)).take 8)),
    sendq := ((List.range (field (at' 10) 3 0)).zip x.sendq).map fun q => { q.2 with data := vecOf ((b.drop (584 + 8 * q.1)).take 8) } }

/-- The obligation entries of a context block (R264, R340), for slot `k`. -/
def blockObs (k : Nat) (b : List Word) : List Oblig :=
  (List.range 128).filterMap fun i =>
    (kindOf (field (b.getD (329 + 2 * i) 0) 59 56)).map fun kind =>
      { obj := b.getD (328 + 2 * i) 0, kind := kind, rank := (b.getD (329 + 2 * i) 0).setWidth 56, holder := k }

/-- A restored activity of slot `k` is as its context block in memory gives it (R338, R340): where nothing has changed the block since the save, that is
the image the save left (log 30). -/
def State.readCtx (s : State) (c k reason : Nat) : State :=
  let x := s.slotOf c k
  match s.ctxBlock x.vfid.toNat x.tenant.toNat c k with
  | none => s
  | some b =>
    let now := s.ctxWords c k reason (bit (b.getD 3 0) 12)
    if b = now then s
    else
      let s := s.modSlot c k fun x => x.ofBlock b
      if (b.drop 328).take 256 = (now.drop 328).take 256 then s
      else s.modCore c fun co => { co with obs := co.obs.filter (fun o => o.holder != k || o.spill.isSome) ++ blockObs k b }

/-- A saved activity goes back into its slot, from its context block: parked still when a PREEMPT parked it; an instruction whose reply has not landed
issues again. -/
def State.restoreAct (s : State) (sv : Saved) : State :=
  let c := sv.core
  let k := sv.slot
  let old := s.slotOf c k
  let s := s.unlist c k
  let x := { sv.act with status := if sv.reason = 2 then .parked 2 else .run, dispatches := old.dispatches, seen := old.seen }
  let s := { s.dropTs c k sv.act.gen with saved := s.saved.erase sv }
  let s := (s.setSlot c k x).modCore c fun co => { co with obs := co.obs ++ sv.obs.map fun o => { o with holder := k } }
  (s.readCtx c k sv.reason).modSlot c k fun x =>
    { x with busy := [], busyNow := [], storeBuf := old.storeBuf, posted := old.posted, replies := old.replies, sendq := old.sendq ++ x.sendq }

/-- A tenant's state of one core is restored. -/
def State.restoreCore (s : State) (t : TenantCore) : State :=
  let s := { s with tcores := s.tcores.erase t }
  let now := s.vfOf t.core t.vf
  s.modCore t.core fun co =>
    { co with vfs := co.vfs.put t.vf { t.cv with fenced := now.fenced, mboxLast := now.mboxLast },
              slots := t.sendqs.foldl (fun m p => let x := (m.look p.1).getD {}; m.put p.1 { x with sendq := x.sendq ++ p.2 }) co.slots,
              bays := t.bays.foldl (fun m p => m.put p.1 p.2) co.bays,
              accs := t.accs.foldl (fun m p => m.put p.1 p.2) co.accs,
              side := if s.ownsSide t.vf then t.side else co.side }

/-- A tenant's window memory at the addresses `sel` picks is restored, its waiting copy commands are appended again, and its
collectives go on. -/
def State.restoreMem (s : State) (t : TenantMem) (sel : Nat → Bool) : State :=
  let rest : TenantMem :=
    { t with copies := [], colls := [], bytes := t.bytes.filter fun p => !sel p.1, full := t.full.filter fun a => !sel a,
             poison := t.poison.filter fun a => !sel a }
  let kept := if rest.bytes.isEmpty && rest.full.isEmpty && rest.poison.isEmpty then [] else [rest]
  let s := { s with tmems := s.tmems.erase t ++ kept, colls := s.colls ++ t.colls, mem := s.mem.patch (t.bytes.filter fun p => sel p.1),
                    full := (t.full.filter sel).foldl setAdd s.full, poison := (t.poison.filter sel).foldl setAdd s.poison }
  t.copies.foldl
    (fun s q => s.modDie q.1 fun d =>
      let e := (d.engines.look q.2.1).getD {}
      { d with engines := d.engines.put q.2.1 { e with chain := e.chain ++ [q.2.2] } }) s

/-- Whether a started copy of a tenant is not complete (R257), apart from those of halted clusters' cores (R359). -/
def State.copying (s : State) (v : Nat) (tenant : Option Nat) : Bool :=
  s.dies.any fun p => p.2.engines.any fun q => q.2.chain.any fun e => e.started && e.vf == v && some e.tenant == tenant && !s.frozen e.core

/-- Whether a slot holds a store or a reply of a tenant that is not performed (R193); a reply to another module has left the cores. -/
def Slot.owes (x : Slot) (v tenant : Nat) : Bool :=
  x.storeBuf.any (fun e => e.vf == v && e.tenant == tenant) || x.posted.any (fun e => e.vf == v && e.tenant == tenant) ||
    x.replies.any fun e => e.vf == v && e.tenant == tenant && e.xmod.isNone

/-- The stores and replies of a tenant that its slots, and the handler slot, have left are performed, or swept into the network's save buffers
(R193, R307). -/
def State.sweepSlots (s : State) (v tenant : Nat) : State :=
  (s.coreList.filter fun c => !s.frozen c).foldl
    (fun s c => ((s.ownSlots v) ++ [15]).foldl
      (fun s k => if (s.slotOf c k).owes v tenant then s.sweepSlot c k v tenant else s) s) s

/-- Whether the saves of the outgoing tenant of VF `v` are complete (R193, R257, R307, R308), apart from halted clusters (R359): no handler of it
runs, its stores and replies are performed, and its started copies and matrix commands are complete. -/
def State.savesDone (s : State) (v : Nat) : Bool :=
  match s.band.out.look v with
  | none => true
  | some tenant =>
    !s.copying v (some tenant) && (s.coreList.filter fun c => !s.frozen c).all fun c =>
      let x := s.slotOf c 15
      !((s.mxBegun c).any fun p => p.1 == v) &&
      !(x.holds && x.vfid.toNat == v && x.tenant.toNat == tenant) && (s.coreOf c).slots.all fun p => !p.2.owes v tenant

/-- Whether a tenant's state of a core stands saved: it was not restored there, since a halt passed over its last turn (R359). -/
def State.savedAt (s : State) (v tenant c : Nat) : Bool := s.tcores.any fun t => t.vf == v && t.tenant == tenant && t.core == c

/-- The residue of the outgoing tenant of VF `v` is saved and cleared (R309), apart from halted clusters (R359). -/
def State.residue (s : State) (v : Nat) : State :=
  match s.band.out.look v with
  | none => s
  | some tenant =>
    let s := s.sweepSlots v tenant
    let s := (s.coreList.filter fun c => !s.frozen c && !s.savedAt v tenant c).foldl (fun s c => s.saveCore v tenant c) s
    (s.saveWindows v tenant fun a => !s.heldHome a).saveShared v tenant

/-- The contexts of a tenant that belong to the cores and addresses picked go back (R307). -/
def State.restoreWhere (s : State) (v tenant : Nat) (onCore : Nat → Bool) (sel : Nat → Bool) : State :=
  let s := (s.tmems.filter fun t => t.vf == v && t.tenant == tenant).foldl (fun s t => s.restoreMem t sel) s
  let s := (s.tcores.filter fun t => t.vf == v && t.tenant == tenant && onCore t.core).foldl (fun s t => s.restoreCore t) s
  (s.saved.filter fun t => t.vf == v && t.tenant == tenant && onCore t.core).foldl (fun s t => s.restoreAct t) s

/-- The contexts of the tenant of VF `v` are restored (R307), apart from halted clusters (R359). -/
def State.restoreTenant (s : State) (v tenant : Nat) : State :=
  s.restoreWhere v tenant (fun c => !s.frozen c) fun a => !s.heldHome a

/-! ## Late replies (R338) -/

/-- A late reply lands in the saved image of an activity (R338). A tuple request that finds nothing to land with does not park: it is withdrawn, and its
instruction issues again (R300, R301). -/
def State.lateLand (s : State) (sv : Saved) : State :=
  match s.ts.find? fun e => !e.device && e.core == sv.core && e.slot == sv.slot && e.gen == sv.act.gen with
  | none => s.lateOver sv.core sv.slot sv.act.gen
  | some e => ((s.tsArrive e).dropTs sv.core sv.slot sv.act.gen).lateOver sv.core sv.slot sv.act.gen

end Sys2Proof.Machine
end

