-- ==== Sys2Proof/Machine/Bandstand.lean ====
section
/-! DEFINITION. The Bandstand: turn rows and commits, turn edges and boundaries, slack donation, capacity, minima and reservations
(R304 to R313). -/

namespace Sys2Proof.Machine

/-! ## Rows and commits (R305, R306) -/

/-- BSCTL.RUN (R315). -/
def State.runOn (s : State) : Bool := bit (s.pfReg 0) 0

/-- The shadow entry of VF `v` in turn row `t` (R305). -/
def State.shadowEntry (s : State) (t v : Nat) : RowEntry :=
  let w0 := s.pfReg (0x1000 + 0x100 * t + 0x10 + 0x10 * v)
  let w1 := s.pfReg (0x1000 + 0x100 * t + 0x18 + 0x10 * v)
  { idle := bit w0 5, tenant := field w0 4 0, donate := field w0 11 8, nearw := field w0 22 16, farw := field w0 30 24,
    linkw := field w0 38 32, l2w := BitVec.ofNat 32 (field w1 31 0), rdcw := BitVec.ofNat 16 (field w1 47 32) }

/-- The shadow turn row `t` (R305). -/
def State.shadowRow (s : State) (t : Nat) : Row :=
  let h0 := s.pfReg (0x1000 + 0x100 * t)
  let h1 := s.pfReg (0x1008 + 0x100 * t)
  { len := field h0 15 0, pfl2 := BitVec.ofNat 32 (field h1 31 0), pfrdc := BitVec.ofNat 16 (field h1 47 32),
    vfs := (List.range 8).map fun v => (v, s.shadowEntry t v) }

/-- The entries of a row that are not IDLE. -/
def Row.active (r : Row) : List (Nat × RowEntry) := r.vfs.filter fun p => !p.2.idle

/-- Whether a tenant interface is valid for a commit (R339). -/
def State.tenantOk (s : State) (v i : Nat) : Bool := s.tenantValid v i && bit (s.pfReg (0xA800 + 0x100 * v + 8 * i)) 0

/-- Whether masks overlap pairwise. -/
def overlaps : List Nat → Bool
  | [] => false
  | m :: l => l.any (fun x => m &&& x != 0) || overlaps l

/-- Nonzero zero fields of a shadow row (R305). -/
def State.rowZero (s : State) (t : Nat) : Bool :=
  let h0 := s.pfReg (0x1000 + 0x100 * t)
  let h1 := s.pfReg (0x1008 + 0x100 * t)
  field h0 63 16 != 0 || field h1 63 48 != 0 ||
    (List.range 8).any fun v =>
      let w0 := s.pfReg (0x1000 + 0x100 * t + 0x10 + 0x10 * v)
      let w1 := s.pfReg (0x1000 + 0x100 * t + 0x18 + 0x10 * v)
      !bit w0 5 && (field w0 63 39 != 0 || bit w0 31 || bit w0 23 || field w0 15 12 != 0 || field w0 7 6 != 0 || field w1 63 48 != 0)

/-- The capacity of resource `r` on die `d` (R315). -/
def State.capOf (s : State) (r d : Nat) : Nat := field (s.pfReg (0x40 + 8 * r)) (16 * d + 10) (16 * d)

/-- The shadow minimum of VF `v` (R315). -/
def State.shadowMin (s : State) (v r d : Nat) : Nat := field (s.pfReg (0x500 + 0x40 * v + 8 * r)) (16 * d + 10) (16 * d)

/-- The first check of R306 that a commit of `n` turns fails. -/
def State.commitReason (s : State) (w : Word) : Option Nat :=
  let n := field w 6 0
  let rows := (List.range n).map s.shadowRow
  if n = 0 || 64 < n || rows.any (fun r => r.len < 100) then some 1
  else if rows.any fun r => r.active.any fun p => !s.tenantOk p.1 p.2.tenant then some 2
  else if rows.any fun r => overlaps (r.pfl2.toNat :: r.active.map fun p => p.2.l2w.toNat) ||
      overlaps (r.pfrdc.toNat :: r.active.map fun p => p.2.rdcw.toNat) then some 3
  else if rows.any fun r =>
      r.active.any (fun p => 64 < p.2.nearw || 64 < p.2.farw || 64 < p.2.linkw) ||
      64 < (r.active.map fun p => p.2.nearw).sum || 64 < (r.active.map fun p => p.2.farw).sum ||
      64 < (r.active.map fun p => p.2.linkw).sum then some 4
  else if rows.any fun r => r.active.any fun p => 8 < p.2.donate || p.2.donate = p.1 then some 5
  else if (List.range 5).any fun r => (List.range 4).any fun d =>
      s.capOf r d < ((List.range 8).map fun v => s.shadowMin v r d).sum then some 6
  else if field w 63 7 ≠ 0 || (List.range n).any s.rowZero then some 8
  else none

/-- BSSTAT.REASON (R306, R303). -/
def State.setReason (s : State) (code : Nat) : State := s.setPf 0x10 (BitVec.ofNat 64 (code * 256))

/-- The index of a live minimum. -/
def minKey (v r d : Nat) : Nat := (8 * v + r) * 4 + d

/-- The shadow minima of every VF, resource and die. -/
def State.allMins (s : State) : SMap Nat :=
  (List.range 8).flatMap fun v => (List.range 5).flatMap fun r => (List.range 4).map fun d => (minKey v r d, s.shadowMin v r d)

/-- A write of BSCOMMIT (R306). -/
def State.commit (s : State) (w : Word) : State :=
  match s.commitReason w with
  | some r => s.setReason r
  | none =>
    { s with band := { s.band with pending := some ((List.range (field w 6 0)).map s.shadowRow), pendAt := s.time,
                                   pendMin := s.allMins } }

/-! ## Capacity and minima (R312, R313) -/

/-- A live minimum (R312). -/
def State.lmin (s : State) (v r d : Nat) : Nat := (s.band.lmin.look (minKey v r d)).getD 0

/-- The shortfall rule for one resource and die (R312), with its GSHORT. -/
def State.shortfall (s : State) (r d : Nat) : State :=
  let total := ((List.range 8).map fun v => s.lmin v r d).sum
  let cap := s.capOf r d
  if total ≤ cap then s
  else
    let news := (List.range 8).map fun v => s.lmin v r d * cap / total
    let short (v : Nat) : Nat := s.lmin v r d - s.lmin v r d * cap / total
    let s' := (List.range 8).foldl
      (fun s' v =>
        let old := s'.vfReg v 0x18
        s'.setVfReg v 0x18 (BitVec.ofNat 64 (old.toNat - field old (16 * r + 15) (16 * r) * 2 ^ (16 * r) + short v * 2 ^ (16 * r)))) s
    let s' := { s' with band := { s'.band with
      lmin := (List.range 8).foldl (fun m v => m.put (minKey v r d) ((news[v]?).getD 0)) s'.band.lmin } }
    let pack (l : List Nat) : Word := BitVec.ofNat 64 (leNat (l.flatMap fun v => leBytes 2 (short v)))
    s'.event 8 0x62 0 0 0 0 [BitVec.ofNat 64 (r + d * 256), pack [0, 1, 2, 3], pack [4, 5, 6, 7]]

/-- The shortfall rule for every resource and die (R312). -/
def State.shortfalls (s : State) : State :=
  (List.range 5).foldl (fun s r => (List.range 4).foldl (fun s d => s.shortfall r d) s) s

/-- The capacity of a resource on a die changes (R312). -/
def State.setCap (s : State) (r d cap : Nat) : State :=
  let old := s.pfReg (0x40 + 8 * r)
  (s.setPf (0x40 + 8 * r)
    (BitVec.ofNat 64 (old.toNat - field old (16 * d + 10) (16 * d) * 2 ^ (16 * d) + cap % 2048 * 2 ^ (16 * d)))).shortfall r d

/-- A weight of a VF for a bandwidth resource in the current turn (R310, R313). -/
def State.weight (s : State) (v r : Nat) : Nat :=
  match s.band.weights.look v with
  | none => 0
  | some (n, f, l) => match r with
    | 0 => n
    | 1 => f
    | _ => l

/-- The reservations of a bandwidth resource on a die, by VF (R313); a VF whose donation is in effect has none (R310). -/
def State.reservations (s : State) (r d : Nat) : List (Nat × Nat) :=
  let cap := s.capOf r d
  let act := (List.range 8).filter fun v => !(s.rowEntry v).idle
  let floor (v : Nat) : Nat := if s.donated v then 0 else s.lmin v r d
  let res := act.map fun v => (v, max (s.weight v r * cap / 64) (floor v))
  let excess := (res.map fun p => p.2).sum - cap
  let t := (res.map fun p => p.2 - floor p.1).sum
  if excess = 0 then res
  else res.map fun p => (p.1, p.2 - ((p.2 - floor p.1) * excess + t - 1) / t)

/-! ## Turns (R304, R307, R310, R311) -/

/-- Whether an accepted commit takes effect at a boundary at TIME `e` that ends a round (R306). -/
def Band.takes (b : Band) (e : Nat) : Bool := b.pending.isSome && b.pendAt + 32000 ≤ e

/-- Whether the next boundary ends a round. -/
def Band.endsRound (b : Band) : Bool := b.rows.length ≤ b.turn + 1

/-- The row after the next boundary. -/
def Band.nextRow (b : Band) : Row :=
  if !b.endsRound then (b.rows[b.turn + 1]?).getD {}
  else if b.takes b.nextBoundary then (((b.pending.getD [])[0]?).getD {})
  else (b.rows[0]?).getD {}

/-- The outgoing tenant of VF `v` at the next boundary (R307). -/
def State.outgoing (s : State) (v : Nat) : Option Nat :=
  match s.tenantNow v with
  | none => none
  | some a => if s.band.nextRow.tenantOf v = some a then none else some a

/-- Sets where VF `v` stands. -/
def State.setPhase (s : State) (v : Nat) (p : EdgePhase) : State := { s with band := { s.band with edge := s.band.edge.put v p } }

/-- The live activities of a tenant: core and slot, outside halted clusters. -/
def State.tenantSlots (s : State) (v tenant : Nat) : List (Nat × Nat) :=
  (s.coreList.filter fun c => !s.frozen c).flatMap fun c =>
    ((s.liveSlots c v).filter fun k => (s.slotOf c k).tenant.toNat == tenant).map fun k => (c, k)

/-- The drain lead of VF `v` (R307): every activity of the outgoing tenant receives a pending pre-emption. -/
def State.lead (s : State) (v tenant : Nat) : State :=
  (s.tenantSlots v tenant).foldl
    (fun s q =>
      match (s.slotOf q.1 q.2).status with
      | .parked _ => s
      | _ => (s.modSlot q.1 q.2 fun x => { x with preLead := true }).parkWaiting q.1 q.2)
    (s.setPhase v .draining)

/-- The synchronised stop of VF `v` (R307), with its OVERRUN: an activity that waits for software has saved at once. A donation of it ends (R311). -/
def State.stopVf (s : State) (v tenant : Nat) : State :=
  let s : State := ({ s with band := { s.band with effect := s.band.effect &&& ~~~ (BitVec.ofNat 8 (2 ^ v)) } } : State).writeSpills
  let s := (s.tenantSlots v tenant).foldl (fun s q => s.parkWaiting q.1 q.2) s
  let r := (s.tenantSlots v tenant).foldl
    (fun acc q => let (s', hit) := acc.1.stopSlot q.1 q.2; (s', if hit then acc.2 + 1 else acc.2)) (s, 0)
  let s := (r.1.sweepSlots v tenant).setPhase v .stopped
  let s := { s with band := { s.band with out := s.band.out.put v tenant, edgeAt := s.band.edgeAt.put v s.band.nextBoundary } }
  if r.2 = 0 then s
  else
    (s.setVfReg v 8 (s.vfReg v 8 + 1)).event v 0x60 0 0 0 tenant [BitVec.ofNat 64 r.2, BitVec.ofNat 64 s.band.turn]

/-- A hold by a donation ends (R311): the instruction issues again. -/
def Slot.undonate (x : Slot) : Slot :=
  match x.status with
  | .wait .donated => { x with status := .run }
  | _ => x

/-- A new row comes into force at TIME `e`: DONE and donations end, VFs whose tenant changes wait for their restore, and ways that
leave a VF's mask, or whose VF's tenant changes, are invalidated (R307, R309, R311). -/
def State.enterRow (s : State) (old new : Option Row) (e : Nat) : State :=
  let row := new.getD {}
  let s := { s with cores := s.cores.over fun _ co => { co with slots := co.slots.over fun _ x => x.undonate } }
  let s : State := ({ s with band := { s.band with done := 0, effect := 0, donateAt := [],
                                                   weights := row.active.map fun p => (p.1, (p.2.nearw, p.2.farw, p.2.linkw)) } } : State).writeSpills
  (List.range 8).foldl
    (fun s v =>
      let a := old.bind fun r => r.tenantOf v
      let b := row.tenantOf v
      let rdc (r : Option Row) : Nat := (r.map fun r => r.rdcMask v).getD 0
      let l2 (r : Option Row) : Nat := (r.map fun r => r.l2Mask v).getD 0
      if a = b then s.dropWays (rdc old - (rdc old &&& rdc new)) (l2 old - (l2 old &&& l2 new))
      else
        let s := s.dropWays (rdc old) (l2 old)
        { s with band := { s.band with edge := s.band.edge.put v .stopped, edgeAt := s.band.edgeAt.put v e } }) s

/-- The outgoing tenants that have not stopped yet stop (R307). -/
def State.stopOut (s : State) : State :=
  (List.range 8).foldl
    (fun s v =>
      match s.outgoing v with
      | none => s
      | some a => if s.phase v = .stopped then s else s.stopVf v a) s

/-- A turn boundary within a round (R304, R311). -/
def State.crossTurn (s : State) : State :=
  let e := s.band.nextBoundary
  let s := s.stopOut
  let old := s.row
  let s := { s with band := { s.band with turn := s.band.turn + 1 } }
  s.enterRow old s.row e

/-- The accepted table becomes live at a round boundary at TIME `e` (R306). -/
def Band.install (b : Band) (e k : Nat) : Band :=
  { b with rows := b.pending.getD [], pending := none, lmin := b.pendMin, epoch := e, round := k, turn := 0 }

/-- DRAIN and GUARDT come into force at a round boundary (R315). -/
def State.takeLead (s : State) : State :=
  { s with band := { s.band with lead := field (s.pfReg 0) 13 8 * 1000, guard := field (s.pfReg 0) 21 16 * 1000 } }

/-- A round boundary of a running Bandstand (R306, R312). -/
def State.crossRound (s : State) : State :=
  let e := s.band.nextBoundary
  let s := s.stopOut
  let old := s.row
  let b := s.band
  let b := if b.takes e then b.install e 0 else { b with turn := 0, round := b.round + 1 }
  let s := ({ s with band := { b with rounds := b.rounds + 1 } }).takeLead
  (s.enterRow old s.row e).shortfalls

/-- The round at whose start the first committed table takes effect, and that TIME: round 0 at BSEPOCH, or the first round start that
is not past (R304, R306). -/
def State.firstRound (s : State) : Nat × Nat :=
  let epoch := (s.pfReg 8).toNat
  let len := max 1 (roundNs (s.band.pending.getD []))
  if s.time ≤ epoch then (0, epoch) else ((s.time - epoch + len - 1) / len, epoch + (s.time - epoch + len - 1) / len * len)

/-- The first committed table takes effect (R306). -/
def State.firstCross (s : State) : State :=
  let (k, e) := s.firstRound
  let s := ({ s with band := { (s.band.install (s.pfReg 8).toNat k) with started := true } }).takeLead
  (s.enterRow none s.row e).shortfalls

/-- The packets that no halted cluster holds any more are performed, apart from those of tenants whose windows stand saved (R193, R358). -/
def State.releasePackets (s : State) : State :=
  (s.clusters.filter fun p => !p.2.ingress.isEmpty).foldl (fun s p => s.releaseIngress p.1) s

/-- The incoming tenant of VF `v` is restored and may run, once what was swept of it is performed (R193, R307, R308). -/
def State.finishEdge (s : State) (v : Nat) : State :=
  let due := (s.band.edgeAt.look v).getD 0 + s.band.guard
  let s := s.residue v
  let s := { s with band := { s.band with out := s.band.out.drop v } }
  let s := match s.tenantNow v with
    | some t => s.restoreTenant v t
    | none => s
  let s := (s.setPhase v .running).releasePackets
  if s.time ≤ due then s
  else
    (s.setVfReg v 0x10 (s.vfReg v 0x10 + BitVec.ofNat 64 (s.time - due))).record 8 v 0x61 0 0 0 0 [BitVec.ofNat 64 (s.time - due)]

/-- TURNEND of VF `v` (R310). -/
def State.turnEnd (s : State) (v : Nat) : State :=
  if s.band.done.getLsbD v then s
  else
    { s with band := { s.band with done := s.band.done ||| BitVec.ofNat 8 (2 ^ v), donateAt := s.band.donateAt.put v s.nextUs } }

/-- The donation of VF `v` takes effect (R310). -/
def State.donate (s : State) (v : Nat) : State :=
  let e := s.rowEntry v
  let w := s.band.weights
  let mine := (w.look v).getD (0, 0, 0)
  let w := if e.donate < 8 && !(s.rowEntry e.donate).idle then
      let dst := (w.look e.donate).getD (0, 0, 0)
      w.put e.donate (min 64 (dst.1 + mine.1), min 64 (dst.2.1 + mine.2.1), min 64 (dst.2.2 + mine.2.2))
    else w
  { s with band := { s.band with weights := w.put v (0, 0, 0), donateAt := s.band.donateAt.drop v,
                                 effect := s.band.effect ||| BitVec.ofNat 8 (2 ^ v) } }

/-- Every tenant that runs stops, where RUN is cleared at an instant that is no edge. -/
def State.stopNow (s : State) : State :=
  (List.range 8).foldl
    (fun s v =>
      match s.tenantNow v with
      | none => s
      | some a =>
        if s.phase v = .stopped then s
        else { s.stopVf v a with band := { (s.stopVf v a).band with edgeAt := (s.stopVf v a).band.edgeAt.put v s.time } }) s

/-- RUN is cleared: every VF is IDLE in every turn (R306), so every tenant stops; the table waits to take effect again. -/
def State.stopRun (s : State) : State :=
  if s.band.started then
    let s := s.stopNow
    { s with band := { s.band with started := false, pending := some (s.band.pending.getD s.band.rows),
                                   pendMin := if s.band.pending.isSome then s.band.pendMin else s.band.lmin } }
  else s

end Sys2Proof.Machine
end

