-- ==== Sys2Proof/Machine/Front.lean ====
section
/-! DEFINITION. The front end: its reads and writes of a tenant's and the host's memory, virtual queues and doorbells, status records,
completion adds, and the end of a launch (R31, R260, R314, R339, R342, R345 to R350). -/

namespace Sys2Proof.Machine

/-! ## Memory as the front end reaches it -/

/-- Where an address of a tenant leads the front end: the module's memory, or host memory, which also answers what the tenant's
tables do not map (R168, R344, R347). -/
inductive FrontPlace where
  | module (pa : Nat)
  | host (addr : Nat)
  deriving DecidableEq, Repr

/-- The place of a tenant's address for the front end. -/
def State.frontPlace (s : State) (v tenant : Nat) (a : Nat) : FrontPlace :=
  match s.walkBoth v (s.pasid v tenant) a with
  | none => .host a
  | some e =>
    let pa := e.pa + a % 2 ^ e.bits
    match e.kind with
    | .device => .host pa
    | _ => .module pa

/-- The pages that the front end reaches for `n` bytes of a tenant's memory, the tables' among them. -/
def State.frontPas (s : State) (v tenant a n : Nat) : List Nat :=
  (List.range (1 + (a % 4096 + n - 1) / 4096)).flatMap fun i =>
    let b := if i = 0 then a else (a / 4096 + i) * 4096
    s.walkPas v (s.pasid v tenant) b ++ match s.frontPlace v tenant b with
      | .module pa => [pa]
      | .host h => [h]

/-- Whether what has parked writes a tenant's memory for the front end. -/
def ParkedBy.writes (b : ParkedBy) : Bool :=
  match b with
  | .io _ _ _ _ | .packet _ _ _ _ _ _ _ => true
  | _ => false

/-- What the front end waits for before it reads `n` bytes of a tenant's memory: a page that is not available, or, for host memory, that the host has
yet to give (R172, R344), and what it has to write there first. -/
def State.frontGone (s : State) (v tenant a n : Nat) : Option Nat :=
  (s.frontPas v tenant a n).find? fun p => s.isUnavail p || s.faultQ.any fun q => q.by'.writes && q.pa / 4096 == p / 4096

/-- The front end's reads of `n` bytes of a tenant's memory pass the L2, with the walk (R163). -/
def State.frontTouch (s : State) (v tenant a n : Nat) : State :=
  let lines := (List.range ((a % 64 + n + 63) / 64)).filterMap fun i =>
    match s.frontPlace v tenant (a / 64 * 64 + 64 * i) with
    | .module pa => some pa
    | .host _ => none
  (s.walkPas v (s.pasid v tenant) a ++ lines).foldl (fun s pa => s.l2Touch v pa false) s

/-- `n` bytes the front end reads. -/
def State.frontRead (s : State) (v tenant a n : Nat) : List Byte :=
  match s.frontPlace v tenant a with
  | .module pa => s.mem.bytes pa n
  | .host h => s.hostMem.bytes h n

/-- A word the front end reads. -/
def State.frontWord (s : State) (v tenant a : Nat) : Word := BitVec.ofNat 64 (leNat (s.frontRead v tenant a 8))

/-- What the front end does waits in a fault queue for a page (R172, R344). -/
def State.frontPark (s : State) (pa : Nat) (b : ParkedBy) : State := { s with faultQ := s.faultQ ++ [{ pa := pa, core := 0, slot := 19, by' := b }] }

/-- Bytes the front end writes, as an engine of the module; the write waits for its page (R172, R344). -/
def State.frontWrite (s : State) (v tenant a : Nat) (bs : List Byte) : State :=
  match (s.frontPas v tenant a bs.length).find? fun p => s.isUnavail p with
  | some p => s.frontPark p (.io v tenant a bs)
  | none =>
    match s.frontPlace v tenant a with
    | .module pa => (s.performIo 19 v (cellsOf pa bs)).flushInvals 0 19
    | .host h => { s with hostMem := s.hostMem.store h bs }

/-- Whether the PCIe functions are up, so that the host reaches the VF blocks and the Bandstand (R353). -/
def State.hostOn (s : State) : Bool := s.lodge.up

/-- Whether the host reaches the physical function: in minimal mode too, where PCIe configuration runs (R353). -/
def State.pfOn (s : State) : Bool := s.lodge.up || s.lodge.minimal

/-! ## Virtual queues (R345 to R347) -/

/-- The descriptor of a virtual queue (R346). -/
def State.vqBase (s : State) (v tenant q : Nat) : Nat := field (s.vfReg v (0x200 + 8 * tenant)) 56 6 * 64 + 32 * q

/-- The fields of a descriptor: ring, LOG2N, die, V, HEAD, status array (R346). -/
structure VqDesc where
  ring : Nat
  log2n : Nat
  die : Nat
  valid : Bool
  head : Nat
  stat : Nat
  deriving DecidableEq, Repr

/-- Reads a descriptor (R346). -/
def State.vqDesc (s : State) (v tenant q : Nat) : VqDesc :=
  let a := s.vqBase v tenant q
  let w1 := s.frontWord v tenant (a + 8)
  { ring := field (s.frontWord v tenant a) 56 7 * 128, log2n := field w1 4 0, die := field w1 9 8, valid := bit w1 10,
    head := field (s.frontWord v tenant (a + 16)) 31 0, stat := field (s.frontWord v tenant (a + 24)) 56 3 * 8 }

/-- The accepted tail of a virtual queue: its HEAD when no doorbell has moved it. -/
def State.vqTail (s : State) (v tenant q : Nat) : Nat :=
  match s.vqs.find? fun x => x.vf == v && x.tenant == tenant && x.vq == q with
  | some x => x.tail.toNat
  | none => (s.vqDesc v tenant q).head

/-- The front end's view of a virtual queue takes a tail. -/
def State.setTail (s : State) (v tenant q tail : Nat) : State :=
  let rest := s.vqs.filter fun x => !(x.vf == v && x.tenant == tenant && x.vq == q)
  { s with vqs := rest ++ [⟨v, tenant, q, BitVec.ofNat 32 tail⟩] }

/-- A doorbell write (R345, R347): `pasid` is its requester's, `whole` says that it is a single 8-byte write. A nonzero value of the zero bits [31:21] is
ignored (R4), and drops nothing. It waits for the page of the descriptor it reads (R172, R344). -/
def State.doorbell (s : State) (v : Nat) (pasid : Option Nat) (whole : Bool) (w : Word) : State :=
  let i := field w 20 16
  let q := field w 15 0
  let tail := field w 63 32
  let d := s.vqDesc v i q
  let gone := s.frontGone v i (s.vqBase v i q) 32
  if !whole || !s.tenantValid v i || pasid ≠ some (s.pasid v i) || (gone.isNone && !d.valid) then
    s.setVfReg v 0x608 (s.vfReg v 0x608 + 1)
  else if gone.isSome then s.frontPark (gone.getD 0) (.bell v pasid whole w)
  else
    let s := s.frontTouch v i (s.vqBase v i q) 32
    let dist := (tail + 2 ^ 32 - d.head) % 2 ^ 32
    if 2 ^ d.log2n < dist then
      let a := s.vqBase v i q + 8
      s.frontWrite v i a (leBytes 8 (s.frontWord v i a ||| 0x800).toNat)
    else if dist ≤ (s.vqTail v i q + 2 ^ 32 - d.head) % 2 ^ 32 then s
    else s.setTail v i q tail

/-- The residency entries that hold a virtual queue (R314). -/
def State.residency (s : State) (v tenant q : Nat) : List Nat :=
  (List.range 192).filter fun e =>
    let w := s.pfReg (0x8000 + 8 * e)
    bit w 25 && field w 24 21 = v && field w 20 16 = tenant && field w 15 0 = q

/-! ## Status records and completion adds (R31, R349, R350) -/

/-- The status record of packet `n` (R349). -/
def statusWord (code stage n : Nat) : Word := BitVec.ofNat 64 (code + (if 2 ≤ code && code ≤ 5 then stage * 256 else 0) + n % 2 ^ 32 * 2 ^ 32)

/-- Writes a status record at its place (R349). -/
def State.writeStatus (s : State) (v tenant : Nat) (addr : Word) (w : Word) : State :=
  s.frontWrite v tenant addr.toNat (leBytes 8 w.toNat)

/-- The place of a completion sync slot, when it is an active SIGNAL slot on a writable near page (R350). -/
def State.complPlace (s : State) (v tenant : Nat) (compl : Word) : Option Nat :=
  if compl.toNat % 16 ≠ 0 then none
  else
    match s.virt v (s.pasid v tenant) compl with
    | none => none
    | some p =>
      if p.kind = .near && p.w && syncType (s.mem.word p.pa) = some .signal then some p.pa else none

/-- The completion add (R350): an add of 1 at the slot's home. -/
def State.complAdd (s : State) (pa : Nat) : State :=
  (s.syncUpdate 0 19 pa (clampAdd (s.mem.word pa) 1)).flushInvals 0 19

/-- A packet ends: its status record and then its completion add; a slot that is gone turns RUN into COMPLLOST (R350). Both wait for the pages they
need (R172, R344). -/
def State.endPacket (s : State) (v tenant code stage n : Nat) (stat compl : Word) : State :=
  match (s.frontPas v tenant stat.toNat 8 ++ if compl = 0 then [] else s.frontPas v tenant compl.toNat 16).find? fun p => s.isUnavail p with
  | some p => s.frontPark p (.packet v tenant code stage n stat compl)
  | none =>
  if compl = 0 then s.writeStatus v tenant stat (statusWord code stage n)
  else
    match s.complPlace v tenant compl with
    | some pa => (s.writeStatus v tenant stat (statusWord code stage n)).complAdd pa
    | none => s.writeStatus v tenant stat (statusWord (if code = 0 then 12 else code) stage n)

/-- The member cores of stage `g` of a launch (R8, R9). -/
def StageInfo.cores (g : StageInfo) : List Nat :=
  (List.range (g.w * g.h)).map fun m => coreAt g.die (g.x + m % g.w) (g.y + m / g.w)

/-- The gangs of launch `l` cease to be live (R31): its cores no longer belong to them. -/
def State.unlinkLaunch (s : State) (l : Nat) (x : Launch) : State :=
  let s := x.stages.foldl
    (fun s g => g.cores.foldl
      (fun s c => s.modVf c x.vf fun cv => if cv.launch = some l then { cv with launch := none, barArrived := false } else cv) s) s
  { s with tcores := s.tcores.map fun t =>
      if t.vf = x.vf && t.cv.launch = some l then { t with cv := { t.cv with launch := none, barArrived := false } } else t,
           launches := s.launches.put l { x with phase := .ended } }

/-- A launch ends with a code (R31, R339). -/
def State.endLaunch (s : State) (l : Nat) (code : Nat) : State :=
  match s.launches.look l with
  | none => s
  | some x => (s.unlinkLaunch l x).endPacket x.vf x.tenant code 0 x.num.toNat x.stat x.compl

/-- VF `v` is reset (R342): what it holds is discarded, its live launches end without a completion add, and RESET reads 0 again. -/
def State.resetVfAll (s : State) (v : Nat) : State :=
  let live := s.launches.filter fun p => p.2.vf == v && p.2.phase != .ended
  let s := live.foldl (fun s p => s.unlinkLaunch p.1 p.2) s
  let pages := s.vfPages v
  let outside (p : Nat × Launch) : Bool :=
    match s.frontPlace v p.2.tenant p.2.stat.toNat with
    | .module pa => !s.inVf v pages pa
    | .host _ => true
  let s := (live.filter outside).foldl
    (fun s p => s.writeStatus v p.2.tenant p.2.stat (statusWord 10 0 p.2.num.toNat)) s
  let s := s.resetVfState v
  s.setPf (0x100 + 0x80 * v) (s.pfReg (0x100 + 0x80 * v) &&& ~~~ 2)

end Sys2Proof.Machine
end

