-- ==== Sys2Proof/Machine/Kiosk.lean ====
section
/-! DEFINITION. Trace records and the Kiosk: halts, held packets and resumes (R329, R330, R357 to R359). -/

namespace Sys2Proof.Machine

/-! ## Trace (R329, R330) -/

/-- The number of a core in its cluster (R329). -/
def inCluster (c : Nat) : Nat := 4 * (yOf c % 4) + xOf c % 4

/-- Core `i` of cluster `n` (R330). -/
def clusterCore (n i : Nat) : Nat := coreAt (n / 96) (4 * (n % 12) + i % 4) (4 * (n % 96 / 12) + i / 4)

/-- The cores of a cluster. -/
def clusterCores (n : Nat) : List Nat := (List.range 16).map (clusterCore n)

/-- TRCTL (R330). -/
def State.trctl (s : State) : Word := s.pfReg 0x9408

/-- Whether slot `k` of core `c` is traced (R330). -/
def State.traced (s : State) (k : Nat) : Bool :=
  bit s.trctl 0 &&
    if k = 0 || k = 15 then bit s.trctl 16
    else s.slotOwner k < 8 && bit s.trctl (8 + s.slotOwner k)

/-- The trace state of a slot (R329). -/
def State.traceCode (s : State) (c k : Nat) : Nat :=
  let x := s.slotOf c k
  if s.frozen c || !s.scheduled k x then 4
  else
    match x.status with
    | .run => 0
    | .wait (.sendFull _) => 1
    | .wait w => if w.software then 3 else 2
    | _ => 4

/-- A trace block of core `c` closes and enters its cluster's ring (R329, R330). -/
def State.closeTrace (s : State) (c : Nat) : State :=
  let co := s.coreOf c
  if co.traceRecs.isEmpty then s
  else
    let n := clusterOf c
    let size := 65536 * 2 ^ field s.trctl 7 4
    let ptr := (s.clus n).trptr.toNat
    let s := s.modCore c fun co => { co with traceRecs := [] }
    if !bit s.trctl 1 && size < ptr + 64 then s
    else
      let head := inCluster c * 2 ^ 60 + co.traceStart % 2 ^ 56
      let recs := (co.traceRecs ++ List.replicate 14 (0xFFFFFFFF : Lane)).take 14
      let pa := field (s.pfReg 0x9400) 51 16 * 65536 + n * size + ptr % size
      let s := s.performFor c 20 8 (cellsOf pa (leBytes 8 head ++ recs.flatMap fun (r : Lane) => leBytes 4 r.toNat))
      s.modClus n fun cl => { cl with trptr := cl.trptr + 64 }

/-- A record enters a block among those of its cycle, which stand last, in increasing slot order (R329): the first of a cycle holds its delta. -/
def traceInsert (k : Nat) (st : Nat) (delta : Nat) (l : List Lane) : List Lane :=
  let slotOf (r : Lane) : Nat := field (r.setWidth 64) 28 25
  let rec' (d : Nat) (r : Lane) : Lane := BitVec.ofNat 32 (r.toNat / 2 ^ 25 * 2 ^ 25 + d)
  let new : Lane := BitVec.ofNat 32 (st * 2 ^ 29 + k * 2 ^ 25 + delta)
  let zeros := (l.reverse.takeWhile fun r => r.toNat % 2 ^ 25 == 0).length
  let n := if delta ≠ 0 then 0 else min l.length (zeros + 1)
  let head := l.take (l.length - n)
  let mine := l.drop (l.length - n)
  match mine with
  | [] => l ++ [new]
  | x :: _ =>
    let d := x.toNat % 2 ^ 25
    let put := (mine.filter fun r => slotOf r ≤ k) ++ [new] ++ mine.filter fun r => k < slotOf r
    head ++ (put.head?.map (rec' d)).toList ++ (put.drop 1).map (rec' 0)

/-- A record of a slot's change of state (R329). -/
def State.traceRecord (s : State) (c k st : Nat) : State :=
  let cyc := s.cycle c
  let s := if 2 ^ 25 ≤ cyc - (s.coreOf c).traceLast then s.closeTrace c else s
  let co := s.coreOf c
  let delta := if co.traceRecs.isEmpty then 0 else cyc - co.traceLast
  let s := s.modCore c fun co =>
    { co with traceRecs := traceInsert k st delta co.traceRecs, traceLast := cyc, traceStart := if co.traceRecs.isEmpty then cyc else co.traceStart,
              traceState := co.traceState.put k (BitVec.ofNat 3 st) }
  if 14 ≤ (s.coreOf c).traceRecs.length then s.closeTrace c else s

/-- TRCTL takes a value (R330): where EN is set, the rings start empty; the state of a slot that was not traced is the one it has. -/
def State.setTrctl (s : State) (w : Word) : State :=
  let t := s.setPf 0x9408 w
  let now (c k : Nat) (co : Core) : BitVec 3 :=
    if s.traced k then (co.traceState.look k).getD (BitVec.ofNat 3 (s.traceCode c k)) else BitVec.ofNat 3 (s.traceCode c k)
  let t := { t with cores := t.cores.over fun c co => { co with traceState := co.slots.map fun p => (p.1, now c p.1 co) } }
  if bit w 0 && !bit s.trctl 0 then
    { t with clusters := t.clusters.over fun _ cl => { cl with trptr := 0 }, cores := t.cores.over fun _ co => { co with traceRecs := [] } }
  else t

/-! ## Halts (R358) -/

/-- One slot stops at a boundary (R333, R358): a pending kill acts first; a wait is withdrawn, an instruction abandoned. -/
def State.haltSlot (s : State) (c k : Nat) : State :=
  match (s.slotOf c k).kill with
  | some r => if k = 0 then s else if k = 15 then s.abandonHandler c r.cause.code else s.killSlot c k r
  | none =>
    let waits := match (s.slotOf c k).status with
      | .wait _ => true
      | _ => false
    (s.withdraw c k).modSlot c k fun x => { x with withdrawn := waits }

/-- The cores of a cluster that the state lists. -/
def State.coresIn (s : State) (n : Nat) : List Nat := s.coreList.filter fun c => clusterOf c == n

/-- Fixed-latency results of every VF land on a core (R358). -/
def State.landAllVfs (s : State) (c : Nat) : State := (List.range 9).foldl (fun s v => s.landAll c v) s

/-- A cluster halts (R358, R359): `by'` is the slot of the DBGBRK or HALT that halts it. -/
def State.haltCluster (s : State) (n : Nat) (by' : BitVec 8) : State :=
  if (s.clus n).halting || (s.clus n).halted then s
  else
    let s := (s.coresIn n).foldl
      (fun s c => ((s.coreOf c).slots.map fun p => p.1).foldl (fun s k => s.haltSlot c k) (s.landAllVfs c)) s
    let s := (s.coresIn n).foldl (fun s c => s.closeTrace c) s
    s.modClus n fun cl =>
      { cl with halting := true, haltBy := by',
                frozen := (List.range 8).filterMap fun v =>
                  match s.band.out.look v, s.tenantNow v with
                  | some a, _ => some (v, a)
                  | none, some a => if s.phase v = .stopped then none else some (v, a)
                  | none, none => none }

/-- The module cross-trigger (R357): every cluster configured for it halts. -/
def State.crossTrigger (s : State) : State :=
  (s.clusters.filter fun p => bit p.2.kcfg 16).foldl (fun s p => s.haltCluster p.1 0) s

/-- A halt of a cluster, with the cross-trigger it fires (R357, R358). -/
def State.kioskHalt (s : State) (n : Nat) (by' : BitVec 8) : State :=
  let fire := bit (s.clus n).kcfg 17
  let s := s.haltCluster n by'
  if fire then s.crossTrigger else s

/-- Whether nothing is left of a cluster's halt: the matrix commands that have started are complete (R234, R358). -/
def State.haltReady (s : State) (n : Nat) : Bool := (s.clus n).halting && (s.coresIn n).all fun c => (s.mxBegun c).isNone

/-- HALTED becomes 1 (R358). -/
def State.haltDone (s : State) (n : Nat) : State :=
  if s.haltReady n then s.modClus n fun cl => { cl with halting := false, halted := true } else s

/-! ## Resume (R358, R359) -/

/-- Whether a physical address lies in a cluster's local memories or scratchpad. -/
def inHome (n pa : Nat) : Bool :=
  match rangeOf pa with
  | .loc c => clusterOf c == n
  | .spad c => c == n
  | _ => false

/-- The edges of VF `v` that passed while a cluster was halted are applied to it (R359). -/
def State.lateEdge (s : State) (n v : Nat) : State :=
  let was := (s.clus n).frozen.look v
  let now := if s.phase v = .stopped then none else s.tenantNow v
  if was = now then s
  else
    let s := match was with
      | none => s
      | some a =>
        let s := (s.coresIn n).foldl
          (fun s c => ((s.liveSlots c v).filter fun k => (s.slotOf c k).tenant.toNat == a).foldl (fun s k => (s.stopSlot c k).1) s) s
        let s := (s.coresIn n).foldl (fun s c => s.saveCore v a c) s
        s.saveWindows v a (inHome n)
    match now with
    | none => s
    | some b => s.restoreWhere v b (fun c => clusterOf c == n) (inHome n)

/-- The DBGBRK that halted a cluster completes at the resume (R361). -/
def Slot.pastBreak (x : Slot) : Slot :=
  match x.status with
  | .wait .halted => { x.advance with status := .run }
  | _ => x

/-- A cluster resumes (R358, R359, R361): the edges that passed, then the held packets in arrival order; its slots may run again. -/
def State.kioskResume (s : State) (n : Nat) : State :=
  if !(s.clus n).halted then s
  else
    let s := s.modClus n fun cl => { cl with halted := false, halting := false, haltBy := 0 }
    let s := { s with cores := s.cores.over fun c co => if clusterOf c = n then { co with slots := co.slots.over fun _ x => x.pastBreak } else co }
    let s := (List.range 8).foldl (fun s v => s.lateEdge n v) s
    let s := { s with cores := s.cores.over fun c co => if clusterOf c = n then { co with slots := co.slots.over fun _ x => { x with withdrawn := false } } else co }
    ((s.modClus n fun cl => { cl with frozen := [] }).releaseIngress n).writeSpills

/-- KSTAT (R357). -/
def State.kstat (s : State) (n : Nat) : Word :=
  let cl := s.clus n
  BitVec.ofNat 64 (flagAt cl.halted 0 + flagAt cl.halting 1 + cl.haltBy.toNat % 16 * 16 + cl.haltBy.toNat / 16 * 2 ^ 12 +
    min 256 cl.ingress.length * 2 ^ 16)

/-- The reason of a halted slot's context, word 0 of R340: that of its park; a stop's where it has not parked (log 60). -/
def State.heldReason (s : State) (c k : Nat) : Nat :=
  match (s.slotOf c k).status with
  | .parked r => r
  | _ => 0

/-- Whether a halted slot's instruction issues again, bit 12 of word 3 of R340: its wait was withdrawn by the halt or by its park. -/
def State.heldAgain (s : State) (c k : Nat) : Bool :=
  let x := s.slotOf c k
  match x.status with
  | .parked _ => ((s.ctxBlock x.vfid.toNat x.tenant.toNat c k).map fun b => bit (b.getD 3 0) 12).getD false
  | .wait .halted => false
  | _ => x.withdrawn

/-- KDATA (R357). -/
def State.kdata (s : State) (n : Nat) : Word :=
  let cl := s.clus n
  if !cl.halted then 0
  else
    let c := clusterCore n (field cl.ksel 3 0)
    ((s.ctxWords c (field cl.ksel 7 4) (s.heldReason c (field cl.ksel 7 4)) (s.heldAgain c (field cl.ksel 7 4)))[field cl.ksel 17 8]?).getD 0

end Sys2Proof.Machine
end

