-- ==== Sys2Proof/Machine/Registers.lean ====
section
/-! DEFINITION. The device registers: what reads give and what writes do, whoever makes them (R4, R303, R306, R314 to R316, R322,
R327, R328, R330, R339, R343, R345, R352, R356, R357). -/

namespace Sys2Proof.Machine

/-! ## Partitions and VFs (R302, R303, R342) -/

/-- The RW bits of the partition register at an offset of a VF's group (R315). -/
def partMask (off : Nat) : Option Word :=
  if off = 0x08 then some 0x7FFE
  else if off = 0x10 then some 0xFFFF
  else if off = 0x18 then some 0xFF7F
  else if off = 0x20 then some 0x7FFFFFF
  else if off = 0x28 then some 0x7F
  else if off = 0x30 || off = 0x38 || off = 0x40 || off = 0x48 then some 0xFFFFFFFFFFFF
  else none

/-- Whether a value of VF `v`'s partition register conflicts with another VF's, or with the sizes of the machine (R161, R303). -/
def State.partClash (s : State) (v off : Nat) (w : Word) : Bool :=
  let others := (List.range 8).filter (· != v)
  let reg (u : Nat) : Word := s.pfReg (0x100 + 0x80 * u + off)
  if off = 0x08 || off = 0x10 then others.any fun u => reg u &&& w != 0
  else if off = 0x18 then
    128 < field w 6 0 + field w 15 8 || others.any fun u =>
      0 < field w 15 8 && 0 < field (reg u) 15 8 && field w 6 0 < field (reg u) 6 0 + field (reg u) 15 8 &&
        field (reg u) 6 0 < field w 6 0 + field w 15 8
  else if off = 0x20 then
    others.any (fun u => reg u &&& w &&& 0x40FFFFF != 0) ||
      32 < field w 25 20 + (others.map fun u => field (reg u) 25 20).sum
  else if off = 0x28 then 96 < field w 6 0 + (others.map fun u => field (reg u) 6 0).sum
  else false

/-- A write to a partition register (R303). -/
def State.writePart (s : State) (v off : Nat) (w : Word) : State :=
  match partMask off with
  | none => s
  | some m => if s.vfIsUp v || s.partClash v off (w &&& m) then s.setReason 7 else s.setPf (0x100 + 0x80 * v + off) (w &&& m)

/-- VFCTL.STATE := 1 (R303): refused in minimal mode, and by a module whose last start was not completed (R353). -/
def State.bringUp (s : State) (v : Nat) : State :=
  if s.lodge.minimal || !s.lodge.up then s else s.setPf (0x100 + 0x80 * v) (s.pfReg (0x100 + 0x80 * v) ||| 1)

/-- VFCTL.STATE := 0 (R303): a VF that runs is first reset. -/
def State.takeDown (s : State) (v : Nat) : State :=
  let s := if s.vfIsUp v then s.resetVfAll v else s
  s.setPf (0x100 + 0x80 * v) (s.pfReg (0x100 + 0x80 * v) &&& ~~~ 1)

/-- A write of VFCTL (R315). -/
def State.writeVfctl (s : State) (v : Nat) (w : Word) : State :=
  let s := if bit w 1 then s.askReset v else s
  if bit w 0 then s.bringUp v else s.takeDown v

/-! ## The supervisor's registers (R316, R339) -/

/-- A handle's activity among the saved. -/
def State.savedBy (s : State) (h : Word) : Option Saved :=
  s.saved.find? fun x => field h 12 0 = x.core && field h 19 16 = x.slot && field h 51 20 = x.act.gen.toNat && field h 63 52 = 0 && field h 15 13 = 0

/-- PREEMPT (R316); handlers are not pre-empted (R154). An activity that a drain lead has parked or an edge has saved parks at its next YPT once it
runs again. -/
def State.preempt (s : State) (v : Nat) (h : Word) : State :=
  match s.byHandle h with
  | some (c, k) =>
    if (s.slotOf c k).vfid.toNat ≠ v || k = 15 then s
    else (s.modSlot c k fun x => { x with prePreempt := true }).parkWaiting c k
  | none =>
    match s.savedBy h with
    | some x =>
      if x.vf = v then { s with saved := s.saved.map fun y => if y = x then { x with act := { x.act with prePreempt := true } } else y } else s
    | none => s

/-- RESUME (R339): it stays parked across its tenant's other turns, and a drain lead under way reaches it. -/
def State.resume (s : State) (v : Nat) (h : Word) : State :=
  match s.byHandle h with
  | some (c, k) =>
    if (s.slotOf c k).vfid.toNat = v && (s.slotOf c k).status = .parked 2 then
      s.modSlot c k fun x => { x with status := .run, preLead := s.phase v == .draining }
    else s
  | none =>
    match s.savedBy h with
    | some x =>
      if x.vf = v && x.reason = 2 then
        let head (reason : Nat) : List Word := [BitVec.ofNat 64 (0x43580001 + reason * 2 ^ 32)]
        { s.patchCtx v x.tenant x.core x.slot (head 2) (head 1) with saved := s.saved.map fun y => if y = x then { x with reason := 1 } else y }
      else s
    | none => s

/-- UNFENCE (R339). -/
def State.unfence (s : State) (v c : Nat) : State :=
  if validCore c && (s.vfOf c v).fenced then s.modVf c v fun cv => { cv with fenced := false } else s

/-- Acts on what core `c` keeps for a tenant of VF `v`, or on what an edge has saved of it. -/
def State.asTenant (s : State) (v tenant c : Nat) (f : State → State) : State :=
  match s.tcores.find? fun t => t.vf == v && t.tenant == tenant && t.core == c with
  | none => f s
  | some t =>
    let now := s.vfOf c v
    let s' := f (s.modVf c v fun _ => { t.cv with fenced := now.fenced })
    { s'.modVf c v fun _ => now with tcores := s'.tcores.map fun x => if x = t then { t with cv := s'.vfOf c v } else x }

/-- The launch of VF `v` that KILLGANG names by core `c` (R339): the running tenant's there, else the first of another tenant's. -/
def State.gangLaunch (s : State) (v c : Nat) : Option Nat :=
  (s.vfOf c v).launch.orElse fun _ =>
    (s.launches.find? fun p => p.2.vf == v && p.2.phase != .ended && (p.2.stages.flatMap StageInfo.cores).elem c).map fun p => p.1

/-- The activities of launch `l` on a core are killed, and its deques and queues there are discarded (R336, R337, R339). -/
def State.killOn (s : State) (l : Nat) (x : Launch) (c : Nat) : State :=
  let s := ((s.liveSlots c x.vf).filter fun k => (s.slotOf c k).launch == some l).foldl
    (fun s k => s.killSlot c k ⟨.hbmiss, (s.slotOf c k).pc, (s.slotOf c k).hbi.setWidth 64⟩) s
  let h := s.slotOf c 15
  let s := if h.holds && h.launch = some l then s.abandonHandler c Cause.hbmiss.code else s
  (s.asTenant x.vf x.tenant c fun s => (s.discardDeque c x.vf x.tenant 0x20).discardInbox c x.vf).unfence x.vf c

/-- A saved activity is killed in its image (R336, R339): what the activity that stands in its slot meanwhile waits for stays. -/
def State.killSaved (s : State) (y : Saved) : State :=
  let s := (s.dropTs y.core y.slot y.act.gen).inImage y none fun s => s.killAct y.core y.slot ⟨.hbmiss, y.act.pc, y.act.hbi.setWidth 64⟩
  { s with saved := s.saved.filter fun z => !(z.core == y.core && z.slot == y.slot && z.act.gen == y.act.gen && z.vf == y.vf) }

/-- KILLGANG (R339): the activities of the launch are killed, on its cores and in its contexts, and the launch ends as FENCED. -/
def State.killGang (s : State) (v c : Nat) : State :=
  match (s.gangLaunch v c).bind fun l => (s.launches.look l).map fun x => (l, x) with
  | none => s
  | some (l, x) =>
    let s := (x.stages.flatMap StageInfo.cores).foldl (fun s c => s.killOn l x c) s
    let s := (s.saved.filter fun y => y.vf == v && y.act.launch == some l).foldl State.killSaved s
    s.endLaunch l 9

/-- A write of SYSCHAN(c) (R316). -/
def State.bindChan (s : State) (v c : Nat) (w : Word) : State :=
  let w := w &&& 0x81FFFFFFFFFFFFFE
  let taken := bit w 63 && (List.range 8).any fun u => u != v && bit (s.vfReg u (0x40 + 8 * c)) 63
  s.setVfReg v (0x40 + 8 * c) (if taken then 0 else w)

/-! ## Counters and trace (R322, R327, R328, R330) -/

/-- A write of PCSEL(j) (R322). -/
def State.writePcsel (s : State) (v j : Nat) (w : Word) : State :=
  { s with pcselPend := s.pcselPend.put (8 * v + j) (w &&& 0x3F, s.nextUs) }

/-- A PCSEL takes effect (R322): the counter starts from 0 on every core and for every tenant. -/
def State.effectPcsel (s : State) (v j : Nat) : State :=
  match s.pcselPend.look (8 * v + j) with
  | none => s
  | some (w, _) =>
    let zero (cv : CoreVf) : CoreVf := { cv with pcnt := cv.pcnt.drop j }
    let s := { s with
      pcselPend := s.pcselPend.drop (8 * v + j),
      cores := s.cores.over fun _ co =>
        match co.vfs.look v with
        | some cv => { co with vfs := co.vfs.put v (zero cv) }
        | none => co,
      tcores := s.tcores.map fun (t : TenantCore) => if t.vf = v then { t with cv := zero t.cv } else t }
    s.setVfReg v (0x300 + 8 * j) w

/-- A write of PWRPOL(v) (R327). -/
def State.writePwrpol (s : State) (v : Nat) (w : Word) : State :=
  let d := field w 10 8
  let slow := field w 6 4
  let fast := field w 2 0
  if slow < fast || d < fast || slow < d || 4 < d || 4 < slow || 4 < fast then s else s.setPf (0x9000 + 8 * v) (w &&& 0x777)

/-- A write of TRCTL (R330). -/
def State.writeTrctl (s : State) (w : Word) : State := { s with trctlPend := some (w &&& 0x1FFF3, s.nextUs) }

/-- TRCTL takes effect (R330). -/
def State.effectTrctl (s : State) : State :=
  match s.trctlPend with
  | none => s
  | some (w, _) => ({ s with trctlPend := none }).setTrctl w

/-- The module total of PCj for a tenant (R328): what its cores hold, and what its contexts hold. -/
def State.pcTotal (s : State) (v tenant j : Nat) : Word :=
  let live := (s.coreList.filter fun c => s.tenantOn (clusterOf c) v = some tenant).map fun c => (((s.vfOf c v).pcnt.look j).getD 0).toNat
  let kept := (s.tcores.filter fun t => t.vf == v && t.tenant == tenant).map fun t => ((t.cv.pcnt.look j).getD 0).toNat
  BitVec.ofNat 64 (live.sum + kept.sum)

/-- The totals are sampled (R328). -/
def State.samplePcs (s : State) : State :=
  { s with sampled := s.time,
           samples := (List.range 8).flatMap fun v =>
             if (List.range 8).all fun j => s.vfReg v (0x300 + 8 * j) = 0 then []
             else (List.range 32).flatMap fun i =>
               if s.tenantValid v i then (List.range 8).map fun j => (v * 1024 + i * 8 + j, s.pcTotal v i j) else [] }

/-- The tenant interface that a requester's PASID names (R328). -/
def State.interfaceOf (s : State) (v pasid : Nat) : Option Nat :=
  (List.range 32).find? fun i => s.tenantValid v i && s.pasid v i = pasid

/-- The place of an identity's latch of counter `j`, 8 for TIME (R328). -/
def latchKey (v : Nat) (pasid : Option Nat) (j : Nat) : Nat :=
  v * 2 ^ 32 + (match pasid with
    | none => 0
    | some p => p + 1) * 16 + j

/-- The value a low register samples, if its requester is known (R328). -/
def State.hostCounter (s : State) (v : Nat) (pasid : Option Nat) (j : Nat) : State × Option Word :=
  match pasid with
  | none =>
    if j = 8 then (s, some (BitVec.ofNat 64 s.time)) else ({ s with fresh := s.fresh + 1 }, some (Config.untaggedTotal s.fresh))
  | some p =>
    match s.interfaceOf v p with
    | none => (s, none)
    | some i => (s, some (if j = 8 then BitVec.ofNat 64 s.time else (s.samples.look (v * 1024 + i * 8 + j)).getD 0))

/-- A read of a low register (R328): the low half, and the latch of the high half. -/
def State.readLow (s : State) (v : Nat) (pasid : Option Nat) (j : Nat) : State × Word :=
  match s.hostCounter v pasid j with
  | (s, none) => (s, 0)
  | (s, some x) => ({ s with latches := s.latches.put (latchKey v pasid j) (x >>> 32) }, x &&& 0xFFFFFFFF)

/-- A read of a high register (R328). -/
def State.readHigh (s : State) (v : Nat) (pasid : Option Nat) (j : Nat) : Word :=
  match pasid with
  | some p => if (s.interfaceOf v p).isNone then 0 else (s.latches.look (latchKey v pasid j)).getD 0
  | none => (s.latches.look (latchKey v pasid j)).getD 0

/-! ## Firmware and links (R351, R352, R356) -/

/-- LODGESTAT (R352). -/
def State.lodgestat (s : State) : Word :=
  let l := s.lodge
  BitVec.ofNat 64 (flagAt l.west 0 + flagAt l.ready 1 + flagAt l.updating 2 + l.result.toNat * 256 + l.stVersion.toNat * 2 ^ 16 +
    l.fwVersion.toNat * 2 ^ 32)

/-- BOOTSTAT (R352). -/
def State.bootstat (s : State) : Word :=
  BitVec.ofNat 64 (s.lodge.fails.toNat + flagAt s.lodge.minimal 2 + s.lodge.reason.toNat * 256)

/-- UPDCMD (R351, R352). -/
def State.startUpdate (s : State) (w : Word) : State :=
  if w = 1 && !s.lodge.updating then { s with lodge := { s.lodge with updating := true, since := s.now } } else s

/-- BOOTCLR (R352). -/
def State.askClear (s : State) (w : Word) : State := if w = 1 then { s with lodge := { s.lodge with clearReq := true } } else s

/-- PORTSTAT(p) (R356). -/
def State.portstat (s : State) (p : Nat) : Word :=
  let x := (s.ports.look p).getD {}
  BitVec.ofNat 64 (x.rate + flagAt x.training 2 + flagAt x.retired 3 + x.replays % 2 ^ 32 * 2 ^ 16 + x.remote.toNat * 2 ^ 48)

/-- ISLSTAT(i) (R327). -/
def State.islstat (s : State) (i : Nat) : Word := BitVec.ofNat 64 ((s.isl i).level + flagAt (s.isl i).relock 3)

/-! ## The PF block (R315, R327, R330, R339, R343, R352, R356, R357) -/

/-- A write of BSCTL (R315): a DRAIN or GUARDT outside its range is refused. -/
def State.writeBsctl (s : State) (w : Word) : State :=
  let l := field w 13 8
  let g := field w 21 16
  if l < 2 || 32 < l || g < 1 || 16 < g then s.setReason 7
  else
    let s := if bit w 0 then s else s.stopRun
    s.setPf 0 (w &&& 0x3F3F01)

/-- A write of BSEPOCH, ignored while RUN is 1 (R306). -/
def State.writeEpoch (s : State) (w : Word) : State := if s.runOn then s else s.setPf 8 w

/-- A write of RES(e) (R314, R315): an entry that names a VF without the slot is refused, valid or not; an entry of zeros, as reset leaves it, names none
(log 77). -/
def State.writeRes (s : State) (e : Nat) (w : Word) : State :=
  if w &&& 0x3FFFFFF != 0 && !(s.hwqMask (field w 24 21) (e / 48)).testBit (e % 48) then s.setReason 7
  else s.setPf (0x8000 + 8 * e) (w &&& 0x3FFFFFF)

/-- The RW bits of a PF register without a behaviour of its own. -/
def pfPlain (off : Nat) : Option Word :=
  if 0x500 ≤ off && off < 0x700 && off % 0x40 < 0x28 then some 0x07FF07FF07FF07FF
  else if 0x1000 ≤ off && off < 0x5000 && off % 0x100 < 0x90 then some 0xFFFFFFFFFFFFFFFF
  else if 0x9100 ≤ off && off < 0x9200 then some 7
  else if 0xA800 ≤ off && off < 0xB000 then some 0xFFFFFC0000001
  else if off = 0xB000 then some 0x1FFFFFFFFFFFFC0
  else if off = 0xB008 then some 0x11F
  else if off = 0xB010 then some 0xFFFFFFFFFFFFFFFF
  else if off = 0xB108 then some 0xFFFFFFFFFFFFF000
  else if 0xB300 ≤ off && off < 0xB340 then some 0x800000000000000F
  else none

/-- A read-only or write-only register of the PF block, apart from those above. -/
def pfOther (off : Nat) : Bool :=
  off = 0 || off = 8 || off = 0x10 || off = 0x18 || (0x40 ≤ off && off < 0x68) || (0x100 ≤ off && off < 0x500 && off % 0x80 < 0x50) ||
    (0x700 ≤ off && off < 0x900 && off % 0x40 < 0x28) || (0x8000 ≤ off && off < 0x8600) || (0x9000 ≤ off && off < 0x9040) ||
    (0x9200 ≤ off && off < 0x9300) || off = 0x9400 || off = 0x9408 || (0x9800 ≤ off && off < 0xA400) || off = 0xB018 || off = 0xB020 ||
    off = 0xB100 || off = 0xB110 || off = 0xB118 || off = 0xB120 || (0xB200 ≤ off && off < 0xB280) || off = 0xB380 ||
    (0x10000 ≤ off && off < 0x16000 && off % 0x40 < 0x28)

/-- Whether the PF block holds a register at an offset, a multiple of 8. -/
def pfKnown (off : Nat) : Bool := (pfPlain off).isSome || pfOther off

/-- The fields of word `i`, of 16 bytes from the row's base, of a turn row, whose other bits read as zero (R4, R305). -/
def rowMask (i : Nat) : Word :=
  if i = 0 then 0xFFFF
  else if i = 8 then 0xFFFFFFFFFFFF
  else if i % 16 = 0 then 0x7F7F7F0F3F
  else 0xFFFFFFFFFFFF

/-- What a read of a PF register gives. -/
def State.readPf (s : State) (off : Nat) : Word :=
  if off = 8 then (if s.runOn && s.band.started then BitVec.ofNat 64 s.band.epoch else s.pfReg 8)
  else if off = 0x10 then
    BitVec.ofNat 64 (flagAt s.band.pending.isSome 0 + (s.pfReg 0x10).toNat + s.band.turn * 2 ^ 16 + s.band.rounds % 2 ^ 32 * 2 ^ 32)
  else if 0x700 ≤ off && off < 0x900 then
    BitVec.ofNat 64 (((List.range 4).map fun d => s.lmin ((off - 0x700) / 0x40) (off % 0x40 / 8) d * 2 ^ (16 * d)).sum)
  else if 0x9200 ≤ off && off < 0x9300 then s.islstat ((off - 0x9200) / 8)
  else if 0x9800 ≤ off && off < 0xA400 then (s.clus ((off - 0x9800) / 8)).trptr
  else if off = 0x18 || off = 0xB110 || off = 0xB120 then 0
  else if off = 0xB100 then s.lodgestat
  else if off = 0xB118 then s.bootstat
  else if 0xB200 ≤ off && off < 0xB300 then s.portstat ((off - 0xB200) / 8)
  else if 0x10000 ≤ off then
    let n := (off - 0x10000) / 0x40
    match off % 0x40 with
    | 0x08 => (s.clus n).kcfg
    | 0x10 => s.kstat n
    | 0x18 => (s.clus n).ksel
    | 0x20 => s.kdata n
    | _ => 0
  else if 0x1000 ≤ off && off < 0x5000 && off % 0x100 < 0x90 then s.pfReg off &&& rowMask (off % 0x100)
  else s.pfReg off

/-- What a write of a PF register does. A nonzero zero field of a turn row is kept for the check of the commit (R306). -/
def State.writePf (s : State) (off : Nat) (w : Word) : State :=
  if off = 0 then s.writeBsctl w
  else if off = 8 then s.writeEpoch w
  else if off = 0x18 then s.commit w
  else if 0x100 ≤ off && off < 0x500 then
    let v := (off - 0x100) / 0x80
    if off % 0x80 = 0 then s.writeVfctl v w else s.writePart v (off % 0x80) w
  else if 0x8000 ≤ off && off < 0x8600 then s.writeRes ((off - 0x8000) / 8) w
  else if 0x9000 ≤ off && off < 0x9040 then s.writePwrpol ((off - 0x9000) / 8) w
  else if off = 0x9400 then (if bit s.trctl 0 then s else s.setPf off (w &&& 0xFFFFFFFFF0000))
  else if off = 0x9408 then s.writeTrctl w
  else if off = 0xB110 then s.startUpdate w
  else if off = 0xB120 then s.askClear w
  else if 0x10000 ≤ off && off < 0x16000 then
    let n := (off - 0x10000) / 0x40
    match off % 0x40 with
    | 0x00 => if w = 1 then s.kioskHalt n 0 else if w = 2 then s.kioskResume n else s
    | 0x08 => s.modClus n fun cl => { cl with kcfg := w &&& 0x3FF01 }
    | 0x18 => s.modClus n fun cl => { cl with ksel := w &&& 0x3FFFF }
    | _ => s
  else
    match pfPlain off with
    | some m => s.setPf off (w &&& m)
    | none => s

/-! ## The VF block (R316, R322, R328, R339, R343, R345) -/

/-- The RW bits of a VF register without a behaviour of its own. -/
def vfPlain (off : Nat) : Option Word :=
  if 0x100 ≤ off && off < 0x200 then some 0x80000000000FFFFF
  else if 0x200 ≤ off && off < 0x300 then some 0x1FFFFFFFFFFFFC0
  else if off = 0x500 then some 0x1FFFFFFFFFFFFC0
  else if off = 0x508 then some 0x11F
  else if off = 0x510 then some 0xFFFFFFFFFFFFFFFF
  else none

/-- Whether a VF block holds a register at an offset, a multiple of 8. -/
def vfKnown (off : Nat) : Bool :=
  (vfPlain off).isSome || off < 0x60 || (0x300 ≤ off && off < 0x340) || (0x400 ≤ off && off < 0x448) || off = 0x518 || off = 0x520 ||
    off = 0x600 || off = 0x608

/-- VFSTAT (R316). -/
def State.vfstat (s : State) (v : Nat) : Word :=
  let e := s.rowEntry v
  BitVec.ofNat 64 (flagAt (s.vfIsUp v) 0 + s.band.turn % 64 * 2 + e.tenant % 32 * 2 ^ 7 + flagAt e.idle 12 +
    flagAt (s.band.done.getLsbD v) 13)

/-- What a read of a VF register gives, to a requester with a PASID or without. -/
def State.readVf (s : State) (v off : Nat) (pasid : Option Nat) (whole : Bool) : State × Word :=
  if off = 0 then (s, s.vfstat v)
  else if 0x20 ≤ off && off < 0x40 then (s, 0)
  else if 0x400 ≤ off && off < 0x448 then
    let j := if off = 0x400 then 8 else (off - 0x408) / 8
    let (s', lo) := s.readLow v pasid j
    (s', if whole then lo ||| (s'.readHigh v pasid j <<< 32) else lo)
  else if off = 0x600 then (s, 0)
  else (s, s.vfReg v off)

/-- What a write of a VF register does: `whole` says that it is a single 8-byte write. -/
def State.writeVf (s : State) (v off : Nat) (pasid : Option Nat) (whole : Bool) (w : Word) : State :=
  if off = 0x20 then s.preempt v w
  else if off = 0x28 then s.resume v w
  else if off = 0x30 then s.unfence v (field w 12 0)
  else if off = 0x38 then (if validCore (field w 12 0) then s.killGang v (field w 12 0) else s)
  else if 0x40 ≤ off && off < 0x60 then s.bindChan v ((off - 0x40) / 8) w
  else if 0x300 ≤ off && off < 0x340 then s.writePcsel v ((off - 0x300) / 8) w
  else if off = 0x600 then s.doorbell v pasid whole w
  else
    match vfPlain off with
    | some m => s.setVfReg v off (w &&& m)
    | none => s

/-! ## Accesses of slots (R192, R315, R316) -/

/-- The block of a device address: the PF's, a VF's, or the host's window. -/
inductive DevPlace where
  | pf (off : Nat)
  | vf (v off : Nat)
  | host (pa : Nat)
  deriving DecidableEq, Repr

/-- Where a device address lies (R158, R315, R316). -/
def devPlace (pa : Nat) : DevPlace :=
  if 0x8000001000000 ≤ pa && pa < 0x8000002000000 then .pf (pa - 0x8000001000000)
  else if 0x8000002000000 ≤ pa && pa < 0x8000002800000 then .vf ((pa - 0x8000002000000) / 0x100000) (pa % 0x100000)
  else .host pa

/-- Whether a slot may reach a device address (R315, R316): the PF block at F level, a VF's block at S level of that VF, or at F. -/
def State.mayReach (s : State) (pa : Nat) : Bool :=
  match devPlace pa with
  | .pf _ => s.cur.pl == 2
  | .vf v _ => s.cur.pl == 2 || (s.cur.pl == 1 && s.bankVf == v)
  | .host _ => true

/-- The PASID of the issuing slot's requests; the movement slot has none. -/
def State.reqPasid (s : State) : Option Nat :=
  if s.slot = 0 then none else some (s.pasid s.bankVf s.cur.tenant.toNat)

/-- `size` bytes of a register from byte `b`. -/
def part (w : Word) (b size : Nat) : Word := BitVec.ofNat 64 (w.toNat / 2 ^ (8 * b) % 2 ^ (8 * size))

/-- A register with `size` bytes from byte `b` replaced. -/
def merged (old new : Word) (b size : Nat) : Word :=
  BitVec.ofNat 64 (old.toNat - (part old b size).toNat * 2 ^ (8 * b) + new.toNat % 2 ^ (8 * size) * 2 ^ (8 * b))

/-- A device load of the issuing slot: what it gives, or none where no register stands. -/
def State.devRead (s : State) (size pa : Nat) : Option (State × Word) :=
  match devPlace pa with
  | .pf off => if pfKnown (off / 8 * 8) then some (s, part (s.readPf (off / 8 * 8)) (off % 8) size) else none
  | .vf v off =>
    let base := off / 8 * 8
    if !vfKnown base then none
    else if 0x400 ≤ off && off < 0x448 && 4 ≤ off % 8 then
      some (s, part (s.readHigh v s.reqPasid (if base = 0x400 then 8 else (base - 0x408) / 8)) (off % 8 - 4) size)
    else
      let (s', w) := s.readVf v base s.reqPasid (size == 8)
      some (s', part w (off % 8) size)
  | .host _ =>
    some ({ s with fresh := s.fresh + 1 }, BitVec.ofNat 64 (leNat ((List.range size).map (Config.hostByte s.fresh))))

/-- A device store of the issuing slot, performed exactly once (R192). -/
def State.devWrite (s : State) (size pa : Nat) (w : Word) : Option State :=
  match devPlace pa with
  | .pf off =>
    let base := off / 8 * 8
    if pfKnown base then some (s.writePf base (if size = 8 then w else merged (s.readPf base) w (off % 8) size)) else none
  | .vf v off =>
    let base := off / 8 * 8
    if vfKnown base then
      some (s.writeVf v base s.reqPasid (size == 8) (if size = 8 then w else merged (s.vfReg v base) w (off % 8) size))
    else none
  | .host h => some { s with devOut := s.devOut ++ [(h, size, w)], hostMem := s.hostMem.store h (leBytes size w.toNat) }

end Sys2Proof.Machine
end

