-- ==== Sys2Proof/Machine/Requests.lean ====
section
/-! DEFINITION. Requests at their homes: loads, device accesses, remote loads, and the fault queues in which a request waits for its
page (R172, R178, R192, R195 to R202, R210). -/

namespace Sys2Proof.Machine

/-- A load of up to 8 bytes (R173, R197). -/
def State.actLoad (s : State) (d : Reg) (size : Nat) (ea : Word) (pa : Nat) (pr home : Bool) : State :=
  match s.loadBytes home pr pa size with
  | (s', bs, poisoned) => if poisoned then s'.trap .poison ea else (s'.putS 0 d (BitVec.ofNat 64 (leNat bs))).retire

/-- The values of an element's lanes, from the `size` bytes read at its place. -/
def VldsWord.vals (w : VldsWord) (size : Nat) (v : Word) : List (Nat × Lane) :=
  if size = 4 then w.lanes.map fun i => (i, v.setWidth 32) else w.data v

/-- The reads of an element of a vector load: a device's word and a word of which both lanes act are read whole (R191, R192), and a lane that the
slot's own buffer supplies is read by itself (R179). -/
def State.reads (s : State) (size : Nat) (w : VldsWord) : List (Nat × VldsWord) :=
  if size = 4 || rangeOf w.pa = .device || (w.lanes.length = 2 && !w.lanes.any fun i => s.forwarded (w.pa + 4 * (i % 2)) 4) then [(size, w)]
  else
    w.lanes.map fun i =>
      (4, { w with ea := if w.lanes.length = 2 then w.ea + BitVec.ofNat 64 (4 * (i % 2)) else w.ea, pa := w.pa + 4 * (i % 2), lanes := [i] })

/-- One read of a vector load, from memory or from a device: the lanes, and whether they are poisoned; none where no register stands. -/
def State.readEl (s : State) (size : Nat) (w : VldsWord) : Option (State × List (Nat × Lane) × Bool) :=
  match rangeOf w.pa with
  | .device => (s.devRead size w.pa).map fun q => (q.1, w.vals size q.2, false)
  | _ =>
    match s.loadBytes false w.pr w.pa size with
    | (s', bs, p) => some (s', w.vals size (BitVec.ofNat 64 (leNat bs)), p)

/-- The reads of a vector load, and the lowest poisoned address (R173, R197, R198); an address at which no register stands is an error. -/
def State.readEls (s : State) : List (Nat × VldsWord) → Except Nat (State × List (Nat × Lane) × Option Word)
  | [] => .ok (s, [], none)
  | l :: ls =>
    match s.readEl l.1 l.2 with
    | none => .error l.2.pa
    | some (s', vs, p) =>
      match State.readEls s' ls with
      | .error a => .error a
      | .ok (s'', got, low) => .ok (s'', vs ++ got, if p then some (lowerAddr low l.2.ea) else low)

/-- VLD and VLDG (R197, R198). -/
def State.actVload (s : State) (d : Reg) (size : Nat) (els : List VldsWord) : Out :=
  match s.readEls (els.flatMap fun w => s.reads size w) with
  | .error a => .fault (.noDeviceRegister a)
  | .ok (s', _, some a) => .next (s'.trap .poison a)
  | .ok (s', got, none) => .next (s'.putV 0 d (gather got).1 (gather got).2).retire

/-- The device stores of a vector store, in lane order, and then its buffered part, for which there is room (R179, R192). -/
def State.actDevLanes (s : State) (rest : StoreEntry) : List (Nat × Nat × Word) → Out
  | [] => .next (if rest.bytes.isEmpty then s.retire else s.bufferStore rest)
  | p :: l =>
    match s.devWrite p.2.1 p.1 p.2.2 with
    | none => .fault (.noDeviceRegister p.1)
    | some s' => State.actDevLanes s' rest l

/-- FLUSHL on a line of far memory: it is written back and dropped from its home's L2 and from the slot's own die's RDC (R210). -/
def State.actFlush (s : State) (pa : Nat) : State :=
  let line := pa / 64 * 64
  match rangeOf pa with
  | .far h => ((s.modDie h fun d => { d with l2 := d.l2.drop line }).modDie (dieOf s.core) fun d => d.dropRdc (· == line)).retire
  | _ => s.retire

/-- RLD at its bank (R188, R202): after the slot's earlier posted stores to the word. One of those that the Kiosk holds holds it too, or it reads the
word as it stands, which R359 allows: a free choice (log 80). -/
def State.actRld (s : State) (d : Reg) (addr : Word) (pa : Nat) : State :=
  let read (s : State) : State := if s.isPoisoned pa then s.trap .poison addr else (s.putS 0 d (s.mem.word pa)).retire
  match s.postedTo s.core s.slot pa (postedWords s.cur.posted).length with
  | none =>
    if s.heldHome pa && Config.rldPasses s.fresh then read { s with fresh := s.fresh + 1 }
    else { s.hold (.fence .thread true) with fresh := s.fresh + 1 }
  | some s' => read s'

/-- The physical addresses whose pages a request needs available (R172). -/
def Req.places : Req → List Nat
  | .load _ _ _ pa _ _ | .lds _ _ pa _ _ | .take _ _ pa _ _ _ | .takenb _ _ pa _ _ _ | .put _ _ pa _ | .fill pa _ | .empty pa
  | .festat _ pa _ | .flush pa | .rld _ _ _ pa _ | .devLoad _ _ pa | .devStore _ pa _ | .syinit _ pa _ _ _ _ _ | .syadd _ pa _ _
  | .syarrive _ _ pa _ | .sywait _ _ pa _ _ | .syread _ _ pa _ | .syret _ pa _ | .obowe _ pa _ | .obrank _ _ pa | .forkJoin _ pa _
  | .taskArrive _ pa => [pa]
  | .vload _ _ els => els.map fun w => w.pa
  | .devLanes parts _ => parts.map fun p => p.1
  | .vlds _ todo _ => todo.map fun w => w.pa
  | .vldsWord w => [w.pa]

/-- The issuing slot's request is performed at its home. -/
def State.act (s : State) (r : Req) : Out :=
  match r with
  | .load d size ea pa pr home => .next (s.actLoad d size ea pa pr home)
  | .vload d size els => s.actVload d size els
  | .devLanes parts rest => s.actDevLanes rest parts
  | .flush pa => .next (s.actFlush pa)
  | .rld d addr base pa target =>
    if (s.vfOf target s.bankVf).fenced then .next (s.trap .remote base) else .next (s.actRld d addr pa)
  | .devLoad d size pa =>
    match s.devRead size pa with
    | none => .fault (.noDeviceRegister pa)
    | some (s', v) => .next (s'.putS 0 d v).retire
  | .devStore size pa v =>
    match s.devWrite size pa v with
    | none => .fault (.noDeviceRegister pa)
    | some s' => .next s'.retire
  | r => .next (s.actHome r)

/-- Whether the slot's own buffered stores supply every lane of an element (R179). -/
def State.suppliedEl (s : State) (size : Nat) (w : VldsWord) : Bool :=
  if size = 4 then s.forwarded w.pa 4 else w.lanes.all fun i => s.forwarded (w.pa + 4 * (i % 2)) 4

/-- The physical addresses whose pages a request of the issuing slot needs: a load that its own buffered stores supply reads nothing from memory
(R172, R179). -/
def State.needs (s : State) (r : Req) : List Nat :=
  match r with
  | .load _ size _ pa _ _ => if s.forwarded pa size then [] else [pa]
  | .vload _ size els => (els.filter fun w => !s.suppliedEl size w).map fun w => w.pa
  | r => r.places

/-- The obligation of the issuing slot that a request discharges (R268). -/
def State.paidBy (s : State) (r : Req) : Option Oblig :=
  let mine := s.obsOf s.core s.slot
  match r with
  | .put _ _ _ obj | .fill _ obj => pickOb mine .put obj
  | .syadd _ _ obj _ => pickOb mine .signal obj
  | .syarrive _ _ _ obj => pickOb mine .arrive obj
  | .taskArrive _ _ => s.forkOb s.core s.slot
  | _ => none

/-- The issuing slot sends a request to its home, where it parks when a page it needs is unavailable (R172), and is held where it would change
something at a halted cluster (R358); it is not sent while the obligation it discharges cannot be read back (R265, R311). -/
def State.ask (s : State) (r : Req) : Out :=
  s.afterRecall (s.paidBy r) fun s => match (s.needs r).find? fun pa => s.isUnavail pa with
  | some pa => .next ((s.wait (.parked r (pa / 4096))).parkAt pa s.core s.slot .slot)
  | none =>
    match (if s.alters r then r.places.find? fun pa => s.heldHome pa else none) with
    | some pa => .next ((s.wait (.parked r (pa / 4096))).holdPacket pa (.request s.core s.slot pa))
    | none => s.act r

/-- The memory controller in whose fault queue a request parks (R172, R204): one of a die's sixteen near-memory controllers, by granule; of far
memory one for each channel (R158); any other home. -/
def controllerOf (pa : Nat) : Nat :=
  match rangeOf pa with
  | .far d => 0x6000 + d * 16 + pa / 256 % 16
  | _ => homeId pa

/-- Whether a parked request stands in its controller's queue of 256 entries: those behind a full queue are held back in the network, and enter in order
of arrival as others leave (R172, R211). -/
def State.inQueue (s : State) (q : Parked) : Bool := ((s.faultQ.filter fun x => controllerOf x.pa == controllerOf q.pa).take 256).elem q

/-- The first request of the queues whose page is available: it replays next (R172). -/
def State.nextReplay (s : State) : Option Parked := s.faultQ.find? fun q => !s.isUnavail q.pa && s.inQueue q

/-- A buffered store that found its page unavailable is performed (R172, R179): the words it still writes in the page, if they may leave now. -/
def State.replayStore (s : State) (q : Parked) : State :=
  let buf := (s.slotOf q.core q.slot).storeBuf
  let words := (List.range buf.length).flatMap fun i => ((buf[i]?.map StoreEntry.words).getD []).map fun w => (i, w)
  match (List.range words.length).find? fun n => (words[n]?.map fun p => p.2) == some (q.pa / 8) with
  | none => s
  | some n => (s.drainWord q.core q.slot n).getD s

/-- The instruction waits for its own slot's buffered stores, then goes on (R185): a store that cannot be performed yet holds it
before any effect. -/
def State.afterDrain (s : State) (f : State → Out) : Out :=
  match s.drained s.core s.slot with
  | none => .next (s.hold .drain)
  | some s' => f s'

/-- A read at the home of words that the slot's own buffer still writes comes after those stores (R179, R185). -/
def State.ownFirst (s : State) (pas : List Nat) (f : State → Out) : Out :=
  if s.cur.storeBuf.any fun e => e.bytes.any fun p => pas.elem (p.1 / 8 * 8) then s.afterDrain f else f s

/-- The instruction releases at a scope, then goes on (R181). -/
def State.afterRelease (s : State) (sc : Scope) (f : State → Out) : Out :=
  match s.release sc with
  | none => .next (s.hold .drain)
  | some s' => f s'

end Sys2Proof.Machine
end

