-- ==== Sys2Proof/Machine/Tables.lean ====
section
/-! DEFINITION. Decode tables and the small formats: entries, decoding and encoding (R71 to R81), as conversions, table loads and
the matrix unit use them. -/

namespace Sys2Proof.Machine

/-- An entry word (R77): class in [20:19], e8m10 value in [18:0]. -/
abbrev Entry := BitVec 21

/-- The class of an entry: 0 finite, 1 infinity, 2 NaN, 3 unused. -/
def Entry.cls (e : Entry) : Nat := (e.extractLsb' 19 2).toNat

/-- A finite entry from an exact value. -/
def finEntry (neg : Bool) (m : Nat) (e : Int) : Entry := BitVec.ofNat 21 (e8m10.round .rne neg m e).1

/-- An infinity entry: only its sign. -/
def infEntry (neg : Bool) : Entry := BitVec.ofNat 21 (2 ^ 19 + if neg then 2 ^ 18 else 0)

/-- A NaN entry. -/
def nanEntry : Entry := BitVec.ofNat 21 (2 * 2 ^ 19)

/-- An unused entry. -/
def unusedEntry : Entry := BitVec.ofNat 21 (3 * 2 ^ 19)

/-- A finite code of a format with `fb` fraction bits and a bias, all of whose codes are finite (R71). -/
def smallNum (eb fb bias code : Nat) : FNum :=
  let neg := code.testBit (eb + fb)
  let ex := code / 2 ^ fb % 2 ^ eb
  let fr := code % 2 ^ fb
  if ex = 0 then .fin neg fr (1 - (bias : Int) - fb) else .fin neg (2 ^ fb + fr) ((ex : Int) - bias - fb)

/-- A number as an entry. -/
def entryOf : FNum → Entry
  | .nan _ => nanEntry
  | .inf n => infEntry n
  | .fin n m e => finEntry n m e

/-- The preset tables 0 to 3 (R76). -/
def presetEntry (t code : Nat) : Entry :=
  match t with
  | 0 => if code % 128 = 0x7F then nanEntry else entryOf (smallNum 4 3 7 code)
  | 1 =>
    if code % 128 = 0x7C then infEntry (128 ≤ code) else if 0x7C < code % 128 then nanEntry else entryOf (smallNum 5 2 15 code)
  | 2 => if code < 128 then finEntry false code 0 else finEntry true (256 - code) 0
  | _ => if code = 255 then nanEntry else finEntry false 1 ((code : Int) - 127)

/-- The entry of a code in table `t` of VF `v` on core `c` (R75, R76). -/
def State.entry (s : State) (c v t code : Nat) : Entry :=
  if t < 4 then presetEntry t code
  else (((s.vfOf c v).tables.look t).bind fun m => m.look code).getD unusedEntry

/-- The word of a table image as an entry, and whether it sets NV (R77). -/
def loadEntry (w : Lane) : Entry × Bool :=
  let cls := (w.extractLsb' 19 2).toNat
  let v := w.extractLsb' 0 19
  if (w.extractLsb' 21 11) != 0 then (unusedEntry, true)
  else if cls = 0 then
    (if v.extractLsb' 10 8 == 0xFF then (unusedEntry, true) else (v.setWidth 21, false))
  else if cls = 1 then (infEntry (v.getLsbD 18), false)
  else if cls = 2 then (nanEntry, false)
  else (unusedEntry, false)

/-- What an entry decodes to (R79). -/
def Entry.num (e : Entry) : FNum :=
  match e.cls with
  | 0 => e8m10.read (e.toNat % 2 ^ 19)
  | 1 => .inf (e.getLsbD 18)
  | _ => .nan false

/-! ## Encoding (R80, R81) -/

/-- A finite value as an integer count of 2^-160, which every value here is. -/
def fixedOf : FNum → Int
  | .fin n m e => (if n then -1 else 1) * ((m * 2 ^ (e + 160).toNat : Nat) : Int)
  | _ => 0

/-- A finite code of a target: the code, its sign, its value. -/
structure CodeVal where
  code : Nat
  neg : Bool
  val : Int

/-- Choose(S, x): codes with the sign of `x` first, then even codes, then the lowest (R80). -/
def choose (neg : Bool) (l : List CodeVal) : Nat :=
  let a := l.filter fun c => c.neg == neg
  let a := if a.isEmpty then l else a
  let b := a.filter fun c => c.code % 2 == 0
  let b := if b.isEmpty then a else b
  (b.foldl (fun (m : Option Nat) c => match m with
    | none => some c.code
    | some x => some (min x c.code)) none).getD 0

/-- What an encoder knows of its target: the finite codes, and the lowest codes that are NaN and infinities. -/
structure Target where
  fins : List CodeVal
  nan : Option Nat
  posInf : Option Nat
  negInf : Option Nat

/-- The least and the greatest of the finite values. -/
def Target.lo (t : Target) : Int := t.fins.foldl (fun m c => min m c.val) ((t.fins.head?.map fun c => c.val).getD 0)
/-- The greatest of the finite values. -/
def Target.hi (t : Target) : Int := t.fins.foldl (fun m c => max m c.val) ((t.fins.head?.map fun c => c.val).getD 0)

/-- Encode a value of a sign beyond the finite codes: below the least, or above the greatest (R80). -/
def Target.beyond (t : Target) (neg isInf below ovf : Bool) : Nat × FFlags :=
  match ovf, (if neg then t.negInf else t.posInf) with
  | true, some c => (c, if isInf then 0 else flagOF ||| flagNX)
  | _, _ =>
    (choose neg (t.fins.filter fun c => c.val == (if below then t.lo else t.hi)), if isInf then flagNV else flagOF ||| flagNX)

/-- Encode(t, x, ovf) (R80). -/
def Target.encode (t : Target) (x : FNum) (ovf : Bool) : Nat × FFlags :=
  match x with
  | .nan _ =>
    match t.nan with
    | some c => (c, 0)
    | none => (0, flagNV)
  | .inf n => if t.fins.isEmpty then (0, flagNV) else t.beyond n true n ovf
  | .fin n m e =>
    if t.fins.isEmpty then (0, flagNV)
    else
      let v := fixedOf (.fin n m e)
      if t.hi < v then t.beyond n false false ovf
      else if v < t.lo then t.beyond n false true ovf
      else
        let best := t.fins.foldl (fun (m : Nat) c => min m (v - c.val).natAbs) (v - t.lo).natAbs
        (choose n (t.fins.filter fun c => (v - c.val).natAbs == best), if best = 0 then 0 else flagNX)

/-- A code's finite value, if it has one. -/
def codeVal (code : Nat) : FNum → Option CodeVal
  | .fin n m e => some ⟨code, n, fixedOf (.fin n m e)⟩
  | _ => none

/-- Table `t` of VF `v` on core `c` as a target. -/
def State.target (s : State) (c v t : Nat) : Target :=
  let es := (List.range 256).map fun code => (code, s.entry c v t code)
  { fins := es.filterMap fun p => if p.2.cls = 0 then codeVal p.1 p.2.num else none,
    nan := (es.find? fun p => p.2.cls == 2).map fun p => p.1,
    posInf := (es.find? fun p => p.2.cls == 1 && !p.2.getLsbD 18).map fun p => p.1,
    negInf := (es.find? fun p => p.2.cls == 1 && p.2.getLsbD 18).map fun p => p.1 }

/-- The value of an FP6 code: E2M3 or E3M2 (R71). -/
def fp6Num (e3m2 : Bool) (code : Nat) : FNum := if e3m2 then smallNum 3 2 3 (code % 64) else smallNum 2 3 1 (code % 64)

/-- The value of an FP4 code (R71). -/
def fp4Num (code : Nat) : FNum := smallNum 2 1 1 (code % 16)

/-- FP6 as a target (R81). -/
def fp6Target (e3m2 : Bool) : Target :=
  { fins := (List.range 64).filterMap fun c => codeVal c (fp6Num e3m2 c), nan := none, posInf := none, negInf := none }

/-- FP4 as a target (R81). -/
def fp4Target : Target :=
  { fins := (List.range 16).filterMap fun c => codeVal c (fp4Num c), nan := none, posInf := none, negInf := none }

end Sys2Proof.Machine
end

