-- ==== Sys2Proof/Machine/LoadStore.lean ====
section
/-! DEFINITION. Loads, stores, gathers and scatters, acquire, release and fence, remote loads and stores, prefetch and flush, TBLLD
(R136, R179 to R181, R195 to R203, R210). -/

namespace Sys2Proof.Machine

/-! ## Shared shapes -/

/-- An access of the issuing slot at an address: its checks (R171), the hold of its walk and of its request in a donated turn (R311), and then `f` at
the place. -/
def State.withPlace (s : State) (ea : Word) (w : Want) (f : State → Place → Out) : Out :=
  if ea.toNat % w.size = 0 && s.walkHeld ea then .next (s.holdWalk ea)
  else
    match s.resolve ea w with
    | (s', .error c) => .next (s'.trap c ea)
    | (s', .ok p) =>
      if p.kind != .window && s'.donated s'.bankVf then .next (s'.hold .donated) else f s' p

/-- An access of the issuing slot whose request, if it makes one, is held elsewhere: its checks (R171), and the hold of its walk (R311). -/
def State.withStore (s : State) (ea : Word) (w : Want) (f : State → Place → Out) : Out :=
  if ea.toNat % w.size = 0 && s.walkHeld ea then .next (s.holdWalk ea)
  else
    match s.resolve ea w with
    | (s', .error c) => .next (s'.trap c ea)
    | (s', .ok p) => f s' p

/-- A device access of the issuing slot, where its level may reach the block (R315, R316). -/
def State.askDevice (s : State) (ea : Word) (pa : Nat) (r : Req) : Out :=
  if !s.mayReach pa then .next (s.trap .perm ea)
  else if s.donated s.bankVf then .next (s.hold .donated)
  else s.ask r

/-- A scalar load (R197), from its home where it is an acquire at MODULE or SYSTEM scope (R181, R199). -/
def loadInto (g : Pred) (s : State) (d : Reg) (base : SSrc) (off : BitVec 30) (size : Nat) (home : Bool) : Out :=
  guarded g s <|
    s.withStore (s.ea base off size) { size := size } fun s' p =>
      if p.kind = .device then s'.askDevice (s.ea base off size) p.pa (.devLoad d size p.pa)
      else if p.kind != .window && s'.donated s'.bankVf && !s'.forwarded p.pa size then .next (s'.hold .donated)
      else s'.ask (.load d size (s.ea base off size) p.pa p.pr home)

/-- A scalar store (R197), or with a scope a STREL (R199). -/
def storeFrom (g : Pred) (s : State) (a : SSrc) (base : SSrc) (off : BitVec 30) (size : Nat) (release : Option Scope) : Out :=
  guarded g s <|
    s.withStore (s.ea base off size) { size := size, write := true } fun s' p =>
      if p.kind = .device then
        match release with
        | none => s'.askDevice (s.ea base off size) p.pa (.devStore size p.pa (part (s.ssrc a) 0 size))
        | some sc =>
          if !s'.mayReach p.pa then .next (s'.trap .perm (s.ea base off size))
          else s'.afterRelease sc fun s'' =>
            s''.askDevice (s.ea base off size) p.pa (.devStore size p.pa (part (s.ssrc a) 0 size))
      else .next (s'.bufferStore (s'.storeEntry (cellsOf p.pa (leBytes size (s.ssrc a).toNat)) release false))

/-! ## Scalar loads and stores (R197) -/

/-- LDB. -/
def execLdb (g : Pred) (d : Reg) (base : SSrc) (off : BitVec 30) (s : State) : Out := loadInto g s d base off 1 false
/-- LDH. -/
def execLdh (g : Pred) (d : Reg) (base : SSrc) (off : BitVec 30) (s : State) : Out := loadInto g s d base off 2 false
/-- LDW. -/
def execLdw (g : Pred) (d : Reg) (base : SSrc) (off : BitVec 30) (s : State) : Out := loadInto g s d base off 4 false
/-- LDD. -/
def execLdd (g : Pred) (d : Reg) (base : SSrc) (off : BitVec 30) (s : State) : Out := loadInto g s d base off 8 false
/-- STB. -/
def execStb (g : Pred) (a : SSrc) (base : SSrc) (off : BitVec 30) (s : State) : Out := storeFrom g s a base off 1 none
/-- STH. -/
def execSth (g : Pred) (a : SSrc) (base : SSrc) (off : BitVec 30) (s : State) : Out := storeFrom g s a base off 2 none
/-- STW. -/
def execStw (g : Pred) (a : SSrc) (base : SSrc) (off : BitVec 30) (s : State) : Out := storeFrom g s a base off 4 none
/-- STD. -/
def execStd (g : Pred) (a : SSrc) (base : SSrc) (off : BitVec 30) (s : State) : Out := storeFrom g s a base off 8 none

/-- LDACQ (R199). -/
def execLdacq (g : Pred) (d : Reg) (base : SSrc) (off : BitVec 30) (scope : Scope) (s : State) : Out :=
  loadInto g s d base off 8 (scope = .module || scope = .system)

/-- STREL (R199). -/
def execStrel (g : Pred) (a : SSrc) (base : SSrc) (off : BitVec 30) (scope : Scope) (s : State) : Out :=
  storeFrom g s a base off 8 (some scope)

/-! ## Vector loads and stores (R195, R197, R198) -/

/-- The 8-byte words of a vector that hold an acting lane (R195). -/
def actingWords (m : BitVec 16) : List Nat := (List.range 8).filter fun w => m.getLsbD (2 * w) || m.getLsbD (2 * w + 1)

/-- One element of a vector access (R195, R197, R198): the lane, its address, its physical address, and whether its page is poisoned on read
(R174). -/
structure LaneLoad where
  lane : Nat
  ea : Word
  pa : Nat
  pr : Bool
  deriving DecidableEq, Repr

/-- The places of addresses, each checked, in order; the first failure stops with its cause and its address. A device block that the slot's level
may not reach is PERM (R315, R316). -/
def State.resolveAll (s : State) (w : Want) : List Word → State × Except (Cause × Word) (List Place)
  | [] => (s, .ok [])
  | a :: l =>
    match s.resolve a w with
    | (s', .error c) => (s', .error (c, a))
    | (s', .ok p) =>
      if p.kind = .device && !s'.mayReach p.pa then (s', .error (.perm, a))
      else match State.resolveAll s' w l with
      | (s'', .error e) => (s'', .error e)
      | (s'', .ok ps) => (s'', .ok (p :: ps))

/-- The acting lanes of a vector access with their addresses and places: `words` pairs each word number with its place. -/
def lanesAt (m : BitVec 16) (ea : Word) (words : List (Nat × Place)) : List (LaneLoad × MemKind) :=
  words.flatMap fun q =>
    ([2 * q.1, 2 * q.1 + 1].filter fun i => m.getLsbD i).map fun i =>
      (⟨i, ea + BitVec.ofNat 64 (4 * i), q.2.pa + 4 * (i % 2), q.2.pr⟩, q.2.kind)

/-- The words of a vector load at EA, each with its acting lanes and the address of the lowest (R191). -/
def wordEls : List LaneLoad → List VldsWord
  | [] => []
  | [a] => [⟨a.ea, a.pa - 4 * (a.lane % 2), a.pr, [a.lane]⟩]
  | a :: b :: l =>
    if a.lane % 2 = 0 && b.lane = a.lane + 1 then ⟨a.ea, a.pa, a.pr, [a.lane, b.lane]⟩ :: wordEls l
    else ⟨a.ea, a.pa - 4 * (a.lane % 2), a.pr, [a.lane]⟩ :: wordEls (b :: l)

/-- Sends a vector load of lanes, as the words of a vector (`size` 8) or as elements (4), where a donation does not hold it (R191, R311). -/
def State.askLanes (s : State) (d : Reg) (size : Nat) (lanes : List (LaneLoad × MemKind)) : Out :=
  let ls := lanes.map fun q => q.1
  if lanes.any (fun q => q.2 != .window && !s.forwarded q.1.pa 4) && s.donated s.bankVf then .next (s.hold .donated)
  else s.ask (.vload d size (if size = 8 then wordEls ls else ls.map fun q => ⟨q.ea, q.pa, q.pr, [q.lane]⟩))

/-- The device stores of a vector store, in lane order (R191, R192): of a vector at EA a word of which both lanes act in one, otherwise lanes. -/
def devParts (v : Vec) (size : Nat) : List LaneLoad → List (Nat × Nat × Word)
  | [] => []
  | [a] => [(a.pa, 4, (lane v a.lane).setWidth 64)]
  | a :: b :: l =>
    if size = 8 && a.lane % 2 = 0 && b.lane = a.lane + 1 then (a.pa, 8, v.extractLsb' (32 * a.lane) 64) :: devParts v size l
    else (a.pa, 4, (lane v a.lane).setWidth 64) :: devParts v size (b :: l)

/-- Sends a vector store of lanes: memory lanes through the store buffer, device lanes at once (R179, R192). One with both waits for room in the
buffer before any effect. -/
def State.storeLanes (s : State) (v : Vec) (size : Nat) (lanes : List (LaneLoad × MemKind)) : Out :=
  let dev := (lanes.filter fun q => q.2 = .device).map fun q => q.1
  let cells := (lanes.filter fun q => q.2 != .device).flatMap fun q => cellsOf q.1.pa (leBytes 4 (lane v q.1.lane).toNat)
  let rest := s.storeEntry cells none (size == 4)
  if dev.isEmpty then (if cells.isEmpty then .next s.retire else .next (s.bufferStore rest))
  else if s.donated s.bankVf then .next (s.hold .donated)
  else if !cells.isEmpty && decide (8 ≤ s.cur.storeBuf.length) then .next (s.hold .drain)
  else s.ask (.devLanes (devParts v size dev) rest)

/-- The places of a vector access at EA: ALIGN on EA whatever the mask, the other checks for the acting words (R195). -/
def State.vectorPlaces (s : State) (ea : Word) (m : BitVec 16) (w : Want) :
    State × Except (Cause × Word) (List (LaneLoad × MemKind)) :=
  if ea.toNat % 64 ≠ 0 then (s, .error (.align, ea))
  else
    let ws := actingWords m
    match s.resolveAll w (ws.map fun i => ea + BitVec.ofNat 64 (8 * i)) with
    | (s', .error e) => (s', .error e)
    | (s', .ok ps) => (s', .ok (lanesAt m ea (ws.zip ps)))

/-- What holds a page walk of the addresses of a vector access, in order (R172, R311): none where an address before it fails its checks, or no walk is
held. -/
def State.walksWait (s : State) (w : Want) : List Word → Option Wait
  | [] => none
  | a :: l =>
    if a.toNat % w.size ≠ 0 then none
    else
      match s.walkWait a with
      | some h => some h
      | none =>
        match s.resolve a w with
        | (_, .error _) => none
        | (s', .ok p) => if p.kind = .device && !s'.mayReach p.pa then none else State.walksWait s' w l

/-- A vector access of addresses, once no page walk of them is held. -/
def State.afterWalks (s : State) (w : Want) (l : List Word) (f : Out) : Out :=
  if l.any fun a => s.walkHeld a then
    match s.walksWait w l with
    | some h => .next ((s.hold h).joinFetch h)
    | none => f
  else f

/-- VLD (R197). -/
def execVld (g : Pred) (d : Reg) (base : SSrc) (off : BitVec 30) (s : State) : Out :=
  guarded g s <|
    if (s.ea base off 64).toNat % 64 ≠ 0 then .next (s.trap .align (s.ea base off 64))
    else
      s.afterWalks { size := 8 } ((actingWords (s.mask g)).map fun i => s.ea base off 64 + BitVec.ofNat 64 (8 * i)) <|
        match s.vectorPlaces (s.ea base off 64) (s.mask g) { size := 8 } with
        | (s', .error e) => .next (s'.trap e.1 e.2)
        | (s', .ok lanes) => s'.askLanes d 8 lanes

/-- VST (R197). -/
def execVst (g : Pred) (a : VSrc) (base : SSrc) (off : BitVec 30) (s : State) : Out :=
  guarded g s <|
    if (s.ea base off 64).toNat % 64 ≠ 0 then .next (s.trap .align (s.ea base off 64))
    else
      s.afterWalks { size := 8, write := true } ((actingWords (s.mask g)).map fun i => s.ea base off 64 + BitVec.ofNat 64 (8 * i)) <|
        match s.vectorPlaces (s.ea base off 64) (s.mask g) { size := 8, write := true } with
        | (s', .error e) => .next (s'.trap e.1 e.2)
        | (s', .ok lanes) => s'.storeLanes (s.vsrc a) 8 lanes

/-- The places of a gather or scatter, lane by lane (R195, R198). -/
def State.gatherPlaces (s : State) (base : SSrc) (off : BitVec 30) (vi : Vec) (m : BitVec 16) (w : Want) :
    State × Except (Cause × Word) (List (LaneLoad × MemKind)) :=
  let ls := lanesOf m
  let addrs := ls.map fun i => s.ea base off 4 + (lane vi i).signExtend 64
  match s.resolveAll w addrs with
  | (s', .error e) => (s', .error e)
  | (s', .ok ps) => (s', .ok ((ls.zip (addrs.zip ps)).map fun q => (⟨q.1, q.2.1, q.2.2.pa, q.2.2.pr⟩, q.2.2.kind)))

/-- VLDG (R198). -/
def execVldg (g : Pred) (d : Reg) (base : SSrc) (off : BitVec 30) (vi : VSrc) (s : State) : Out :=
  guarded g s <|
    s.afterWalks { size := 4 } ((lanesOf (s.mask g)).map fun i => s.ea base off 4 + (lane (s.vsrc vi) i).signExtend 64) <|
      match s.gatherPlaces base off (s.vsrc vi) (s.mask g) { size := 4 } with
      | (s', .error e) => .next (s'.trap e.1 e.2)
      | (s', .ok lanes) => s'.askLanes d 4 lanes

/-- VSTS (R198). -/
def execVsts (g : Pred) (a : VSrc) (base : SSrc) (off : BitVec 30) (vi : VSrc) (s : State) : Out :=
  guarded g s <|
    s.afterWalks { size := 4, write := true } ((lanesOf (s.mask g)).map fun i => s.ea base off 4 + (lane (s.vsrc vi) i).signExtend 64) <|
      match s.gatherPlaces base off (s.vsrc vi) (s.mask g) { size := 4, write := true } with
      | (s', .error e) => .next (s'.trap e.1 e.2)
      | (s', .ok lanes) => s'.storeLanes (s.vsrc a) 4 lanes

/-! ## FENCE (R181, R200) -/

/-- FENCE (R200). -/
def execFence (g : Pred) (rst : Bool) (scope : Scope) (s : State) : Out :=
  guarded g s <|
    let done (s : State) : Out :=
      if rst then
        match s.postedDone s.core s.slot with
        | none => .next (s.hold (.fence scope rst))
        | some s' => .next s'.retire
      else .next s.retire
    if scope = .thread then done s
    else
      match s.release scope with
      | none => .next (s.hold (.fence scope rst))
      | some s' => done s'

/-! ## Remote loads and stores (R201 to R203) -/

/-- The core of a member of the issuing slot's gang whose ports are open (R201, R337). -/
def State.member (s : State) (m : Nat) : Option Nat :=
  if m < s.cur.gangw.toNat * s.cur.gangh.toNat then
    match (s.gangCores s.core s.bankVf)[m]? with
    | some c => if (s.vfOf c s.bankVf).fenced then none else some c
    | none => none
  else none

/-- The checks of a remote access (R201): the target core, the place, and the remote address formed (R332). -/
def State.remote (s : State) (base : SSrc) (off : BitVec 30) (unit : Nat) : Except (Cause × Word) (Nat × Nat × Word) :=
  let b := s.ssrc base
  let t : Int := field b 16 0 + (off.toInt * unit : Int)
  let formed : Word := BitVec.ofNat 64 (field b 42 32 * 2 ^ 32 + (t % 2 ^ 17).toNat)
  if s.slot = 0 then .error (.perm, formed)
  else if b &&& 0xFFFFF800FFFE0000 ≠ 0 then .error (.remote, b)
  else
    match s.member (field b 42 32) with
    | none => .error (.remote, b)
    | some c =>
      if t % unit ≠ 0 then .error (.align, formed)
      else if t < 0 then .error (.perm, formed)
      else
        match (if t < 0x20000 then s.windowPlace c s.bankVf t.toNat else none) with
        | none => .error (.perm, formed)
        | some p => .ok (c, p.pa, formed)

/-- A posted store of the issuing slot. -/
def State.posting (s : State) (bytes : List (Nat × Byte)) (words : List Nat) (full : Bool) (target : Nat) (ord : Bool) : Posted :=
  { bytes := bytes, words := words, full := full, target := target, ord := ord, vf := s.bankVf, tenant := s.cur.tenant.toNat }

/-- A posted store of the issuing slot enters the network, or waits for one of the sixteen to be performed (R203). -/
def State.post (s : State) (e : Posted) : State :=
  if e.words.isEmpty then s.retire
  else if s.cur.posted.length < 16 then (s.modCur fun x => { x with posted := x.posted ++ [e] }).retire
  else s.wait (.postFull e)

/-- RLD (R202, R326): after the slot's own buffered stores to the word, which is its own core's then (R179, R183). -/
def execRld (g : Pred) (d : Reg) (base : SSrc) (off : BitVec 30) (s : State) : Out :=
  guarded g s <|
    match s.remote base off 8 with
    | .error e => .next (s.trap e.1 e.2)
    | .ok (c, pa, addr) =>
      if s.linkHeld s.bankVf s.core c then .next (s.hold .donated)
      else if s.fifoHeld s.core c then .next (s.hold (.fifo c))
      else s.ownFirst [pa] fun s => s.ask (.rld d addr (s.ssrc base) pa c)

/-- RST (R203). -/
def execRst (g : Pred) (a : SSrc) (base : SSrc) (off : BitVec 30) (f ord : Bool) (s : State) : Out :=
  guarded g s <|
    match s.remote base off 8 with
    | .error e => .next (s.trap e.1 e.2)
    | .ok (c, pa, _) => .next (s.post (s.posting (cellsOf pa (leBytes 8 (s.ssrc a).toNat)) [pa] f c ord))

/-- RSTV (R203). -/
def execRstv (g : Pred) (a : VSrc) (base : SSrc) (off : BitVec 30) (f ord : Bool) (s : State) : Out :=
  guarded g s <|
    match s.remote base off 64 with
    | .error e => .next (s.trap e.1 e.2)
    | .ok (c, pa, _) =>
      let m := s.mask g
      let cells := (lanesOf m).flatMap fun i => cellsOf (pa + 4 * i) (leBytes 4 (lane (s.vsrc a) i).toNat)
      let ws := if f then List.range 8 else actingWords m
      .next (s.post (s.posting cells (ws.map fun w => pa + 8 * w) f c ord))

/-! ## Prefetch and flush (R210) -/

/-- PREF (R210): the line is fetched into the cache that serves it for the slot, the home's L2 for its own die's far memory or its die's RDC for another
die's memory; nothing faults. DESIGN CHOICE (log 79): one whose walk or request a donated turn or an unavailable page holds is dropped. -/
def execPref (g : Pred) (base : SSrc) (off : BitVec 30) (s : State) : Out :=
  guarded g s <|
    if s.walkHeld (s.ea base off 64) then .next s.retire
    else
      match s.resolve (s.ea base off 64) { size := 1 } with
      | (s', .error _) => .next s'.retire
      | (s', .ok p) =>
        let die := dieOf s.core
        if !(p.kind = .near || p.kind = .far) || s'.isUnavail p.pa || s'.donated s'.bankVf then .next s'.retire
        else if !isRemote die p.pa then .next (s'.l2Access s.core s'.bankVf p.pa false).retire
        else if s'.rdcWays s'.bankVf = 0 || (s'.rdcLine die s'.bankVf (p.pa / 64 * 64)).isSome then .next s'.retire
        else .next ((s'.l2Access s.core s'.bankVf p.pa false).rdcFetch die s'.bankVf (p.pa / 64 * 64)).retire

/-- FLUSHL (R210), with the checks of a load of 64 bytes, a block of registers that the slot's level may not reach among them (R315, R316). -/
def execFlushl (g : Pred) (base : SSrc) (off : BitVec 30) (s : State) : Out :=
  guarded g s <| s.withPlace (s.ea base off 64) { size := 64 } fun s' p =>
    if p.kind = .device && !s'.mayReach p.pa then .next (s'.trap .perm (s.ea base off 64)) else s'.ask (.flush p.pa)

/-! ## TBLLD (R77, R78, R136) -/

/-- The places of the 256 words of a table image: all of them lie in the VF's banks, or none. -/
def State.tablePlaces (s : State) (addr : Word) : Option (List Nat) :=
  if 0x20000 < addr.toNat + 1024 then none
  else (List.range 256).mapM fun i => (s.windowPlace s.core s.bankVf (addr.toNat + 4 * i)).map fun p => p.pa

/-- The table is read and installed, or POISON is raised (R77, R136). -/
def State.tblInstall (s : State) (t : BitVec 2) (addr : Word) : State :=
  match s.tablePlaces addr with
  | none => s.trap .perm addr
  | some pas =>
    match (List.range 256).find? fun i => ((pas[i]?).map fun pa => wordsHit s.poison pa 4).getD false with
    | some i => s.trap .poison (addr + BitVec.ofNat 64 (4 * i))
    | none =>
      let loaded := pas.map fun pa => loadEntry (BitVec.ofNat 32 (leNat (s.mem.bytes pa 4)))
      let table := (List.range 256).zip (loaded.map fun p => p.1)
      let s := s.modVf s.core s.bankVf fun cv => { cv with tables := cv.tables.put (4 + t.toNat) table }
      (if loaded.any fun p => p.2 then s.addFlags flagNV else s).retire

/-- Whether a matrix command decodes through table `t` (R78, R221): MMA and MMASP by FA and FB, fixed at the push. -/
def MxCmd.usesTable (c : MxCmd) (t : Nat) : Bool :=
  let ty := (lane c.cmd 0).toNat % 256
  let f := (lane c.cmd 1).toNat
  (ty = 3 || ty = 4) && (f % 16 = t || f / 16 % 16 = t)

/-- The commands of VF `v` on core `c` that are pushed and not complete: those of its share, and those that wait for room in it (R216). -/
def State.mxPushed (s : State) (c v : Nat) : List MxCmd :=
  (s.vfOf c v).mxq ++ (s.coreOf c).slots.filterMap fun p =>
    match p.2.status with
    | .wait (.mxFull cmd order) => if p.2.vfid.toNat = v then some { cmd := cmd, seq := order } else none
    | _ => none

/-- Whether a command of VF `v` on core `c` pushed before number `seq` that decodes through table `t` has not completed (R78). -/
def State.tblWaits (s : State) (c v : Nat) (t : BitVec 2) (seq : Nat) : Bool :=
  (s.mxPushed c v).any fun q => q.seq < seq && q.usesTable (4 + t.toNat)

/-- TBLLD (R136): its place among the pushes is fixed at issue; it waits for its slot's stores, and for the commands pushed before it that use the
table (R78). -/
def execTblld (g : Pred) (t : BitVec 2) (b : SSrc) (s : State) : Out :=
  guarded g s <|
    let addr := s.ssrc b
    if addr.toNat % 64 ≠ 0 then .next (s.trap .align addr)
    else if s.slot = 0 || (s.tablePlaces addr).isNone then .next (s.trap .perm addr)
    else
      match s.drained s.core s.slot with
      | none => .next (s.wait (.tblld t addr s.curVf.mxSeq))
      | some s' =>
        .next (if s'.tblWaits s.core s.bankVf t s.curVf.mxSeq then s'.wait (.tblld t addr s.curVf.mxSeq) else s'.tblInstall t addr)

end Sys2Proof.Machine
end

