-- ==== Sys2Proof/Machine/FullEmpty.lean ====
section
/-! DEFINITION. Full/empty instructions: LDS, VLDS, TAKE, TAKENB, PUT, FILL, EMPTY, FESTAT (R185, R204 to R209). -/

namespace Sys2Proof.Machine

/-- A wait of the issuing slot starts: the handler slot is abandoned before any effect (R25, R205). -/
def State.waits (s : State) (f : State → Out) : Out := if s.slot = 15 then .next s.hwait else f s

/-- The rank check of a wait (R205, R259): OBRANK with the rank when it is not below OBMIN. -/
def State.rankBelow (s : State) (rank : BitVec 56) (tval : Word) (f : State → Out) : Out :=
  if (s.obmin s.core s.slot).toNat ≤ rank.toNat then .next (s.trap .obrank tval) else f s

/-- Room for one obligation of the issuing slot is reserved (R205, R264): OBSPILL when there is none. `f` gets the state with the
reservation. -/
def State.withRoom (s : State) (f : State → Out) : Out :=
  match s.reserveOb s.core s.slot with
  | .ok s' _ => f s'
  | .busy s' _ w => .next (s'.holdFor w)
  | .full s' => .next (s'.trap .obspill s'.cur.obspill)

/-- An instruction that reserves keeps what it has reserved while it waits or is held, and leaves nothing reserved when it is over (R239, R264,
R272). -/
def State.reserving (s : State) (o : Out) : Out :=
  match o with
  | .next t =>
    match (t.slotOf s.core s.slot).status with
    | .wait _ => .next t
    | _ => .next (t.unreserve s.core s.slot)
  | r => r

/-- LDS (R205, R206). -/
def execLds (g : Pred) (d : Reg) (base : SSrc) (off : BitVec 30) (s : State) : Out :=
  guarded g s <| s.waits fun s =>
    let ea := s.ea base off 8
    s.withPlace ea { size := 8, fe := true } fun s p =>
      let rank := feRank p ea
      s.rankBelow rank (rank.setWidth 64) fun s => s.ownFirst [p.pa] fun s => s.ask (.lds d ea p.pa p.pr rank)

/-- TAKE (R205, R207). -/
def execTake (g : Pred) (d : Reg) (base : SSrc) (off : BitVec 30) (s : State) : Out :=
  s.reserving <| guarded g s <| s.waits fun s =>
    let ea := s.ea base off 8
    s.withPlace ea { size := 8, write := true, takes := true, fe := true } fun s p =>
      let rank := feRank p ea
      s.rankBelow rank (rank.setWidth 64) fun s =>
        s.withRoom fun s => s.afterDrain fun s => s.ask (.take d ea p.pa p.pr (boundObj s.core ea) rank)

/-- TAKENB (R205, R207). -/
def execTakenb (g : Pred) (d : Reg) (base : SSrc) (off : BitVec 30) (s : State) : Out :=
  s.reserving <| guarded g s <|
    let ea := s.ea base off 8
    s.withPlace ea { size := 8, write := true, takes := true, fe := true } fun s p =>
      s.withRoom fun s => s.afterDrain fun s => s.ask (.takenb d ea p.pa p.pr (boundObj s.core ea) (feRank p ea))

/-- PUT (R207). -/
def execPut (g : Pred) (a : SSrc) (base : SSrc) (off : BitVec 30) (s : State) : Out :=
  guarded g s <|
    let ea := s.ea base off 8
    let v := s.ssrc a
    s.withPlace ea { size := 8, write := true, fe := true } fun s p =>
      s.afterDrain fun s => s.ask (.put v ea p.pa (boundObj s.core ea))

/-- FILL (R208). -/
def execFill (g : Pred) (base : SSrc) (off : BitVec 30) (s : State) : Out :=
  guarded g s <|
    let ea := s.ea base off 8
    s.withPlace ea { size := 8, write := true, fe := true } fun s p =>
      s.afterDrain fun s => s.ask (.fill p.pa (boundObj s.core ea))

/-- EMPTY (R208). -/
def execEmpty (g : Pred) (base : SSrc) (off : BitVec 30) (s : State) : Out :=
  guarded g s <|
    s.withPlace (s.ea base off 8) { size := 8, write := true, fe := true } fun s p => s.afterDrain fun s => s.ask (.empty p.pa)

/-- FESTAT (R208). -/
def execFestat (g : Pred) (d : Reg) (base : SSrc) (off : BitVec 30) (s : State) : Out :=
  guarded g s <|
    s.withPlace (s.ea base off 8) { size := 8, fe := true } fun s p => s.ownFirst [p.pa] fun s => s.ask (.festat d p.pa p.pr)

/-- The words of a VLDS with the acting lanes each serves. -/
def vldsWords (ea : Word) (m : BitVec 16) (ps : List (Nat × Place)) : List VldsWord :=
  ps.map fun q =>
    { ea := ea + BitVec.ofNat 64 (8 * q.1), pa := q.2.pa, pr := q.2.pr, lanes := [2 * q.1, 2 * q.1 + 1].filter fun i => m.getLsbD i }

/-- VLDS (R195, R205, R206): its rank is that of the highest-addressed word with an acting lane. -/
def execVlds (g : Pred) (d : Reg) (base : SSrc) (off : BitVec 30) (s : State) : Out :=
  guarded g s <| s.waits fun s =>
    let ea := s.ea base off 64
    let m := s.mask g
    if ea.toNat % 64 ≠ 0 then .next (s.trap .align ea)
    else
      let ws := actingWords m
      s.afterWalks { size := 8, fe := true } (ws.map fun i => ea + BitVec.ofNat 64 (8 * i)) <|
      match s.resolveAll { size := 8, fe := true } (ws.map fun i => ea + BitVec.ofNat 64 (8 * i)) with
      | (s', .error e) => .next (s'.trap e.1 e.2)
      | (s', .ok ps) =>
        match (ws.zip ps).getLast? with
        | none => .next s'.retire
        | some (w, p) =>
          if ps.any (fun p => p.kind != .window) && s'.donated s'.bankVf then .next (s'.hold .donated)
          else
            let rank := feRank p (ea + BitVec.ofNat 64 (8 * w))
            s'.rankBelow rank (rank.setWidth 64) fun s =>
              s.ownFirst (ps.map fun p => p.pa) fun s => s.ask (.vlds d (vldsWords ea m (ws.zip ps)) rank)

end Sys2Proof.Machine
end

