-- ==== Sys2Proof/Machine/Fetch.lean ====
section
/-! DEFINITION. Fetching an instruction's words (R57, R59 step 1) and the length of a chain (R145). -/

namespace Sys2Proof.Machine

/-- How the issuing slot decodes (R63, R235). -/
def State.decMode (s : State) : DecMode := { maint := s.cur.md, slot0 := s.slot == 0 }

/-- A line of text enters a core's instruction cache: a full one loses a line, which is free (log 50). -/
def textInsert (pick : Nat) (x : TextLine) (l : List TextLine) : List TextLine :=
  if l.length < Config.icacheLines then l ++ [x] else l.set (pick % l.length) x

/-- Whether the issuing slot's core holds a line of text for its VF. -/
def State.hasText (s : State) (line : Nat) : Bool := (s.coreOf s.core).icache.any fun l => l.vf == s.bankVf && l.line == line

/-- The bytes of a line of text, from the core's instruction cache, or fetched into it on a miss (R9, R157, R163). -/
def State.textLine (s : State) (line : Nat) : State × List Byte :=
  match (s.coreOf s.core).icache.find? fun l => l.vf == s.bankVf && l.line == line with
  | some l => (s, l.bytes)
  | none =>
    let bs := s.mem.bytes line 64
    let s' := s.l2Access s.core s.bankVf line false
    let s' := if (s.coreOf s.core).icache.length < Config.icacheLines then s' else { s' with fresh := s'.fresh + 1 }
    (s'.modCore s.core fun co => { co with icache := textInsert (Config.icacheWay s'.fresh) ⟨s.bankVf, line, bs⟩ co.icache }, bs)

/-- `n` bytes of text from a physical address, which lie in one line or in two. -/
def State.text (s : State) (pa n : Nat) : State × List Byte :=
  let line := pa / 64 * 64
  match s.textLine line with
  | (s', a) =>
    if pa + n ≤ line + 64 then (s', (a.drop (pa - line)).take n)
    else match s'.textLine (line + 64) with
      | (s'', b) => (s'', ((a ++ b).drop (pa - line)).take n)

/-- The words from an address up to the next 4 KiB boundary, at most five (R49, R57), or the cause of a failed fetch (R59 step 1).
What a page of the host's window holds is free (log 4). -/
def State.fetchWords (s : State) (a : Word) : State × Except Cause (List Half) :=
  let n := min 10 (4096 - a.toNat % 4096)
  match s.resolve a { size := 2, fetch := true } with
  | (s', .error c) => (s', .error c)
  | (s', .ok p) =>
    if p.kind = .device then
      ({ s' with fresh := s'.fresh + 1 }, .ok (halves ((List.range n).map (Config.hostByte s'.fresh))))
    else
      match s'.text p.pa n with
      | (s'', bs) => (s'', .ok (halves bs))

/-- What holds a fetch of the words at an address: its page walk (R172, R311); in a donated turn a line that the instruction cache lacks (R311); a page
that is not available (R172). -/
def State.fetchHeld (s : State) (a : Word) : Option Wait :=
  match s.walkWait a with
  | some w => some w
  | none =>
    match (s.resolve a { size := 2, fetch := true }).2 with
    | .error _ => none
    | .ok p =>
      let n := min 10 (4096 - a.toNat % 4096)
      let missing := ([p.pa / 64 * 64, (p.pa + n - 1) / 64 * 64].filter fun l => p.kind = .device || !s.hasText l)
      if missing.isEmpty then none
      else if p.kind != .window && s.donated s.bankVf then some .donated
      else (missing.find? fun l => s.isUnavail l).map fun l => .fetch l

/-- A fault found at an instruction's fetch or chain, with TEPC at that instruction (R59). -/
def State.trapAt (s : State) (cause : Cause) (a tval : Word) : State := s.modCur fun x => x.trap s.slot (s.cycle s.core) cause a tval

/-- One word folded into a CRC-16 (R155). -/
def foldWord (acc : BitVec 16) (w : Half) : BitVec 16 :=
  (List.range 16).foldl (fun (a : BitVec 16) _ => if a.getLsbD 15 then (a <<< 1) ^^^ 0x1021 else a <<< 1) (acc ^^^ w)

/-- The words of an instruction folded in chain order (R155). -/
def foldWords (acc : BitVec 16) (ws : List Half) : BitVec 16 := ws.foldl foldWord acc

end Sys2Proof.Machine
end

