-- ==== Sys2Proof/Machine/Control.lean ====
section
/-! DEFINITION. Control transfers, the hardware loop, the end of an activity, traps on purpose, heartbeat, pre-emption points and
signature checks (R142 to R156). -/

namespace Sys2Proof.Machine

/-- A taken control transfer (R143, R146). -/
def State.jumpTo (s : State) (t : Word) : State := s.modCur fun x => x.jump t

/-- BR (R144). -/
def execBr (g : Pred) (dist : BitVec 40) (s : State) : Out := guarded g s (.next (s.jumpTo (s.target2 dist)))

/-- BRP (R144): bit 0 of the named predicate against the sense. -/
def execBrp (p : PReg) (sense : Bool) (dist : BitVec 36) (s : State) : Out :=
  if (s.preg p).getLsbD 0 != sense then .next (s.jumpTo (s.target2 dist)) else .next s.retire

/-- CALL (R144): the link goes to the private s31. -/
def execCall (g : Pred) (dist : BitVec 40) (s : State) : Out :=
  guarded g s (.next ((s.putS 2 (.priv 31) s.cur.next).jumpTo (s.target2 dist)))

/-- RET (R144). -/
def execRet (g : Pred) (s : State) : Out :=
  guarded g s <|
    let t := s.sreg (.priv 31)
    if bit t 0 then .next (s.trap .align t) else .next (s.jumpTo t)

/-- JMPR (R144): the target is read before the link is written. -/
def execJmpr (g : Pred) (d : Reg) (a : SSrc) (s : State) : Out :=
  guarded g s <|
    let t := s.ssrc a
    if bit t 0 then .next (s.trap .align t) else .next ((s.putS 2 d s.cur.next).jumpTo t)

/-- LOOP (R145): a count of zero skips the instruction at LE, whose length its chain gives; a fault found there is that
instruction's, after the loop registers are written and the words of LOOP are folded into SIGACC (DEDUCED, log 58). A fetch that is held holds the LOOP
before any effect. -/
def execLoop (a : SSrc) (dist : BitVec 35) (s : State) : Out :=
  let n := s.ssrc a
  let le := addrBits (s.target2 dist)
  let s' := s.modCur fun x => { x with ls := addrBits x.next, le := le, lc := n }
  if n ≠ 0 then .next (s'.modCur fun x => { x with pc := x.next })
  else
    match s.fetchHeld le with
    | some w => .next ((s.hold w).joinFetch w)
    | none =>
      match s'.fetchWords le with
      | (s', .error c) => .next (s'.trapAt c le le)
      | (s', .ok ws) =>
        match chainLength ws with
        | none => .next (s'.trapAt .illegal le ((ws.head?.getD 0).setWidth 64))
        | some k => .next (s'.modCur fun x => { x with pc := le + BitVec.ofNat 64 k })

/-- EXIT (R149): ILLEGAL in the handler slot; OBEXIT while anything is owed; otherwise the activity ends once the replies owed to it
have landed. DESIGN CHOICE (log 69): in the movement slot it ends that slot too, which is cleared and stays empty. -/
def execExit (g : Pred) (s : State) : Out :=
  if s.slot = 15 then .next (s.decodeFault .illegal)
  else
    guarded g s <|
      if s.obcnt s.core s.slot ≠ 0 then .next (s.trap .obexit (BitVec.ofNat 64 (s.obcnt s.core s.slot)))
      else .next (s.finish s.core s.slot)

/-- TRAP (R150): TEPC is the next instruction; in a trap handler the kill names the TRAP. -/
def execTrap (g : Pred) (code : BitVec 40) (s : State) : Out :=
  guarded g s <|
    let x := s.cur
    .next (s.trapAt .trapi (if x.ih || s.slot = 15 then x.pc else x.next) (uimm code))

/-- BEAT (R153). -/
def execBeat (g : Pred) (s : State) : Out := guarded g s (.next (s.modCur fun x => { x with hbc := 0, missed := false }).retire)

/-- YPT (R154): with a pre-emption pending, the activity's stores are performed, and it parks with its pc at the next instruction; a
register error that the save reads kills instead (R335). -/
def execYpt (g : Pred) (s : State) : Out :=
  guarded g s <|
    let s1 := (s.modCur fun x => { x with ptc := 0 }).retire
    if (s.cur.preLead || s.cur.prePreempt) && s.slot ≠ 15 && s.slot ≠ 0 then
      match s1.settledSlot s.core s.slot with
      | none => .next (s.hold (.fence .thread true))
      | some s2 =>
        match s2.saveError s.core s.slot with
        | some s3 => .next s3
        | none => .next (s2.park s.core s.slot)
    else .next s1

/-- SIGCHK (R156): SIGACC before its own words against the constant, and all ones afterwards; a mismatch kills the activity. -/
def execSigchk (imm : BitVec 16) (s : State) : Out :=
  let was := s.cur.sigPrev
  let s := s.modCur fun x => { x with sigacc := 0xFFFF }
  if was = imm then .next s.retire
  else .next (s.modCur fun x => x.mark .sigfail x.pc (was.setWidth 64))

/-- TRAPRET (R151). -/
def execTrapret (s : State) : Out :=
  if !s.cur.ih || s.cur.ppl = 3 then .next (s.decodeFault .illegal) else .next (s.modCur Slot.trapret)

end Sys2Proof.Machine
end

