-- ==== Sys2Proof/Machine/Digest.lean ====
section
/-! DEFINITION. The check of an image's signature: SHA-512, and RSA-4096 with the key of the signed configuration store (R48). -/

namespace Sys2Proof.Machine

/-! ## SHA-512 -/

/-- The greatest `r` below `2 ^ n` more than `acc` whose `k`-th power is at most `x`. -/
def rootUp (k x : Nat) : Nat → Nat → Nat
  | 0, acc => acc
  | n + 1, acc => rootUp k x n (if (acc + 2 ^ n) ^ k ≤ x then acc + 2 ^ n else acc)

/-- The first 64 bits of the fraction of the `k`-th root of `p`. -/
def rootBits (k p : Nat) : Word := BitVec.ofNat 64 (rootUp k (p * 2 ^ (64 * k)) 70 0)

/-- Whether a number is prime. -/
def isPrime (n : Nat) : Bool := decide (2 ≤ n) && (List.range n).all fun d => decide (d < 2) || n % d != 0

/-- The first eighty primes. -/
def primes : List Nat := (List.range 410).filter isPrime

/-- The constants of the eighty rounds. -/
def shaConsts : List Word := primes.map (rootBits 3)

/-- The state before the first block. -/
def shaStart : List Word := (primes.take 8).map (rootBits 2)

/-- Two rotations and a shift. -/
def mixShift (a b c : Nat) (x : Word) : Word := x.rotateRight a ^^^ x.rotateRight b ^^^ (x >>> c)

/-- Three rotations. -/
def mixTurn (a b c : Nat) (x : Word) : Word := x.rotateRight a ^^^ x.rotateRight b ^^^ x.rotateRight c

/-- The schedule of a block, the latest word first, after `n` words more. -/
def shaSchedule : Nat → List Word → List Word
  | 0, l => l
  | n + 1, l => shaSchedule n ((mixShift 19 61 6 (l.getD 1 0) + l.getD 6 0 + mixShift 1 8 7 (l.getD 14 0) + l.getD 15 0) :: l)

/-- One round on the working words a to h, with the sum of its constant and its schedule word. -/
def shaRound (x : List Word) (kw : Word) : List Word :=
  let at' (i : Nat) : Word := x.getD i 0
  let t1 := at' 7 + mixTurn 14 18 41 (at' 4) + ((at' 4 &&& at' 5) ^^^ (~~~ at' 4 &&& at' 6)) + kw
  let t2 := mixTurn 28 34 39 (at' 0) + ((at' 0 &&& at' 1) ^^^ (at' 0 &&& at' 2) ^^^ (at' 1 &&& at' 2))
  [t1 + t2, at' 0, at' 1, at' 2, at' 3 + t1, at' 4, at' 5, at' 6]

/-- A block of sixteen words enters the state. -/
def shaBlock (h block : List Word) : List Word :=
  let w := (shaSchedule 64 block.reverse).reverse
  (h.zip ((shaConsts.zip w).foldl (fun x p => shaRound x (p.1 + p.2)) h)).map fun p => p.1 + p.2

/-- A number from bytes, the first the most significant. -/
def natOfBytes (l : List Byte) : Nat := l.foldl (fun n b => n * 256 + b.toNat) 0

/-- `n` bytes of a number, the most significant first. -/
def bytesOfNat (n v : Nat) : List Byte := ((List.range n).map fun i => BitVec.ofNat 8 (v / 256 ^ i)).reverse

/-- A message with its padding, to whole blocks of 128 bytes. -/
def shaPad (l : List Byte) : List Byte := l ++ [0x80] ++ List.replicate ((239 - l.length % 128) % 128) 0 ++ bytesOfNat 16 (8 * l.length)

/-- SHA-512 of a message: a number of 512 bits. -/
def sha512 (l : List Byte) : Nat :=
  let m := shaPad l
  let word (i : Nat) : Word := BitVec.ofNat 64 (natOfBytes ((m.drop (8 * i)).take 8))
  let h := (List.range (m.length / 128)).foldl (fun h b => shaBlock h ((List.range 16).map fun i => word (16 * b + i))) shaStart
  h.foldl (fun n w => n * 2 ^ 64 + w.toNat) 0

/-! ## RSA-4096 -/

/-- A power modulo `m`, for an exponent of at most `n` bits. -/
def powMod (m x : Nat) : Nat → Nat → Nat
  | 0, _ => 1 % m
  | n + 1, e =>
    let h := powMod m x n (e / 2)
    if e % 2 = 1 then h * h % m * x % m else h * h % m

/-- Whether a signature of 512 bytes verifies over the bytes of an image (R48): its power under the key is an encoding of their digest. The key and the
encoding are free (log 14). DESIGN CHOICE (log 14): the signature is a number whose first byte is the most significant. -/
def verifies (bytes sig : List Byte) : Bool :=
  let n := Config.imageKey % 2 ^ 4096
  decide (natOfBytes sig < n) && Config.sigEncodes (sha512 bytes) (powMod n (natOfBytes sig) 4096 Config.imageExponent)

end Sys2Proof.Machine
end

