-- ==== Sys2Proof/Machine/Matrix.lean ====
section
/-! DEFINITION. The matrix unit: MXQ, CLAIM, RELEASE, MXSTAT, MXDRAIN, and the eight command types with their checks
(R78, R88, R89, R165, R211 to R234). -/

namespace Sys2Proof.Machine

/-! ## Writes of engines (R165, R186, R225) -/

/-- An engine writes a word whole: its data, poison and full/empty bit in one step; an empty word's deferred list is served. -/
def State.engineWord (s : State) (c vf pa : Nat) (v : Word) (poisoned : Bool) : State :=
  let s := s.performFor c 21 vf (cellsOf pa (leBytes 8 v.toNat))
  let s := if poisoned then s.poisonFrom c pa else s
  if !hasFE pa || s.isFull pa then s else s.serveWord pa

/-! ## Fields of a command (R221) -/

/-- A field of a lane of a command. -/
def cmdField (cmd : Vec) (i hi lo : Nat) : Nat := (lane cmd i).toNat / 2 ^ lo % 2 ^ (hi + 1 - lo)

/-- The type of a command. -/
def cmdType (cmd : Vec) : Nat := cmdField cmd 0 7 0
/-- The stream of a command. -/
def cmdStream (cmd : Vec) : Nat := cmdField cmd 0 9 8
/-- Notify. -/
def cmdNotify (cmd : Vec) : Bool := cmdField cmd 0 10 10 = 1
/-- Bay A. -/
def cmdA (cmd : Vec) : Nat := cmdField cmd 0 19 16
/-- Bay B. -/
def cmdB (cmd : Vec) : Nat := cmdField cmd 0 23 20
/-- The accumulator. -/
def cmdAcc (cmd : Vec) : Nat := cmdField cmd 0 27 24
/-- The layout. -/
def cmdLayout (cmd : Vec) : Nat := cmdField cmd 0 31 28
/-- An address in two lanes, the low half in the lower. -/
def cmdAddr (cmd : Vec) (i : Nat) : Nat := (lane cmd i).toNat + (lane cmd (i + 1)).toNat * 2 ^ 32

/-- A command with a lane replaced. -/
def setLane (cmd : Vec) (i : Nat) (v : Nat) : Vec := setElem cmd 32 i v

/-- A lane value with a field replaced. -/
def putField (x lo w v : Nat) : Nat := x - x / 2 ^ lo % 2 ^ w * 2 ^ lo + v % 2 ^ w * 2 ^ lo

/-- Inherited fields resolved at the push (R222). -/
def Slot.inherit (x : Slot) (cmd : Vec) : Vec :=
  let l1 := (lane cmd 1).toNat
  if cmdType cmd = 1 then
    let side := cmdField cmd 1 4 4 = 1
    let l1 := if l1 % 16 = 15 then putField l1 0 4 (if side then x.fmtb else x.fmta).toNat else l1
    if l1 / 256 % 16 = 15 then
      let r := if side then x.sclb else x.scla
      if bit r 63 then
        setLane (setLane (setLane cmd 1 (putField l1 8 4 1)) 4 (field r 31 0)) 5 (field r 56 32)
      else setLane cmd 1 (putField l1 8 4 0)
    else setLane cmd 1 l1
  else if cmdType cmd = 3 || cmdType cmd = 4 then
    let l1 := if l1 % 16 = 15 then putField l1 0 4 x.fmta.toNat else l1
    setLane cmd 1 (if l1 / 16 % 16 = 15 then putField l1 4 4 x.fmtb.toNat else l1)
  else cmd

/-! ## MXQ, CLAIM, RELEASE, MXSTAT, MXDRAIN (R215 to R220) -/

/-- Slots of core `c` that hold a pushed command of VF `v` back for a full share, with their places among the pushes. -/
def State.mxWaiting (s : State) (c v : Nat) : List (Nat × Nat) :=
  (s.coreOf c).slots.filterMap fun p =>
    match p.2.status with
    | .wait (.mxFull _ order) => if p.2.vfid.toNat = v then some (p.1, order) else none
    | _ => none

/-- Nibbles of an element of a format: 4, 2 or 1 (R227). -/
def fmtNibs (f : Nat) : Nat := if f = 8 || f = 9 then 4 else if f = 12 then 1 else 2

/-- Kmax of a format (R227). -/
def fmtKmax (f : Nat) : Nat := if f = 8 || f = 9 then 64 else if f = 12 then 256 else 128

/-- Whether a format is FP6. -/
def fmtSix (f : Nat) : Bool := f = 10 || f = 11

/-- The bytes of a row image of `nb` blocks. -/
def rowBytes (f nb : Nat) : Nat := 16 * nb * fmtNibs f

/-- The blocks of a TLOAD: NB, or all of them (R227). -/
def cmdNb (cmd : Vec) : Nat := if cmdField cmd 1 15 12 = 0 then fmtKmax (cmdField cmd 1 3 0) / 32 else cmdField cmd 1 15 12

/-- The window ranges that a command reads: those of TLOAD and SPLOAD (R227, R231). -/
def cmdReads (cmd : Vec) : List (Nat × Nat) :=
  match cmdType cmd with
  | 1 =>
    (cmdAddr cmd 2, 32 * rowBytes (cmdField cmd 1 3 0) (cmdNb cmd)) ::
      if cmdField cmd 1 11 8 = 1 then [(cmdAddr cmd 4, 32 * cmdNb cmd)] else []
  | 6 => [(cmdAddr cmd 2, cmdField cmd 1 12 0)]
  | _ => []

/-- A command of slot `k` joins VF `v`'s share on core `c`, with the number of its push. -/
def State.mxAppend (s : State) (c k v : Nat) (cmd : Vec) (seq : Nat) : State :=
  s.modVf c v fun cv => { cv with mxq := cv.mxq ++ [{ cmd := cmd, seq := seq, slot := k, reads := cmdReads cmd }] }

/-- MXQ (R216): its number among the pushes, and its command, are fixed at issue; with stores that cannot be performed yet, or a full share, it
waits. -/
def execMxq (g : Pred) (a : VSrc) (s : State) : Out :=
  guarded g s <|
    let v := s.bankVf
    if s.mxShare v = 0 then .next (s.trap .perm 0)
    else
      let full := s.mxShare v ≤ s.curVf.mxq.length || !(s.mxWaiting s.core v).isEmpty
      if full && s.slot = 15 then .next s.hwait
      else
        let cmd := s.cur.inherit (s.vsrc a)
        let order := s.curVf.mxSeq
        let s := s.modVf s.core v fun cv => { cv with mxSeq := cv.mxSeq + 1 }
        match s.release .core with
        | none => .next (s.wait (.mxFull cmd order))
        | some s' => .next (if full then s'.wait (.mxFull cmd order) else (s'.mxAppend s.core s.slot v cmd order).retire)

/-- A bay number of the issuing slot's VF (R217, R218): PERM beyond the VF's bays, with the bay number; in the movement slot with 0. -/
def State.withBay (s : State) (b : Nat) (f : Nat → Out) : Out :=
  if s.slot = 0 then .next (s.trap .perm 0)
  else
    match s.physBay s.bankVf b with
    | none => .next (s.trap .perm (BitVec.ofNat 64 b))
    | some p => f p

/-- CLAIM (R217). -/
def execClaim (g : Pred) (bay : BitVec 4) (s : State) : Out :=
  s.reserving <| guarded g s <|
    let b := bay.toNat
    s.withBay b fun p => s.waits fun s =>
      let rank := s.bayRank s.core s.bankVf b
      s.rankBelow rank (rank.setWidth 64) fun s => s.withRoom fun s =>
        if (s.bay s.core p).claim.isNone then
          .next ((s.modBay s.core p fun x => { x with claim := some (s.handleOf s.core s.slot) }).addOb s.core s.slot
            { obj := bayObj s.core b, kind := .release, rank := rank }).retire
        else .next ((s.modBay s.core p fun x => { x with queue := x.queue ++ [s.slot] }).wait (.claim b rank))

/-- Whether a command names bay `b` (R218, R221, R231). -/
def cmdNames (cmd : Vec) (b : Nat) : Bool :=
  match cmdType cmd with
  | 1 => cmdA cmd = b
  | 3 => cmdA cmd = b || cmdB cmd = b
  | 4 => cmdA cmd = b || cmdB cmd = b || cmdB cmd + 1 = b
  | _ => false

/-- Whether a command of VF `v` pushed before number `seq` that names bay `b` has not completed. -/
def State.mxNames (s : State) (c v b seq : Nat) : Bool := (s.mxPushed c v).any fun q => q.seq < seq && cmdNames q.cmd b

/-- RELEASE's last step (R218). -/
def State.releaseBay (s : State) (b : Nat) : State :=
  ((s.discharge s.core s.slot .release (bayObj s.core b)).1.passBay s.core s.bankVf b false).retire

/-- RELEASE (R218). -/
def execRelease (g : Pred) (bay : BitVec 4) (s : State) : Out :=
  guarded g s <|
    let b := bay.toNat
    s.withBay b fun _ =>
      if (pickOb (s.obsOf s.core s.slot) .release (bayObj s.core b)).isNone then .next (s.trap .obstray (BitVec.ofNat 64 b))
      else if s.mxNames s.core s.bankVf b s.curVf.mxSeq then .next (s.wait (.release b s.curVf.mxSeq))
      else s.afterRecall (pickOb (s.obsOf s.core s.slot) .release (bayObj s.core b)) fun s => .next (s.releaseBay b)

/-- MXSTAT selectors 0, 2, 3 and 4 (R219). -/
def State.mxStat (s : State) (sel : Nat) : Word :=
  let v := s.bankVf
  let cv := s.curVf
  let own := bitsOf (s.bayMask v) 16
  match sel with
  | 0 =>
    BitVec.ofNat 64 (cv.mxq.length + s.mxShare v * 2 ^ 8 +
      (cv.mxq.map fun q => 2 ^ (16 + 8 * cmdStream q.cmd)).sum)
  | 2 => cv.brb.setWidth 64
  | 3 =>
    BitVec.ofNat 64 (own.length + (bitsOf (s.accMask v) 4).length * 2 ^ 8 + flagAt (s.ownsSide v) 16 +
      flagAt (s.coreOf s.core).mxRetired 17)
  | 4 =>
    BitVec.ofNat 64 ((List.range own.length).foldl
      (fun n b =>
        let mine := (s.obsOf s.core s.slot).any fun o => o.kind == .release && o.obj == bayObj s.core b
        let any := (((s.physBay v b).map fun p => (s.bay s.core p).claim.isSome)).getD false
        n + flagAt mine b + flagAt any (16 + b)) 0)
  | _ => cv.mxErr

/-- MXSTAT (R219): reading selector 1 clears the error. -/
def execMxstat (g : Pred) (d : Reg) (sel : BitVec 3) (s : State) : Out :=
  guarded g s <|
    if s.slot = 0 then .next (s.trap .perm 0)
    else
      let v := s.mxStat sel.toNat
      let s := if sel = 1 then s.modVf s.core s.bankVf fun cv => { cv with mxErr := 0 } else s
      .next (s.putS 3 d v).retire

/-- The commands present in VF `v`'s share on core `c` on a stream of a mask, by the numbers of their pushes (R220). -/
def State.mxOn (s : State) (c v : Nat) (mask : BitVec 4) : List Nat :=
  ((s.vfOf c v).mxq.filter fun q => mask.getLsbD (cmdStream q.cmd)).map fun q => q.seq

/-- MXDRAIN (R220). -/
def execMxdrain (g : Pred) (mask : BitVec 4) (s : State) : Out :=
  guarded g s <|
    if s.slot = 0 then .next (s.trap .perm 0)
    else if (s.mxOn s.core s.bankVf mask).isEmpty then .next s.retire
    else .next (s.wait (.mxdrain (s.mxOn s.core s.bankVf mask)))

/-! ## Tiles (R73, R74, R227, R228) -/

/-- The offset of 16-byte chunk `q` of row `r` under ROW, SWZ4 and SWZ8 (R228). -/
def chunkOff (layout l r q : Nat) : Nat :=
  match layout with
  | 2 => l * r + 16 * (q ^^^ (r % 4))
  | 3 => l * r + 16 * (q ^^^ (r % 8))
  | _ => l * r + 16 * q

/-- Element `p` of packed elements of `nib` nibbles each. -/
def packedElem (b : Nat → Byte) (nib p : Nat) : Nat :=
  match nib with
  | 4 => (b (2 * p)).toNat + (b (2 * p + 1)).toNat * 256
  | 1 => (b (p / 2)).toNat / 16 ^ (p % 2) % 16
  | _ => (b p).toNat

/-- Byte `i` of row `r` of a tile image `b`, as a row image (R228): COL gathers the elements of the row. -/
def rowImageByte (f nb layout : Nat) (b : Nat → Byte) (r i : Nat) : Byte :=
  if layout = 1 then
    match fmtNibs f with
    | 4 => b (2 * (32 * (i / 2) + r) + i % 2)
    | 1 => BitVec.ofNat 8 (packedElem b 1 (32 * (2 * i) + r) + 16 * packedElem b 1 (32 * (2 * i + 1) + r))
    | _ => b (32 * i + r)
  else b (chunkOff layout (rowBytes f nb) r (i / 16) + i % 16)

/-- The code of element `e` of row `r` in a bay, whose row images lie 128 bytes apart. -/
def Bay.code (x : Bay) (r e : Nat) : Nat :=
  let b (i : Nat) : Byte := (x.codes.look (128 * r + i)).getD 0
  let f := x.fmt.toNat
  if fmtSix f then packedElem b 1 e * 4 + (b (16 * x.nb + e / 4)).toNat / 4 ^ (e % 4) % 4 else packedElem b (fmtNibs f) e

/-- The scale of row `r` and block `kb` in a bay: its E8M0 code. -/
def Bay.scale (x : Bay) (r kb : Nat) : Nat := ((x.scales.look (8 * r + kb)).getD 0).toNat

/-- The value of a code in a format of R100, decoded through VF `v`'s tables on core `c` (R72, R79). -/
def State.codeNum (s : State) (c v f code : Nat) : FNum :=
  match f with
  | 8 => fp16.read code
  | 9 => bf16.read code
  | 10 => fp6Num false code
  | 11 => fp6Num true code
  | 12 => fp4Num code
  | _ => (s.entry c v f code).num

/-! ## Block sums (R88, R89) -/

/-- One pair of operands of a block: none is an absent or pruned pair, a +0 product (R88). -/
abbrev Pair := Option (FNum × FNum)

/-- Whether a pair makes the sum NaN by itself (R89). -/
def Pair.bad : Pair → Bool
  | none => false
  | some (.nan _, _) | some (_, .nan _) => true
  | some (.inf _, .fin _ m _) | some (.fin _ m _, .inf _) => m = 0
  | _ => false

/-- The sign of a number. -/
def FNum.negative : FNum → Bool
  | .nan n => n
  | .inf n => n
  | .fin n _ _ => n

/-- The infinite product of a pair: its sign (R89). -/
def Pair.infinite : Pair → Option Bool
  | some (.inf n, y) => some (n != y.negative)
  | some (x, .inf n) => some (x.negative != n)
  | _ => none

/-- The exact finite product of a pair, in units of 2^-320, and whether it is -0 (R88). -/
def Pair.product : Pair → Int × Bool
  | some (x, y) => (fixedOf x * fixedOf y, fixedOf x * fixedOf y == 0 && (x.negative != y.negative))
  | none => (0, false)

/-- BlockSum with scales as E8M0 codes (R88, R89). -/
def blockSum (l : List Pair) (sa sb : Nat) : Lane :=
  let infs := l.filterMap Pair.infinite
  if l.any Pair.bad || sa = 255 || sb = 255 || (infs.elem true && infs.elem false) then nanLane
  else if infs.elem false then 0x7F800000
  else if infs.elem true then 0xFF800000
  else
    let t := (l.map fun p => p.product.1).sum
    if t = 0 then (if l.all fun p => p.product.2 then 0x80000000 else 0)
    else (roundLane .rne (.fin (t < 0) t.natAbs ((sa : Int) + sb - 254 - 320))).1

/-- One element of an accumulator after a command (R88): the block sums added in increasing block. -/
def accumulate (x : Lane) (blocks : List Lane) : Lane := blocks.foldl (fun a b => (fadd .rne a b).1) x

/-- A block sum of MMA: block `kb` of row `i` of bay A and row `j` of bay B (R230). -/
def State.mmaBlock (s : State) (c v : Nat) (a b : Bay) (i j kb : Nat) : Lane :=
  if a.nb ≤ kb || b.nb ≤ kb then 0
  else
    blockSum ((List.range 32).map fun k =>
        some (s.codeNum c v a.fmt.toNat (a.code i (32 * kb + k)), s.codeNum c v b.fmt.toNat (b.code j (32 * kb + k))))
      (a.scale i kb) (b.scale j kb)

/-- The metadata byte of row `i` and group `g` (R231). -/
def metaByte (side : SMap Byte) (off kmax i g : Nat) : Nat := ((side.look (off + i * kmax / 2 + g)).getD 0).toNat

/-- The element of bay A at logical position `k` of row `i`, if the metadata keep it (R231). -/
def keptAt (side : SMap Byte) (off kmax i k : Nat) : Option Nat :=
  let m := metaByte side off kmax i (k / 4)
  if k % 4 = m % 4 then some (2 * (k / 4)) else if k % 4 = m / 4 % 4 then some (2 * (k / 4) + 1) else none

/-- A block sum of MMASP: logical block `kb` (R231). -/
def State.mmaspBlock (s : State) (c v : Nat) (a b0 b1 : Bay) (side : SMap Byte) (off i j kb : Nat) : Lane :=
  let kmax := fmtKmax b0.fmt.toNat
  let b := if kb < kmax / 32 then b0 else b1
  let kl := if kb < kmax / 32 then kb else kb - kmax / 32
  if a.nb ≤ kb / 2 || b.nb ≤ kl then 0
  else
    blockSum ((List.range 32).map fun k =>
        (keptAt side off kmax i (32 * kb + k)).map fun e =>
          (s.codeNum c v a.fmt.toNat (a.code i e), s.codeNum c v b.fmt.toNat (b.code j (32 * kl + k))))
      (a.scale i (kb / 2)) (b.scale j kl)

/-! ## Checks (R226) -/

/-- Why a command fails: its code and DETAIL. -/
abbrev MxFail := Nat × Nat

/-- The first of a list of checks that fails. -/
def firstFail : List (Bool × MxFail) → Option MxFail
  | [] => none
  | (bad, f) :: l => if bad then some f else firstFail l

/-- Bits of the header that a type uses beyond its type, stream and Notify (R221). -/
def headerMask (ty : Nat) : Nat :=
  match ty with
  | 1 => 0xF00F0000
  | 2 => 0xFF000000
  | 3 | 4 => 0xFFFF0000
  | 5 => 0x0F000000
  | _ => 0

/-- Bits of lane `i` that a type uses (R221). -/
def laneMask (cmd : Vec) (i : Nat) : Nat :=
  let all := 0xFFFFFFFF
  match cmdType cmd, i with
  | ty, 0 => 0x7FF + headerMask ty
  | 1, 1 => 0xFF1F
  | 3, 1 | 4, 1 => 0xFFF
  | 6, 1 => 0x1FFF
  | 1, 2 | 1, 3 | 2, 2 | 2, 3 | 6, 2 | 6, 3 => all
  | 1, 4 | 1, 5 => if cmdField cmd 1 11 8 = 1 then all else 0
  | 4, 2 | 6, 4 => 0xFFF
  | _, 14 | _, 15 => if cmdNotify cmd then all else 0
  | _, _ => 0

/-- The first MXFMT row for lane 1 (R226, R227, R230, R231). -/
def formBad (cmd : Vec) : Bool :=
  let f := cmdField cmd 1 3 0
  let fb := cmdField cmd 1 7 4
  match cmdType cmd with
  | 1 =>
    12 < f || 1 < cmdField cmd 1 11 8 || fmtKmax f / 32 < cmdNb cmd || (fmtSix f && cmdNb cmd = 3)
  | 3 | 4 => 12 < f || 12 < fb || fmtKmax f ≠ fmtKmax fb
  | 6 =>
    let n := cmdField cmd 1 12 0
    n % 64 ≠ 0 || n < 64 || 4096 < n
  | _ => false

/-- The checks of the first MXFMT row, by lane: DETAIL is the lane of the offending field. -/
def formChecks (cmd : Vec) : List (Bool × MxFail) :=
  let ty := cmdType cmd
  let zero (i : Nat) : Bool := (lane cmd i).toNat &&& (0xFFFFFFFF - laneMask cmd i) != 0
  (List.range 16).map fun i =>
    (zero i ||
      (i = 0 && (ty = 0 || 8 < ty || (ty = 7 && !cmdNotify cmd) || (ty = 4 && cmdB cmd % 2 = 1))) ||
      (i = 1 && formBad cmd) ||
      (i = 4 && ty = 6 && (cmdField cmd 4 11 0 % 64 ≠ 0 || 4096 < cmdField cmd 4 11 0 + cmdField cmd 1 12 0)), (0x42, i))

/-- The bays of a command with whether each is read. -/
def cmdBays (cmd : Vec) : List (Nat × Bool) :=
  match cmdType cmd with
  | 1 => [(cmdA cmd, false)]
  | 3 => [(cmdA cmd, true), (cmdB cmd, true)]
  | 4 => [(cmdA cmd, true), (cmdB cmd, true), (cmdB cmd + 1, true)]
  | _ => []

/-- Bay `b` of VF `v` on core `c`. -/
def State.vfBay (s : State) (c v b : Nat) : Option Bay := (s.physBay v b).map fun p => s.bay c p

/-- A bay, or an empty one where the VF has none of that number. -/
def State.theBay (s : State) (c v b : Nat) : Bay := (s.vfBay c v b).getD {}

/-- The BAYSTATE row (R226). -/
def State.bayChecks (s : State) (c v : Nat) (cmd : Vec) : List (Bool × MxFail) :=
  let ty := cmdType cmd
  (cmdBays cmd).map (fun p =>
    (match s.vfBay c v p.1 with
      | none => true
      | some x => x.claim.isNone || (p.2 && !x.valid), (0x41, p.1))) ++
  [((ty = 2 || ty = 3 || ty = 4 || ty = 5) && (s.physAcc v (cmdAcc cmd)).isNone, (0x41, cmdAcc cmd)),
   ((ty = 4 || ty = 6) && !s.ownsSide v, (0x41, 0))]

/-- The first metadata byte that is bad, or lies beyond the side memory (R231). -/
def State.badMeta (s : State) (c : Nat) (cmd : Vec) : Option Nat :=
  let n := 16 * fmtKmax (cmdField cmd 1 3 0)
  (((List.range n).map fun i => cmdField cmd 2 11 0 + i).find? fun o =>
    let m := (((s.coreOf c).side.look o).getD 0).toNat
    4096 ≤ o || m / 4 % 4 ≤ m % 4 || 16 ≤ m)

/-- The second MXFMT row (R226). -/
def State.tagChecks (s : State) (c v : Nat) (cmd : Vec) : List (Bool × MxFail) :=
  let fa := cmdField cmd 1 3 0
  let fb := cmdField cmd 1 7 4
  let a := s.theBay c v (cmdA cmd)
  let b := s.theBay c v (cmdB cmd)
  let b' := s.theBay c v (cmdB cmd + 1)
  match cmdType cmd with
  | 3 => [(fa ≠ a.fmt.toNat || fb ≠ b.fmt.toNat, (0x42, 1))]
  | 4 =>
    [(fa ≠ a.fmt.toNat || fb ≠ b.fmt.toNat || b.fmt != b'.fmt || b.layout != b'.layout, (0x42, 1)),
     ((s.badMeta c cmd).isSome, (0x42, (s.badMeta c cmd).getD 0))]
  | _ => []

/-- Whether a layout is permitted for a TLOAD (R228). -/
def layoutFits (layout f nb : Nat) : Bool :=
  let q := rowBytes f nb / 16
  match layout with
  | 0 => true
  | 1 => !fmtSix f
  | 2 => q % 4 = 0
  | 3 => q % 8 = 0
  | _ => false

/-- The LAYOUT row (R226, R228 to R230). -/
def State.layoutChecks (s : State) (c v : Nat) (cmd : Vec) : List (Bool × MxFail) :=
  let l := cmdLayout cmd
  let lb := cmdField cmd 1 11 8
  match cmdType cmd with
  | 1 => [(!layoutFits l (cmdField cmd 1 3 0) (cmdNb cmd), (0x40, cmdA cmd))]
  | 2 => [(3 < l, (0x40, cmdAcc cmd))]
  | 3 =>
    [(3 < l || l ≠ (s.theBay c v (cmdA cmd)).layout.toNat, (0x40, cmdA cmd)),
     (3 < lb || lb ≠ (s.theBay c v (cmdB cmd)).layout.toNat, (0x40, cmdB cmd))]
  | 4 =>
    [(3 < l || l ≠ (s.theBay c v (cmdA cmd)).layout.toNat, (0x40, cmdA cmd)),
     (3 < lb || lb ≠ (s.theBay c v (cmdB cmd)).layout.toNat, (0x40, cmdB cmd))]
  | _ => []

/-- Whether `n` bytes at an address lie in VF `v`'s local or cluster window on core `c` (R160, R161, R225). -/
def State.inWindow (s : State) (c v a n : Nat) : Bool :=
  a < 0x1800000 && (s.windowPlace c v a).isSome && (s.windowPlace c v (a + n - 1)).isSome

/-- The MXADDR row (R226). -/
def State.addrChecks (s : State) (c v : Nat) (cmd : Vec) : List (Bool × MxFail) :=
  let out (i n align : Nat) : Bool × MxFail := (cmdAddr cmd i % align ≠ 0 || !s.inWindow c v (cmdAddr cmd i) n, (0x45, i))
  (match cmdType cmd with
    | 1 =>
      out 2 (32 * rowBytes (cmdField cmd 1 3 0) (cmdNb cmd)) 64 ::
        if cmdField cmd 1 11 8 = 1 then [out 4 (32 * cmdNb cmd) 1] else []
    | 2 => [out 2 4096 64]
    | 6 => [out 2 (cmdField cmd 1 12 0) 64]
    | _ => []) ++
  if cmdNotify cmd then [out 14 8 8] else []

/-- The checks of a command in the order of the rows of R226. -/
def State.mxChecks (s : State) (c v : Nat) (cmd : Vec) : Option MxFail :=
  firstFail (((s.coreOf c).mxRetired, (0x46, 0)) :: formChecks cmd ++ s.bayChecks c v cmd ++ s.tagChecks c v cmd ++
    s.layoutChecks c v cmd ++ s.addrChecks c v cmd)

/-! ## Effects (R227 to R232) -/

/-- A byte of VF `v`'s window on core `c`, from a word that a command has read already, or from memory. -/
def State.winByte (s : State) (early : SMap (Word × Bool)) (c v a : Nat) : Byte :=
  match early.look (a / 8) with
  | some (w, _) => BitVec.ofNat 8 (w.toNat / 256 ^ (a % 8))
  | none => ((s.windowPlace c v a).map fun p => s.mem.get p.pa).getD 0

/-- Whether a word holding one of `n` window bytes was read poisoned, or is poisoned. -/
def State.winPoison (s : State) (early : SMap (Word × Bool)) (c v a n : Nat) : Bool :=
  (List.range n).any fun i =>
    match early.look ((a + i) / 8) with
    | some (_, bad) => bad
    | none => ((s.windowPlace c v (a + i)).map fun p => wordsHit s.poison p.pa 1).getD false

/-- The window words that a command reads, by word number. -/
def readWords (cmd : Vec) : List Nat :=
  (cmdReads cmd).flatMap fun r => (List.range ((r.1 + r.2 + 7) / 8 - r.1 / 8)).map fun i => r.1 / 8 + i

/-- TLOAD (R227): the state, and whether it read poison. -/
def State.doTload (s : State) (c v : Nat) (q : MxCmd) : State × Bool :=
  let cmd := q.cmd
  let f := cmdField cmd 1 3 0
  let nb := cmdNb cmd
  let l := rowBytes f nb
  let src := cmdAddr cmd 2
  let sc := cmdField cmd 1 11 8 = 1
  let codes := (List.range 32).flatMap fun r => (List.range l).map fun i =>
    (128 * r + i, rowImageByte f nb (cmdLayout cmd) (fun o => s.winByte q.early c v (src + o)) r i)
  let scales := (List.range 32).flatMap fun r => (List.range nb).map fun kb =>
    (8 * r + kb, if sc then s.winByte q.early c v (cmdAddr cmd 4 + r * nb + kb) else 0x7F)
  let poison := s.winPoison q.early c v src (32 * l) || (sc && s.winPoison q.early c v (cmdAddr cmd 4) (32 * nb))
  match s.physBay v (cmdA cmd) with
  | none => (s, poison)
  | some p =>
    (s.modBay c p fun x =>
      { x with codes := codes, scales := scales, fmt := BitVec.ofNat 4 f, layout := BitVec.ofNat 4 (cmdLayout cmd), nb := nb,
               valid := true, poison := poison }, poison)

/-- The place of element `e` of row `r` of a stored accumulator, in bytes (R228, R229). -/
def storeOff (layout r e : Nat) : Nat := if layout = 1 then 4 * (32 * e + r) else chunkOff layout 128 r (e / 4) + 4 * (e % 4)

/-- Word `w` of the stored accumulator `p` of core `c` in a layout (R229). -/
def State.storedWord (s : State) (c p layout w : Nat) : Word :=
  let a := s.acc c p
  let cells := (List.range 1024).map fun n => (storeOff layout (n / 32) (n % 32), (a.vals.look n).getD 0)
  let at' (o : Nat) : Nat := ((cells.find? fun q => q.1 == o).map fun q => q.2.toNat).getD 0
  BitVec.ofNat 64 (at' (8 * w) + at' (8 * w + 4) * 2 ^ 32)

/-- Words of a TSTORE are written (R229). -/
def State.tstoreWords (s : State) (c v p : Nat) (cmd : Vec) (ws : List Nat) : State :=
  ws.foldl
    (fun s w =>
      match s.windowPlace c v (cmdAddr cmd 2 + 8 * w) with
      | none => s
      | some q => s.engineWord c v q.pa (s.storedWord c p (cmdLayout cmd) w) (s.acc c p).poison) s

/-- TSTORE (R229): the words that it has not written yet. -/
def State.doTstore (s : State) (c v : Nat) (q : MxCmd) : State × Bool :=
  match s.physAcc v (cmdAcc q.cmd) with
  | none => (s, false)
  | some p => (s.tstoreWords c v p q.cmd ((List.range 512).filter fun w => (q.early.look w).isNone), (s.acc c p).poison)

/-- MMA and MMASP on accumulator elements (R230, R231). -/
def State.mmaInto (s : State) (c p : Nat) (poison : Bool) (blocks : Nat → Nat → List Lane) : State × Bool :=
  (s.modAcc c p fun a =>
    { vals := (List.range 1024).map fun n => (n, accumulate ((a.vals.look n).getD 0) (blocks (n / 32) (n % 32))),
      poison := a.poison || poison }, poison)

/-- MMA (R230). -/
def State.doMma (s : State) (c v : Nat) (cmd : Vec) : State × Bool :=
  let a := s.theBay c v (cmdA cmd)
  let b := s.theBay c v (cmdB cmd)
  match s.physAcc v (cmdAcc cmd) with
  | none => (s, false)
  | some p =>
    s.mmaInto c p (a.poison || b.poison) fun i j =>
      (List.range (fmtKmax (cmdField cmd 1 3 0) / 32)).map fun kb => s.mmaBlock c v a b i j kb

/-- MMASP (R231). -/
def State.doMmasp (s : State) (c v : Nat) (cmd : Vec) : State × Bool :=
  let a := s.theBay c v (cmdA cmd)
  let b := s.theBay c v (cmdB cmd)
  let b' := s.theBay c v (cmdB cmd + 1)
  let side := (s.coreOf c).side
  match s.physAcc v (cmdAcc cmd) with
  | none => (s, false)
  | some p =>
    s.mmaInto c p (a.poison || b.poison || b'.poison) fun i j =>
      (List.range (fmtKmax (cmdField cmd 1 3 0) / 16)).map fun kb =>
        s.mmaspBlock c v a b b' side (cmdField cmd 2 11 0) i j kb

/-- ACCZ (R232). -/
def State.doAccz (s : State) (c v : Nat) (cmd : Vec) : State :=
  match s.physAcc v (cmdAcc cmd) with
  | none => s
  | some p => s.modAcc c p fun _ => {}

/-- SPLOAD (R231): the state, and whether it read poison. -/
def State.doSpload (s : State) (c v : Nat) (q : MxCmd) : State × Bool :=
  let cmd := q.cmd
  let src := cmdAddr cmd 2
  let n := cmdField cmd 1 12 0
  let bs := (List.range n).map fun i => (cmdField cmd 4 11 0 + i, s.winByte q.early c v (src + i))
  (s.modCore c fun co => { co with side := bs.foldl (fun m p => m.put p.1 p.2) co.side }, s.winPoison q.early c v src n)

/-- The effect of a command that passes its checks, by its type (R221). -/
def State.mxEffect (s : State) (c v : Nat) (q : MxCmd) : State × Bool :=
  match cmdType q.cmd with
  | 1 => s.doTload c v q
  | 2 => s.doTstore c v q
  | 3 => s.doMma c v q.cmd
  | 4 => s.doMmasp c v q.cmd
  | 5 => (s.doAccz c v q.cmd, false)
  | 6 => s.doSpload c v q
  | _ => (s, false)

/-! ## Streams, starts and completions (R212, R223 to R225, R233, R234) -/

/-- Whether a TBLLD that has issued holds a command back (R78). -/
def State.tblHolds (s : State) (c v : Nat) (q : MxCmd) : Bool :=
  (s.coreOf c).slots.any fun p =>
    p.2.vfid.toNat == v &&
      match p.2.status with
      | .wait (.tblld t _ seq) => seq ≤ q.seq && q.usesTable (4 + t.toNat)
      | _ => false

/-- The command at the head of a stream that may start (R223): nothing before it in its stream, no MXBAR before it, and an MXBAR only
when nothing at all is before it. -/
def mxHead (stream : Nat) : List MxCmd → List MxCmd → Option MxCmd
  | _, [] => none
  | before, q :: l =>
    if cmdStream q.cmd = stream then (if cmdType q.cmd = 8 && !before.isEmpty then none else some q)
    else if cmdType q.cmd = 8 then none
    else mxHead stream (before ++ [q]) l

/-- Whether a command moves words of memory: TLOAD, TSTORE and SPLOAD. -/
def cmdMoves (cmd : Vec) : Bool := cmdType cmd = 1 || cmdType cmd = 2 || cmdType cmd = 6

/-- The address of the first of a command's window words whose page or bus it waits for (R172, R175). -/
def State.mxGone (s : State) (c v : Nat) (cmd : Vec) : Option Nat :=
  let ranges := cmdReads cmd ++ (if cmdType cmd = 2 then [(cmdAddr cmd 2, 4096)] else []) ++ if cmdNotify cmd then [(cmdAddr cmd 14, 8)] else []
  ranges.findSome? fun r => (List.range (r.2 / 64 + 1)).findSome? fun i =>
    ((s.windowPlace c v (min (r.1 + 64 * i) (r.1 + r.2 - 1))).map fun p => p.pa).filter fun a => s.isUnavail a

/-- The command of VF `v`'s stream on core `c` that may go on now: the one the unit has started, which completes through a stop or a halt (R234); without
one, that which may start. -/
def State.mxCould (s : State) (c v stream : Nat) : Option MxCmd :=
  match s.mxBegun c with
    | some (u, q) => if u = v && cmdStream q.cmd = stream then some q else none
    | none =>
      if v < 8 && !s.frozen c && !(s.clus (clusterOf c)).retired && !(s.rowEntry v).idle && s.phase v != EdgePhase.stopped then
        (mxHead stream [] (s.vfOf c v).mxq).filter fun q => !s.tblHolds c v q
      else none

/-- The command of a stream that goes on now: no page or bus holds it (R172, R175). -/
def State.mxReady (s : State) (c v stream : Nat) : Option MxCmd := (s.mxCould c v stream).filter fun q => (s.mxGone c v q.cmd).isNone

/-- The VF that the array's rotation serves next (R212). -/
def State.mxNext (s : State) (c : Nat) : Option Nat :=
  ((List.range 8).map fun i => ((s.coreOf c).mxTurn + i) % 8).find? fun v =>
    (List.range 4).any fun st => (s.mxReady c v st).isSome

/-- The status word (R225). -/
def mxStatus (cmd : Vec) (code detail : Nat) (poison : Bool) : Word :=
  BitVec.ofNat 64 (code + cmdType cmd * 2 ^ 8 + cmdStream cmd * 2 ^ 16 + flagAt poison 18 + detail * 2 ^ 32)

/-- A command that moves words starts: some of its words, in no order, are read or written now, the others when it completes (R186; log 35). -/
def State.mxBegin (s : State) (c v : Nat) (q : MxCmd) : State :=
  let now (w : Nat) : Bool := Config.engineNow s.fresh w % 2 == 1
  let r : State × SMap (Word × Bool) :=
    if cmdType q.cmd = 2 then
      let ws := (List.range 512).filter now
      match s.physAcc v (cmdAcc q.cmd) with
      | none => (s, [])
      | some p => (s.tstoreWords c v p q.cmd ws, ws.map fun w => (w, (0, false)))
    else
      (s, ((readWords q.cmd).filter now).filterMap fun w =>
        (s.windowPlace c v (8 * w)).map fun p => (w, (s.mem.word p.pa, s.isPoisoned p.pa)))
  { r.1 with fresh := s.fresh + 1 }.modVf c v fun cv =>
    { cv with mxq := cv.mxq.map fun x => if x = q then { x with begun := true, early := q.early ++ r.2 } else x }

/-- A command of VF `v` completes (R224, R225); one that has started has passed its checks, and finds only its unit retired meanwhile (R226, R233). -/
def State.mxRun (s : State) (c v : Nat) (q : MxCmd) : State :=
  let cmd := q.cmd
  let s := s.count c v 6
  let (s, w, code) := match if q.begun && !(s.coreOf c).mxRetired then none else s.mxChecks c v cmd with
    | some (code, detail) =>
      let s := if cmdType cmd = 1 && (code = 0x40 || code = 0x45) then
          match s.physBay v (cmdA cmd) with
          | some p => s.modBay c p fun x => { x with valid := false }
          | none => s
        else s
      (s, mxStatus cmd code detail false, code)
    | none =>
      let r := s.mxEffect c v q
      (r.1, mxStatus cmd 0 0 r.2, 0)
  let s := s.modVf c v fun cv =>
    { cv with mxq := cv.mxq.erase q, mxErr := if code ≠ 0 && cv.mxErr = 0 then w else cv.mxErr }
  let s := s.modCore c fun co => { co with mxTurn := (v + 1) % 8 }
  if cmdNotify cmd && cmdAddr cmd 14 % 8 = 0 && s.inWindow c v (cmdAddr cmd 14) 8 then
    match s.windowPlace c v (cmdAddr cmd 14) with
    | some p => s.engineWord c v p.pa w false
    | none => s
  else s

/-- The request of a command that finds its page unavailable joins the home's fault queue (R172). -/
def State.mxPark (s : State) (c v stream : Nat) : State :=
  match s.mxCould c v stream with
  | none => s
  | some q =>
    match s.mxGone c v q.cmd with
    | none => s
    | some pa => s.parkAt pa c q.slot (.matrix v q.seq)

/-- The array of core `c` starts, or completes, the command of a type at the head of a stream, where its rotation has come to the VF; otherwise
nothing happens. -/
def State.mxStart (s : State) (c v stream : Nat) (ofType : Nat → Bool) : Out :=
  match s.mxReady c v stream with
  | none => .next (s.mxPark c v stream)
  | some q =>
    if ofType (cmdType q.cmd) && s.mxNext c = some v then
      .next (if !q.begun && cmdMoves q.cmd && (s.mxChecks c v q.cmd).isNone then s.mxBegin c v q else s.mxRun c v q)
    else .next s

/-- TLOAD (R227). -/
def execTload (core vf stream : Nat) (s : State) : Out := s.mxStart core vf stream (· == 1)
/-- TSTORE (R229). -/
def execTstore (core vf stream : Nat) (s : State) : Out := s.mxStart core vf stream (· == 2)
/-- MMA (R230). -/
def execMma (core vf stream : Nat) (s : State) : Out := s.mxStart core vf stream (· == 3)
/-- MMASP (R231). -/
def execMmasp (core vf stream : Nat) (s : State) : Out := s.mxStart core vf stream (· == 4)
/-- ACCZ (R232). -/
def execAccz (core vf stream : Nat) (s : State) : Out := s.mxStart core vf stream (· == 5)
/-- SPLOAD (R231). -/
def execSpload (core vf stream : Nat) (s : State) : Out := s.mxStart core vf stream (· == 6)
/-- MXNOTE (R232); a command of a type that does not exist completes here, as MXFMT (R226). -/
def execMxnote (core vf stream : Nat) (s : State) : Out := s.mxStart core vf stream fun t => t == 7 || t == 0 || 8 < t
/-- MXBAR (R223, R232). -/
def execMxbar (core vf stream : Nat) (s : State) : Out := s.mxStart core vf stream (· == 8)

end Sys2Proof.Machine
end

