-- ==== Sys2Proof/Machine/Sync.lean ====
section
/-! DEFINITION. Sync slots, the gang barrier, and the instructions on obligations (R258 to R284). -/

namespace Sys2Proof.Machine

/-- An instruction that the movement slot may not run (R235, R271). -/
def State.notMovement (s : State) (f : State → Out) : Out := if s.slot = 0 then .next (s.decodeFault .illegal) else f s

/-- A sync slot named by the issuing slot: steps 1 to 3 of R262, and the hold of a donated turn (R311). -/
def State.withSync (s : State) (sa : Word) (write : Bool) (f : State → Place → Out) : Out :=
  if sa.toNat % 16 = 0 && s.walkHeld sa then .next (s.holdWalk sa)
  else
    match s.resolve sa { size := 16, write := write } with
    | (s', .error c) => .next (s'.trap c sa)
    | (s', .ok p) =>
      if p.kind = .far || p.kind = .device then .next (s'.trap .sykind sa)
      else if p.kind = .near && s'.donated s'.bankVf then .next (s'.hold .donated)
      else f s' p

/-- SYWAIT (R276). -/
def execSywait (g : Pred) (d : Reg) (sa st : SSrc) (s : State) : Out :=
  s.notMovement fun s => guarded g s <| s.waits fun s =>
    let a := s.ssrc sa
    s.withSync a true fun s p =>
      s.ownFirst [p.pa, p.pa + 8] fun s => s.ask (.sywait d a p.pa (s.ssrc st) (s.obmin s.core s.slot))

/-- SYADD (R273). -/
def execSyadd (g : Pred) (sa sv : SSrc) (s : State) : Out :=
  s.notMovement fun s => guarded g s <|
    let a := s.ssrc sa
    s.withSync a true fun s p =>
      s.afterRelease .module fun s => s.ask (.syadd a p.pa (boundObj s.core a) (s.ssrc sv))

/-- SYARRIVE (R274). -/
def execSyarrive (g : Pred) (d : Reg) (sa : SSrc) (s : State) : Out :=
  s.notMovement fun s => guarded g s <|
    let a := s.ssrc sa
    s.withSync a true fun s p => s.afterRelease .module fun s => s.ask (.syarrive d a p.pa (boundObj s.core a))

/-- SYREAD (R277). -/
def execSyread (g : Pred) (d : Reg) (sa : SSrc) (w : Bool) (s : State) : Out :=
  s.notMovement fun s => guarded g s <|
    let a := s.ssrc sa
    s.withSync a false fun s p => s.ownFirst [p.pa, p.pa + 8] fun s => s.ask (.syread d a p.pa w)

/-- SYRET (R278): its checks come before its release. -/
def execSyret (g : Pred) (sa : SSrc) (s : State) : Out :=
  s.notMovement fun s => guarded g s <|
    let a := s.ssrc sa
    s.withSync a true fun s p =>
      if !s.isUnavail p.pa && s.syretBad p.pa then .next (s.trap .sykind a)
      else s.afterRelease .module fun s => s.ask (.syret a p.pa (boundObj s.core a))

/-- A sync-unit entry is reserved, and room for an obligation where one is owed; then the stores are released at MODULE scope (R272, R275). -/
def State.reserveSync (s : State) (sa : Word) (owe : Bool) (f : State → Out) : Out :=
  let cv := s.curVf
  let mine := cv.syncResv.elem s.slot
  if !mine && s.syncShare s.bankVf ≤ cv.sync.length + cv.syncResv.length then .next (s.trap .syfull sa)
  else
    let s := if mine then s else s.modVf s.core s.bankVf fun cv => { cv with syncResv := cv.syncResv ++ [s.slot] }
    if owe then s.withRoom fun s => s.afterRelease .module f else s.afterRelease .module f

/-- Word 0 of a slot that SYINIT makes (R272). -/
def initWord (type : SlotType) (v : Word) : Word :=
  match type with
  | .signal => syncWord false 1 0 (field v 47 0)
  | .barrier => syncWord false 2 0 (field v 47 24 * 2 ^ 24 + field v 47 24)
  | .join => syncWord false 3 0 (field v 47 0)

/-- SYINIT (R272). -/
def execSyinit (g : Pred) (sa sr sv : SSrc) (type : SlotType) (owe : Bool) (s : State) : Out :=
  s.reserving <| s.notMovement fun s => guarded g s <|
    let a := s.ssrc sa
    let rk := s.ssrc sr
    let v := s.ssrc sv
    s.withSync a true fun s p =>
      if 0xFFFFFFFFFFFFFF ≤ rk.toNat then .next (s.trap .rankspace rk)
      else if (type = .barrier && field v 47 24 = 0) || (owe && type ≠ .barrier) then .next (s.trap .sykind a)
      else s.reserveSync a owe fun s =>
        s.ask (.syinit a p.pa (boundObj s.core a) (rk.setWidth 56) (initWord type v) (if owe then some .arrive else none) none)

/-- OBNEW (R275): the slot's address is in the destination. -/
def execObnew (g : Pred) (d : Reg) (lo hi : SSrc) (owe : Bool) (s : State) : Out :=
  s.reserving <| s.notMovement fun s => guarded g s <|
    let a := s.sreg d
    let l := (s.ssrc lo).toNat
    let h := (s.ssrc hi).toNat
    if 0xFFFFFFFFFFFFFF < h || h < l + 2 then .next (s.trap .rankspace (s.ssrc hi))
    else
      s.withSync a true fun s p => s.reserveSync a owe fun s =>
        s.ask (.syinit a p.pa (boundObj s.core a) (BitVec.ofNat 56 ((l + h) / 2)) (initWord .signal 0)
          (if owe then some .signal else none) (some d))

/-! ## GBAR (R279) -/

/-- The stage of the gang a core belongs to for a VF. -/
def State.gangStage (s : State) (c v : Nat) : Option StageInfo :=
  let cv := s.vfOf c v
  (cv.launch.bind fun l => s.launches.look l).bind fun l => l.stages[cv.stage]?

/-- A waiting GBAR of a completed phase completes (R279). -/
def Slot.passBarrier (x : Slot) : Slot :=
  match x.status with
  | .wait (.gbar _ _) => { { x with barPhase := none }.advance with status := .run }
  | _ => x

/-- Every core of a gang has arrived: the phase completes (R279). -/
def State.passGang (s : State) (v : Nat) (cores : List Nat) : State :=
  cores.foldl
    (fun s c =>
      let s := s.modVf c v fun cv => { cv with barArrived := false, barPhase := (cv.barPhase + 1) % 256 }
      s.modCore c fun co => { co with slots := co.slots.over fun _ x => if x.vfid.toNat = v then x.passBarrier else x }) s

/-- The issuing slot waits at the gang barrier, or passes it (R279). -/
def State.atBarrier (s : State) (rank : BitVec 56) : State :=
  let v := s.bankVf
  let cv := s.curVf
  match s.cur.barPhase with
  | some p =>
    if p = cv.barPhase then s.wait (.gbar p rank) else (s.modCur fun x => { x with barPhase := none }).retire
  | none =>
    if cv.barArrived then s.wait (.gbar cv.barPhase rank)
    else
      let s := (s.modVf s.core v fun cv => { cv with barArrived := true }).modCur fun x => { x with barPhase := some cv.barPhase }
      let s := s.wait (.gbar cv.barPhase rank)
      let cores := s.gangCores s.core v
      if cores.all fun c => (s.vfOf c v).barArrived then s.passGang v cores else s

/-- GBAR (R279): SYKIND on a gang without a barrier (R332). -/
def execGbar (s : State) : Out :=
  s.notMovement fun s => s.waits fun s =>
    match s.gangStage s.core s.bankVf with
    | none => .next (s.trap .sykind 0)
    | some g =>
      if !g.bar then .next (s.trap .sykind 0)
      else s.rankBelow g.rank (g.rank.setWidth 64) fun s => s.afterRelease .module fun s => .next (s.atBarrier g.rank)

/-! ## Obligations (R280 to R283) -/

/-- OBOWE (R280). -/
def execObowe (g : Pred) (sa : SSrc) (s : State) : Out :=
  s.reserving <| s.notMovement fun s => guarded g s <|
    let a := s.ssrc sa
    s.withSync a true fun s p =>
      s.ownFirst [p.pa, p.pa + 8] fun s => s.withRoom fun s => s.ask (.obowe a p.pa (boundObj s.core a))

/-- The object that OBGIVE names (R263): a plain window address or bay number is bound to this core. -/
def giveObj (c : Nat) (kind : ObKind) (so : Word) : Word :=
  match kind with
  | .reply | .tuple => so
  | _ => boundObj c so

/-- OBGIVE to the next FORK's record (R268): the earliest matching entry that is not marked yet. -/
def State.giveRecord (s : State) (kind : ObKind) (obj : Word) : Out :=
  let mine := s.obsOf s.core s.slot
  match mine.find? fun o => o.kind == kind && o.obj == obj && !o.marked with
  | none => .next (s.trap .obgive 0)
  | some o =>
    if 3 ≤ (mine.filter fun o => o.marked).length || 64 ≤ s.carriedUsed s.core s.bankVf then .next (s.trap .obgive 0)
    else
      s.afterRecall (some o) fun s =>
        let (s, o) := s.recallOb s.core s.slot o
        .next (s.modCore s.core fun co => { co with obs := swapOb o { o with marked := true, spill := none, unwritten := false, carried := false } co.obs }).retire

/-- OBGIVE to a named activity (R268). -/
def State.giveActivity (s : State) (o : Oblig) (h : Word) : Out :=
  if h = s.handleOf s.core s.slot then .next s.retire
  else
    match s.byHandle h with
    | none => .next (s.trap .obgive h)
    | some (c, k) =>
      if (s.slotOf c k).vfid.toNat ≠ s.bankVf || !s.mayReceive c k o then .next (s.trap .obgive h)
      else
        s.afterRecall (some o) fun s => match s.findRoom c k with
        | .full s' => .next (s'.trap .obgive h)
        | .busy s' _ w => .next (s'.holdFor w)
        | .ok s' i =>
          let (s', o) := s'.recallOb s.core s.slot o
          .next (((s'.dropOb s.core o).reclaim c k o).placeOb c k o i).retire

/-- OBGIVE (R281). -/
def execObgive (g : Pred) (so sh : SSrc) (mode : GiveMode) (kind : ObKind) (s : State) : Out :=
  s.notMovement fun s => guarded g s <|
    let obj := giveObj s.core kind (s.ssrc so)
    let h := s.ssrc sh
    match pickOb (s.obsOf s.core s.slot) kind obj with
    | none => .next (s.trap .obstray (s.ssrc so))
    | some o =>
      match mode with
      | .toRecord => s.giveRecord kind obj
      | .toActivity => s.giveActivity o h
      | .poison =>
        s.afterRecall (some o) fun s => s.afterRelease .module fun s =>
          let (s, o) := s.recallOb s.core s.slot o
          .next ((s.dropOb s.core o).poisonOb s.core s.slot s.bankVf s.cur.tenant.toNat o).retire

/-- OBQ (R282). -/
def execObq (g : Pred) (d : Reg) (si : SSrc) (fld : BitVec 2) (s : State) : Out :=
  s.notMovement fun s => guarded g s <|
    if fld = 2 then .next (s.putS 3 d (s.handleOf s.core s.slot)).retire
    else
      match (byRank (s.obsOf s.core s.slot))[(s.ssrc si).toNat]? with
      | none => .next (s.putS 3 d 0).retire
      | some o => s.afterRecall (some o) fun s =>
        let (s, o) := s.recallOb s.core s.slot o
        .next (s.putS 3 d (if fld = 0 then o.obj else BitVec.ofNat 64 (kindCode o.kind * 2 ^ 56 + o.rank.toNat))).retire

/-- OBRANK (R283). -/
def execObrank (g : Pred) (d : Reg) (so : SSrc) (kind : BitVec 2) (s : State) : Out :=
  s.notMovement fun s => guarded g s <|
    let a := s.ssrc so
    match kind.toNat with
    | 0 =>
      if a.toNat % 8 ≠ 0 then .next (s.trap .align a)
      else if s.walkHeld a then .next (s.holdWalk a)
      else
        match s.locate s.core s.slot s.bankVf (s.pasid s.bankVf s.cur.tenant.toNat) a with
        | (s', .error c) => .next (s'.trap c a)
        | (s', .ok p) => .next (s'.putS 0 d ((feRank p a).setWidth 64)).retire
    | 1 => s.withSync a false fun s p => s.ownFirst [p.pa, p.pa + 8] fun s => s.ask (.obrank d a p.pa)
    | 2 =>
      let b := field a 3 0
      match s.physBay s.bankVf b with
      | none => .next (s.trap .perm (BitVec.ofNat 64 b))
      | some _ => .next (s.putS 0 d ((s.bayRank s.core s.bankVf b).setWidth 64)).retire
    | _ =>
      match s.gangStage s.core s.bankVf with
      | some x => .next (s.putS 0 d (x.rank.setWidth 64)).retire
      | none => .next ({ s with fresh := s.fresh + 1 }.putS 0 d ((Config.noGang s.fresh).setWidth 64)).retire

end Sys2Proof.Machine
end

