-- ==== Sys2Proof/Machine/Tuple.lean ====
section
/-! DEFINITION. The instructions of the tuple space (R293 to R298): their checks, and their requests on the way to a slice. -/

namespace Sys2Proof.Machine

/-- The region an instruction names: checks 1 to 3 of R294, and the hold of a donated turn (R311). -/
def State.withRegion (s : State) (sr : Word) (write : Bool) (f : State → Place → Out) : Out :=
  if sr.toNat % 4096 ≠ 0 then .next (s.trap .align sr)
  else if s.walkHeld sr then .next (s.holdWalk sr)
  else
    match s.locate s.core s.slot s.bankVf (s.pasid s.bankVf s.cur.tenant.toNat) sr with
    | (s', .error c) => .next (s'.trap c sr)
    | (s', .ok p) =>
      if write && (!p.w || p.pr) then .next (s'.trap .perm sr)
      else if p.kind ≠ .ts then .next (s'.trap .tskind sr)
      else if s'.donated s'.bankVf then .next (s'.hold .donated)
      else f s' p

/-- The number of a region: PA[35:12] of its page (R285, R294). -/
def regionOf (p : Place) : Nat := p.pa % 2 ^ 36 / 4096

/-- The rank of a region (R259, R294). -/
def regionRank (p : Place) : BitVec 56 := p.rankClass.setWidth 56 <<< 40

/-- A request of the issuing slot sets out for its slice (R289); `waits` is the rank a wait holds. -/
def State.tsSend (s : State) (sr : Word) (p : Place) (tag : Lane) (rank : BitVec 56) (waits : Option (BitVec 56)) (r : TsReq) : State :=
  let e : TsEntry := { core := s.core, slot := s.slot, gen := s.cur.gen, vf := s.bankVf, tenant := s.cur.tenant.toNat, sr := sr, region := regionOf p,
                       slice := homeSlice (regionOf p) tag, req := r, obmin := s.obmin s.core s.slot, rank := rank }
  { s with ts := s.ts ++ [e] }.wait (.tupleSent waits)

/-- The register after one, in its file. -/
def regAfter : Reg → Reg
  | .priv n => .priv (n + 1)
  | .shared n => .shared (n + 1)

/-- TSPUT (R295): it compares the region's rank (R294). -/
def execTsput (a : VSrc) (sr : SSrc) (s : State) : Out :=
  s.notMovement fun s => s.waits fun s =>
    let w := s.ssrc sr
    let t := s.vsrc a
    s.withRegion w true fun s p =>
      if !tupleOk t then .next (s.trap .tspat 0)
      else
        s.rankBelow (regionRank p) ((regionRank p).setWidth 64) fun s => s.afterRelease .module fun s =>
          .next (s.tsSend w p (tagOf t) (regionRank p) (some (regionRank p)) (.put t false true))

/-- A request for a tuple (R296): the blocking forms compare the tuple's rank. -/
def State.tsRequest (s : State) (vp : Reg) (sr : SSrc) (take nb : Bool) (r : Vec → Vec → TsReq) : Out :=
  let w := s.ssrc sr
  let v := s.vreg vp
  let m := s.vreg (regAfter vp)
  let go (s : State) : Out :=
    s.withRegion w take fun s p =>
      if !patternOk v m then .next (s.trap .tspat 0)
      else
        let rank := tupleRank p.rankClass (tagOf v)
        if nb then .next (s.tsSend w p (tagOf v) rank none (r v m))
        else s.rankBelow rank (rank.setWidth 64) fun s => .next (s.tsSend w p (tagOf v) rank (some rank) (r v m))
  if nb then go s else s.waits go

/-- TSCOPY (R296). -/
def execTscopy (d : Reg) (vp : Reg) (sr : SSrc) (s : State) : Out :=
  s.notMovement fun s => s.tsRequest vp sr false false fun v m => .copy d v m false
/-- TSCOPY.nb (R296). -/
def execTscopyNb (d : Reg) (vp : Reg) (sr : SSrc) (s : State) : Out :=
  s.notMovement fun s => s.tsRequest vp sr false true fun v m => .copy d v m true
/-- TSTAKE (R296). -/
def execTstake (d : Reg) (vp : Reg) (sr : SSrc) (s : State) : Out :=
  s.notMovement fun s => s.tsRequest vp sr true false fun v m => .take d v m false
/-- TSTAKE.nb (R296). -/
def execTstakeNb (d : Reg) (vp : Reg) (sr : SSrc) (s : State) : Out :=
  s.notMovement fun s => s.tsRequest vp sr true true fun v m => .take d v m true

/-- TSOWE (R297). -/
def execTsowe (g : Pred) (d : Reg) (sr st : SSrc) (s : State) : Out :=
  s.reserving <| s.notMovement fun s => guarded g s <|
    let w := s.ssrc sr
    let t := s.ssrc st
    let tag : Lane := t.setWidth 32
    s.withRegion w false fun s p =>
      if tag = 0 || field t 63 32 ≠ 0 then .next (s.trap .tspat 0)
      else s.withRoom fun s => .next (s.tsSend w p tag (tupleRank p.rankClass tag) none (.owe d tag))

/-- TSCOUNT (R298). -/
def execTscount (g : Pred) (d : Reg) (vp : Reg) (sr : SSrc) (s : State) : Out :=
  s.notMovement fun s => guarded g s <|
    let w := s.ssrc sr
    let v := s.vreg vp
    let m := s.vreg (regAfter vp)
    s.withRegion w false fun s p =>
      if !patternOk v m then .next (s.trap .tspat 0)
      else .next (s.tsSend w p (tagOf v) (tupleRank p.rankClass (tagOf v)) none (.count d v m))

end Sys2Proof.Machine
end

