-- ==== Sys2Proof/Machine/Tasks.lean ====
section
/-! DEFINITION. The instructions of tasks, messages, mailboxes, copies and collectives (R235 to R256). -/

namespace Sys2Proof.Machine

/-- An instruction that only general slots run (R235): ILLEGAL in the movement and handler slots. -/
def State.generalOnly (s : State) (f : State → Out) : Out :=
  if s.slot = 0 || s.slot = 15 then .next (s.decodeFault .illegal) else f s

/-! ## Tasks (R239, R242) -/

/-- The record of a FORK at an address, apart from its join's obligation (R237, R239). -/
def State.forkRec (s : State) (entry join : Word) : TaskRec :=
  { entry := addrBits entry, arg1 := s.sreg (.priv 1), arg2 := s.sreg (.priv 2), arg3 := s.sreg (.priv 3), arg4 := s.sreg (.priv 4),
    join := join, fsa := ptrOf s.cur.fmta s.cur.scla, fsb := ptrOf s.cur.fmtb s.cur.sclb, launch := s.cur.launch.getD 0 }

/-- FORK (R239). -/
def execFork (g : Pred) (dist : BitVec 40) (s : State) : Out :=
  s.reserving <| s.notMovement fun s => guarded g s <|
    let j := s.sreg (.priv 5)
    let r := s.forkRec (s.target2 dist) j
    if j.toNat % 16 ≠ 0 then .next (s.trap .align j)
    else
      match s.reserveDq s.core s.bankVf s.slot with
      | .full s' => .next (s'.putP 0 0).retire
      | .busy s' _ w => .next (s'.holdFor w)
      | .ok s' _ =>
        if j = 0 then .next (s'.forkPush r)
        else s'.withSync j true fun s p => s.ownFirst [p.pa, p.pa + 8] fun s => s.ask (.forkJoin j p.pa r)

/-- The place of the join whose ARRIVE an activity owes (R242, R263): the word it is bound to, or by translation. -/
def State.withJoin (s : State) (obj : Word) (f : State → Place → Out) : Out :=
  if bit obj 63 then
    match s.objPlace s.core s.bankVf s.cur.tenant.toNat obj with
    | none => .next (s.trap .sykind (unbind s.core obj).2)
    | some p => f s p
  else s.withSync obj true f

/-- TASKEND (R242). -/
def execTaskend (g : Pred) (s : State) : Out :=
  s.generalOnly fun s => guarded g s <|
    let n := s.obcnt s.core s.slot
    match s.forkOb s.core s.slot with
    | none => if n ≠ 0 then .next (s.trap .obexit (BitVec.ofNat 64 n)) else .next (s.finish s.core s.slot)
    | some o =>
      if 1 < n then .next (s.trap .obexit (BitVec.ofNat 64 n))
      else
        s.withJoin o.obj fun s p =>
          s.afterRelease .module fun s => s.ask (.taskArrive (unbind s.core o.obj).2 p.pa)

/-! ## Messages (R243 to R249) -/

/-- The number of this module on the fabric (R356). -/
def State.modId (s : State) : Nat := field (s.pfReg 0xB380) 11 0

/-- The target of a message (R243): a core of the gang, or a core of another module; none raises REMOTE. -/
def State.msgTarget (s : State) (st : Word) : Option (Nat × Option (BitVec 12)) :=
  if st &&& 0xFFFFF0007FFFE000 ≠ 0 then none
  else if bit st 31 then (if validCore (field st 12 0) then some (field st 12 0, some (BitVec.ofNat 12 (field st 43 32))) else none)
  else if field st 43 32 ≠ 0 || field st 12 11 ≠ 0 || s.cur.gangw.toNat * s.cur.gangh.toNat ≤ field st 10 0 then none
  else ((s.gangCores s.core s.bankVf)[field st 10 0]?).map fun c => (c, none)

/-- The source of a message in the layout of st (R246). -/
def State.msgSource (s : State) (x : Bool) : Word :=
  if x then BitVec.ofNat 64 (s.modId * 2 ^ 32 + 2 ^ 31 + s.core) else s.cur.member.setWidth 64

/-- Appends a message to the issuing slot's send queue (R244). -/
def State.enqueue (s : State) (m : Msg) : State :=
  (s.modCur fun x => { x with sendq := x.sendq ++ [m] }).modVf s.core s.bankVf fun cv => { cv with msgSent := cv.msgSent + 1 }

/-- A message enters the send queue of eight, or its sender waits for an entry (R211, R244). -/
def State.sendMsg (s : State) (m : Msg) : State :=
  if (s.cur.sendq.filter fun x => x.tenant == m.tenant).length < 8 then (s.enqueue m).retire else s.wait (.sendFull m)

/-- A sender's checks and release (R244): `f` goes on with the target. -/
def State.sending (s : State) (st : Word) (also : Option Cause) (tval : Word) (f : State → Nat × Option (BitVec 12) → Out) : Out :=
  match s.msgTarget st with
  | none => .next (s.trap .remote st)
  | some t =>
    match also with
    | some c => .next (s.trap c tval)
    | none =>
      s.rankBelow 0 0 fun s =>
        if s.slot = 15 && 8 ≤ (s.cur.sendq.filter fun x => x.tenant == s.cur.tenant.toNat).length then .next s.hwait
        else s.afterRelease (if t.2.isSome then .system else .module) fun s => f s t

/-- The message of the issuing slot. -/
def State.message (s : State) (data : Vec) (kind : MsgKind) (t : Nat × Option (BitVec 12)) : Msg :=
  { data := data, src := s.msgSource t.2.isSome, kind := kind, target := t.1, xmod := t.2, vf := s.bankVf,
    tenant := s.cur.tenant.toNat, launch := s.cur.launch }

/-- SEND (R244). -/
def execSend (g : Pred) (a : VSrc) (st : SSrc) (s : State) : Out :=
  s.notMovement fun s => guarded g s <|
    s.sending (s.ssrc st) none 0 fun s t => .next (s.sendMsg (s.message (s.vsrc a) .plain t))

/-- SEND on a system channel (R26, R235, R249): S level. -/
def execSendSys (g : Pred) (a : VSrc) (st : SSrc) (chan : BitVec 2) (s : State) : Out :=
  s.notMovement fun s =>
    if s.cur.pl = 0 then .next (s.decodeFault .priv)
    else guarded g s <| s.sending (s.ssrc st) none 0 fun s t => .next (s.sendMsg (s.message (s.vsrc a) (.sys chan) t))

/-- The reply token of a word of this core (R263). -/
def State.token (s : State) (off : Nat) : Word := BitVec.ofNat 64 (s.modId * 2 ^ 45 + s.core * 2 ^ 32 + off)

/-- A vector with its word `i` of 64 bits replaced. -/
def setWord (v : Vec) (i : Nat) (w : Word) : Vec := setElem v 64 i w.toNat

/-- SENDR (R244): the reply word is emptied before the message is sent. -/
def execSendr (g : Pred) (a : VSrc) (st : SSrc) (s : State) : Out :=
  s.generalOnly fun s => guarded g s <|
    let v := s.vsrc a
    let off := field (v.extractLsb' 64 64) 16 0
    let place := s.windowPlace s.core s.bankVf off
    let bad : Option Cause := if off % 8 ≠ 0 then some .align else if place.isNone then some .perm else none
    s.sending (s.ssrc st) bad (BitVec.ofNat 64 off) fun s t =>
      s.afterDrain fun s =>
        let s := match place with
          | some p => s.setFull p.pa false
          | none => s
        .next (s.sendMsg (s.message (setWord v 1 (s.token off)) .sendr t))

/-- REPLY (R248): its message counts as sent here and received at the word's core. -/
def execReply (g : Pred) (a sk : SSrc) (s : State) : Out :=
  s.notMovement fun s => guarded g s <|
    let k := s.ssrc sk
    let v := s.ssrc a
    match pickOb (s.obsOf s.core s.slot) .reply k with
    | none => .next (s.trap .obstray k)
    | some o =>
      let x : Option (BitVec 12) := if field k 56 45 = s.modId then none else some (BitVec.ofNat 12 (field k 56 45))
      s.afterRecall (some o) fun s => s.afterRelease (if x.isSome then .system else .module) fun s =>
        let (s, o) := s.recallOb s.core s.slot o
        let r : PostedReply := { token := k, vf := s.bankVf, value := some v, xmod := x, tenant := s.cur.tenant.toNat }
        let s := (s.dropOb s.core o).modCur fun y => { y with replies := y.replies ++ [r] }
        let s := s.modVf s.core s.bankVf fun cv => { cv with msgSent := cv.msgSent + 1 }
        let c := if x.isSome then s.core else field k 44 32
        .next (s.modVf c s.bankVf fun cv => { cv with msgRecv := cv.msgRecv + 1 }).retire

/-- MSGEND (R247): a handler that still owes is abandoned with OBEXIT; what an ORPHAN handler still holds is discharged with poison
and OBEXIT is reported (R270). -/
def execMsgend (g : Pred) (s : State) : Out :=
  if s.slot ≠ 15 then .next (s.decodeFault .illegal)
  else
    guarded g s <|
      if s.obcnt s.core 15 ≠ 0 then .next (s.abandonHandler s.core Cause.obexit.code)
      else .next (s.endHandler s.core s.bankVf)

/-! ## Mailboxes (R250) -/

/-- A mailbox takes an untagged word (R250). -/
def Slot.boxPut (x : Slot) (n : BitVec 2) (v : Word) : Slot :=
  { x with mb := x.mb.put n.toNat v, mbFull := x.mbFull ||| ((1 : BitVec 4) <<< n.toNat), mbTag := none }

/-- The movement program empties a mailbox (R250). -/
def Slot.boxTake (x : Slot) (n : Nat) : Slot :=
  let full : BitVec 4 := x.mbFull &&& ~~~ ((1 : BitVec 4) <<< n)
  { x with mbFull := full, mbTag := if full = 0 then none else x.mbTag }

/-- The movement program empties mailbox `n` of slot `k` (R250); a COPY request it reads is then in its hands (R334). -/
def State.boxTake (s : State) (c k n : Nat) : State :=
  let x := s.slotOf c k
  let s := match x.mbTag with
    | some d => s.modCore c fun co => if co.hand.elem (k, x.gen, d) then co else { co with hand := co.hand ++ [(k, x.gen, d)] }
    | none => s
  s.modSlot c k fun y => y.boxTake n

/-- MBW (R250). -/
def execMbw (g : Pred) (n : BitVec 2) (a : SSrc) (s : State) : Out :=
  s.generalOnly fun s => guarded g s <|
    let v := s.ssrc a
    if s.cur.mbFull.getLsbD n.toNat then .next (s.wait (.mbwBox n v)) else .next (s.modCur fun x => x.boxPut n v).retire

/-- MBR in a general slot (R250); the handler slot has no mailboxes (R235). -/
def execMbr (g : Pred) (d : Reg) (n : BitVec 2) (s : State) : Out :=
  s.generalOnly fun s => guarded g s (.next (s.putS 3 d ((s.cur.mb.look n.toNat).getD 0)).retire)

/-- MBR in the movement slot (R250): the word, after which the mailbox is empty. DEDUCED (log 48): a value of ss that names no slot raises ILLEGAL only
where the predicate acts, since it is read in execution; R59 has ILLEGAL come first and R250 has the value decide it. -/
def execMbrMovement (g : Pred) (d : Reg) (a : SSrc) (s : State) : Out :=
  if s.slot ≠ 0 then .next (s.decodeFault .illegal)
  else
    guarded g s <|
      let w := s.ssrc a
      let k := field w 3 0
      let n := field w 5 4
      if field w 63 6 ≠ 0 || k = 0 || k = 15 then .next (s.decodeFault .illegal)
      else if (s.slotOf s.core k).mbFull.getLsbD n then
        .next ((s.putS 0 d (((s.slotOf s.core k).mb.look n).getD 0)).boxTake s.core k n).retire
      else .next (s.wait (.mbrBox d k n))

/-! ## Copies and collectives (R251 to R256) -/

/-- A quartet enters the mailboxes, and its register is pending (R252). -/
def Slot.quartet (x : Slot) (d : BitVec 5) (ws : List Word) : Slot :=
  { x with mb := (List.range 4).map fun n => (n, (ws[n]?).getD 0), mbFull := 0xF, mbTag := some d, boxGot := [], pendRegs := x.pendRegs ++ [(d, false)] }

/-- COPY (R252): it checks nothing of its descriptor. -/
def execCopy (g : Pred) (d : BitVec 5) (a : VSrc) (s : State) : Out :=
  s.generalOnly fun s => guarded g s <|
    let ws := (vecWords (s.vsrc a)).take 4
    s.afterRelease .core fun s =>
      if s.cur.mbFull ≠ 0 then .next (s.wait (.copyBox d ws)) else .next (s.modCur fun x => x.quartet d ws).retire

/-- Whether a participant of a tenant belongs to a collective: its tag and its gang, or the fabric's (R255), and no part of the same index yet. -/
def Collective.takes (q : Collective) (tag : BitVec 16) (gang : Option (Nat × Nat)) (vf tenant index : Nat) : Bool :=
  q.tag == tag && q.gang == gang && q.vf == vf && q.tenant == tenant && q.parts.all fun p => p.index != index

/-- A participant joins the first collective that lacks it, or starts one. -/
def joinColl (p : Participant) (tag : BitVec 16) (gang : Option (Nat × Nat)) : List Collective → List Collective
  | [] => [⟨tag, gang, p.vf, p.tenant, [p]⟩]
  | q :: l => if q.takes tag gang p.vf p.tenant p.index then { q with parts := q.parts ++ [p] } :: l else q :: joinColl p tag gang l

/-- The gang-barrier rank of the issuing slot's launch (R9, R256); without a live launch it is free (log 13). -/
def State.gangRank (s : State) : State × BitVec 56 :=
  match s.gangStage s.core s.bankVf with
  | some x => (s, x.rank)
  | none => ({ s with fresh := s.fresh + 1 }, Config.noGang s.fresh)

/-- REDUCE (R255, R256). -/
def reduceWith (g : Pred) (d : BitVec 5) (a : VSrc) (tree : Bool) (s : State) : Out :=
  s.generalOnly fun s => guarded g s <|
    let ws := vecWords (s.vsrc a)
    let w (i : Nat) : Word := (ws[i]?).getD 0
    let fab := bit (w 2) 32
    let (s, rank) := s.gangRank
    s.rankBelow rank (rank.setWidth 64) fun s =>
      s.afterRelease (if fab then .system else .module) fun s =>
        let x := s.cur
        let p : Participant :=
          { index := if fab then field (w 3) 31 16 else x.member.toNat, core := s.core, slot := s.slot, gen := x.gen, sd := d,
            vf := s.bankVf, tenant := x.tenant.toNat, w0 := w 0, w1 := w 1, w2 := w 2, w3 := w 3, tree := tree }
        let gang := if fab then none else some (x.launch.elim 0 (· + 1), x.stage.toNat)
        .next ({ s with colls := joinColl p (BitVec.ofNat 16 (field (w 2) 63 48)) gang s.colls }.modCur fun x =>
          { x with pendRegs := x.pendRegs ++ [(d, true)] }).retire

/-- REDUCE.exact (R256). -/
def execReduceExact (g : Pred) (d : BitVec 5) (a : VSrc) (s : State) : Out := reduceWith g d a false s
/-- REDUCE.tree (R256). -/
def execReduceTree (g : Pred) (d : BitVec 5) (a : VSrc) (s : State) : Out := reduceWith g d a true s

end Sys2Proof.Machine
end

