-- ==== Sys2Proof/Machine/Page10.lean ====
section
/-! DEFINITION. The instructions of page 10 other than TRAPRET: counters, power, turns, TLBINV, breaks, halts and modes
(R65, R170, R310, R321 to R325, R360 to R363). -/

namespace Sys2Proof.Machine

/-- VCYC before the issue cycle of the issuing slot (R321): its own seat has been counted where it issues in one. -/
def State.vcycBefore (s : State) : Word :=
  let n := s.cycle s.core
  if s.cur.seen = n + 1 && n % 16 = s.slot then s.cur.vcyc - 1 else s.cur.vcyc

/-- What RDCTR reads (R317, R323). -/
def State.counter (s : State) (k : Nat) : Word :=
  match k with
  | 0 => BitVec.ofNat 64 s.time
  | 1 => BitVec.ofNat 64 (s.cycle s.core)
  | 2 => BitVec.ofNat 64 ((s.ncycNow (islandOf s.core)).ncyc0 / 65536)
  | _ =>
    if s.slot = 0 then 0
    else
      match k with
      | 3 => if s.slot = 15 then 0 else s.vcycBefore
      | 4 => s.curVf.msgSent
      | 5 => s.curVf.msgRecv
      | _ => if k < 8 then 0 else (s.curVf.pcnt.look (k - 8)).getD 0

/-- RDCTR (R323). -/
def execRdctr (g : Pred) (d : Reg) (k : BitVec 4) (s : State) : Out := guarded g s (.next (s.putS 3 d (s.counter k.toNat)).retire)

/-- A request clipped into [FAST, SLOW] of the VF's PWRPOL (R325). -/
def State.clipLevel (s : State) (v level : Nat) : Nat :=
  let w := s.pfReg (0x9000 + 8 * v)
  min (max level (field w 2 0)) (field w 6 4)

/-- PWRHINT (R325). -/
def execPwrhint (g : Pred) (level : BitVec 3) (s : State) : Out :=
  s.generalOnly fun s => guarded g s <|
    let v := s.bankVf
    .next (s.modIsl (islandOf s.core) fun x => { x with reqs := x.reqs.put v (s.clipLevel v level.toNat) }).retire

/-- TURNEND (R310). -/
def execTurnend (g : Pred) (s : State) : Out :=
  s.generalOnly fun s => guarded g s (.next (s.turnEnd s.bankVf).retire)

/-- What RDTURN reads (R324). -/
def State.turnWord (s : State) (sel : Nat) : Word :=
  let v := s.bankVf
  let b := s.band
  match sel with
  | 0 => BitVec.ofNat 64 (b.turn % 64 + flagAt (b.done.getLsbD v) 6 + b.rounds % 2 ^ 32 * 2 ^ 32)
  | 1 => BitVec.ofNat 64 (b.startOf b.round b.turn)
  | 2 => BitVec.ofNat 64 b.nextBoundary
  | _ => s.vfReg v 0x10

/-- RDTURN (R324). -/
def execRdturn (g : Pred) (d : Reg) (sel : BitVec 2) (s : State) : Out := guarded g s (.next (s.putS 3 d (s.turnWord sel.toNat)).retire)

/-- The translations of VF `v`, of one PASID or of all, are dropped throughout the module (R170). -/
def State.dropTlb (s : State) (v : Nat) (pasid : Option Nat) : State :=
  let gone (e : TlbEntry) : Bool := e.vf == v && match pasid with
    | none => true
    | some p => e.pasid.toNat == p
  { s with cores := s.cores.over fun _ co => { co with utlb := co.utlb.filter fun e => !gone e },
           clusters := s.clusters.over fun _ cl => { cl with tlb := cl.tlb.filter fun e => !gone e } }

/-- The slots of VF `v`, of one tenant or of all: core and slot. -/
def State.slotsOf (s : State) (v : Nat) (tenant : Option Nat) : List (Nat × Nat) :=
  s.cores.flatMap fun q => (q.2.slots.filter fun p =>
    p.1 != 0 && p.2.vfid.toNat == v && match tenant with
      | none => true
      | some t => p.2.tenant.toNat == t).map fun p => (q.1, p.1)

/-- Whether a slot still has accesses whose addresses were translated (R170): buffered stores or one that waits for room, a parked request, or a tuple
request on its way. -/
def Slot.inFlight (x : Slot) : Bool :=
  !x.storeBuf.isEmpty ||
    match x.status with
    | .wait (.parked _ _) | .wait (.storeFull _) | .wait (.tupleSent _) => true
    | _ => false

/-- TLBINV (R170). -/
def execTlbinv (g : Pred) (vfScope : Bool) (s : State) : Out :=
  s.notMovement fun s =>
    if s.cur.pl = 0 then .next (s.decodeFault .priv)
    else guarded g s <|
      s.afterRelease .module fun s =>
        let v := s.bankVf
        let t := s.cur.tenant.toNat
        let s := s.dropTlb v (if vfScope then none else some (s.pasid v t))
        let slots := s.slotsOf v (if vfScope then none else some t)
        let s := slots.foldl (fun s q => s.drainAll false q.1 q.2 8) s
        if slots.any fun q => (s.slotOf q.1 q.2).inFlight then .next (s.hold (.tlbinv vfScope)) else .next s.retire

/-- KSTAT's name of the slot that halts its cluster (R357). -/
def State.halter (s : State) : BitVec 8 := BitVec.ofNat 8 (inCluster s.core + s.slot * 16)

/-- DBGBRK (R361). -/
def execDbgbrk (g : Pred) (code : BitVec 10) (s : State) : Out :=
  guarded g s <|
    let n := clusterOf s.core
    let w := (s.clus n).kcfg
    if s.slot ≠ 0 && bit w 0 && bit w (8 + s.bankVf) then .next ((s.kioskHalt n s.halter).wait .halted)
    else .next (s.trap .brk (uimm code))

/-- HALT (R362). -/
def execHalt (g : Pred) (s : State) : Out :=
  if s.cur.pl ≠ 2 then .next (s.decodeFault .priv)
  else guarded g s (.next (s.retire.kioskHalt (clusterOf s.core) s.halter))

/-- SETMODE 0 and 1 (R363). -/
def execSetmode (maint : Bool) (s : State) : Out :=
  if s.cur.pl ≠ 2 then .next (s.decodeFault .priv) else .next (s.modCur fun x => { x with md := maint }).retire

/-- SETMODE of a constant-bank entry (R65, R363). -/
def execSetmodeConst (n : BitVec 4) (s : State) : Out :=
  if s.cur.pl ≠ 2 then .next (s.decodeFault .priv)
  else .next (s.modCore s.core fun co => { co with constBank := co.constBank.put n.toNat (s.sreg (.priv 1)) }).retire

end Sys2Proof.Machine
end

