-- ==== Sys2Proof/Machine/Launches.lean ====
section
/-! DEFINITION. Launches: taking a packet and its checks, the release of gangs, sweeps and the end of a launch, doorbells and the
placing of virtual queues (R8 to R12, R30, R31, R48, R285, R314, R345 to R350). -/

namespace Sys2Proof.Machine

/-! ## Which tenants run -/

/-- Whether VF `v` runs a tenant that takes work: scheduled, outside its drain lead and its edge (R27, R307). -/
def State.accepting (s : State) (v tenant : Nat) : Bool := decide (v < 8) && s.tenantNow v == some tenant && s.phase v == .running

/-- Whether VF `v` runs a tenant outside an edge (R27). -/
def State.onTurn (s : State) (v tenant : Nat) : Bool := decide (v < 8) && s.tenantNow v == some tenant && s.phase v != .stopped

/-! ## Packets (R348) -/

/-- Packet `n` of a virtual queue, as 16 words. -/
def State.packet (s : State) (v tenant : Nat) (d : VqDesc) (n : Nat) : List Word :=
  (List.range 16).map fun i => s.frontWord v tenant (d.ring + 128 * (n % 2 ^ d.log2n) + 8 * i)

/-- Word `i` of a packet. -/
def pkt (p : List Word) (i : Nat) : Word := (p[i]?).getD 0

/-- Stages of a packet. -/
def pktStages (p : List Word) : Nat := field (pkt p 5) 27 24

/-- The stage word `g` of a packet. -/
def pktStage (p : List Word) (g : Nat) : StageInfo :=
  let w := pkt p (8 + g)
  { die := field w 2 0, x := field w 8 3, y := field w 13 9, w := field w 19 14, h := field w 25 20, bar := bit w 26,
    rank := BitVec.ofNat 56 (field (pkt p 6) 47 0 * 256 + field w 63 56), entry := BitVec.ofNat 64 ((pkt p 0).toNat + 2 * field w 55 32) }

/-- The stages of a packet, as far as its count is good. -/
def pktInfos (p : List Word) : List StageInfo := (List.range (min 8 (pktStages p))).map (pktStage p)

/-- Whether two stages share a core. -/
def StageInfo.meets (a b : StageInfo) : Bool :=
  a.die == b.die && decide (a.x < b.x + b.w) && decide (b.x < a.x + a.w) && decide (a.y < b.y + b.h) && decide (b.y < a.y + a.h)

/-- The first stage that meets a condition. -/
def firstStage (l : List StageInfo) (f : Nat → StageInfo → Bool) : Option Nat :=
  (List.range l.length).find? fun i => match l[i]? with
    | some g => f i g
    | none => false

/-- Whether a packet has a nonzero zero field, or a bad bay-rank base (R214, R348, R349). -/
def formatBad (p : List Word) : Bool :=
  pkt p 0 &&& 0xFE0000000000FFFF != 0 || pkt p 1 &&& 0xFE0000000000000F != 0 || pkt p 2 &&& 0x6000000000000000 != 0 ||
    pkt p 3 &&& 0x6000000000000000 != 0 || field (pkt p 5) 63 32 != 0 || field (pkt p 6) 63 48 != 0 ||
    pkt p 7 &&& 0xFF0000000000000F != 0 || field (pkt p 7) 55 4 == 2 ^ 52 - 1 ||
    (List.range (pktStages p)).any fun g => field (pkt p (8 + g)) 31 27 != 0

/-! ## Images (R47, R48, R285) -/

/-- Whether an object image stands at an address. -/
def State.isImage (s : State) (v tenant a : Nat) : Bool := leNat (s.frontRead v tenant a 4) == 0x42554C53

/-- Whether an image that must carry a signature, since it holds maintenance-decode code, fails its check (R48). That of another image is not checked
(log 14). DESIGN CHOICE (log 14): the bytes are those that stand in memory at the launch, after the loader has added its address to the ABS64 words. -/
def State.unsigned (s : State) (v tenant a : Nat) : Bool :=
  let flags := leNat (s.frontRead v tenant (a + 6) 2)
  let sig := (s.frontWord v tenant (a + 0x38)).toNat
  s.isImage v tenant a && flags.testBit 0 &&
    (!flags.testBit 1 || sig == 0 || !verifies (s.frontRead v tenant a sig) (s.frontRead v tenant (a + sig) 512))

/-- Whether a tuple section of `n` bytes has a bad capacity (R285). -/
def capBad (n : Nat) : Bool := decide (n < 4096 + 8192) || decide (65536 < (n - 4096) / 8192)

/-- Whether an image holds a tuple section of bad capacity (R285); log 15 gives the places of the fields of a section record. -/
def State.tupleCapBad (s : State) (v tenant a : Nat) : Bool :=
  s.isImage v tenant a &&
    (List.range (leNat (s.frontRead v tenant (a + 8) 4))).any fun i =>
      let r := a + (s.frontWord v tenant (a + 0x10)).toNat + 32 * i
      leNat (s.frontRead v tenant r 4) == 3 && capBad (s.frontWord v tenant (r + 16)).toNat

/-! ## Tuple regions (R48, R285, R286) -/

/-- The tuple sections of an image: address, size and rank class (R41, R47; log 15). -/
def State.tupleSections (s : State) (v tenant a : Nat) : List (Nat × Nat × Nat) :=
  if !s.isImage v tenant a then []
  else
    (List.range (leNat (s.frontRead v tenant (a + 8) 4))).filterMap fun i =>
      let r := a + (s.frontWord v tenant (a + 0x10)).toNat + 32 * i
      if leNat (s.frontRead v tenant r 4) = 3 then
        some (a + (s.frontWord v tenant (r + 8)).toNat, (s.frontWord v tenant (r + 16)).toNat, leNat (s.frontRead v tenant (r + 4) 2))
      else none

/-- Firmware writes a word of a tenant's tables (R48, R168); an intermediate address without near or far memory takes none. -/
def State.putIA (s : State) (v ia : Nat) (w : Word) : State :=
  match s.readIA v ia, s.stage2 v ia with
  | some _, some l => (s.performIo 19 v (cellsOf (l.page + ia % 2 ^ l.bits) (leBytes 8 w.toNat))).flushInvals 0 19
  | _, _ => s

/-- Firmware maps a page in the tables from one of level `n` on: where an entry leads to no table, to one of zeros on a page of its own; the last entry,
where it maps near memory or a tuple space already, or nothing, becomes `leaf` of it (R48, R167, R285; log 72). -/
def State.mapLeaf (v va : Nat) (leaf : Word → Word) : Nat → Nat → State → State
  | 0, table, s =>
    let ia := table + 8 * (va / 4096 % 512)
    let e := (s.readIA v ia).getD 0
    if (field e 2 0 = 0 || field e 2 0 = 2 || field e 2 0 = 4) && e != leaf e then s.putIA v ia (leaf e) else s
  | n + 1, table, s =>
    let ia := table + 8 * (va / 2 ^ (12 + 9 * (n + 1)) % 512)
    let e := (s.readIA v ia).getD 0
    if field e 2 0 = 1 then State.mapLeaf v va leaf n (pteAddr e) s
    else if field e 2 0 = 0 then
      let t := Config.tablePage s.fresh % 2 ^ 40 * 4096
      let s := (List.range 512).foldl (fun s i => s.putIA v (t + 8 * i) 0) { s with fresh := s.fresh + 1 }
      State.mapLeaf v va leaf n t (s.putIA v ia (BitVec.ofNat 64 (t / 16 + 1)))
    else s

/-- A page of a tuple section is mapped as TS, writable, with a rank class: on the near page that its leaf names, or, where it has none, on page `page` of
the tenant's intermediate addresses (R48, R168, R285; log 72). -/
def State.mapTs (s : State) (v tenant cls va page : Nat) : State :=
  match s.root1.look (v * 2 ^ 20 + s.pasid v tenant) with
  | none => s
  | some root =>
    s.mapLeaf v va (fun e =>
      let e := if field e 2 0 = 0 then BitVec.ofNat 64 (page % 2 ^ 40 * 256) else e
      (e &&& 0xFFFFFFFFFFF8) ||| 0xC ||| BitVec.ofNat 64 (cls * 2 ^ 48)) 4 root

/-- The header of a region of `c` entries per slice (R286). -/
def regionHeader (c n v : Nat) : List Byte :=
  leBytes 4 0x54530001 ++ leBytes 4 c ++ leBytes 4 n ++ leBytes 4 v ++ leBytes 48 0 ++
    (List.range 64).flatMap fun _ => leBytes 8 1 ++ leBytes 8 0

/-- A region of `c` entries per slice is created in near memory: zero, but for its header (R285, R286); copies of its lines in RDCs are invalidated (R164). -/
def State.newRegion (s : State) (pa c v : Nat) : State :=
  let mine (a : Nat) : Bool := pa ≤ a && a < pa + 4096 + 8192 * c
  let lines := ((s.die (homeDie pa)).sharers.map fun p => p.1).filter mine
  let s := lines.foldl (fun s l => s.sendInvals 0 19 4 l) s
  ({ s with mem := s.mem.filter (fun p => !mine p.1), poison := s.poison.filter fun a => !mine a }.flushInvals 0 19).sliceWrite (pa / 4096)
    pa (regionHeader c (pa % 2 ^ 36 / 4096) v)

/-- A tuple section is given its region (R48, R285): its leaves are mapped, and the region is created where no live one of its capacity stands, its pages
lie in order, and it starts at a page (log 72). -/
def State.makeRegion (s : State) (v tenant : Nat) (q : Nat × Nat × Nat) : State :=
  let c := (q.2.1 - 4096) / 8192
  let pages := List.range (1 + 2 * c)
  let page := Config.regionPage s.fresh
  let s := pages.foldl (fun s i => s.mapTs v tenant q.2.2 (q.1 + 4096 * i) (page + i)) { s with fresh := s.fresh + 1 }
  let at' (i : Nat) : Option Place := (s.virt v (s.pasid v tenant) (BitVec.ofNat 64 (q.1 + 4096 * i))).filter fun p => p.kind = .ts
  match at' 0 with
  | none => s
  | some p =>
    if p.pa % 4096 = 0 && !(s.regionLive (p.pa % 2 ^ 36 / 4096) v && s.sliceCap (p.pa / 4096) = c) && pages.all fun i => ((at' i).map fun x => x.pa) == some (p.pa + 4096 * i) then
      s.newRegion p.pa c v
    else s

/-- The tuple sections of an image are given their regions as the image is loaded: the model loads it as the front end takes its first launch (log 72). -/
def State.loadImage (s : State) (v tenant a : Nat) : State :=
  (s.tupleSections v tenant a).foldl (fun s q => s.makeRegion v tenant q) s

/-! ## The checks (R8, R349, R350) -/

/-- Whether VF `v` cannot run anything (R8, R303). -/
def State.noSlot (s : State) (v : Nat) : Bool := !s.vfIsUp v || s.slotMask v == 0

/-- The first reason to reject a packet, with its stage (R349). -/
def State.reject (s : State) (v tenant : Nat) (p : List Word) : Option (Nat × Nat) :=
  let l := pktInfos p
  let compl := pkt p 1
  if compl ≠ 0 && (s.complPlace v tenant compl).isNone then some (11, 0)
  else if pktStages p = 0 || 8 < pktStages p then some (1, 0)
  else
    match firstStage l fun _ g => 3 < g.die with
    | some i => some (2, i)
    | none =>
    match firstStage l fun _ g => g.w = 0 || g.h = 0 || 48 < g.w || 32 < g.h with
    | some i => some (3, i)
    | none =>
    match firstStage l fun _ g => 48 < g.x + g.w || 32 < g.y + g.h with
    | some i => some (4, i)
    | none =>
    match firstStage l fun i g => (l.take i).any fun x => x.meets g with
    | some i => some (5, i)
    | none =>
    if s.noSlot v then some (6, 0)
    else if s.unsigned v tenant (pkt p 0).toNat then some (7, 0)
    else if formatBad p then some (8, 0)
    else if s.tupleCapBad v tenant (pkt p 0).toNat then some (13, 0)
    else none

/-! ## Taking a packet (R8, R11, R12, R314) -/

/-- The residency entry of hardware queue slot `hq` of die `d`: the VF, the tenant and the virtual queue (R314). -/
def State.resident (s : State) (d hq : Nat) : Option (Nat × Nat × Nat) :=
  let w := s.pfReg (0x8000 + 8 * (48 * d + hq))
  if d < 4 && hq < 48 && bit w 25 then some (field w 24 21, field w 20 16, field w 15 0) else none

/-- Whether packets of a virtual queue wait. -/
def State.waiting (s : State) (v tenant q : Nat) : Bool := s.vqTail v tenant q != (s.vqDesc v tenant q).head

/-- The live or taken launches of VF `v` (R11). -/
def State.liveLaunches (s : State) (v : Nat) : SMap Launch := s.launches.filter fun p => p.2.vf == v && p.2.phase != .ended

/-- Whether a hardware queue slot still holds a launch whose gangs are not all released (R11, R12). -/
def State.hqBusy (s : State) (d hq : Nat) : Bool := s.launches.any fun p => p.2.phase == .taken && p.2.die == d && p.2.hq == hq

/-- Whether the gangs of a packet may be released (R11): no core of them belongs to a gang of the VF, is fenced for it, is halted,
or still scrubs the slot of a first activity. -/
def State.coresFree (s : State) (v : Nat) (l : List StageInfo) : Bool :=
  (l.all fun g => (s.liveLaunches v).all fun p => p.2.stages.all fun x => !x.meets g) &&
    l.all fun g => g.cores.all fun c =>
      !(s.vfOf c v).fenced && !s.frozen c && (s.ownSlots v).all fun k => (s.slotOf c k).status != .scrub

/-- The parts of an image that the front end reads: places and sizes (R47; log 15). -/
def State.imageParts (s : State) (v tenant a : Nat) : List (Nat × Nat) :=
  if !s.isImage v tenant a then []
  else
    let n := leNat (s.frontRead v tenant (a + 8) 4)
    let table := a + (s.frontWord v tenant (a + 0x10)).toNat
    let sig := (s.frontWord v tenant (a + 0x38)).toNat
    (table, 32 * n) :: (a, sig + 512) :: (List.range n).filterMap fun i =>
      let r := table + 32 * i
      if leNat (s.frontRead v tenant r 4) = 0 then some (a + (s.frontWord v tenant (r + 8)).toNat, (s.frontWord v tenant (r + 16)).toNat) else none

/-- What the front end waits for before it reads a queue's descriptor, its head packet or the packet's image (R172, R344). -/
def State.takeGone (s : State) (v tenant q : Nat) : Option Nat :=
  (s.frontGone v tenant (s.vqBase v tenant q) 32).orElse fun _ =>
    let d := s.vqDesc v tenant q
    let at' := d.ring + 128 * (d.head % 2 ^ d.log2n)
    (s.frontGone v tenant at' 128).orElse fun _ =>
      let a := (s.frontWord v tenant at').toNat
      (s.frontGone v tenant a 64).orElse fun _ => (s.imageParts v tenant a).findSome? fun p => s.frontGone v tenant p.1 p.2

/-- The front end's reads of a head packet and its image's header pass the L2 (R163). -/
def State.takeTouch (s : State) (v tenant q : Nat) (a : Nat) : State :=
  let d := s.vqDesc v tenant q
  ((s.frontTouch v tenant (s.vqBase v tenant q) 32).frontTouch v tenant (d.ring + 128 * (d.head % 2 ^ d.log2n)) 128).frontTouch v tenant a 64

/-- What the front end would do with the packet at the head of a hardware queue slot: its VF, tenant, queue, number, words, and the
reason to reject it (R8, R314). -/
def State.headPacket (s : State) (d hq : Nat) : Option (Nat × Nat × Nat × Nat × List Word × Option (Nat × Nat)) :=
  match s.resident d hq with
  | none => none
  | some (v, tenant, q) =>
    if !s.waiting v tenant q || s.hqBusy d hq || (s.takeGone v tenant q).isSome then none
    else
      let desc := s.vqDesc v tenant q
      let p := s.packet v tenant desc desc.head
      let r := s.reject v tenant p
      if s.noSlot v then some (v, tenant, q, desc.head, p, r)
      else if s.accepting v tenant && (r.isSome || s.coresFree v (pktInfos p)) then some (v, tenant, q, desc.head, p, r)
      else none

/-- Whether another hardware queue slot of the VF on the die comes first (R349): a higher PRIO, or the same in a lower slot. -/
def State.outranked (s : State) (d hq v prio : Nat) : Bool :=
  (List.range 48).any fun k => k != hq &&
    match s.headPacket d k with
    | some (u, _, _, _, p, _) =>
      u == v && (decide (prio < field (pkt p 5) 31 28) || (prio == field (pkt p 5) 31 28 && decide (k < hq)))
    | none => false

/-- HEAD moves past packet `n` (R346). -/
def State.pastHead (s : State) (v tenant q n : Nat) : State :=
  s.frontWrite v tenant (s.vqBase v tenant q + 16) (leBytes 4 (n + 1))

/-- The address of status record `n` (R346, R349). -/
def VqDesc.statAt (d : VqDesc) (n : Nat) : Word := BitVec.ofNat 64 (d.stat + 8 * (n % 2 ^ d.log2n))

/-- A packet is rejected (R349): its record and its completion add. -/
def State.rejectPacket (s : State) (v tenant q n : Nat) (p : List Word) (code stage : Nat) : State :=
  let at' := (s.vqDesc v tenant q).statAt n
  (s.pastHead v tenant q n).endPacket v tenant code stage n at' (if code = 11 then 0 else pkt p 1)

/-- A launch from a packet (R8, R348). -/
def State.newLaunch (s : State) (d hq v tenant q n : Nat) (p : List Word) : Launch :=
  { vf := v, tenant := tenant, die := d, hq := hq, num := BitVec.ofNat 32 n, stat := (s.vqDesc v tenant q).statAt n, image := pkt p 0,
    compl := pkt p 1, fsa := pkt p 2, fsb := pkt p 3, maxpt := BitVec.ofNat 32 (field (pkt p 4) 31 0),
    hbi := BitVec.ofNat 32 (field (pkt p 4) 63 32),
    guardian := if field (pkt p 5) 23 0 = 0 then 0 else BitVec.ofNat 64 ((pkt p 0).toNat + 2 * field (pkt p 5) 23 0),
    bayrank := if pkt p 7 = 0 then 0xFFFFFFFFFFFF00 else BitVec.ofNat 56 (field (pkt p 7) 55 4 * 16), stages := pktInfos p }

/-- A launch whose packet or image stands behind an unavailable page waits in the home's fault queue (R172, R344). -/
def State.takePark (s : State) (d hq : Nat) : State :=
  match (s.resident d hq).bind fun q => s.takeGone q.1 q.2.1 q.2.2 with
  | some pa => s.parkAt pa 0 19 (.take d hq)
  | none => s

/-- The packet at the head of a hardware queue slot is taken or rejected. -/
def State.take (s : State) (d hq : Nat) : State :=
  match s.headPacket d hq with
  | none => s.takePark d hq
  | some (v, tenant, q, n, p, r) =>
    if s.outranked d hq v (field (pkt p 5) 31 28) then s
    else
      let s := s.takeTouch v tenant q (pkt p 0).toNat
      match r with
      | some (code, stage) => s.rejectPacket v tenant q n p code stage
      | none =>
        let x := s.newLaunch d hq v tenant q n p
        { (s.pastHead v tenant q n).loadImage v tenant (pkt p 0).toNat with
            launches := s.launches.put s.nextLaunch x, nextLaunch := s.nextLaunch + 1 }

/-- LAUNCH_TAKE (R8, R314, R349): the front end takes or rejects the packet at the head of a hardware queue slot; nothing happens where
none may be taken. -/
def execLaunchTake (die hq : Nat) (s : State) : Out := .next (s.take die hq)

/-! ## Releasing a gang (R9, R10, R214) -/

/-- The slot of a gang's first activity on a core (R10): the lowest-numbered of the VF's slots that is not retired there. -/
def State.firstSlot (s : State) (c v : Nat) : Option Nat := (s.ownSlots v).find? fun k => (s.slotOf c k).status != .retired

/-- The lines of an image's text, in order, as many as an instruction cache holds (R9, R47; log 15). -/
def State.imageText (s : State) (v tenant a : Nat) : List TextLine :=
  if !s.isImage v tenant a then []
  else
    let vas := (List.range (leNat (s.frontRead v tenant (a + 8) 4))).flatMap fun i =>
      let r := a + (s.frontWord v tenant (a + 0x10)).toNat + 32 * i
      if leNat (s.frontRead v tenant r 4) = 0 then
        (List.range (min Config.icacheLines (((s.frontWord v tenant (r + 16)).toNat + 63) / 64))).map fun j =>
          a + (s.frontWord v tenant (r + 8)).toNat + 64 * j
      else []
    (vas.take Config.icacheLines).filterMap fun va =>
      (s.virt v (s.pasid v tenant) (BitVec.ofNat 64 va)).map fun p => ⟨v, p.pa / 64 * 64, s.mem.bytes (p.pa / 64 * 64) 64⟩

/-- The text of an image enters a member core's instruction cache, in place of what it held for the VF (R9 step 1; log 50). -/
def Core.loadText (co : Core) (v : Nat) (text : List TextLine) : Core :=
  { co with icache := (text ++ co.icache.filter fun l => l.vf != v).take Config.icacheLines }

/-- Member `m` of stage `g` of launch `l` starts on its core (R9, R10). Its slot is empty: `State.mayRelease`
sees to that. -/
def State.startMember (s : State) (l g m : Nat) (x : Launch) (info : StageInfo) : State :=
  match info.cores[m]? with
  | none => s
  | some c =>
    let s := s.modVf c x.vf fun cv =>
      { cv with launch := some l, member := m, stage := g, brb := x.bayrank, barArrived := false, barPhase := 0 }
    match s.firstSlot c x.vf with
    | none => s
    | some k =>
      let y := s.coords c x.vf x.tenant ((s.slotOf c k).fresh .first info.entry)
      s.setSlot c k { y.pointers x.fsa x.fsb with guard := 0x8000000000000000 }

/-- Whether stage `g` of launch `l` may be released now (R9, R12, R307). Where a task of a system channel, or of a handler, stands in the slot that its first
activity occupies on a core, the model waits until that slot is empty (log 49). -/
def State.mayRelease (s : State) (l g : Nat) : Bool :=
  match s.launches.look l with
  | none => false
  | some x => x.phase == .taken && x.released == g && s.accepting x.vf x.tenant &&
      match x.stages[g]? with
      | none => false
      | some i => i.cores.all fun c => !s.frozen c && ((s.firstSlot c x.vf).map fun k => (s.slotOf c k).status == .empty).getD true

/-- The gang of stage `g` is released (R9): with its last, the launch is live. -/
def State.releaseGang (s : State) (l g : Nat) : State :=
  match s.launches.look l with
  | none => s
  | some x =>
    match x.stages[g]? with
    | none => s
    | some i =>
      let x' := { x with released := g + 1, phase := if x.stages.length ≤ g + 1 then .live else .taken }
      let text := s.imageText x.vf x.tenant x.image.toNat
      let s := i.cores.foldl (fun s c => s.modCore c fun co => co.loadText x.vf text) { s with launches := s.launches.put l x' }
      (List.range (i.w * i.h)).foldl (fun s m => s.startMember l g m x' i) s

/-- GANG_RELEASE (R9 to R12). -/
def execGangRelease (launch stage : Nat) (s : State) : Out :=
  .next (if s.mayRelease launch stage then s.releaseGang launch stage else s)

/-! ## Sweeps (R30 to R32) -/

/-- Whether a core is idle for a launch (R30). -/
def State.coreIdle (s : State) (l : Nat) (x : Launch) (c : Nat) : Bool :=
  let cv := s.vfOf c x.vf
  ((s.coreOf c).slots.all fun p =>
    !((p.2.holds || p.1 == 15 && p.2.status != .empty) && p.1 != 0 && p.2.vfid.toNat == x.vf && p.2.tenant.toNat == x.tenant) &&
      (p.2.sendq.all fun m => m.vf != x.vf || m.launch != some l) && !p.2.owes x.vf x.tenant) &&
    cv.deque.isEmpty && cv.spilled.isEmpty && cv.inbox.isEmpty && cv.devOut.isEmpty && cv.mxq.isEmpty &&
    (match cv.steal with
      | some t => t.found.isNone
      | none => true) &&
    (s.saved.all fun y => !(y.core == c && y.vf == x.vf && y.tenant == x.tenant && y.act.launch == some l)) &&
    s.dies.all fun p => p.2.engines.all fun q => q.2.chain.all fun e => !(e.core == c && e.vf == x.vf && e.tenant == x.tenant)

/-- One sweep of a launch: whether every core is idle, and the sums of messages sent and received (R31). -/
def State.sweepOf (s : State) (l : Nat) (x : Launch) : Bool × Word × Word :=
  let cores := x.stages.flatMap StageInfo.cores
  (cores.all (s.coreIdle l x), cores.foldl (fun n c => n + (s.vfOf c x.vf).msgSent) 0,
    cores.foldl (fun n c => n + (s.vfOf c x.vf).msgRecv) 0)

/-- Whether a launch may be swept: live, and no core of it fenced since its release (R32); the model sweeps only in its tenant's turn, with no core of it
halted (log 53). -/
def State.maySweep (s : State) (x : Launch) : Bool :=
  x.phase == .live && s.onTurn x.vf x.tenant &&
    !x.fenced && (x.stages.flatMap StageInfo.cores).all fun c => !s.frozen c

/-- A sweep of a launch; two that agree end it (R31). -/
def State.sweep (s : State) (l : Nat) : State :=
  match s.launches.look l with
  | none => s
  | some x =>
    if !s.maySweep x then s
    else
      let r := s.sweepOf l x
      if r.1 && r.2.1 == r.2.2 && x.sweep == some r then s.endLaunch l 0
      else { s with launches := s.launches.put l { x with sweep := some r } }

/-- LAUNCH_SWEEP (R30 to R32). -/
def execLaunchSweep (launch : Nat) (s : State) : Out := .next (s.sweep launch)

/-! ## Doorbells and placement (R314, R345, R347) -/

/-- DOORBELL (R345, R347): a single 8-byte write by a host request with a PASID. -/
def execDoorbell (vf : Nat) (pasid : BitVec 20) (v : Word) (s : State) : Out :=
  .next (if vf < 8 && s.hostOn then s.doorbell vf (some pasid.toNat) true v else s)

/-- The owned hardware queue slots of VF `v` on a die. -/
def State.ownedHqs (s : State) (v d : Nat) : List Nat := bitsOf (s.hwqMask v d) 48

/-- Whether a resident queue's packets have all been released (R314). -/
def State.hqDone (s : State) (d hq : Nat) : Bool :=
  match s.resident d hq with
  | none => true
  | some (v, tenant, q) => !s.waiting v tenant q && !s.hqBusy d hq

/-- How recently the queue in a hardware queue slot was written: its place in the front end's list, 0 when it never was. -/
def State.hqAge (s : State) (d hq : Nat) : Nat :=
  match s.resident d hq with
  | none => 0
  | some (v, tenant, q) => ((List.range s.vqs.length).find? fun i =>
      match s.vqs[i]? with
      | some x => x.vf == v && x.tenant == tenant && x.vq == q
      | none => false).elim 0 (· + 1)

/-- The slot firmware gives a queue (R314): a free one, else the least recently written whose packets have all been released. -/
def State.placeFor (s : State) (v d : Nat) : Option Nat :=
  let own := s.ownedHqs v d
  match own.find? fun k => (s.resident d k).isNone with
  | some k => some k
  | none =>
    ((own.filter fun k => s.hqDone d k).foldl
      (fun (best : Option Nat) k => match best with
        | none => some k
        | some b => if s.hqAge d k < s.hqAge d b then some k else some b) none)

/-- VQ_PLACEMENT (R314): a queue with waiting packets that is not resident becomes resident in the slot that firmware chooses; where the
VF is down or owns no slot on the queue's die, its head packet is rejected. -/
def execVqPlacement (vf tenant vq die hq : Nat) (s : State) : Out :=
  let d := s.vqDesc vf tenant vq
  if 8 ≤ vf || (s.takeGone vf tenant vq).isSome || !s.waiting vf tenant vq || !(s.residency vf tenant vq).isEmpty || d.die ≠ die then .next s
  else if !s.vfIsUp vf || s.hwqMask vf die = 0 then
    let p := s.packet vf tenant d d.head
    let r := (s.reject vf tenant p).getD (6, 0)
    .next (s.rejectPacket vf tenant vq d.head p r.1 r.2)
  else
    match s.placeFor vf die with
    | none => .next s
    | some k =>
      if k ≠ hq then .next s
      else .next (s.setPf (0x8000 + 8 * (48 * die + hq)) (BitVec.ofNat 64 (2 ^ 25 + vf * 2 ^ 21 + tenant % 32 * 2 ^ 16 + vq % 65536)))

end Sys2Proof.Machine
end

