-- ==== Sys2Proof/Machine/Delivery.lean ====
section
/-! DEFINITION. Work on its way: task pops, steals, spills and refills; messages, handler starts, system channels and the mailboxes the
movement program serves (R22 to R25, R238 to R249, R253, R257, R334). -/

namespace Sys2Proof.Machine

/-! ## Pops and steals (R22, R23, R240) -/

/-- An empty general slot of VF `v` on a core. -/
def State.emptySlot (s : State) (c v : Nat) : Option Nat := (s.ownSlots v).find? fun k => (s.slotOf c k).status == .empty

/-- Whether core `c` takes work for VF `v` (R27, R307, R337, R358): the tenant it takes it for. -/
def State.takesWork (s : State) (c v : Nat) : Bool :=
  validCore c && !s.frozen c && !(s.vfOf c v).fenced &&
    match s.tenantNow v with
    | some t => s.accepting v t
    | none => false

/-- TASK_POP (R22, R238, R240): the lowest empty slot takes the bottom record of the hardware deque. -/
def execTaskPop (core slot : Nat) (s : State) : Out :=
  let v := s.slotOwner slot
  if s.takesWork core v && s.emptySlot core v == some slot then
    match s.popRec core v with
    | none => .next s
    | some (s', r) => .next (s'.dispatchRec core slot v r)
  else .next s

/-- Cores of the gang of core `c` for VF `v`, and the member index of `c`. -/
def State.ring (s : State) (c v : Nat) : List Nat × Nat := (s.gangCores c v, (s.vfOf c v).member)

/-- The victim at a distance in ring order (R23). -/
def State.victim (s : State) (c v dist : Nat) : Option Nat :=
  let r := s.ring c v
  if dist < r.1.length then r.1[(r.2 + dist) % r.1.length]? else none

/-- The distance of the victim that the steal of a core examines next (R23): a steal starts when a slot is empty and the deque with its
spill area is, or with a spill area that cannot be translated (R241), outside the wait of 256 cycles. -/
def State.stealDist (s : State) (c v : Nat) : Option Nat :=
  let cv := s.vfOf c v
  if !s.takesWork c v then none
  else
    match cv.steal with
    | some t => if t.found.isNone then some t.dist else none
    | none =>
      if cv.backoff.isNone && (s.emptySlot c v).isSome && cv.deque.isEmpty && (cv.spilled.isEmpty || s.dqLost c v) && 1 < (s.ring c v).1.length then some 1
      else none

/-- STEAL_VISIT (R23, R240, R268): one victim's deque is examined. -/
def execStealVisit (core vf : Nat) (s : State) : Out :=
  match s.stealDist core vf with
  | none => .next s
  | some d =>
    match s.victim core vf d with
    | none => .next (s.modVf core vf fun cv => { cv with steal := none, backoff := some (s.cycle core) })
    | some u =>
      if s.frozen u then .next s
      else
        match s.stealRec u vf core with
        | (s', some r) => .next (s'.modVf core vf fun cv => { cv with steal := some ⟨d, some r⟩ })
        | (s', none) =>
          if (s'.victim core vf (d + 1)).isSome then .next (s'.modVf core vf fun cv => { cv with steal := some ⟨d + 1, none⟩ })
          else .next (s'.modVf core vf fun cv => { cv with steal := none, backoff := some (s'.cycle core) })

/-- STEAL_ARRIVAL (R23): a stolen record goes to the lowest empty slot, or to the bottom of the stealing core's deque. DESIGN CHOICE (log 74): one
that finds no empty slot, a full deque and no room to spill stays in transit. -/
def execStealArrival (core vf : Nat) (s : State) : Out :=
  match ((s.vfOf core vf).steal).bind fun t => t.found with
  | none => .next s
  | some r =>
    if s.frozen core then .next s
    else
      let gone (s : State) : State := (s.modVf core vf fun cv => { cv with steal := none }).count core vf 16
      match (if s.takesWork core vf then s.emptySlot core vf else none) with
      | some k => .next ((gone s).dispatchRec core k vf r)
      | none =>
        match s.roomDq core vf with
        | .ok s' _ => .next ((gone s').pushRec core vf r)
        | .busy s' _ _ | .full s' => .next s'

/-- STEAL_BACKOFF_EXPIRY (R23): 256 core cycles after a ring that found nothing. -/
def execStealBackoffExpiry (core vf : Nat) (s : State) : Out :=
  match (s.vfOf core vf).backoff with
  | none => .next s
  | some n => .next (if n + 256 ≤ s.cycle core then s.modVf core vf fun cv => { cv with backoff := none } else s)

/-- DEQUE_SPILL (R240, R241): the oldest record of a full deque moves to the spill area. -/
def execDequeSpill (core vf : Nat) (s : State) : Out :=
  if 32 ≤ (s.vfOf core vf).deque.length + (s.vfOf core vf).dqResv.length && s.takesWork core vf then
    match s.spillOldest core vf with
    | .ok s' _ | .busy s' _ _ | .full s' => .next s'
  else .next s

/-- DEQUE_REFILL (R240, R241): the youngest spilled record moves back. -/
def execDequeRefill (core vf : Nat) (s : State) : Out :=
  .next (if (s.vfOf core vf).deque.length + (s.vfOf core vf).dqResv.length < 32 && s.takesWork core vf then s.refill core vf else s)

/-! ## Messages (R24, R245, R337) -/

/-- A sender waiting on its full queue appends its message when an entry frees, and goes on (R244). -/
def State.sendNext (s : State) (c k : Nat) : State :=
  match (s.slotOf c k).status with
  | .wait (.sendFull m) => s.asSlot c k fun s => (s.enqueue m).retire
  | _ => s

/-- A message counts as received on a core without a handler (R31, R245, R249, R337). -/
def State.received (s : State) (c v : Nat) : State := s.modVf c v fun cv => { cv with msgRecv := cv.msgRecv + 1 }

/-- A message arrives at its target core (R24, R337): none while its inbound queue is full. -/
def State.arrive (s : State) (m : Msg) : Option State :=
  let cv := s.vfOf m.target m.vf
  if cv.fenced then some ((s.received m.target m.vf).refuseReply m.target m)
  else if 16 ≤ cv.inbox.length || s.frozen m.target then none
  else some (s.modVf m.target m.vf fun cv => { cv with inbox := cv.inbox ++ [m] })

/-- A message to another module leaves (R245, R355): none while every port to it trains, a donated turn holds it or the island relocks (R311,
R326); it is discarded where the VF has no partner, here or there, or no port leads there; whether the other module binds the VF is free (log 18). -/
def State.leave (s : State) (c k : Nat) (m : Msg) (xm : Nat) : Option State :=
  if s.donated m.vf || (s.isl (islandOf c)).relock then none
  else if s.cutOff m.vf xm then some ((s.received c m.vf).linkDown m.vf c k m.tenant 0 xm (m.data.extractLsb' 0 64))
  else if s.portsTrain xm then none
  else
    let s' := { s with fresh := s.fresh + 1 }
    if Config.farUnbound s.fresh then some ((s'.received c m.vf).linkDown m.vf c k m.tenant 0 xm (m.data.extractLsb' 0 64))
    else some ({ s' with fabricOut := s.fabricOut ++ [{ m with vf := s.partner m.vf }] }.received c m.vf)

/-- A message of core `c` sets out. -/
def State.depart (s : State) (c k : Nat) (m : Msg) : Option State :=
  match m.xmod with
  | some x => s.leave c k m x.toNat
  | none => if s.linkHeld m.vf c m.target || s.fifoHeld c m.target then none else s.arrive m

/-- The first message of a queue whose tenant runs (R257), with the queue without it. -/
def State.firstMsg (s : State) : List Msg → Option (Msg × List Msg)
  | [] => none
  | m :: l =>
    if s.onTurn m.vf m.tenant then some (m, l)
    else (State.firstMsg s l).map fun r => (r.1, m :: r.2)

/-- Whether the slot of a queue still sends: a parked activity's messages are in its context (R341). -/
def Slot.sends (x : Slot) : Bool :=
  match x.status with
  | .parked _ => false
  | _ => true

/-- MESSAGE_ENTRY (R24, R245): the oldest message of a send queue enters the inbound queue of its target, or leaves the module. `slot` 16 + v
names the device's own messages for VF v on the core. -/
def execMessageEntry (core slot : Nat) (s : State) : Out :=
  if s.frozen core then .next s
  else if slot < 16 then
    match s.firstMsg (s.slotOf core slot).sendq with
    | none => .next s
    | some (m, rest) =>
      if !(s.slotOf core slot).sends then .next s
      else
        match s.depart core slot m with
        | none => .next s
        | some s' => .next ((s'.modSlot core slot fun x => { x with sendq := rest }).sendNext core slot)
  else
    match s.firstMsg (s.vfOf core (slot - 16)).devOut with
    | none => .next s
    | some (m, rest) =>
      match s.depart core 15 m with
      | none => .next s
      | some s' => .next (s'.modVf core (slot - 16) fun cv => { cv with devOut := rest })

/-! ## Handlers (R25, R246) -/

/-- Whether a message waits for a system channel (R249). -/
def MsgKind.isSys : MsgKind → Bool
  | .sys _ => true
  | _ => false

/-- The VF whose message the handler slot runs next (R25). -/
def State.nextHandler (s : State) (c : Nat) : Option Nat :=
  ((List.range 8).map fun i => ((s.coreOf c).handlerTurn + i) % 8).find? fun v =>
    s.takesWork c v &&
      match (s.vfOf c v).inbox.head? with
      | some m => !m.kind.isSys
      | none => false

/-- The handler slot with a message (R246, R270). -/
def State.handlerSlot (s : State) (c : Nat) (m : Msg) : Slot :=
  let addr := m.data.extractLsb' 0 64
  let x := s.coords c m.vf m.tenant ((s.slotOf c 15).fresh .handler addr)
  let x := (x.setV 0 m.data).setS 1 m.src
  let level : BitVec 2 := if m.kind = .orphan then 1 else 0
  { x with guard := 0x8000000000000000, pl := level, ppl := level, orphan := m.kind == .orphan, hstart := addr }

/-- The REPLY that a SENDR message makes its handler owe (R246), and whether there was room for it. -/
def State.oweReply (s : State) (c : Nat) (m : Msg) : State × Bool :=
  if m.kind = .sendr then
    let t := m.data.extractLsb' 64 64
    let o : Oblig := { obj := t, kind := .reply, rank := BitVec.ofNat 56 (field t 16 0), holder := 15 }
    match s.findRoom c 15 with
    | .ok s' i | .busy s' i _ => (s'.placeOb c 15 o i, true)
    | .full s' => (s'.modCore c fun co => { co with obs := co.obs ++ [{ o with carried := true }] }, false)
  else (s, true)

/-- HANDLER_START (R25, R246, R270): one message of the next VF in rotation. -/
def execHandlerStart (core : Nat) (s : State) : Out :=
  if (s.slotOf core 15).status ≠ .empty then .next s
  else
    match s.nextHandler core with
    | none => .next s
    | some v =>
      match (s.vfOf core v).inbox with
      | [] => .next s
      | m :: rest =>
        let s := s.modVf core v fun cv => { cv with inbox := rest }
        let s := (s.modCore core fun co => { co with handlerTurn := (v + 1) % 8 }).count core v 17
        let s := s.setSlot core 15 (s.handlerSlot core m)
        let s := m.obs.foldl (fun s o => s.giveOb core 15 o) s
        let (s, room) := s.oweReply core m
        let addr := m.data.extractLsb' 0 64
        if bit addr 0 then .next (s.abandonHandler core Cause.align.code)
        else if field addr 63 57 ≠ 0 then .next (s.abandonHandler core Cause.xlate.code)
        else if !room then .next (s.abandonHandler core Cause.obspill.code)
        else .next s

/-- HANDLER_BUDGET_EXHAUSTED (R25): the 257th instruction. -/
def execHandlerBudgetExhausted (core : Nat) (s : State) : Out :=
  let x := s.slotOf core 15
  .next (if x.status = .run && x.kill.isNone && 256 ≤ x.hcount && !x.reissue && !s.stalled core then s.abandonHandler core Cause.hwait.code else s)

/-! ## System channels (R26, R249) -/

/-- The VF a system channel is bound to (R316). -/
def State.boundVf (s : State) (chan : Nat) : Option Nat := (List.range 8).find? fun u => bit (s.vfReg u (0x40 + 8 * chan)) 63

/-- A bit of a channel set and cleared by a control message (R249). -/
def chanBits (b : BitVec 4) (chan : Nat) (set clear : Bool) : BitVec 4 :=
  let one : BitVec 4 := BitVec.ofNat 4 (2 ^ chan)
  let b := if set then b ||| one else b
  if clear then b &&& ~~~ one else b

/-- The record a system channel's message makes (R249). -/
def chanRec (entry : Word) (m : Msg) (launch : Option Nat) : TaskRec :=
  let w (i : Nat) : Word := m.data.extractLsb' (64 * i) 64
  { entry := addrBits entry, arg1 := w 2, arg2 := w 3, arg3 := w 4, arg4 := w 5, launch := launch.getD 0 }

/-- A message of a system channel is discarded and reported (R249); log 16 gives the record. -/
def State.dropSys (s : State) (c : Nat) (m : Msg) : State :=
  (s.received c m.vf).handlerReport c m.vf m.tenant 0 (m.data.extractLsb' 0 64)

/-- SYSTEM_CHANNEL_MESSAGE (R249): the message at the head of an inbound queue acts on its channel or becomes a record; it waits while the
channel does. -/
def execSystemChannelMessage (core vf : Nat) (s : State) : Out :=
  if !s.takesWork core vf then .next s
  else
    match (s.vfOf core vf).inbox with
    | [] => .next s
    | m :: rest =>
      match m.kind with
      | .sys chan =>
        let n := chan.toNat
        let taken := s.modVf core vf fun cv => { cv with inbox := rest }
        match s.boundVf n with
        | none => .next (taken.dropSys core m)
        | some u =>
          let ctl := m.data.extractLsb' 64 64
          if m.data.extractLsb' 0 64 = 0 then
            if field ctl 31 4 ≠ 0 then .next (taken.dropSys core m)
            else
              .next ((taken.modVf core u fun cv =>
                { cv with hold := chanBits cv.hold n (bit ctl 0) (bit ctl 1), ready := chanBits cv.ready n (bit ctl 2) (bit ctl 3) }).received
                  core vf)
          else if !(s.vfOf core u).ready.getLsbD n || (s.vfOf core u).hold.getLsbD n then .next s
          else
            match taken.roomDq core u with
            | .busy _ _ _ | .full _ => .next s
            | .ok s' _ =>
              .next ((s'.pushRec core u (chanRec (s.vfReg u (0x40 + 8 * n)) m (s.vfOf core u).launch)).received core vf)
      | _ => .next s

/-! ## Mailboxes (R253, R334) -/

/-- The island's copy engine of a core. -/
def engineOf (c : Nat) : Nat := yOf c / 4

/-- A slot whose quartet the movement program may serve (R253). -/
def Slot.served (x : Slot) : Bool := x.mbFull == 0xF && x.mbTag.isSome && x.holds && x.sends

/-- The slot of VF `v` that is served next: in increasing number after the one last served. -/
def State.nextBox (s : State) (c v : Nat) : Option Nat :=
  let l := s.ownSlots v
  let last := (s.vfOf c v).mboxLast
  ((l.filter fun k => last < k) ++ l.filter fun k => k ≤ last).find? fun k => (s.slotOf c k).served

/-- Whether the tenant of VF `v` is scheduled (R253). -/
def State.vfOnTurn (s : State) (v : Nat) : Bool :=
  match s.tenantNow v with
  | some t => s.onTurn v t
  | none => false

/-- The VF and slot the movement program serves next (R253). -/
def State.nextQuartet (s : State) (c : Nat) : Option (Nat × Nat) :=
  ((List.range 8).map fun i => ((s.coreOf c).mboxTurn + i) % 8).findSome? fun v =>
    if s.vfOnTurn v then (s.nextBox c v).map fun k => (v, k) else none

/-- Changes engine `e` of die `d`. -/
def State.modEngine (s : State) (d e : Nat) (f : CopyEngine → CopyEngine) : State :=
  s.modDie d fun x => { x with engines := x.engines.put e (f ((x.engines.look e).getD {})) }

/-- Engine `e` of die `d`. -/
def State.engine (s : State) (d e : Nat) : CopyEngine := ((s.die d).engines.look e).getD {}

/-- MAILBOX_SERVICE (R253): one quartet goes to the chain of the island's copy engine, while the ring of 4,096 has room. -/
def execMailboxService (core : Nat) (s : State) : Out :=
  if s.frozen core || !s.lodge.up then .next s
  else
    match s.nextQuartet core with
    | none => .next s
    | some (v, k) =>
      let d := dieOf core
      let e := engineOf core
      let q := s.engine d e
      if 4096 ≤ q.chain.length then .next s
      else
        let entry := s.boxEntry core k (q.next + 1)
        let s := s.modEngine d e fun q => { q with chain := q.chain ++ [entry], next := q.next + 1 }
        let s := s.modSlot core k fun x => { x with mbFull := 0, mbTag := none }
        .next ((s.modVf core v fun cv => { cv with mboxLast := k }).modCore core fun co => { co with mboxTurn := (v + 1) % 8 })

end Sys2Proof.Machine
end

