-- ==== Sys2Proof/Machine/Engines.lean ====
section
/-! DEFINITION. Copy engines and the collective engine (R90, R91, R186, R251 to R257). -/

namespace Sys2Proof.Machine

/-! ## Statuses (R252 to R254) -/

/-- A status word (R254). -/
def copyStatus (code cause : Nat) (poison : Bool) (bytes : Nat) : Word :=
  BitVec.ofNat 64 (code + cause * 2 ^ 8 + flagAt poison 16 + bytes % 2 ^ 40 * 2 ^ 24)

/-- A slot whose register receives a status (R252). -/
def Slot.receive (x : Slot) (sd : BitVec 5) (coll : Bool) (w : Word) : Slot :=
  { x.setS sd.toNat w with pendRegs := x.pendRegs.erase (sd, coll) }

/-- A status lands in the activity that asked for it, in its slot or in its saved image and its context block (R338); one that has ended receives
nothing (R252). -/
def State.landStatus (s : State) (c k : Nat) (gen : BitVec 32) (sd : BitVec 5) (coll : Bool) (w : Word) : State :=
  let x := s.slotOf c k
  let land (s : State) : State := s.modSlot c k fun x => x.receive sd coll w
  if x.holds && x.gen = gen then
    match x.status with
    | .parked r => (land s).patchCtx x.vfid.toNat x.tenant.toNat c k (s.ctxWords c k r false) ((land s).ctxWords c k r false)
    | _ => land s
  else
    match s.saved.find? fun y => y.core = c && y.slot = k && y.act.gen = gen with
    | some y => s.inImage y y.late land
    | none => s

/-! ## Places (R171, R251, R254) -/

/-- The place of an address for an engine that acts for a tenant on a core in an address space, and the checks of R171, or the cause. A block of registers is
no engine's (log 19). -/
def State.enginePlace (s : State) (c v pasid : Nat) (ea : Word) (w : Want) : Except Cause Place :=
  let place : Except Cause Place :=
    if ea.toNat < 0x2000000 then
      match s.windowPlace c v ea.toNat with
      | some p => .ok p
      | none => .error .perm
    else
      match s.virt v pasid ea with
      | some p => .ok p
      | none => .error .xlate
  match place with
  | .error e => .error e
  | .ok p =>
    match p.check w with
    | some e => .error e
    | none =>
      if p.kind = .device then
        match devPlace p.pa with
        | .host _ => .ok p
        | _ => .error .perm
      else .ok p

/-- An engine's walk for an address passes the L2 (R163), for core `c`. -/
def State.engineWalk (s : State) (c v pasid : Nat) (ea : Word) : State :=
  if ea.toNat < 0x2000000 then s else (s.walkPas v pasid ea.toNat).foldl (fun s a => s.l2Access c v a false) s

/-- Whether the home of an address stands in an island that relocks (R326). -/
def State.homeRelocks (s : State) (pa : Nat) : Bool := ((homeCluster pa).map fun n => (s.isl (islandOf (clusterCore n 0))).relock).getD false

/-- Whether an engine's access to an address of a tenant is held: an unavailable page, a halted home, windows that stand saved, a relocking island, or a
donation (R172, R311, R326, R358, R359). -/
def State.engineHeld (s : State) (v tenant pa : Nat) (write : Bool) : Bool :=
  s.isUnavail pa || (write && s.heldHome pa) || s.away v tenant pa || s.homeRelocks pa ||
    (s.donated v && match rangeOf pa with
      | .near _ | .far _ | .device => true
      | _ => false)

/-- A word an engine reads at its home (R186) for a VF and a core, through the L2 of far memory (R163), and whether it is poisoned; host memory is
free (log 4). -/
def State.engineRead (s : State) (c vf : Nat) (p : Place) : State × Word × Bool :=
  if p.kind = .device then
    ({ s with fresh := s.fresh + 1 }, BitVec.ofNat 64 (leNat ((List.range 8).map (Config.hostByte s.fresh))), false)
  else (s.l2Access c vf p.pa false, s.mem.word p.pa, s.isPoisoned p.pa || p.pr)

/-- A word an engine writes (R165, R186). -/
def State.engineWrite (s : State) (c vf : Nat) (p : Place) (v : Word) (poisoned : Bool) : State :=
  if p.kind = .device then { s with devOut := s.devOut ++ [(p.pa, 8, v)], hostMem := s.hostMem.store p.pa (leBytes 8 v.toNat) }
  else if p.fe then s.engineWord c vf p.pa v poisoned
  else
    let s := s.performFor c 21 vf (cellsOf p.pa (leBytes 8 v.toNat))
    if poisoned then s.poisonFrom c p.pa else s

/-! ## Copies (R251, R254) -/

/-- OP of a descriptor. -/
def CopyEntry.op (e : CopyEntry) : Nat := field e.w2 43 40
/-- ROWS of a descriptor. -/
def CopyEntry.rows (e : CopyEntry) : Nat := field e.w2 39 24
/-- FLAST of a descriptor. -/
def CopyEntry.flast (e : CopyEntry) : Bool := bit e.w2 44
/-- A descriptor error (R251, R254). -/
def CopyEntry.bad (e : CopyEntry) : Bool :=
  field e.w0 63 57 != 0 || field e.w1 63 57 != 0 || field e.w2 63 61 != 0 || field e.w2 47 45 != 0 ||
    decide (4 < e.op) || e.rows == 0 || field e.w2 23 0 % 8 != 0 || e.rowWords == 0 || field e.w3 31 0 % 8 != 0 || field e.w3 63 32 % 8 != 0

/-- dst op src, on the two 4-byte elements of a word or on the whole word (R251). -/
def copyOp (op : Nat) (dst src : Word) : Word :=
  let two (f : Lane → Lane → Lane) : Word :=
    (f (dst.extractLsb' 32 32) (src.extractLsb' 32 32) ++ f (dst.extractLsb' 0 32) (src.extractLsb' 0 32)).setWidth 64
  match op with
  | 1 => two fun a b => (fadd .rne a b).1
  | 2 => two fun a b => (fpick true a b).1
  | 3 => two (· + ·)
  | 4 => dst + src
  | _ => src

/-- How a copy goes on after a word: the state, and whether a word was poisoned. -/
inductive CopyRun where
  | moved (s : State) (poison : Bool)
  | failed (s : State) (cause : Cause) (done : Nat) (poison : Bool)
  | held

/-- Word `i` of a copy, unless it has moved already; a word read already is not read again (R186). -/
def State.copyWord (s : State) (e : CopyEntry) (i : Nat) (poison : Bool) : CopyRun :=
  match e.moved.look i with
  | some bad => .moved s (poison || bad)
  | none =>
    if s.engineWalkHeld e.vf e.pasid (e.src i) || s.engineWalkHeld e.vf e.pasid (e.dst i) then .held
    else match s.enginePlace e.core e.vf e.pasid (e.src i) { size := 8 }, s.enginePlace e.core e.vf e.pasid (e.dst i) { size := 8, write := true } with
    | .error c, _ => .failed s c i poison
    | _, .error c => .failed s c i poison
    | .ok p, .ok q =>
      if s.engineHeld e.vf e.tenant p.pa false || s.engineHeld e.vf e.tenant q.pa true then .held
      else
        let s := (s.engineWalk e.core e.vf e.pasid (e.src i)).engineWalk e.core e.vf e.pasid (e.dst i)
        let s := if e.flast && i + 1 = e.total then s.flushInvals e.core 21 else s
        let (s, v, bad) := match e.got.look i with
          | some r => (s, r.1, r.2)
          | none => s.engineRead e.core e.vf p
        let (s, w, bad') := if e.op = 0 then (s, (0 : Word), false) else s.engineRead e.core e.vf q
        .moved (s.engineWrite e.core e.vf q (copyOp e.op w v) (bad || bad')) (poison || bad || bad')

/-- The words of a copy from `i` on, `n` of them. -/
def State.copyWords (e : CopyEntry) : Nat → Nat → State → Bool → CopyRun
  | 0, _, s, poison => .moved s poison
  | n + 1, i, s, poison =>
    match s.copyWord e i poison with
    | .moved s' p => State.copyWords e n (i + 1) s' p
    | r => r

/-- What of word `i` of a copy finds its page unavailable, or a table of its walks (R172); of a copy to another module, its source alone. -/
def State.wordGone (s : State) (e : CopyEntry) (i : Nat) : Option Nat :=
  let gone (a : Word) (w : Want) : Option Nat :=
    ((if a.toNat < 0x2000000 then [] else s.walkPas e.vf e.pasid a.toNat) ++ match s.enginePlace e.core e.vf e.pasid a w with
      | .ok p => [p.pa]
      | .error _ => []).find? fun a => s.isUnavail a
  (gone (e.src i) { size := 8 }).orElse fun _ => if bit e.w2 60 then none else gone (e.dst i) { size := 8, write := true }

/-- The address for which a copy waits in a fault queue (R172). -/
def State.copyGone (s : State) (e : CopyEntry) : Option Nat :=
  (List.range e.total).findSome? fun i => if (e.moved.look i).isSome then none else s.wordGone e i

/-- FEKIND of a copy with FLAST, found before any word moves (R254). -/
def State.flastBad (s : State) (e : CopyEntry) : Bool :=
  e.flast &&
    match s.enginePlace e.core e.vf e.pasid (e.dst (e.total - 1)) { size := 8, write := true, fe := true } with
    | .error .fekind => true
    | _ => false

/-- Words `i` on, `n` of them, of a copy to another module: its local SRC is read, and they leave (R251); none while one is held. The rest says the cause
and number of the first word without a place, and whether a word was poisoned. -/
def State.farWords (e : CopyEntry) : Nat → Nat → State → Bool → Option (State × Option (Cause × Nat) × Bool)
  | 0, _, s, poison => some (s, none, poison)
  | n + 1, i, s, poison =>
    if s.engineWalkHeld e.vf e.pasid (e.src i) then none
    else match s.enginePlace e.core e.vf e.pasid (e.src i) { size := 8 } with
    | .error c => some (s, some (c, i), poison)
    | .ok p =>
      if s.engineHeld e.vf e.tenant p.pa false then none
      else
        let s := s.engineWalk e.core e.vf e.pasid (e.src i)
        let (s, v, bad) := match e.got.look i with
          | some r => (s, r.1, r.2)
          | none => s.engineRead e.core e.vf p
        let w : FarWord := { module := BitVec.ofNat 12 (field e.w2 59 48), vf := s.partner e.vf, addr := e.dst i, op := e.op, word := v, poison := bad }
        State.farWords e n (i + 1) { s with copyOut := s.copyOut ++ [w] } (poison || bad)

/-- Where the other module ends a copy, if it does: the words written and the cause (R254; log 18). FEKIND, with FLAST, is found before any word moves. -/
def CopyEntry.farEnd (e : CopyEntry) (n : Nat) : Option (Nat × Nat) :=
  (Config.farFault n).map fun r =>
    if e.flast && r.2 % 4 = 3 then (0, 6) else (r.1, ([4, 5, 0x18][r.2 % 3]?).getD 4)

/-- A copy to another module (R251, R254, R355): LINKFAIL where the VF has no partner, here or there, or no port leads there; nothing while every port trains, or a donated
turn holds the links. The words before the first that either side cannot move are performed; what the other side does is free (log 18). -/
def State.farCopy (s : State) (e : CopyEntry) : Option (State × Word) :=
  let m := field e.w2 59 48
  if s.cutOff e.vf m then some (s, copyStatus 0x44 0 false 0)
  else if s.portsTrain m || s.donated e.vf then none
  else if Config.farUnbound s.fresh then some ({ s with fresh := s.fresh + 1 }, copyStatus 0x44 0 false 0)
  else
    let far := e.farEnd s.fresh
    let odd := e.op ≠ 0 && Config.farPoison s.fresh
    if far = some (0, 6) then some ({ s with fresh := s.fresh + 1 }, copyStatus 0x43 6 false 0)
    else
      (State.farWords e e.total 0 { s with fresh := s.fresh + 1 } false).map fun r =>
        let stop := (r.2.1.map fun q => q.2).getD e.total
        let poison := r.2.2 || odd
        match far, r.2.1 with
        | some (n, c), _ => if n < stop then (r.1, copyStatus 0x43 c poison (8 * n)) else
            match r.2.1 with
            | some (c, n) => (r.1, copyStatus 0x43 c.code.toNat poison (8 * n))
            | none => (r.1, copyStatus 0 0 poison (8 * e.total))
        | none, some (c, n) => (r.1, copyStatus 0x43 c.code.toNat poison (8 * n))
        | none, none => (r.1, copyStatus 0 0 poison (8 * e.total))

/-- What a copy does, and its status; none while it is held. -/
def State.runCopy (s : State) (e : CopyEntry) : Option (State × Word) :=
  if e.bad then some (s, copyStatus 0x43 1 false 0)
  else if e.w0.toNat % 8 ≠ 0 || e.w1.toNat % 8 ≠ 0 then some (s, copyStatus 0x43 3 false 0)
  else if bit e.w2 60 then s.farCopy e
  else if e.flast && s.engineWalkHeld e.vf e.pasid (e.dst (e.total - 1)) then none
  else if s.flastBad e then some (s, copyStatus 0x43 6 false 0)
  else
    match State.copyWords e e.total 0 s false with
    | .moved s' p => some (s', copyStatus 0 0 p (8 * e.total))
    | .failed s' c n p => some (s', copyStatus 0x43 c.code.toNat p (8 * n))
    | .held => none

/-- A word of a started copy is read, or read and written, before the copy completes (R186); of a copy to another module, read. -/
def State.copyEarly (s : State) (e : CopyEntry) (i how : Nat) : State × CopyEntry :=
  if how = 0 || (e.flast && i + 1 = e.total) then (s, e)
  else if s.engineWalkHeld e.vf e.pasid (e.src i) then (s, e)
  else if how = 1 || bit e.w2 60 then
    match s.enginePlace e.core e.vf e.pasid (e.src i) { size := 8 } with
    | .error _ => (s, e)
    | .ok p =>
      if s.engineHeld e.vf e.tenant p.pa false then (s, e)
      else
        let r := (s.engineWalk e.core e.vf e.pasid (e.src i)).engineRead e.core e.vf p
        (r.1, { e with got := e.got.put i r.2 })
  else
    match s.copyWord e i false with
    | .moved s' bad => (s', { e with moved := e.moved.put i bad })
    | _ => (s, e)

/-- A copy starts: some of its words, in no order, are read, or moved, now, the others when it completes (R186; log 35). -/
def State.copyBegin (s : State) (e : CopyEntry) : State × CopyEntry :=
  let e := { e with started := true }
  if e.bad || e.w0.toNat % 8 ≠ 0 || e.w1.toNat % 8 ≠ 0 ||
      (!bit e.w2 60 && e.flast && (s.engineWalkHeld e.vf e.pasid (e.dst (e.total - 1)) || s.flastBad e)) then (s, e)
  else
    (List.range e.total).foldl (fun r i => r.1.copyEarly r.2 i (Config.engineNow s.fresh i % 3)) ({ s with fresh := s.fresh + 1 }, e)

/-- COPY_START (R253): the first command of a chain that has not started, when its tenant is on turn. -/
def execCopyStart (die engine : Nat) (s : State) : Out :=
  match (s.engine die engine).chain.find? fun e => !e.started with
  | none => .next s
  | some e =>
    if s.onTurn e.vf e.tenant && !s.frozen e.core && !s.donated e.vf then
      let (s, e') := s.copyBegin e
      .next (s.modEngine die engine fun q => { q with chain := q.chain.map fun x => if x = e then e' else x })
    else .next s

/-- COPY_COMPLETE (R253, R254): a started command completes, in any order; the words it wrote are performed for every observer before its
status lands. One that finds a page unavailable waits in the home's fault queue (R172). -/
def execCopyComplete (die engine idx : Nat) (s : State) : Out :=
  match (s.engine die engine).chain[idx]? with
  | none => .next s
  | some e =>
    if !e.started then .next s
    else
      match s.runCopy e with
      | none =>
        match s.copyGone e with
        | some pa => .next (s.parkAt pa e.core e.slot (.copy die engine e.seq))
        | none => .next s
      | some (s', w) =>
        let s := (s'.flushInvals e.core 21).modEngine die engine fun q => { q with chain := q.chain.erase e, done := e.seq }
        .next ((s.count e.core e.vf 7).landStatus e.core e.slot e.gen e.sd false w)

/-! ## Collectives (R90, R91, R255, R256) -/

/-- COUNT of a participant. -/
def Participant.count (p : Participant) : Nat := field p.w2 16 0

/-- A descriptor error of a REDUCE (R255). -/
def Participant.bad (p : Participant) : Bool :=
  let fab := bit p.w2 32
  p.count == 0 || decide (65536 < p.count) || p.w0.toNat % 4 != 0 || p.w1.toNat % 4 != 0 || field p.w0 63 57 != 0 || field p.w1 63 57 != 0 ||
    field p.w2 47 33 != 0 || field p.w2 31 17 != 0 || field p.w3 63 32 != 0 ||
    if fab then decide (field p.w3 15 0 < 2) || decide (65535 < field p.w3 15 0) || decide (field p.w3 15 0 ≤ field p.w3 31 16)
    else field p.w3 31 0 != 0

/-- Whether two participants give the same COUNT, mode and P (R255). -/
def Participant.agrees (a b : Participant) : Bool := a.count == b.count && a.tree == b.tree && field a.w3 15 0 == field b.w3 15 0

/-- Whether a collective completes with a descriptor error (R256). -/
def Collective.bad (q : Collective) : Bool :=
  q.parts.any fun p => p.bad || (q.parts.head?.map fun a => !a.agrees p).getD false

/-- Participants of a gang's collective: every member (R255); without a live launch, the activity alone. -/
def State.gangParts (s : State) (g : Nat × Nat) : Nat :=
  if g.1 = 0 then 1
  else (((s.launches.look (g.1 - 1)).bind fun l => l.stages[g.2]?).map fun x => x.w * x.h).getD 1

/-- How many participants a collective wants, or that it cannot reach another module (R255, R355). -/
def State.partsDone (s : State) (q : Collective) : Bool :=
  match q.gang with
  | some g => decide (s.gangParts g ≤ q.parts.length)
  | none => q.bad || q.parts.any fun p => decide (field p.w3 15 0 ≤ q.parts.length)

/-- Whether a collective that needs another module fails: the VF has no partner, or every port is retired (R355). -/
def State.linkFails (s : State) (q : Collective) : Bool :=
  q.gang.isNone && !s.partsDone q && (!bit (s.pfReg (0xB300 + 8 * q.vf)) 63 || (List.range 16).all fun p => (s.port p).retired)

/-- The participants in order of index. -/
def byIndex (l : List Participant) : List Participant :=
  l.foldl (fun acc p => (acc.filter fun x => x.index ≤ p.index) ++ p :: acc.filter fun x => p.index < x.index) []

/-- An exact sum (R90): the sum word in units of 2^-149, +infinity seen, -infinity seen, NaN seen. -/
structure ExactSum where
  word : Int := 0
  pos : Bool := false
  neg : Bool := false
  nan : Bool := false

/-- A partial is added exactly (R90). -/
def ExactSum.add (a : ExactSum) (x : Lane) : ExactSum :=
  match readLane x with
  | .nan _ => { a with nan := true }
  | .inf n => if n then { a with neg := true } else { a with pos := true }
  | .fin n m e =>
    let t : Int := ((m * 2 ^ (e + 149).toNat : Nat) : Int)
    { a with word := a.word + if n then -t else t }

/-- The result of an exact sum (R90). -/
def ExactSum.result (a : ExactSum) : Lane :=
  if a.nan || (a.pos && a.neg) then nanLane
  else if a.pos then BitVec.ofNat 32 (fp32.infCode false)
  else if a.neg then BitVec.ofNat 32 (fp32.infCode true)
  else if a.word = 0 then 0
  else BitVec.ofNat 32 (fp32.round .rne (decide (a.word < 0)) a.word.natAbs (-149)).1

/-- One level of PairwiseSum (R91). -/
def pairLevel : List Lane → List Lane
  | a :: b :: l => (fadd .rne a b).1 :: pairLevel l
  | l => l

/-- PairwiseSum (R91), in as many levels as there are values. -/
def pairSum : Nat → List Lane → Lane
  | 0, l => (l.head?).getD 0
  | n + 1, l => pairSum n (pairLevel l)

/-- One element's result. -/
def reduceOne (tree : Bool) (l : List Lane) : Lane :=
  if tree then pairSum l.length l else (l.foldl ExactSum.add {}).result

/-- The places of an array of `n` elements, or the cause of the first that has none. -/
def State.arrayPlaces (s : State) (p : Participant) (base : Word) (write : Bool) : Nat → Nat → Except Cause (List Place)
  | 0, _ => .ok []
  | n + 1, i =>
    match s.enginePlace p.core p.vf (s.pasid p.vf p.tenant) (base + BitVec.ofNat 64 (4 * i)) { size := 4, write := write } with
    | .error c => .error c
    | .ok q =>
      match State.arrayPlaces s p base write n (i + 1) with
      | .error c => .error c
      | .ok l => .ok (q :: l)

/-- A partial at a place, and whether it is poisoned; host memory is free (log 4). -/
def State.partialAt (s : State) (c vf : Nat) (p : Place) : State × Lane × Bool :=
  if p.kind = .device then
    ({ s with fresh := s.fresh + 1 }, BitVec.ofNat 32 (leNat ((List.range 4).map (Config.hostByte s.fresh))), false)
  else (s.l2Access c vf p.pa false, BitVec.ofNat 32 (leNat (s.mem.bytes p.pa 4)), wordsHit s.poison p.pa 4 || p.pr)

/-- The partials of an array. -/
def State.gatherParts (s : State) (c vf : Nat) : List Place → State × List (Lane × Bool)
  | [] => (s, [])
  | p :: l =>
    let (s, v, b) := s.partialAt c vf p
    let (s, r) := State.gatherParts s c vf l
    (s, (v, b) :: r)

/-- The partials of every participant, or the cause of the first array without places. -/
def State.gatherAll (s : State) (n : Nat) : List Participant → Except Cause (State × List (List (Lane × Bool)))
  | [] => .ok (s, [])
  | p :: l =>
    match s.arrayPlaces p p.w0 false n 0 with
    | .error c => .error c
    | .ok ps =>
      let s := s.engineWalk p.core p.vf (s.pasid p.vf p.tenant) p.w0
      let (s, r) := s.gatherParts p.core p.vf ps
      match State.gatherAll s n l with
      | .error c => .error c
      | .ok (s, rs) => .ok (s, r :: rs)

/-- The results: element `i` of every array, and whether one of them is poisoned. -/
def reduceAll (tree : Bool) (n : Nat) (parts : List (List (Lane × Bool))) : List (Lane × Bool) :=
  (List.range n).map fun i =>
    let col := parts.filterMap fun l => l[i]?
    (reduceOne tree (col.map fun q => q.1), col.any fun q => q.2)

/-- The cells of a result at its place. -/
def resultCells (ps : List Place) (rs : List (Lane × Bool)) : List (Nat × Byte) :=
  (ps.zip rs).flatMap fun q => cellsOf q.1.pa (leBytes 4 q.2.1.toNat)

/-- The engine writes results into memory: data, poison, and the words set full with their lists served (R165). -/
def State.writeResults (s : State) (c vf : Nat) (l : List (Place × Lane × Bool)) : State :=
  let mem := l.filter fun q => q.1.kind != .device
  let words (f : Place × Lane × Bool → Bool) : List Nat := (mem.filter f).foldl (fun a q => setAdd a (q.1.pa / 8 * 8)) []
  let s := s.performFor c 21 vf (mem.flatMap fun q => cellsOf q.1.pa (leBytes 4 q.2.1.toNat))
  let s := (words fun q => q.2.2).foldl (fun s a => s.poisonFrom c a) s
  let s := (words fun q => q.1.fe && hasFE q.1.pa).foldl (fun s w => if s.isFull w then s else s.serveWord w) s
  (l.filter fun q => q.1.kind == .device).foldl
    (fun s q => { s with devOut := s.devOut ++ [(q.1.pa, 4, q.2.1.setWidth 64)], hostMem := s.hostMem.store q.1.pa (leBytes 4 q.2.1.toNat) }) s

/-- One participant receives the results and its status (R256); a destination without a place is that participant's alone (log 20). -/
def State.deliverTo (s : State) (rs : List (Lane × Bool)) (p : Participant) : State :=
  match s.arrayPlaces p p.w1 true p.count 0 with
  | .error c => s.landStatus p.core p.slot p.gen p.sd true (copyStatus 0x43 c.code.toNat false 0)
  | .ok ps =>
    (((s.engineWalk p.core p.vf (s.pasid p.vf p.tenant) p.w1).writeResults p.core p.vf (ps.zip rs)).flushInvals p.core 21).landStatus p.core p.slot p.gen p.sd true
      (copyStatus 0 0 (rs.any fun r => r.2) (4 * p.count))

/-- Every participant of a collective receives one status, and nothing is written. -/
def State.failAll (s : State) (q : Collective) (w : Word) : State :=
  q.parts.foldl (fun s p => s.landStatus p.core p.slot p.gen p.sd true w) s

/-- The pages of an array of a participant, with those of the tables its walks read. -/
def State.arrayPas (s : State) (p : Participant) (base : Word) (write : Bool) : List Nat :=
  let pages := (List.range (1 + (base.toNat % 4096 + 4 * p.count - 1) / 4096)).map fun i =>
    if i = 0 then base else BitVec.ofNat 64 ((base.toNat / 4096 + i) * 4096)
  pages.flatMap fun a => (if a.toNat < 0x2000000 then [] else s.walkPas p.vf (s.pasid p.vf p.tenant) a.toNat) ++
    match s.enginePlace p.core p.vf (s.pasid p.vf p.tenant) a { size := 4, write := write } with
    | .ok x => [x.pa]
    | .error _ => []

/-- The address for which a collective waits in a fault queue (R172). -/
def State.collGone (s : State) (q : Collective) : Option Nat :=
  if q.bad then none
  else q.parts.findSome? fun p => (s.arrayPas p p.w0 false ++ s.arrayPas p p.w1 true).find? fun a => s.isUnavail a

/-- Whether a fabric collective waits: every port that is not retired trains (R355). -/
def State.fabricTrains (s : State) (q : Collective) : Bool :=
  q.gang.isNone && !q.bad && !s.linkFails q && (List.range 16).all fun p => (s.port p).retired || (s.port p).training

/-- Whether a collective is held: its tenants are off turn, a core of it is halted, a page it needs is unavailable, the windows it reaches relock, its
ports train, or a donated turn holds its walks (R172, R257, R311, R326, R355, R358). -/
def State.collHeld (s : State) (q : Collective) : Bool :=
  let held (p : Participant) (base : Word) (write : Bool) : Bool :=
    (s.donated p.vf && decide (0x2000000 ≤ base.toNat)) ||
    match s.arrayPlaces p base write p.count 0 with
    | .ok ps => ps.any fun x => s.engineHeld p.vf p.tenant x.pa write
    | .error _ => false
  (s.collGone q).isSome || s.fabricTrains q ||
    q.parts.any fun p => !s.onTurn p.vf p.tenant || s.frozen p.core || (!q.bad && (held p p.w0 false || held p p.w1 true))

/-- A collective that finds a page unavailable waits in the home's fault queue (R172). -/
def State.collPark (s : State) (q : Collective) : State :=
  match s.collGone q, q.parts.head? with
  | some pa, some p => s.parkAt pa p.core p.slot .collective
  | _, _ => s

/-- COLLECTIVE_COMPLETE (R256): a collective that all its participants have joined completes. -/
def execCollectiveComplete (idx : Nat) (s : State) : Out :=
  match s.colls[idx]? with
  | none => .next s
  | some q =>
    if s.collHeld q then .next (s.collPark q)
    else
      let s' := { s with colls := s.colls.eraseIdx idx }
      if s.linkFails q then .next (s'.failAll q (copyStatus 0x44 0 false 0))
      else if !s.partsDone q then
        let s' := { s' with fresh := s.fresh + 1 }
        .next (if q.gang.isNone && Config.farUnbound s.fresh then s'.failAll q (copyStatus 0x44 0 false 0) else { s with fresh := s.fresh + 1 })
      else if q.bad then .next (s'.failAll q (copyStatus 0x43 1 false 0))
      else
        let parts := byIndex q.parts
        let n := (parts.head?.map fun p => p.count).getD 0
        match s'.gatherAll n parts with
        | .error c => .next (s'.failAll q (copyStatus 0x43 c.code.toNat false 0))
        | .ok (s', ls) =>
          let rs := reduceAll ((parts.head?.map fun p => p.tree).getD false) n ls
          .next (parts.foldl (fun s p => s.deliverTo rs p) s')

/-! ## The movement program (R334) -/

/-- The requests that the movement program of a core has in its hands are lost: their statuses are COPYFAULT, cause 0x01 (R334). -/
def State.loseHand (s : State) (c : Nat) : State :=
  ((s.coreOf c).hand.foldl (fun s q => s.landStatus c q.1 q.2.1 q.2.2 false (copyStatus 0x43 1 false 0)) s).modCore c fun co => { co with hand := [] }

/-- The lines of the movement program, from its start, that a core's instruction cache holds (R353); the program's words are free (log 17). -/
def movementText (pc : Word) : List TextLine :=
  (List.range Config.icacheLines).map fun j =>
    let a := pc.toNat / 64 * 64 + 64 * j
    ⟨8, a, (List.range 64).map fun i => Config.movementByte (a + i)⟩

/-- The movement program is loaded into a core and its slot 0 runs it (R334, R353). -/
def Core.loadMovement (co : Core) (pc : Word) : Core :=
  let x : Slot := (co.slots.look 0).getD {}
  { co with slots := co.slots.put 0 { x.fresh .movement pc with pl := 2, ppl := 2 },
            icache := (movementText pc ++ co.icache.filter fun l => l.vf != 8).take Config.icacheLines }

/-- The movement program is loaded into every slot 0 (R353 step 4). -/
def State.loadMovements (s : State) : State :=
  let pc := Config.movementEntry s.fresh
  let all := (List.range 4).flatMap fun d => (List.range (Config.width * Config.height)).map fun i => coreAt d (i % Config.width) (i / Config.width)
  { s with fresh := s.fresh + 1, cores := all.map fun c => (c, (s.coreOf c).loadMovement pc) }

/-- MOVEMENT_RESTART (R334): a DOUBLE in slot 0 reloads the movement program; mailboxes and chains keep what they hold, and the requests in its hands
are lost. Its start address is free (log 17). -/
def execMovementRestart (core : Nat) (s : State) : Out :=
  match (s.slotOf core 0).kill with
  | none => .next s
  | some _ =>
    let s := { (s.unlist core 0).modCore core fun co => co.loadMovement (Config.movementEntry s.fresh) with fresh := s.fresh + 1 }
    .next (s.loseHand core)

end Sys2Proof.Machine
end

