-- ==== Sys2Proof/Machine/Network.lean ====
section
/-! DEFINITION. Memory events: buffered and posted stores arrive, replies land, invalidations travel, held requests join their lists, fault
queues replay, tuple requests arrive (R19, R78, R110, R164, R172, R179, R203, R204, R216 to R220, R248, R250, R290 to R292, R338). -/

namespace Sys2Proof.Machine

/-! ## Stores (R164, R179, R203, R248) -/

/-- A store that waited for the buffer enters it when an entry has left (R179). -/
def Slot.storeNext (x : Slot) : Slot :=
  match x.status with
  | .wait (.storeFull e) =>
    if x.storeBuf.length < 8 then { { x with storeBuf := x.storeBuf ++ [e] }.advance with status := .run } else x
  | _ => x

/-- A word of a slot's buffer that leaves for its home and finds the page unavailable joins the home's fault queue, and stays first of what the
buffer holds until it replays (R172, R179): none where it may not leave, or has joined. -/
def State.parkStore (s : State) (c k idx : Nat) : Option State :=
  let buf := (s.slotOf c k).storeBuf
  match ((List.range buf.length).flatMap fun i => ((buf[i]?.map StoreEntry.words).getD []).map fun w => (i, w))[idx]? with
  | none => none
  | some (i, w) =>
    if !mayDrain (dieOf c) buf i w || !s.isUnavail (8 * w) || s.faultQ.elem ⟨8 * w, c, k, .store⟩ ||
        s.heldFor ((buf[i]?).getD { bytes := [] }).vf (8 * w) || s.pushHolds c k (8 * w) then none
    else some (s.parkAt (8 * w) c k .store)

/-- Whether the stores and replies of a core stand at its island's FIFOs while the island relocks (R326). -/
def State.relocks (s : State) (c : Nat) : Bool := (s.isl (islandOf c)).relock

/-- STORE_BUFFER_DRAIN (R172, R179, R184, R191): one word of a slot's buffer is performed at its home, or parks there; not while the core's island
relocks (R326). -/
def execStoreBufferDrain (core slot idx : Nat) (s : State) : Out :=
  if s.relocks core then .next s
  else
    match s.drainWord core slot idx with
    | none => .next ((s.parkStore core slot idx).getD s)
    | some s' => .next (s'.modSlot core slot Slot.storeNext)

/-- POSTED_STORE_ARRIVAL (R188, R203, R337, R358): one word of a posted store is performed, or held at a halted cluster; not while it waits on its
way (R311, R326). -/
def execPostedStoreArrival (core slot idx : Nat) (s : State) : Out :=
  let l := (s.slotOf core slot).posted
  match (postedWords l)[idx]? with
  | none => .next s
  | some (i, w) =>
    if !mayPost l i w || ((l[i]?).map fun e => s.linkHeld e.vf core e.target || s.fifoHeld core e.target).getD true then .next s
    else if s.heldHome w then .next (s.holdPacket w (.store core slot w))
    else .next (s.postWord core slot i w)

/-- POSTED_REPLY_ARRIVAL (R248, R358): the write of a REPLY is performed, or held at a halted cluster; not while it waits on its way (R311, R326,
R355). -/
def execPostedReplyArrival (core slot idx : Nat) (s : State) : Out :=
  match (s.slotOf core slot).replies[idx]? with
  | none => .next s
  | some r =>
    if !s.replyHeld core r then .next (s.replyWord core slot idx)
    else
      match s.replyHome r with
      | some pa => .next (if s.heldHome pa then s.holdPacket pa (.reply core slot r.token.toNat) else s)
      | none => .next s

/-! ## Replies (R19) -/

/-- Whether what TLBINV waits for has been performed (R170): every access of the VF, or of the tenant, whose translation was dropped. -/
def State.tlbClear (s : State) (c k : Nat) (vfScope : Bool) : State × Bool :=
  let x := s.slotOf c k
  let slots := s.slotsOf x.vfid.toNat (if vfScope then none else some x.tenant.toNat)
  let s := slots.foldl (fun s q => s.drainAll false q.1 q.2 8) s
  (s, !slots.any fun q => (s.slotOf q.1 q.2).inFlight)

/-- The instruction of a slot issues again. -/
def State.again (s : State) (c k : Nat) : State := s.modSlot c k fun x => { x with status := .run }

/-- Whether the push of a slot is the first of those that wait for the share of its VF (R216). -/
def State.mxTurn (s : State) (c v order : Nat) : Bool :=
  decide ((s.vfOf c v).mxq.length < s.mxShare v) && (s.mxWaiting c v).all fun p => order ≤ p.2

/-- What the hardware owes a slot is there, and the slot goes on (R19); none while it is not. -/
def State.served (s : State) (c k : Nat) (w : Wait) : Option State :=
  let x := s.slotOf c k
  let v := x.vfid.toNat
  match w with
  | .tblld t addr seq =>
    if s.tblWaits c v t seq then none else (s.drained c k).map fun s => s.asSlot c k fun s => s.tblInstall t addr
  | .storeFull _ => if x.storeBuf.length < 8 then some (s.modSlot c k Slot.storeNext) else none
  | .postFull _ => if x.posted.length < 16 then some (s.modSlot c k Slot.postNext) else none
  | .mxFull cmd order =>
    if s.mxTurn c v order then (s.drained c k).map fun s => (s.mxAppend c k v cmd order).asSlot c k State.retire else none
  | .release bay seq => if s.mxNames c v bay seq then none else some (s.asSlot c k fun s => s.releaseBay bay)
  | .mxdrain seqs => if (s.vfOf c v).mxq.any fun q => seqs.elem q.seq then none else some (s.asSlot c k State.retire)
  | .copyBox d ws => if x.mbFull = 0 then some ((s.modSlot c k fun x => x.quartet d ws).asSlot c k State.retire) else none
  | .mbwBox n val => if x.mbFull.getLsbD n.toNat then none else some ((s.modSlot c k fun x => x.boxPut n val).asSlot c k State.retire)
  | .mbrBox d slot box =>
    let y := s.slotOf c slot
    if y.mbFull.getLsbD box then
      some (s.asSlot c k fun s => ((s.putS 0 d ((y.mb.look box).getD 0)).boxTake c slot box).retire)
    else none
  | .exiting => if x.pendRegs.any fun p => !p.2 then none else some (s.endActivity c k)
  | .copyStatus r | .reduceStatus r _ => if x.pendRegs.any fun p => p.1 == r then none else some (s.again c k)
  | .fence .thread true => (s.postedDone c k).map fun s' => s'.again c k
  | .fence _ rst =>
    match s.drained c k with
    | none => none
    | some s' => if rst then (s'.postedDone c k).map fun s' => s'.again c k else some (s'.again c k)
  | .drain => (s.drained c k).map fun s' => s'.again c k
  | .tlbinv vfScope => match s.tlbClear c k vfScope with
    | (s', true) => some (s'.again c k)
    | (_, false) => none
  | .kiosk pa => if s.heldHome pa then none else some (s.again c k)
  | .fifo target => if s.fifoHeld c target then none else some (s.again c k)
  | .sendFull m =>
    if (x.sendq.filter fun y => y.tenant == m.tenant).length < 8 then some (s.sendNext c k) else none
  | _ => none

/-- MEMORY_REPLY (R19, R78, R216 to R220, R250, R252): what a slot out of rotation waits for is there, and its instruction completes or issues
again. Nothing happens to a slot that waits for something else, or whose island relocks (R326). -/
def execMemoryReply (core slot : Nat) (s : State) : Out :=
  match (s.slotOf core slot).status with
  | .wait w => .next (if s.relocks core then s else (s.served core slot w).getD s)
  | _ => .next s

/-- DIVIDE_COMPLETE (R110, R114, R123): the divider replies. -/
def execDivideComplete (core slot : Nat) (s : State) : Out :=
  match (s.slotOf core slot).status with
  | .wait (.divide d v) => .next (s.replyS core slot d v)
  | .wait (.vdivide d m v fl) => .next (s.asSlot core slot fun s => ((s.putV 0 d m v).addFlags fl).retire)
  | _ => .next s

/-- LATE_REPLY_LAND (R300, R338): a reply lands in the saved image of an activity. -/
def execLateReplyLand (vf tenant core slot : Nat) (s : State) : Out :=
  match s.saved.find? fun x => x.vf == vf && x.tenant == tenant && x.core == core && x.slot == slot && x.late.isSome with
  | none => .next s
  | some x => .next (s.lateLand x)

/-! ## Deferred lists (R204) -/

/-- A held request joins its list, or is served where its word has become full, or its slot's condition holds, while it was held. -/
def State.joinHeld (s : State) (w : Waiter) : State :=
  let full := s.isFull w.pa
  let act (f : State → State) : State := (s.unjoin w).asSlot w.core w.slot f
  let joined : State :=
    { s with waiters := s.waiters.map fun x => if x = w then { x with held := false } else x }.countJoin w.core w.slot w.req
  match w.req with
  | .lds d ea pa pr rank => if full then act fun s => s.actLds d ea pa pr rank else joined
  | .vldsWord x => if full then act fun s => s.actVldsWord x else joined
  | .take d ea pa pr obj rank => if full then act fun s => s.actTake d ea pa pr obj rank else joined
  | .sywait d _ pa t _ =>
    if syncHolds (s.mem.word pa) t then ((s.unjoin w).readHome w.core pa).replyS w.core w.slot d (s.mem.word pa) else joined
  | _ => joined

/-- DEFERRED_ENTRY_JOIN (R204): an entry of a home is free, and the first of the requests held back joins its list. -/
def execDeferredEntryJoin (home : Nat) (s : State) : Out :=
  if 256 ≤ s.homeUsed home then .next s
  else
    match s.waiters.find? fun w => w.home == home && w.held && !s.heldHome w.pa with
    | none => .next s
    | some w => .next (s.joinHeld w)

/-! ## Invalidations (R164) -/

/-- RDC_INVALIDATION (R164, R183). -/
def execRdcInvalidation (die idx : Nat) (s : State) : Out :=
  match (s.die die).invals[idx]? with
  | none => .next s
  | some v => .next (s.invalArrive v)

/-- INVALIDATION_ACK (R164). -/
def execInvalidationAck (die idx : Nat) (s : State) : Out :=
  match (s.die die).acks[idx]? with
  | none => .next s
  | some v => .next (s.ackArrive v)

/-! ## Tuple requests (R290 to R292) -/

/-- Whether a request deposits. -/
def TsReq.isPut : TsReq → Bool
  | .put _ _ _ => true
  | _ => false

/-- The request of a slot arrives at its slice, if it is of the sort. -/
def State.tsLand (s : State) (c k : Nat) (put : Bool) : State :=
  match (s.slotOf c k).status, s.tsFlight c k with
  | .wait (.tupleSent _), some e => if e.req.isPut == put && !s.donated e.vf && !s.relocks c then s.tsArrive e else s
  | _, _ => s

/-- TS_REQUEST_ARRIVAL (R291, R292, R296 to R298). -/
def execTsRequestArrival (core slot : Nat) (s : State) : Out := .next (s.tsLand core slot false)

/-- TS_DEPOSIT_ARRIVAL (R290 to R292, R295). -/
def execTsDepositArrival (core slot : Nat) (s : State) : Out := .next (s.tsLand core slot true)

/-! ## Fault queues (R172) -/

/-- PAGE_UNAVAILABLE (R172): firmware, or a PRI page request of the host, makes a 4 KiB page unavailable. -/
def execPageUnavailable (page : Nat) (s : State) : Out :=
  .next (if rangeOf (page * 4096) = .unmapped then s else { s with unavail := setAdd s.unavail page })

/-- The request of a slot is replayed (R172); in a donated turn its instruction is held until the turn ends (R311). -/
def State.replaySlot (s : State) (q : Parked) : Out :=
  match (s.slotOf q.core q.slot).status with
  | .wait (.parked r _) =>
    if s.heldFor (s.slotOf q.core q.slot).vfid.toNat q.pa then .next (s.asSlot q.core q.slot fun s => s.hold .donated)
    else
      match (s.at q.core q.slot).ask r with
      | .next s' => .next (s'.at s.core s.slot)
      | .fault f => .fault f
      | .refused f => .refused f
  | .wait (.fetch _) => .next (s.modSlot q.core q.slot fun x => { x with status := .run })
  | _ => .next s

/-- A parked request is replayed (R172): it leaves its queue, and finds its page, or another that is not available. -/
def State.replay1 (s : State) (q : Parked) : Out :=
  let s := { s with faultQ := s.faultQ.erase q }
  match q.by' with
  | .slot => s.replaySlot q
  | .store => .next (s.replayStore q)
  | .tuple => .next ((s.tsLand q.core q.slot false).tsLand q.core q.slot true)
  | .copy d e seq =>
    match (List.range (s.engine d e).chain.length).find? fun i => ((s.engine d e).chain[i]?.map fun x => x.seq) == some seq with
    | some i => execCopyComplete d e i s
    | none => .next s
  | .matrix v seq =>
    match (s.vfOf q.core v).mxq.find? fun x => x.seq == seq with
    | some x => s.mxStart q.core v (cmdStream x.cmd) (· == cmdType x.cmd)
    | none => .next s
  | .collective =>
    match (List.range s.colls.length).find? fun i => ((s.colls[i]?.bind fun x => x.parts.head?).map fun p => p.core == q.core && p.slot == q.slot) == some true with
    | some i => execCollectiveComplete i s
    | none => .next s
  | .bell v pasid whole w => .next (s.doorbell v pasid whole w)
  | .take d hq => .next (s.take d hq)
  | .packet v tenant code stage n stat compl => .next (s.endPacket v tenant code stage n stat compl)
  | .io v tenant a bs => .next (s.frontWrite v tenant a bs)
  | .record v r => .next (s.ringWrite v q.pa r)

/-- The parked requests whose pages are available replay, each as its queue's entries come to it, `n` of them at most (R172). -/
def State.replayAll : Nat → State → Out
  | 0, s => .next s.writeSpills
  | n + 1, s =>
    match s.nextReplay with
    | none => .next s.writeSpills
    | some q =>
      match s.replay1 q with
      | .next s' => State.replayAll n s'
      | .fault f => .fault f
      | .refused f => .refused f

/-- FAULT_QUEUE_REPLAY (R172): the page becomes available, and what has parked replays in arrival order; also what has come into a full queue since. -/
def execFaultQueueReplay (page : Nat) (s : State) : Out :=
  let s' := { s with unavail := setDel s.unavail page }
  State.replayAll s'.faultQ.length s'

end Sys2Proof.Machine
end

