-- ==== Sys2Proof/Machine/Incidents.lean ====
section
/-! DEFINITION. Errors, retirements, heartbeat misses, and what acts at an instruction boundary before the next issue (R153, R154, R173 to
R176, R233, R312, R331 to R338, R343). -/

namespace Sys2Proof.Machine

/-! ## Errors (R173, R335) -/

/-- Whether memory stands at a physical address. -/
def isMemory (pa : Nat) : Bool :=
  match rangeOf pa with
  | .device | .unmapped => false
  | _ => true

/-- UNCORRECTABLE_ERROR (R173, R204, R335): the word is poisoned, and full where it has a full/empty bit; its deferred list is served with
poison. -/
def execUncorrectableError (addr : Nat) (s : State) : Out :=
  let w := addr / 8 * 8
  if !isMemory w then .next s
  else
    let s := s.setPoison w
    .next (if hasFE w then s.serveWord w else s)

/-- REGISTER_ERROR (R335): an uncorrectable error in a private register is found when it is read; a shared one is marked poisoned. -/
def execRegisterError (core slot : Nat) (vec : Bool) (r : Reg) (s : State) : Out :=
  match r with
  | .priv n =>
    .next (if (s.slotOf core slot).holds then
      s.modSlot core slot fun x => { x with regErr := x.regErr.filter (· != (vec, n)) ++ [(vec, n)] } else s)
  | .shared n =>
    let v := if slot = 0 then 8 else (s.slotOf core slot).vfid.toNat
    .next (s.modVf core v fun cv =>
      if vec then { cv with wPoison := cv.wPoison.filter (· != n) ++ [n] } else { cv with cPoison := cv.cPoison.filter (· != n) ++ [n] })

/-- OBLIGATION_STATE_LOSS (R335): both copies of an obligation-table, sync-unit or PRT entry are lost, and the VF that owns it is reset. -/
def execObligationStateLoss (vf : Nat) (s : State) : Out := .next (s.askReset vf)

/-! ## Retirements (R175, R176, R233, R312, R343) -/

/-- A RETIRE record goes to the physical function's ring, and to those of the VFs that lose a bay or a slot. -/
def State.retireEvent (s : State) (kind unit c k : Nat) (vfs : List Nat) : State :=
  vfs.foldl (fun s v => s.event v 0x65 0 c k (s.rowEntry v).tenant [BitVec.ofNat 64 kind, BitVec.ofNat 64 unit])
    (s.event 8 0x65 0 c k 0 [BitVec.ofNat 64 kind, BitVec.ofNat 64 unit])

/-- What of a capacity is left after a retirement: no more than there was (R312; log 71). -/
def State.loseCap (s : State) (r d : Nat) : State :=
  { s with fresh := s.fresh + 1 }.setCap r d (min (s.capOf r d) (Config.capLeft s.fresh))

/-- BUS_REPAIR (R175): a connection of a bus fails; firmware holds the bus, shifts past it while a spare is left, and records it in the map. -/
def execBusRepair (die bus conn : Nat) (s : State) : Out :=
  let d := s.die die
  let n := (d.busShifts.look bus).getD 0
  .next (if 4 ≤ n || d.busRetired.elem bus || 4 ≤ die then s
    else s.modDie die fun d => { d with busShifts := d.busShifts.put bus (n + 1), busFailed := d.busFailed ++ [(bus, conn)],
                                        busHeld := setAdd d.busHeld bus })

/-- BUS_HOLD_END (R175, R176): the bus's traffic goes on, or its range has been rewritten and remapped; no access is lost or repeated, and what waited
for it replays. -/
def execBusHoldEnd (die bus : Nat) (s : State) : Out :=
  let s' := s.modDie die fun d => { d with busHeld := setDel d.busHeld bus, busMoving := setDel d.busMoving bus }
  State.replayAll s'.faultQ.length s'

/-- BUS_RETIRE (R176): a bus without a spare left is retired. Its range is unavailable while firmware rewrites it in the reserve rows, until
BUS_HOLD_END; every word keeps its address and its value, and one that cannot be corrected is an UNCORRECTABLE_ERROR. What the retirement takes of
near memory's bandwidth and capacity is free (log 71), and the shortfall rule acts on it. -/
def execBusRetire (die bus : Nat) (s : State) : Out :=
  let d := s.die die
  if (d.busShifts.look bus).getD 0 < 4 || d.busRetired.elem bus then .next s
  else
    let s := s.modDie die fun d => { d with busRetired := setAdd d.busRetired bus, busHeld := setDel d.busHeld bus, busMoving := setAdd d.busMoving bus }
    .next (((s.retireEvent 2 bus (coreAt die 0 0) 0 []).loseCap 0 die).loseCap 3 die)

/-- MATRIX_UNIT_RETIRE (R233): every command queued or pushed later completes with MXRETIRED. -/
def execMatrixUnitRetire (core : Nat) (s : State) : Out :=
  if (s.coreOf core).mxRetired || !validCore core then .next s
  else
    .next ((s.modCore core fun co => { co with mxRetired := true }).retireEvent 5 core core 0
      ((List.range 8).filter fun v => s.bayMask v != 0))

/-- CHANNEL_RETIRE (R176, R312): a far-memory channel of the 16 is retired, and FARBW falls. -/
def execChannelRetire (die channel : Nat) (s : State) : Out :=
  if 4 ≤ die || 16 ≤ channel || (s.die die).chanRetired.elem channel then .next s
  else
    let s := s.modDie die fun d => { d with chanRetired := setAdd d.chanRetired channel }
    .next ((s.retireEvent 1 channel (coreAt die 0 0) 0 []).setCap 1 die (1024 * (16 - (s.die die).chanRetired.length) / 16))

/-- CLUSTER_RETIRE (R312): a cluster of the die's 96 is retired, and COMPUTE falls; its slots run no more. -/
def execClusterRetire (cluster : Nat) (s : State) : Out :=
  if 384 ≤ cluster || (s.clus cluster).retired then .next s
  else
    let s := s.modClus cluster fun cl => { cl with retired := true }
    let gone := (s.clusters.filter fun p => p.2.retired && p.1 / 96 == cluster / 96).length
    .next ((s.retireEvent 4 cluster (clusterCore cluster 0) 0 ((List.range 8).filter fun v => s.slotMask v != 0)).setCap 4 (cluster / 96)
      (1024 * (96 - gone) / 96))

/-! ## The heartbeat (R153, R337) -/

/-- The miss condition of an activity (R153). -/
def Slot.misses (x : Slot) : Bool := x.hbi != 0 && decide (x.hbi.toNat ≤ x.hbc.toNat)

/-- HEARTBEAT_MISS (R153, R337): at an entitled cycle with the miss condition, once a write of HBI has landed, the activity takes HBMISS, or with its mark set the VF is
fenced on the core. DEDUCED (log 81): the movement slot counts HBC and takes no miss. -/
def execHeartbeatMiss (core slot : Nat) (s : State) : Out :=
  let x := s.slotOf core slot
  if slot = 0 || !x.misses || !s.landedIn core slot (.sys .hbi) || !s.entitled core slot || x.kill.isSome then .next s
  else if x.missed then .next (s.fenceVf core x.vfid.toNat)
  else .next (s.modSlot core slot fun x => { x with hbc := 0, missed := true, hbPend := true })

/-! ## Boundaries (R333) -/

/-- Whether slot `k` stands at an instruction boundary in its turn: it would issue, or it waits for software (R209). -/
def State.atBoundary (s : State) (c k : Nat) : Bool :=
  (s.slotOf c k).kill.isNone && s.entitled c k

/-- HBMISS_DELIVERY (R153, R209, R217, R276, R300, R333): a wait is withdrawn, and HBMISS is delivered with IH 0; a reply fault and a PTGAP
come first. -/
def execHbmissDelivery (core slot : Nat) (s : State) : Out :=
  let x := s.slotOf core slot
  if !s.atBoundary core slot || !x.hbPend || x.ih || x.replyFault.isSome || x.ptgap.isSome then .next s
  else
    .next ((s.withdraw core slot).modSlot core slot fun x => { x with hbPend := false }.trap slot (s.cycle core) .hbmiss x.pc (x.hbi.setWidth 64))

/-- PTGAP_RECORD (R154): a pre-emption is pending and PTC exceeds MAXPT. -/
def execPtgapRecord (core slot : Nat) (s : State) : Out :=
  let x := s.slotOf core slot
  .next (if (x.preLead || x.prePreempt) && decide (x.maxpt.toNat < x.ptc.toNat) && s.landedIn core slot (.sys .maxpt) && x.holds &&
      x.ptgap.isNone then
    s.modSlot core slot fun x => { x with gap := true } else s)

/-- PTGAP_DELIVERY (R154, R333): a recorded PTGAP is delivered at the first boundary after a resume at which IH is 0. -/
def execPtgapDelivery (core slot : Nat) (s : State) : Out :=
  let x := s.slotOf core slot
  match x.ptgap with
  | none => .next s
  | some n =>
    if !s.atBoundary core slot || x.status ≠ .run || x.ih || x.replyFault.isSome then .next s
    else .next (s.modSlot core slot fun x => { x with ptgap := none }.trap slot (s.cycle core) .ptgap x.pc (n.setWidth 64))

/-- REPLY_FAULT_DELIVERY (R333, R338): the first boundary after a resume delivers a recorded reply fault. -/
def execReplyFaultDelivery (core slot : Nat) (s : State) : Out :=
  let x := s.slotOf core slot
  match x.replyFault with
  | none => .next s
  | some (c, v) =>
    if !s.atBoundary core slot || x.status ≠ .run then .next s
    else .next (s.modSlot core slot fun x => { x with replyFault := none }.trap slot (s.cycle core) c x.pc v)

/-- ACTIVITY_KILL (R25, R333, R336): a pending kill acts; in the handler slot the handler is abandoned. -/
def execActivityKill (core slot : Nat) (s : State) : Out :=
  match (s.slotOf core slot).kill with
  | none => .next s
  | some r =>
    if slot = 0 || s.frozen core then .next s
    else if slot = 15 then .next (s.abandonHandler core r.cause.code)
    else .next (s.killSlot core slot r)

/-- SLOT_SCRUB_COMPLETE (R336): the bank of a killed activity's slot has been written and read back; `again` says that a word failed. -/
def execSlotScrubComplete (core slot : Nat) (again : Bool) (s : State) : Out :=
  if (s.slotOf core slot).status ≠ .scrub then .next s
  else if again then
    let v := s.slotOwner slot
    .next ((s.modSlot core slot fun x => { x with status := .retired }).retireEvent 6 slot core slot (if v < 8 then [v] else []))
  else .next (s.modSlot core slot fun x => { x with status := .empty })

end Sys2Proof.Machine
end

