-- ==== Sys2Proof/Machine/Turns.lean ====
section
/-! DEFINITION. Events of time: turn edges and boundaries, donations, capacity, frequency steps, NCYC, TIME, trace and counter samples
(R304 to R313, R317 to R330). An event with an instant of its own lets time pass to it. -/

namespace Sys2Proof.Machine

/-- Time passes to an instant, and then `f` acts; nothing happens without an instant. -/
def State.atTick (s : State) (due : Option Nat) (f : State → State) : Out :=
  match due with
  | none => .next s
  | some t => .next (f (s.advance t))

/-! ## Turn edges (R304, R307, R308) -/

/-- The instant of the drain lead of VF `v` (R307). -/
def State.leadDue (s : State) (v : Nat) : Option Nat :=
  if s.band.started && v < 8 && (s.outgoing v).isSome && s.phase v = .running then some (s.tickOf (s.band.nextBoundary - s.band.lead))
  else none

/-- The instant of the next turn boundary, if it ends a round or not as asked (R304); that of the first round where the Bandstand is still to
start (R306). -/
def State.boundaryDue (s : State) (round : Bool) : Option Nat :=
  if s.band.started then (if s.band.endsRound == round then some (s.tickOf s.band.nextBoundary) else none)
  else if round && s.runOn && s.band.pending.isSome then some (s.tickOf s.firstRound.2)
  else none

/-- The instant of the synchronised stop of VF `v` (R307). -/
def State.stopDue (s : State) (v : Nat) : Option Nat :=
  if s.band.started && v < 8 && (s.outgoing v).isSome && s.phase v ≠ .stopped then some (s.tickOf s.band.nextBoundary) else none

/-- Whether VF `v` stands between its stop and its restore, past the boundary (R307). -/
def State.pastEdge (s : State) (v : Nat) : Bool :=
  decide (v < 8) && s.phase v == .stopped && (!s.band.started || decide ((s.band.edgeAt.look v).getD 0 < s.band.nextBoundary))

/-- The instant of the restore of VF `v` (R307, R308). -/
def State.restoreDue (s : State) (v : Nat) : Option Nat :=
  if s.pastEdge v then some (s.tickOf ((s.band.edgeAt.look v).getD 0 + s.band.guard)) else none

/-- DRAIN_LEAD (R307). -/
def execDrainLead (vf : Nat) (s : State) : Out :=
  s.atTick (s.leadDue vf) fun s => match s.outgoing vf with
    | some a => s.lead vf a
    | none => s

/-- SYNCHRONISED_STOP (R307). -/
def execSynchronisedStop (vf : Nat) (s : State) : Out :=
  s.atTick (s.stopDue vf) fun s => match s.outgoing vf with
    | some a => s.stopVf vf a
    | none => s

/-- TURN_EDGE_RESTORE (R307, R308): at E + G, or when the saves are complete. -/
def execTurnEdgeRestore (vf : Nat) (s : State) : Out :=
  s.atTick (s.restoreDue vf) fun s => if s.savesDone vf then s.finishEdge vf else s

/-- TURN_BOUNDARY (R304, R311): a boundary within a round. -/
def execTurnBoundary (s : State) : Out := s.atTick (s.boundaryDue false) State.crossTurn

/-- ROUND_BOUNDARY (R304, R306, R312): the end of a round, or the start of the first. -/
def execRoundBoundary (s : State) : Out :=
  s.atTick (s.boundaryDue true) fun s => if s.band.started then s.crossRound else s.firstCross

/-- CAPACITY_CHANGE (R312). -/
def execCapacityChange (res die cap : Nat) (s : State) : Out :=
  .next (if res < 5 && die < 4 && cap ≤ 1024 then s.setCap res die cap else s)

/-- The instant at which the donation of VF `v` takes effect (R310, R311): none at or after the end of its turn. -/
def State.donationDue (s : State) (v : Nat) : Option Nat :=
  match s.band.donateAt.look v with
  | none => none
  | some ns => if s.band.started && ns < s.band.nextBoundary then some (s.tickOf ns) else none

/-- DONATION_EFFECT (R310). -/
def execDonationEffect (vf : Nat) (s : State) : Out := s.atTick (s.donationDue vf) fun s => s.donate vf

/-! ## Clocks (R317 to R320, R325, R326) -/

/-- The level VF `v` asks of an island: its request, or DEF (R325). -/
def State.levelOf (s : State) (i v : Nat) : Nat := ((s.isl i).reqs.look v).getD (field (s.pfReg (0x9000 + 8 * v)) 10 8)

/-- The target level of an island (R325). -/
def State.levelTarget (s : State) (i : Nat) : Nat :=
  let act := (List.range 8).filter fun v => !(s.rowEntry v).idle
  min 4 (max (act.foldl (fun m v => min m (s.levelOf i v)) 4) (field (s.pfReg (0x9100 + 8 * i)) 2 0))

/-- The instant of an island's next step (R326): a whole µs at which its target differs from its level, 10 µs from the last. -/
def State.stepDue (s : State) (i : Nat) : Option Nat :=
  let x := s.isl i
  if i < 32 && x.powered && !x.relock && s.levelTarget i ≠ x.level then
    let first := match x.lastStep with
      | none => s.time
      | some t => max s.time (t + 10000)
    some (s.tickOf (usFrom first))
  else none

/-- FREQUENCY_STEP (R320, R326): the island runs on its bypass clock while it relocks. -/
def execFrequencyStep (island : Nat) (s : State) : Out :=
  s.atTick (s.stepDue island) fun s =>
    s.reclock island fun x => { x with relock := true, target := s.levelTarget island, lastStep := some s.time }

/-- The instant at which an island's PLL has relocked: 1.6 µs, the typical time, from the step's start (R326; log 23). -/
def State.relockDue (s : State) (i : Nat) : Option Nat :=
  let x := s.isl i
  if x.relock then some (s.tickOf (x.lastStep.getD 0 + 1600)) else none

/-- RELOCK_COMPLETE (R320, R326). -/
def execRelockComplete (island : Nat) (s : State) : Out :=
  s.atTick (s.relockDue island) fun s => s.reclock island fun x => { x with relock := false, level := x.target }

/-- POWER_CAP_HOLD (R326). -/
def execPowerCapHold (island : Nat) (s : State) : Out :=
  .next (if island < 32 then s.modIsl island fun x => { x with capHold := true } else s)

/-- POWER_CAP_RELEASE (R326). -/
def execPowerCapRelease (island : Nat) (s : State) : Out :=
  .next (if island < 32 then s.modIsl island fun x => { x with capHold := false } else s)

/-- NCYC_ANCHOR (R320): at the next multiple of 1,024 ns of TIME. -/
def execNcycAnchor (island : Nat) (s : State) : Out :=
  if 32 ≤ island then .next s
  else s.atTick (some (s.tickOf ((s.time / 1024 + 1) * 1024))) fun s => s.modIsl island fun _ => s.ncycNow island

/-- The instant at which a held NCYC advances again (R320). -/
def State.heldDue (s : State) (i : Nat) : Option Nat :=
  let x := s.ncycNow i
  if x.powered && x.held then some (s.tickOf ((x.ncyc0 / 65536 * 5 + 17) / 18)) else none

/-- NCYC_HELD_CLEAR (R320). -/
def execNcycHeldClear (island : Nat) (s : State) : Out :=
  s.atTick (s.heldDue island) fun s => s.modIsl island fun _ => s.ncycNow island

/-- Every island's NCYC is brought up to date. -/
def State.ncycAll (s : State) : State := (List.range 32).foldl (fun s i => s.modIsl i fun _ => s.ncycNow i) s

/-- Whether no gang has been released since the start (R318). -/
def State.noGangYet (s : State) : Bool := s.launches.all fun p => p.2.released == 0

/-- Ticks in which a slew of `ppm` gains or loses one ns. -/
def slewTicks (ppm : Int) : Nat := 36 * (1000000 / ppm.natAbs)

/-- The instant at which a slew of `ppm` next gains or loses one ns: no nearer to the last than its rate allows (R318). -/
def State.slewDue (s : State) (ppm : Int) : Nat := max s.now (s.slewAt + slewTicks ppm)

/-- What a correction of TIME does at once: a multiple of 1,024 that it leaves has been sampled, and one that it reaches re-anchors every island (R320, R328). -/
def State.correct (s : State) (by' : Int) (back : Bool) : State :=
  let s := if s.time % 1024 = 0 && s.sampled < s.time then s.ncycAll.samplePcs else s.ncycAll
  let t := { s with slew := s.slew + by', timeMin := if back then s.time else s.timeMin }
  if t.time % 1024 = 0 && t.time ≠ s.time then
    { t with islands := t.islands.over fun _ x => if x.powered then x.reanchor t.time else x }
  else t

/-- TIME_CORRECTION (R318): a slew of up to 100 ppm gains one ns of TIME, or holds it back for one; before the first gang TIME may step forward, by the
number of ns given. -/
def execTimeCorrection (ppm : Int) (s : State) : Out :=
  if ppm = 0 then .next s
  else if ppm.natAbs ≤ 100 then
    let t := s.slewDue ppm
    .next { (s.advance t).correct (if ppm < 0 then -1 else 1) (decide (ppm < 0)) with slewAt := t }
  else if 0 < ppm && s.noGangYet then .next (s.correct ppm false)
  else .next s

/-- ISLAND_POWER_DOWN (R319): CYC counts nothing while it is down. -/
def execIslandPowerDown (island : Nat) (s : State) : Out :=
  if 32 ≤ island then .next s
  else
    let x := s.ncycNow island
    .next (s.modIsl island fun _ => { x with cyc0 := s.cyc island, t0 := s.now, anchor := s.now, powered := false })

/-- ISLAND_START (R317, R319). -/
def execIslandStart (island : Nat) (s : State) : Out :=
  if 32 ≤ island || (s.isl island).powered then .next s
  else
    .next (s.modIsl island fun x =>
      { x with t0 := s.now, anchor := s.now, ncyc0 := ncycAnchorOf s.time * 65536, held := false, relock := false, powered := true })

/-! ## Counters and trace (R322, R328 to R330) -/

/-- The instant at which a PCSEL takes effect (R322). -/
def State.pcselDue (s : State) (v j : Nat) : Option Nat := (s.pcselPend.look (8 * v + j)).map fun p => s.tickOf p.2

/-- PCSEL_WRITE (R322). -/
def execPcselWrite (vf j : Nat) (v : Word) (s : State) : Out := .next (if vf < 8 && j < 8 then s.writePcsel vf j v else s)

/-- PCSEL_EFFECT (R322). -/
def execPcselEffect (vf j : Nat) (s : State) : Out :=
  if 8 ≤ j then .next s else s.atTick (s.pcselDue vf j) fun s => s.effectPcsel vf j

/-- The instant at which TRCTL takes effect (R330). -/
def State.trctlDue (s : State) : Option Nat := s.trctlPend.map fun p => s.tickOf p.2

/-- TRCTL_WRITE (R330). -/
def execTrctlWrite (v : Word) (s : State) : Out := .next (s.writeTrctl v)

/-- TRCTL_EFFECT (R330). -/
def execTrctlEffect (s : State) : Out := s.atTick s.trctlDue State.effectTrctl

/-- The instant of the next sample of the counters (R328): now, where a correction of TIME has just reached a multiple of 1,024. -/
def State.sampleDue (s : State) : Option Nat :=
  some (if s.time % 1024 = 0 && s.sampled < s.time then s.now else s.tickOf ((s.time / 1024 + 1) * 1024))

/-- PC_TOTAL_SAMPLE (R328). -/
def execPcTotalSample (s : State) : Out := s.atTick s.sampleDue State.samplePcs

/-- TRACE_STATE_RECORD (R329, R330): a traced slot has changed to a state. -/
def execTraceStateRecord (core slot : Nat) (state : BitVec 3) (s : State) : Out :=
  .next (if s.traced slot && s.traceCode core slot = state.toNat && (s.coreOf core).traceState.look slot ≠ some state then
    s.traceRecord core slot state.toNat else s)

end Sys2Proof.Machine
end

