-- ==== Sys2Proof/Machine/Ports.lean ====
section
/-! DEFINITION. Events of the host, of firmware, of the Kiosk and of the links (R303, R306, R314 to R316, R327, R328, R339, R342, R351 to
R359), and the two ways an instruction fails before it is one (R56, R59). -/

namespace Sys2Proof.Machine

/-! ## The Kiosk (R357 to R359) -/

/-- KIOSK_HALT (R358). -/
def execKioskHalt (cluster : Nat) (s : State) : Out := .next (if cluster < 384 then s.kioskHalt cluster 0 else s)

/-- KIOSK_RESUME (R358, R359). -/
def execKioskResume (cluster : Nat) (s : State) : Out := .next (s.kioskResume cluster)

/-- CROSS_TRIGGER (R357). -/
def execCrossTrigger (s : State) : Out := .next s.crossTrigger

/-- HALT_COMPLETE (R358). -/
def execHaltComplete (cluster : Nat) (s : State) : Out := .next (s.haltDone cluster)

/-! ## The hypervisor's registers (R303, R306, R314, R315, R327) -/

/-- BSCOMMIT (R306). -/
def execBscommit (v : Word) (s : State) : Out := .next (if s.pfOn then s.commit v else s)

/-- BSEPOCH_WRITE (R306). -/
def execBsepochWrite (v : Word) (s : State) : Out := .next (if s.pfOn then s.writeEpoch v else s)

/-- VF_UP (R303, R353). -/
def execVfUp (vf : Nat) (s : State) : Out := .next (if vf < 8 then s.bringUp vf else s)

/-- VF_DOWN (R303). -/
def execVfDown (vf : Nat) (s : State) : Out := .next (if vf < 8 && s.pfOn then s.takeDown vf else s)

/-- VF_RESET (R342). -/
def execVfReset (vf : Nat) (s : State) : Out := .next (if vf < 8 then s.resetVfAll vf else s)

/-- PARTITION_WRITE (R161, R302, R303). -/
def execPartitionWrite (vf off : Nat) (v : Word) (s : State) : Out := .next (if vf < 8 && s.pfOn then s.writePart vf off v else s)

/-- RESIDENCY_WRITE (R314). -/
def execResidencyWrite (e : Nat) (v : Word) (s : State) : Out := .next (if e < 192 && s.pfOn then s.writeRes e v else s)

/-- PWRPOL_WRITE (R327). -/
def execPwrpolWrite (vf : Nat) (v : Word) (s : State) : Out := .next (if vf < 8 && s.pfOn then s.writePwrpol vf v else s)

/-- REGISTER_WRITE (R315, R316, R327, R330, R343, R352, R356, R357): a write of 8 bytes by the host, without a PASID; at an offset that holds
no register, nothing, and nothing before the functions are up (R353). -/
def execRegisterWrite (vf : Option Nat) (off : Nat) (v : Word) (s : State) : Out :=
  match vf with
  | none => .next (if off % 8 = 0 && pfKnown off && s.pfOn then s.writePf off v else s)
  | some u => .next (if off % 8 = 0 && u < 8 && vfKnown off && s.hostOn then s.writeVf u off none true v else s)

/-! ## The supervisor's registers (R316, R328, R339) -/

/-- PREEMPT (R316). -/
def execPreempt (vf : Nat) (handle : Word) (s : State) : Out := .next (if vf < 8 && s.hostOn then s.preempt vf handle else s)

/-- RESUME (R339). -/
def execResume (vf : Nat) (handle : Word) (s : State) : Out := .next (if vf < 8 && s.hostOn then s.resume vf handle else s)

/-- UNFENCE (R339). -/
def execUnfence (vf : Nat) (core : BitVec 13) (s : State) : Out := .next (if vf < 8 && s.hostOn then s.unfence vf core.toNat else s)

/-- KILLGANG (R339). -/
def execKillgang (vf : Nat) (core : BitVec 13) (s : State) : Out :=
  .next (if vf < 8 && validCore core.toNat && s.hostOn then s.killGang vf core.toNat else s)

/-- SYSCHAN_BIND (R316). -/
def execSyschanBind (vf c : Nat) (v : Word) (s : State) : Out := .next (if vf < 8 && c < 4 && s.hostOn then s.bindChan vf c v else s)

/-- A host read of a low register, and what it gives. -/
def State.hostRead (s : State) (vf : Nat) (pasid : Option (BitVec 20)) (j : Nat) : State :=
  match s.readLow vf (pasid.map BitVec.toNat) j with
  | (s', w) => { s' with lastRead := w }

/-- TIMEL_READ (R328). -/
def execTimelRead (vf : Nat) (pasid : Option (BitVec 20)) (s : State) : Out := .next (if vf < 8 && s.hostOn then s.hostRead vf pasid 8 else s)

/-- PCTL_READ (R328). -/
def execPctlRead (vf : Nat) (pasid : Option (BitVec 20)) (j : Nat) (s : State) : Out :=
  .next (if vf < 8 && j < 8 && s.hostOn then s.hostRead vf pasid j else s)

/-! ## Firmware (R351 to R353) -/

/-- Ticks of the 1 s within which an update takes over (R351). -/
def updateTicks : Nat := 36000000000

/-- UPDCMD (R351). -/
def execUpdcmd (v : Word) (s : State) : Out := .next (if s.pfOn then s.startUpdate v else s)

/-- LIVE_UPDATE_TAKEOVER (R351): the updated standby takes over within 1 s, and the other Lodge boots the image as standby; the versions are
those of its image (log 22). -/
def execLiveUpdateTakeover (s : State) : Out :=
  if !s.lodge.updating || s.lodge.since + updateTicks < s.now then .next s
  else
    let w := Config.lodgeVersion s.fresh
    .next { s with fresh := s.fresh + 1, lodge := { s.lodge with west := !s.lodge.west, ready := true, updating := false, result := 1,
                                                                  stVersion := w.extractLsb' 0 16, fwVersion := w.extractLsb' 16 32 } }

/-- The instant at which an update that has not taken over is abandoned (R351). -/
def State.updateDue (s : State) : Option Nat := if s.lodge.updating then some (s.lodge.since + updateTicks) else none

/-- An update is abandoned with a result (R351, R352). -/
def State.abandonUpdate (s : State) (result : BitVec 8) : State :=
  if s.lodge.updating then { s with lodge := { s.lodge with updating := false, result := result } } else s

/-- LIVE_UPDATE_ABANDON (R351): result 2 signature, 3 state-table version, 4 the 1 s without a takeover, to which TIME passes. -/
def execLiveUpdateAbandon (reason : BitVec 8) (s : State) : Out :=
  if reason = 4 then s.atTick s.updateDue fun s => s.abandonUpdate 4
  else .next (if reason = 2 || reason = 3 then s.abandonUpdate reason else s)

/-- LODGE_FAILOVER (R351): the active Lodge fails and the standby takes over from the state table. -/
def execLodgeFailover (s : State) : Out :=
  .next { s with lodge := { s.lodge with west := !s.lodge.west, ready := false, updating := false } }

/-- BOOTCLR (R352). -/
def execBootclr (v : Word) (s : State) : Out := .next (if s.pfOn then s.askClear v else s)

/-- What a start keeps of a die: its repair maps and what is retired (R175, R353). -/
def Die.kept (d : Die) : Die := { busShifts := d.busShifts, busFailed := d.busFailed, busRetired := d.busRetired, chanRetired := d.chanRetired }

/-- The Lodges before a start: BOOTSTAT is kept, or cleared where BOOTCLR asked for it (R352). -/
def Lodge.atStart (l : Lodge) : Lodge :=
  { fails := if l.clearReq then 0 else l.fails, minimal := !l.clearReq && l.minimal, reason := l.reason }

/-- The Lodges after a start that fails with a reason, or completes (R353): a failed start loads no movement program and brings up no function. -/
def Lodge.started (l : Lodge) (failed : Option Byte) : Lodge :=
  match failed with
  | none => { l with fails := 0 }
  | some r => { l with up := false, fails := if l.fails = 3 then 3 else l.fails + 1, minimal := l.minimal || decide (2 ≤ l.fails.toNat), reason := r }

/-- MODULE_START (R352, R353): everything is as State.reset has it but BOOTSTAT, the repair maps and the host's own memory, and the movement program stands
in every slot 0; a failure ends it with its reason, without that program. -/
def execModuleStart (failed : Option (BitVec 8)) (s : State) : Out :=
  if (failed.map fun r => decide (r.toNat < 1) || decide (6 < r.toNat)).getD false then .next s
  else
    let t : State := { State.reset with
      agenda := s.agenda, fresh := s.fresh, hostMem := s.hostMem, devOut := s.devOut, events := s.events, lastRead := s.lastRead,
      dies := s.dies.over fun _ d => d.kept,
      clusters := s.clusters.over fun _ x => { retired := x.retired },
      linksRetired := s.linksRetired, lanesRepaired := s.lanesRepaired,
      lodge := s.lodge.atStart.started failed }
    .next (if failed.isNone then t.loadMovements else t)

/-! ## Links (R354 to R356) -/

/-- Whether two dies, or a die and the I/O die (4), are linked (R354). -/
def linked (a b : Nat) : Bool := a < 4 && (b == a ^^^ 1 || b == a ^^^ 2 || b == 4)

/-- LINK_RETIRE (R312, R354): its traffic takes the other dies, and LINKBW falls on the dies it joins (log 71); the unit number of its RETIRE is log 16's. -/
def execLinkRetire (a b : Nat) (s : State) : Out :=
  if !linked a b || s.linksRetired.elem (a, b) || s.linksRetired.elem (b, a) then .next s
  else
    let s := ({ s with linksRetired := s.linksRetired ++ [(a, b)] }.retireEvent 3 (8 * a + b) (coreAt a 0 0) 0 []).loseCap 2 a
    .next (if b < 4 then s.loseCap 2 b else s)

/-- LANE_REPAIR (R354). -/
def execLaneRepair (a b : Nat) (s : State) : Out :=
  .next (if linked a b && !s.linksRetired.elem (a, b) && !s.linksRetired.elem (b, a) then
    { s with lanesRepaired := s.lanesRepaired ++ [(a, b)] } else s)

/-- Changes port `p`. -/
def State.modPort (s : State) (p : Nat) (f : Port → Port) : State := { s with ports := s.ports.put p (f (s.port p)) }

/-- The replays of a port within the last 1 ms (R355). -/
def State.recentReplays (s : State) (p : Nat) : List Nat := (s.port p).recent.filter fun t => s.now < t + 36000000

/-- FLIT_REPLAY (R355). -/
def execFlitReplay (port : Nat) (s : State) : Out :=
  .next (if port < 16 && !(s.port port).retired && !(s.port port).training then
    s.modPort port fun x => { x with replays := x.replays + 1, recent := s.recentReplays port ++ [s.now] } else s)

/-- PORT_RETRAIN (R355): more than 64 replays within 1 ms, above 50 Gb/s. -/
def execPortRetrain (port : Nat) (s : State) : Out :=
  let x := s.port port
  .next (if port < 16 && !x.retired && !x.training && x.rate < 2 && 64 < (s.recentReplays port).length then
    s.modPort port fun x => { x with rate := x.rate + 1, training := true, recent := [] } else s)

/-- PORT_TRAINING_COMPLETE (R355): the port's held traffic resumes. -/
def execPortTrainingComplete (port : Nat) (s : State) : Out :=
  .next (if port < 16 && (s.port port).training then s.modPort port fun x => { x with training := false } else s)

/-- The LINKDOWN records of a retired port: to the physical function's ring and those of the VFs with a partner (R343, R355). -/
def State.portDown (s : State) (p : Nat) : State :=
  let d : List Word := [BitVec.ofNat 64 (p + (s.port p).remote.toNat * 2 ^ 16), 0]
  ((List.range 8).filter fun v => bit (s.pfReg (0xB300 + 8 * v)) 63).foldl
    (fun s v => s.event v 0x64 0 0 0 (s.rowEntry v).tenant d) (s.event 8 0x64 0 0 0 0 d)

/-- PORT_FAILURE (R312, R355): a port that fails at 50 Gb/s is retired, and LINKBW, which counts Jotar's flit slots, falls (log 71). -/
def execPortFailure (port : Nat) (s : State) : Out :=
  let x := s.port port
  .next (if port < 16 && !x.retired && x.rate = 2 then
    (List.range 4).foldl (fun s d => s.loseCap 2 d)
      (((s.modPort port fun x => { x with retired := true, training := false, rate := 3 }).portDown port).retireEvent 3 (64 + port) 0 0 [])
  else s)

/-! ## Before an instruction is one (R56, R59, R70) -/

/-- ILLEGAL (R56, R70): a word or chain that is no listed instruction, with the first word. -/
def execIllegal (w : Half) (s : State) : Out := .next ((s.modCur fun x => { x with iword := w }).decodeFault .illegal)

/-- INSTRUCTION_FETCH_FAULT (R59, R171): XLATE or PERM at the pc. -/
def execInstructionFetchFault (c : FetchCause) (s : State) : Out :=
  let cause : Cause := match c with
    | .xlate => .xlate
    | .perm => .perm
  .next (s.trapAt cause s.cur.pc s.cur.pc)

end Sys2Proof.Machine
end

