-- ==== Sys2Proof/Machine/Scalar.lean ====
section
/-! DEFINITION. Scalar and predicate instructions, MFS and MTS (R106 to R120). -/

namespace Sys2Proof.Machine

/-! ## Values (R113 to R116) -/

/-- The high half of a signed product (R113). -/
def mulHigh (a b : Word) : Word := BitVec.ofInt 64 (a.toInt * b.toInt / 2 ^ 64)

/-- The high half of an unsigned product (R113). -/
def mulHighU (a b : Word) : Word := BitVec.ofNat 64 (a.toNat * b.toNat / 2 ^ 64)

/-- DIV (R114). -/
def divS (a b : Word) : Word :=
  if b = 0 then BitVec.allOnes 64 else BitVec.ofInt 64 (a.toInt.tdiv b.toInt)

/-- REM (R114). -/
def remS (a b : Word) : Word := if b = 0 then a else BitVec.ofInt 64 (a.toInt.tmod b.toInt)

/-- DIVU (R114). -/
def divU (a b : Word) : Word := if b = 0 then BitVec.allOnes 64 else BitVec.ofNat 64 (a.toNat / b.toNat)

/-- REMU (R114). -/
def remU (a b : Word) : Word := if b = 0 then a else BitVec.ofNat 64 (a.toNat % b.toNat)

/-- The number of zero bits above the highest one bit among the low `n` bits. -/
def leadZeros {w : Nat} (v : BitVec w) : Nat → Nat
  | 0 => 0
  | n + 1 => if v.getLsbD n then 0 else leadZeros v n + 1

/-- CTZ (R115). -/
def trailZeros (v : Word) : Nat := ((List.range 64).find? fun i => v.getLsbD i).getD 64

/-- The number of one bits (R115). -/
def onesIn {w : Nat} (v : BitVec w) : Nat := ((List.range w).filter fun i => v.getLsbD i).length

/-- BREV (R115). -/
def reversed (v : Word) : Word :=
  BitVec.ofNat 64 ((List.range 64).foldl (fun n i => if v.getLsbD (63 - i) then n ||| 2 ^ i else n) 0)

/-- A field of a word: position and width (R116). -/
def fieldAt (b : Word) (pos w1 : BitVec 6) : Nat := b.toNat / 2 ^ pos.toNat % 2 ^ (w1.toNat + 1)

/-- A `w`-bit number read as a signed one. -/
def signedOf (w x : Nat) : Int := if x < 2 ^ (w - 1) then x else (x : Int) - 2 ^ w

/-- INS (R116). -/
def inserted (a b : Word) (pos w1 : BitVec 6) : Word :=
  BitVec.ofNat 64 (a.toNat - fieldAt a pos w1 * 2 ^ pos.toNat + b.toNat % 2 ^ (w1.toNat + 1) * 2 ^ pos.toNat)

/-- The width of a width code in bits (R116). -/
def Width.bits : Width → Nat
  | .b => 8 | .h => 16 | .w => 32 | .d => 64

/-! ## Moves, arithmetic, bits and shifts -/

/-- NOP does nothing (R112). -/
def execNop (g : Pred) (s : State) : Out :=
  guarded g s (.next s.retire)

/-- MOV (R112). -/
def execMov (g : Pred) (d : Reg) (a : SSrc) (s : State) : Out :=
  scalarResult g s 2 d (s.ssrc a)

/-- MOVI (R112). -/
def execMovi (g : Pred) (d : Reg) (imm : BitVec 35) (s : State) : Out :=
  scalarResult g s 2 d (simm imm)

/-- LEA (R112). -/
def execLea (g : Pred) (d : Reg) (imm : BitVec 35) (s : State) : Out :=
  scalarResult g s 2 d (s.cur.pc + simm imm)

/-- ADD (R113). -/
def execAdd (g : Pred) (d : Reg) (a b : SSrc) (s : State) : Out :=
  scalarResult g s 2 d (s.ssrc a + s.ssrc b)

/-- SUB (R113). -/
def execSub (g : Pred) (d : Reg) (a b : SSrc) (s : State) : Out :=
  scalarResult g s 2 d (s.ssrc a - s.ssrc b)

/-- MUL (R113). -/
def execMul (g : Pred) (d : Reg) (a b : SSrc) (s : State) : Out :=
  scalarResult g s 5 d (s.ssrc a * s.ssrc b)

/-- AND (R115). -/
def execAnd (g : Pred) (d : Reg) (a b : SSrc) (s : State) : Out :=
  scalarResult g s 2 d (s.ssrc a &&& s.ssrc b)

/-- OR (R115). -/
def execOr (g : Pred) (d : Reg) (a b : SSrc) (s : State) : Out :=
  scalarResult g s 2 d (s.ssrc a ||| s.ssrc b)

/-- XOR (R115). -/
def execXor (g : Pred) (d : Reg) (a b : SSrc) (s : State) : Out :=
  scalarResult g s 2 d (s.ssrc a ^^^ s.ssrc b)

/-- SHL (R115). -/
def execShl (g : Pred) (d : Reg) (a b : SSrc) (s : State) : Out :=
  scalarResult g s 2 d (s.ssrc a <<< ((s.ssrc b).toNat % 64))

/-- SHR (R115). -/
def execShr (g : Pred) (d : Reg) (a b : SSrc) (s : State) : Out :=
  scalarResult g s 2 d (s.ssrc a >>> ((s.ssrc b).toNat % 64))

/-- SAR (R115). -/
def execSar (g : Pred) (d : Reg) (a b : SSrc) (s : State) : Out :=
  scalarResult g s 2 d ((s.ssrc a).sshiftRight ((s.ssrc b).toNat % 64))

/-- SEL (R117). -/
def execSel (g : Pred) (d : Reg) (a b : SSrc) (s : State) : Out :=
  scalarResult g s 2 d (if (s.preg 0).getLsbD 0 then s.ssrc a else s.ssrc b)

/-- MULH (R113). -/
def execMulh (g : Pred) (d : Reg) (a b : SSrc) (s : State) : Out :=
  scalarResult g s 5 d (mulHigh (s.ssrc a) (s.ssrc b))

/-- MULHU (R113). -/
def execMulhu (g : Pred) (d : Reg) (a b : SSrc) (s : State) : Out :=
  scalarResult g s 5 d (mulHighU (s.ssrc a) (s.ssrc b))

/-- MIN (R113). -/
def execMin (g : Pred) (d : Reg) (a b : SSrc) (s : State) : Out :=
  scalarResult g s 2 d (if (s.ssrc a).toInt ≤ (s.ssrc b).toInt then s.ssrc a else s.ssrc b)

/-- MAX (R113). -/
def execMax (g : Pred) (d : Reg) (a b : SSrc) (s : State) : Out :=
  scalarResult g s 2 d (if (s.ssrc a).toInt ≤ (s.ssrc b).toInt then s.ssrc b else s.ssrc a)

/-- MINU (R113). -/
def execMinu (g : Pred) (d : Reg) (a b : SSrc) (s : State) : Out :=
  scalarResult g s 2 d (if (s.ssrc a).toNat ≤ (s.ssrc b).toNat then s.ssrc a else s.ssrc b)

/-- MAXU (R113). -/
def execMaxu (g : Pred) (d : Reg) (a b : SSrc) (s : State) : Out :=
  scalarResult g s 2 d (if (s.ssrc a).toNat ≤ (s.ssrc b).toNat then s.ssrc b else s.ssrc a)

/-- ROTL (R115). -/
def execRotl (g : Pred) (d : Reg) (a b : SSrc) (s : State) : Out :=
  scalarResult g s 2 d ((s.ssrc a).rotateLeft ((s.ssrc b).toNat % 64))

/-- ADDI (R113). -/
def execAddi (g : Pred) (d : Reg) (imm : BitVec 35) (s : State) : Out :=
  scalarResult g s 2 d (s.sreg d + simm imm)

/-- ANDI (R115). -/
def execAndi (g : Pred) (d : Reg) (imm : BitVec 35) (s : State) : Out :=
  scalarResult g s 2 d (s.sreg d &&& simm imm)

/-- ORI (R115). -/
def execOri (g : Pred) (d : Reg) (imm : BitVec 35) (s : State) : Out :=
  scalarResult g s 2 d (s.sreg d ||| uimm imm)

/-- SHLI (R115). -/
def execShli (g : Pred) (d : Reg) (n : BitVec 6) (s : State) : Out :=
  scalarResult g s 2 d (s.sreg d <<< n.toNat)

/-- SHRI (R115). -/
def execShri (g : Pred) (d : Reg) (n : BitVec 6) (s : State) : Out :=
  scalarResult g s 2 d (s.sreg d >>> n.toNat)

/-- SARI (R115). -/
def execSari (g : Pred) (d : Reg) (n : BitVec 6) (s : State) : Out :=
  scalarResult g s 2 d ((s.sreg d).sshiftRight n.toNat)

/-- DIV (R110, R114). -/
def execDiv (g : Pred) (d : Reg) (a b : SSrc) (s : State) : Out :=
  divideResult g s d (divS (s.ssrc a) (s.ssrc b))

/-- DIVU (R110, R114). -/
def execDivu (g : Pred) (d : Reg) (a b : SSrc) (s : State) : Out :=
  divideResult g s d (divU (s.ssrc a) (s.ssrc b))

/-- REM (R110, R114). -/
def execRem (g : Pred) (d : Reg) (a b : SSrc) (s : State) : Out :=
  divideResult g s d (remS (s.ssrc a) (s.ssrc b))

/-- REMU (R110, R114). -/
def execRemu (g : Pred) (d : Reg) (a b : SSrc) (s : State) : Out :=
  divideResult g s d (remU (s.ssrc a) (s.ssrc b))

/-- ABS (R113). -/
def execAbs (g : Pred) (d : Reg) (b : SSrc) (s : State) : Out :=
  scalarResult g s 2 d (BitVec.ofNat 64 (s.ssrc b).toInt.natAbs)

/-- NEG (R113). -/
def execNeg (g : Pred) (d : Reg) (b : SSrc) (s : State) : Out :=
  scalarResult g s 2 d (-(s.ssrc b))

/-- CLZ (R115). -/
def execClz (g : Pred) (d : Reg) (b : SSrc) (s : State) : Out :=
  scalarResult g s 3 d (BitVec.ofNat 64 (leadZeros (s.ssrc b) 64))

/-- CTZ (R115). -/
def execCtz (g : Pred) (d : Reg) (b : SSrc) (s : State) : Out :=
  scalarResult g s 3 d (BitVec.ofNat 64 (trailZeros (s.ssrc b)))

/-- POPC (R115). -/
def execPopc (g : Pred) (d : Reg) (b : SSrc) (s : State) : Out :=
  scalarResult g s 3 d (BitVec.ofNat 64 (onesIn (s.ssrc b)))

/-- BREV (R115). -/
def execBrev (g : Pred) (d : Reg) (b : SSrc) (s : State) : Out :=
  scalarResult g s 3 d (reversed (s.ssrc b))

/-- EXT (R116). -/
def execExt (g : Pred) (d : Reg) (b : SSrc) (pos w1 : BitVec 6) (s : State) : Out :=
  scalarResult g s 2 d (BitVec.ofInt 64 (signedOf (w1.toNat + 1) (fieldAt (s.ssrc b) pos w1)))

/-- EXTU (R116). -/
def execExtu (g : Pred) (d : Reg) (b : SSrc) (pos w1 : BitVec 6) (s : State) : Out :=
  scalarResult g s 2 d (BitVec.ofNat 64 (fieldAt (s.ssrc b) pos w1))

/-- INS (R116). -/
def execIns (g : Pred) (d : Reg) (b : SSrc) (pos w1 : BitVec 6) (s : State) : Out :=
  scalarResult g s 2 d (inserted (s.sreg d) (s.ssrc b) pos w1)

/-- SEXT (R116). -/
def execSext (g : Pred) (d : Reg) (b : SSrc) (wd : Width) (s : State) : Out :=
  scalarResult g s 2 d (BitVec.ofInt 64 (signedOf (Width.bits wd) ((s.ssrc b).toNat % 2 ^ Width.bits wd)))

/-- ZEXT (R116). -/
def execZext (g : Pred) (d : Reg) (b : SSrc) (wd : Width) (s : State) : Out :=
  scalarResult g s 2 d (BitVec.ofNat 64 ((s.ssrc b).toNat % 2 ^ Width.bits wd))

/-! ## Compares (R118) -/

/-- CMPEQ (R118). -/
def execCmpeq (g : Pred) (d : PReg) (a b : SSrc) (s : State) : Out :=
  predResult g s d (allBits (s.ssrc a == s.ssrc b))

/-- CMPNE (R118). -/
def execCmpne (g : Pred) (d : PReg) (a b : SSrc) (s : State) : Out :=
  predResult g s d (allBits (s.ssrc a != s.ssrc b))

/-- CMPLT (R118). -/
def execCmplt (g : Pred) (d : PReg) (a b : SSrc) (s : State) : Out :=
  predResult g s d (allBits (decide ((s.ssrc a).toInt < (s.ssrc b).toInt)))

/-- CMPGE (R118). -/
def execCmpge (g : Pred) (d : PReg) (a b : SSrc) (s : State) : Out :=
  predResult g s d (allBits (decide ((s.ssrc b).toInt ≤ (s.ssrc a).toInt)))

/-- CMPLTU (R118). -/
def execCmpltu (g : Pred) (d : PReg) (a b : SSrc) (s : State) : Out :=
  predResult g s d (allBits (decide ((s.ssrc a).toNat < (s.ssrc b).toNat)))

/-- CMPGEU (R118). -/
def execCmpgeu (g : Pred) (d : PReg) (a b : SSrc) (s : State) : Out :=
  predResult g s d (allBits (decide ((s.ssrc b).toNat ≤ (s.ssrc a).toNat)))

/-- CMPEQI (R118). -/
def execCmpeqi (g : Pred) (d : PReg) (a : SSrc) (imm : BitVec 35) (s : State) : Out :=
  predResult g s d (allBits (s.ssrc a == simm imm))

/-- CMPLTI (R118). -/
def execCmplti (g : Pred) (d : PReg) (a : SSrc) (imm : BitVec 35) (s : State) : Out :=
  predResult g s d (allBits (decide ((s.ssrc a).toInt < (simm imm).toInt)))

/-- CMPLTUI (R118). -/
def execCmpltui (g : Pred) (d : PReg) (a : SSrc) (imm : BitVec 35) (s : State) : Out :=
  predResult g s d (allBits (decide ((s.ssrc a).toNat < (uimm imm).toNat)))

/-! ## Predicates (R119) -/

/-- PAND (R119). -/
def execPand (g : Pred) (d a b : PReg) (s : State) : Out :=
  predResult g s d (s.preg a &&& s.preg b)

/-- POR (R119). -/
def execPor (g : Pred) (d a b : PReg) (s : State) : Out :=
  predResult g s d (s.preg a ||| s.preg b)

/-- PXOR (R119). -/
def execPxor (g : Pred) (d a b : PReg) (s : State) : Out :=
  predResult g s d (s.preg a ^^^ s.preg b)

/-- PNOT (R119). -/
def execPnot (g : Pred) (d b : PReg) (s : State) : Out :=
  predResult g s d (~~~ (s.preg b))

/-- PSET (R119). -/
def execPset (g : Pred) (d : PReg) (imm : BitVec 16) (s : State) : Out :=
  predResult g s d imm

/-- PMOVS (R119). -/
def execPmovs (g : Pred) (d : Reg) (b : PReg) (s : State) : Out :=
  scalarResult g s 2 d (uimm (s.preg b))

/-- PMOVP (R119). -/
def execPmovp (g : Pred) (d : PReg) (b : SSrc) (s : State) : Out :=
  predResult g s d ((s.ssrc b).setWidth 16)

/-! ## System registers (R120) -/

/-- MFS (R120). -/
def execMfs (g : Pred) (d : Reg) (n : SysReg) (s : State) : Out :=
  scalarResult g s 3 d (s.readSys n)

/-- MTS (R95, R120): below the register's write level PRIV, whatever the predicate (R59 step 5 precedes it); the loop registers act on
the instructions that follow. -/
def execMts (g : Pred) (n : SysReg) (a : SSrc) (s : State) : Out :=
  if s.cur.pl.toNat < sysLevel n then .next (s.decodeFault .priv)
  else guarded g s (.next (s.retire.writeSys n (s.ssrc a)))

end Sys2Proof.Machine
end

