-- ==== Sys2Proof/Machine/Vector.lean ====
section
/-! DEFINITION. Integer vector instructions and lane moves (R121 to R127, R138, R139). -/

namespace Sys2Proof.Machine

/-! ## Lane values (R125, R126) -/

/-- A number clamped to a range. -/
def clampInt (lo hi x : Int) : Int := max lo (min hi x)

/-- The high half of a product of lanes, signed or unsigned (R125). -/
def laneMulHigh (u : Bool) (a b : Lane) : Lane :=
  if u then BitVec.ofNat 32 (a.toNat * b.toNat / 2 ^ 32) else BitVec.ofInt 32 (a.toInt * b.toInt / 2 ^ 32)

/-- VADDSAT (R126). -/
def laneAddSat (u : Bool) (a b : Lane) : Lane :=
  if u then BitVec.ofNat 32 (min (a.toNat + b.toNat) (2 ^ 32 - 1))
  else BitVec.ofInt 32 (clampInt (-2 ^ 31) (2 ^ 31 - 1) (a.toInt + b.toInt))

/-- VSUBSAT (R126). -/
def laneSubSat (u : Bool) (a b : Lane) : Lane :=
  if u then BitVec.ofNat 32 (a.toNat - b.toNat)
  else BitVec.ofInt 32 (clampInt (-2 ^ 31) (2 ^ 31 - 1) (a.toInt - b.toInt))

/-- A byte of a lane, signed or unsigned. -/
def laneByte (signed : Bool) (a : Lane) (j : Nat) : Int :=
  let x := a.toNat / 2 ^ (8 * j) % 256
  if signed then signedOf 8 x else x

/-- VDOT4 (R126). -/
def laneDot4 (mode : DotMode) (d a b : Lane) : Lane :=
  let x := mode != .uu
  let y := mode == .ss
  BitVec.ofInt 32 (d.toInt + ((List.range 4).map fun j => laneByte x a j * laneByte y b j).sum)

/-- The signed lesser of two lanes, or the greater. -/
def laneMin (a b : Lane) : Lane := if a.toInt ≤ b.toInt then a else b
/-- The signed greater of two lanes. -/
def laneMax (a b : Lane) : Lane := if a.toInt ≤ b.toInt then b else a
/-- The unsigned lesser of two lanes. -/
def laneMinU (a b : Lane) : Lane := if a.toNat ≤ b.toNat then a else b
/-- The unsigned greater of two lanes. -/
def laneMaxU (a b : Lane) : Lane := if a.toNat ≤ b.toNat then b else a

/-- A register shift count of a lane (R125). -/
def laneCount (b : Lane) : Nat := b.toNat % 32

/-! ## Integer lanes -/

/-- VADD (R125). -/
def execVadd (g : Pred) (d : Reg) (a b : VSrc) (s : State) : Out :=
  vectorResult g s 2 d (zipLanes (· + ·) (s.vsrc a) (s.vsrc b))

/-- VSUB (R125). -/
def execVsub (g : Pred) (d : Reg) (a b : VSrc) (s : State) : Out :=
  vectorResult g s 2 d (zipLanes (· - ·) (s.vsrc a) (s.vsrc b))

/-- VMUL (R125). -/
def execVmul (g : Pred) (d : Reg) (a b : VSrc) (s : State) : Out :=
  vectorResult g s 5 d (zipLanes (· * ·) (s.vsrc a) (s.vsrc b))

/-- VAND (R125). -/
def execVand (g : Pred) (d : Reg) (a b : VSrc) (s : State) : Out :=
  vectorResult g s 2 d (zipLanes (· &&& ·) (s.vsrc a) (s.vsrc b))

/-- VOR (R125). -/
def execVor (g : Pred) (d : Reg) (a b : VSrc) (s : State) : Out :=
  vectorResult g s 2 d (zipLanes (· ||| ·) (s.vsrc a) (s.vsrc b))

/-- VXOR (R125). -/
def execVxor (g : Pred) (d : Reg) (a b : VSrc) (s : State) : Out :=
  vectorResult g s 2 d (zipLanes (· ^^^ ·) (s.vsrc a) (s.vsrc b))

/-- VSHL (R125). -/
def execVshl (g : Pred) (d : Reg) (a b : VSrc) (s : State) : Out :=
  vectorResult g s 2 d (zipLanes (fun x n => x <<< laneCount n) (s.vsrc a) (s.vsrc b))

/-- VSHR (R125). -/
def execVshr (g : Pred) (d : Reg) (a b : VSrc) (s : State) : Out :=
  vectorResult g s 2 d (zipLanes (fun x n => x >>> laneCount n) (s.vsrc a) (s.vsrc b))

/-- VSAR (R125). -/
def execVsar (g : Pred) (d : Reg) (a b : VSrc) (s : State) : Out :=
  vectorResult g s 2 d (zipLanes (fun x n => x.sshiftRight (laneCount n)) (s.vsrc a) (s.vsrc b))

/-- VMIN (R125). -/
def execVmin (g : Pred) (d : Reg) (a b : VSrc) (s : State) : Out :=
  vectorResult g s 2 d (zipLanes laneMin (s.vsrc a) (s.vsrc b))

/-- VMAX (R125). -/
def execVmax (g : Pred) (d : Reg) (a b : VSrc) (s : State) : Out :=
  vectorResult g s 2 d (zipLanes laneMax (s.vsrc a) (s.vsrc b))

/-- VMINU (R125). -/
def execVminu (g : Pred) (d : Reg) (a b : VSrc) (s : State) : Out :=
  vectorResult g s 2 d (zipLanes laneMinU (s.vsrc a) (s.vsrc b))

/-- VMAXU (R125). -/
def execVmaxu (g : Pred) (d : Reg) (a b : VSrc) (s : State) : Out :=
  vectorResult g s 2 d (zipLanes laneMaxU (s.vsrc a) (s.vsrc b))

/-- VMOV (R125). -/
def execVmov (g : Pred) (d : Reg) (b : VSrc) (s : State) : Out :=
  vectorResult g s 2 d (s.vsrc b)

/-- VBCAST (R125). -/
def execVbcast (g : Pred) (d : Reg) (b : SSrc) (s : State) : Out :=
  vectorResult g s 2 d (ofLanes fun _ => (s.ssrc b).setWidth 32)

/-- VSHLI (R125). -/
def execVshli (g : Pred) (d : Reg) (n : BitVec 5) (s : State) : Out :=
  vectorResult g s 2 d (mapLanes (fun x => x <<< n.toNat) (s.vreg d))

/-- VSHRI (R125). -/
def execVshri (g : Pred) (d : Reg) (n : BitVec 5) (s : State) : Out :=
  vectorResult g s 2 d (mapLanes (fun x => x >>> n.toNat) (s.vreg d))

/-- VSARI (R125). -/
def execVsari (g : Pred) (d : Reg) (n : BitVec 5) (s : State) : Out :=
  vectorResult g s 2 d (mapLanes (fun x => x.sshiftRight n.toNat) (s.vreg d))

/-- VADDI (R125). -/
def execVaddi (g : Pred) (d : Reg) (imm : BitVec 32) (s : State) : Out :=
  vectorResult g s 2 d (mapLanes (· + imm) (s.vreg d))

/-- VMULH (R125). -/
def execVmulh (g : Pred) (d : Reg) (a b : VSrc) (u : Bool) (s : State) : Out :=
  vectorResult g s 5 d (zipLanes (laneMulHigh u) (s.vsrc a) (s.vsrc b))

/-- VMAD (R126). -/
def execVmad (g : Pred) (d : Reg) (a b : VSrc) (s : State) : Out :=
  vectorResult g s 5 d (ofLanes fun i => lane (s.vreg d) i + lane (s.vsrc a) i * lane (s.vsrc b) i)

/-- VABS (R125). -/
def execVabs (g : Pred) (d : Reg) (b : VSrc) (s : State) : Out :=
  vectorResult g s 2 d (mapLanes (fun x => BitVec.ofNat 32 x.toInt.natAbs) (s.vsrc b))

/-- VNEG (R125). -/
def execVneg (g : Pred) (d : Reg) (b : VSrc) (s : State) : Out :=
  vectorResult g s 2 d (mapLanes (fun x => -x) (s.vsrc b))

/-- VADDSAT (R126). -/
def execVaddsat (g : Pred) (d : Reg) (a b : VSrc) (u : Bool) (s : State) : Out :=
  vectorResult g s 2 d (zipLanes (laneAddSat u) (s.vsrc a) (s.vsrc b))

/-- VSUBSAT (R126). -/
def execVsubsat (g : Pred) (d : Reg) (a b : VSrc) (u : Bool) (s : State) : Out :=
  vectorResult g s 2 d (zipLanes (laneSubSat u) (s.vsrc a) (s.vsrc b))

/-- VPOPC (R125). -/
def execVpopc (g : Pred) (d : Reg) (b : VSrc) (s : State) : Out :=
  vectorResult g s 3 d (mapLanes (fun x => BitVec.ofNat 32 (onesIn x)) (s.vsrc b))

/-- VCLZ (R125). -/
def execVclz (g : Pred) (d : Reg) (b : VSrc) (s : State) : Out :=
  vectorResult g s 3 d (mapLanes (fun x => BitVec.ofNat 32 (leadZeros x 32)) (s.vsrc b))

/-- VDOT4 (R126). -/
def execVdot4 (g : Pred) (d : Reg) (a b : VSrc) (mode : DotMode) (s : State) : Out :=
  vectorResult g s 5 d (ofLanes fun i => laneDot4 mode (lane (s.vreg d) i) (lane (s.vsrc a) i) (lane (s.vsrc b) i))

/-- VSEL (R127). -/
def execVsel (g : Pred) (d : Reg) (a b : VSrc) (s : State) : Out :=
  vectorResult g s 2 d (ofLanes fun i => if (s.preg 0).getLsbD i then lane (s.vsrc a) i else lane (s.vsrc b) i)

/-! ## Compares (R127) -/

/-- VCMPEQ (R127). -/
def execVcmpeq (g : Pred) (d : PReg) (a b : VSrc) (s : State) : Out :=
  maskResult g s d fun i => lane (s.vsrc a) i == lane (s.vsrc b) i

/-- VCMPNE (R127). -/
def execVcmpne (g : Pred) (d : PReg) (a b : VSrc) (s : State) : Out :=
  maskResult g s d fun i => lane (s.vsrc a) i != lane (s.vsrc b) i

/-- VCMPLT (R127). -/
def execVcmplt (g : Pred) (d : PReg) (a b : VSrc) (s : State) : Out :=
  maskResult g s d fun i => decide ((lane (s.vsrc a) i).toInt < (lane (s.vsrc b) i).toInt)

/-- VCMPGE (R127). -/
def execVcmpge (g : Pred) (d : PReg) (a b : VSrc) (s : State) : Out :=
  maskResult g s d fun i => decide ((lane (s.vsrc b) i).toInt ≤ (lane (s.vsrc a) i).toInt)

/-- VCMPLTU (R127). -/
def execVcmpltu (g : Pred) (d : PReg) (a b : VSrc) (s : State) : Out :=
  maskResult g s d fun i => decide ((lane (s.vsrc a) i).toNat < (lane (s.vsrc b) i).toNat)

/-- VCMPGEU (R127). -/
def execVcmpgeu (g : Pred) (d : PReg) (a b : VSrc) (s : State) : Out :=
  maskResult g s d fun i => decide ((lane (s.vsrc b) i).toNat ≤ (lane (s.vsrc a) i).toNat)

/-! ## Lane moves (R138, R139) -/

/-- A lane saturated to `w` bits (R139). -/
def saturate (sat : Sat) (w : Nat) (a : Lane) : Nat :=
  match sat with
  | .trunc => a.toNat % 2 ^ w
  | .signed => (clampInt (-2 ^ (w - 1)) (2 ^ (w - 1) - 1) a.toInt % 2 ^ w).toNat
  | .unsigned => (clampInt 0 (2 ^ w - 1) a.toInt).toNat

/-- Elements of width `w` put together: element `k` is `f k`, for `k` below `n`. -/
def packElems (w : Nat) (f : Nat → Nat) : Nat → Nat
  | 0 => 0
  | n + 1 => packElems w f n + f n % 2 ^ w * 2 ^ (w * n)

/-- 64 FP6 codes of bytes as the two planes of R74 (R139 mode 2). -/
def packFp6 (a : Vec) : Vec :=
  let c (k : Nat) : Nat := elem a 8 k % 64
  let plane1 := packElems 8 (fun j => c (2 * j) / 4 + c (2 * j + 1) / 4 * 16) 32
  let plane2 := packElems 8 (fun j =>
    c (4 * j) % 4 + c (4 * j + 1) % 4 * 4 + c (4 * j + 2) % 4 * 16 + c (4 * j + 3) % 4 * 64) 16
  BitVec.ofNat 512 (plane1 + plane2 * 2 ^ 256)

/-- The inverse (R139). -/
def unpackFp6 (b : Vec) : Vec :=
  BitVec.ofNat 512 (packElems 8 (fun k => elem b 4 k * 4 + elem b 8 (32 + k / 4) / 2 ^ (2 * (k % 4)) % 4) 64)

/-- The 32 saturated values of VPACK modes 0 and 1. -/
def packed (sat : Sat) (w : Nat) (a b : Vec) : Vec :=
  BitVec.ofNat 512 (packElems w (fun k => saturate sat w (if k < 16 then lane a k else lane b (k - 16))) 32)

/-- An element extended into a lane. -/
def extended (signed : Bool) (w x : Nat) : Lane := if signed then BitVec.ofInt 32 (signedOf w x) else BitVec.ofNat 32 x

/-- VPERM (R138). -/
def execVperm (g : Pred) (d : Reg) (a b : VSrc) (s : State) : Out :=
  vectorResult g s 3 d (ofLanes fun i => lane (s.vsrc a) ((lane (s.vsrc b) i).toNat % 16))

/-- VROTL (R138). -/
def execVrotl (g : Pred) (d : Reg) (a : VSrc) (b : SSrc) (s : State) : Out :=
  vectorResult g s 3 d (ofLanes fun i => lane (s.vsrc a) ((i + 16 - (s.ssrc b).toNat % 16) % 16))

/-- VEXTR (R138). -/
def execVextr (g : Pred) (d : Reg) (a : VSrc) (b : SSrc) (sg : Bool) (s : State) : Out :=
  scalarResult g s 3 d
    (if sg then (lane (s.vsrc a) ((s.ssrc b).toNat % 16)).signExtend 64 else (lane (s.vsrc a) ((s.ssrc b).toNat % 16)).setWidth 64)

/-- VINS (R138): the other lanes keep their values. -/
def execVins (g : Pred) (d : Reg) (a b : SSrc) (s : State) : Out :=
  guarded g s (.next (s.putV 3 d (BitVec.ofNat 16 (2 ^ ((s.ssrc b).toNat % 16))) (ofLanes fun _ => (s.ssrc a).setWidth 32)).retire)

/-- VPACK (R139). -/
def execVpack (g : Pred) (d : Reg) (a b : VSrc) (mode : BitVec 2) (sat : Sat) (s : State) : Out :=
  vectorResult g s 3 d
    (if mode = 0 then packed sat 16 (s.vsrc a) (s.vsrc b) else if mode = 1 then packed sat 8 (s.vsrc a) (s.vsrc b) else packFp6 (s.vsrc a))

/-- VUNPK (R139). -/
def execVunpk (g : Pred) (d : Reg) (b : VSrc) (mode part : BitVec 2) (sg : Bool) (s : State) : Out :=
  vectorResult g s 3 d
    (if mode = 0 then ofLanes fun i => extended sg 16 (elem (s.vsrc b) 16 (16 * part.toNat + i))
     else if mode = 1 then ofLanes fun i => extended sg 8 (elem (s.vsrc b) 8 (16 * part.toNat + i))
     else unpackFp6 (s.vsrc b))

end Sys2Proof.Machine
end

