-- ==== Sys2Proof/Machine/VFloat.lean ====
section
/-! DEFINITION. Float vector instructions and conversions (R128 to R137, R140, R141). TBLLD stands with the memory operations. -/

namespace Sys2Proof.Machine

/-- Pairs of a level of a tree (R84): a pair with one member absent passes the other up unchanged. -/
def pairUp (f : Lane → Lane → Lane × FFlags) : List (Option Lane) → List (Option Lane) × FFlags
  | [] => ([], 0)
  | [x] => ([x], 0)
  | x :: y :: l =>
    let (r, fl) := pairUp f l
    match x, y with
    | some a, some b => (some (f a b).1 :: r, (f a b).2 ||| fl)
    | some a, none => (some a :: r, fl)
    | none, z => (z :: r, fl)

/-- A tree over a list, `n` levels deep (R84, R91). -/
def treeOf (f : Lane → Lane → Lane × FFlags) : Nat → List (Option Lane) → Option Lane × FFlags
  | 0, l => (l.head?.join, 0)
  | n + 1, l =>
    let (l', fl) := pairUp f l
    let (r, fl') := treeOf f n l'
    (r, fl ||| fl')

/-- The lanes of a vector that act, the others absent (R122). -/
def present (m : BitVec 16) (b : Vec) : List (Option Lane) :=
  (List.range 16).map fun i => if m.getLsbD i then some (lane b i) else none

/-- A reduction writes lane 0 and clears the others (R132). -/
def reduceResult (g : Pred) (s : State) (lat : Nat) (d : Reg) (r : Option Lane × FFlags) (empty : Lane) : Out :=
  guarded g s (.next ((s.putV lat d 0xFFFF (ofLanes fun i => if i = 0 then r.1.getD empty else 0)).addFlags r.2).retire)

/-! ## Arithmetic (R128, R129) -/

/-- VFADD (R128). -/
def execVfadd (g : Pred) (d : Reg) (a b : VSrc) (r : Rnd) (s : State) : Out :=
  floatResult g s 6 d fun i => fadd r (lane (s.vsrc a) i) (lane (s.vsrc b) i)

/-- VFSUB (R128). -/
def execVfsub (g : Pred) (d : Reg) (a b : VSrc) (r : Rnd) (s : State) : Out :=
  floatResult g s 6 d fun i => fsub r (lane (s.vsrc a) i) (lane (s.vsrc b) i)

/-- VFMUL (R128). -/
def execVfmul (g : Pred) (d : Reg) (a b : VSrc) (r : Rnd) (s : State) : Out :=
  floatResult g s 6 d fun i => fmul r (lane (s.vsrc a) i) (lane (s.vsrc b) i)

/-- VFFMA (R128). -/
def execVffma (g : Pred) (d : Reg) (a b : VSrc) (r : Rnd) (s : State) : Out :=
  floatResult g s 6 d fun i => ffma r false false (lane (s.vsrc a) i) (lane (s.vsrc b) i) (lane (s.vreg d) i)

/-- VFFMS (R128). -/
def execVffms (g : Pred) (d : Reg) (a b : VSrc) (r : Rnd) (s : State) : Out :=
  floatResult g s 6 d fun i => ffma r false true (lane (s.vsrc a) i) (lane (s.vsrc b) i) (lane (s.vreg d) i)

/-- VFFNMA (R128). -/
def execVffnma (g : Pred) (d : Reg) (a b : VSrc) (r : Rnd) (s : State) : Out :=
  floatResult g s 6 d fun i => ffma r true false (lane (s.vsrc a) i) (lane (s.vsrc b) i) (lane (s.vreg d) i)

/-- VFDIV (R123, R129). -/
def execVfdiv (g : Pred) (d : Reg) (a b : VSrc) (r : Rnd) (s : State) : Out :=
  floatDivide g s d fun i => fdiv r (lane (s.vsrc a) i) (lane (s.vsrc b) i)

/-- VFSQRT (R123, R129). -/
def execVfsqrt (g : Pred) (d : Reg) (b : VSrc) (r : Rnd) (s : State) : Out :=
  floatDivide g s d fun i => fsqrt r (lane (s.vsrc b) i)

/-- VFMIN (R129). -/
def execVfmin (g : Pred) (d : Reg) (a b : VSrc) (s : State) : Out :=
  floatResult g s 3 d fun i => fpick false (lane (s.vsrc a) i) (lane (s.vsrc b) i)

/-- VFMAX (R129). -/
def execVfmax (g : Pred) (d : Reg) (a b : VSrc) (s : State) : Out :=
  floatResult g s 3 d fun i => fpick true (lane (s.vsrc a) i) (lane (s.vsrc b) i)

/-- VFABS (R129). -/
def execVfabs (g : Pred) (d : Reg) (b : VSrc) (s : State) : Out :=
  floatResult g s 3 d fun i => fsign (lane (s.vsrc b) i) ((lane (s.vsrc b) i) &&& 0x7FFFFFFF)

/-- VFNEG (R129). -/
def execVfneg (g : Pred) (d : Reg) (b : VSrc) (s : State) : Out :=
  floatResult g s 3 d fun i => fsign (lane (s.vsrc b) i) ((lane (s.vsrc b) i) ^^^ 0x80000000)

/-- VFSCALE (R129). -/
def execVfscale (g : Pred) (d : Reg) (a b : VSrc) (r : Rnd) (s : State) : Out :=
  floatResult g s 4 d fun i => fscale r (lane (s.vsrc a) i) (lane (s.vsrc b) i).toInt

/-! ## Approximations (R130) -/

/-- VFRCP (R130). -/
def execVfrcp (g : Pred) (d : Reg) (b : VSrc) (s : State) : Out :=
  floatResult g s 10 d fun i => frcp (lane (s.vsrc b) i)

/-- VFRSQ (R130). -/
def execVfrsq (g : Pred) (d : Reg) (b : VSrc) (s : State) : Out :=
  floatResult g s 10 d fun i => frsq (lane (s.vsrc b) i)

/-- VFEXP2 (R130). -/
def execVfexp2 (g : Pred) (d : Reg) (b : VSrc) (s : State) : Out :=
  floatResult g s 10 d fun i => fexp2 (lane (s.vsrc b) i)

/-- VFLOG2 (R130). -/
def execVflog2 (g : Pred) (d : Reg) (b : VSrc) (s : State) : Out :=
  floatResult g s 10 d fun i => flog2 (lane (s.vsrc b) i)

/-- VFTANH (R130). -/
def execVftanh (g : Pred) (d : Reg) (b : VSrc) (s : State) : Out :=
  floatResult g s 10 d fun i => ftanh (lane (s.vsrc b) i)

/-! ## Compares and classes (R131) -/

/-- VFCMPEQ (R131). -/
def execVfcmpeq (g : Pred) (d : PReg) (a b : VSrc) (s : State) : Out :=
  floatMask g s d (fun i => (fcompare (lane (s.vsrc a) i) (lane (s.vsrc b) i)).2.1) fun i => fcmpFlags false (lane (s.vsrc a) i) (lane (s.vsrc b) i)

/-- VFCMPLT (R131). -/
def execVfcmplt (g : Pred) (d : PReg) (a b : VSrc) (s : State) : Out :=
  floatMask g s d (fun i => (fcompare (lane (s.vsrc a) i) (lane (s.vsrc b) i)).2.2) fun i => fcmpFlags true (lane (s.vsrc a) i) (lane (s.vsrc b) i)

/-- VFCMPLE (R131). -/
def execVfcmple (g : Pred) (d : PReg) (a b : VSrc) (s : State) : Out :=
  floatMask g s d (fun i => (fcompare (lane (s.vsrc a) i) (lane (s.vsrc b) i)).2.1 || (fcompare (lane (s.vsrc a) i) (lane (s.vsrc b) i)).2.2) fun i => fcmpFlags true (lane (s.vsrc a) i) (lane (s.vsrc b) i)

/-- VFCMPUN (R131). -/
def execVfcmpun (g : Pred) (d : PReg) (a b : VSrc) (s : State) : Out :=
  floatMask g s d (fun i => !(fcompare (lane (s.vsrc a) i) (lane (s.vsrc b) i)).1) fun i => fcmpFlags false (lane (s.vsrc a) i) (lane (s.vsrc b) i)

/-- VFCLASS (R131). -/
def execVfclass (g : Pred) (d : Reg) (b : VSrc) (s : State) : Out :=
  vectorResult g s 3 d (mapLanes fclass (s.vsrc b))

/-! ## Reductions and dot products (R132, R133) -/

/-- VFREDSUM (R84, R132). -/
def execVfredsum (g : Pred) (d : Reg) (b : VSrc) (r : Rnd) (s : State) : Out :=
  reduceResult g s 12 d (treeOf (fadd r) 4 (present (s.mask g) (s.vsrc b))) 0

/-- VFREDMAX (R132). -/
def execVfredmax (g : Pred) (d : Reg) (b : VSrc) (s : State) : Out :=
  reduceResult g s 8 d (treeOf (fpick true) 4 (present (s.mask g) (s.vsrc b))) 0xFF800000

/-- VFDOT2 (R133). -/
def execVfdot2 (g : Pred) (d : Reg) (a b : VSrc) (r : Rnd) (bf : Bool) (s : State) : Out :=
  floatResult g s 6 d fun i => fdot2 r bf (lane (s.vsrc a) i) (lane (s.vsrc b) i) (lane (s.vreg d) i)

/-! ## Conversions (R134 to R137) -/

/-- DTAB.QTAB of the issuing slot (R102). -/
def State.qtab (s : State) : Nat := s.cur.qtab.toNat

/-- Table `t` as the issuing slot sees it. -/
def State.tableNow (s : State) (t code : Nat) : Entry := s.entry s.core s.bankVf t code

/-- A decoded entry in FP32, and NV for an unused one (R72, R79). -/
def Entry.lane (e : Entry) : Lane × FFlags := ((roundLane .rne e.num).1, flagIf (e.cls == 3) flagNV)

/-- CVTFI (R135). -/
def execCvtfi (g : Pred) (d : Reg) (b : VSrc) (r : Rnd) (s : State) : Out :=
  floatResult g s 4 d fun i => cvtInt r (lane (s.vsrc b) i)

/-- CVTIF (R135). -/
def execCvtif (g : Pred) (d : Reg) (b : VSrc) (r : Rnd) (s : State) : Out :=
  floatResult g s 4 d fun i => intCvt r (lane (s.vsrc b) i)

/-- CVTFH (R135). -/
def execCvtfh (g : Pred) (d : Reg) (b : VSrc) (r : Rnd) (part : BitVec 1) (s : State) : Out :=
  narrowResult g s 4 d 16 part.toNat fun i => ((cvtHalf fp16 r (lane (s.vsrc b) i)).1.toNat, (cvtHalf fp16 r (lane (s.vsrc b) i)).2)

/-- CVTFB (R135). -/
def execCvtfb (g : Pred) (d : Reg) (b : VSrc) (r : Rnd) (part : BitVec 1) (s : State) : Out :=
  narrowResult g s 4 d 16 part.toNat fun i => ((cvtHalf bf16 r (lane (s.vsrc b) i)).1.toNat, (cvtHalf bf16 r (lane (s.vsrc b) i)).2)

/-- CVTHF (R135). -/
def execCvthf (g : Pred) (d : Reg) (b : VSrc) (part : BitVec 1) (s : State) : Out :=
  vectorResult g s 4 d (ofLanes fun i => halfCvt fp16 (BitVec.ofNat 16 (elem (s.vsrc b) 16 (16 * part.toNat + i))))

/-- CVTBF (R135). -/
def execCvtbf (g : Pred) (d : Reg) (b : VSrc) (part : BitVec 1) (s : State) : Out :=
  vectorResult g s 4 d (ofLanes fun i => halfCvt bf16 (BitVec.ofNat 16 (elem (s.vsrc b) 16 (16 * part.toNat + i))))

/-- CVTFQ (R135). -/
def execCvtfq (g : Pred) (d : Reg) (b : VSrc) (part : BitVec 2) (ovf : Bool) (s : State) : Out :=
  narrowResult g s 8 d 8 part.toNat fun i => (s.target s.core s.bankVf s.qtab).encode (readLane (lane (s.vsrc b) i)) ovf

/-- CVTQF (R135). -/
def execCvtqf (g : Pred) (d : Reg) (b : VSrc) (part : BitVec 2) (s : State) : Out :=
  floatResult g s 4 d fun i => (s.tableNow s.qtab (elem (s.vsrc b) 8 (16 * part.toNat + i)))|> Entry.lane

/-- CVTFS (R135). -/
def execCvtfs (g : Pred) (d : Reg) (b : VSrc) (part : BitVec 2) (e3m2 : Bool) (s : State) : Out :=
  narrowResult g s 8 d 8 part.toNat fun i => (fp6Target e3m2).encode (readLane (lane (s.vsrc b) i)) false

/-- CVTSF (R135). -/
def execCvtsf (g : Pred) (d : Reg) (b : VSrc) (part : BitVec 2) (e3m2 : Bool) (s : State) : Out :=
  vectorResult g s 4 d (ofLanes fun i => (roundLane .rne (fp6Num e3m2 (elem (s.vsrc b) 8 (16 * part.toNat + i)))).1)

/-- CVTFN (R135). -/
def execCvtfn (g : Pred) (d : Reg) (b : VSrc) (part : BitVec 3) (s : State) : Out :=
  narrowResult g s 8 d 4 part.toNat fun i => fp4Target.encode (readLane (lane (s.vsrc b) i)) false

/-- CVTNF (R135). -/
def execCvtnf (g : Pred) (d : Reg) (b : VSrc) (part : BitVec 3) (s : State) : Out :=
  vectorResult g s 4 d (ofLanes fun i => (roundLane .rne (fp4Num (elem (s.vsrc b) 4 (16 * part.toNat + i)))).1)

/-- TBLSEL (R137). -/
def execTblsel (g : Pred) (d : Reg) (b : VSrc) (s : State) : Out :=
  vectorResult g s 3 d (mapLanes (fun x => (s.tableNow s.qtab (x.toNat % 256)).setWidth 32) (s.vsrc b))

/-! ## Blocks (R140, R141) -/

/-- VSCALE (R140). -/
def execVscale (g : Pred) (d : Reg) (a : VSrc) (b : SSrc) (r : Rnd) (s : State) : Out :=
  floatResult g s 4 d fun i =>
    if (s.ssrc b).toNat % 256 = 255 then (nanLane, flagNV) else fscale r (lane (s.vsrc a) i) (((s.ssrc b).toNat % 256 : Nat) - 127)

/-- EMAX of a target (R141). -/
def blkEmax : BlkTarget → Int
  | .e4m3 => 8 | .e5m2 => 15 | .e2m3 => 2 | .e3m2 => 4 | .e2m1 => 2 | .int8 => 6

/-- The E8M0 scale of a block (R141): magnitudes order as their bits do. -/
def blockScale (t : BlkTarget) (l : List Lane) : Nat :=
  let mags := l.map fun x => x.toNat % 2 ^ 31
  let m := mags.foldl max 0
  if 0x7F800000 ≤ m then 0xFF
  else if m = 0 then 0x7F
  else
    match fp32.read m with
    | .fin _ k e => (clampInt 0 254 ((Nat.log2 k : Int) + e - blkEmax t + 127)).toNat
    | _ => 0xFF

/-- VBLKMAX (R141). -/
def execVblkmax (g : Pred) (d : Reg) (a b : VSrc) (t : BlkTarget) (s : State) : Out :=
  scalarResult g s 8 d
    (BitVec.ofNat 64 (blockScale t ((List.range 16).map (lane (s.vsrc a)) ++ (List.range 16).map (lane (s.vsrc b)))))

end Sys2Proof.Machine
end

