-- ==== Sys2Proof/Machine/Dispatch.lean ====
section
/-! DEFINITION. What each instruction does: one arm per constructor, each a call of its meaning. -/

namespace Sys2Proof.Machine

/-- The meaning of an instruction, issued by the slot that the state names; a device event acts on the whole machine. -/
def exec (i : Instr) (s : State) : Host.Outcome State Fault Refusal :=
  match i with
  | .nop g => Sys2Proof.Machine.execNop g s
  | .mov g d a => Sys2Proof.Machine.execMov g d a s
  | .movi g d imm => Sys2Proof.Machine.execMovi g d imm s
  | .add g d a b => Sys2Proof.Machine.execAdd g d a b s
  | .addi g d imm => Sys2Proof.Machine.execAddi g d imm s
  | .sub g d a b => Sys2Proof.Machine.execSub g d a b s
  | .mul g d a b => Sys2Proof.Machine.execMul g d a b s
  | .and g d a b => Sys2Proof.Machine.execAnd g d a b s
  | .andi g d imm => Sys2Proof.Machine.execAndi g d imm s
  | .or g d a b => Sys2Proof.Machine.execOr g d a b s
  | .ori g d imm => Sys2Proof.Machine.execOri g d imm s
  | .xor g d a b => Sys2Proof.Machine.execXor g d a b s
  | .shl g d a b => Sys2Proof.Machine.execShl g d a b s
  | .shli g d n => Sys2Proof.Machine.execShli g d n s
  | .shr g d a b => Sys2Proof.Machine.execShr g d a b s
  | .shri g d n => Sys2Proof.Machine.execShri g d n s
  | .sar g d a b => Sys2Proof.Machine.execSar g d a b s
  | .sari g d n => Sys2Proof.Machine.execSari g d n s
  | .sel g d a b => Sys2Proof.Machine.execSel g d a b s
  | .lea g d imm => Sys2Proof.Machine.execLea g d imm s
  | .ldb g d base off => Sys2Proof.Machine.execLdb g d base off s
  | .ldh g d base off => Sys2Proof.Machine.execLdh g d base off s
  | .ldw g d base off => Sys2Proof.Machine.execLdw g d base off s
  | .ldd g d base off => Sys2Proof.Machine.execLdd g d base off s
  | .stb g a base off => Sys2Proof.Machine.execStb g a base off s
  | .sth g a base off => Sys2Proof.Machine.execSth g a base off s
  | .stw g a base off => Sys2Proof.Machine.execStw g a base off s
  | .std g a base off => Sys2Proof.Machine.execStd g a base off s
  | .vld g d base off => Sys2Proof.Machine.execVld g d base off s
  | .vst g a base off => Sys2Proof.Machine.execVst g a base off s
  | .br g dist => Sys2Proof.Machine.execBr g dist s
  | .brp p sense dist => Sys2Proof.Machine.execBrp p sense dist s
  | .call g dist => Sys2Proof.Machine.execCall g dist s
  | .ret g => Sys2Proof.Machine.execRet g s
  | .jmpr g d a => Sys2Proof.Machine.execJmpr g d a s
  | .loop a dist => Sys2Proof.Machine.execLoop a dist s
  | .exit g => Sys2Proof.Machine.execExit g s
  | .trap g code => Sys2Proof.Machine.execTrap g code s
  | .beat g => Sys2Proof.Machine.execBeat g s
  | .ypt g => Sys2Proof.Machine.execYpt g s
  | .sigchk imm => Sys2Proof.Machine.execSigchk imm s
  | .fence g rst scope => Sys2Proof.Machine.execFence g rst scope s
  | .lds g d base off => Sys2Proof.Machine.execLds g d base off s
  | .take g d base off => Sys2Proof.Machine.execTake g d base off s
  | .put g a base off => Sys2Proof.Machine.execPut g a base off s
  | .vadd g d a b => Sys2Proof.Machine.execVadd g d a b s
  | .vsub g d a b => Sys2Proof.Machine.execVsub g d a b s
  | .vmul g d a b => Sys2Proof.Machine.execVmul g d a b s
  | .vmov g d b => Sys2Proof.Machine.execVmov g d b s
  | .vbcast g d b => Sys2Proof.Machine.execVbcast g d b s
  | .vfadd g d a b r => Sys2Proof.Machine.execVfadd g d a b r s
  | .vfmul g d a b r => Sys2Proof.Machine.execVfmul g d a b r s
  | .vffma g d a b r => Sys2Proof.Machine.execVffma g d a b r s
  | .mxq g a => Sys2Proof.Machine.execMxq g a s
  | .sywait g d sa st => Sys2Proof.Machine.execSywait g d sa st s
  | .syadd g sa sv => Sys2Proof.Machine.execSyadd g sa sv s
  | .mfs g d n => Sys2Proof.Machine.execMfs g d n s
  | .mts g n a => Sys2Proof.Machine.execMts g n a s
  | .cmpeq g d a b => Sys2Proof.Machine.execCmpeq g d a b s
  | .cmplt g d a b => Sys2Proof.Machine.execCmplt g d a b s
  | .mulh g d a b => Sys2Proof.Machine.execMulh g d a b s
  | .mulhu g d a b => Sys2Proof.Machine.execMulhu g d a b s
  | .div g d a b => Sys2Proof.Machine.execDiv g d a b s
  | .divu g d a b => Sys2Proof.Machine.execDivu g d a b s
  | .rem g d a b => Sys2Proof.Machine.execRem g d a b s
  | .remu g d a b => Sys2Proof.Machine.execRemu g d a b s
  | .min g d a b => Sys2Proof.Machine.execMin g d a b s
  | .max g d a b => Sys2Proof.Machine.execMax g d a b s
  | .minu g d a b => Sys2Proof.Machine.execMinu g d a b s
  | .maxu g d a b => Sys2Proof.Machine.execMaxu g d a b s
  | .abs g d b => Sys2Proof.Machine.execAbs g d b s
  | .neg g d b => Sys2Proof.Machine.execNeg g d b s
  | .clz g d b => Sys2Proof.Machine.execClz g d b s
  | .ctz g d b => Sys2Proof.Machine.execCtz g d b s
  | .popc g d b => Sys2Proof.Machine.execPopc g d b s
  | .brev g d b => Sys2Proof.Machine.execBrev g d b s
  | .rotl g d a b => Sys2Proof.Machine.execRotl g d a b s
  | .ext g d b pos w1 => Sys2Proof.Machine.execExt g d b pos w1 s
  | .extu g d b pos w1 => Sys2Proof.Machine.execExtu g d b pos w1 s
  | .ins g d b pos w1 => Sys2Proof.Machine.execIns g d b pos w1 s
  | .sext g d b w => Sys2Proof.Machine.execSext g d b w s
  | .zext g d b w => Sys2Proof.Machine.execZext g d b w s
  | .cmpne g d a b => Sys2Proof.Machine.execCmpne g d a b s
  | .cmpge g d a b => Sys2Proof.Machine.execCmpge g d a b s
  | .cmpltu g d a b => Sys2Proof.Machine.execCmpltu g d a b s
  | .cmpgeu g d a b => Sys2Proof.Machine.execCmpgeu g d a b s
  | .cmpeqi g d a imm => Sys2Proof.Machine.execCmpeqi g d a imm s
  | .cmplti g d a imm => Sys2Proof.Machine.execCmplti g d a imm s
  | .cmpltui g d a imm => Sys2Proof.Machine.execCmpltui g d a imm s
  | .pand g d a b => Sys2Proof.Machine.execPand g d a b s
  | .por g d a b => Sys2Proof.Machine.execPor g d a b s
  | .pxor g d a b => Sys2Proof.Machine.execPxor g d a b s
  | .pnot g d b => Sys2Proof.Machine.execPnot g d b s
  | .pset g d imm => Sys2Proof.Machine.execPset g d imm s
  | .pmovs g d b => Sys2Proof.Machine.execPmovs g d b s
  | .pmovp g d b => Sys2Proof.Machine.execPmovp g d b s
  | .vand g d a b => Sys2Proof.Machine.execVand g d a b s
  | .vor g d a b => Sys2Proof.Machine.execVor g d a b s
  | .vxor g d a b => Sys2Proof.Machine.execVxor g d a b s
  | .vshl g d a b => Sys2Proof.Machine.execVshl g d a b s
  | .vshr g d a b => Sys2Proof.Machine.execVshr g d a b s
  | .vsar g d a b => Sys2Proof.Machine.execVsar g d a b s
  | .vshli g d n => Sys2Proof.Machine.execVshli g d n s
  | .vshri g d n => Sys2Proof.Machine.execVshri g d n s
  | .vsari g d n => Sys2Proof.Machine.execVsari g d n s
  | .vaddi g d imm => Sys2Proof.Machine.execVaddi g d imm s
  | .vmin g d a b => Sys2Proof.Machine.execVmin g d a b s
  | .vmax g d a b => Sys2Proof.Machine.execVmax g d a b s
  | .vminu g d a b => Sys2Proof.Machine.execVminu g d a b s
  | .vmaxu g d a b => Sys2Proof.Machine.execVmaxu g d a b s
  | .vmulh g d a b u => Sys2Proof.Machine.execVmulh g d a b u s
  | .vmad g d a b => Sys2Proof.Machine.execVmad g d a b s
  | .vabs g d b => Sys2Proof.Machine.execVabs g d b s
  | .vneg g d b => Sys2Proof.Machine.execVneg g d b s
  | .vaddsat g d a b u => Sys2Proof.Machine.execVaddsat g d a b u s
  | .vsubsat g d a b u => Sys2Proof.Machine.execVsubsat g d a b u s
  | .vcmpeq g d a b => Sys2Proof.Machine.execVcmpeq g d a b s
  | .vcmpne g d a b => Sys2Proof.Machine.execVcmpne g d a b s
  | .vcmplt g d a b => Sys2Proof.Machine.execVcmplt g d a b s
  | .vcmpge g d a b => Sys2Proof.Machine.execVcmpge g d a b s
  | .vcmpltu g d a b => Sys2Proof.Machine.execVcmpltu g d a b s
  | .vcmpgeu g d a b => Sys2Proof.Machine.execVcmpgeu g d a b s
  | .vsel g d a b => Sys2Proof.Machine.execVsel g d a b s
  | .vpopc g d b => Sys2Proof.Machine.execVpopc g d b s
  | .vclz g d b => Sys2Proof.Machine.execVclz g d b s
  | .vdot4 g d a b mode => Sys2Proof.Machine.execVdot4 g d a b mode s
  | .vfsub g d a b r => Sys2Proof.Machine.execVfsub g d a b r s
  | .vfmin g d a b => Sys2Proof.Machine.execVfmin g d a b s
  | .vfmax g d a b => Sys2Proof.Machine.execVfmax g d a b s
  | .vfabs g d b => Sys2Proof.Machine.execVfabs g d b s
  | .vfneg g d b => Sys2Proof.Machine.execVfneg g d b s
  | .vffms g d a b r => Sys2Proof.Machine.execVffms g d a b r s
  | .vffnma g d a b r => Sys2Proof.Machine.execVffnma g d a b r s
  | .vfdiv g d a b r => Sys2Proof.Machine.execVfdiv g d a b r s
  | .vfsqrt g d b r => Sys2Proof.Machine.execVfsqrt g d b r s
  | .vfrcp g d b => Sys2Proof.Machine.execVfrcp g d b s
  | .vfrsq g d b => Sys2Proof.Machine.execVfrsq g d b s
  | .vfexp2 g d b => Sys2Proof.Machine.execVfexp2 g d b s
  | .vflog2 g d b => Sys2Proof.Machine.execVflog2 g d b s
  | .vftanh g d b => Sys2Proof.Machine.execVftanh g d b s
  | .vfcmpeq g d a b => Sys2Proof.Machine.execVfcmpeq g d a b s
  | .vfcmplt g d a b => Sys2Proof.Machine.execVfcmplt g d a b s
  | .vfcmple g d a b => Sys2Proof.Machine.execVfcmple g d a b s
  | .vfcmpun g d a b => Sys2Proof.Machine.execVfcmpun g d a b s
  | .vfclass g d b => Sys2Proof.Machine.execVfclass g d b s
  | .vfscale g d a b r => Sys2Proof.Machine.execVfscale g d a b r s
  | .vfredsum g d b r => Sys2Proof.Machine.execVfredsum g d b r s
  | .vfredmax g d b => Sys2Proof.Machine.execVfredmax g d b s
  | .vfdot2 g d a b r bf => Sys2Proof.Machine.execVfdot2 g d a b r bf s
  | .cvtfi g d b r => Sys2Proof.Machine.execCvtfi g d b r s
  | .cvtif g d b r => Sys2Proof.Machine.execCvtif g d b r s
  | .cvtfh g d b r part => Sys2Proof.Machine.execCvtfh g d b r part s
  | .cvthf g d b part => Sys2Proof.Machine.execCvthf g d b part s
  | .cvtfb g d b r part => Sys2Proof.Machine.execCvtfb g d b r part s
  | .cvtbf g d b part => Sys2Proof.Machine.execCvtbf g d b part s
  | .cvtfq g d b part ovf => Sys2Proof.Machine.execCvtfq g d b part ovf s
  | .cvtqf g d b part => Sys2Proof.Machine.execCvtqf g d b part s
  | .cvtfs g d b part e3m2 => Sys2Proof.Machine.execCvtfs g d b part e3m2 s
  | .cvtsf g d b part e3m2 => Sys2Proof.Machine.execCvtsf g d b part e3m2 s
  | .cvtfn g d b part => Sys2Proof.Machine.execCvtfn g d b part s
  | .cvtnf g d b part => Sys2Proof.Machine.execCvtnf g d b part s
  | .tblld g t b => Sys2Proof.Machine.execTblld g t b s
  | .tblsel g d b => Sys2Proof.Machine.execTblsel g d b s
  | .vperm g d a b => Sys2Proof.Machine.execVperm g d a b s
  | .vrotl g d a b => Sys2Proof.Machine.execVrotl g d a b s
  | .vextr g d a b sg => Sys2Proof.Machine.execVextr g d a b sg s
  | .vins g d a b => Sys2Proof.Machine.execVins g d a b s
  | .vpack g d a b mode sat => Sys2Proof.Machine.execVpack g d a b mode sat s
  | .vunpk g d b mode part sg => Sys2Proof.Machine.execVunpk g d b mode part sg s
  | .vscale g d a b r => Sys2Proof.Machine.execVscale g d a b r s
  | .vblkmax g d a b t => Sys2Proof.Machine.execVblkmax g d a b t s
  | .vldg g d base off vi => Sys2Proof.Machine.execVldg g d base off vi s
  | .vsts g a base off vi => Sys2Proof.Machine.execVsts g a base off vi s
  | .vlds g d base off => Sys2Proof.Machine.execVlds g d base off s
  | .rld g d base off => Sys2Proof.Machine.execRld g d base off s
  | .rst g a base off f ord => Sys2Proof.Machine.execRst g a base off f ord s
  | .rstv g a base off f ord => Sys2Proof.Machine.execRstv g a base off f ord s
  | .ldacq g d base off scope => Sys2Proof.Machine.execLdacq g d base off scope s
  | .strel g a base off scope => Sys2Proof.Machine.execStrel g a base off scope s
  | .fill g base off => Sys2Proof.Machine.execFill g base off s
  | .empty g base off => Sys2Proof.Machine.execEmpty g base off s
  | .takenb g d base off => Sys2Proof.Machine.execTakenb g d base off s
  | .festat g d base off => Sys2Proof.Machine.execFestat g d base off s
  | .pref g base off => Sys2Proof.Machine.execPref g base off s
  | .flushl g base off => Sys2Proof.Machine.execFlushl g base off s
  | .syinit g sa sr sv type owe => Sys2Proof.Machine.execSyinit g sa sr sv type owe s
  | .syarrive g d sa => Sys2Proof.Machine.execSyarrive g d sa s
  | .syret g sa => Sys2Proof.Machine.execSyret g sa s
  | .syread g d sa w => Sys2Proof.Machine.execSyread g d sa w s
  | .gbar => Sys2Proof.Machine.execGbar s
  | .obnew g d lo hi owe => Sys2Proof.Machine.execObnew g d lo hi owe s
  | .obowe g sa => Sys2Proof.Machine.execObowe g sa s
  | .obgive g so sh mode kind => Sys2Proof.Machine.execObgive g so sh mode kind s
  | .obq g d si field => Sys2Proof.Machine.execObq g d si field s
  | .obrank g d so kind => Sys2Proof.Machine.execObrank g d so kind s
  | .tsput a sr => Sys2Proof.Machine.execTsput a sr s
  | .tscopy d vp sr => Sys2Proof.Machine.execTscopy d vp sr s
  | .tscopyNb d vp sr => Sys2Proof.Machine.execTscopyNb d vp sr s
  | .tstake d vp sr => Sys2Proof.Machine.execTstake d vp sr s
  | .tstakeNb d vp sr => Sys2Proof.Machine.execTstakeNb d vp sr s
  | .tsowe g d sr st => Sys2Proof.Machine.execTsowe g d sr st s
  | .tscount g d vp sr => Sys2Proof.Machine.execTscount g d vp sr s
  | .fork g dist => Sys2Proof.Machine.execFork g dist s
  | .taskend g => Sys2Proof.Machine.execTaskend g s
  | .send g a st => Sys2Proof.Machine.execSend g a st s
  | .sendSys g a st chan => Sys2Proof.Machine.execSendSys g a st chan s
  | .sendr g a st => Sys2Proof.Machine.execSendr g a st s
  | .reply g a sk => Sys2Proof.Machine.execReply g a sk s
  | .msgend g => Sys2Proof.Machine.execMsgend g s
  | .mbw g n a => Sys2Proof.Machine.execMbw g n a s
  | .mbr g d n => Sys2Proof.Machine.execMbr g d n s
  | .mbrMovement g d a => Sys2Proof.Machine.execMbrMovement g d a s
  | .copy g d a => Sys2Proof.Machine.execCopy g d a s
  | .reduceExact g d a => Sys2Proof.Machine.execReduceExact g d a s
  | .reduceTree g d a => Sys2Proof.Machine.execReduceTree g d a s
  | .claim g bay => Sys2Proof.Machine.execClaim g bay s
  | .release g bay => Sys2Proof.Machine.execRelease g bay s
  | .mxstat g d sel => Sys2Proof.Machine.execMxstat g d sel s
  | .mxdrain g mask => Sys2Proof.Machine.execMxdrain g mask s
  | .trapret => Sys2Proof.Machine.execTrapret s
  | .rdctr g d k => Sys2Proof.Machine.execRdctr g d k s
  | .pwrhint g level => Sys2Proof.Machine.execPwrhint g level s
  | .turnend g => Sys2Proof.Machine.execTurnend g s
  | .rdturn g d sel => Sys2Proof.Machine.execRdturn g d sel s
  | .tlbinv g vfScope => Sys2Proof.Machine.execTlbinv g vfScope s
  | .dbgbrk g code => Sys2Proof.Machine.execDbgbrk g code s
  | .halt g => Sys2Proof.Machine.execHalt g s
  | .setmode maint => Sys2Proof.Machine.execSetmode maint s
  | .setmodeConst n => Sys2Proof.Machine.execSetmodeConst n s
  | .tload core vf stream => Sys2Proof.Machine.execTload core vf stream s
  | .tstore core vf stream => Sys2Proof.Machine.execTstore core vf stream s
  | .mma core vf stream => Sys2Proof.Machine.execMma core vf stream s
  | .mmasp core vf stream => Sys2Proof.Machine.execMmasp core vf stream s
  | .accz core vf stream => Sys2Proof.Machine.execAccz core vf stream s
  | .spload core vf stream => Sys2Proof.Machine.execSpload core vf stream s
  | .mxnote core vf stream => Sys2Proof.Machine.execMxnote core vf stream s
  | .mxbar core vf stream => Sys2Proof.Machine.execMxbar core vf stream s
  | .launchTake die hq => Sys2Proof.Machine.execLaunchTake die hq s
  | .gangRelease launch stage => Sys2Proof.Machine.execGangRelease launch stage s
  | .launchSweep launch => Sys2Proof.Machine.execLaunchSweep launch s
  | .doorbell vf pasid v => Sys2Proof.Machine.execDoorbell vf pasid v s
  | .vqPlacement vf tenant vq die hq => Sys2Proof.Machine.execVqPlacement vf tenant vq die hq s
  | .taskPop core slot => Sys2Proof.Machine.execTaskPop core slot s
  | .stealVisit core vf => Sys2Proof.Machine.execStealVisit core vf s
  | .stealArrival core vf => Sys2Proof.Machine.execStealArrival core vf s
  | .stealBackoffExpiry core vf => Sys2Proof.Machine.execStealBackoffExpiry core vf s
  | .dequeSpill core vf => Sys2Proof.Machine.execDequeSpill core vf s
  | .dequeRefill core vf => Sys2Proof.Machine.execDequeRefill core vf s
  | .messageEntry core slot => Sys2Proof.Machine.execMessageEntry core slot s
  | .handlerStart core => Sys2Proof.Machine.execHandlerStart core s
  | .handlerBudgetExhausted core => Sys2Proof.Machine.execHandlerBudgetExhausted core s
  | .systemChannelMessage core vf => Sys2Proof.Machine.execSystemChannelMessage core vf s
  | .mailboxService core => Sys2Proof.Machine.execMailboxService core s
  | .copyStart die engine => Sys2Proof.Machine.execCopyStart die engine s
  | .copyComplete die engine idx => Sys2Proof.Machine.execCopyComplete die engine idx s
  | .collectiveComplete idx => Sys2Proof.Machine.execCollectiveComplete idx s
  | .movementRestart core => Sys2Proof.Machine.execMovementRestart core s
  | .storeBufferDrain core slot idx => Sys2Proof.Machine.execStoreBufferDrain core slot idx s
  | .postedStoreArrival core slot idx => Sys2Proof.Machine.execPostedStoreArrival core slot idx s
  | .postedReplyArrival core slot idx => Sys2Proof.Machine.execPostedReplyArrival core slot idx s
  | .memoryReply core slot => Sys2Proof.Machine.execMemoryReply core slot s
  | .divideComplete core slot => Sys2Proof.Machine.execDivideComplete core slot s
  | .lateReplyLand vf tenant core slot => Sys2Proof.Machine.execLateReplyLand vf tenant core slot s
  | .deferredEntryJoin home => Sys2Proof.Machine.execDeferredEntryJoin home s
  | .rdcInvalidation die idx => Sys2Proof.Machine.execRdcInvalidation die idx s
  | .invalidationAck die idx => Sys2Proof.Machine.execInvalidationAck die idx s
  | .faultQueueReplay page => Sys2Proof.Machine.execFaultQueueReplay page s
  | .uncorrectableError addr => Sys2Proof.Machine.execUncorrectableError addr s
  | .busRepair die bus conn => Sys2Proof.Machine.execBusRepair die bus conn s
  | .busRetire die bus => Sys2Proof.Machine.execBusRetire die bus s
  | .matrixUnitRetire core => Sys2Proof.Machine.execMatrixUnitRetire core s
  | .obligationStateLoss vf => Sys2Proof.Machine.execObligationStateLoss vf s
  | .heartbeatMiss core slot => Sys2Proof.Machine.execHeartbeatMiss core slot s
  | .hbmissDelivery core slot => Sys2Proof.Machine.execHbmissDelivery core slot s
  | .ptgapRecord core slot => Sys2Proof.Machine.execPtgapRecord core slot s
  | .ptgapDelivery core slot => Sys2Proof.Machine.execPtgapDelivery core slot s
  | .replyFaultDelivery core slot => Sys2Proof.Machine.execReplyFaultDelivery core slot s
  | .activityKill core slot => Sys2Proof.Machine.execActivityKill core slot s
  | .slotScrubComplete core slot again => Sys2Proof.Machine.execSlotScrubComplete core slot again s
  | .drainLead vf => Sys2Proof.Machine.execDrainLead vf s
  | .synchronisedStop vf => Sys2Proof.Machine.execSynchronisedStop vf s
  | .turnEdgeRestore vf => Sys2Proof.Machine.execTurnEdgeRestore vf s
  | .turnBoundary => Sys2Proof.Machine.execTurnBoundary s
  | .roundBoundary => Sys2Proof.Machine.execRoundBoundary s
  | .capacityChange res die cap => Sys2Proof.Machine.execCapacityChange res die cap s
  | .donationEffect vf => Sys2Proof.Machine.execDonationEffect vf s
  | .frequencyStep island => Sys2Proof.Machine.execFrequencyStep island s
  | .relockComplete island => Sys2Proof.Machine.execRelockComplete island s
  | .powerCapHold island => Sys2Proof.Machine.execPowerCapHold island s
  | .ncycAnchor island => Sys2Proof.Machine.execNcycAnchor island s
  | .ncycHeldClear island => Sys2Proof.Machine.execNcycHeldClear island s
  | .timeCorrection ppm => Sys2Proof.Machine.execTimeCorrection ppm s
  | .traceStateRecord core slot state => Sys2Proof.Machine.execTraceStateRecord core slot state s
  | .kioskHalt cluster => Sys2Proof.Machine.execKioskHalt cluster s
  | .kioskResume cluster => Sys2Proof.Machine.execKioskResume cluster s
  | .crossTrigger => Sys2Proof.Machine.execCrossTrigger s
  | .haltComplete cluster => Sys2Proof.Machine.execHaltComplete cluster s
  | .bscommit v => Sys2Proof.Machine.execBscommit v s
  | .bsepochWrite v => Sys2Proof.Machine.execBsepochWrite v s
  | .vfUp vf => Sys2Proof.Machine.execVfUp vf s
  | .vfDown vf => Sys2Proof.Machine.execVfDown vf s
  | .vfReset vf => Sys2Proof.Machine.execVfReset vf s
  | .partitionWrite vf off v => Sys2Proof.Machine.execPartitionWrite vf off v s
  | .preempt vf handle => Sys2Proof.Machine.execPreempt vf handle s
  | .resume vf handle => Sys2Proof.Machine.execResume vf handle s
  | .unfence vf core => Sys2Proof.Machine.execUnfence vf core s
  | .killgang vf core => Sys2Proof.Machine.execKillgang vf core s
  | .syschanBind vf c v => Sys2Proof.Machine.execSyschanBind vf c v s
  | .pcselWrite vf j v => Sys2Proof.Machine.execPcselWrite vf j v s
  | .pcselEffect vf j => Sys2Proof.Machine.execPcselEffect vf j s
  | .trctlWrite v => Sys2Proof.Machine.execTrctlWrite v s
  | .trctlEffect => Sys2Proof.Machine.execTrctlEffect s
  | .timelRead vf pasid => Sys2Proof.Machine.execTimelRead vf pasid s
  | .pctlRead vf pasid j => Sys2Proof.Machine.execPctlRead vf pasid j s
  | .residencyWrite e v => Sys2Proof.Machine.execResidencyWrite e v s
  | .pwrpolWrite vf v => Sys2Proof.Machine.execPwrpolWrite vf v s
  | .updcmd v => Sys2Proof.Machine.execUpdcmd v s
  | .liveUpdateTakeover => Sys2Proof.Machine.execLiveUpdateTakeover s
  | .lodgeFailover => Sys2Proof.Machine.execLodgeFailover s
  | .bootclr v => Sys2Proof.Machine.execBootclr v s
  | .moduleStart failed => Sys2Proof.Machine.execModuleStart failed s
  | .registerWrite vf off v => Sys2Proof.Machine.execRegisterWrite vf off v s
  | .linkRetire a b => Sys2Proof.Machine.execLinkRetire a b s
  | .flitReplay port => Sys2Proof.Machine.execFlitReplay port s
  | .portRetrain port => Sys2Proof.Machine.execPortRetrain port s
  | .portFailure port => Sys2Proof.Machine.execPortFailure port s
  | .tsRequestArrival core slot => Sys2Proof.Machine.execTsRequestArrival core slot s
  | .tsDepositArrival core slot => Sys2Proof.Machine.execTsDepositArrival core slot s
  | .illegal w => Sys2Proof.Machine.execIllegal w s
  | .instructionFetchFault c => Sys2Proof.Machine.execInstructionFetchFault c s
  | .pageUnavailable page => Sys2Proof.Machine.execPageUnavailable page s
  | .busHoldEnd die bus => Sys2Proof.Machine.execBusHoldEnd die bus s
  | .portTrainingComplete port => Sys2Proof.Machine.execPortTrainingComplete port s
  | .laneRepair a b => Sys2Proof.Machine.execLaneRepair a b s
  | .liveUpdateAbandon reason => Sys2Proof.Machine.execLiveUpdateAbandon reason s
  | .registerError core slot vec r => Sys2Proof.Machine.execRegisterError core slot vec r s
  | .powerCapRelease island => Sys2Proof.Machine.execPowerCapRelease island s
  | .pcTotalSample => Sys2Proof.Machine.execPcTotalSample s
  | .channelRetire die channel => Sys2Proof.Machine.execChannelRetire die channel s
  | .clusterRetire cluster => Sys2Proof.Machine.execClusterRetire cluster s
  | .islandPowerDown island => Sys2Proof.Machine.execIslandPowerDown island s
  | .islandStart island => Sys2Proof.Machine.execIslandStart island s

end Sys2Proof.Machine
end

