-- ==== Sys2Proof/Machine/Uses.lean ====
section
/-! DEFINITION. What the issue of an instruction looks at: the registers it reads and writes, its fixed latency, its predicate, and the
slots and levels that run it (R19, R20, R109, R123, R143, R235, R252, R335). -/

namespace Sys2Proof.Machine

/-- What the issue of an instruction looks at: its predicate, the registers it reads and writes, its fixed latency, whether only
general slots run it, whether the movement slot does not, and the least level that may. -/
structure Foot where
  pred : Pred := .always
  reads : List RegName := []
  writes : List RegName := []
  lat : Option Nat := none
  general : Bool := false
  noMove : Bool := false
  level : Nat := 0
  deriving DecidableEq, Repr

/-- The register of a scalar source. -/
def SSrc.names : SSrc → List RegName
  | .reg r => [.s r]
  | _ => []

/-- The register of a vector source. -/
def VSrc.names : VSrc → List RegName
  | .reg r => [.v r]
  | .bcast x => SSrc.names x

/-- An instruction of fixed latency `l` that writes one register. -/
def Foot.alu (g : Pred) (l : Nat) (d : RegName) (rd : List RegName) : Foot := { pred := g, reads := rd, writes := [d], lat := some l }

/-- A scalar instruction of two sources. -/
def Foot.s2 (g : Pred) (l : Nat) (d : Reg) (a b : SSrc) : Foot := .alu g l (.s d) (SSrc.names a ++ SSrc.names b)

/-- A scalar instruction of one source. -/
def Foot.s1 (g : Pred) (l : Nat) (d : Reg) (b : SSrc) : Foot := .alu g l (.s d) (SSrc.names b)

/-- A scalar or vector instruction that reads and writes one register. -/
def Foot.inPlace (g : Pred) (l : Nat) (d : RegName) : Foot := .alu g l d [d]

/-- A vector instruction of two sources. -/
def Foot.v2 (g : Pred) (l : Nat) (d : Reg) (a b : VSrc) : Foot := .alu g l (.v d) (VSrc.names a ++ VSrc.names b)

/-- A vector instruction of one source. -/
def Foot.v1 (g : Pred) (l : Nat) (d : Reg) (b : VSrc) : Foot := .alu g l (.v d) (VSrc.names b)

/-- The instruction also sets FPFLAGS. -/
def Foot.flags (f : Foot) : Foot := { f with writes := f.writes ++ [.sys .fpflags] }

/-- The instruction also reads registers. -/
def Foot.also (f : Foot) (rd : List RegName) : Foot := { f with reads := f.reads ++ rd }

/-- An instruction without a fixed latency. -/
def Foot.slow (g : Pred) (rd wr : List RegName) : Foot := { pred := g, reads := rd, writes := wr }

/-- The movement slot does not run it (R235, R262, R293). -/
def Foot.noMovement (f : Foot) : Foot := { f with noMove := true }

/-- Only general slots run it (R235, R310, R325). -/
def Foot.generalOnly (f : Foot) : Foot := { f with general := true }

/-- The registers of a pattern: a value and its mask (R296). -/
def pairNames : Reg → List RegName
  | .priv n => [.v (.priv n), .v (.priv (n + 1))]
  | .shared n => [.v (.shared n), .v (.shared (n + 1))]

/-- The registers FORK reads: s1 to s5, and the table pointers its record takes (R239). -/
def forkReads : List RegName :=
  [.s (.priv 1), .s (.priv 2), .s (.priv 3), .s (.priv 4), .s (.priv 5), .sys .fmta, .sys .fmtb, .sys .scla, .sys .sclb]

/-- What the issue of an instruction looks at, apart from what predication adds. -/
def footOf : Instr → Foot
  | .nop g => { pred := g, lat := some 1 }
  | .mov g d a => .s1 g 2 d a
  | .movi g d _ => .alu g 2 (.s d) []
  | .lea g d _ => .alu g 2 (.s d) []
  | .add g d a b | .sub g d a b | .and g d a b | .or g d a b | .xor g d a b | .shl g d a b | .shr g d a b | .sar g d a b
  | .rotl g d a b | .min g d a b | .max g d a b | .minu g d a b | .maxu g d a b => .s2 g 2 d a b
  | .addi g d _ | .andi g d _ | .ori g d _ => .inPlace g 2 (.s d)
  | .shli g d _ | .shri g d _ | .sari g d _ => .inPlace g 2 (.s d)
  | .sel g d a b => (Foot.s2 g 2 d a b).also [.p 0]
  | .mul g d a b | .mulh g d a b | .mulhu g d a b => .s2 g 5 d a b
  | .div g d a b | .divu g d a b | .rem g d a b | .remu g d a b => .slow g (SSrc.names a ++ SSrc.names b) [.s d]
  | .abs g d b | .neg g d b => .s1 g 2 d b
  | .clz g d b | .ctz g d b | .popc g d b | .brev g d b => .s1 g 3 d b
  | .ext g d b _ _ | .extu g d b _ _ => .s1 g 2 d b
  | .ins g d b _ _ => (Foot.s1 g 2 d b).also [.s d]
  | .sext g d b _ | .zext g d b _ => .s1 g 2 d b
  | .cmpeq g d a b | .cmplt g d a b | .cmpne g d a b | .cmpge g d a b | .cmpltu g d a b | .cmpgeu g d a b =>
    .alu g 2 (.p d) (SSrc.names a ++ SSrc.names b)
  | .cmpeqi g d a _ | .cmplti g d a _ | .cmpltui g d a _ => .alu g 2 (.p d) (SSrc.names a)
  | .pand g d a b | .por g d a b | .pxor g d a b => .alu g 2 (.p d) [.p a, .p b]
  | .pnot g d b => .alu g 2 (.p d) [.p b]
  | .pset g d _ => .alu g 2 (.p d) []
  | .pmovs g d b => .alu g 2 (.s d) [.p b]
  | .pmovp g d b => .alu g 2 (.p d) (SSrc.names b)
  | .mfs g d n => .alu g 3 (.s d) [.sys n]
  | .mts g n a => { Foot.alu g 3 (.sys n) (SSrc.names a) with level := match n with
      | .tstat | .tcause | .tval => 2
      | .fmta | .fmtb | .scla | .sclb | .obspill | .guard | .dqspill | .hbi | .maxpt => 1
      | _ => 0 }
  -- memory
  | .ldb g d b _ | .ldh g d b _ | .ldw g d b _ | .ldd g d b _ => .slow g (SSrc.names b) [.s d]
  | .stb g a b _ | .sth g a b _ | .stw g a b _ | .std g a b _ => .slow g (SSrc.names a ++ SSrc.names b) []
  | .vld g d b _ => .slow g (SSrc.names b) [.v d]
  | .vst g a b _ => .slow g (VSrc.names a ++ SSrc.names b) []
  | .fence g _ _ => .slow g [] []
  | .lds g d b _ => .slow g (SSrc.names b) [.s d]
  | .take g d b _ => .slow g (SSrc.names b) [.s d]
  | .put g a b _ => .slow g (SSrc.names a ++ SSrc.names b) []
  | .vldg g d b _ vi => .slow g (SSrc.names b ++ VSrc.names vi) [.v d]
  | .vsts g a b _ vi => .slow g (VSrc.names a ++ SSrc.names b ++ VSrc.names vi) []
  | .vlds g d b _ => .slow g (SSrc.names b) [.v d]
  | .rld g d b _ => .slow g (SSrc.names b) [.s d]
  | .rst g a b _ _ _ => .slow g (SSrc.names a ++ SSrc.names b) []
  | .rstv g a b _ _ _ => .slow g (VSrc.names a ++ SSrc.names b) []
  | .ldacq g d b _ _ => .slow g (SSrc.names b) [.s d]
  | .strel g a b _ _ => .slow g (SSrc.names a ++ SSrc.names b) []
  | .fill g b _ | .empty g b _ | .pref g b _ | .flushl g b _ => .slow g (SSrc.names b) []
  | .takenb g d b _ => .slow g (SSrc.names b) [.s d, .p 0]
  | .festat g d b _ => .slow g (SSrc.names b) [.s d]
  -- control (R143)
  | .br g _ => .slow g [] []
  | .brp p _ _ => .slow .always [.p p] []
  | .call g _ => .alu g 2 (.s (.priv 31)) []
  | .ret g => .slow g [.s (.priv 31)] []
  | .jmpr g d a => .alu g 2 (.s d) (SSrc.names a)
  | .loop a _ => { reads := SSrc.names a, writes := [.sys .ls, .sys .le, .sys .lc], lat := some 1 }
  | .exit g | .trap g _ | .beat g | .ypt g => { pred := g, lat := some 1 }
  | .sigchk _ => { lat := some 1 }
  | .trapret => { reads := [.sys .tepc, .sys .tstat], lat := some 1 }
  -- vector (R123)
  | .vadd g d a b | .vsub g d a b | .vand g d a b | .vor g d a b | .vxor g d a b | .vshl g d a b | .vshr g d a b | .vsar g d a b
  | .vmin g d a b | .vmax g d a b | .vminu g d a b | .vmaxu g d a b => .v2 g 2 d a b
  | .vaddsat g d a b _ | .vsubsat g d a b _ => .v2 g 2 d a b
  | .vmov g d b | .vabs g d b | .vneg g d b => .v1 g 2 d b
  | .vbcast g d b => .alu g 2 (.v d) (SSrc.names b)
  | .vaddi g d _ => .inPlace g 2 (.v d)
  | .vshli g d _ | .vshri g d _ | .vsari g d _ => .inPlace g 2 (.v d)
  | .vsel g d a b => (Foot.v2 g 2 d a b).also [.p 0]
  | .vmul g d a b => .v2 g 5 d a b
  | .vmulh g d a b _ => .v2 g 5 d a b
  | .vmad g d a b => (Foot.v2 g 5 d a b).also [.v d]
  | .vdot4 g d a b _ => (Foot.v2 g 5 d a b).also [.v d]
  | .vcmpeq g d a b | .vcmpne g d a b | .vcmplt g d a b | .vcmpge g d a b | .vcmpltu g d a b | .vcmpgeu g d a b =>
    .alu g 3 (.p d) (VSrc.names a ++ VSrc.names b)
  | .vpopc g d b | .vclz g d b => .v1 g 3 d b
  | .vfadd g d a b _ | .vfsub g d a b _ | .vfmul g d a b _ => (Foot.v2 g 6 d a b).flags
  | .vffma g d a b _ | .vffms g d a b _ | .vffnma g d a b _ => ((Foot.v2 g 6 d a b).also [.v d]).flags
  | .vfdot2 g d a b _ _ => ((Foot.v2 g 6 d a b).also [.v d]).flags
  | .vfmin g d a b | .vfmax g d a b => (Foot.v2 g 3 d a b).flags
  | .vfabs g d b | .vfneg g d b => (Foot.v1 g 3 d b).flags
  | .vfdiv g d a b _ => .slow g (VSrc.names a ++ VSrc.names b) [.v d]
  | .vfsqrt g d b _ => .slow g (VSrc.names b) [.v d]
  | .vfrcp g d b | .vfrsq g d b | .vfexp2 g d b | .vflog2 g d b | .vftanh g d b => (Foot.v1 g 10 d b).flags
  | .vfcmpeq g d a b | .vfcmplt g d a b | .vfcmple g d a b | .vfcmpun g d a b =>
    (Foot.alu g 3 (.p d) (VSrc.names a ++ VSrc.names b)).flags
  | .vfclass g d b => .v1 g 3 d b
  | .vfscale g d a b _ => (Foot.v2 g 4 d a b).flags
  | .vfredsum g d b _ => (Foot.v1 g 12 d b).flags
  | .vfredmax g d b => (Foot.v1 g 8 d b).flags
  | .cvtfi g d b _ | .cvtif g d b _ => (Foot.v1 g 4 d b).flags
  | .cvtfh g d b _ _ | .cvtfb g d b _ _ => ((Foot.v1 g 4 d b).also [.v d]).flags
  | .cvthf g d b _ | .cvtbf g d b _ => .v1 g 4 d b
  | .cvtfq g d b _ _ => ((Foot.v1 g 8 d b).also [.v d, .sys .dtab]).flags
  | .cvtqf g d b _ => ((Foot.v1 g 4 d b).also [.sys .dtab]).flags
  | .cvtfs g d b _ _ => ((Foot.v1 g 8 d b).also [.v d]).flags
  | .cvtsf g d b _ _ => .v1 g 4 d b
  | .cvtfn g d b _ => ((Foot.v1 g 8 d b).also [.v d]).flags
  | .cvtnf g d b _ => .v1 g 4 d b
  | .tblld g _ b => .slow g (SSrc.names b) []
  | .tblsel g d b => (Foot.v1 g 3 d b).also [.sys .dtab]
  | .vperm g d a b => .v2 g 3 d a b
  | .vrotl g d a b => .alu g 3 (.v d) (VSrc.names a ++ SSrc.names b)
  | .vextr g d a b _ => .alu g 3 (.s d) (VSrc.names a ++ SSrc.names b)
  | .vins g d a b => .alu g 3 (.v d) (SSrc.names a ++ SSrc.names b ++ [.v d])
  | .vpack g d a b _ _ => .v2 g 3 d a b
  | .vunpk g d b _ _ _ => .v1 g 3 d b
  | .vscale g d a b _ => (Foot.alu g 4 (.v d) (VSrc.names a ++ SSrc.names b)).flags
  | .vblkmax g d a b _ => .alu g 8 (.s d) (VSrc.names a ++ VSrc.names b)
  -- matrix queues (R215)
  | .mxq g a => { pred := g, reads := VSrc.names a ++ [.sys .fmta, .sys .fmtb, .sys .scla, .sys .sclb], lat := some 1 }
  | .claim g _ | .release g _ | .mxdrain g _ => .slow g [] []
  | .mxstat g d _ => .alu g 3 (.s d) []
  -- sync slots and obligations
  | .sywait g d a b => (Foot.slow g (SSrc.names a ++ SSrc.names b) [.s d]).noMovement
  | .syadd g a b => (Foot.slow g (SSrc.names a ++ SSrc.names b) []).noMovement
  | .syinit g a b c _ _ => (Foot.slow g (SSrc.names a ++ SSrc.names b ++ SSrc.names c) []).noMovement
  | .syarrive g d a => (Foot.slow g (SSrc.names a) [.s d]).noMovement
  | .syret g a => (Foot.slow g (SSrc.names a) []).noMovement
  | .syread g d a _ => (Foot.slow g (SSrc.names a) [.s d]).noMovement
  | .gbar => (Foot.slow .always [] []).noMovement
  | .obnew g d a b _ => (Foot.slow g (.s d :: SSrc.names a ++ SSrc.names b) [.s d]).noMovement
  | .obowe g a => (Foot.slow g (SSrc.names a) []).noMovement
  | .obgive g a b _ _ => (Foot.slow g (SSrc.names a ++ SSrc.names b) []).noMovement
  | .obq g d a _ => (Foot.alu g 3 (.s d) (SSrc.names a)).noMovement
  | .obrank g d a _ => (Foot.slow g (SSrc.names a) [.s d]).noMovement
  -- tuple space (R293)
  | .tsput a b => (Foot.slow .always (VSrc.names a ++ SSrc.names b) []).noMovement
  | .tscopy d p b | .tscopyNb d p b | .tstake d p b | .tstakeNb d p b =>
    (Foot.slow .always (pairNames p ++ SSrc.names b) [.v d]).noMovement
  | .tsowe g d a b => (Foot.slow g (SSrc.names a ++ SSrc.names b) [.s d]).noMovement
  | .tscount g d p b => (Foot.slow g (pairNames p ++ SSrc.names b) [.s d]).noMovement
  -- tasks, messages, mailboxes, copies, collectives (R235)
  | .fork g _ => (Foot.alu g 2 (.p 0) forkReads).noMovement
  | .taskend g => (Foot.slow g [] []).generalOnly
  | .send g a b => { (Foot.slow g (VSrc.names a ++ SSrc.names b) []).noMovement with lat := some 1 }
  | .sendSys g a b _ => { (Foot.slow g (VSrc.names a ++ SSrc.names b) []).noMovement with lat := some 1, level := 1 }
  | .sendr g a b => { (Foot.slow g (VSrc.names a ++ SSrc.names b) []).generalOnly with lat := some 1 }
  | .reply g a b => { (Foot.slow g (SSrc.names a ++ SSrc.names b) []).noMovement with lat := some 1 }
  | .msgend g => .slow g [] []
  | .mbw g _ a => { (Foot.slow g (SSrc.names a) []).generalOnly with lat := some 1 }
  | .mbr g d _ => (Foot.alu g 3 (.s d) []).generalOnly
  | .mbrMovement g d a => .slow g (SSrc.names a) [.s d]
  | .copy g d a => { (Foot.slow g (VSrc.names a) [.s (.priv d)]).generalOnly with lat := some 1 }
  | .reduceExact g d a | .reduceTree g d a => { (Foot.slow g (VSrc.names a) [.s (.priv d)]).generalOnly with lat := some 1 }
  -- page 10
  | .rdctr g d _ => .alu g 3 (.s d) []
  | .pwrhint g _ => { pred := g, lat := some 1, general := true }
  | .turnend g => { pred := g, lat := some 1, general := true }
  | .rdturn g d _ => .alu g 3 (.s d) []
  | .tlbinv g _ => { (Foot.slow g [] []).noMovement with level := 1 }
  | .dbgbrk g _ => { pred := g, lat := some 1 }
  | .halt g => { pred := g, lat := some 1, level := 2 }
  | .setmode _ => { lat := some 1, level := 2 }
  | .setmodeConst _ => { reads := [.s (.priv 1)], lat := some 1, level := 2 }
  -- what is no instruction of the stream
  | .tload _ _ _ | .tstore _ _ _ | .mma _ _ _ | .mmasp _ _ _ | .accz _ _ _ | .spload _ _ _ | .mxnote _ _ _ | .mxbar _ _ _
  | .launchTake _ _ | .gangRelease _ _ | .launchSweep _ | .doorbell _ _ _ | .vqPlacement _ _ _ _ _ | .taskPop _ _ | .stealVisit _ _
  | .stealArrival _ _ | .stealBackoffExpiry _ _ | .dequeSpill _ _ | .dequeRefill _ _ | .messageEntry _ _ | .handlerStart _
  | .handlerBudgetExhausted _ | .systemChannelMessage _ _ | .mailboxService _ | .copyStart _ _ | .copyComplete _ _ _
  | .collectiveComplete _ | .movementRestart _ | .storeBufferDrain _ _ _ | .postedStoreArrival _ _ _ | .postedReplyArrival _ _ _
  | .memoryReply _ _ | .divideComplete _ _ | .lateReplyLand _ _ _ _ | .deferredEntryJoin _ | .rdcInvalidation _ _ | .invalidationAck _ _
  | .faultQueueReplay _ | .uncorrectableError _ | .busRepair _ _ _ | .busRetire _ _ | .matrixUnitRetire _ | .obligationStateLoss _
  | .heartbeatMiss _ _ | .hbmissDelivery _ _ | .ptgapRecord _ _ | .ptgapDelivery _ _ | .replyFaultDelivery _ _ | .activityKill _ _
  | .slotScrubComplete _ _ _ | .drainLead _ | .synchronisedStop _ | .turnEdgeRestore _ | .turnBoundary | .roundBoundary
  | .capacityChange _ _ _ | .donationEffect _ | .frequencyStep _ | .relockComplete _ | .powerCapHold _ | .ncycAnchor _
  | .ncycHeldClear _ | .timeCorrection _ | .traceStateRecord _ _ _ | .kioskHalt _ | .kioskResume _ | .crossTrigger | .haltComplete _
  | .bscommit _ | .bsepochWrite _ | .vfUp _ | .vfDown _ | .vfReset _ | .partitionWrite _ _ _ | .preempt _ _ | .resume _ _ | .unfence _ _
  | .killgang _ _ | .syschanBind _ _ _ | .pcselWrite _ _ _ | .pcselEffect _ _ | .trctlWrite _ | .trctlEffect | .residencyWrite _ _
  | .pwrpolWrite _ _ | .updcmd _ | .liveUpdateTakeover | .lodgeFailover | .bootclr _ | .registerWrite _ _ _ | .linkRetire _ _
  | .flitReplay _ | .portRetrain _ | .portFailure _ | .tsRequestArrival _ _ | .tsDepositArrival _ _ | .illegal _
  | .instructionFetchFault _ | .pageUnavailable _ | .busHoldEnd _ _ | .portTrainingComplete _ | .laneRepair _ _ | .liveUpdateAbandon _
  | .registerError _ _ _ _ | .powerCapRelease _ | .pcTotalSample | .channelRetire _ _ | .clusterRetire _ | .islandPowerDown _
  | .islandStart _ | .timelRead _ _ | .pctlRead _ _ _
  | .moduleStart _ => {}

/-- A system register. -/
def RegName.isSys : RegName → Bool
  | .sys _ => true
  | _ => false

/-- What the issue of an instruction looks at: XPRED reads its predicate, and per-lane masking reads the destination (R109, R123). -/
def foot (i : Instr) : Foot :=
  let f := footOf i
  match f.pred with
  | .always => f
  | .whole p _ => { f with reads := .p p :: f.reads }
  | .lanes p _ => { f with reads := .p p :: f.reads ++ f.writes.filter fun r => !r.isSys }

/-! ## Implicit reads (R109) -/

/-- Whether an instruction may need room for an obligation, or reads spilled ones (R103, R264, R265). -/
def mayOwe : Instr → Bool
  | .take _ _ _ _ | .takenb _ _ _ _ | .put _ _ _ _ | .fill _ _ _ | .claim _ _ | .release _ _ | .syinit _ _ _ _ _ _ | .syadd _ _ _
  | .syarrive _ _ _ | .obnew _ _ _ _ _ | .obowe _ _ | .obq _ _ _ _ | .obgive _ _ _ _ _ | .tsowe _ _ _ _ | .tsput _ _ | .taskend _ | .reply _ _ _ => true
  | _ => false

/-- The system registers that an instruction reads without naming them (R109): outside a trap handler the loop registers, by which its end check acts
(R146, R147); and what its own act looks at. An MTS acts after every earlier setting of its register has landed (R95). -/
def implicitReads (ih : Bool) (i : Instr) : List RegName :=
  (if ih then [] else [.sys .ls, .sys .le, .sys .lc]) ++
    (if mayOwe i then [.sys .obspill] else []) ++
    match i with
    | .mts _ n _ => [.sys n]
    | .trap _ _ | .dbgbrk _ _ => [.sys .tvec]
    | .sigchk _ => [.sys .sigacc]
    | .fork _ _ => [.sys .dqspill, .sys .obspill]
    | .ypt _ => [.sys .maxpt]
    | _ => []

/-- What the issue of an instruction looks at in a state: a FORK with a join has no fixed latency (R19, R236). -/
def State.foot (s : State) (i : Instr) : Foot :=
  match i with
  | .fork _ _ => if s.sreg (.priv 5) = 0 then Machine.foot i else { Machine.foot i with lat := none }
  | _ => Machine.foot i

/-! ## What a write writes (R94, R134) -/

/-- The bits of acting elements of part `p` of a narrow register of width `w`. -/
def elemBits (m : BitVec 16) (w p : Nat) : Vec :=
  (lanesOf m).foldl (fun v i => v ||| BitVec.ofNat 512 ((2 ^ w - 1) * 2 ^ (w * (16 * p + i)))) 0

/-- The bits of a destination that an instruction writes: the acting lanes or elements of a vector register, the acting bits of a
predicate, and all of a scalar register. -/
def State.writeBits (s : State) (i : Instr) (p : Pred) : RegName → Vec
  | .v _ =>
    match i with
    | .cvtfh _ _ _ _ k | .cvtfb _ _ _ _ k => elemBits (s.mask p) 16 k.toNat
    | .cvtfq _ _ _ k _ | .cvtfs _ _ _ k _ => elemBits (s.mask p) 8 k.toNat
    | .cvtfn _ _ _ k => elemBits (s.mask p) 4 k.toNat
    | .vins _ _ _ b => elemBits (BitVec.ofNat 16 (2 ^ ((s.ssrc b).toNat % 16))) 32 0
    | .vfredsum _ _ _ _ | .vfredmax _ _ _ => BitVec.allOnes 512
    | _ => elemBits (s.mask p) 32 0
  | .p _ =>
    match p with
    | .lanes _ _ => (s.mask p).setWidth 512
    | _ => BitVec.allOnes 512
  | _ => BitVec.allOnes 512

end Sys2Proof.Machine
end

