-- ==== Sys2Proof/Machine/Issue.lean ====
section
/-! DEFINITION. The issue of an instruction: the boundary before it, its fetch and decoding, the loop's end check, what holds it back, what
enters SIGACC and the counters; and the donation of seats (R17 to R20, R25, R59, R146, R155, R252, R256, R322, R333, R335). -/

namespace Sys2Proof.Machine

/-- A step that the device takes by itself: at a slot's boundary, at an instant of TIME, or because what it needs is there. Each is the
meaning of the table's event of the same name. -/
inductive Act where
  -- boundaries, and what stops an instruction before it is one
  | movementRestart (core : Nat)
  | activityKill (core slot : Nat)
  | replyFaultDelivery (core slot : Nat)
  | ptgapDelivery (core slot : Nat)
  | hbmissDelivery (core slot : Nat)
  | handlerBudgetExhausted (core : Nat)
  | instructionFetchFault (c : FetchCause)
  | illegal (w : Half)
  -- instants
  | drainLead (vf : Nat)
  | synchronisedStop (vf : Nat)
  | turnBoundary
  | roundBoundary
  | turnEdgeRestore (vf : Nat)
  | donationEffect (vf : Nat)
  | frequencyStep (island : Nat)
  | relockComplete (island : Nat)
  | pcselEffect (vf j : Nat)
  | trctlEffect
  | pcTotalSample
  | heartbeatMiss (core slot : Nat)
  | ptgapRecord (core slot : Nat)
  | traceStateRecord (core slot : Nat) (state : BitVec 3)
  -- replies, arrivals and starts
  | vfReset (vf : Nat)
  | storeBufferDrain (core slot idx : Nat)
  | postedStoreArrival (core slot idx : Nat)
  | postedReplyArrival (core slot idx : Nat)
  | memoryReply (core slot : Nat)
  | divideComplete (core slot : Nat)
  | tsRequestArrival (core slot : Nat)
  | tsDepositArrival (core slot : Nat)
  | slotScrubComplete (core slot : Nat)
  | messageEntry (core slot : Nat)
  | lateReplyLand (vf tenant core slot : Nat)
  | deferredEntryJoin (home : Nat)
  | rdcInvalidation (die idx : Nat)
  | invalidationAck (die idx : Nat)
  | taskPop (core slot : Nat)
  | stealVisit (core vf : Nat)
  | stealArrival (core vf : Nat)
  | stealBackoffExpiry (core vf : Nat)
  | dequeRefill (core vf : Nat)
  | systemChannelMessage (core vf : Nat)
  | handlerStart (core : Nat)
  | mailboxService (core : Nat)
  | copyStart (die engine : Nat)
  | copyComplete (die engine idx : Nat)
  | collectiveComplete (idx : Nat)
  | matrix (type core vf stream : Nat)
  | launchTake (die hq : Nat)
  | gangRelease (launch stage : Nat)
  | launchSweep (launch : Nat)
  | vqPlacement (vf tenant vq die hq : Nat)
  | haltComplete (cluster : Nat)
  | liveUpdateTimeout
  | faultQueueReplay (page : Nat)
  | waitPark (core slot : Nat)
  deriving DecidableEq, Repr

/-- A step of the device by itself. -/
def Act.run (a : Act) (s : State) : Out :=
  match a with
  | .movementRestart c => execMovementRestart c s
  | .activityKill c k => execActivityKill c k s
  | .replyFaultDelivery c k => execReplyFaultDelivery c k s
  | .ptgapDelivery c k => execPtgapDelivery c k s
  | .hbmissDelivery c k => execHbmissDelivery c k s
  | .handlerBudgetExhausted c => execHandlerBudgetExhausted c s
  | .instructionFetchFault c => execInstructionFetchFault c s
  | .illegal w => execIllegal w s
  | .drainLead v => execDrainLead v s
  | .synchronisedStop v => execSynchronisedStop v s
  | .turnBoundary => execTurnBoundary s
  | .roundBoundary => execRoundBoundary s
  | .turnEdgeRestore v => execTurnEdgeRestore v s
  | .donationEffect v => execDonationEffect v s
  | .frequencyStep i => execFrequencyStep i s
  | .relockComplete i => execRelockComplete i s
  | .pcselEffect v j => execPcselEffect v j s
  | .trctlEffect => execTrctlEffect s
  | .pcTotalSample => execPcTotalSample s
  | .heartbeatMiss c k => execHeartbeatMiss c k s
  | .ptgapRecord c k => execPtgapRecord c k s
  | .traceStateRecord c k st => execTraceStateRecord c k st s
  | .vfReset v => execVfReset v s
  | .storeBufferDrain c k i => execStoreBufferDrain c k i s
  | .postedStoreArrival c k i => execPostedStoreArrival c k i s
  | .postedReplyArrival c k i => execPostedReplyArrival c k i s
  | .memoryReply c k => execMemoryReply c k s
  | .divideComplete c k => execDivideComplete c k s
  | .tsRequestArrival c k => execTsRequestArrival c k s
  | .tsDepositArrival c k => execTsDepositArrival c k s
  | .slotScrubComplete c k => execSlotScrubComplete c k false s
  | .messageEntry c k => execMessageEntry c k s
  | .lateReplyLand v t c k => execLateReplyLand v t c k s
  | .deferredEntryJoin h => execDeferredEntryJoin h s
  | .rdcInvalidation d i => execRdcInvalidation d i s
  | .invalidationAck d i => execInvalidationAck d i s
  | .taskPop c k => execTaskPop c k s
  | .stealVisit c v => execStealVisit c v s
  | .stealArrival c v => execStealArrival c v s
  | .stealBackoffExpiry c v => execStealBackoffExpiry c v s
  | .dequeRefill c v => execDequeRefill c v s
  | .systemChannelMessage c v => execSystemChannelMessage c v s
  | .handlerStart c => execHandlerStart c s
  | .mailboxService c => execMailboxService c s
  | .copyStart d e => execCopyStart d e s
  | .copyComplete d e i => execCopyComplete d e i s
  | .collectiveComplete i => execCollectiveComplete i s
  | .matrix 1 c v st => execTload c v st s
  | .matrix 2 c v st => execTstore c v st s
  | .matrix 3 c v st => execMma c v st s
  | .matrix 4 c v st => execMmasp c v st s
  | .matrix 5 c v st => execAccz c v st s
  | .matrix 6 c v st => execSpload c v st s
  | .matrix 8 c v st => execMxbar c v st s
  | .matrix _ c v st => execMxnote c v st s
  | .launchTake d h => execLaunchTake d h s
  | .gangRelease l g => execGangRelease l g s
  | .launchSweep l => execLaunchSweep l s
  | .vqPlacement v t q d h => execVqPlacement v t q d h s
  | .haltComplete n => execHaltComplete n s
  | .liveUpdateTimeout => execLiveUpdateAbandon 4 s
  | .faultQueueReplay p => execFaultQueueReplay p s
  | .waitPark c k => .next (s.parkWaiting c k)

/-- What a step runs: nothing further, an instruction or an event of the agenda, or a step of the device by itself. -/
inductive Pick where
  | done (s : State)
  | instr (i : Instr) (s : State)
  | act (a : Act) (s : State)

/-! ## The boundary (R333) -/

/-- What acts at the boundary before the next instruction of a slot issues (R25, R333 items 1 to 5). -/
def Slot.boundary (x : Slot) (c k : Nat) : Option Act :=
  if x.kill.isSome then some (if k = 0 then .movementRestart c else .activityKill c k)
  else if x.replyFault.isSome then some (.replyFaultDelivery c k)
  else if x.ptgap.isSome && !x.ih then some (.ptgapDelivery c k)
  else if x.hbPend && !x.ih then some (.hbmissDelivery c k)
  else if k = 15 && 256 ≤ x.hcount && !x.reissue then some (.handlerBudgetExhausted c)
  else none

/-! ## Fetching and decoding (R59 steps 1 to 4) -/

/-- What the words at a slot's pc are. -/
inductive Fetched where
  | held (w : Wait)
  | odd
  | fault (c : FetchCause)
  | bad (w : Half)
  | instr (i : Instr) (len : Nat) (ws : List Half)
  deriving DecidableEq, Repr

/-- The instruction at the pc of the issuing slot. -/
def State.fetchInstr (s : State) : State × Fetched :=
  let x := s.cur
  if bit x.pc 0 then (s, .odd)
  else
    match s.fetchHeld x.pc with
    | some w => (s, .held w)
    | none =>
      match s.fetchWords x.pc with
      | (s', .error .xlate) => (s', .fault .xlate)
      | (s', .error _) => (s', .fault .perm)
      | (s', .ok ws) =>
        match decode s.decMode ws with
        | .error _ => (s', .bad (ws.head?.getD 0))
        | .ok (i, n) => (s', .instr i n (ws.take (n / 2)))

/-! ## Checks before the instruction executes -/

/-- The control transfers of R146 item 1. -/
def isTransfer : Instr → Bool
  | .br _ _ | .brp _ _ _ | .call _ _ | .ret _ | .jmpr _ _ _ | .loop _ _ | .exit _ | .trap _ _ | .trapret | .taskend _ | .msgend _ => true
  | .mts _ .ls _ | .mts _ .le _ | .mts _ .lc _ => true
  | _ => false

/-- SIGCHK, whose own words stay out of SIGACC (R156). -/
def isSigchk : Instr → Bool
  | .sigchk _ => true
  | _ => false

/-- Whether the loop's end check stops an instruction (R146, R147). -/
def Slot.loopEnds (x : Slot) (i : Instr) : Bool := !x.ih && x.lc != 0 && x.pc == x.le && isTransfer i

/-- Whether the slot or its level bars the instruction, whose meaning then raises ILLEGAL or PRIV (R59 steps 4 and 5). -/
def State.bars (s : State) (f : Foot) : Bool :=
  (f.general && (s.slot == 0 || s.slot == 15)) || (f.noMove && s.slot == 0) || decide (s.cur.pl.toNat < f.level)

/-- Whether the field step finds an instruction that its slot, or its slot's state, does not run (R59 step 4, R149, R151, R247, R250). -/
def State.rejects (s : State) : Instr → Bool
  | .exit _ => s.slot == 15
  | .msgend _ => s.slot != 15
  | .mbrMovement _ _ _ => s.slot != 0
  | .trapret => !s.cur.ih || s.cur.ppl == 3
  | _ => false

/-- Whether an instruction's meaning raises ILLEGAL or PRIV by its slot or level, and nothing else changes (R59 steps 4 and 5). -/
def State.barred (s : State) (i : Instr) : Bool := s.bars (s.foot i) || s.rejects i

/-- A private register read with an uncorrectable error (R335), as REGERR's TVAL names it (R332). -/
def Slot.regFault (x : Slot) (f : Foot) : Option Word :=
  (x.regErr.find? fun e => f.reads.elem (if e.1 then .v (.priv e.2) else .s (.priv e.2))).map fun e =>
    BitVec.ofNat 64 ((if e.1 then 32 else 0) + e.2.toNat)

/-- Whether the instruction reads a poisoned shared register (R335). -/
def CoreVf.readsPoison (cv : CoreVf) (f : Foot) : Bool :=
  cv.cPoison.any (fun n => f.reads.elem (.s (.shared n))) || cv.wPoison.any fun n => f.reads.elem (.v (.shared n))

/-- An own seat of a runnable slot in which no instruction issues (R322). -/
def State.idleSeat (s : State) (own : Bool) : State := if own then s.count s.core s.bankVf 3 else s

/-- What holds the instruction back or stops it as it issues: a register it reads or writes whose status is pending (R252; for a REDUCE it is
checked at the gang-barrier rank, R256), or an error in a register it reads (R335). One held back has not issued; one that a fault stops has, and
`begun` is its slot then. -/
def State.stopped (s : State) (own : Bool) (f : Foot) (begun : State → State) : Option State :=
  match s.cur.pendRegs.find? fun p => (f.reads ++ f.writes).elem (.s (.priv p.1)) with
  | some (r, false) => some ((s.idleSeat own).wait (.copyStatus r))
  | some (r, true) =>
    match s.gangRank with
    | (s, rank) =>
      some (if (s.obmin s.core s.slot).toNat ≤ rank.toNat then (begun s).trap .obrank (rank.setWidth 64)
        else (s.idleSeat own).wait (.reduceStatus r rank))
  | none =>
    match s.cur.regFault f with
    | some tval => some ((begun s).modCur fun x => x.mark .regerr x.pc tval)
    | none =>
      if s.curVf.readsPoison f then some ((begun { s with fresh := s.fresh + 1 }).trap .poison (Config.registerPoison s.fresh)) else none

/-! ## Issuing -/

/-- The slot as its instruction begins to execute in cycle `n`: its words are folded (R155, R156), and what it writes is pending, with the bits
that `bits` gives. -/
def Slot.begin (x : Slot) (k n : Nat) (i : Instr) (f : Foot) (ws : List Half) (bits : RegName → Vec) : Slot :=
  { x with sigacc := if isSigchk i then x.sigacc else foldWords x.sigacc ws,
           busy := x.pending n,
           busyNow := match f.lat with
             | none => []
             | some l => f.writes.map fun r => ⟨r, n + l, bits r, if r = .sys .tvec then x.tvec else 0⟩,
           hcount := if k = 15 && !x.reissue then x.hcount + 1 else x.hcount,
           reissue := false }

/-- The issuing slot begins to execute: its instruction counts once (R322), and one that is barred changes nothing (R59 step 5). -/
def State.begin (s : State) (i : Instr) (f : Foot) (ws : List Half) : State :=
  let bits := s.writeBits i f.pred
  let s' := s.modCur fun x => x.begin s.slot (s.cycle s.core) i f ws bits
  if s.slot = 0 || s.slot = 15 || s.cur.reissue || s.barred i then s' else s'.count s.core s.cur.vfid.toNat 1

/-- The issuing slot's instruction with its length and first word. -/
def State.setInstr (s : State) (len : Nat) (ws : List Half) : State :=
  s.modCur fun x => { x with ilen := len, iword := ws.head?.getD 0 }

/-- The issuing slot issues: its instruction executes, or the slot traps or waits before one does; `own` says that the seat is the slot's own. LOOPEND
comes before what the slot of a transfer at LE bars (log 48). -/
def State.issue (s : State) (own : Bool) : Pick :=
  let s := s.modCur fun x => { x with sigPrev := x.sigacc }
  match s.fetchInstr with
  | (s, .held w) => .done (((s.idleSeat own).wait w).joinFetch w)
  | (s, .odd) => .done ((s.idleSeat own).trap .align s.cur.pc)
  | (s, .fault c) => .act (.instructionFetchFault c) (s.idleSeat own)
  | (s, .bad w) => .act (.illegal w) (s.idleSeat own)
  | (s, .instr i len ws) =>
    let s := s.setInstr len ws
    let f := s.foot i
    if s.cur.loopEnds i then .done ((s.idleSeat own).trapAt .loopend s.cur.le s.cur.le)
    else if s.barred i then .instr i ((s.idleSeat own).begin i f ws)
    else if !s.acts f.pred then .instr i (s.begin i { f with writes := [] } ws)
    else
      match s.stopped own f fun s => s.begin i f ws with
      | some s' => .done s'
      | none => .instr i (s.begin i f ws)

/-- A seat of cycle `n` on core `c` goes to slot `k`: shared writes that have landed take effect, and the boundary acts or the slot issues
(R17, R18, R20, R94). -/
def State.takeSeat (s : State) (c k n tick : Nat) (donated : Bool) : Pick :=
  let s := (((s.advance tick).settle c).modCore c fun co => { co with lastCycle := some n }).at c k
  let v := s.cur.vfid.toNat
  let s := if donated then (s.modVf c v fun cv => { cv with lastDonated := k }).count c v 2 else s.countSeat c k
  match s.cur.boundary c k with
  | some a => .act a (s.idleSeat !donated)
  | none => s.issue !donated

/-! ## Seats (R16, R18, R20) -/

/-- The first own seat of slot `k` after cycle `n`, which is none of its own (R16). -/
def nextOwn (k n : Nat) : Nat := n + (k + 16 - n % 16) % 16

/-- Whether slot `k` may take a donated seat in cycle `n` (R20). -/
def State.mayTake (s : State) (c k n : Nat) : Bool :=
  let x := s.slotOf c k
  s.runnable c k && (x.boundary c k).isNone &&
    match (s.at c k).fetchInstr.2 with
    | .instr i _ _ =>
      let f := (s.at c k).foot i
      (x.pending n).all (fun b => !f.reads.elem b.reg && !(implicitReads x.ih i).elem b.reg) && !(s.at c k).rejects i &&
        (match f.lat with
          | none => true
          | some l => decide (n + l ≤ nextOwn k n))
    | _ => false

/-- The slot that takes the seat of slot `k` in cycle `n` when `k` is not runnable (R20). -/
def State.donee (s : State) (c k n : Nat) : Option Nat :=
  let v := s.slotOwner k
  if k = 0 || k = 15 || 8 ≤ v then none
  else
    let own := (s.ownSlots v).filter (· != k)
    let last := (s.vfOf c v).lastDonated
    ((own.filter fun j => last < j) ++ own.filter fun j => j ≤ last).find? fun j => s.mayTake c j n

/-- The slot that issues in cycle `n` on core `c`, and whether the seat is donated. -/
def State.issuer (s : State) (c n : Nat) : Option (Nat × Bool) :=
  let k := n % 16
  if s.runnable c k then some (k, false) else (s.donee c k n).map fun j => (j, true)

/-- The first cycle of core `c` in which a slot may still issue. -/
def State.fromCycle (s : State) (c : Nat) : Nat :=
  let i := s.isl (islandOf c)
  let n := i.cycAt s.now
  let n := if i.cycleTick n < s.now then n + 1 else n
  match (s.coreOf c).lastCycle with
  | none => n
  | some m => max n (m + 1)

/-- The first issue of core `c` from cycle `n` on, within `fuel` cycles: the cycle, the slot, and whether its seat is donated. -/
def State.seatFrom (s : State) (c n : Nat) : Nat → Option (Nat × Nat × Bool)
  | 0 => none
  | fuel + 1 =>
    match s.issuer c n with
    | some (k, d) => some (n, k, d)
    | none => State.seatFrom s c (n + 1) fuel

/-- A seat in which a slot issues. -/
structure Seat where
  tick : Nat
  core : Nat
  slot : Nat
  cycle : Nat
  donated : Bool
  deriving DecidableEq, Repr

/-- The first seat of core `c` in which a slot issues: within sixteen cycles, or none while no slot becomes runnable. -/
def State.coreSeat (s : State) (c : Nat) : Option Seat :=
  (s.seatFrom c (s.fromCycle c) 16).map fun r =>
    { tick := max s.now ((s.isl (islandOf c)).cycleTick r.1), core := c, slot := r.2.1, cycle := r.1, donated := r.2.2 }

/-- The earlier of two seats; of two at one instant the first. -/
def earlier (a b : Option Seat) : Option Seat :=
  match a, b with
  | some x, some y => if y.tick < x.tick then b else a
  | none, b => b
  | a, none => a

/-- The next seat of the module in which a slot issues. -/
def State.nextSeat (s : State) : Option Seat := s.coreList.foldl (fun a c => earlier a (s.coreSeat c)) none

end Sys2Proof.Machine
end

