-- ==== Sys2Proof/Machine/Moves.lean ====
section
/-! DEFINITION. What comes next: the moves of the agenda, the instants that TIME brings, and, with nothing on the agenda, what the device does by
itself (R16 to R20, R304 to R330). The order of steps that no rule fixes is log 7's. -/

namespace Sys2Proof.Machine

/-! ## Instants that TIME brings -/

/-- A step of the device at an instant. -/
structure Due where
  tick : Nat
  act : Act
  deriving DecidableEq, Repr

/-- A step at an instant, if it has one. -/
def dueAt (t : Option Nat) (a : Act) : List Due :=
  match t with
  | none => []
  | some n => [⟨n, a⟩]

/-- A step that is due now, if a condition holds. -/
def State.dueIf (s : State) (b : Bool) (a : Act) : List Due := if b then [⟨s.now, a⟩] else []

/-- What is due for VF `v` at a turn's edges and donations (R307 to R311). -/
def State.vfDues (s : State) (v : Nat) : List Due :=
  dueAt (s.leadDue v) (.drainLead v) ++ dueAt (s.stopDue v) (.synchronisedStop v) ++
    (if s.savesDone v then dueAt (s.restoreDue v) (.turnEdgeRestore v) else []) ++ dueAt (s.donationDue v) (.donationEffect v)

/-- What is due for an island (R326). -/
def State.islandDues (s : State) (i : Nat) : List Due :=
  dueAt (s.relockDue i) (.relockComplete i) ++ dueAt (s.stepDue i) (.frequencyStep i)

/-- Whether any PC counts, or holds a total to sample (R322, R328). -/
def State.counts (s : State) : Bool := s.vfb.any (fun p => decide (0x300 ≤ p.1 % 0x100000) && decide (p.1 % 0x100000 < 0x340)) || !s.samples.isEmpty

/-- The instant at which HBC of an activity reaches HBI if its seats stay entitled: at the end of the cycle that brings it there, or in the cycle
in which an MTS to HBI lands (R152, R153). DEDUCED (log 81): a BEAT that issues in that very cycle has set HBC to zero by its end, and averts the miss. -/
def State.missDue (s : State) (c k : Nat) : Option Nat :=
  let x := s.slotOf c k
  if k = 0 || x.hbi = 0 || x.kill.isSome || !s.entitled c k then none
  else
    let n := x.hbi.toNat - x.hbc.toNat
    let i := s.isl (islandOf c)
    if n = 0 then some (max s.now (i.cycleTick (x.landsIn (.sys .hbi))))
    else
      let m := max (i.cycAt s.now) x.seen
      some (i.cycleTick (m + (k + 16 - m % 16) % 16 + 16 * (n - 1) + 1))

/-- Whether an activity that waits for software can be saved now (R307). -/
def State.parksNow (s : State) (c k : Nat) : Bool :=
  match (s.slotOf c k).status with
  | .wait w => w.software && k != 15 && (s.settledSlot c k).isSome
  | _ => false

/-- What is due for slot `k` of core `c` (R153, R154, R209, R307). -/
def State.slotDues (s : State) (c k : Nat) : List Due :=
  let x := s.slotOf c k
  let waiting := match x.status with
    | .wait _ => true
    | _ => false
  dueAt (s.missDue c k) (.heartbeatMiss c k) ++
    s.dueIf (waiting && s.atBoundary c k && x.hbPend && !x.ih) (.hbmissDelivery c k) ++
    s.dueIf ((x.preLead || x.prePreempt) && decide (x.maxpt.toNat < x.ptc.toNat) && s.landedIn c k (.sys .maxpt) && x.holds &&
      x.ptgap.isNone && !x.gap) (.ptgapRecord c k) ++
    s.dueIf ((x.preLead || x.prePreempt) && s.parksNow c k) (.waitPark c k)

/-- The end of the 256 cycles after a ring of core `c` that found nothing (R23). -/
def State.backoffDues (s : State) (c : Nat) : List Due :=
  let i := s.isl (islandOf c)
  if !i.powered then []
  else
    (s.coreOf c).vfs.flatMap fun p =>
      dueAt (p.2.backoff.map fun n => max s.now (i.cycleTick (n + 256))) (.stealBackoffExpiry c p.1)

/-- The next record of a traced slot's change of state: of a core's, in increasing slot order (R329). -/
def State.traceNow (s : State) : Option Act :=
  if !bit s.trctl 0 then none
  else
    s.coreList.findSome? fun c => (List.range 16).findSome? fun k =>
      let st := BitVec.ofNat 3 (s.traceCode c k)
      if (s.coreOf c).slots.any (fun p => p.1 == k) && s.traced k && (s.coreOf c).traceState.look k != some st then some (.traceStateRecord c k st)
      else none

/-- The slots that the state lists: core and slot. -/
def State.places (s : State) : List (Nat × Nat) := s.cores.flatMap fun p => p.2.slots.map fun q => (p.1, q.1)

/-- Everything that TIME brings. -/
def State.dues (s : State) : List Due :=
  (List.range 8).flatMap s.vfDues ++ dueAt (s.boundaryDue false) .turnBoundary ++ dueAt (s.boundaryDue true) .roundBoundary ++
    (List.range 32).flatMap s.islandDues ++ s.pcselPend.flatMap (fun p => dueAt (s.pcselDue (p.1 / 8) (p.1 % 8)) (.pcselEffect (p.1 / 8) (p.1 % 8))) ++
    dueAt s.trctlDue .trctlEffect ++ dueAt s.updateDue .liveUpdateTimeout ++ (if s.counts then dueAt s.sampleDue .pcTotalSample else []) ++
    s.coreList.flatMap s.backoffDues ++ s.places.flatMap fun q => s.slotDues q.1 q.2

/-- The earliest of the steps that TIME brings; of two at one instant the first in the list. -/
def earliest (l : List Due) : Option Due :=
  l.foldl
    (fun b d => match b with
      | none => some d
      | some x => if d.tick < x.tick then some d else b) none

/-- TIME passes to what is due, and it comes about. -/
def State.bring (s : State) (d : Due) : Pick := .act d.act (s.advance d.tick)

/-! ## Steps without an instant of their own -/

/-- Whether a halted cluster has yet to hold a packet (R358). -/
def State.ingressTakes (s : State) (pa : Nat) (p : Packet) : Bool :=
  match homeCluster pa with
  | some n => s.haltOn n && !(s.clus n).ingress.elem p
  | none => false

/-- A store or reply of a slot that may be performed now, or is to be held at a halted cluster (R179, R188, R248, R358). -/
def State.slotTraffic (s : State) (c k : Nat) : Option Act :=
  let x := s.slotOf c k
  let posted := postedWords x.posted
  match (List.range (x.storeBuf.flatMap StoreEntry.words).length).find? fun i =>
      !s.relocks c && ((s.drainWord c k i).isSome || (s.parkStore c k i).isSome) with
  | some i => some (.storeBufferDrain c k i)
  | none =>
    match (List.range posted.length).find? fun i => match posted[i]? with
        | none => false
        | some (j, w) => s.postReady c k j w || (mayPost x.posted j w && s.ingressTakes w (.store c k w) &&
            ((x.posted[j]?).map fun e => !s.linkHeld e.vf c e.target && !s.fifoHeld c e.target).getD false) with
    | some i => some (.postedStoreArrival c k i)
    | none =>
      ((List.range x.replies.length).find? fun i => match x.replies[i]? with
        | none => false
        | some r => !s.replyHeld c r || ((s.replyHome r).map fun pa => s.ingressTakes pa (.reply c k r.token.toNat)).getD false).map fun i =>
          .postedReplyArrival c k i

/-- What a slot out of rotation waits for, where it can come now (R19). -/
def State.slotReply (s : State) (c k : Nat) : Option Act :=
  match (s.slotOf c k).status with
  | .scrub => some (.slotScrubComplete c k)
  | .wait (.divide _ _) | .wait (.vdivide _ _ _ _) => some (.divideComplete c k)
  | .wait (.tupleSent _) =>
    match s.tsFlight c k with
    | none => none
    | some e =>
      if s.donated e.vf || s.relocks c || (s.isUnavail (regionPa e.region) && s.faultQ.elem ⟨regionPa e.region, c, k, .tuple⟩) then none
      else some (if e.req.isPut then .tsDepositArrival c k else .tsRequestArrival c k)
  | .wait w => if !s.relocks c && (s.served c k w).isSome then some (.memoryReply c k) else none
  | _ => none

/-- Whether the first message of a queue that may leave can (R24, R245). -/
def State.canDepart (s : State) (c k : Nat) (l : List Msg) : Bool :=
  match s.firstMsg l with
  | none => false
  | some (m, _) => !s.frozen c && (s.depart c k m).isSome

/-- What slot `k` of core `c` lets come about. -/
def State.slotActs (s : State) (c k : Nat) : Option Act :=
  (s.slotTraffic c k).orElse fun _ => (s.slotReply c k).orElse fun _ =>
    if (s.slotOf c k).sends && s.canDepart c k (s.slotOf c k).sendq then some (.messageEntry c k) else none

/-- Whether some core of the gang has a task to steal (R23). -/
def State.prey (s : State) (c v : Nat) : Bool :=
  (s.ring c v).1.any fun u => u != c && (!(s.vfOf u v).deque.isEmpty || !(s.vfOf u v).spilled.isEmpty)

/-- Whether a refill changes anything (R240, R241). -/
def State.refills (s : State) (c v : Nat) : Bool :=
  let cv := s.vfOf c v
  let s' := s.refill c v
  cv.deque.isEmpty && !cv.spilled.isEmpty && s.takesWork c v &&
    ((s'.vfOf c v).spilled.length != cv.spilled.length || (s'.vfOf c v).dqToldRefill != cv.dqToldRefill || bit (s'.pfReg (0x100 + 0x80 * v)) 1)

/-- Whether the system-channel message at the head of an inbound queue can act (R249). -/
def State.sysReady (s : State) (c v : Nat) : Bool :=
  s.takesWork c v &&
    match (s.vfOf c v).inbox with
    | [] => false
    | m :: _ =>
      match m.kind with
      | .sys chan =>
        match s.boundVf chan.toNat with
        | none => true
        | some u =>
          m.data.extractLsb' 0 64 == (0 : Word) ||
            ((s.vfOf c u).ready.getLsbD chan.toNat && !(s.vfOf c u).hold.getLsbD chan.toNat && s.dqTakes c u)
      | _ => false

/-- The steal of a core and VF that goes on now (R23). -/
def State.stealActs (s : State) (c v : Nat) : Option Act :=
  let cv := s.vfOf c v
  match cv.steal.bind fun t => t.found with
  | some _ =>
    if s.frozen c then none
    else if (s.takesWork c v && (s.emptySlot c v).isSome) || s.dqTakes c v then some (.stealArrival c v) else none
  | none =>
    match s.stealDist c v with
    | some d =>
      if (cv.steal.isSome || s.prey c v) && (match s.victim c v d with
          | none => true
          | some u => !s.frozen u) then some (.stealVisit c v) else none
    | none => none

/-- The matrix command of a VF that the array of a core starts (R212, R223). -/
def State.matrixAct (s : State) (c v : Nat) : Option Act :=
  if s.mxNext c = some v then
    (List.range 4).findSome? fun st => (s.mxReady c v st).map fun q => .matrix (cmdType q.cmd) c v st
  else
    (List.range 4).findSome? fun st => (s.mxCould c v st).bind fun q => (s.mxGone c v q.cmd).bind fun pa =>
      if s.faultQ.elem ⟨pa, c, q.slot, .matrix v q.seq⟩ then none else some (.matrix (cmdType q.cmd) c v st)

/-- What a VF on a core lets come about. -/
def State.vfActs (s : State) (c v : Nat) : Option Act :=
  let pop : Option Act :=
    if s.takesWork c v && !(s.vfOf c v).deque.isEmpty then (s.emptySlot c v).map fun k => .taskPop c k else none
  pop.orElse fun _ =>
    (if s.refills c v then some (.dequeRefill c v) else none).orElse fun _ =>
      (if s.sysReady c v then some (.systemChannelMessage c v) else none).orElse fun _ =>
        (if s.canDepart c 15 (s.vfOf c v).devOut then some (.messageEntry c (16 + v)) else none).orElse fun _ =>
          (s.matrixAct c v).orElse fun _ => s.stealActs c v

/-- What a core lets come about. -/
def State.coreActs (s : State) (c : Nat) : Option Act :=
  if (s.slotOf c 15).status = .empty && (s.nextHandler c).isSome then some (.handlerStart c)
  else if !s.frozen c && s.lodge.up && (s.nextQuartet c).isSome && decide ((s.engine (dieOf c) (engineOf c)).chain.length < 4096) then some (.mailboxService c)
  else none

/-- What a copy engine does (R253). -/
def State.engineActs (s : State) (d e : Nat) : Option Act :=
  let l := (s.engine d e).chain
  match (List.range l.length).find? fun i => match l[i]? with
      | none => false
      | some x => x.started && ((s.runCopy x).isSome ||
          ((s.copyGone x).map fun pa => !s.faultQ.elem ⟨pa, x.core, x.slot, .copy d e x.seq⟩).getD false) with
  | some i => some (.copyComplete d e i)
  | none =>
    match l.find? fun x => !x.started with
    | none => none
    | some x => if s.onTurn x.vf x.tenant && !s.frozen x.core && !s.donated x.vf then some (.copyStart d e) else none

/-- What a die lets come about (R164, R253). -/
def State.dieActs (s : State) (d : Nat) : Option Act :=
  if !(s.die d).invals.isEmpty then some (.rdcInvalidation d 0)
  else if !(s.die d).acks.isEmpty then some (.invalidationAck d 0)
  else (s.die d).engines.findSome? fun p => s.engineActs d p.1

/-- A packet the front end takes or rejects (R8). -/
def State.takeAct (s : State) : Option Act :=
  (List.range 192).findSome? fun e =>
    match s.headPacket (e / 48) (e % 48) with
    | none =>
      match (s.resident (e / 48) (e % 48)).filter fun q => s.vqs.any fun x => x.vf == q.1 && x.tenant == q.2.1 && x.vq == q.2.2 with
      | none => none
      | some q => (s.takeGone q.1 q.2.1 q.2.2).bind fun pa =>
        if s.faultQ.elem ⟨pa, 0, 19, .take (e / 48) (e % 48)⟩ then none else some (.launchTake (e / 48) (e % 48))
    | some (v, _, _, _, p, _) => if s.outranked (e / 48) (e % 48) v (field (pkt p 5) 31 28) then none else some (.launchTake (e / 48) (e % 48))

/-- What a launch lets come about: the release of its next gang, or a sweep that finds it idle (R9, R31). -/
def State.launchAct (s : State) (l : Nat) (x : Launch) : Option Act :=
  if s.mayRelease l x.released then some (.gangRelease l x.released)
  else if s.maySweep x && (s.sweepOf l x).1 && (s.sweepOf l x).2.1 == (s.sweepOf l x).2.2 then some (.launchSweep l)
  else none

/-- The placing of a queue with waiting packets (R314). -/
def State.placeAct (s : State) (q : Vq) : Option Act :=
  let d := (s.vqDesc q.vf q.tenant q.vq).die
  if 8 ≤ q.vf || !s.waiting q.vf q.tenant q.vq || !(s.residency q.vf q.tenant q.vq).isEmpty then none
  else if !s.vfIsUp q.vf || s.hwqMask q.vf d = 0 then some (.vqPlacement q.vf q.tenant q.vq d 0)
  else (s.placeFor q.vf d).map fun k => .vqPlacement q.vf q.tenant q.vq d k

/-- A collective that completes now (R256). -/
def State.collAct (s : State) : Option Act :=
  ((List.range s.colls.length).find? fun i => match s.colls[i]? with
    | none => false
    | some q => (!s.collHeld q && (s.linkFails q || s.partsDone q)) || (match s.collGone q, q.parts.head? with
        | some pa, some p => !s.faultQ.elem ⟨pa, p.core, p.slot, .collective⟩
        | _, _ => false)).map .collectiveComplete

/-- What the device does by itself, with nothing on the agenda: the first step that can come about (log 7). -/
def State.internal (s : State) : Option Act :=
  (((List.range 8).find? fun v => bit (s.pfReg (0x100 + 0x80 * v)) 1).map Act.vfReset).orElse fun _ =>
  (s.nextReplay.map fun q => Act.faultQueueReplay (q.pa / 4096)).orElse fun _ =>
  (s.places.findSome? fun q => s.slotActs q.1 q.2).orElse fun _ =>
  ((s.waiters.find? fun w => w.held && !s.heldHome w.pa && decide (s.homeUsed w.home < 256)).map fun w => .deferredEntryJoin w.home).orElse fun _ =>
  ((List.range 4).findSome? s.dieActs).orElse fun _ =>
  ((s.saved.find? fun x => x.late.isSome).map fun x => .lateReplyLand x.vf x.tenant x.core x.slot).orElse fun _ =>
  (s.coreList.findSome? fun c => (List.range 8).findSome? fun v => s.vfActs c v).orElse fun _ =>
  (s.coreList.findSome? s.coreActs).orElse fun _ =>
  s.collAct.orElse fun _ =>
  (s.launches.findSome? fun p => s.launchAct p.1 p.2).orElse fun _ =>
  s.takeAct.orElse fun _ =>
  (s.vqs.findSome? s.placeAct).orElse fun _ =>
  (s.clusters.find? fun p => s.haltReady p.1).map fun p => .haltComplete p.1

/-! ## The next step -/

/-- The instant of an event of the agenda that waits for one (R304 to R330). -/
def State.evTick (s : State) : Instr → Option Nat
  | .drainLead v => s.leadDue v
  | .synchronisedStop v => s.stopDue v
  | .turnEdgeRestore v => s.restoreDue v
  | .turnBoundary => s.boundaryDue false
  | .roundBoundary => s.boundaryDue true
  | .donationEffect v => s.donationDue v
  | .frequencyStep i => s.stepDue i
  | .relockComplete i => s.relockDue i
  | .ncycAnchor i => if i < 32 then some (s.tickOf ((s.time / 1024 + 1) * 1024)) else none
  | .ncycHeldClear i => s.heldDue i
  | .timeCorrection ppm => if ppm ≠ 0 ∧ ppm.natAbs ≤ 100 then some (s.slewDue ppm) else none
  | .pcselEffect v j => if j < 8 then s.pcselDue v j else none
  | .trctlEffect => s.trctlDue
  | .pcTotalSample => s.sampleDue
  | .liveUpdateAbandon r => if r = 4 then s.updateDue else none
  | _ => none

/-- What TIME brings before an instant, or at it where `also` is set. -/
def State.dueBefore (s : State) (tick : Nat) (also : Bool) : Option Due :=
  (earliest s.dues).filter fun d => d.tick < tick || (also && d.tick == tick)

/-- The next seat in which a slot issues, unless TIME brings something first: `rest` is the agenda after it. -/
def State.seatMove (s : State) (rest : List Move) : Pick :=
  match s.nextSeat with
  | none => .done { s with agenda := rest }
  | some q =>
    match s.dueBefore q.tick true with
    | some d => s.bring d
    | none => { s with agenda := rest }.takeSeat q.core q.slot q.cycle q.tick q.donated

/-- An event of the agenda. One that waits for an instant lets every seat before it issue, and what TIME brings before it come about: no
event takes a runnable slot's seat (R18, R28). -/
def State.eventMove (s : State) (i : Instr) (rest : List Move) : Pick :=
  match s.evTick i with
  | none => .instr i { s with agenda := rest }
  | some t =>
    let seat := s.nextSeat.filter fun q => q.tick < t
    match s.dueBefore ((seat.map fun q => q.tick).getD t) seat.isSome with
    | some d => s.bring d
    | none =>
      match seat with
      | some q => s.takeSeat q.core q.slot q.cycle q.tick q.donated
      | none => .instr i { s with agenda := rest }

/-- With nothing on the agenda: a step of the device by itself, else the next seat, else what TIME brings. -/
def State.idleMove (s : State) : Pick :=
  match s.internal with
  | some a => .act a s
  | none =>
    match s.nextSeat, earliest s.dues with
    | none, none => .done s
    | none, some d => s.bring d
    | some _, _ => s.seatMove []

/-- What the machine does next: a change of a traced slot is recorded before anything else changes it (R329). -/
def State.pick (s : State) : Pick :=
  match s.traceNow with
  | some a => .act a s
  | none =>
    match s.agenda with
    | [] => s.idleMove
    | .seat :: rest => s.seatMove rest
    | .ev i :: rest => s.eventMove i rest

end Sys2Proof.Machine
end

