-- ==== Sys2Proof/Machine/Step.lean ====
section
/-! DEFINITION. One step of the machine, and an instruction placed where the next step issues it. -/

namespace Sys2Proof.Machine

/-- One step: what `State.pick` finds to come next. -/
def step (s : State) : Host.Outcome State Fault Refusal :=
  match s.pick with
  | .done s' => .next s'
  | .instr i s' => exec i s'
  | .act a s' => a.run s'

/-- The slot of core 0 that runs a placed instruction: general slot 1, or the movement slot for words that only it decodes. -/
def placeSlot (ws : List Half) : Nat :=
  match decode {} ws with
  | .ok _ => 1
  | .error _ => match decode { slot0 := true } ws with
    | .ok _ => 0
    | .error _ => 1

/-- The virtual address of a placed instruction: physical, in the movement slot (log 10). -/
def placeVa : Word := 0x40000000

/-- The machine with an instruction placed where its next step issues it, as a launch packet's first activity would stand on a machine whose
other slots hold nothing (log 25): a turn row of VF 0, which owns slot 1, the slot running at the instruction, its bytes in near
memory, and the next move the next seat. -/
def State.withFetchWord (s : State) (nbits w : Nat) : State :=
  let ws := tableWords nbits w
  let k := placeSlot ws
  let entry : TlbEntry := { vf := 0, pasid := BitVec.ofNat 20 (s.pasid 0 0), vpn := 1, bits := 30, pa := 0x40000000, kind := .near,
                            rankClass := 0, w := true, x := true, fe := true, pr := false }
  let x : Slot := { status := .run, kind := if k = 0 then .movement else .first, pc := placeVa, pl := if k = 0 then 2 else 0, ppl := if k = 0 then 2 else 0 }
  let row : Row := { len := 65535, vfs := [(0, { idle := false })] }
  let s := { s with agenda := [.seat], mem := s.mem.store 0x40000000 (bytesOf ws ++ List.replicate 8 0), full := (List.range (((bytesOf ws).length + 15) / 8)).foldl (fun l i => setAdd l (0x40000000 + 8 * i)) s.full,
                    band := { rows := [row], started := true, epoch := s.time } }
  let s := s.setPf 0x108 2
  (s.setSlot 0 k x).modCore 0 fun co => { co with utlb := entry :: co.utlb, icache := [] }

end Sys2Proof.Machine
end

