-- ==== Sys2Proof/Safety.lean ====
section
/-! DEFINITION. The terms in which statements about the machine are made: what an instruction leaves alone, and, rule by rule, the
results the spec gives, written from its tables with integers and rationals and not with the machine's own operations. -/

namespace Sys2Proof.Safety

open Sys2Proof.Machine

/-! ## What is left alone -/

/-- Nothing changes but the issuing slot and the writes on their way to the shared registers of its core. -/
def Elsewhere (s t : State) : Prop :=
  t = { s with cores := t.cores } ∧ (∀ c, c ≠ s.core → t.coreOf c = s.coreOf c) ∧
    (∀ k, k ≠ s.slot → t.slotOf s.core k = s.slotOf s.core k) ∧
    t.coreOf s.core = { s.coreOf s.core with slots := (t.coreOf s.core).slots, landing := (t.coreOf s.core).landing }

/-- Every register but `d` reads as before. -/
def RegsKept (s t : State) (d : Option RegName) : Prop :=
  (∀ r, d ≠ some (.s r) → t.sreg r = s.sreg r) ∧ (∀ r, d ≠ some (.v r) → t.vreg r = s.vreg r) ∧
    ∀ p, d ≠ some (.p p) → t.preg p = s.preg p

/-- Every system register but those of a list reads as before (R96). -/
def SysKept (s t : State) (w : List SysReg) : Prop := ∀ n, n ∉ w → t.readSys n = s.readSys n

/-- The queues, mailboxes and marks of the issuing slot stay: only its registers, its pc, LC and FPFLAGS, and whether it runs may
change. -/
def SlotKept (s t : State) : Prop :=
  t.cur = { s.cur with s := t.cur.s, v := t.cur.v, p := t.cur.p, pc := t.cur.pc, lc := t.cur.lc, fpflags := t.cur.fpflags,
                       regErr := t.cur.regErr, status := t.cur.status }

/-- Every byte of memory reads as before. -/
def SameMemory (s t : State) : Prop := ∀ a, t.mem.get a = s.mem.get a

/-- Every byte of memory outside `n` bytes from `a` reads as before. -/
def SameOutside (s t : State) (a n : Nat) : Prop := ∀ b, b < a ∨ a + n ≤ b → t.mem.get b = s.mem.get b

/-- An outcome that is a next state. -/
def Completes (o : Out) : Prop := ∃ t, o = .next t

/-! ## Scalar results (R112 to R119) -/

/-- The predication, latency (R109), destination and value of the moves of R112. -/
def moveResult (s : State) : Instr → Option (Pred × Nat × Reg × Word)
  | .mov g d a => some (g, 2, d, s.ssrc a)
  | .movi g d imm => some (g, 2, d, BitVec.ofInt 64 imm.toInt)
  | .lea g d imm => some (g, 2, d, BitVec.ofInt 64 (s.cur.pc.toNat + imm.toInt))
  | _ => none

/-- The table of R113. -/
def arithResult (s : State) : Instr → Option (Pred × Nat × Reg × Word)
  | .add g d a b => some (g, 2, d, BitVec.ofNat 64 ((s.ssrc a).toNat + (s.ssrc b).toNat))
  | .addi g d imm => some (g, 2, d, BitVec.ofInt 64 ((s.sreg d).toInt + imm.toInt))
  | .sub g d a b => some (g, 2, d, BitVec.ofInt 64 ((s.ssrc a).toInt - (s.ssrc b).toInt))
  | .mul g d a b => some (g, 5, d, BitVec.ofInt 64 ((s.ssrc a).toInt * (s.ssrc b).toInt))
  | .mulh g d a b => some (g, 5, d, BitVec.ofInt 64 ⌊(((s.ssrc a).toInt * (s.ssrc b).toInt : Int) : ℚ) / 2 ^ 64⌋)
  | .mulhu g d a b => some (g, 5, d, BitVec.ofInt 64 ⌊(((s.ssrc a).toNat * (s.ssrc b).toNat : Nat) : ℚ) / 2 ^ 64⌋)
  | .min g d a b => some (g, 2, d, BitVec.ofInt 64 (min (s.ssrc a).toInt (s.ssrc b).toInt))
  | .max g d a b => some (g, 2, d, BitVec.ofInt 64 (max (s.ssrc a).toInt (s.ssrc b).toInt))
  | .minu g d a b => some (g, 2, d, BitVec.ofNat 64 (min (s.ssrc a).toNat (s.ssrc b).toNat))
  | .maxu g d a b => some (g, 2, d, BitVec.ofNat 64 (max (s.ssrc a).toNat (s.ssrc b).toNat))
  | .abs g d b => some (g, 2, d, BitVec.ofInt 64 |(s.ssrc b).toInt|)
  | .neg g d b => some (g, 2, d, BitVec.ofInt 64 (-(s.ssrc b).toInt))
  | _ => none

/-- The table of R115. -/
def bitResult (s : State) : Instr → Option (Pred × Nat × Reg × Word)
  | .and g d a b => some (g, 2, d, s.ssrc a &&& s.ssrc b)
  | .or g d a b => some (g, 2, d, s.ssrc a ||| s.ssrc b)
  | .xor g d a b => some (g, 2, d, s.ssrc a ^^^ s.ssrc b)
  | .andi g d imm => some (g, 2, d, s.sreg d &&& BitVec.ofInt 64 imm.toInt)
  | .ori g d imm => some (g, 2, d, s.sreg d ||| BitVec.ofNat 64 imm.toNat)
  | .shl g d a b => some (g, 2, d, BitVec.ofNat 64 ((s.ssrc a).toNat * 2 ^ ((s.ssrc b).toNat % 64)))
  | .shli g d n => some (g, 2, d, BitVec.ofNat 64 ((s.sreg d).toNat * 2 ^ n.toNat))
  | .shr g d a b => some (g, 2, d, BitVec.ofNat 64 ((s.ssrc a).toNat / 2 ^ ((s.ssrc b).toNat % 64)))
  | .shri g d n => some (g, 2, d, BitVec.ofNat 64 ((s.sreg d).toNat / 2 ^ n.toNat))
  | .sar g d a b => some (g, 2, d, BitVec.ofInt 64 ((s.ssrc a).toInt / 2 ^ ((s.ssrc b).toNat % 64)))
  | .sari g d n => some (g, 2, d, BitVec.ofInt 64 ((s.sreg d).toInt / 2 ^ n.toNat))
  | .rotl g d a b =>
    some (g, 2, d, BitVec.ofNat 64 ((s.ssrc a).toNat * 2 ^ ((s.ssrc b).toNat % 64)) |||
      BitVec.ofNat 64 ((s.ssrc a).toNat / 2 ^ (64 - (s.ssrc b).toNat % 64)))
  | .clz g d b => some (g, 3, d, (s.ssrc b).clz)
  | .ctz g d b => some (g, 3, d, (s.ssrc b).ctz)
  | .popc g d b => some (g, 3, d, (s.ssrc b).cpop)
  | .brev g d b => some (g, 3, d, (s.ssrc b).reverse)
  | _ => none

/-- The width codes of R116 in bits. -/
def widthBits : Width → Nat
  | .b => 8 | .h => 16 | .w => 32 | .d => 64

/-- The bit fields of R116, and SEL (R117). -/
def fieldResult (s : State) : Instr → Option (Pred × Nat × Reg × Word)
  | .ext g d b pos w1 => some (g, 2, d, ((s.ssrc b).extractLsb' pos.toNat (w1.toNat + 1)).signExtend 64)
  | .extu g d b pos w1 => some (g, 2, d, ((s.ssrc b).extractLsb' pos.toNat (w1.toNat + 1)).setWidth 64)
  | .ins g d b pos w1 =>
    let m : Word := BitVec.ofNat 64 (2 ^ (w1.toNat + 1) - 1) <<< pos.toNat
    some (g, 2, d, ((s.ssrc b <<< pos.toNat) &&& m) ||| (s.sreg d &&& ~~~m))
  | .sext g d b w => some (g, 2, d, ((s.ssrc b).setWidth (widthBits w)).signExtend 64)
  | .zext g d b w => some (g, 2, d, ((s.ssrc b).setWidth (widthBits w)).setWidth 64)
  | .sel g d a b => some (g, 2, d, if s.preg 0 &&& 1 = 1 then s.ssrc a else s.ssrc b)
  | _ => none

/-- All sixteen bits of a predicate alike. -/
def alike (p : Prop) [Decidable p] : BitVec 16 := if p then 0xFFFF else 0x0000

/-- The compares of R118. -/
def compareResult (s : State) : Instr → Option (Pred × PReg × BitVec 16)
  | .cmpeq g d a b => some (g, d, alike (s.ssrc a = s.ssrc b))
  | .cmpeqi g d a imm => some (g, d, alike ((s.ssrc a).toInt = imm.toInt))
  | .cmpne g d a b => some (g, d, alike (s.ssrc a ≠ s.ssrc b))
  | .cmplt g d a b => some (g, d, alike ((s.ssrc a).toInt < (s.ssrc b).toInt))
  | .cmplti g d a imm => some (g, d, alike ((s.ssrc a).toInt < imm.toInt))
  | .cmpge g d a b => some (g, d, alike ((s.ssrc a).toInt ≥ (s.ssrc b).toInt))
  | .cmpltu g d a b => some (g, d, alike ((s.ssrc a).toNat < (s.ssrc b).toNat))
  | .cmpltui g d a imm => some (g, d, alike ((s.ssrc a).toNat < imm.toNat))
  | .cmpgeu g d a b => some (g, d, alike ((s.ssrc a).toNat ≥ (s.ssrc b).toNat))
  | _ => none

/-- The predicate instructions of R119 whose destination is a predicate. -/
def predicateResult (s : State) : Instr → Option (Pred × PReg × BitVec 16)
  | .pand g d a b => some (g, d, BitVec.ofFnLE fun i => s.preg a |>.getLsbD i |>.and ((s.preg b).getLsbD i))
  | .por g d a b => some (g, d, BitVec.ofFnLE fun i => s.preg a |>.getLsbD i |>.or ((s.preg b).getLsbD i))
  | .pxor g d a b => some (g, d, BitVec.ofFnLE fun i => (s.preg a).getLsbD i ^^ (s.preg b).getLsbD i)
  | .pnot g d b => some (g, d, BitVec.ofFnLE fun i => !(s.preg b).getLsbD i)
  | .pset g d imm => some (g, d, imm)
  | .pmovp g d b => some (g, d, BitVec.ofNat 16 (s.ssrc b).toNat)
  | _ => none

/-- The quotient and remainder of R114. -/
def divideOf (signed : Bool) (a b : Word) : Int × Int :=
  if b.toNat = 0 then (0xFFFFFFFFFFFFFFFF, a.toInt)
  else if signed && a.toInt = -2 ^ 63 && b.toInt = -1 then (a.toInt, 0)
  else if signed then (Int.tdiv a.toInt b.toInt, a.toInt - Int.tdiv a.toInt b.toInt * b.toInt)
  else ((a.toNat / b.toNat : Nat), a.toNat - (a.toNat / b.toNat : Nat) * (b.toNat : Int))

/-- The divides of R114. -/
def divResult (s : State) : Instr → Option (Pred × Reg × Word)
  | .div g d a b => some (g, d, BitVec.ofInt 64 (divideOf true (s.ssrc a) (s.ssrc b)).1)
  | .divu g d a b => some (g, d, BitVec.ofInt 64 (divideOf false (s.ssrc a) (s.ssrc b)).1)
  | .rem g d a b => some (g, d, BitVec.ofInt 64 (divideOf true (s.ssrc a) (s.ssrc b)).2)
  | .remu g d a b => some (g, d, BitVec.ofInt 64 (divideOf false (s.ssrc a) (s.ssrc b)).2)
  | _ => none

/-! ## Vector results (R125 to R127, R137 to R141) -/

/-- A lane read as signed or as unsigned (R126). -/
def laneInt (u : Bool) (x : Lane) : Int := if u then x.toNat else x.toInt

/-- Byte `j` of a lane read as signed or as unsigned (R126). -/
def byteInt (u : Bool) (x : Lane) (j : Nat) : Int :=
  let b : BitVec 8 := x.extractLsb' (8 * j) 8
  if u then b.toNat else b.toInt

/-- Halfword, byte or nibble `k` of a register (R121). -/
def part (w : Nat) (v : Vec) (k : Nat) : BitVec w := v.extractLsb' (w * k) w

/-- The integer lanes of R125. -/
def laneResult (s : State) : Instr → Option (Pred × Nat × Reg × (Nat → Lane))
  | .vmov g d b => some (g, 2, d, fun i => lane (s.vsrc b) i)
  | .vbcast g d b => some (g, 2, d, fun _ => BitVec.ofNat 32 (s.ssrc b).toNat)
  | .vadd g d a b => some (g, 2, d, fun i => BitVec.ofNat 32 ((lane (s.vsrc a) i).toNat + (lane (s.vsrc b) i).toNat))
  | .vaddi g d imm => some (g, 2, d, fun i => BitVec.ofInt 32 ((lane (s.vreg d) i).toInt + imm.toInt))
  | .vsub g d a b => some (g, 2, d, fun i => BitVec.ofInt 32 ((lane (s.vsrc a) i).toInt - (lane (s.vsrc b) i).toInt))
  | .vmul g d a b => some (g, 5, d, fun i => BitVec.ofNat 32 ((lane (s.vsrc a) i).toNat * (lane (s.vsrc b) i).toNat))
  | .vmulh g d a b u =>
    some (g, 5, d, fun i => BitVec.ofInt 32 ⌊((laneInt u (lane (s.vsrc a) i) * laneInt u (lane (s.vsrc b) i) : Int) : ℚ) / 2 ^ 32⌋)
  | .vmin g d a b => some (g, 2, d, fun i => BitVec.ofInt 32 (min (lane (s.vsrc a) i).toInt (lane (s.vsrc b) i).toInt))
  | .vmax g d a b => some (g, 2, d, fun i => BitVec.ofInt 32 (max (lane (s.vsrc a) i).toInt (lane (s.vsrc b) i).toInt))
  | .vminu g d a b => some (g, 2, d, fun i => BitVec.ofNat 32 (min (lane (s.vsrc a) i).toNat (lane (s.vsrc b) i).toNat))
  | .vmaxu g d a b => some (g, 2, d, fun i => BitVec.ofNat 32 (max (lane (s.vsrc a) i).toNat (lane (s.vsrc b) i).toNat))
  | .vabs g d b => some (g, 2, d, fun i => BitVec.ofInt 32 |(lane (s.vsrc b) i).toInt|)
  | .vneg g d b => some (g, 2, d, fun i => BitVec.ofInt 32 (-(lane (s.vsrc b) i).toInt))
  | .vand g d a b => some (g, 2, d, fun i => lane (s.vsrc a) i &&& lane (s.vsrc b) i)
  | .vor g d a b => some (g, 2, d, fun i => lane (s.vsrc a) i ||| lane (s.vsrc b) i)
  | .vxor g d a b => some (g, 2, d, fun i => lane (s.vsrc a) i ^^^ lane (s.vsrc b) i)
  | .vshl g d a b => some (g, 2, d, fun i => BitVec.ofNat 32 ((lane (s.vsrc a) i).toNat * 2 ^ ((lane (s.vsrc b) i).toNat % 32)))
  | .vshli g d n => some (g, 2, d, fun i => BitVec.ofNat 32 ((lane (s.vreg d) i).toNat * 2 ^ n.toNat))
  | .vshr g d a b => some (g, 2, d, fun i => BitVec.ofNat 32 ((lane (s.vsrc a) i).toNat / 2 ^ ((lane (s.vsrc b) i).toNat % 32)))
  | .vshri g d n => some (g, 2, d, fun i => BitVec.ofNat 32 ((lane (s.vreg d) i).toNat / 2 ^ n.toNat))
  | .vsar g d a b => some (g, 2, d, fun i => BitVec.ofInt 32 ((lane (s.vsrc a) i).toInt / 2 ^ ((lane (s.vsrc b) i).toNat % 32)))
  | .vsari g d n => some (g, 2, d, fun i => BitVec.ofInt 32 ((lane (s.vreg d) i).toInt / 2 ^ n.toNat))
  | .vpopc g d b => some (g, 3, d, fun i => (lane (s.vsrc b) i).cpop)
  | .vclz g d b => some (g, 3, d, fun i => (lane (s.vsrc b) i).clz)
  | _ => none

/-- The saturating and accumulating lanes of R126. -/
def laneResult2 (s : State) : Instr → Option (Pred × Nat × Reg × (Nat → Lane))
  | .vaddsat g d a b u =>
    some (g, 2, d, fun i =>
      let x := laneInt u (lane (s.vsrc a) i) + laneInt u (lane (s.vsrc b) i)
      BitVec.ofInt 32 (if u then min x (2 ^ 32 - 1) else max (-2 ^ 31) (min x (2 ^ 31 - 1))))
  | .vsubsat g d a b u =>
    some (g, 2, d, fun i =>
      let x := laneInt u (lane (s.vsrc a) i) - laneInt u (lane (s.vsrc b) i)
      BitVec.ofInt 32 (if u then max x 0 else max (-2 ^ 31) (min x (2 ^ 31 - 1))))
  | .vmad g d a b =>
    some (g, 5, d, fun i => BitVec.ofNat 32 ((lane (s.vreg d) i).toNat + (lane (s.vsrc a) i).toNat * (lane (s.vsrc b) i).toNat))
  | .vdot4 g d a b mode =>
    some (g, 5, d, fun i =>
      let x (j : Nat) := byteInt (mode = .uu) (lane (s.vsrc a) i) j
      let y (j : Nat) := byteInt (mode ≠ .ss) (lane (s.vsrc b) i) j
      BitVec.ofInt 32 ((lane (s.vreg d) i).toInt + (x 0 * y 0 + x 1 * y 1 + x 2 * y 2 + x 3 * y 3)))
  | _ => none

/-- The vector compares of R127: bit `i`. -/
def laneCompare (s : State) : Instr → Option (Pred × PReg × (Nat → Bool))
  | .vcmpeq g d a b => some (g, d, fun i => decide (lane (s.vsrc a) i = lane (s.vsrc b) i))
  | .vcmpne g d a b => some (g, d, fun i => decide (lane (s.vsrc a) i ≠ lane (s.vsrc b) i))
  | .vcmplt g d a b => some (g, d, fun i => decide ((lane (s.vsrc a) i).toInt < (lane (s.vsrc b) i).toInt))
  | .vcmpge g d a b => some (g, d, fun i => decide ((lane (s.vsrc a) i).toInt ≥ (lane (s.vsrc b) i).toInt))
  | .vcmpltu g d a b => some (g, d, fun i => decide ((lane (s.vsrc a) i).toNat < (lane (s.vsrc b) i).toNat))
  | .vcmpgeu g d a b => some (g, d, fun i => decide ((lane (s.vsrc a) i).toNat ≥ (lane (s.vsrc b) i).toNat))
  | _ => none

/-- The predicate a compare leaves (R122): bit `i` where lane `i` acts, and the old bit elsewhere. -/
def maskedBits (m old : BitVec 16) (f : Nat → Bool) : BitVec 16 :=
  BitVec.ofFnLE fun i => if m.getLsbD i then f i else old.getLsbD i

/-- A signed value held to a width, signed or unsigned, or its low bits (R139). -/
def satTo (sat : Sat) (w : Nat) (x : Lane) : BitVec w :=
  match sat with
  | .trunc => x.setWidth w
  | .signed => BitVec.ofInt w (max (-2 ^ (w - 1)) (min x.toInt (2 ^ (w - 1) - 1)))
  | .unsigned => BitVec.ofInt w (max 0 (min x.toInt (2 ^ w - 1)))

/-- An element extended to a lane (R139). -/
def extTo {w : Nat} (sg : Bool) (x : BitVec w) : Lane := if sg then x.signExtend 32 else x.setWidth 32

/-- What R138 and R139 say of each part of the destination of a lane-moving instruction: the width of a part, and part `k`. -/
def movedPart (s : State) : Instr → Option (Pred × Reg × ((w : Nat) × (Nat → BitVec w)))
  | .vperm g d a b => some (g, d, ⟨32, fun i => lane (s.vsrc a) (lane (s.vsrc b) i &&& 15).toNat⟩)
  | .vpack g d a b mode sat =>
    if mode = 0 then some (g, d, ⟨16, fun k => satTo sat 16 (if k < 16 then lane (s.vsrc a) k else lane (s.vsrc b) (k - 16))⟩)
    else if mode = 1 then
      some (g, d, ⟨8, fun k => if k < 32 then satTo sat 8 (if k < 16 then lane (s.vsrc a) k else lane (s.vsrc b) (k - 16)) else 0⟩)
    else if mode = 3 then none
    else
      let c (k : Nat) : BitVec 8 := part 8 (s.vsrc a) k &&& 0x3F
      some (g, d, ⟨8, fun j =>
        if j < 32 then (c (2 * j) >>> 2) ||| (c (2 * j + 1) >>> 2 <<< 4)
        else if j < 48 then
          let j := j - 32
          (c (4 * j) &&& 3) ||| ((c (4 * j + 1) &&& 3) <<< 2) ||| ((c (4 * j + 2) &&& 3) <<< 4) ||| ((c (4 * j + 3) &&& 3) <<< 6)
        else 0⟩)
  | .vunpk g d b mode p sg =>
    if mode = 0 then some (g, d, ⟨32, fun i => extTo sg (part 16 (s.vsrc b) (16 * p.toNat + i))⟩)
    else if mode = 1 then some (g, d, ⟨32, fun i => extTo sg (part 8 (s.vsrc b) (16 * p.toNat + i))⟩)
    else if mode = 3 then none
    else
      some (g, d, ⟨8, fun k =>
        ((part 4 (s.vsrc b) k).setWidth 8 <<< 2) ||| ((part 8 (s.vsrc b) (32 + k / 4) >>> (2 * (k % 4))) &&& 3)⟩)
  | _ => none

/-! ## Float results over the rationals (R82 to R86, R128 to R133) -/

/-- An exact result before rounding: a NaN, with whether NV is set; an infinity, with whether DZ is; or a rational, with the sign of
the result where it is zero. -/
inductive Exact where
  | nan (nv : Bool)
  | inf (neg dz : Bool)
  | val (q : ℚ) (neg : Bool)

/-- The exact value of an operand: a signalling NaN sets NV (R83). -/
def Exact.of : FNum → Exact
  | .nan sig => .nan sig
  | .inf n => .inf n false
  | .fin n m e => .val ((if n then -1 else 1) * m * (2 : ℚ) ^ e) n

/-- The FP32 operand of a lane. -/
def Exact.lane (x : Lane) : Exact := .of (readLane x)

/-- The sign of an exact result, 1 for negative. -/
def Exact.sign : Exact → Bool
  | .nan _ => false
  | .inf n _ => n
  | .val q n => if q = 0 then n else decide (q < 0)

/-- The negation (R128). -/
def Exact.neg : Exact → Exact
  | .nan v => .nan v
  | .inf n z => .inf (!n) z
  | .val q n => .val (-q) (!n)

/-- The sum (R82, R83): infinities of opposite sign are invalid; a zero sum of opposite signs is -0 in RDN and +0 otherwise. -/
def Exact.add (mode : Rnd) : Exact → Exact → Exact
  | .nan a, .nan b => .nan (a || b)
  | .nan a, _ => .nan a
  | _, .nan b => .nan b
  | .inf a _, .inf b _ => if a = b then .inf a false else .nan true
  | .inf a _, .val _ _ => .inf a false
  | .val _ _, .inf b _ => .inf b false
  | .val p a, .val q b =>
    .val (p + q) (if (Exact.val p a).sign = (Exact.val q b).sign then (Exact.val p a).sign else decide (mode = .rdn))

/-- The product (R83): infinity times zero is invalid. -/
def Exact.mul : Exact → Exact → Exact
  | .nan a, .nan b => .nan (a || b)
  | .nan a, _ => .nan a
  | _, .nan b => .nan b
  | .inf a _, .inf b _ => .inf (a ^^ b) false
  | .inf a _, .val q b => if q = 0 then .nan true else .inf (a ^^ (Exact.val q b).sign) false
  | .val p a, .inf b _ => if p = 0 then .nan true else .inf ((Exact.val p a).sign ^^ b) false
  | .val p a, .val q b => .val (p * q) ((Exact.val p a).sign ^^ (Exact.val q b).sign)

/-- The quotient (R83, R129). -/
def Exact.div : Exact → Exact → Exact
  | .nan a, .nan b => .nan (a || b)
  | .nan a, _ => .nan a
  | _, .nan b => .nan b
  | .inf _ _, .inf _ _ => .nan true
  | .inf a _, .val q b => .inf (a ^^ (Exact.val q b).sign) false
  | .val p a, .inf b _ => .val 0 ((Exact.val p a).sign ^^ b)
  | .val p a, .val q b =>
    if q = 0 then (if p = 0 then .nan true else .inf ((Exact.val p a).sign ^^ (Exact.val q b).sign) true)
    else .val (p / q) ((Exact.val p a).sign ^^ (Exact.val q b).sign)

/-- Times a power of two (R129, R140). -/
def Exact.scale (n : Int) : Exact → Exact
  | .nan a => .nan a
  | .inf a _ => .inf a false
  | .val p a => .val (p * 2 ^ n) a

/-- A rational rounded to an integer in a mode (R82). -/
def roundInt (mode : Rnd) (x : ℚ) : Int :=
  match mode with
  | .rne => if x - ⌊x⌋ < 1 / 2 then ⌊x⌋ else if 1 / 2 < x - ⌊x⌋ then ⌊x⌋ + 1 else if ⌊x⌋ % 2 = 0 then ⌊x⌋ else ⌊x⌋ + 1
  | .rtz => if 0 ≤ x then ⌊x⌋ else ⌈x⌉
  | .rup => ⌈x⌉
  | .rdn => ⌊x⌋

/-- A nonzero rational rounded to the digits of a format, with no bound above (R82). -/
def roundRat (f : Fmt) (mode : Rnd) (x : ℚ) : ℚ :=
  let u : ℚ := 2 ^ (max (Int.log 2 |x|) (1 - (f.bias : Int)) - (f.fbits : Int))
  roundInt mode (x / u) * u

/-- A nonzero rational rounded to the digits of a format, with no bound above or below. -/
def roundWide (f : Fmt) (mode : Rnd) (x : ℚ) : ℚ :=
  let u : ℚ := 2 ^ (Int.log 2 |x| - (f.fbits : Int))
  roundInt mode (x / u) * u

/-- What rounding an exact result into a format gives: the code, and the flags (R82, R83). UF is set where the result is tiny after rounding, which IEEE
754-2019 says of the result rounded as if the exponent had no lower bound, and inexact. -/
def Exact.Gives (f : Fmt) (mode : Rnd) (x : Exact) (code : Nat) (fl : FFlags) : Prop :=
  match x with
  | .nan nv => code = f.nanCode ∧ fl = flagIf nv flagNV
  | .inf n dz => code = f.infCode n ∧ fl = flagIf dz flagDZ
  | .val q n =>
    if q = 0 then code = f.signBit n ∧ fl = 0
    else if |roundRat f mode q| < 2 ^ (f.bias + 1) then
      (∃ m e, f.read code = .fin (decide (q < 0)) m e ∧ (if q < 0 then -1 else 1) * m * (2 : ℚ) ^ e = roundRat f mode q) ∧
        fl = flagIf (decide (roundRat f mode q ≠ q)) flagNX |||
          flagIf (decide (|roundWide f mode q| < 2 ^ (1 - (f.bias : Int)) ∧ roundRat f mode q ≠ q)) flagUF
    else
      code = (if mode = .rne ∨ (mode = .rup ∧ 0 < q) ∨ (mode = .rdn ∧ q < 0) then f.infCode (decide (q < 0))
              else f.infCode (decide (q < 0)) - 1) ∧ fl = flagOF ||| flagNX

/-- The exact results of R128, of VFDIV (R129), and of VFDOT2 (R133), which `Round` rounds once: latency, destination, mode, lane `i`. -/
def floatResultOf (s : State) : Instr → Option (Pred × Nat × Reg × Rnd × (Nat → Exact))
  | .vfadd g d a b r => some (g, 6, d, r, fun i => (Exact.lane (lane (s.vsrc a) i)).add r (.lane (lane (s.vsrc b) i)))
  | .vfsub g d a b r => some (g, 6, d, r, fun i => (Exact.lane (lane (s.vsrc a) i)).add r (Exact.lane (lane (s.vsrc b) i)).neg)
  | .vfmul g d a b r => some (g, 6, d, r, fun i => (Exact.lane (lane (s.vsrc a) i)).mul (.lane (lane (s.vsrc b) i)))
  | .vffma g d a b r =>
    some (g, 6, d, r, fun i => ((Exact.lane (lane (s.vsrc a) i)).mul (.lane (lane (s.vsrc b) i))).add r (.lane (lane (s.vreg d) i)))
  | .vffms g d a b r =>
    some (g, 6, d, r, fun i => ((Exact.lane (lane (s.vsrc a) i)).mul (.lane (lane (s.vsrc b) i))).add r (Exact.lane (lane (s.vreg d) i)).neg)
  | .vffnma g d a b r =>
    some (g, 6, d, r, fun i => ((Exact.lane (lane (s.vsrc a) i)).mul (.lane (lane (s.vsrc b) i))).neg.add r (.lane (lane (s.vreg d) i)))
  | _ => none

/-- The half of a lane that R133 calls element 0 or 1, in FP16 or BF16. -/
def halfOf (bf : Bool) (x : Lane) (k : Nat) : Exact :=
  .of ((if bf then bf16 else fp16).read (x.extractLsb' (16 * k) 16).toNat)

/-- The order of VFMIN and VFMAX (R129): minus infinity lowest, -0 below +0. -/
def floatBelow (x y : Lane) : Prop :=
  match readLane x, readLane y with
  | .inf a, .inf b => a = true ∧ b = false
  | .inf a, .fin _ _ _ => a = true
  | .fin _ _ _, .inf b => b = false
  | .fin a m e, .fin b n f =>
    (if a then -1 else 1) * m * (2 : ℚ) ^ e < (if b then -1 else 1) * n * (2 : ℚ) ^ f ∨ (m = 0 ∧ n = 0 ∧ a = true ∧ b = false)
  | _, _ => False

/-- The exact and special cases of R130: the lane's result and its flags, where the rule fixes them. -/
def approxCase (s : State) : Instr → Option (Pred × Reg × (Nat → Option (Lane × FFlags)))
  | .vfrcp g d b => some (g, d, fun i => match readLane (lane (s.vsrc b) i) with
    | .nan sig => some (0x7FC00000, flagIf sig flagNV)
    | .inf n => some (if n then 0x80000000 else 0, 0)
    | .fin n 0 _ => some (if n then 0xFF800000 else 0x7F800000, flagDZ)
    | _ => none)
  | .vfrsq g d b => some (g, d, fun i => match readLane (lane (s.vsrc b) i) with
    | .nan sig => some (0x7FC00000, flagIf sig flagNV)
    | .inf n => some (if n then (0x7FC00000, flagNV) else (0, 0))
    | .fin n 0 _ => some (if n then 0xFF800000 else 0x7F800000, flagDZ)
    | .fin true _ _ => some (0x7FC00000, flagNV)
    | _ => none)
  | .vfexp2 g d b => some (g, d, fun i => match readLane (lane (s.vsrc b) i) with
    | .nan sig => some (0x7FC00000, flagIf sig flagNV)
    | .inf n => some (if n then 0 else 0x7F800000, 0)
    | .fin n m e =>
      let x : ℚ := (if n then -1 else 1) * m * (2 : ℚ) ^ e
      if 128 ≤ x then some (0x7F800000, flagOF ||| flagNX)
      else if x < -150 then some (0, flagUF ||| flagNX)
      else if x = ⌊x⌋ ∧ -126 ≤ x then some (BitVec.ofNat 32 ((⌊x⌋ + 127).toNat * 2 ^ 23), 0)
      else if x = ⌊x⌋ ∧ -149 ≤ x then some (BitVec.ofNat 32 (2 ^ (⌊x⌋ + 149).toNat), 0)
      else none)
  | .vflog2 g d b => some (g, d, fun i => match readLane (lane (s.vsrc b) i) with
    | .nan sig => some (0x7FC00000, flagIf sig flagNV)
    | .inf n => some (if n then (0x7FC00000, flagNV) else (0x7F800000, 0))
    | .fin _ 0 _ => some (0xFF800000, flagDZ)
    | .fin true _ _ => some (0x7FC00000, flagNV)
    | _ => none)
  | .vftanh g d b => some (g, d, fun i => match readLane (lane (s.vsrc b) i) with
    | .nan sig => some (0x7FC00000, flagIf sig flagNV)
    | .inf n => some (if n then 0xBF800000 else 0x3F800000, 0)
    | .fin n 0 _ => some (if n then 0x80000000 else 0, 0)
    | .fin n m e => if 10 ≤ m * (2 : ℚ) ^ e then some (if n then 0xBF800000 else 0x3F800000, flagNX) else none)
  | _ => none

/-- One unit in the last place of FP32 at a real number (R130). -/
noncomputable def ulpAt (x : ℝ) : ℝ := 2 ^ (max (Int.log 2 |x|) (-126) - 23)

/-- The error limits of R130 on a finite lane: it is within `k` units in the last place of a real number. -/
def NearReal (v : Lane) (k : Nat) (x : ℝ) : Prop := ∀ w n, Exact.lane v = .val w n → |(w : ℝ) - x| ≤ k * ulpAt x

/-- The float compares of R131: the bit of a lane, and whether NV is set. -/
def floatCompare (s : State) : Instr → Option (Pred × PReg × (Nat → Bool) × (Nat → Bool))
  | .vfcmpeq g d a b => some (g, d, fun i => decide (feq (lane (s.vsrc a) i) (lane (s.vsrc b) i)),
      fun i => sig (lane (s.vsrc a) i) || sig (lane (s.vsrc b) i))
  | .vfcmplt g d a b => some (g, d, fun i => decide (flt (lane (s.vsrc a) i) (lane (s.vsrc b) i)),
      fun i => nan (lane (s.vsrc a) i) || nan (lane (s.vsrc b) i))
  | .vfcmple g d a b =>
    some (g, d, fun i => decide (flt (lane (s.vsrc a) i) (lane (s.vsrc b) i)) || decide (feq (lane (s.vsrc a) i) (lane (s.vsrc b) i)),
      fun i => nan (lane (s.vsrc a) i) || nan (lane (s.vsrc b) i))
  | .vfcmpun g d a b => some (g, d, fun i => nan (lane (s.vsrc a) i) || nan (lane (s.vsrc b) i),
      fun i => sig (lane (s.vsrc a) i) || sig (lane (s.vsrc b) i))
  | _ => none
where
  nan (x : Lane) : Bool := match readLane x with
    | .nan _ => true
    | _ => false
  sig (x : Lane) : Bool := decide (readLane x = .nan true)
  -- an infinity as a value beyond every finite one
  num (x : Lane) : ℚ := match readLane x with
    | .nan _ => 0
    | .inf n => if n then -2 ^ 200 else 2 ^ 200
    | .fin n m e => (if n then -1 else 1) * m * (2 : ℚ) ^ e
  feq (x y : Lane) : Bool := !nan x && !nan y && decide (num x = num y)
  flt (x y : Lane) : Bool := !nan x && !nan y && decide (num x < num y)

/-- PairwiseSum (R84) of sixteen members, some absent, by a pair's rule, with the flags of every step. -/
def pairwise (f : Lane → Lane → Lane × FFlags) (x : Nat → Option Lane) : Option Lane × FFlags :=
  let two (a b : Option Lane × FFlags) : Option Lane × FFlags := match a.1, b.1 with
    | some p, some q => (some (f p q).1, a.2 ||| b.2 ||| (f p q).2)
    | some p, none => (some p, a.2 ||| b.2)
    | none, q => (q, a.2 ||| b.2)
  let l1 (i : Nat) := two (x (2 * i), 0) (x (2 * i + 1), 0)
  let l2 (i : Nat) := two (l1 (2 * i)) (l1 (2 * i + 1))
  let l3 (i : Nat) := two (l2 (2 * i)) (l2 (2 * i + 1))
  two (l3 0) (l3 1)

/-! ## Conversions (R79 to R81, R86, R134, R135) -/

/-- FP32 to INT32 (R86): the result and its flags. -/
def toInt32 (mode : Rnd) : Exact → Lane × FFlags
  | .nan _ => (0, flagNV)
  | .inf n _ => (if n then 0x80000000 else 0x7FFFFFFF, flagNV)
  | .val q _ =>
    if 2 ^ 31 - 1 < roundInt mode q then (0x7FFFFFFF, flagNV)
    else if roundInt mode q < -2 ^ 31 then (0x80000000, flagNV)
    else (BitVec.ofInt 32 (roundInt mode q), flagIf (decide ((roundInt mode q : ℚ) ≠ q)) flagNX)

/-- The codes of a target (R80): what code `c` below `n` stands for; `none` is unused. -/
structure Codes where
  n : Nat
  num : Nat → Option Exact

/-- Code `c` is finite, with a value and a sign. -/
def Codes.Fin (t : Codes) (c : Nat) (v : ℚ) (neg : Bool) : Prop := c < t.n ∧ ∃ z, t.num c = some (.val v z) ∧ neg = (Exact.val v z).sign

/-- The order in which Choose prefers codes (R80): the sign of `x` first, then bit 0 clear, then the lowest. -/
def preference (neg : Bool) (c : Nat) (cneg : Bool) : Nat := (if cneg = neg then 0 else 1024) + c % 2 * 512 + c

/-- Choose(S, x) among the finite codes whose value meets `p` (R80). -/
def Codes.Chosen (t : Codes) (p : ℚ → Prop) (neg : Bool) (c : Nat) : Prop :=
  ∃ v n, t.Fin c v n ∧ p v ∧ ∀ c' v' n', t.Fin c' v' n' → p v' → preference neg c n ≤ preference neg c' n'

/-- `c` is the lowest code of a kind. -/
def Codes.Lowest (t : Codes) (p : Exact → Prop) (c : Nat) : Prop :=
  (c < t.n ∧ ∃ x, t.num c = some x ∧ p x) ∧ ∀ c' x, c' < c → t.num c' = some x → ¬ p x

/-- Whether an exact value is a NaN, or an infinity of a sign. -/
def Exact.IsNan : Exact → Prop
  | .nan _ => True
  | _ => False
/-- Whether an exact value is an infinity of a sign. -/
def Exact.IsInf (neg : Bool) : Exact → Prop
  | .inf n _ => n = neg
  | _ => False

/-- `hi` is the largest finite value, `lo` the smallest. -/
def Codes.Range (t : Codes) (lo hi : ℚ) : Prop :=
  (∃ c n, t.Fin c lo n) ∧ (∃ c n, t.Fin c hi n) ∧ ∀ c v n, t.Fin c v n → lo ≤ v ∧ v ≤ hi

/-- A value beyond the finite codes (R80): `above` says on which side. -/
def Codes.Beyond (t : Codes) (ovf neg above isInf : Bool) (lo hi : ℚ) (c : Nat) (fl : FFlags) : Prop :=
  (ovf = true ∧ t.Lowest (Exact.IsInf neg) c ∧ fl = (if isInf then 0 else flagOF ||| flagNX)) ∨
    (¬ (ovf = true ∧ ∃ k, t.Lowest (Exact.IsInf neg) k) ∧ t.Chosen (fun v => v = if above then hi else lo) neg c ∧
      fl = (if isInf then flagNV else flagOF ||| flagNX))

/-- Encode(t, x, ovf) gives code `c` and flags (R80). -/
def Codes.Encodes (t : Codes) (x : Exact) (ovf : Bool) (c : Nat) (fl : FFlags) : Prop :=
  match x with
  | .nan _ => (t.Lowest Exact.IsNan c ∧ fl = 0) ∨ ((¬ ∃ k, t.Lowest Exact.IsNan k) ∧ c = 0 ∧ fl = flagNV)
  | .inf neg _ =>
    ((¬ ∃ k v n, t.Fin k v n) ∧ c = 0 ∧ fl = flagNV) ∨
      ∃ lo hi, t.Range lo hi ∧ t.Beyond ovf neg (!neg) true lo hi c fl
  | .val q z =>
    ((¬ ∃ k v n, t.Fin k v n) ∧ c = 0 ∧ fl = flagNV) ∨
      ∃ lo hi, t.Range lo hi ∧
        if hi < q then t.Beyond ovf (Exact.val q z).sign true false lo hi c fl
        else if q < lo then t.Beyond ovf (Exact.val q z).sign false false lo hi c fl
        else
          ∃ d, (∃ k v n, t.Fin k v n ∧ |q - v| = d) ∧ (∀ k v n, t.Fin k v n → d ≤ |q - v|) ∧
            t.Chosen (fun v => |q - v| = d) (Exact.val q z).sign c ∧ fl = (if d = 0 then 0 else flagNX)

/-- The codes of decode table QTAB as the issuing slot sees it (R75, R79). -/
def tableCodes (s : State) : Codes :=
  ⟨256, fun c => let e := s.entry s.core s.bankVf s.cur.qtab.toNat c
    if e.cls = 3 then none else some (.of e.num)⟩
/-- The codes of FP6 (R71, R81). -/
def fp6Codes (e3m2 : Bool) : Codes := ⟨64, fun c => some (.of (fp6Num e3m2 c))⟩
/-- The codes of FP4 (R71, R81). -/
def fp4Codes : Codes := ⟨16, fun c => some (.of (fp4Num c))⟩

/-- The narrowing conversions (R134, R135): latency, destination, element width, part, and what code and flags a lane gives. -/
def narrowing (s : State) : Instr → Option (Pred × Nat × Reg × Nat × Nat × (Nat → Nat → FFlags → Prop))
  | .cvtfh g d b r p => some (g, 4, d, 16, p.toNat, fun i c fl => (Exact.lane (lane (s.vsrc b) i)).Gives fp16 r c fl)
  | .cvtfb g d b r p => some (g, 4, d, 16, p.toNat, fun i c fl => (Exact.lane (lane (s.vsrc b) i)).Gives bf16 r c fl)
  | .cvtfq g d b p ovf => some (g, 8, d, 8, p.toNat, fun i c fl => (tableCodes s).Encodes (.lane (lane (s.vsrc b) i)) ovf c fl)
  | .cvtfs g d b p k => some (g, 8, d, 8, p.toNat, fun i c fl => (fp6Codes k).Encodes (.lane (lane (s.vsrc b) i)) false c fl)
  | .cvtfn g d b p => some (g, 8, d, 4, p.toNat, fun i c fl => fp4Codes.Encodes (.lane (lane (s.vsrc b) i)) false c fl)
  | _ => none

/-- The widening conversions (R134, R135) that set no flag: destination, what lane `i` decodes. -/
def widening (s : State) : Instr → Option (Pred × Reg × (Nat → Exact))
  | .cvthf g d b p => some (g, d, fun i => .of (fp16.read (part 16 (s.vsrc b) (16 * p.toNat + i)).toNat))
  | .cvtbf g d b p => some (g, d, fun i => .of (bf16.read (part 16 (s.vsrc b) (16 * p.toNat + i)).toNat))
  | .cvtsf g d b p k => some (g, d, fun i => .of (fp6Num k ((part 8 (s.vsrc b) (16 * p.toNat + i)).toNat % 64)))
  | .cvtnf g d b p => some (g, d, fun i => .of (fp4Num (part 4 (s.vsrc b) (16 * p.toNat + i)).toNat))
  | _ => none

/-- EMAX of a target (R141). -/
def emaxOf : BlkTarget → Int
  | .e4m3 => 8 | .e5m2 => 15 | .e2m3 => 2 | .e3m2 => 4 | .e2m1 => 2 | .int8 => 6

/-- The scale of a block of elements (R141). -/
def BlockScale (t : BlkTarget) (x : Nat → Lane) (e : Nat) : Prop :=
  ((∃ i < 32, ∀ q z, Exact.lane (x i) ≠ .val q z) ∧ e = 0xFF) ∨
    ∃ m : ℚ, (∃ i < 32, ∃ q z, Exact.lane (x i) = .val q z ∧ |q| = m) ∧ (∀ i < 32, ∃ q z, Exact.lane (x i) = .val q z ∧ |q| ≤ m) ∧
      (e : Int) = if m = 0 then 0x7F else max 0 (min (Int.log 2 m - emaxOf t + 127) 254)

/-! ## Memory (R171 to R173, R179, R195 to R208) -/

/-- Nothing changes but translation caches, the lines of L2 and RDC with their sharer bits, counts of events, and the number of free values
taken. -/
def Quiet (s u : State) : Prop :=
  u = { s with cores := u.cores, clusters := u.clusters, dies := u.dies, fresh := u.fresh } ∧
    (∀ c, u.coreOf c = { s.coreOf c with utlb := (u.coreOf c).utlb, vfs := (u.coreOf c).vfs }) ∧
    (∀ c v, u.vfOf c v = { s.vfOf c v with pcnt := (u.vfOf c v).pcnt }) ∧
    (∀ c, u.clus c = { s.clus c with tlb := (u.clus c).tlb }) ∧
    ∀ d, u.die d = { s.die d with rdc := (u.die d).rdc, rdcOwner := (u.die d).rdcOwner, rdcWay := (u.die d).rdcWay, l2 := (u.die d).l2,
                                  rdcPoison := (u.die d).rdcPoison, sharers := (u.die d).sharers }

/-- An access of the issuing slot that passes the checks of R171 and leads to memory whose page is available (R172), whose walk and traffic no
donation holds (R311), and, for a write, whose home no Kiosk halts (R358): `s1` is the state after its translation. -/
abbrev Reaches (s : State) (ea : Word) (w : Want) (s1 : State) (p : Place) : Prop :=
  s.resolve ea w = (s1, .ok p) ∧ p.kind ≠ .device ∧ s.isUnavail p.pa = false ∧ s.walkHeld ea = false ∧
    (p.kind = .window ∨ s.donated s.bankVf = false) ∧ (w.write = true → s.heldHome p.pa = false)

/-- Slot `k` of core `c` has nothing reserved (R239, R264, R272). -/
abbrev NoneReserved (s : State) (c k : Nat) : Prop :=
  (s.coreOf c).obResv.look k = none ∧ (s.coreOf c).obResv.look (16 + k) = none ∧
    ∀ v, k ∉ (s.vfOf c v).syncResv ∧ k ∉ (s.vfOf c v).dqResv

/-- The youngest value the issuing slot's own store buffer holds for a byte (R179). -/
def ownByte (s : State) (pa : Nat) : Option Byte :=
  ((s.cur.storeBuf.flatMap fun e => e.bytes).reverse.find? fun q => q.1 == pa).map fun q => q.2

/-- What a load of the issuing slot may read at a byte (R164, R179, R182 to R184): its own buffered value; otherwise what the home holds, or,
of another die's memory, what its VF's line in the VF's ways of the reading die's RDC holds. -/
def Sees (s : State) (home : Bool) (pa : Nat) (b : Byte) : Prop :=
  match ownByte s pa with
  | some x => b = x
  | none =>
    b = s.mem.get pa ∨
      (home = false ∧ isRemote (dieOf s.core) pa = true ∧
        ∃ l, s.rdcLine (dieOf s.core) s.bankVf (pa / 64 * 64) = some l ∧ b = l.getD (pa % 64) 0)

/-- No word that a load of `n` bytes takes from memory is poisoned, at its home or in the reading die's RDC (R173). -/
abbrev Sound (s : State) (p : Place) (n : Nat) : Prop :=
  p.pr = false ∧ ∀ a ∈ s.poison ++ (s.die (dieOf s.core)).rdcPoison, a + 8 ≤ p.pa / 8 * 8 ∨ p.pa + n ≤ a

/-- The scalar loads (R197, R199): predication, destination, base, offset, size, and whether the home is read whatever the RDC holds. -/
def loadForm : Instr → Option (Pred × Reg × SSrc × BitVec 30 × Nat × Bool)
  | .ldb g d b o => some (g, d, b, o, 1, false)
  | .ldh g d b o => some (g, d, b, o, 2, false)
  | .ldw g d b o => some (g, d, b, o, 4, false)
  | .ldd g d b o => some (g, d, b, o, 8, false)
  | .ldacq g d b o sc => some (g, d, b, o, 8, decide (sc = .module ∨ sc = .system))
  | _ => none

/-- The scalar stores (R197, R199): predication, source, base, offset, size, and the scope of a STREL. -/
def storeForm : Instr → Option (Pred × SSrc × SSrc × BitVec 30 × Nat × Option Scope)
  | .stb g a b o => some (g, a, b, o, 1, none)
  | .sth g a b o => some (g, a, b, o, 2, none)
  | .stw g a b o => some (g, a, b, o, 4, none)
  | .std g a b o => some (g, a, b, o, 8, none)
  | .strel g a b o sc => some (g, a, b, o, 8, some sc)
  | _ => none

/-- The remote accesses (R202, R203): predication, base, offset and unit. -/
def remoteForm : Instr → Option (Pred × SSrc × BitVec 30 × Nat)
  | .rld g _ b o => some (g, b, o, 8)
  | .rst g _ b o _ _ => some (g, b, o, 8)
  | .rstv g _ b o _ _ => some (g, b, o, 64)
  | _ => none

/-- EA of R195. -/
def effAddr (s : State) (b : SSrc) (o : BitVec 30) (unit : Nat) : Word := BitVec.ofInt 64 ((s.ssrc b).toNat + o.toInt * unit)

/-- The addresses of a vector access (R195, R197, R198): EA + 4i for VLD and VST, the index lane's address for VLDG and VSTS. -/
def laneAddr (s : State) : Instr → Option (Pred × (Nat → Word))
  | .vld g _ b o => some (g, fun i => effAddr s b o 64 + BitVec.ofNat 64 (4 * i))
  | .vst g _ b o => some (g, fun i => effAddr s b o 64 + BitVec.ofNat 64 (4 * i))
  | .vldg g _ b o vi => some (g, fun i => BitVec.ofInt 64 ((s.ssrc b).toNat + 4 * o.toInt + (lane (s.vsrc vi) i).toInt))
  | .vsts g _ b o vi => some (g, fun i => BitVec.ofInt 64 ((s.ssrc b).toNat + 4 * o.toInt + (lane (s.vsrc vi) i).toInt))
  | _ => none

/-- The places a vector access finds: those of the acting lanes, in lane order (R195). -/
def vectorAccess (s : State) (w : Bool) : Instr → Option (State × Except (Cause × Word) (List (LaneLoad × MemKind)))
  | .vld g _ b o => some (s.vectorPlaces (s.ea b o 64) (s.mask g) { size := 8, write := w })
  | .vst g _ b o => some (s.vectorPlaces (s.ea b o 64) (s.mask g) { size := 8, write := w })
  | .vldg g _ b o vi => some (s.gatherPlaces b o (s.vsrc vi) (s.mask g) { size := 4, write := w })
  | .vsts g _ b o vi => some (s.gatherPlaces b o (s.vsrc vi) (s.mask g) { size := 4, write := w })
  | _ => none

/-- The addresses a vector access translates: its acting words, or its acting lanes (R195). -/
def laneWalks (s : State) : Instr → List Word
  | .vld g _ b o => (actingWords (s.mask g)).map fun w => effAddr s b o 64 + BitVec.ofNat 64 (8 * w)
  | .vst g _ b o => (actingWords (s.mask g)).map fun w => effAddr s b o 64 + BitVec.ofNat 64 (8 * w)
  | .vldg g _ b o vi => (lanesOf (s.mask g)).map fun i => BitVec.ofInt 64 ((s.ssrc b).toNat + 4 * o.toInt + (lane (s.vsrc vi) i).toInt)
  | .vsts g _ b o vi => (lanesOf (s.mask g)).map fun i => BitVec.ofInt 64 ((s.ssrc b).toNat + 4 * o.toInt + (lane (s.vsrc vi) i).toInt)
  | _ => []

/-- Nothing holds the words of a vector access: no donation is in force, or they lie in windows, which need no walk (R311); and no walk waits for a page
(R172). -/
abbrev LanesFree (s : State) (i : Instr) (l : List (LaneLoad × MemKind)) : Prop :=
  (s.donated s.bankVf = false ∨ ∀ q ∈ l, q.2 = .window ∧ q.1.ea.toNat < 0x2000000) ∧ ∀ a ∈ laneWalks s i, s.walkHeld a = false

/-- A lane's load takes a byte from memory, and that memory is poisoned at its home or by its page (R173, R174, R179). -/
abbrev LanePoisoned (s : State) (q : LaneLoad × MemKind) : Prop :=
  (∃ j < 4, ownByte s (q.1.pa + j) = none) ∧ (q.1.pr = true ∨ q.1.pa / 8 * 8 ∈ s.poison)

/-- The bytes of the low end of a word, each with its address (R3). -/
def bytesAt (pa n : Nat) (v : Nat) : List (Nat × Byte) := (List.range n).map fun j => (pa + j, BitVec.ofNat 8 (v / 256 ^ j))

/-- What FESTAT reads (R208). -/
def festatOf (s : State) (pa : Nat) : Word :=
  let b (p : Bool) (n : Word) : Word := if p then n else 0
  b (s.isPoisoned pa) 4 ||| b (s.waiters.any fun w => w.pa == pa && !w.held && w.req.isFE) 2 ||| b (s.isFull pa) 1

/-- The deferred list of a word begins with LDS entries `l`, and goes on with a TAKE, the first of `rest`, or ends; each belongs to a slot of its own, which
has no write that lands later and no spill entry reserved, and none names a page poisoned on read (R204). -/
def Listed (s : State) (pa : Nat) (l rest : List Waiter) : Prop :=
  (s.waiters.filter fun w => w.pa == pa && !w.held && w.req.isFE) = l ++ rest ∧
    (∀ w ∈ l, ∃ d ea p r, w.req = .lds d ea p false r) ∧ (∀ w ∈ rest.take 1, ∃ d ea p o r, w.req = .take d ea p false o r) ∧
    (∀ w ∈ l ++ rest.take 1, (∀ r, (s.at w.core w.slot).older r = 0) ∧ (s.coreOf w.core).spillResv w.slot = none) ∧
    ((l ++ rest.take 1).map fun w => (w.core, w.slot)).Nodup

/-- The list of a word has been served with a value (R204, R206, R207): every LDS, and the TAKE after them, has the data and is past its instruction; the TAKE
owes its PUT, and the word stays empty; without one the word is full. Every other entry stays. -/
def Served (s t : State) (pa : Nat) (v : Word) (l rest : List Waiter) : Prop :=
  (∀ w ∈ l ++ rest.take 1, (t.slotOf w.core w.slot).status = .run ∧ (t.slotOf w.core w.slot).pc = (s.slotOf w.core w.slot).advance.pc ∧
    match w.req with
    | .lds d _ _ _ _ => (∀ n, d = .priv n → (t.at w.core w.slot).sreg d = v) ∧ t.obsOf w.core w.slot = s.obsOf w.core w.slot
    | .take d _ _ _ obj rank => (∀ n, d = .priv n → (t.at w.core w.slot).sreg d = v) ∧
        ∃ o, o.kind = .put ∧ o.obj = obj ∧ o.rank = rank ∧ o.marked = false ∧ o.holder = w.slot ∧
          t.obsOf w.core w.slot = s.obsOf w.core w.slot ++ [o]
    | _ => False) ∧
  t.waiters = (l ++ rest.take 1).foldl (fun ws w => ws.erase w) s.waiters ∧ t.isFull pa = rest.isEmpty

/-! ## Frames and system registers (R61, R92, R95 to R104) -/

/-- What an instruction that writes registers alone leaves unchanged: every register but `d`, every system register but those of a list,
the rest of its slot, all of memory, and everything elsewhere. -/
def Frame (s t : State) (d : Option RegName) (sys : List SysReg) : Prop :=
  RegsKept s t d ∧ SysKept s t sys ∧ SlotKept s t ∧ SameMemory s t ∧ Elsewhere s t

/-- The bits that MTS writes (R96, R98 to R104), for a register that is the slot's own; SIGACC is read as it stood before the reading
instruction (R97), and DQSPILL lands later (R94). -/
def sysBits : SysReg → Option Word
  | .tstat => some 0xB0
  | .tcause => some 0xFF
  | .tepc | .tvec | .ls | .le => some 0x01FFFFFFFFFFFFFE
  | .tval | .lc => some 0xFFFFFFFFFFFFFFFF
  | .guard => some 0x800FFFFFFFFF1FFF
  | .fpflags => some 0x1F
  | .fmta | .fmtb => some 0xF
  | .scla | .sclb => some 0x81FFFFFFFFFFFFFF
  | .dtab => some 7
  | .obspill => some 0xFDFFFFFFFFFFFFFF
  | .hbi | .maxpt => some 0xFFFFFFFF
  | _ => none

/-- The results of one register of the statements on values: predication and destination. -/
def resultOf (s : State) (i : Instr) : Option (Pred × RegName) :=
  match moveResult s i, arithResult s i, bitResult s i, fieldResult s i with
  | some (g, _, d, _), _, _, _ | _, some (g, _, d, _), _, _ | _, _, some (g, _, d, _), _ | _, _, _, some (g, _, d, _) => some (g, .s d)
  | _, _, _, _ =>
    match compareResult s i, predicateResult s i, laneCompare s i, floatCompare s i with
    | some (g, d, _), _, _, _ | _, some (g, d, _), _, _ | _, _, some (g, d, _), _ | _, _, _, some (g, d, _, _) => some (g, .p d)
    | _, _, _, _ =>
      match laneResult s i, laneResult2 s i, movedPart s i, floatResultOf s i with
      | some (g, _, d, _), _, _, _ | _, some (g, _, d, _), _, _ | _, _, some (g, d, _), _ | _, _, _, some (g, _, d, _, _) => some (g, .v d)
      | _, _, _, _ =>
        match narrowing s i, widening s i, approxCase s i with
        | some (g, _, d, _, _, _), _, _ | _, some (g, d, _), _ | _, _, some (g, d, _) => some (g, .v d)
        | _, _, _ => none

/-- Whether the step of a seat gives slot `k` of core `c` its turn, and the state in which it issues (R17, R18, R94, R152). -/
def seated (s : State) (q : Seat) (rest : List Move) : State :=
  let s1 := ((({ s with agenda := rest }.advance q.tick).settle q.core).modCore q.core fun co =>
    { co with lastCycle := some q.cycle }).at q.core q.slot
  let s2 := if q.donated then
      (s1.modVf q.core s1.cur.vfid.toNat fun cv => { cv with lastDonated := q.slot }).count q.core s1.cur.vfid.toNat 2
    else s1.countSeat q.core q.slot
  s2

/-- A slot without an activity: every register and mailbox reads zero, and nothing of a trap, a loop or a wait is left (R149). What it has
issued and not performed stays. -/
def Emptied (s t : State) (c k : Nat) : Prop :=
  let x := t.slotOf c k
  x.status = .empty ∧ x.s = [] ∧ x.v = [] ∧ x.p = [] ∧ x.mb = [] ∧ x.mbFull = 0 ∧ x.tstat = 0 ∧ x.tepc = 0 ∧ x.tval = 0 ∧ x.tvec = 0 ∧
    x.fpflags = 0 ∧ x.lc = 0 ∧ x.guard = 0 ∧ x.hbc = 0 ∧ x.ptc = 0 ∧ x.sigacc = 0xFFFF ∧ x.storeBuf = (s.slotOf c k).storeBuf ∧
    x.posted = (s.slotOf c k).posted ∧ x.replies = (s.slotOf c k).replies ∧ x.sendq = (s.slotOf c k).sendq

/-! ## Sync slots, obligations and tuples (R258 to R299) -/

/-- The fields of word 0 of a sync slot (R260): P, A, TYPE, PHASE and VALUE. -/
structure SlotWord where
  poison : Bool
  active : Bool
  type : Nat
  phase : Nat
  value : Nat
  deriving DecidableEq, Repr

/-- Word 0 of a sync slot, field by field (R260). -/
def slotWord (w : Word) : SlotWord :=
  ⟨w.getLsbD 61, w.getLsbD 60, (w.extractLsb' 56 4).toNat, (w.extractLsb' 48 8).toNat, (w.extractLsb' 0 48).toNat⟩

/-- A pair that is an active slot of one of the three types (R260, R262 step 4). -/
abbrev SlotWord.Live (w : SlotWord) : Prop := w.active = true ∧ 1 ≤ w.type ∧ w.type ≤ 3

/-- A sync slot named by the issuing slot passes steps 1 to 3 of R262, and no donation holds its traffic. -/
abbrev AtSlot (s : State) (sa : Word) (write : Bool) (s1 : State) (p : Place) : Prop :=
  s.slot ≠ 0 ∧ Reaches s sa { size := 16, write := write } s1 p ∧ p.kind ≠ .far

/-- The issuing slot with a sync-unit entry reserved (R272). -/
def withEntry (s : State) : State :=
  if s.curVf.syncResv.elem s.slot then s
  else s.modVf s.core s.bankVf fun cv => { cv with syncResv := cv.syncResv ++ [s.slot] }

/-- The VF's share of the sync unit has an entry for the issuing slot: one that it has reserved, or a free one (R261, R272). -/
abbrev EntryLeft (s : State) : Prop :=
  s.slot ∈ s.curVf.syncResv ∨ s.curVf.sync.length + s.curVf.syncResv.length < s.syncShare s.bankVf

/-- The join an ARRIVE is owed on, by its object (R263): the slot in a window of the core it is bound to, or by translation. -/
abbrev AtJoin (s : State) (obj : Word) (s1 : State) (p : Place) : Prop :=
  if obj.getLsbD 63 = true then
    s1 = s ∧ s.slot ≠ 0 ∧ s.isUnavail p.pa = false ∧ s.heldHome p.pa = false ∧
      s.windowPlace (obj.extractLsb' 32 13).toNat s.bankVf (obj.extractLsb' 0 25).toNat = some p
  else AtSlot s obj true s1 p

/-- Nothing waits at a word, and the issuing activity owes nothing that is spilled. -/
abbrev Alone (s : State) (pa : Nat) : Prop := (∀ w ∈ s.waiters, w.pa ≠ pa) ∧ ∀ q ∈ s.obsOf s.core s.slot, q.spill = none

/-- The issuing slot is past its instruction, and runs. -/
def Past (s t : State) : Prop := t.cur.pc = s.cur.advance.pc ∧ t.cur.status = .run

/-- The obligations of the issuing activity after an act on a sync slot that serves a kind: one of those that match is gone, with one of the
slot's count, or all stay (R268, R273, R274). -/
def Paid (s t : State) (kind : ObKind) (obj : Word) (pa : Nat) : Prop :=
  match pickOb (s.obsOf s.core s.slot) kind obj with
  | some q => t.obsOf s.core s.slot = (s.obsOf s.core s.slot).erase q ∧
      ∀ c, (t.vfOf c s.bankVf).sync.look pa = ((s.vfOf c s.bankVf).sync.look pa).map fun n => n - 1
  | none => t.obsOf s.core s.slot = s.obsOf s.core s.slot ∧ ∀ c, (t.vfOf c s.bankVf).sync.look pa = (s.vfOf c s.bankVf).sync.look pa

/-- One more obligation of the issuing activity, last in order of creation (R264). -/
def Owes (s t : State) (kind : ObKind) (obj : Word) (rank : BitVec 56) : Prop :=
  ∃ o, o.kind = kind ∧ o.obj = obj ∧ o.rank = rank ∧ o.marked = false ∧ o.holder = s.slot ∧
    t.obsOf s.core s.slot = s.obsOf s.core s.slot ++ [o]

/-- A well-formed tuple (R287). -/
abbrev TupleOk (t : Vec) : Prop :=
  lane t 0 ≠ 0 ∧ (lane t 1).toNat < 8 ∧ ∀ f < 8, 1 ≤ f → (lane t 1).toNat < f → lane t (2 * f) = 0 ∧ lane t (2 * f + 1) = 0

/-- A well-formed pattern of values and masks (R288). -/
abbrev PatternOk (v m : Vec) : Prop :=
  lane v 0 ≠ 0 ∧ lane m 0 = 0xFFFFFFFF ∧ (lane m 1 = 0 ∨ lane m 1 = 7) ∧ (lane v 1).toNat < 8

/-- Match of R288; a poisoned tuple matches every pattern with its tag. -/
abbrev Matches (v m t : Vec) (poisoned : Bool) : Prop :=
  lane t 0 = lane v 0 ∧ (poisoned = true ∨ ((lane m 1 = 0 ∨ lane t 1 = lane v 1) ∧
    ∀ i < 16, 2 ≤ i → lane t i &&& lane m i = lane v i &&& lane m i))

/-- HomeSlice (R289). -/
def sliceNo (n : Nat) (tag : Lane) : Nat :=
  let x := (n ^^^ tag.toNat) % 2 ^ 32
  (x % 64) ^^^ (x / 2 ^ 6 % 64) ^^^ (x / 2 ^ 12 % 64) ^^^ (x / 2 ^ 18 % 64) ^^^ (x / 2 ^ 24 % 64) ^^^ (x / 2 ^ 30)

/-- A region named by the issuing slot passes checks 1 to 3 of R294, and no donation holds its traffic. -/
abbrev AtRegion (s : State) (sr : Word) (write : Bool) (s1 : State) (p : Place) : Prop :=
  s.slot ≠ 0 ∧ sr.toNat % 4096 = 0 ∧
    s.walkHeld sr = false ∧ s.locate s.core s.slot s.bankVf (s.pasid s.bankVf s.cur.tenant.toNat) sr = (s1, .ok p) ∧
    (write = true → p.w = true ∧ p.pr = false) ∧ p.kind = .ts ∧ s.donated s.bankVf = false

/-- A request of the issuing slot for a slice (R289, R294): its region, slice, and what it asks. -/
def SetsOut (s s2 t : State) (p : Place) (tag : Lane) (r : TsReq) (rank : Option (BitVec 56)) : Prop :=
  ∃ e, t.ts = s.ts ++ [e] ∧ e.core = s.core ∧ e.slot = s.slot ∧ e.vf = s.bankVf ∧ e.tenant = s.cur.tenant.toNat ∧
    e.region = p.pa % 2 ^ 36 / 4096 ∧ e.slice = sliceNo e.region tag ∧ e.req = r ∧ e.parked = false ∧ e.device = false ∧
    t.cur.status = .wait (.tupleSent rank) ∧ t.mem = s2.mem

/-- No write of an earlier instruction of slot `k` of core `c` lands later than now (R94). -/
abbrev Settled (s : State) (c k : Nat) : Prop := ∀ r, (s.at c k).older r = 0

/-- The tuple request of slot `k` of core `c` is on its way, and its region is live (R294 check 6). -/
abbrev InFlight (s : State) (c k : Nat) (e : TsEntry) : Prop :=
  (∃ r, (s.slotOf c k).status = .wait (.tupleSent r)) ∧ s.tsFlight c k = some e ∧ s.donated e.vf = false ∧ s.relocks c = false ∧
    s.isUnavail (regionPa e.region) = false ∧ s.regionLive e.region e.vf = true ∧ e.slice < 64 ∧ Settled s c k

/-- Slot `k` of core `c` has completed its instruction. -/
def Done (s t : State) (c k : Nat) : Prop := (t.slotOf c k).status = .run ∧ (t.slotOf c k).pc = (s.slotOf c k).advance.pc

/-- The element of bay A that stands at logical position `k` of row `i` of an MMASP, by its metadata byte: x in [1:0], y in [3:2]; none where it is
pruned (R231). -/
def sparseAt (s : State) (c : Nat) (cmd : Vec) (i k : Nat) : Option Nat :=
  let m := (((s.coreOf c).side.look (cmdField cmd 2 11 0 + i * fmtKmax (cmdField cmd 1 3 0) / 2 + k / 4)).getD 0).toNat
  if k % 4 = m % 4 then some (2 * (k / 4)) else if k % 4 = m / 4 % 4 then some (2 * (k / 4) + 1) else none

/-- No spill write of an obligation is held (R172, R311, R358; log 82). -/
abbrev NoHeldSpills (s : State) : Prop := ∀ p ∈ s.cores, ∀ o ∈ p.2.obs, o.unwritten = false

/-! ## Opcode pages (R56, R66) -/

/-- The page that the prefixes of a chain select: XPAGE's, or page 0 (R55). -/
def pageOf (p : List Half) : Nat := ((p.find? fun x => x.extractLsb' 10 6 == 0x3E).map fun x => (x.extractLsb' 6 4).toNat).getD 0

/-- How many ops a page lists, from 0 on (R66, R67 and the tables of the families). -/
def opsListed (page : Nat) : Nat := ([0x3C, 36, 30, 23, 22, 14, 10, 5, 10, 4, 9][page]?).getD 0

/-- The ops of a page whose instructions have a third operand (R54, R56 item 8). -/
def thirdOps : Nat → List Nat
  | 0 => [3, 5, 6, 7, 9, 0xB, 0xC, 0xE, 0x10, 0x12, 0x2D, 0x2E, 0x2F, 0x32, 0x33, 0x34, 0x36, 0x38, 0x39, 0x3A, 0x3B]
  | 1 => [0, 1, 2, 3, 4, 5, 6, 7, 8, 9, 0x10, 0x16, 0x17, 0x18, 0x19, 0x1A, 0x1B, 0x1C, 0x1D, 0x1E, 0x1F]
  | 2 => [0, 1, 2, 3, 4, 5, 0xA, 0xB, 0xC, 0xD, 0xE, 0xF, 0x12, 0x13, 0x14, 0x15, 0x16, 0x17, 0x18, 0x19, 0x1A, 0x1D]
  | 3 => [0, 1, 2, 5, 6, 7, 0xE, 0xF, 0x10, 0x11, 0x13, 0x16]
  | 4 => [0xE, 0xF, 0x10, 0x11, 0x12, 0x14, 0x15]
  | 5 => [0, 1]
  | 6 => [0, 5]
  | 7 => [1, 2, 3, 4]
  | _ => []

end Sys2Proof.Safety
end

