-- ==== Sys2Proof/Certificates/Slice0/Obligations.lean ====
section
/-! DEFINITION. The statements for the provers, rule by rule. -/

open Sys2Proof Sys2Proof.Machine Sys2Proof.Safety

/-! ## Scalar and predicate instructions -/

/-- R112, R113: the moves and the integer arithmetic, and NOP; none traps. -/
def Obligations.ScalarMovesArithmetic : Prop :=
  (∀ s g, s.acts g = true → exec (.nop g) s = .next s.retire) ∧
    ∀ s i g lat d v, (moveResult s i = some (g, lat, d, v) ∨ arithResult s i = some (g, lat, d, v)) → s.acts g = true →
      exec i s = .next (s.putS lat d v).retire

/-- R115, R116, R117: logic, shifts, counts, bit fields and SEL. -/
def Obligations.ScalarBitsFields : Prop :=
  ∀ s i g lat d v, (bitResult s i = some (g, lat, d, v) ∨ fieldResult s i = some (g, lat, d, v)) → s.acts g = true →
    exec i s = .next (s.putS lat d v).retire

/-- R118, R119: a compare writes all sixteen bits alike; the predicate instructions act on all sixteen. -/
def Obligations.ComparesPredicates : Prop :=
  (∀ s i g d v, (compareResult s i = some (g, d, v) ∨ predicateResult s i = some (g, d, v)) → s.acts g = true →
      exec i s = .next (s.putP d v).retire) ∧
    ∀ s g d b, s.acts g = true → exec (.pmovs g d b) s = .next (s.putS 2 d (BitVec.ofNat 64 (s.preg b).toNat)).retire

/-- R110, R114, R123: a divide takes its slot out of rotation with its result, and has no other effect; the result lands as a reply, and the
instruction completes. -/
def Obligations.Divides : Prop :=
  (∀ s i g d v, divResult s i = some (g, d, v) → s.acts g = true → exec i s = .next (s.wait (.divide d v))) ∧
    (∀ s c k d v, (s.slotOf c k).status = .wait (.divide d v) →
      exec (.divideComplete c k) s = .next ((((s.at c k).putS 0 d v).retire).at s.core s.slot)) ∧
    ∀ s c k d m v fl, (s.slotOf c k).status = .wait (.vdivide d m v fl) →
      exec (.divideComplete c k) s = .next (((((s.at c k).putV 0 d m v).addFlags fl).retire).at s.core s.slot)

/-! ## Vector instructions -/

/-- R125, R126: the integer lanes. -/
def Obligations.VectorIntegers : Prop :=
  ∀ s i g lat d f, (laneResult s i = some (g, lat, d, f) ∨ laneResult2 s i = some (g, lat, d, f)) →
    s.acts g = true → exec i s = .next (s.putV lat d (s.mask g) (ofLanes f)).retire

/-- R127: the vector compares, lane by lane, and VSEL. -/
def Obligations.VectorComparesSelect : Prop :=
  (∀ s i g d f, laneCompare s i = some (g, d, f) → s.acts g = true →
      exec i s = .next (s.putP d (maskedBits (s.mask g) (s.preg d) f)).retire) ∧
    ∀ s g d a b, s.acts g = true →
      exec (.vsel g d a b) s = .next (s.putV 2 d (s.mask g) (ofLanes fun i =>
        if (s.preg 0).getLsbD i then lane (s.vsrc a) i else lane (s.vsrc b) i)).retire

/-- R128, R82, R83: VFADD, VFSUB, VFMUL and the fused forms round their exact value once; the flags of the acting lanes are added. -/
def Obligations.FloatArithmetic : Prop :=
  ∀ s i g lat d r x, floatResultOf s i = some (g, lat, d, r, x) → s.acts g = true →
    ∃ v fl, exec i s = .next ((s.putV lat d (s.mask g) (ofLanes v)).addFlags (unionFlags (s.mask g) fl)).retire ∧
      ∀ j < 16, (x j).Gives fp32 r (v j).toNat (fl j)

/-- R129: VFMIN and VFMAX, VFABS and VFNEG, VFSCALE, and VFDIV and VFSQRT, whose results land when the divider replies. -/
def Obligations.FloatElementwise : Prop :=
  (∀ s g d a b (up : Bool), s.acts g = true →
    ∃ v fl, exec (if up then .vfmax g d a b else .vfmin g d a b) s =
        .next ((s.putV 3 d (s.mask g) (ofLanes v)).addFlags (unionFlags (s.mask g) fl)).retire ∧
      ∀ j < 16, ∃ x y, x = lane (s.vsrc a) j ∧ y = lane (s.vsrc b) j ∧
        fl j = flagIf (decide (readLane x = .nan true ∨ readLane y = .nan true)) flagNV ∧
        ((readLane x).isNan = true → (readLane y).isNan = true → v j = 0x7FC00000) ∧
        ((readLane x).isNan = true → (readLane y).isNan = false → v j = y) ∧
        ((readLane x).isNan = false → (readLane y).isNan = true → v j = x) ∧
        (floatBelow x y → v j = if up then y else x) ∧ (floatBelow y x → v j = if up then x else y) ∧
        ((readLane x).isNan = false → (readLane y).isNan = false → v j = x ∨ v j = y)) ∧
  (∀ s g d b (inv : Bool), s.acts g = true →
    ∃ v fl, exec (if inv then .vfneg g d b else .vfabs g d b) s =
        .next ((s.putV 3 d (s.mask g) (ofLanes v)).addFlags (unionFlags (s.mask g) fl)).retire ∧
      ∀ j < 16, ∃ x, x = lane (s.vsrc b) j ∧ fl j = flagIf (decide (readLane x = .nan true)) flagNV ∧
        v j = if (readLane x).isNan then 0x7FC00000
              else BitVec.ofNat 32 (x.toNat % 2 ^ 31 + if inv && !x.getLsbD 31 then 2 ^ 31 else 0)) ∧
  (∀ s g d a b r, s.acts g = true →
    ∃ v fl, exec (.vfscale g d a b r) s = .next ((s.putV 4 d (s.mask g) (ofLanes v)).addFlags (unionFlags (s.mask g) fl)).retire ∧
      ∀ j < 16, ((Exact.lane (lane (s.vsrc a) j)).scale (lane (s.vsrc b) j).toInt).Gives fp32 r (v j).toNat (fl j)) ∧
  (∀ s g d a b r, s.acts g = true →
    ∃ v fl, exec (.vfdiv g d a b r) s = .next (s.wait (.vdivide d (s.mask g) (ofLanes v) (unionFlags (s.mask g) fl))) ∧
      ∀ j < 16, ((Exact.lane (lane (s.vsrc a) j)).div (.lane (lane (s.vsrc b) j))).Gives fp32 r (v j).toNat (fl j)) ∧
  (∀ s g d b r, s.acts g = true →
    ∃ v fl, exec (.vfsqrt g d b r) s = .next (s.wait (.vdivide d (s.mask g) (ofLanes v) (unionFlags (s.mask g) fl))) ∧
      ∀ j < 16, match Exact.lane (lane (s.vsrc b) j) with
        | .nan sig => v j = 0x7FC00000 ∧ fl j = flagIf sig flagNV
        | .inf n _ => if n then v j = 0x7FC00000 ∧ fl j = flagNV else v j = 0x7F800000 ∧ fl j = 0
        | .val q _ =>
          if q = 0 then v j = lane (s.vsrc b) j ∧ fl j = 0
          else if q < 0 then v j = 0x7FC00000 ∧ fl j = flagNV
          else ∃ y u : ℚ, Exact.lane (v j) = .val y false ∧ u = 2 ^ (Int.log 2 y - 23) ∧ 0 < y ∧
            fl j = flagIf (decide (y * y ≠ q)) flagNX ∧
            match r with
            | .rne => (y - u / 2) ^ 2 ≤ q ∧ q ≤ (y + u / 2) ^ 2
            | .rup => q ≤ y ^ 2 ∧ (y - u) ^ 2 < q
            | _ => y ^ 2 ≤ q ∧ q < (y + u) ^ 2)

/-- R130: the special cases and the exact cases of the approximations, with NX in every other lane; the error limit of each on finite results; VFTANH is
odd. Which value within its limit a lane has is free (log 6). -/
def Obligations.FloatApproximations : Prop :=
  (∀ s i g d x, approxCase s i = some (g, d, x) → s.acts g = true →
    ∃ v fl, exec i s = .next ((s.putV 10 d (s.mask g) (ofLanes v)).addFlags (unionFlags (s.mask g) fl)).retire ∧
      ∀ j < 16, ∀ y f, x j = some (y, f) → v j = y ∧ fl j = f) ∧
  (∀ s g d b, s.acts g = true →
    ∃ v fl, exec (.vfrcp g d b) s = .next ((s.putV 10 d (s.mask g) (ofLanes v)).addFlags (unionFlags (s.mask g) fl)).retire ∧
      ∀ j < 16, ∀ q n, Exact.lane (lane (s.vsrc b) j) = .val q n → q ≠ 0 →
        (∀ y n', Exact.lane y = .val (1 / q) n' → v j = y ∧ fl j = 0) ∧
          ((¬ ∃ y n', Exact.lane y = .val (1 / q) n') → fl j &&& flagNX = flagNX ∧
            ∀ w n', Exact.lane (v j) = .val w n' → |w - 1 / q| ≤ 2 ^ (max (Int.log 2 |1 / q|) (-126) - 23))) ∧
  (∀ s g d b, s.acts g = true →
    ∃ v fl, exec (.vfrsq g d b) s = .next ((s.putV 10 d (s.mask g) (ofLanes v)).addFlags (unionFlags (s.mask g) fl)).retire ∧
      ∀ j < 16, ∀ q n, Exact.lane (lane (s.vsrc b) j) = .val q n → 0 < q →
        (∀ k : Int, q = 4 ^ k → Exact.lane (v j) = .val (2 ^ (-k)) false ∧ fl j = 0) ∧
          ((¬ ∃ k : Int, q = 4 ^ k) → fl j &&& flagNX = flagNX ∧
            ∃ w u : ℚ, Exact.lane (v j) = .val w false ∧ 0 < w ∧ u = 2 ^ (Int.log 2 w - 23) ∧ (w - u) ^ 2 * q ≤ 1 ∧ 1 ≤ (w + u) ^ 2 * q)) ∧
  (∀ s g d b, s.acts g = true →
    ∃ v fl, exec (.vfexp2 g d b) s = .next ((s.putV 10 d (s.mask g) (ofLanes v)).addFlags (unionFlags (s.mask g) fl)).retire ∧
      ∀ j < 16, ∀ g' d' x, approxCase s (.vfexp2 g d b) = some (g', d', x) → x j = none → fl j &&& flagNX = flagNX ∧
        ∀ q n, Exact.lane (lane (s.vsrc b) j) = .val q n → NearReal (v j) 2 ((2 : ℝ) ^ (q : ℝ))) ∧
  (∀ s g d b, s.acts g = true →
    ∃ v fl, exec (.vflog2 g d b) s = .next ((s.putV 10 d (s.mask g) (ofLanes v)).addFlags (unionFlags (s.mask g) fl)).retire ∧
      ∀ j < 16, ∀ q n, Exact.lane (lane (s.vsrc b) j) = .val q n → 0 < q →
        (∀ k : Int, q = 2 ^ k → Exact.lane (v j) = .val k (decide (k < 0)) ∧ fl j = 0) ∧
          ((¬ ∃ k : Int, q = 2 ^ k) → fl j &&& flagNX = flagNX ∧
            ∀ w n', Exact.lane (v j) = .val w n' → |(w : ℝ) - Real.logb 2 (q : ℝ)| ≤
              if 1 / 2 ≤ q ∧ q ≤ 2 then 2 ^ (-21 : ℤ) else 2 * ulpAt (Real.logb 2 (q : ℝ)))) ∧
  ∀ s g d b, s.acts g = true →
    ∃ v fl, exec (.vftanh g d b) s = .next ((s.putV 10 d (s.mask g) (ofLanes v)).addFlags (unionFlags (s.mask g) fl)).retire ∧
      ∀ j < 16, (∀ g' d' x, approxCase s (.vftanh g d b) = some (g', d', x) → x j = none → fl j &&& flagNX = flagNX ∧
          ∀ q n, Exact.lane (lane (s.vsrc b) j) = .val q n → NearReal (v j) 2 (Real.tanh (q : ℝ))) ∧
        ∀ k < 16, lane (s.vsrc b) j = lane (s.vsrc b) k ^^^ 0x80000000 → (readLane (lane (s.vsrc b) j)).isNan = false →
          v j = v k ^^^ 0x80000000

/-- R131: the float compares, and VFCLASS, which sets no flag. -/
def Obligations.FloatCompares : Prop :=
  (∀ s i g d f nv, floatCompare s i = some (g, d, f, nv) → s.acts g = true →
    ∃ fl, exec i s = .next ((s.putP d (maskedBits (s.mask g) (s.preg d) f)).addFlags (unionFlags (s.mask g) fl)).retire ∧
      ∀ j < 16, fl j = flagIf (nv j) flagNV) ∧
  ∀ s g d b, s.acts g = true →
    ∃ v, exec (.vfclass g d b) s = .next (s.putV 3 d (s.mask g) (ofLanes v)).retire ∧
      ∀ j < 16, v j = match readLane (lane (s.vsrc b) j) with
        | .inf true => 1
        | .fin true m _ => if m = 0 then 8 else if (lane (s.vsrc b) j).extractLsb' 23 8 = 0#8 then 4 else 2
        | .fin false m _ => if m = 0 then 16 else if (lane (s.vsrc b) j).extractLsb' 23 8 = 0#8 then 32 else 64
        | .inf false => 128
        | .nan true => 256
        | .nan false => 512

/-- R132, R84: the reductions over a tree of pairs, absent lanes left out, write lane 0 and clear the others. R133: VFDOT2. -/
def Obligations.FloatReductionsDot : Prop :=
  (∀ s g d b r x, s.acts g = true →
    x = pairwise (fadd r) (fun j => if (s.mask g).getLsbD j then some (lane (s.vsrc b) j) else none) →
    exec (.vfredsum g d b r) s = .next ((s.putV 12 d 0xFFFF (ofLanes fun i => if i = 0 then x.1.getD 0 else 0)).addFlags x.2).retire) ∧
  (∀ s g d b x, s.acts g = true →
    x = pairwise (fpick true) (fun j => if (s.mask g).getLsbD j then some (lane (s.vsrc b) j) else none) →
    exec (.vfredmax g d b) s = .next ((s.putV 8 d 0xFFFF (ofLanes fun i => if i = 0 then x.1.getD 0xFF800000 else 0)).addFlags x.2).retire) ∧
  ∀ s g d a b r bf, s.acts g = true →
    ∃ v fl, exec (.vfdot2 g d a b r bf) s = .next ((s.putV 6 d (s.mask g) (ofLanes v)).addFlags (unionFlags (s.mask g) fl)).retire ∧
      ∀ j < 16,
        let e (x : VSrc) (k : Nat) := halfOf bf (lane (s.vsrc x) j) k
        let p := (e a 0).mul (e b 0)
        let q := (e a 1).mul (e b 1)
        let z := Exact.lane (lane (s.vreg d) j)
        ∀ t, t = (p.add r q).add r z →
          (∀ w n, t = .val w n → w ≠ 0 → t.Gives fp32 r (v j).toNat (fl j)) ∧
            ((∀ w n, t ≠ .val w n) → (∀ sig, t ≠ .nan sig) → t.Gives fp32 r (v j).toNat (fl j)) ∧
            (∀ w n, t = .val w n → w = 0 → v j = 0 ∨ v j = 0x80000000) ∧
            ∀ sig, t = .nan sig → v j = 0x7FC00000 ∧ (fl j = 0 ∨ fl j = flagNV) ∧
              (fl j = flagNV ↔ sig = true ∨ (.inf false false ∈ [p, q, z] ∧ .inf true false ∈ [p, q, z]))

/-- R134, R135: the conversions between FP32 and INT32; the narrowing conversions write the acting elements of their part and keep
every other bit; the widening ones decode exactly. R137: TBLSEL gives the entry. -/
def Obligations.Conversions : Prop :=
  (∀ s g d b r, s.acts g = true →
    ∃ v fl, exec (.cvtfi g d b r) s = .next ((s.putV 4 d (s.mask g) (ofLanes v)).addFlags (unionFlags (s.mask g) fl)).retire ∧
      ∀ j < 16, (v j, fl j) = toInt32 r (Exact.lane (lane (s.vsrc b) j))) ∧
  (∀ s g d b r, s.acts g = true →
    ∃ v fl, exec (.cvtif g d b r) s = .next ((s.putV 4 d (s.mask g) (ofLanes v)).addFlags (unionFlags (s.mask g) fl)).retire ∧
      ∀ j < 16, (Exact.val (lane (s.vsrc b) j).toInt false).Gives fp32 r (v j).toNat (fl j)) ∧
  (∀ s i g lat d w p x, narrowing s i = some (g, lat, d, w, p, x) → s.acts g = true →
    ∃ m v fl, exec i s = .next ((s.putV lat d m v).addFlags (unionFlags (s.mask g) fl)).retire ∧
      (∀ j < 16, (s.mask g).getLsbD j = true → x j (part w (mergeLanes m (s.vreg d) v) (16 * p + j)).toNat (fl j)) ∧
      ∀ k < 512 / w, (¬ ∃ j < 16, (s.mask g).getLsbD j = true ∧ k = 16 * p + j) →
        part w (mergeLanes m (s.vreg d) v) k = part w (s.vreg d) k) ∧
  (∀ s i g d x, widening s i = some (g, d, x) → s.acts g = true →
    ∃ v, exec i s = .next (s.putV 4 d (s.mask g) (ofLanes v)).retire ∧ ∀ j < 16, ∃ fl, (x j).Gives fp32 .rne (v j).toNat fl) ∧
  (∀ s g d b p, s.acts g = true →
    ∃ v fl, exec (.cvtqf g d b p) s = .next ((s.putV 4 d (s.mask g) (ofLanes v)).addFlags (unionFlags (s.mask g) fl)).retire ∧
      ∀ j < 16, match (tableCodes s).num (part 8 (s.vsrc b) (16 * p.toNat + j)).toNat with
        | none => v j = 0x7FC00000 ∧ fl j = flagNV
        | some x => (∃ fl', x.Gives fp32 .rne (v j).toNat fl') ∧ fl j = 0) ∧
  ∀ s g d b, s.acts g = true →
    exec (.tblsel g d b) s = .next (s.putV 3 d (s.mask g) (ofLanes fun i =>
      (s.entry s.core s.bankVf s.cur.qtab.toNat ((lane (s.vsrc b) i).toNat % 256)).setWidth 32)).retire

/-- R138, R139: the lane moves, VPACK and VUNPK, part by part.
R140, R141: VSCALE by an E8M0 scale; VBLKMAX gives the scale of a block. -/
def Obligations.LaneMovesScales : Prop :=
  ((∀ s i g d x, movedPart s i = some (g, d, x) → s.acts g = true →
    ∃ v, exec i s = .next (s.putV 3 d (s.mask g) v).retire ∧ ∀ k < 512 / x.1, part x.1 v k = x.2 k) ∧
  (∀ s g d a b, s.acts g = true →
    ∃ v, exec (.vrotl g d a b) s = .next (s.putV 3 d (s.mask g) v).retire ∧
      ∀ i < 16, lane v ((i + (s.ssrc b).toNat % 16) % 16) = lane (s.vsrc a) i) ∧
  (∀ s g d a b sg, s.acts g = true →
    exec (.vextr g d a b sg) s = .next (s.putS 3 d (if sg then (lane (s.vsrc a) ((s.ssrc b).toNat % 16)).signExtend 64
      else (lane (s.vsrc a) ((s.ssrc b).toNat % 16)).setWidth 64)).retire) ∧
  ∀ s g d a b, s.acts g = true →
    ∃ m v, exec (.vins g d a b) s = .next (s.putV 3 d m v).retire ∧
      ∀ i < 16, lane (mergeLanes m (s.vreg d) v) i =
        if i = (s.ssrc b).toNat % 16 then BitVec.ofNat 32 (s.ssrc a).toNat else lane (s.vreg d) i) ∧
  ((∀ s g d a b r, s.acts g = true →
    ∃ v fl, exec (.vscale g d a b r) s = .next ((s.putV 4 d (s.mask g) (ofLanes v)).addFlags (unionFlags (s.mask g) fl)).retire ∧
      ∀ j < 16, ((s.ssrc b).toNat % 256 = 255 → v j = 0x7FC00000 ∧ fl j = flagNV) ∧
        ((s.ssrc b).toNat % 256 ≠ 255 →
          ((Exact.lane (lane (s.vsrc a) j)).scale (((s.ssrc b).toNat % 256 : Nat) - 127)).Gives fp32 r (v j).toNat (fl j))) ∧
  ∀ s g d a b t, s.acts g = true →
    ∃ e : Nat, exec (.vblkmax g d a b t) s = .next (s.putS 8 d (BitVec.ofNat 64 e)).retire ∧
      BlockScale t (fun i => if i < 16 then lane (s.vsrc a) i else lane (s.vsrc b) (i - 16)) e)

/-! ## Memory -/

/-- R195, R171: the effective address wraps; one that is not a multiple of the size raises ALIGN before any other check, with TVAL at it, and
nothing else happens. VLD and VST check EA whatever the mask. -/
def Obligations.Alignment : Prop :=
  (∀ s i g d b o n home, loadForm i = some (g, d, b, o, n, home) → s.acts g = true → (effAddr s b o n).toNat % n ≠ 0 →
    exec i s = .next (s.trap .align (effAddr s b o n))) ∧
  (∀ s i g a b o n sc, storeForm i = some (g, a, b, o, n, sc) → s.acts g = true → (effAddr s b o n).toNat % n ≠ 0 →
    exec i s = .next (s.trap .align (effAddr s b o n))) ∧
  (∀ s g d a b o, s.acts g = true → (effAddr s b o 64).toNat % 64 ≠ 0 →
    exec (.vld g d b o) s = .next (s.trap .align (effAddr s b o 64)) ∧ exec (.vst g a b o) s = .next (s.trap .align (effAddr s b o 64))) ∧
  ∀ s g d a b o, s.acts g = true → (effAddr s b o 8).toNat % 8 ≠ 0 →
    exec (.put g a b o) s = .next (s.trap .align (effAddr s b o 8)) ∧ exec (.fill g b o) s = .next (s.trap .align (effAddr s b o 8)) ∧
      exec (.empty g b o) s = .next (s.trap .align (effAddr s b o 8)) ∧ exec (.festat g d b o) s = .next (s.trap .align (effAddr s b o 8)) ∧
      exec (.takenb g d b o) s = .next ((s.trap .align (effAddr s b o 8)).unreserve s.core s.slot) ∧
      (s.slot ≠ 15 → exec (.take g d b o) s = .next ((s.trap .align (effAddr s b o 8)).unreserve s.core s.slot) ∧
        exec (.lds g d b o) s = .next (s.trap .align (effAddr s b o 8)))

/-- R159, R160, R161: what a data access of a general or handler slot below 0x0200_0000 reaches: the VF's banks in rising order, its
scratchpad share, or PERM; and PERM for every window address in the movement slot. -/
def Obligations.Windows : Prop :=
  (∀ (s : State) (ea : Word) (w : Want), ea.toNat % w.size = 0 → w.fetch = false → s.slot ≠ 0 → ea.toNat < 0x20000 →
    s.resolve ea w = (s, match (s.banks s.bankVf)[ea.toNat / 8192]? with
      | some b => .ok { pa := 0x2000000000 + s.core * 0x20000 + b * 8192 + ea.toNat % 8192, kind := .window }
      | none => .error .perm)) ∧
  (∀ (s : State) (ea : Word) (w : Want) (q : Nat), ea.toNat % w.size = 0 → w.fetch = false → s.slot ≠ 0 → ea.toNat = 0x1000000 + q → q < 0x800000 →
    (q < (s.spad s.bankVf).2 → s.resolve ea w = (s, .ok { pa := spadBase (clusterOf s.core) + (s.spad s.bankVf).1 + q, kind := .window })) ∧
      ((s.spad s.bankVf).2 ≤ q → s.resolve ea w = (s, .error .perm))) ∧
  (∀ (s : State) (ea : Word) (w : Want), ea.toNat % w.size = 0 → ea.toNat < 0x2000000 →
    (s.slot = 0 ∨ (0x20000 ≤ ea.toNat ∧ ea.toNat < 0x1000000) ∨ 0x1800000 ≤ ea.toNat ∨ w.fetch = true) →
    s.resolve ea w = (s, .error .perm))

/-- R197, R199, R164, R179: a scalar load reads each byte from the slot's own youngest buffered store, else from the home or, of another die's
memory, from its RDC's copy; LDACQ at MODULE and SYSTEM scope from the home; the value is zero-extended and little-endian.
R173: a load that takes a byte from a poisoned word of its own die's memory, or from a page poisoned on read, raises POISON at its
address and writes no register. -/
def Obligations.LoadResults : Prop :=
  (∀ s i g d b o n home s1 p, loadForm i = some (g, d, b, o, n, home) → s.acts g = true →
    Reaches s (effAddr s b o n) { size := n } s1 p → Sound s p n →
    ∃ u v, exec i s = .next ((u.putS 0 d (BitVec.ofNat 64 v)).retire) ∧ Quiet s u ∧ v < 256 ^ n ∧
      ∀ j < n, Sees s home (p.pa + j) (BitVec.ofNat 8 (v / 256 ^ j))) ∧
  (∀ s i g d b o n home s1 p, loadForm i = some (g, d, b, o, n, home) → s.acts g = true →
    Reaches s (effAddr s b o n) { size := n } s1 p → isRemote (dieOf s.core) p.pa = false ∨ home = true →
    (∃ j < n, ownByte s (p.pa + j) = none) → (p.pr = true ∨ p.pa / 8 * 8 ∈ s.poison) →
    ∃ u, exec i s = .next (u.trap .poison (effAddr s b o n)) ∧ Quiet s u)

/-- R195, R197, R198: VLD and VLDG write the acting lanes, each with the four bytes at its own address, and keep the others. R173: one that
takes a byte from a poisoned word of its own die's memory, or from a page poisoned on read, raises POISON at the lowest address of such a lane
and writes no register. -/
def Obligations.VectorLoads : Prop :=
  (∀ s i g addr d s1 l, laneAddr s i = some (g, addr) → (∃ b o, i = .vld g d b o) ∨ (∃ b o vi, i = .vldg g d b o vi) → s.acts g = true →
    vectorAccess s false i = some (s1, .ok l) → LanesFree s i l →
    (∀ q ∈ l, q.2 ≠ .device ∧ rangeOf q.1.pa ≠ .device ∧ s.isUnavail q.1.pa = false ∧ q.1.pa % 8 = q.1.ea.toNat % 8 ∧
      Sound s { pa := q.1.pa, kind := q.2, pr := q.1.pr } 4) →
    (l.map fun q => (q.1.lane, q.1.ea)) = ((lanesOf (s.mask g)).map fun j => (j, addr j)) ∧
      ∃ u f, exec i s = .next ((u.putV 0 d (s.mask g) (ofLanes f)).retire) ∧ Quiet s u ∧
        ∀ q ∈ l, ∀ j < 4, Sees s false (q.1.pa + j) (BitVec.ofNat 8 ((f q.1.lane).toNat / 256 ^ j))) ∧
  ∀ s i g addr d s1 l, laneAddr s i = some (g, addr) → (∃ b o, i = .vld g d b o) ∨ (∃ b o vi, i = .vldg g d b o vi) → s.acts g = true →
    vectorAccess s false i = some (s1, .ok l) → LanesFree s i l →
    (∀ q ∈ l, q.2 ≠ .device ∧ rangeOf q.1.pa ≠ .device ∧ s.isUnavail q.1.pa = false ∧ isRemote (dieOf s.core) q.1.pa = false ∧
      q.1.pa % 8 = q.1.ea.toNat % 8) →
    (∃ q ∈ l, LanePoisoned s q) →
    ∃ u a, exec i s = .next (u.trap .poison a) ∧ Quiet s u ∧ (∃ q ∈ l, LanePoisoned s q ∧ q.1.ea = a) ∧
      ∀ q ∈ l, LanePoisoned s q → a.toNat ≤ q.1.ea.toNat

/-- R179, R197 to R199: a store enters the slot's buffer with the bytes of its size at the place of its address, in lane order for VST and
VSTS; with eight entries there already it waits for room. No byte of memory changes. -/
def Obligations.StoreResults : Prop :=
  (∀ s i g a b o n sc s1 p, storeForm i = some (g, a, b, o, n, sc) → s.acts g = true → s.walkHeld (effAddr s b o n) = false →
    s.resolve (effAddr s b o n) { size := n, write := true } = (s1, .ok p) → p.kind ≠ .device →
    Quiet s s1 ∧ SameMemory s s1 ∧
      exec i s = .next (if s.cur.storeBuf.length < 8 then
          (s1.modCur fun x => { x with storeBuf := x.storeBuf ++ [s.storeEntry (bytesAt p.pa n (s.ssrc a).toNat) sc false] }).retire
        else s1.wait (.storeFull (s.storeEntry (bytesAt p.pa n (s.ssrc a).toNat) sc false)))) ∧
  ∀ s i g addr a s1 l scatter, laneAddr s i = some (g, addr) →
    (scatter = false ∧ ∃ b o, i = .vst g a b o) ∨ (scatter = true ∧ ∃ b o vi, i = .vsts g a b o vi) → s.acts g = true →
    vectorAccess s true i = some (s1, .ok l) → LanesFree s i l → (∀ q ∈ l, q.2 ≠ .device) →
    (l.map fun q => (q.1.lane, q.1.ea)) = ((lanesOf (s.mask g)).map fun j => (j, addr j)) ∧ Quiet s s1 ∧ SameMemory s s1 ∧
      exec i s = .next (if l = [] then s1.retire
        else if s.cur.storeBuf.length < 8 then
          (s1.modCur fun x => { x with storeBuf := x.storeBuf ++
            [s.storeEntry (l.flatMap fun q => bytesAt q.1.pa 4 (lane (s.vsrc a) q.1.lane).toNat) none scatter] }).retire
        else s1.wait (.storeFull (s.storeEntry (l.flatMap fun q => bytesAt q.1.pa 4 (lane (s.vsrc a) q.1.lane).toNat) none scatter)))

/-- R179, R182, R191: the first word of a slot's store buffer is performed at its home, of a VSTS its first lane (R198): its bytes are there,
every other byte of memory is as before, and a word written whole loses its poison (R173). -/
def Obligations.StoreDrains : Prop :=
  ∀ s c k e rest w ws cells, (s.slotOf c k).storeBuf = e :: rest → e.words = w :: ws → s.relocks c = false →
    s.isUnavail (8 * w) = false → s.heldHome (8 * w) = false → s.heldFor e.vf (8 * w) = false → s.pushHolds c k (8 * w) = false →
    cells = (if e.scatter = true then e.bytes.take 4 else e.bytes.filter fun q => q.1 / 8 == w) →
    ∃ t, exec (.storeBufferDrain c k 0) s = .next t ∧ (e.scatter = false → SameOutside s t (8 * w) 8) ∧
      (∀ a, t.mem.get a = ((cells.reverse.find? fun q => q.1 == a).map fun q => q.2).getD (s.mem.get a)) ∧
      ((∀ j < 8, ∃ b, (8 * w + j, b) ∈ cells) → 8 * w ∉ t.poison) ∧ (∀ a ∈ t.poison, a ∈ s.poison)

/-- R181, R200: FENCE.thread only waits for posted stores, and only in its rst form; every other FENCE completes with the slot's buffer
empty, at MODULE and SYSTEM scope with no invalidation that a write of the slot caused, and no acknowledgement of one, still on its way, and in the rst form
with no posted store left: one that is held on its way holds the FENCE, and one that is not is performed.
R210: PREF changes nothing that a program can read, whatever its address; FLUSHL drops the die's copy of a line of far memory
and the line of its home's L2, and changes no memory. -/
def Obligations.FencesFlushes : Prop :=
  ((∀ s g, s.acts g = true → exec (.fence g false .thread) s = .next s.retire) ∧
  (∀ s g rst sc, s.acts g = true → s.cur.storeBuf = [] → s.cur.posted = [] →
    ∃ t, exec (.fence g rst sc) s = .next t ∧ t.mem = s.mem ∧ t.cur.pc = s.cur.advance.pc ∧ t.cur.status = .run) ∧
  (∀ s g rst sc t, s.acts g = true → exec (.fence g rst sc) s = .next t → t.cur.status = .run →
    (sc ≠ .thread → t.cur.storeBuf = []) ∧ (rst = true → t.cur.posted = []) ∧
    (sc = .module ∨ sc = .system → rst = false ∨ s.cur.posted = [] →
      (∀ v, v.die < 4 → v ∈ (t.die v.die).invals → ¬ (v.core = s.core ∧ v.slot = s.slot)) ∧
        ∀ v, homeDie v.line < 4 → v ∈ (t.die (homeDie v.line)).acks → ¬ (v.core = s.core ∧ v.slot = s.slot))) ∧
  ∀ s g e w, s.acts g = true → s.cur.status = .run → s.cur.posted = [e] → e.words = [w] →
    (s.wayHeld e.vf s.core e.target w = true → exec (.fence g true .thread) s = .next (s.hold (.fence .thread true))) ∧
    (s.wayHeld e.vf s.core e.target w = false → (s.vfOf e.target e.vf).fenced = false → (∀ q ∈ s.waiters, q.pa ≠ w) → w % 8 = 0 →
      ∃ t, exec (.fence g true .thread) s = .next t ∧ t.cur.posted = [] ∧ t.cur.pc = s.cur.advance.pc ∧ t.cur.status = .run ∧ SameOutside s t w 8 ∧
        ∀ a, w ≤ a → a < w + 8 → t.mem.get a = ((e.bytes.reverse.find? fun q => q.1 == a).map fun q => q.2).getD (s.mem.get a))) ∧
  ((∀ s g b o, s.acts g = true → ∃ u, exec (.pref g b o) s = .next u.retire ∧ Quiet s u) ∧
  ∀ s g b o s1 p, s.acts g = true → Reaches s (effAddr s b o 64) { size := 64 } s1 p →
    ∃ u, exec (.flushl g b o) s = .next u.retire ∧ Quiet s u ∧
      (∀ h, rangeOf p.pa = .far h → (u.die (dieOf s.core)).rdcOwner.look (p.pa / 64 * 64) = none ∧ (u.die h).l2.look (p.pa / 64 * 64) = none))

/-- R136, R77, R78: TBLLD of a table that no command pushed before it and not complete uses installs the 256 entries of its image, read from the VF's banks. -/
def Obligations.TableLoad : Prop :=
  ∀ s g t b pas s1, s.acts g = true → (s.ssrc b).toNat % 64 = 0 → s.slot ≠ 0 → s.tablePlaces (s.ssrc b) = some pas →
    s.drained s.core s.slot = some s1 →
    (∀ c ∈ s1.mxPushed s.core s.bankVf, c.seq < s.curVf.mxSeq → c.usesTable (4 + t.toNat) = false) →
    s1.tablePlaces (s.ssrc b) = some pas → (∀ pa ∈ pas, wordsHit s1.poison pa 4 = false) →
    ∃ t', exec (.tblld g t b) s = .next t' ∧ t'.mem = s1.mem ∧
      ∀ code < 256, ∀ pa, pas[code]? = some pa →
        t'.entry s.core s.bankVf (4 + t.toNat) code = (loadEntry (BitVec.ofNat 32 (leNat (s1.mem.bytes pa 4)))).1

/-- R204 to R208: the full/empty operations on a word that lets them complete, and those that join its deferred list; a PUT, a FILL or an engine's write
serves the list of its word up to the first TAKE.
R206: VLDS of words that are all full and sound completes with the data of its acting lanes, and changes no bit; with some of them empty it waits, and joins
their lists. -/
def Obligations.FullEmpty : Prop :=
  ((∀ s g d b o s1 p, s.acts g = true → s.slot ≠ 15 → Reaches s (effAddr s b o 8) { size := 8, fe := true } s1 p →
    (feRank p (effAddr s b o 8)).toNat < (s.obmin s.core s.slot).toNat → s.cur.storeBuf = [] → s.isPoisoned p.pa = false → p.pr = false →
    s.isFull p.pa = true ∨ s.heldHome p.pa = false →
    Quiet s s1 ∧ exec (.lds g d b o) s = .next (if s.isFull p.pa then ((s1.readHome s.core p.pa).putS 0 d (s.mem.word p.pa)).retire
      else (s1.join s.core s.slot p.pa (.lds d (effAddr s b o 8) p.pa p.pr (feRank p (effAddr s b o 8)))).wait
        (.deferred (feRank p (effAddr s b o 8))))) ∧
  (∀ s g d b o s1 s2 p i, s.acts g = true → s.slot ≠ 15 →
    Reaches s (effAddr s b o 8) { size := 8, write := true, takes := true, fe := true } s1 p →
    (feRank p (effAddr s b o 8)).toNat < (s.obmin s.core s.slot).toNat → s.cur.storeBuf = [] → s1.reserveOb s.core s.slot = .ok s2 i →
    s2.isUnavail p.pa = false → s2.isPoisoned p.pa = false → p.pr = false → s2.isFull p.pa = true →
    exec (.take g d b o) s = .next (((((s2.readHome s.core p.pa).setFull p.pa false).addOb s.core s.slot
        { obj := boundObj s.core (effAddr s b o 8), kind := .put, rank := feRank p (effAddr s b o 8) }).putS 0 d
          (s2.mem.word p.pa)).retire.unreserve s.core s.slot)) ∧
  (∀ s g d b o s1 s2 p i, s.acts g = true → s.slot ≠ 15 →
    Reaches s (effAddr s b o 8) { size := 8, write := true, takes := true, fe := true } s1 p →
    (feRank p (effAddr s b o 8)).toNat < (s.obmin s.core s.slot).toNat → s.cur.storeBuf = [] → s1.reserveOb s.core s.slot = .ok s2 i →
    s2.isUnavail p.pa = false → s2.isFull p.pa = false →
    exec (.take g d b o) s = .next ((s2.join s.core s.slot p.pa (.take d (effAddr s b o 8) p.pa p.pr (boundObj s.core (effAddr s b o 8))
      (feRank p (effAddr s b o 8)))).wait (.deferred (feRank p (effAddr s b o 8))))) ∧
  (∀ s g d b o s1 s2 p i, s.acts g = true →
    Reaches s (effAddr s b o 8) { size := 8, write := true, takes := true, fe := true } s1 p →
    s.cur.storeBuf = [] → s1.reserveOb s.core s.slot = .ok s2 i →
    s2.isUnavail p.pa = false → s2.isPoisoned p.pa = false → p.pr = false →
    exec (.takenb g d b o) s = .next ((if s2.isFull p.pa then
        (((((s2.readHome s.core p.pa).setFull p.pa false).addOb s.core s.slot
          { obj := boundObj s.core (effAddr s b o 8), kind := .put, rank := feRank p (effAddr s b o 8) }).putS 0 d
            (s2.mem.word p.pa)).putP 0 0xFFFF).retire
      else ((s2.freeResv s.core s.slot).putP 0 0).retire).unreserve s.core s.slot)) ∧
  (∀ s g a b o s1 p, s.acts g = true → Reaches s (effAddr s b o 8) { size := 8, write := true, fe := true } s1 p → s.cur.storeBuf = [] →
    (∀ w ∈ s.waiters, w.pa ≠ p.pa) → (∀ q ∈ s.obsOf s.core s.slot, q.spill = none) →
    (s.isFull p.pa = true → exec (.put g a b o) s = .next (s1.trap .fekind (effAddr s b o 8))) ∧
    (s.isFull p.pa = false → ∃ t, exec (.put g a b o) s = .next t ∧ t.mem.word p.pa = s.ssrc a ∧ SameOutside s t p.pa 8 ∧
      t.isFull p.pa = true ∧ (p.pa % 8 = 0 → p.pa ∉ t.poison) ∧ t.cur.pc = s.cur.advance.pc ∧
      t.obsOf s.core s.slot = match pickOb (s.obsOf s.core s.slot) .put (boundObj s.core (effAddr s b o 8)) with
        | some q => (s.obsOf s.core s.slot).erase q
        | none => s.obsOf s.core s.slot)) ∧
  (∀ s g b o s1 p, s.acts g = true → Reaches s (effAddr s b o 8) { size := 8, write := true, fe := true } s1 p → s.cur.storeBuf = [] →
    (∀ w ∈ s.waiters, w.pa ≠ p.pa) → (∀ q ∈ s.obsOf s.core s.slot, q.spill = none) →
    (∃ t, exec (.fill g b o) s = .next t ∧ SameMemory s t ∧ t.isFull p.pa = true ∧ t.poison = s.poison ∧ t.cur.pc = s.cur.advance.pc) ∧
    exec (.empty g b o) s = .next (s1.setFull p.pa false).retire) ∧
  (∀ s g a b o s1 p l rest, s.acts g = true → Reaches s (effAddr s b o 8) { size := 8, write := true, fe := true } s1 p → s.cur.storeBuf = [] →
    (∀ q ∈ s.obsOf s.core s.slot, q.spill = none) → s.isFull p.pa = false → p.pa % 8 = 0 → Listed s p.pa l rest →
    (∀ w ∈ l ++ rest.take 1, (w.core, w.slot) ≠ (s.core, s.slot)) →
    (∃ t, exec (.put g a b o) s = .next t ∧ Served s t p.pa (s.ssrc a) l rest ∧ t.mem.word p.pa = s.ssrc a ∧ SameOutside s t p.pa 8 ∧
      t.cur.pc = s.cur.advance.pc) ∧
    (s.isPoisoned p.pa = false →
      ∃ t, exec (.fill g b o) s = .next t ∧ Served s t p.pa (s.mem.word p.pa) l rest ∧ SameMemory s t ∧ t.cur.pc = s.cur.advance.pc)) ∧
  (∀ s c v st q x l rest, s.mxReady c v st = some q → s.mxNext c = some v → cmdType q.cmd = 7 → cmdNotify q.cmd = true →
    s.mxChecks c v q.cmd = none → s.windowPlace c v (cmdAddr q.cmd 14) = some x → hasFE x.pa = true → s.isFull x.pa = false →
    Listed s x.pa l rest →
    ∃ t, exec (.mxnote c v st) s = .next t ∧ Served s t x.pa (BitVec.ofNat 64 (7 * 2 ^ 8 + cmdStream q.cmd * 2 ^ 16)) l rest) ∧
  (∀ s g d b o s1 p, s.acts g = true → Reaches s (effAddr s b o 8) { size := 8, fe := true } s1 p → s.cur.storeBuf = [] → p.pr = false →
    exec (.festat g d b o) s = .next (s1.putS 0 d (festatOf s p.pa)).retire) ∧
  ∀ s g d b o, s.acts g = true → s.slot ≠ 15 → (effAddr s b o 64).toNat % 64 = 0 → s.mask g = 0 →
    exec (.vlds g d b o) s = .next s.retire) ∧
  ∀ s g d b o s1 ps w0 p0, s.acts g = true → s.slot ≠ 15 → (effAddr s b o 64).toNat % 64 = 0 → s.cur.storeBuf = [] →
    (∀ j ∈ actingWords (s.mask g), s.walkHeld (effAddr s b o 64 + BitVec.ofNat 64 (8 * j)) = false) →
    s.resolveAll { size := 8, fe := true } ((actingWords (s.mask g)).map fun j => effAddr s b o 64 + BitVec.ofNat 64 (8 * j)) = (s1, .ok ps) →
    ((actingWords (s.mask g)).zip ps).getLast? = some (w0, p0) →
    (feRank p0 (effAddr s b o 64 + BitVec.ofNat 64 (8 * w0))).toNat < (s.obmin s.core s.slot).toNat →
    (∀ p ∈ ps, p.pr = false ∧ s.isUnavail p.pa = false ∧ s.isPoisoned p.pa = false ∧ (p.kind = .window ∨ s.donated s.bankVf = false)) →
    ((∃ p ∈ ps, s.isFull p.pa = false) → (∀ p ∈ ps, s.heldHome p.pa = false) →
      ∃ u got l, exec (.vlds g d b o) s = .next u ∧ u.mem = s.mem ∧ u.full = s.full ∧ u.cur.pc = s.cur.pc ∧
        u.cur.status = .wait (.vlds d got none (ps.filter fun p => !s.isFull p.pa).length
          (feRank p0 (effAddr s b o 64 + BitVec.ofNat 64 (8 * w0)))) ∧
        (∀ q ∈ (actingWords (s.mask g)).zip ps, s.isFull q.2.pa = true → ∀ j < 2, (s.mask g).getLsbD (2 * q.1 + j) = true →
          (2 * q.1 + j, (s.mem.word q.2.pa).extractLsb' (32 * j) 32) ∈ got) ∧
        u.waiters = s.waiters ++ l ∧ l.map (fun w => (w.pa, w.core, w.slot)) =
          (ps.filter fun p => !s.isFull p.pa).map fun p => (p.pa, s.core, s.slot)) ∧
    ((∀ p ∈ ps, s.isFull p.pa = true) →
    ∃ u f, exec (.vlds g d b o) s = .next u ∧ u.mem = s.mem ∧ u.full = s.full ∧ u.waiters = s.waiters ∧ u.cur.pc = s.cur.advance.pc ∧
      (∀ n, d = .priv n → s.older (.v d) = 0 → u.vreg d = mergeLanes (s.mask g) (s.vreg d) (ofLanes f)) ∧
      ∀ q ∈ (actingWords (s.mask g)).zip ps, ∀ j < 2, (s.mask g).getLsbD (2 * q.1 + j) = true →
        f (2 * q.1 + j) = (s.mem.word q.2.pa).extractLsb' (32 * j) 32)

/-- R201 to R203: RLD reads the target word; RST and RSTV are posted, with the bytes they write and the words they make full. A remote address with nonzero
zero bits, a member beyond the gang or a core whose ports are closed makes each raise REMOTE, one off its unit ALIGN, one outside the banks, and any in the
movement slot, PERM; a poisoned word makes RLD raise POISON. -/
def Obligations.RemoteAccesses : Prop :=
  (∀ s g d b o c pa addr, s.acts g = true → s.remote b o 8 = .ok (c, pa, addr) → s.cur.posted = [] → s.cur.storeBuf = [] →
    s.linkHeld s.bankVf s.core c = false → s.fifoHeld s.core c = false → s.isUnavail pa = false →
    exec (.rld g d b o) s = .next (if s.isPoisoned pa then s.trap .poison addr else (s.putS 0 d (s.mem.word pa)).retire)) ∧
  (∀ s g a b o f ord c pa addr, s.acts g = true → s.remote b o 8 = .ok (c, pa, addr) → s.cur.posted.length < 16 →
    exec (.rst g a b o f ord) s =
      .next (s.modCur fun x => { x with posted := x.posted ++
        [⟨bytesAt pa 8 (s.ssrc a).toNat, [pa], f, c, ord, s.bankVf, s.cur.tenant.toNat⟩] }).retire) ∧
  (∀ s g a b o ord c pa addr, s.acts g = true → s.remote b o 64 = .ok (c, pa, addr) → s.cur.posted.length < 16 →
    exec (.rstv g a b o true ord) s =
      .next (s.modCur fun x => { x with posted := x.posted ++
        [⟨(lanesOf (s.mask g)).flatMap fun i => bytesAt (pa + 4 * i) 4 (lane (s.vsrc a) i).toNat,
          (List.range 8).map fun w => pa + 8 * w, true, c, ord, s.bankVf, s.cur.tenant.toNat⟩] }).retire) ∧
  (∀ s g a b o ord c pa addr, s.acts g = true → s.remote b o 64 = .ok (c, pa, addr) → s.cur.posted.length < 16 → s.mask g ≠ 0 →
    exec (.rstv g a b o false ord) s =
      .next (s.modCur fun x => { x with posted := x.posted ++
        [⟨(lanesOf (s.mask g)).flatMap fun i => bytesAt (pa + 4 * i) 4 (lane (s.vsrc a) i).toNat,
          ((List.range 8).filter fun w => (s.mask g).getLsbD (2 * w) || (s.mask g).getLsbD (2 * w + 1)).map fun w => pa + 8 * w,
          false, c, ord, s.bankVf, s.cur.tenant.toNat⟩] }).retire) ∧
  ∀ (s : State) i g b o n t formed, remoteForm i = some (g, b, o, n) → s.acts g = true →
    t = (field (s.ssrc b) 16 0 : Int) + o.toInt * n → formed = BitVec.ofNat 64 (field (s.ssrc b) 42 32 * 2 ^ 32 + (t % 2 ^ 17).toNat) →
    (s.slot = 0 → exec i s = .next (s.trap .perm formed)) ∧
    (s.slot ≠ 0 → field (s.ssrc b) 63 43 ≠ 0 ∨ field (s.ssrc b) 31 17 ≠ 0 ∨ s.cur.gangw.toNat * s.cur.gangh.toNat ≤ field (s.ssrc b) 42 32 ∨
        (∃ c, (s.gangCores s.core s.bankVf)[field (s.ssrc b) 42 32]? = some c ∧ (s.vfOf c s.bankVf).fenced = true) →
      exec i s = .next (s.trap .remote (s.ssrc b))) ∧
    (s.slot ≠ 0 → field (s.ssrc b) 63 43 = 0 → field (s.ssrc b) 31 17 = 0 → (s.member (field (s.ssrc b) 42 32)).isSome = true →
      (t % n ≠ 0 → exec i s = .next (s.trap .align formed)) ∧
        (t % n = 0 → t < 0 ∨ (s.banks s.bankVf).length * 8192 ≤ t → exec i s = .next (s.trap .perm formed)))

/-- R188, R203, R248: a posted word is performed at its bank: its bytes are there and no other byte of memory changes; one that sets its
word full leaves it full. A REPLY's write lands at the word its token names and makes it full. -/
def Obligations.PostedArrivals : Prop :=
  (∀ s c k e rest w ws, (s.slotOf c k).posted = e :: rest → e.words = w :: ws → s.wayHeld e.vf c e.target w = false →
    (s.vfOf e.target e.vf).fenced = false → (∀ q ∈ s.waiters, q.pa ≠ w) → w % 8 = 0 →
    ∃ t, exec (.postedStoreArrival c k 0) s = .next t ∧ SameOutside s t w 8 ∧
      (∀ a, w ≤ a → a < w + 8 → t.mem.get a = ((e.bytes.reverse.find? fun q => q.1 == a).map fun q => q.2).getD (s.mem.get a)) ∧
      (e.full = true → t.isFull w = true) ∧ (e.full = false → t.full = s.full)) ∧
  ∀ s c k r rest p v, (s.slotOf c k).replies = r :: rest → r.xmod = none → r.value = some v → s.replyPlace r.vf r.token = some p →
    s.wayHeld r.vf c (field r.token 44 32) p.pa = false → (∀ q ∈ s.waiters, q.pa ≠ p.pa) →
    ∃ t, exec (.postedReplyArrival c k 0) s = .next t ∧ t.mem.word p.pa = v ∧ SameOutside s t p.pa 8 ∧ t.isFull p.pa = true ∧
      (t.slotOf c k).replies = rest

/-! ## System registers, predication and frames -/

/-- R120, R95: MFS reads a system register; MTS below the write level raises PRIV; at it, MTS changes the register's RW bits alone. OBSPILL
keeps its value while entries are spilled in its area, DQSPILL lands as a shared register does, SIGACC takes its low 16 bits, and FPFLAGS is
replaced whole (R95, R99). That GUARD with SUP set keeps a HANDLE beside it is the model's reading (log 68). -/
def Obligations.SystemRegisters : Prop :=
  (∀ (s : State) g d n, s.acts g = true → exec (.mfs g d n) s = .next (s.putS 3 d (s.readSys n)).retire) ∧
  (∀ (s : State) g n a, s.cur.pl.toNat < sysLevel n → exec (.mts g n a) s = .next (s.decodeFault .priv)) ∧
  (∀ (s : State) g n a m, sysBits n = some m → sysLevel n ≤ s.cur.pl.toNat → s.acts g = true →
    (n = .obspill → ∀ o ∈ s.obsOf s.core s.slot, o.spill = none) →
    ∃ t, exec (.mts g n a) s = .next t ∧
      t.readSys n = (s.ssrc a &&& m) ||| (if n = .tstat then s.readSys .tstat &&& ~~~ m else 0) ∧
      SysKept s.retire t [n] ∧ RegsKept s t none ∧ SameMemory s t ∧ Elsewhere s t ∧ t.cur.pc = s.cur.advance.pc) ∧
  (∀ (s : State) g a, s.acts g = true → exec (.mts g .sigacc a) s = .next (s.retire.modCur fun x => { x with sigacc := (s.ssrc a).setWidth 16 })) ∧
  (∀ (s : State) g a, 1 ≤ s.cur.pl.toNat → s.acts g = true →
    exec (.mts g .dqspill a) s = .next (s.retire.land 3
      { cycle := 0, slot := 0, vf := 0, reg := 0, scalar := some (s.ssrc a &&& 0xFDFFFFFFFFFFFFFF), dq := true })) ∧
  ∀ (s : State) g a, 1 ≤ s.cur.pl.toNat → s.acts g = true → (∃ o ∈ s.obsOf s.core s.slot, o.spill.isSome = true) →
    exec (.mts g .obspill a) s = .next s.retire

/-- R61: an instruction whose whole-instruction condition fails, past the checks of its slot and level, only issues. -/
def Obligations.FalsePredicate : Prop :=
  ∀ (s : State) i, s.acts (foot i).pred = false → s.barred i = false → NoneReserved s s.core s.slot → exec i s = .next s.retire

/-- R146 items 1 and 3, R147: an instruction that completes goes on at the next address, or round the loop, whose count falls. -/
def Obligations.Completion : Prop :=
  ∀ (s : State), Frame s s.retire none [.lc] ∧ s.retire.cur.status = .run ∧
    (s.cur.ih = true ∨ s.cur.lc = 0 ∨ s.cur.pc ≠ s.cur.le →
      s.retire.cur.pc = s.cur.pc + BitVec.ofNat 64 s.cur.ilen ∧ s.retire.cur.lc = s.cur.lc) ∧
    (s.cur.ih = false → s.cur.pc = s.cur.le → s.cur.lc = 1 →
      s.retire.cur.pc = s.cur.pc + BitVec.ofNat 64 s.cur.ilen ∧ s.retire.cur.lc = 0) ∧
    (s.cur.ih = false → s.cur.pc = s.cur.le → 1 < s.cur.lc.toNat →
      s.retire.cur.pc = s.cur.ls ∧ s.retire.cur.lc.toNat = s.cur.lc.toNat - 1)

/-- R92 to R94: a private register is written, but for what an earlier instruction of the slot writes later, which remains; a shared one keeps its value
until the write lands, and then has it; of writes to one register that have landed the latest remains, and of one cycle the lower slot's, or the later of one
slot. That a private register has its new value at once, at issue, where no instruction of its slot can tell, is the model's reading (log 47). -/
def Obligations.RegisterWrites : Prop :=
  (∀ (s : State) r n, (s.cur.busyNow.find? fun b => b.reg == r).map (fun b => b.cycle) = some n →
    (∀ b ∈ s.cur.busy, b.reg = r → b.cycle ≤ n) → s.older r = 0) ∧
  (∀ (s : State) lat n v, (s.putS lat (.priv n) v).sreg (.priv n) = (if s.older (.s (.priv n)) = 0 then v else s.sreg (.priv n)) ∧
    Frame s (s.putS lat (.priv n) v) (some (.s (.priv n))) []) ∧
  (∀ (s : State) lat n m v, (s.putV lat (.priv n) m v).vreg (.priv n) =
      (mergeLanes m (s.vreg (.priv n)) v &&& ~~~ s.older (.v (.priv n))) ||| (s.vreg (.priv n) &&& s.older (.v (.priv n))) ∧
    Frame s (s.putV lat (.priv n) m v) (some (.v (.priv n))) []) ∧
  (∀ (s : State) n v, (s.putP n v).preg n =
      (v &&& ~~~ (s.older (.p n)).setWidth 16) ||| (s.preg n &&& (s.older (.p n)).setWidth 16) ∧
    Frame s (s.putP n v) (some (.p n)) []) ∧
  (∀ (s : State) lat n v, Frame s (s.putS lat (.shared n) v) none []) ∧
  (∀ (s : State) lat n m v, Frame s (s.putV lat (.shared n) m v) none []) ∧
  (∀ (s : State) c w v, (s.coreOf c).landing = [w] → w.scalar = some v → w.dq = false →
    (w.cycle ≤ s.cycle c → ((s.settle c).vfOf c w.vf).c.look w.reg.toNat = some v) ∧
      (s.cycle c < w.cycle → ∀ u, (s.settle c).vfOf c u = s.vfOf c u)) ∧
  (∀ (s : State) c w l, (s.coreOf c).landing = [w] → w.scalar = none → w.lanes = l → w.cycle ≤ s.cycle c → l.Nodup →
    (∀ p ∈ l, ∀ q ∈ l, p.1 = q.1 → p = q) → (∀ p ∈ l, p.1 < 16) →
    ∀ i < 16, lane ((((s.settle c).vfOf c w.vf).w.look w.reg.toNat).getD 0) i =
      ((l.find? fun p => p.1 == i).map fun p => p.2).getD (lane (((s.vfOf c w.vf).w.look w.reg.toNat).getD 0) i)) ∧
  ∀ (s : State) c a b x y, (s.coreOf c).landing = [a, b] → a.vf = b.vf → a.reg = b.reg → a.scalar = some x → b.scalar = some y →
    a.dq = false → b.dq = false → a.cycle ≤ s.cycle c → b.cycle ≤ s.cycle c →
    ((s.settle c).vfOf c a.vf).c.look a.reg.toNat = some (if b.cycle < a.cycle ∨ (a.cycle = b.cycle ∧ a.slot < b.slot) then x else y)

/-- R61, R92, R99: an instruction of the tables of results changes its destination, the loop's count, and, where it rounds or compares
floats, FPFLAGS; no other register, no byte of memory, nothing elsewhere. -/
def Obligations.ResultFrame : Prop :=
  ∀ (s : State) i g d t, resultOf s i = some (g, d) → exec i s = .next t →
    Frame s t (some d) (if (floatResultOf s i).isSome || (floatCompare s i).isSome || (narrowing s i).isSome || (approxCase s i).isSome
      then [.lc, .fpflags] else [.lc])

/-! ## Control (R144 to R156) and traps (R331) -/

/-- R144, R146 item 2: branches, calls and returns, and the loop that a target outside it disarms.
R145: LOOP arms the loop, or with a count of zero skips the instruction at LE. Where that instruction cannot be fetched or makes no chain, its fault finds LS, LE
and LC written already: the model's reading (log 58). -/
def Obligations.ControlTransfers : Prop :=
  ((∀ (s : State) t, (s.jumpTo t).cur = { s.cur with pc := t, lc :=
      if s.cur.ih = false ∧ s.cur.lc ≠ 0 ∧ (t.toNat < s.cur.ls.toNat ∨ s.cur.le.toNat < t.toNat) then 0 else s.cur.lc } ∧
    Frame s (s.jumpTo t) none [.lc]) ∧
  (∀ (s : State) g dist, s.acts g = true →
    exec (.br g dist) s = .next (s.jumpTo (BitVec.ofInt 64 (s.cur.pc.toNat + 2 * dist.toInt)))) ∧
  (∀ (s : State) p sense dist, exec (.brp p sense dist) s =
    .next (if (s.preg p).getLsbD 0 = !sense then s.jumpTo (BitVec.ofInt 64 (s.cur.pc.toNat + 2 * dist.toInt)) else s.retire)) ∧
  (∀ (s : State) g dist, s.acts g = true → exec (.call g dist) s =
    .next ((s.putS 2 (.priv 31) (s.cur.pc + BitVec.ofNat 64 s.cur.ilen)).jumpTo (BitVec.ofInt 64 (s.cur.pc.toNat + 2 * dist.toInt)))) ∧
  (∀ (s : State) g, s.acts g = true → exec (.ret g) s =
    .next (if (s.sreg (.priv 31)).toNat % 2 = 1 then s.trap .align (s.sreg (.priv 31)) else s.jumpTo (s.sreg (.priv 31)))) ∧
  ∀ (s : State) g d a, s.acts g = true → exec (.jmpr g d a) s =
    .next (if (s.ssrc a).toNat % 2 = 1 then s.trap .align (s.ssrc a)
      else (s.putS 2 d (s.cur.pc + BitVec.ofNat 64 s.cur.ilen)).jumpTo (s.ssrc a))) ∧
  (∀ (s : State) a dist s' le, le = BitVec.ofInt 64 (s.cur.pc.toNat + 2 * dist.toInt) &&& 0x01FFFFFFFFFFFFFE →
    s' = (s.modCur fun x => { x with ls := (s.cur.pc + BitVec.ofNat 64 s.cur.ilen) &&& 0x01FFFFFFFFFFFFFE, le := le, lc := s.ssrc a }) →
    (s.ssrc a ≠ 0 → exec (.loop a dist) s = .next (s'.modCur fun x => { x with pc := s.cur.pc + BitVec.ofNat 64 s.cur.ilen })) ∧
    (s.ssrc a = 0 → s.fetchHeld le = none → ∀ u ws k, s'.fetchWords le = (u, .ok ws) → chainLength ws = some k →
      exec (.loop a dist) s = .next (u.modCur fun x => { x with pc := le + BitVec.ofNat 64 k })) ∧
    (s.ssrc a = 0 → s.fetchHeld le = none → ∀ u ws, s'.fetchWords le = (u, .ok ws) → chainLength ws = none →
      exec (.loop a dist) s = .next (u.trapAt .illegal le ((ws.head?.getD 0).setWidth 64))) ∧
    (s.ssrc a = 0 → s.fetchHeld le = none → ∀ u c, s'.fetchWords le = (u, .error c) → exec (.loop a dist) s = .next (u.trapAt c le le)))

/-- R331, R334, R25: a trap saves the address, cause, value, level and mode, sets IH and goes to TVEC as it stands (R94), and changes nothing else; in a
trap handler it kills as DOUBLE; in the handler slot nothing is delivered. -/
def Obligations.TrapEntry : Prop :=
  (∀ (s : State) cause v, s.slot ≠ 15 → s.cur.ih = false →
    (s.trap cause v).cur = { s.cur with
      tepc := addrBits s.cur.pc, tcause := cause.code, tval := v, ppl := s.cur.pl, pmd := s.cur.md, ih := true,
      pc := { s.cur with busyNow := [] }.vector (s.cycle s.core), status := .run, reissue := false, busyNow := [] } ∧
    RegsKept s (s.trap cause v) none ∧ SysKept s (s.trap cause v) [.tstat, .tcause, .tepc, .tval] ∧ SameMemory s (s.trap cause v) ∧
      Elsewhere s (s.trap cause v)) ∧
  (∀ (s : State) cause v, s.slot ≠ 15 → s.cur.ih = true → s.cur.kill = none →
    (s.trap cause v).cur = { s.cur with kill := some ⟨.double, s.cur.pc, v⟩, status := .run, busyNow := [] }) ∧
  (∀ (s : State) cause v, s.slot = 15 → s.cur.kill = none →
    (s.trap cause v).cur = { s.cur with kill := some ⟨cause, s.cur.pc, v⟩, status := .run, busyNow := [] }) ∧
  ∀ (s : State) cause, s.slot ≠ 15 → s.cur.ih = false →
    (s.decodeFault cause).cur.tepc = addrBits s.cur.pc ∧ (s.decodeFault cause).cur.tcause = cause.code ∧
      (s.decodeFault cause).cur.tval = s.cur.iword.setWidth 64 ∧ (s.decodeFault cause).cur.sigacc = s.cur.sigPrev

/-- R59 step 5, R235, R249, R262, R362, R363: an instruction that its slot does not run is ILLEGAL, and one above its level is PRIV,
whatever its predicate. That ILLEGAL by the slot comes before PRIV is the model's reading (log 48). -/
def Obligations.SlotAndLevel : Prop :=
  (∀ (s : State) i, ((footOf i).noMove = true ∧ s.slot = 0) ∨ ((footOf i).general = true ∧ (s.slot = 0 ∨ s.slot = 15)) →
    exec i s = .next (s.decodeFault .illegal)) ∧
  (∀ (s : State) i, s.cur.pl.toNat < (footOf i).level → (footOf i).noMove = false ∨ s.slot ≠ 0 → exec i s = .next (s.decodeFault .priv)) ∧
  (∀ (s : State) g, s.slot ≠ 15 → exec (.msgend g) s = .next (s.decodeFault .illegal)) ∧
  (∀ (s : State) g, s.slot = 15 → exec (.exit g) s = .next (s.decodeFault .illegal)) ∧
  ∀ (s : State) g d a, s.slot ≠ 0 → exec (.mbrMovement g d a) s = .next (s.decodeFault .illegal)

/-- R150, R151, R153, R154, R156: TRAP, TRAPRET, BEAT, YPT and SIGCHK. -/
def Obligations.ChecksAndTraps : Prop :=
  (∀ (s : State) g code, s.acts g = true → s.slot ≠ 15 → s.cur.ih = false →
    ∃ t, exec (.trap g code) s = .next t ∧ t.cur = { s.cur with
      tepc := addrBits (s.cur.pc + BitVec.ofNat 64 s.cur.ilen), tcause := 0x38, tval := code.setWidth 64, ppl := s.cur.pl, pmd := s.cur.md, ih := true,
      pc := s.cur.vector (s.cycle s.core), status := .run, reissue := false } ∧ SameMemory s t ∧ Elsewhere s t) ∧
  (∀ (s : State), s.cur.ih = true → s.cur.ppl ≠ 3 →
    ∃ t, exec .trapret s = .next t ∧
      t.cur = { s.cur with pl := s.cur.ppl, md := s.cur.pmd, ih := false, pc := s.cur.tepc, status := .run } ∧ SameMemory s t ∧
      Elsewhere s t) ∧
  (∀ (s : State), s.cur.ih = false ∨ s.cur.ppl = 3 → exec .trapret s = .next (s.decodeFault .illegal)) ∧
  (∀ (s : State) g, s.acts g = true → exec (.beat g) s = .next (s.modCur fun x => { x with hbc := 0, missed := false }).retire) ∧
  (∀ (s : State) g, s.acts g = true → (s.cur.preLead = false ∧ s.cur.prePreempt = false) ∨ s.slot = 15 →
    exec (.ypt g) s = .next (s.modCur fun x => { x with ptc := 0 }).retire) ∧
  (∀ (s : State) g, s.acts g = true → s.cur.preLead = true ∨ s.cur.prePreempt = true → s.slot ≠ 15 → s.slot ≠ 0 → s.cur.storeBuf = [] →
    s.cur.posted = [] → s.cur.regErr = [] →
    exec (.ypt g) s = .next ((s.modCur fun x => { x with ptc := 0 }).retire.park s.core s.slot)) ∧
  (∀ (s : State) imm, s.cur.sigPrev = imm → exec (.sigchk imm) s = .next (s.modCur fun x => { x with sigacc := 0xFFFF }).retire) ∧
  ∀ (s : State) imm, s.cur.sigPrev ≠ imm → s.cur.kill = none →
    ∃ t, exec (.sigchk imm) s = .next t ∧
      t.cur = { s.cur with sigacc := 0xFFFF, status := .run, kill := some ⟨.sigfail, s.cur.pc, s.cur.sigPrev.setWidth 64⟩ }

/-- R149, R269: EXIT ends an activity that owes nothing once its copy statuses have landed; one that owes takes OBEXIT. That it does not wait for the status of
a collective (log 57), and that it ends the movement slot too (log 69), are the model's choices. -/
def Obligations.ActivityEnd : Prop :=
  (∀ (s : State) g, s.acts g = true → s.slot ≠ 15 → s.obsOf s.core s.slot = [] → (∀ p ∈ s.cur.pendRegs, p.2 = true) →
    ∃ t, exec (.exit g) s = .next t ∧ Emptied s t s.core s.slot ∧ SameMemory s t ∧ Elsewhere s t) ∧
  (∀ (s : State) g, s.acts g = true → s.slot ≠ 15 → s.obsOf s.core s.slot = [] → (∃ p ∈ s.cur.pendRegs, p.2 = false) →
    exec (.exit g) s = .next (s.wait .exiting)) ∧
  (∀ (s : State) c k, (s.slotOf c k).status = .wait .exiting → s.relocks c = false → (∀ p ∈ (s.slotOf c k).pendRegs, p.2 = true) →
    ∃ t, exec (.memoryReply c k) s = .next t ∧ Emptied s t c k ∧ SameMemory s t) ∧
  ∀ (s : State) g, s.acts g = true → s.slot ≠ 15 → s.obsOf s.core s.slot ≠ [] →
    exec (.exit g) s = .next (s.trap .obexit (BitVec.ofNat 64 (s.obsOf s.core s.slot).length))

/-! ## A step, and the state after reset -/

/-- R59, R18: the words at the pc that decode to an instruction are that instruction, and the step of the seat is `exec` of it, in the state
in which its slot issues: writes landed, the seat counted, its words folded into SIGACC and its registers pending. An event of the
agenda that waits for no instant is its own step. -/
def Obligations.StepRunsDecoded : Prop :=
  (∀ (s u : State) i ws len, s.cur.pc.toNat % 2 = 0 → s.fetchHeld s.cur.pc = none → s.fetchWords s.cur.pc = (u, .ok ws) →
    decode s.decMode ws = .ok (i, len) → s.fetchInstr = (u, .instr i len (ws.take (len / 2)))) ∧
  (∀ (s u : State) rest q i len ws, s.traceNow = none → s.agenda = .seat :: rest → s.nextSeat = some q → s.dueBefore q.tick true = none →
    (seated s q rest).cur.boundary q.core q.slot = none →
    ((seated s q rest).modCur fun x => { x with sigPrev := x.sigacc }).fetchInstr = (u, .instr i len ws) →
    (u.setInstr len ws).cur.loopEnds i = false → (u.setInstr len ws).barred i = false → (u.setInstr len ws).acts (foot i).pred = true →
    ∀ f : Foot, f = (u.setInstr len ws).foot i → (u.setInstr len ws).stopped (!q.donated) f (fun v => v.begin i f ws) = none →
    step s = exec i ((u.setInstr len ws).begin i f ws)) ∧
  (∀ (s u : State) rest q i len ws, s.traceNow = none → s.agenda = .seat :: rest → s.nextSeat = some q → s.dueBefore q.tick true = none →
    (seated s q rest).cur.boundary q.core q.slot = none →
    ((seated s q rest).modCur fun x => { x with sigPrev := x.sigacc }).fetchInstr = (u, .instr i len ws) →
    (u.setInstr len ws).cur.loopEnds i = false →
    ((u.setInstr len ws).barred i = true →
      step s = exec i (((u.setInstr len ws).idleSeat (!q.donated)).begin i ((u.setInstr len ws).foot i) ws)) ∧
      ((u.setInstr len ws).barred i = false → (u.setInstr len ws).acts (foot i).pred = false →
        step s = exec i ((u.setInstr len ws).begin i { (u.setInstr len ws).foot i with writes := [] } ws))) ∧
  ∀ (s : State) i rest, s.traceNow = none → s.agenda = .ev i :: rest → s.evTick i = none → step s = exec i { s with agenda := rest }

/-- R92, R96, R315, R317, R353: at reset RUN is 0, TIME is 0, every VF is down, no slot holds an activity and every register of every
slot and bank reads zero; R162: memory reads zero and empty, in its canonical form. The values that no rule gives are log 1's, which also leaves slot 0
empty until a start loads the movement program there. -/
def Obligations.ResetState : Prop :=
  State.reset.runOn = false ∧ State.reset.time = 0 ∧ (∀ v < 8, State.reset.vfIsUp v = false) ∧
    (∀ i, (State.reset.isl i).level = 0) ∧
    (∀ c k, (State.reset.slotOf c k).status = .empty ∧ (State.reset.slotOf c k).storeBuf = [] ∧ State.reset.obsOf c k = []) ∧
    (∀ c k r, (State.reset.at c k).sreg r = 0 ∧ (State.reset.at c k).vreg r = 0) ∧ (∀ c k p, (State.reset.at c k).preg p = 0) ∧
    (∀ a, State.reset.mem.get a = 0 ∧ State.reset.isFull a = false ∧ State.reset.isPoisoned a = false) ∧
    Memory.wf State.reset.mem

/-- Every step keeps the canonical form of the memory: addresses rising, and no byte listed that is zero. -/
def Obligations.MemoryForm : Prop := ∀ (s t : State), Memory.wf s.mem → step s = .next t → Memory.wf t.mem

/-! ## Decoding -/

/-- R49 to R56, R66, R67, R111, R124, R142, R194: words written out from the encoding tables, and what they are. -/
def Obligations.DecodeSamples : Prop :=
  decode {} [0x0000] = .ok (.nop .always, 2) ∧
  decode {} [0x0823] = .ok (.movi .always (.priv 1) 3, 2) ∧
  decode {} [0xFC80, 0x7805] = .ok (.br (.whole 1 false) 5, 4) ∧
  decode {} [0x8C24] = .ok (.loop (.reg (.priv 1)) 4, 2) ∧
  decode {} [0xF640, 0xE410] = .ok (.mts .always .fmta (.reg (.shared 2)), 4) ∧
  decode {} [0xF840, 0xF420, 0x6C60] = .ok (.cmplti .always 1 (.reg (.priv 3)) 0, 6) ∧
  decode {} [0xFA80, 0x0000] = .ok (.trapret, 4)

/-- R55 to R60: a fifth prefix, a second prefix of a kind, a fourth XIMM, page 0 or a page above 10, an op not listed in its page, low bits
of XPRED, a third operand where the instruction has none, or words that end before the base word make no instruction. -/
def Obligations.ReservedRefused : Prop :=
  (∀ m ws, (∀ w ∈ ws, 0x3C ≤ (w.extractLsb' 10 6).toNat) → ∃ e, decode m ws = .error e) ∧
  (∀ m p ws, 4 < p.length → (∀ w ∈ p, 0x3C ≤ (w.extractLsb' 10 6).toNat) → ∃ e, decode m (p ++ ws) = .error e) ∧
  (∀ m (a b : Half) p q ws, 0x3D ≤ (a.extractLsb' 10 6).toNat → a.extractLsb' 10 6 = b.extractLsb' 10 6 →
    (∀ w ∈ p ++ q, 0x3C ≤ (w.extractLsb' 10 6).toNat) → ∃ e, decode m (p ++ a :: q ++ b :: ws) = .error e) ∧
  (∀ m (w : Half) p ws, (∀ x ∈ p, 0x3C ≤ (x.extractLsb' 10 6).toNat) → w.extractLsb' 10 6 = 0x3E →
    (w.extractLsb' 6 4 = 0 ∨ 11 ≤ (w.extractLsb' 6 4).toNat) → ∃ e, decode m (p ++ w :: ws) = .error e) ∧
  (∀ m (w : Half) p ws, (∀ x ∈ p, 0x3C ≤ (x.extractLsb' 10 6).toNat) → w.extractLsb' 10 6 = 0x3F → w.extractLsb' 0 5 ≠ 0 →
    ∃ e, decode m (p ++ w :: ws) = .error e) ∧
  (∀ m p ws, (∀ x ∈ p, 0x3C ≤ (x.extractLsb' 10 6).toNat) → 4 ≤ (p.filter fun x => x.extractLsb' 10 6 == 0x3C).length →
    ∃ e, decode m (p ++ ws) = .error e) ∧
  ∀ m (w : Half) p ws, (∀ x ∈ p, 0x3C ≤ (x.extractLsb' 10 6).toNat) → (w.extractLsb' 10 6).toNat < 0x3C →
    (opsListed (pageOf p) ≤ (w.extractLsb' 10 6).toNat → ∃ e, decode m (p ++ w :: ws) = .error e) ∧
    ((w.extractLsb' 10 6).toNat ∉ thirdOps (pageOf p) → (∃ x ∈ p, x.extractLsb' 10 6 = 0x3D ∧ (x.extractLsb' 5 5 ≠ 0 ∨ x.getLsbD 2 = true)) →
      ∃ e, decode m (p ++ w :: ws) = .error e)

/-- Decoding and encoding agree: the words of every well-formed instruction, with whatever follows them, decode to that instruction with
every operand as it was, in normal decode and in maintenance decode, in the movement slot and in the others. -/
def Obligations.DecodeEncode : Prop :=
  ∀ m i ws rest, wf m i = true → encode m i = some ws → decode m (ws ++ rest) = .ok (i, 2 * ws.length)

/-! ## Sync slots, the gang barrier and obligations (R258 to R283) -/

/-- R272, R275: SYINIT and OBNEW write rank and word 0 of the pair and no other memory, make the entry of the sync unit, with the obligation
where it is owed; a bad rank, type or an active pair traps. -/
def Obligations.SyncCreates : Prop :=
  (∀ (s : State) g sa sr sv type owe s1 s2 p, s.acts g = true → AtSlot s (s.ssrc sa) true s1 p →
    (s.ssrc sr).toNat < 0xFFFFFFFFFFFFFF → (type = .barrier → field (s.ssrc sv) 47 24 ≠ 0) → owe = false →
    EntryLeft s → (withEntry s1).release .module = some s2 → ¬ (slotWord (s2.mem.word p.pa)).Live →
    ∃ t, exec (.syinit g sa sr sv type owe) s = .next t ∧ Past s t ∧ SameOutside s2 t p.pa 16 ∧ t.mem.word (p.pa + 8) = s.ssrc sr ∧
      slotWord (t.mem.word p.pa) = ⟨false, true, match type with | .signal => 1 | .barrier => 2 | .join => 3, 0,
        if type = .barrier then field (s.ssrc sv) 47 24 * 2 ^ 24 + field (s.ssrc sv) 47 24 else field (s.ssrc sv) 47 0⟩ ∧
      (t.vfOf s.core s.bankVf).sync.look p.pa = some 0 ∧ t.obsOf s.core s.slot = s.obsOf s.core s.slot) ∧
  (∀ (s : State) g sa sr sv s1 s2 s3 p i, s.acts g = true → AtSlot s (s.ssrc sa) true s1 p →
    (s.ssrc sr).toNat < 0xFFFFFFFFFFFFFF → field (s.ssrc sv) 47 24 ≠ 0 → EntryLeft s →
    (withEntry s1).reserveOb s.core s.slot = .ok s2 i → (s2.coreOf s.core).obResv.look (16 + s.slot) = none → s2.isUnavail p.pa = false →
    s2.release .module = some s3 → ¬ (slotWord (s3.mem.word p.pa)).Live →
    ∃ t, exec (.syinit g sa sr sv .barrier true) s = .next t ∧ Past s t ∧ SameOutside s3 t p.pa 16 ∧
      t.mem.word (p.pa + 8) = s.ssrc sr ∧
      slotWord (t.mem.word p.pa) = ⟨false, true, 2, 0, field (s.ssrc sv) 47 24 * 2 ^ 24 + field (s.ssrc sv) 47 24⟩ ∧
      (t.vfOf s.core s.bankVf).sync.look p.pa = some 1 ∧ Owes s t .arrive (boundObj s.core (s.ssrc sa)) ((s.ssrc sr).setWidth 56)) ∧
  (∀ (s : State) g d lo hi owe s1 s2 p, s.acts g = true → AtSlot s (s.sreg d) true s1 p →
    (s.ssrc hi).toNat ≤ 0xFFFFFFFFFFFFFF → (s.ssrc lo).toNat + 2 ≤ (s.ssrc hi).toNat → owe = false →
    EntryLeft s → (withEntry s1).release .module = some s2 → ¬ (slotWord (s2.mem.word p.pa)).Live →
    ∃ t, exec (.obnew g d lo hi owe) s = .next t ∧ Past s t ∧ SameOutside s2 t p.pa 16 ∧
      (t.mem.word (p.pa + 8)).toNat = ((s.ssrc lo).toNat + (s.ssrc hi).toNat) / 2 ∧
      slotWord (t.mem.word p.pa) = ⟨false, true, 1, 0, 0⟩ ∧ (t.vfOf s.core s.bankVf).sync.look p.pa = some 0 ∧
      (∀ n, d = .priv n → s.older (.s d) = 0 → (t.sreg d).toNat = ((s.ssrc lo).toNat + (s.ssrc hi).toNat) / 2)) ∧
  (∀ (s : State) g d lo hi s1 s2 s3 p i, s.acts g = true → AtSlot s (s.sreg d) true s1 p →
    (s.ssrc hi).toNat ≤ 0xFFFFFFFFFFFFFF → (s.ssrc lo).toNat + 2 ≤ (s.ssrc hi).toNat → EntryLeft s →
    (withEntry s1).reserveOb s.core s.slot = .ok s2 i → (s2.coreOf s.core).obResv.look (16 + s.slot) = none → s2.isUnavail p.pa = false →
    s2.release .module = some s3 → ¬ (slotWord (s3.mem.word p.pa)).Live →
    ∃ t, exec (.obnew g d lo hi true) s = .next t ∧ Past s t ∧ (t.vfOf s.core s.bankVf).sync.look p.pa = some 1 ∧
      Owes s t .signal (boundObj s.core (s.sreg d)) (BitVec.ofNat 56 (((s.ssrc lo).toNat + (s.ssrc hi).toNat) / 2))) ∧
  (∀ (s : State) g sa sr sv type owe s1 p, s.acts g = true → AtSlot s (s.ssrc sa) true s1 p →
    (0xFFFFFFFFFFFFFF ≤ (s.ssrc sr).toNat →
      exec (.syinit g sa sr sv type owe) s = .next ((s1.trap .rankspace (s.ssrc sr)).unreserve s.core s.slot)) ∧
    ((s.ssrc sr).toNat < 0xFFFFFFFFFFFFFF → (type = .barrier ∧ field (s.ssrc sv) 47 24 = 0) ∨ (owe = true ∧ type ≠ .barrier) →
      exec (.syinit g sa sr sv type owe) s = .next ((s1.trap .sykind (s.ssrc sa)).unreserve s.core s.slot)) ∧
    ((s.ssrc sr).toNat < 0xFFFFFFFFFFFFFF → (type = .barrier → field (s.ssrc sv) 47 24 ≠ 0) → (owe = true → type = .barrier) →
      ¬ EntryLeft s →
      exec (.syinit g sa sr sv type owe) s = .next ((s1.trap .syfull (s.ssrc sa)).unreserve s.core s.slot))) ∧
  ∀ (s : State) g d lo hi owe, s.acts g = true → s.slot ≠ 0 →
    0xFFFFFFFFFFFFFF < (s.ssrc hi).toNat ∨ (s.ssrc hi).toNat < (s.ssrc lo).toNat + 2 →
    exec (.obnew g d lo hi owe) s = .next ((s.trap .rankspace (s.ssrc hi)).unreserve s.core s.slot)

/-- R273, R274, R276, R277, R278: SYADD, SYARRIVE, SYWAIT, SYREAD and SYRET on an active slot, what they write, and the wait. That
SYRET makes its checks again at the home is the model's reading (log 46). -/
def Obligations.SyncSlots : Prop :=
  (∀ (s : State) g sa sv s1 s2 p b ph v, s.acts g = true → AtSlot s (s.ssrc sa) true s1 p → s1.release .module = some s2 →
    slotWord (s2.mem.word p.pa) = ⟨b, true, 1, ph, v⟩ → Alone s p.pa →
    ∃ t, exec (.syadd g sa sv) s = .next t ∧ Past s t ∧ SameOutside s2 t p.pa 8 ∧
      slotWord (t.mem.word p.pa) = ⟨b, true, 1, ph, (max 0 (min (v + (s.ssrc sv).toInt) (2 ^ 48 - 1))).toNat⟩ ∧
      Paid s t .signal (boundObj s.core (s.ssrc sa)) p.pa) ∧
  (∀ (s : State) g sa sv s1 s2 p, s.acts g = true → AtSlot s (s.ssrc sa) true s1 p → s1.release .module = some s2 →
    ¬ ((slotWord (s2.mem.word p.pa)).Live ∧ (slotWord (s2.mem.word p.pa)).type = 1) →
    exec (.syadd g sa sv) s = .next (s2.trap .sykind (s.ssrc sa))) ∧
  (∀ (s : State) g d sa s1 s2 p b ph n r, s.acts g = true → AtSlot s (s.ssrc sa) true s1 p → s1.release .module = some s2 → r < 2 ^ 24 →
    slotWord (s2.mem.word p.pa) = ⟨b, true, 2, ph, n * 2 ^ 24 + r⟩ → 1 ≤ r → Alone s p.pa →
    ∃ t, exec (.syarrive g d sa) s = .next t ∧ Past s t ∧ SameOutside s2 t p.pa 8 ∧
      slotWord (t.mem.word p.pa) = (if r = 1 then ⟨b, true, 2, (ph + 1) % 256, n * 2 ^ 24 + n⟩ else ⟨b, true, 2, ph, n * 2 ^ 24 + (r - 1)⟩) ∧
      (∀ k, d = .priv k → s.older (.s d) = 0 → t.sreg d = BitVec.ofNat 64 ph) ∧ Paid s t .arrive (boundObj s.core (s.ssrc sa)) p.pa) ∧
  (∀ (s : State) g d sa s1 s2 p, s.acts g = true → AtSlot s (s.ssrc sa) true s1 p → s1.release .module = some s2 →
    ¬ ((slotWord (s2.mem.word p.pa)).Live ∧ (slotWord (s2.mem.word p.pa)).type = 2) →
    exec (.syarrive g d sa) s = .next (s2.trap .sykind (s.ssrc sa))) ∧
  (∀ (s : State) g d sa st s1 p, s.acts g = true → s.slot ≠ 15 → AtSlot s (s.ssrc sa) true s1 p → s.cur.storeBuf = [] →
    Quiet s s1 ∧
    (¬ (slotWord (s.mem.word p.pa)).Live → exec (.sywait g d sa st) s = .next (s1.trap .sykind (s.ssrc sa))) ∧
    ((slotWord (s.mem.word p.pa)).Live →
      let w := slotWord (s.mem.word p.pa)
      let rank : BitVec 56 := (s.mem.word (p.pa + 8)).setWidth 56
      ((s.obmin s.core s.slot).toNat ≤ rank.toNat → exec (.sywait g d sa st) s = .next (s1.trap .obrank (rank.setWidth 64))) ∧
      (rank.toNat < (s.obmin s.core s.slot).toNat →
        exec (.sywait g d sa st) s = .next (
          if w.poison = true ∨ (w.type = 1 ∧ field (s.ssrc st) 47 0 ≤ w.value) ∨ (w.type = 3 ∧ w.value = 0) ∨
              (w.type = 2 ∧ w.phase ≠ field (s.ssrc st) 7 0) then
            ((s1.readHome s.core p.pa).putS 0 d (s.mem.word p.pa)).retire
          else
            (s1.join s.core s.slot p.pa (.sywait d (s.ssrc sa) p.pa (s.ssrc st) (s.obmin s.core s.slot))).wait (.sync rank))))) ∧
  (∀ (s : State) g d sa st, s.acts g = true → s.slot = 15 →
    exec (.sywait g d sa st) s = .next s.hwait ∧ exec .gbar s = .next s.hwait) ∧
  (∀ (s : State) g sa sv s1 s2 p b ph v c k d a target m h, s.acts g = true → AtSlot s (s.ssrc sa) true s1 p → s1.release .module = some s2 →
    slotWord (s2.mem.word p.pa) = ⟨b, true, 1, ph, v⟩ → (∀ q ∈ s.obsOf s.core s.slot, q.spill = none) →
    s.waiters = [⟨h, p.pa, c, k, .sywait (.priv d) a p.pa target m, false⟩] → (c, k) ≠ (s.core, s.slot) →
    (s.at c k).older (.s (.priv d)) = 0 →
    ∃ t, exec (.syadd g sa sv) s = .next t ∧
      if b = true ∨ (field target 47 0 : Int) ≤ max 0 (min (v + (s.ssrc sv).toInt) (2 ^ 48 - 1)) then
        t.waiters = [] ∧ (t.at c k).sreg (.priv d) = t.mem.word p.pa ∧ (t.slotOf c k).status = .run
      else t.waiters = s.waiters ∧ t.slotOf c k = s.slotOf c k) ∧
  (∀ (s : State) g d sa w s1 p, s.acts g = true → AtSlot s (s.ssrc sa) false s1 p → s.cur.storeBuf = [] →
    Quiet s s1 ∧ exec (.syread g d sa w) s = .next (if (slotWord (s.mem.word p.pa)).active = true ∧ 1 ≤ (slotWord (s.mem.word p.pa)).type ∧
        (slotWord (s.mem.word p.pa)).type ≤ 3 then
          ((s1.readHome s.core p.pa).putS 0 d (s.mem.word (if w then p.pa + 8 else p.pa))).retire
      else s1.trap .sykind (s.ssrc sa))) ∧
  (∀ (s : State) g sa s1 p, s.acts g = true → AtSlot s (s.ssrc sa) true s1 p →
    ¬ (slotWord (s.mem.word p.pa)).Live ∨ (s.vfOf s.core s.bankVf).sync.look p.pa ≠ some 0 ∨ (∃ w ∈ s.waiters, w.pa = p.pa ∧ w.req.isFE = false) →
    exec (.syret g sa) s = .next (s1.trap .sykind (s.ssrc sa))) ∧
  ∀ (s : State) g sa s1 s2 p, s.acts g = true → AtSlot s (s.ssrc sa) true s1 p → s1.release .module = some s2 →
    (slotWord (s.mem.word p.pa)).Live → (s.vfOf s.core s.bankVf).sync.look p.pa = some 0 → (∀ w ∈ s.waiters, w.pa ≠ p.pa) →
    ((slotWord (s2.mem.word p.pa)).Live →
      ∃ t, exec (.syret g sa) s = .next t ∧ Past s t ∧ SameOutside s2 t p.pa 16 ∧ t.mem.word p.pa = 0 ∧ t.mem.word (p.pa + 8) = 0 ∧
        t.obsOf s.core s.slot = s.obsOf s.core s.slot) ∧
    (¬ (slotWord (s2.mem.word p.pa)).Live → exec (.syret g sa) s = .next (s2.trap .sykind (s.ssrc sa)))

/-- R279: GBAR arrives once for its core and phase and waits; the last arrival of the gang completes the phase for every waiting GBAR; one with
a recorded phase waits for that phase alone; SYKIND where the gang has no barrier. -/
def Obligations.GangBarrier : Prop :=
  (∀ (s : State), s.slot ≠ 0 → s.slot ≠ 15 → (∀ g, s.gangStage s.core s.bankVf = some g → g.bar = false) →
    exec .gbar s = .next (s.trap .sykind 0)) ∧
  ∀ (s : State) g s2 v cv, s.slot ≠ 0 → s.slot ≠ 15 → v = s.bankVf → cv = s.vfOf s.core v → s.gangStage s.core v = some g → g.bar = true →
    ((s.obmin s.core s.slot).toNat ≤ g.rank.toNat → exec .gbar s = .next (s.trap .obrank (g.rank.setWidth 64))) ∧
    (g.rank.toNat < (s.obmin s.core s.slot).toNat → s.release .module = some s2 →
      (∀ p, s.cur.barPhase = some p → p = cv.barPhase → exec .gbar s = .next (s2.wait (.gbar p g.rank))) ∧
      (∀ p, s.cur.barPhase = some p → p ≠ cv.barPhase →
        ∃ t, exec .gbar s = .next t ∧ Past s t ∧ t.cur.barPhase = none ∧ t.mem = s2.mem) ∧
      (s.cur.barPhase = none → cv.barArrived = true → exec .gbar s = .next (s2.wait (.gbar cv.barPhase g.rank))) ∧
      (s.cur.barPhase = none → cv.barArrived = false → (∃ c ∈ s.gangCores s.core v, c ≠ s.core ∧ (s.vfOf c v).barArrived = false) →
        ∃ t, exec .gbar s = .next t ∧ t.cur.status = .wait (.gbar cv.barPhase g.rank) ∧ t.cur.barPhase = some cv.barPhase ∧
          (t.vfOf s.core v).barArrived = true ∧ (t.vfOf s.core v).barPhase = cv.barPhase ∧ t.mem = s2.mem) ∧
      (s.cur.barPhase = none → cv.barArrived = false → (s.gangCores s.core v).Nodup → s.core ∈ s.gangCores s.core v →
        (∀ c ∈ s.gangCores s.core v, c ≠ s.core → (s.vfOf c v).barArrived = true) →
        ∃ t, exec .gbar s = .next t ∧ Past s t ∧ t.cur.barPhase = none ∧ t.mem = s2.mem ∧
          (∀ c ∈ s.gangCores s.core v, (t.vfOf c v).barArrived = false ∧ (t.vfOf c v).barPhase = ((s.vfOf c v).barPhase + 1) % 256) ∧
          ∀ c ∈ s.gangCores s.core v, ∀ k p r, (c, k) ≠ (s.core, s.slot) → (s.slotOf c k).vfid.toNat = v →
            (s.slotOf c k).status = .wait (.gbar p r) →
            (t.slotOf c k).status = .run ∧ (t.slotOf c k).pc = (s.slotOf c k).advance.pc ∧ (t.slotOf c k).barPhase = none))

/-- R280, R282, R283: OBOWE adds one obligation at the slot's rank, and one to the slot's count; OBQ reads the obligations by rank, ties in
order of creation, and the handle; OBRANK gives ranks and changes nothing. -/
def Obligations.ObligationReads : Prop :=
  (∀ (s : State) g sa s1 s2 p w i, s.acts g = true → AtSlot s (s.ssrc sa) true s1 p → s.cur.storeBuf = [] →
    s1.reserveOb s.core s.slot = .ok s2 i → s2.isUnavail p.pa = false → w = slotWord (s.mem.word p.pa) →
    (w.Live → w.type ≠ 3 →
      ∃ t, exec (.obowe g sa) s = .next t ∧ Past s t ∧
        Owes s t (if w.type = 1 then .signal else .arrive) (boundObj s.core (s.ssrc sa)) ((s.mem.word (p.pa + 8)).setWidth 56) ∧
        ((s2.coreOf s.core).obResv.look (16 + s.slot) = none → t.mem = s.mem) ∧
        ∀ c, (t.vfOf c s.bankVf).sync.look p.pa = ((s.vfOf c s.bankVf).sync.look p.pa).map fun n => n + 1) ∧
    (¬ (w.Live ∧ w.type ≠ 3) → exec (.obowe g sa) s =
      .next (((s2.freeResv s.core s.slot).trap .sykind (s.ssrc sa)).unreserve s.core s.slot))) ∧
  (∀ (s : State) g sa s1 s2 p, s.acts g = true → AtSlot s (s.ssrc sa) true s1 p → s.cur.storeBuf = [] →
    s1.reserveOb s.core s.slot = .full s2 → exec (.obowe g sa) s = .next ((s2.trap .obspill s.cur.obspill).unreserve s.core s.slot)) ∧
  (∀ (s : State) g d si, s.acts g = true → s.slot ≠ 0 →
    exec (.obq g d si 2) s = .next (s.putS 3 d (BitVec.ofNat 64 (s.core + s.slot * 2 ^ 16 + s.cur.gen.toNat * 2 ^ 20))).retire) ∧
  (∀ (s : State) g d si (f : BitVec 2), s.acts g = true → s.slot ≠ 0 → (∀ q ∈ s.obsOf s.core s.slot, q.spill = none) → f = 0 ∨ f = 1 →
    ∃ l : List Oblig, l.Perm (s.obsOf s.core s.slot) ∧ (l.Pairwise fun a b => a.rank.toNat ≤ b.rank.toNat) ∧
      (∀ r, (l.filter fun o => o.rank == r) = (s.obsOf s.core s.slot).filter fun o => o.rank == r) ∧
      exec (.obq g d si f) s = .next (s.putS 3 d (match l[(s.ssrc si).toNat]? with
        | none => 0
        | some o => if f = 0 then o.obj else BitVec.ofNat 64
            ((match o.kind with | .put => 1 | .signal => 2 | .arrive => 3 | .reply => 4 | .tuple => 5 | .release => 6) * 2 ^ 56 + o.rank.toNat))).retire) ∧
  (∀ (s : State) g d so s1 p, s.acts g = true → s.slot ≠ 0 → (s.ssrc so).toNat % 8 = 0 → s.walkHeld (s.ssrc so) = false →
    s.locate s.core s.slot s.bankVf (s.pasid s.bankVf s.cur.tenant.toNat) (s.ssrc so) = (s1, .ok p) →
    Quiet s s1 ∧ exec (.obrank g d so 0) s =
      .next (s1.putS 0 d (BitVec.ofNat 64 (p.rankClass.toNat * 2 ^ 40 + (s.ssrc so).toNat % 2 ^ 40))).retire) ∧
  (∀ (s : State) g d so s1 p, s.acts g = true → AtSlot s (s.ssrc so) false s1 p → s.cur.storeBuf = [] →
    (slotWord (s.mem.word p.pa)).Live →
    Quiet s s1 ∧ exec (.obrank g d so 1) s = .next (s1.putS 0 d (BitVec.ofNat 64 ((s.mem.word (p.pa + 8)).toNat % 2 ^ 56))).retire) ∧
  (∀ (s : State) g d so, s.acts g = true → s.slot ≠ 0 →
    exec (.obrank g d so 2) s = .next (if (s.physBay s.bankVf (field (s.ssrc so) 3 0)).isSome then
        (s.putS 0 d (BitVec.ofNat 64 (((s.vfOf s.core s.bankVf).brb.toNat + field (s.ssrc so) 3 0) % 2 ^ 56))).retire
      else s.trap .perm (BitVec.ofNat 64 (field (s.ssrc so) 3 0)))) ∧
  ∀ (s : State) g d so x, s.acts g = true → s.slot ≠ 0 → s.gangStage s.core s.bankVf = some x →
    exec (.obrank g d so 3) s = .next (s.putS 0 d (x.rank.setWidth 64)).retire

/-- The modes of OBGIVE (R268, R281): marking for the next FORK, the move to an activity, and the discharge with poison; OBSTRAY where nothing
matches, and OBGIVE with nothing changed where the move is refused. The object is bound to the giver's core, as log 39 reads it. -/
def Obligations.ObligationGiven : Prop :=
  ∀ (s : State) g so sh kind obj, s.acts g = true → s.slot ≠ 0 → (∀ q ∈ s.obsOf s.core s.slot, q.spill = none) →
    obj = giveObj s.core kind (s.ssrc so) →
    (∀ mode, pickOb (s.obsOf s.core s.slot) kind obj = none → exec (.obgive g so sh mode kind) s = .next (s.trap .obstray (s.ssrc so))) ∧
    (∀ o, ((s.obsOf s.core s.slot).find? fun o => o.kind == kind && o.obj == obj && !o.marked) = some o →
      if ((s.obsOf s.core s.slot).filter fun o => o.marked).length < 3 ∧ s.carriedUsed s.core s.bankVf < 64 then
        ∃ t, exec (.obgive g so sh .toRecord kind) s = .next t ∧ RegsKept s t none ∧ SysKept s t [.lc] ∧ SameMemory s t ∧ Past s t ∧
          ∃ l r, s.obsOf s.core s.slot = l ++ o :: r ∧ o ∉ l ∧
            t.obsOf s.core s.slot = l ++ { o with marked := true, carried := false, unwritten := false } :: r
      else exec (.obgive g so sh .toRecord kind) s = .next (s.trap .obgive 0)) ∧
    (∀ o, pickOb (s.obsOf s.core s.slot) kind obj = some o →
      (o.marked = true → exec (.obgive g so sh .toRecord kind) s = .next (s.trap .obgive 0)) ∧
      (s.ssrc sh = s.handleOf s.core s.slot → exec (.obgive g so sh .toActivity kind) s = .next s.retire) ∧
      (s.ssrc sh ≠ s.handleOf s.core s.slot →
        (s.byHandle (s.ssrc sh) = none → exec (.obgive g so sh .toActivity kind) s = .next (s.trap .obgive (s.ssrc sh))) ∧
        (∀ c k, s.byHandle (s.ssrc sh) = some (c, k) →
          ((s.slotOf c k).vfid.toNat ≠ s.bankVf ∨ s.waitsAbove c k o.rank = true →
            exec (.obgive g so sh .toActivity kind) s = .next (s.trap .obgive (s.ssrc sh))) ∧
          ((s.slotOf c k).vfid.toNat = s.bankVf → s.waitsAbove c k o.rank = false → (c, k) ≠ (s.core, s.slot) →
            (∀ s2 i, s.findRoom c k = .ok s2 i →
              ∃ t o', exec (.obgive g so sh .toActivity kind) s = .next t ∧ Past s t ∧
                t.obsOf s.core s.slot = (s.obsOf s.core s.slot).erase o ∧ t.obsOf c k = s.obsOf c k ++ [o'] ∧
                o'.obj = o.obj ∧ o'.kind = o.kind ∧ o'.rank = o.rank) ∧
            ∀ s2, s.findRoom c k = .full s2 →
              exec (.obgive g so sh .toActivity kind) s = .next (s2.trap .obgive (s.ssrc sh))))) ∧
      ∀ s2, s.release .module = some s2 →
        (∃ t, exec (.obgive g so sh .poison kind) s = .next t) ∧
        (kind = .reply ∨ (kind = .tuple ∧ s2.regionExists (field o.obj 31 0) = false) →
          ∃ t, exec (.obgive g so sh .poison kind) s = .next t ∧ Past s t ∧ t.obsOf s.core s.slot = (s.obsOf s.core s.slot).erase o ∧
            SameMemory s2 t) ∧
        (kind = .release → ∀ q, s2.physBay s.bankVf (unbind s.core o.obj).2.toNat = some q →
          (s2.bay (unbind s.core o.obj).1 q).queue = [] →
          ∃ t, exec (.obgive g so sh .poison kind) s = .next t ∧ Past s t ∧ t.obsOf s.core s.slot = (s.obsOf s.core s.slot).erase o ∧
            (t.bay (unbind s.core o.obj).1 q).claim = none ∧ (t.bay (unbind s.core o.obj).1 q).poison = true ∧ SameMemory s2 t) ∧
        (kind = .put → ∀ p, s2.objPlace s.core s.bankVf s.cur.tenant.toNat o.obj = some p → hasFE p.pa = true → s.heldHome p.pa = false →
          (∀ w ∈ s.waiters, w.pa ≠ p.pa) →
          ∃ t, exec (.obgive g so sh .poison kind) s = .next t ∧ Past s t ∧ t.obsOf s.core s.slot = (s.obsOf s.core s.slot).erase o ∧
            t.isPoisoned p.pa = true ∧ t.isFull p.pa = true ∧ SameMemory s2 t) ∧
        (kind = .signal ∨ kind = .arrive → ∀ p, s2.objPlace s.core s.bankVf s.cur.tenant.toNat o.obj = some p → s.heldHome p.pa = false →
          ¬ (slotWord (s2.mem.word p.pa)).Live →
          ∃ t, exec (.obgive g so sh .poison kind) s = .next t ∧ Past s t ∧ t.obsOf s.core s.slot = (s.obsOf s.core s.slot).erase o ∧
            SameMemory s2 t) ∧
        (kind = .signal → ∀ p b ph x, s2.objPlace s.core s.bankVf s.cur.tenant.toNat o.obj = some p → s.heldHome p.pa = false →
          slotWord (s2.mem.word p.pa) = ⟨b, true, 1, ph, x⟩ → (∀ w ∈ s.waiters, w.pa ≠ p.pa) →
          ∃ t, exec (.obgive g so sh .poison kind) s = .next t ∧ Past s t ∧ t.obsOf s.core s.slot = (s.obsOf s.core s.slot).erase o ∧
            slotWord (t.mem.word p.pa) = ⟨true, true, 1, ph, min (x + 1) (2 ^ 48 - 1)⟩ ∧ SameOutside s2 t p.pa 8))

/-! ## The tuple space (R287 to R298) -/

/-- R289, R297, R298, and the rest of R294 to R296: the checks of the tuple instructions in order, and the request that each sends to the
home slice of its tag. -/
def Obligations.TupleRequests : Prop :=
  (∀ (s : State) a d vp sr s1 p, AtRegion s (s.ssrc sr) true s1 p → s.slot ≠ 15 →
    (TupleOk (s.vsrc a) → p.rankClass.toNat * 2 ^ 40 < (s.obmin s.core s.slot).toNat → ∀ s2, s1.release .module = some s2 →
      ∃ t, exec (.tsput a sr) s = .next t ∧
        SetsOut s s2 t p (lane (s.vsrc a) 0) (.put (s.vsrc a) false true) (some (BitVec.ofNat 56 (p.rankClass.toNat * 2 ^ 40)))) ∧
    (¬ TupleOk (s.vsrc a) → exec (.tsput a sr) s = .next (s1.trap .tspat 0)) ∧
    (TupleOk (s.vsrc a) → (s.obmin s.core s.slot).toNat ≤ p.rankClass.toNat * 2 ^ 40 →
      exec (.tsput a sr) s = .next (s1.trap .obrank (BitVec.ofNat 64 (p.rankClass.toNat * 2 ^ 40)))) ∧
    (PatternOk (s.vreg vp) (s.vreg (regAfter vp)) →
      p.rankClass.toNat * 2 ^ 40 + (lane (s.vreg vp) 0).toNat * 2 ^ 8 < (s.obmin s.core s.slot).toNat →
      ∃ t, exec (.tstake d vp sr) s = .next t ∧
        SetsOut s s1 t p (lane (s.vreg vp) 0) (.take d (s.vreg vp) (s.vreg (regAfter vp)) false)
          (some (BitVec.ofNat 56 (p.rankClass.toNat * 2 ^ 40 + (lane (s.vreg vp) 0).toNat * 2 ^ 8)))) ∧
    (PatternOk (s.vreg vp) (s.vreg (regAfter vp)) →
      (s.obmin s.core s.slot).toNat ≤ p.rankClass.toNat * 2 ^ 40 + (lane (s.vreg vp) 0).toNat * 2 ^ 8 →
      exec (.tstake d vp sr) s = .next (s1.trap .obrank
        (BitVec.ofNat 64 (p.rankClass.toNat * 2 ^ 40 + (lane (s.vreg vp) 0).toNat * 2 ^ 8))))) ∧
  (∀ (s : State) d vp sr s1 p, AtRegion s (s.ssrc sr) true s1 p → PatternOk (s.vreg vp) (s.vreg (regAfter vp)) →
    ∃ t, exec (.tstakeNb d vp sr) s = .next t ∧
      SetsOut s s1 t p (lane (s.vreg vp) 0) (.take d (s.vreg vp) (s.vreg (regAfter vp)) true) none) ∧
  (∀ (s : State) d vp sr s1 p, AtRegion s (s.ssrc sr) false s1 p →
    (PatternOk (s.vreg vp) (s.vreg (regAfter vp)) →
      (s.slot ≠ 15 → p.rankClass.toNat * 2 ^ 40 + (lane (s.vreg vp) 0).toNat * 2 ^ 8 < (s.obmin s.core s.slot).toNat →
        ∃ t, exec (.tscopy d vp sr) s = .next t ∧
          SetsOut s s1 t p (lane (s.vreg vp) 0) (.copy d (s.vreg vp) (s.vreg (regAfter vp)) false)
            (some (BitVec.ofNat 56 (p.rankClass.toNat * 2 ^ 40 + (lane (s.vreg vp) 0).toNat * 2 ^ 8)))) ∧
      (∃ t, exec (.tscopyNb d vp sr) s = .next t ∧
        SetsOut s s1 t p (lane (s.vreg vp) 0) (.copy d (s.vreg vp) (s.vreg (regAfter vp)) true) none) ∧
      ∀ g, s.acts g = true → ∃ t, exec (.tscount g d vp sr) s = .next t ∧
        SetsOut s s1 t p (lane (s.vreg vp) 0) (.count d (s.vreg vp) (s.vreg (regAfter vp))) none) ∧
    (¬ PatternOk (s.vreg vp) (s.vreg (regAfter vp)) → exec (.tscopyNb d vp sr) s = .next (s1.trap .tspat 0) ∧
      ∀ g, s.acts g = true → exec (.tscount g d vp sr) s = .next (s1.trap .tspat 0)) ∧
    ∀ g st, s.acts g = true →
      ((s.ssrc st).toNat = 0 ∨ 2 ^ 32 ≤ (s.ssrc st).toNat ∨ (s.ssrc st).toNat % 2 ^ 32 = 0 →
        exec (.tsowe g d sr st) s = .next ((s1.trap .tspat 0).unreserve s.core s.slot)) ∧
      (1 ≤ (s.ssrc st).toNat → (s.ssrc st).toNat < 2 ^ 32 → ∀ s2 i, s1.reserveOb s.core s.slot = .ok s2 i →
        ∃ t, exec (.tsowe g d sr st) s = .next t ∧
          SetsOut s s1 t p (BitVec.ofNat 32 (s.ssrc st).toNat) (.owe d (BitVec.ofNat 32 (s.ssrc st).toNat)) none)) ∧
  ∀ (s : State) a d vp sr, s.slot ≠ 0 → s.slot ≠ 15 → (s.ssrc sr).toNat % 4096 ≠ 0 →
    exec (.tsput a sr) s = .next (s.trap .align (s.ssrc sr)) ∧ exec (.tscopy d vp sr) s = .next (s.trap .align (s.ssrc sr)) ∧
      exec (.tstake d vp sr) s = .next (s.trap .align (s.ssrc sr)) ∧ exec (.tscopyNb d vp sr) s = .next (s.trap .align (s.ssrc sr)) ∧
      exec (.tstakeNb d vp sr) s = .next (s.trap .align (s.ssrc sr))

/-- R291, R292, R295 to R298: a request at its slice. A deposit goes to the parked taker that matches, or takes the next sequence number into
a free entry; a copy or take receives the lowest-numbered match, and a take frees its entry; without a match a `.nb` form writes p0 and a
blocking one parks; TSOWE adds its obligation and TSCOUNT counts. -/
def Obligations.TupleService : Prop :=
  (∀ (s : State) c k e tup pb ob i, InFlight s c k e → (∀ a ∈ s.poison, a % 8 = 0) → e.req = .put tup pb ob → s.ts = [e] → s.freeEntry e.region e.slice = some i →
    (∀ q ∈ s.obsOf c k, q.spill = none) →
    ∃ t x, exec (.tsDepositArrival c k) s = .next t ∧ Done s t c k ∧ t.ts = [] ∧ t.storedAt e.region e.slice i = some x ∧
      x.tuple = tup ∧ x.poisoned = pb ∧ x.seq = (s.mem.word (regionPa e.region + 0x40 + 16 * e.slice)).toNat ∧
      t.obsOf c k = match (if ob then pickOb (s.obsOf c k) .tuple (BitVec.ofNat 64 ((lane tup 0).toNat * 2 ^ 32) ||| BitVec.ofNat 64 e.region)
          else none) with
        | some q => (s.obsOf c k).erase q
        | none => s.obsOf c k) ∧
  (∀ (s : State) c k e q tup ob d v m nb, InFlight s c k e → e.req = .put tup false ob → s.ts = [e, q] →
    q.req = .take (.priv d) v m nb → q.parked = true → q.region = e.region → q.slice = e.slice → Matches v m tup false →
    (q.core, q.slot) ≠ (c, k) → (s.slotOf q.core q.slot).holds = true → (s.slotOf q.core q.slot).gen = q.gen → Settled s q.core q.slot → (∀ x ∈ s.obsOf c k, x.spill = none) →
    ∃ t : State, exec (.tsDepositArrival c k) s = .next t ∧ Done s t c k ∧ Done s t q.core q.slot ∧ t.ts = [] ∧
      (t.at q.core q.slot).vreg (.priv d) = tup ∧ ∀ i, t.storedAt e.region e.slice i = s.storedAt e.region e.slice i) ∧
  (∀ (s : State) c k e x d v m nb, InFlight s c k e → s.ts = [e] →
    x ∈ s.storedAll e.region e.slice → Matches v m x.tuple x.poisoned → x.poisoned = false →
    (∀ y ∈ s.storedAll e.region e.slice, Matches v m y.tuple y.poisoned → y = x ∨ x.seq < y.seq) →
    (e.req = .copy (.priv d) v m nb →
      ∃ t : State, exec (.tsRequestArrival c k) s = .next t ∧ Done s t c k ∧ (t.at c k).vreg (.priv d) = x.tuple ∧
        (t.at c k).preg 0 = (if nb then 0xFFFF else (s.at c k).preg 0) ∧ t.mem = s.mem ∧ t.ts = []) ∧
    (e.req = .take (.priv d) v m nb →
      ∃ t : State, exec (.tsRequestArrival c k) s = .next t ∧ Done s t c k ∧ (t.at c k).vreg (.priv d) = x.tuple ∧
        (t.at c k).preg 0 = (if nb then 0xFFFF else (s.at c k).preg 0) ∧ t.storedAt e.region e.slice x.index = none ∧
        (∀ i, i ≠ x.index → t.storedAt e.region e.slice i = s.storedAt e.region e.slice i) ∧ t.ts = [])) ∧
  (∀ (s : State) c k e d v m nb, InFlight s c k e → s.ts = [e] → e.req = .copy d v m nb ∨ e.req = .take d v m nb →
    (∀ y ∈ s.storedAll e.region e.slice, ¬ Matches v m y.tuple y.poisoned) →
    (nb = true → ∃ t : State, exec (.tsRequestArrival c k) s = .next t ∧ Done s t c k ∧ (t.at c k).preg 0 = 0 ∧ t.mem = s.mem ∧ t.ts = [] ∧
      (t.at c k).vreg d = (s.at c k).vreg d) ∧
    (nb = false → ∃ t : State, exec (.tsRequestArrival c k) s = .next t ∧ (t.slotOf c k).status = .wait (.tupleParked e.rank) ∧ t.mem = s.mem ∧
      ∃ q, t.ts = [q] ∧ q.parked = true ∧ q.req = e.req ∧ q.region = e.region ∧ q.slice = e.slice ∧ q.core = c ∧ q.slot = k)) ∧
  (∀ (s : State) c k e d v m (f : Stored → Bool), InFlight s c k e → e.req = .count (.priv d) v m →
    (∀ x, f x = true ↔ Matches v m x.tuple x.poisoned) →
    ∃ t : State, exec (.tsRequestArrival c k) s = .next t ∧ Done s t c k ∧ t.mem = s.mem ∧
      (t.at c k).sreg (.priv d) = BitVec.ofNat 64 ((s.storedAll e.region e.slice).filter f).length) ∧
  (∀ (s : State) c k e d tag, InFlight s c k e → e.req = .owe (.priv d) tag →
    ∃ t o, exec (.tsRequestArrival c k) s = .next t ∧ Done s t c k ∧ t.obsOf c k = s.obsOf c k ++ [o] ∧ o.kind = .tuple ∧ o.rank = e.rank ∧
      o.obj = BitVec.ofNat 64 (tag.toNat * 2 ^ 32) ||| BitVec.ofNat 64 e.region ∧ (t.at c k).sreg (.priv d) = o.obj) ∧
  ∀ (s : State) c k e, (∃ r, (s.slotOf c k).status = .wait (.tupleSent r)) → s.tsFlight c k = some e → s.donated e.vf = false →
    s.relocks c = false → s.isUnavail (regionPa e.region) = false → s.regionLive e.region e.vf = false → k ≠ 15 → (s.slotOf c k).ih = false →
    ∃ t : State, exec (if e.req.isPut then .tsDepositArrival c k else .tsRequestArrival c k) s = .next t ∧ SameMemory s t ∧
      (t.slotOf c k).tcause = 0x18 ∧ (t.slotOf c k).tval = e.sr ∧ (t.slotOf c k).tepc = addrBits (s.slotOf c k).pc ∧
      (t.slotOf c k).pc = { s.slotOf c k with busyNow := [] }.vector (s.cycle c) ∧ (t.slotOf c k).ih = true

/-! ## Tasks, messages, mailboxes, copies (R22 to R25, R237 to R256) -/

/-- R22, R23, R238 to R242: FORK pushes a record at the bottom and binds what is marked, with the add at its join; TASKEND arrives there and
ends; pops take the bottom record and dispatch it, steals the top; spills and refills keep the order. That TASKEND ends its activity while the
status of a collective is still owed to it is the model's reading (log 57). -/
def Obligations.Tasks : Prop :=
  (∀ (s : State) g dist, s.acts g = true → s.slot ≠ 0 → s.sreg (.priv 5) = 0 → s.slot ∉ (s.vfOf s.core s.bankVf).dqResv →
    (s.vfOf s.core s.bankVf).deque.length + (s.vfOf s.core s.bankVf).dqResv.length < 32 → s.older (.p 0) = 0 →
    ∃ (t : State) (r : TaskRec), exec (.fork g dist) s = .next t ∧ Past s t ∧ SameMemory s t ∧ t.preg 0 = 0xFFFF ∧
      (t.vfOf s.core s.bankVf).deque = (s.vfOf s.core s.bankVf).deque ++ [r] ∧
      (t.vfOf s.core s.bankVf).dqResv = (s.vfOf s.core s.bankVf).dqResv ∧
      r.entry = BitVec.ofInt 64 (s.cur.pc.toNat + 2 * dist.toInt) &&& 0x01FFFFFFFFFFFFFE ∧
      r.arg1 = s.sreg (.priv 1) ∧ r.arg2 = s.sreg (.priv 2) ∧ r.arg3 = s.sreg (.priv 3) ∧ r.arg4 = s.sreg (.priv 4) ∧ r.join = 0 ∧
      r.arrive = none ∧ r.bound = (((s.obsOf s.core s.slot).filter fun o => o.marked).map fun o => { o with marked := false }) ∧
      t.obsOf s.core s.slot = (s.obsOf s.core s.slot).filter fun o => !o.marked) ∧
  (∀ (s : State) g dist, s.acts g = true → s.slot ≠ 0 → (s.sreg (.priv 5)).toNat % 16 = 0 →
    s.slot ∉ (s.vfOf s.core s.bankVf).dqResv →
    32 ≤ (s.vfOf s.core s.bankVf).deque.length + (s.vfOf s.core s.bankVf).dqResv.length → (s.vfOf s.core s.bankVf).dqRoom = 0 →
    exec (.fork g dist) s = .next ((s.putP 0 0).retire.unreserve s.core s.slot)) ∧
  (∀ (s : State) g dist, s.acts g = true → s.slot ≠ 0 → (s.sreg (.priv 5)).toNat % 16 ≠ 0 →
    exec (.fork g dist) s = .next ((s.trap .align (s.sreg (.priv 5))).unreserve s.core s.slot)) ∧
  (∀ (s u : State) g dist s1 p b ph x i, s.acts g = true → s.sreg (.priv 5) ≠ 0 → (s.sreg (.priv 5)).toNat % 16 = 0 → s.cur.storeBuf = [] →
    s.slot ∉ (s.vfOf s.core s.bankVf).dqResv →
    (s.vfOf s.core s.bankVf).deque.length + (s.vfOf s.core s.bankVf).dqResv.length < 32 → s.older (.p 0) = 0 →
    s.reserveDq s.core s.bankVf s.slot = .ok u i → AtSlot u (s.sreg (.priv 5)) true s1 p →
    slotWord (s.mem.word p.pa) = ⟨b, true, 3, ph, x⟩ → x + 1 < 2 ^ 48 → (∀ w ∈ s.waiters, w.pa ≠ p.pa) →
    ∃ (t : State) (r : TaskRec), exec (.fork g dist) s = .next t ∧ Past s t ∧ SameOutside s t p.pa 8 ∧ t.preg 0 = 0xFFFF ∧
      slotWord (t.mem.word p.pa) = ⟨b, true, 3, ph, x + 1⟩ ∧
      (t.vfOf s.core s.bankVf).deque = (s.vfOf s.core s.bankVf).deque ++ [r] ∧ r.join = s.sreg (.priv 5) ∧
      r.arrive = some (boundObj s.core (s.sreg (.priv 5)), (s.mem.word (p.pa + 8)).setWidth 56)) ∧
  (∀ (s : State) g o s1 s2 p b ph x, s.acts g = true → s.slot ≠ 15 → s.forkOb s.core s.slot = some o →
    (s.obsOf s.core s.slot).length = 1 → (∀ q ∈ s.cur.pendRegs, q.2 = true) → AtJoin s o.obj s1 p →
    s1.release .module = some s2 → slotWord (s2.mem.word p.pa) = ⟨b, true, 3, ph, x⟩ → (∀ w ∈ s.waiters, w.pa ≠ p.pa) →
    ∃ t : State, exec (.taskend g) s = .next t ∧ Emptied s2 t s.core s.slot ∧ SameOutside s2 t p.pa 8 ∧
      slotWord (t.mem.word p.pa) = ⟨b, true, 3, ph, x - 1⟩ ∧ t.obsOf s.core s.slot = []) ∧
  (∀ (s : State) g o s1 s2 p, s.acts g = true → s.slot ≠ 15 → s.forkOb s.core s.slot = some o →
    (s.obsOf s.core s.slot).length = 1 → AtJoin s o.obj s1 p →
    s1.release .module = some s2 → ¬ ((slotWord (s2.mem.word p.pa)).Live ∧ (slotWord (s2.mem.word p.pa)).type = 3) →
    exec (.taskend g) s = .next (s2.trap .sykind (if o.obj.getLsbD 63 then (o.obj.extractLsb' 0 25).setWidth 64 else o.obj))) ∧
  (∀ (s : State) g, s.acts g = true → s.slot ≠ 0 → s.slot ≠ 15 → s.obsOf s.core s.slot = [] → (∀ q ∈ s.cur.pendRegs, q.2 = true) →
    ∃ t : State, exec (.taskend g) s = .next t ∧ Emptied s t s.core s.slot ∧ SameMemory s t) ∧
  (∀ (s : State) g, s.acts g = true → s.slot ≠ 0 → s.slot ≠ 15 →
    (if (s.forkOb s.core s.slot).isSome then 1 else 0) < (s.obsOf s.core s.slot).length →
    exec (.taskend g) s = .next (s.trap .obexit (BitVec.ofNat 64 (s.obsOf s.core s.slot).length))) ∧
  (∀ (s : State) c k l (r : TaskRec), s.takesWork c (s.slotOwner k) = true → s.emptySlot c (s.slotOwner k) = some k →
    (s.vfOf c (s.slotOwner k)).deque = l ++ [r] → r.bound = [] →
    ∃ t : State, exec (.taskPop c k) s = .next t ∧ (t.vfOf c (s.slotOwner k)).deque = l ∧ (t.slotOf c k).status = .run ∧
      (t.slotOf c k).pc = r.entry &&& 0x01FFFFFFFFFFFFFE ∧ (t.at c k).sreg (.priv 1) = r.arg1 ∧ (t.at c k).sreg (.priv 2) = r.arg2 ∧
      (t.at c k).sreg (.priv 3) = r.arg3 ∧ (t.at c k).sreg (.priv 4) = r.arg4 ∧ (∀ n, 5 ≤ n.toNat → (t.at c k).sreg (.priv n) = 0) ∧
      (∀ n, (t.at c k).vreg (.priv n) = 0) ∧ (t.slotOf c k).pl = 0 ∧ (t.slotOf c k).guard = 0x8000000000000000 ∧
      (r.arrive = none → t.obsOf c k = s.obsOf c k ∧ SameMemory s t)) ∧
  (∀ (s : State) c v d u (r : TaskRec) rest, s.stealDist c v = some d → s.victim c v d = some u → s.frozen u = false → u ≠ c →
    (s.vfOf u v).spilled = [] → (s.vfOf u v).deque = r :: rest → s.carriedUsed c v + r.bound.length ≤ 64 →
    ∃ t : State, exec (.stealVisit c v) s = .next t ∧ SameMemory s t ∧ (t.vfOf u v).deque = rest ∧ (t.vfOf c v).steal = some ⟨d, some r⟩) ∧
  (∀ (s : State) c v d u, s.stealDist c v = some d → s.victim c v d = some u → s.frozen u = false →
    (s.vfOf u v).spilled = [] → (s.vfOf u v).deque = [] →
    ∃ t : State, exec (.stealVisit c v) s = .next t ∧ SameMemory s t ∧
      if (s.victim c v (d + 1)).isSome then (t.vfOf c v).steal = some ⟨d + 1, none⟩
      else (t.vfOf c v).steal = none ∧ (t.vfOf c v).backoff = some (s.cycle c)) ∧
  (∀ (s : State) c v (x : Steal) (r : TaskRec), (s.vfOf c v).steal = some x → x.found = some r → s.frozen c = false → r.bound = [] → s.takesWork c v = true →
    (∀ k, s.emptySlot c v = some k →
      ∃ t : State, exec (.stealArrival c v) s = .next t ∧ (t.vfOf c v).steal = none ∧ (t.slotOf c k).status = .run ∧
        (t.slotOf c k).pc = r.entry &&& 0x01FFFFFFFFFFFFFE) ∧
    (s.emptySlot c v = none → (s.vfOf c v).deque.length + (s.vfOf c v).dqResv.length < 32 →
      ∃ t : State, exec (.stealArrival c v) s = .next t ∧ (t.vfOf c v).steal = none ∧ (t.vfOf c v).deque = (s.vfOf c v).deque ++ [r])) ∧
  (∀ (s : State) c v n, (s.vfOf c v).backoff = some n → n + 256 ≤ s.cycle c →
    ∃ t : State, exec (.stealBackoffExpiry c v) s = .next t ∧ (t.vfOf c v).backoff = none) ∧
  (∀ (s : State) c v (r : TaskRec) rest s1 ea p, s.takesWork c v = true → 32 ≤ (s.vfOf c v).deque.length + (s.vfOf c v).dqResv.length →
    (s.vfOf c v).deque = r :: rest → (s.vfOf c v).dqRoom ≠ 0 → s.dqHold c v (s.vfOf c v).spilled.length = none →
    s.dqPlace c v (s.vfOf c v).spilled.length true = (s1, ea, some p) → s1.accessWait v p.pa true = none →
    ∃ t : State, exec (.dequeSpill c v) s = .next t ∧ (t.vfOf c v).deque = rest ∧ (t.vfOf c v).spilled = (s.vfOf c v).spilled ++ [r] ∧
      t.mem.word p.pa = r.entry ∧ t.mem.word (p.pa + 8) = r.arg1 ∧ t.mem.word (p.pa + 40) = r.join ∧ t.mem.word (p.pa + 56) = r.fsb ∧
      SameOutside s t p.pa 64) ∧
  ∀ (s : State) c v (r : TaskRec) l s1 ea p, s.takesWork c v = true → (s.vfOf c v).deque.length + (s.vfOf c v).dqResv.length < 32 →
    (s.vfOf c v).spilled = l ++ [r] → s.dqHold c v l.length = none → s.dqPlace c v l.length false = (s1, ea, some p) →
    s1.accessWait v p.pa false = none → p.pr = false → wordsHit s1.poison p.pa 64 = false →
    ∃ (t : State) (q : TaskRec), exec (.dequeRefill c v) s = .next t ∧ SameMemory s t ∧ (t.vfOf c v).spilled = l ∧ (t.vfOf c v).deque = q :: (s.vfOf c v).deque ∧
      q.entry = s.mem.word p.pa ∧ q.arg1 = s.mem.word (p.pa + 8) ∧ q.join = s.mem.word (p.pa + 40) ∧ q.arrive = r.arrive ∧ q.bound = r.bound

/-- R243 to R248, R24, R25, R249: SEND, SENDR and REPLY append and count; messages enter the inbound queue of their target in order; a handler
starts with the message in v0 and its source in s1, owing the reply of a SENDR; MSGEND ends one that owes nothing. Where a REPLY counts
as received, and the order of a message's checks, are the model's readings (log 43). -/
def Obligations.Messages : Prop :=
  (∀ (s : State) g a st c x, s.acts g = true → s.slot ≠ 0 → s.slot ≠ 15 → s.msgTarget (s.ssrc st) = some (c, x) →
    0 < (s.obmin s.core s.slot).toNat → ∀ s2, s.release (if x.isSome then .system else .module) = some s2 →
    (s.cur.sendq.filter fun m => m.tenant == s.cur.tenant.toNat).length < 8 →
    (∃ (t : State) (m : Msg), exec (.send g a st) s = .next t ∧ Past s t ∧ t.mem = s2.mem ∧ t.cur.sendq = s.cur.sendq ++ [m] ∧ m.data = s.vsrc a ∧
      m.target = c ∧ m.xmod = x ∧ m.kind = .plain ∧ m.vf = s.bankVf ∧ m.tenant = s.cur.tenant.toNat ∧
      m.src = (if x.isSome then BitVec.ofNat 64 (field (s.pfReg 0xB380) 11 0 * 2 ^ 32 + 2 ^ 31 + s.core) else s.cur.member.setWidth 64) ∧
      (t.vfOf s.core s.bankVf).msgSent = (s.vfOf s.core s.bankVf).msgSent + 1) ∧
    (s.cur.pl ≠ 0 → ∀ ch, ∃ (t : State) (m : Msg), exec (.sendSys g a st ch) s = .next t ∧ Past s t ∧ t.cur.sendq = s.cur.sendq ++ [m] ∧ m.data = s.vsrc a ∧
      m.target = c ∧ m.kind = .sys ch ∧ (t.vfOf s.core s.bankVf).msgSent = (s.vfOf s.core s.bankVf).msgSent + 1) ∧
    ∀ p off, off = field ((s.vsrc a).extractLsb' 64 64) 16 0 → off % 8 = 0 → s.windowPlace s.core s.bankVf off = some p →
      s2.cur.storeBuf = [] →
      ∃ (t : State) (m : Msg), exec (.sendr g a st) s = .next t ∧ Past s t ∧ t.mem = s2.mem ∧ t.isFull p.pa = false ∧ t.cur.sendq = s.cur.sendq ++ [m] ∧
        m.kind = .sendr ∧ m.target = c ∧ m.data.extractLsb' 0 64 = (s.vsrc a).extractLsb' 0 64 ∧
        m.data.extractLsb' 128 384 = (s.vsrc a).extractLsb' 128 384 ∧
        m.data.extractLsb' 64 64 = BitVec.ofNat 64 (field (s.pfReg 0xB380) 11 0 * 2 ^ 45 + s.core * 2 ^ 32 + off) ∧
        (t.vfOf s.core s.bankVf).msgSent = (s.vfOf s.core s.bankVf).msgSent + 1) ∧
  (∀ (s : State) g a st, s.acts g = true → s.slot ≠ 0 → s.msgTarget (s.ssrc st) = none →
    exec (.send g a st) s = .next (s.trap .remote (s.ssrc st)) ∧
      (s.slot ≠ 15 → exec (.sendr g a st) s = .next (s.trap .remote (s.ssrc st)))) ∧
  (∀ (s : State) g a st t0, s.acts g = true → s.slot ≠ 0 → s.slot ≠ 15 → s.msgTarget (s.ssrc st) = some t0 →
    s.obmin s.core s.slot = 0 → exec (.send g a st) s = .next (s.trap .obrank 0)) ∧
  (∀ (s : State) g a sk o s2, s.acts g = true → s.slot ≠ 0 → (∀ q ∈ s.obsOf s.core s.slot, q.spill = none) →
    pickOb (s.obsOf s.core s.slot) .reply (s.ssrc sk) = some o → field (s.ssrc sk) 56 45 = field (s.pfReg 0xB380) 11 0 →
    s.release .module = some s2 →
    ∃ t : State, exec (.reply g a sk) s = .next t ∧ Past s t ∧ t.mem = s2.mem ∧ t.obsOf s.core s.slot = (s.obsOf s.core s.slot).erase o ∧
      t.cur.replies = s.cur.replies ++ [⟨s.ssrc sk, s.bankVf, some (s.ssrc a), none, s.cur.tenant.toNat⟩] ∧
      (t.vfOf s.core s.bankVf).msgSent = (s.vfOf s.core s.bankVf).msgSent + 1 ∧
      (t.vfOf (field (s.ssrc sk) 44 32) s.bankVf).msgRecv = (s.vfOf (field (s.ssrc sk) 44 32) s.bankVf).msgRecv + 1) ∧
  (∀ (s : State) g a sk, s.acts g = true → s.slot ≠ 0 → (∀ q ∈ s.obsOf s.core s.slot, q.spill = none) →
    pickOb (s.obsOf s.core s.slot) .reply (s.ssrc sk) = none → exec (.reply g a sk) s = .next (s.trap .obstray (s.ssrc sk))) ∧
  (∀ (s : State) g, s.acts g = true → s.slot = 15 → s.obsOf s.core 15 = [] →
    ∃ t : State, exec (.msgend g) s = .next t ∧ Emptied s t s.core 15 ∧ SameMemory s t ∧
      (t.vfOf s.core s.bankVf).msgRecv = (s.vfOf s.core s.bankVf).msgRecv + 1) ∧
  (∀ (s : State) c k (m : Msg) rest, k < 16 → s.frozen c = false → (s.slotOf c k).sendq = m :: rest → (∀ r, (s.slotOf c k).status ≠ .parked r) →
    (∀ x, (s.slotOf c k).status ≠ .wait (.sendFull x)) → s.onTurn m.vf m.tenant = true → m.xmod = none →
    (s.vfOf m.target m.vf).fenced = false → (s.vfOf m.target m.vf).inbox.length < 16 → s.frozen m.target = false →
    s.linkHeld m.vf c m.target = false → s.fifoHeld c m.target = false →
    ∃ t : State, exec (.messageEntry c k) s = .next t ∧ SameMemory s t ∧ (t.slotOf c k).sendq = rest ∧
      (t.vfOf m.target m.vf).inbox = (s.vfOf m.target m.vf).inbox ++ [m]) ∧
  (∀ (s : State) c v (m : Msg) rest, (s.slotOf c 15).status = .empty → s.nextHandler c = some v → (s.vfOf c v).inbox = m :: rest → m.obs = [] →
    m.kind = .plain → (m.data.extractLsb' 0 64).getLsbD 0 = false → field (m.data.extractLsb' 0 64) 63 57 = 0 →
    ∃ t : State, exec (.handlerStart c) s = .next t ∧ SameMemory s t ∧ (t.vfOf c v).inbox = rest ∧ (t.slotOf c 15).status = .run ∧
      (t.slotOf c 15).pc = m.data.extractLsb' 0 64 ∧ (t.at c 15).vreg (.priv 0) = m.data ∧ (t.at c 15).sreg (.priv 1) = m.src ∧
      (∀ n, n ≠ 1 → (t.at c 15).sreg (.priv n) = 0) ∧ (∀ n, n ≠ 0 → (t.at c 15).vreg (.priv n) = 0) ∧
      (t.slotOf c 15).vfid = BitVec.ofNat 4 m.vf ∧ (t.slotOf c 15).tenant = BitVec.ofNat 5 m.tenant ∧
      (t.slotOf c 15).guard = 0x8000000000000000) ∧
  (∀ (s : State) c v (m : Msg) rest, (s.slotOf c 15).status = .empty → s.nextHandler c = some v → (s.vfOf c v).inbox = m :: rest → m.obs = [] →
    m.kind = .sendr → (m.data.extractLsb' 0 64).getLsbD 0 = false → field (m.data.extractLsb' 0 64) 63 57 = 0 →
    (s.coreOf c).tableUsed + (s.coreOf c).tableResv < 128 →
    ∃ (t : State) (o : Oblig), exec (.handlerStart c) s = .next t ∧ t.obsOf c 15 = s.obsOf c 15 ++ [o] ∧ o.kind = .reply ∧
      o.obj = m.data.extractLsb' 64 64 ∧ o.rank = BitVec.ofNat 56 (field (m.data.extractLsb' 64 64) 16 0)) ∧
  (∀ (s : State) c, (s.slotOf c 15).status = .run → (s.slotOf c 15).kill = none → 256 ≤ (s.slotOf c 15).hcount →
    (s.slotOf c 15).reissue = false → s.stalled c = false → s.obsOf c 15 = [] →
    ∃ t : State, exec (.handlerBudgetExhausted c) s = .next t ∧ Emptied s t c 15) ∧
  ∀ (s : State) c v ch (m : Msg) rest u, s.takesWork c v = true → (s.vfOf c v).inbox = m :: rest → m.kind = .sys ch → s.boundVf ch.toNat = some u →
    m.vf = v →
    (m.data.extractLsb' 0 64 = 0 → field (m.data.extractLsb' 64 64) 31 4 = 0 →
      ∃ t : State, exec (.systemChannelMessage c v) s = .next t ∧ (t.vfOf c v).inbox = rest ∧
        (t.vfOf c u).hold.getLsbD ch.toNat = (!(m.data.extractLsb' 64 64).getLsbD 1 &&
          ((m.data.extractLsb' 64 64).getLsbD 0 || (s.vfOf c u).hold.getLsbD ch.toNat)) ∧
        (t.vfOf c u).ready.getLsbD ch.toNat = (!(m.data.extractLsb' 64 64).getLsbD 3 &&
          ((m.data.extractLsb' 64 64).getLsbD 2 || (s.vfOf c u).ready.getLsbD ch.toNat)) ∧
        (t.vfOf c v).msgRecv = (s.vfOf c v).msgRecv + 1) ∧
    (m.data.extractLsb' 0 64 ≠ 0 → (s.vfOf c u).ready.getLsbD ch.toNat = true → (s.vfOf c u).hold.getLsbD ch.toNat = false →
      (s.vfOf c u).deque.length + (s.vfOf c u).dqResv.length < 32 →
      ∃ (t : State) (r : TaskRec), exec (.systemChannelMessage c v) s = .next t ∧ (t.vfOf c v).inbox = rest ∧ (t.vfOf c u).deque = (s.vfOf c u).deque ++ [r] ∧
        r.entry = s.vfReg u (0x40 + 8 * ch.toNat) &&& 0x01FFFFFFFFFFFFFE ∧ r.arg1 = m.data.extractLsb' 128 64 ∧
        r.arg4 = m.data.extractLsb' 320 64 ∧ r.join = 0 ∧ (t.vfOf c v).msgRecv = (s.vfOf c v).msgRecv + 1)

/-- R250, R252, and the rest of R251 to R256: mailboxes; a COPY fills a quartet and marks its register, the movement program hands the quartet
to the chain of its island's engine, which starts commands in chain order and lands a status in the register when one completes; REDUCE joins
its collective, whose participants receive the result, or a mismatch, with a status. The order of an engine's words and
what a mismatch does are the model's readings (logs 35, 36). -/
def Obligations.CopiesCollectives : Prop :=
  (∀ (s : State) g n a, s.acts g = true → s.slot ≠ 0 → s.slot ≠ 15 →
    exec (.mbw g n a) s = .next (if s.cur.mbFull.getLsbD n.toNat then s.wait (.mbwBox n (s.ssrc a)) else
      (s.modCur fun x =>
        { x with mb := x.mb.put n.toNat (s.ssrc a), mbTag := none,
                 mbFull := BitVec.ofFnLE fun i => x.mbFull.getLsbD i || decide (i.val = n.toNat) }).retire)) ∧
  (∀ (s : State) g d n, s.acts g = true → s.slot ≠ 0 → s.slot ≠ 15 →
    exec (.mbr g d n) s = .next (s.putS 3 d ((s.cur.mb.look n.toNat).getD 0)).retire) ∧
  (∀ (s : State) g d a k n, s.acts g = true → s.slot = 0 → 1 ≤ k → k ≤ 14 → n < 4 → s.ssrc a = BitVec.ofNat 64 (k + 16 * n) →
    ((s.slotOf s.core k).mbFull.getLsbD n = true →
      ∃ t : State, exec (.mbrMovement g d a) s = .next t ∧ Past s t ∧
        (∀ r, d = .priv r → s.older (.s d) = 0 → t.sreg d = ((s.slotOf s.core k).mb.look n).getD 0) ∧
        (t.slotOf s.core k).mbFull.getLsbD n = false ∧
        (∀ i, i ≠ n → (t.slotOf s.core k).mbFull.getLsbD i = (s.slotOf s.core k).mbFull.getLsbD i) ∧ SameMemory s t) ∧
    ((s.slotOf s.core k).mbFull.getLsbD n = false → exec (.mbrMovement g d a) s = .next (s.wait (.mbrBox d k n)))) ∧
  (∀ (s : State) g d a s2, s.acts g = true → s.slot ≠ 0 → s.slot ≠ 15 → s.release .core = some s2 →
    (s.cur.mbFull = 0 →
      ∃ t : State, exec (.copy g d a) s = .next t ∧ Past s t ∧ t.mem = s2.mem ∧ t.cur.mbFull = 0xF ∧ t.cur.mbTag = some d ∧
        (∀ n < 4, t.cur.mb.look n = some ((s.vsrc a).extractLsb' (64 * n) 64)) ∧ t.cur.pendRegs = s.cur.pendRegs ++ [(d, false)]) ∧
    (s.cur.mbFull ≠ 0 → ∃ ws, exec (.copy g d a) s = .next (s2.wait (.copyBox d ws)) ∧
      ∀ n < 4, ws[n]? = some ((s.vsrc a).extractLsb' (64 * n) 64))) ∧
  (∀ (s : State) g d a x s2 tree, s.acts g = true → s.slot ≠ 0 → s.slot ≠ 15 → s.gangStage s.core s.bankVf = some x →
    ((s.obmin s.core s.slot).toNat ≤ x.rank.toNat →
      exec (if tree then .reduceTree g d a else .reduceExact g d a) s = .next (s.trap .obrank (x.rank.setWidth 64))) ∧
    (x.rank.toNat < (s.obmin s.core s.slot).toNat →
      s.release (if (s.vsrc a).getLsbD 160 then .system else .module) = some s2 →
      ∃ t p q, exec (if tree then .reduceTree g d a else .reduceExact g d a) s = .next t ∧ Past s t ∧ t.mem = s2.mem ∧
        t.cur.pendRegs = s.cur.pendRegs ++ [(d, true)] ∧ q ∈ t.colls ∧ p ∈ q.parts ∧ q.tag = (s.vsrc a).extractLsb' 176 16 ∧
        p.core = s.core ∧ p.slot = s.slot ∧ p.sd = d ∧ p.tree = tree ∧ p.w0 = (s.vsrc a).extractLsb' 0 64 ∧
        p.w1 = (s.vsrc a).extractLsb' 64 64 ∧
        (if (s.vsrc a).getLsbD 160 then q.gang = none ∧ p.index = ((s.vsrc a).extractLsb' 208 16).toNat
          else q.gang.isSome = true ∧ p.index = s.cur.member.toNat))) ∧
  (∀ (s : State) c v k, s.frozen c = false → s.lodge.up = true → s.nextQuartet c = some (v, k) → (s.engine (dieOf c) (engineOf c)).chain.length < 4096 →
    ∃ t e, exec (.mailboxService c) s = .next t ∧ (t.engine (dieOf c) (engineOf c)).chain = (s.engine (dieOf c) (engineOf c)).chain ++ [e] ∧
      e.seq = (s.engine (dieOf c) (engineOf c)).next + 1 ∧ (t.engine (dieOf c) (engineOf c)).next = e.seq ∧ e.started = false ∧
      e.core = c ∧ e.slot = k ∧ e.vf = v ∧ e.pasid = s.pasid v e.tenant ∧ e.tenant = (s.slotOf c k).tenant.toNat ∧ e.w0 = ((s.slotOf c k).mb.look 0).getD 0 ∧ e.w1 = ((s.slotOf c k).mb.look 1).getD 0 ∧
      e.w2 = ((s.slotOf c k).mb.look 2).getD 0 ∧ e.w3 = ((s.slotOf c k).mb.look 3).getD 0 ∧ (t.slotOf c k).mbFull = 0 ∧ SameMemory s t) ∧
  (∀ (s : State) d n e, ((s.engine d n).chain.find? fun e => !e.started) = some e → s.onTurn e.vf e.tenant = true → s.frozen e.core = false →
    s.donated e.vf = false →
    ∃ t e', exec (.copyStart d n) s = .next t ∧ (t.engine d n).chain = ((s.engine d n).chain.map fun x => if x = e then e' else x) ∧
      e' = { e with started := true, got := e'.got, moved := e'.moved } ∧
      (e.bad = true ∨ e.w0.toNat % 8 ≠ 0 ∨ e.w1.toNat % 8 ≠ 0 ∨ e.w2.getLsbD 60 = true → SameMemory s t)) ∧
  (∀ (s : State) d n i e, (s.engine d n).chain[i]? = some e → e.started = true → (s.slotOf e.core e.slot).status = .run →
    (s.slotOf e.core e.slot).gen = e.gen →
    (field e.w2 39 24 = 0 ∨ 4 < field e.w2 43 40 ∨ field e.w2 23 0 % 8 ≠ 0 →
      ∃ t : State, exec (.copyComplete d n i) s = .next t ∧ SameMemory s t ∧ (t.engine d n).done = e.seq ∧
        (t.at e.core e.slot).sreg (.priv e.sd) = 0x143) ∧
    (∀ p q, e.w2 = 0x0000000001000008 → e.w3 = 0 → e.w0.toNat % 8 = 0 → e.w1.toNat % 8 = 0 → field e.w0 63 57 = 0 → field e.w1 63 57 = 0 →
      e.got.look 0 = none → e.moved.look 0 = none → s.engineWalkHeld e.vf e.pasid e.w0 = false → s.engineWalkHeld e.vf e.pasid e.w1 = false →
      s.enginePlace e.core e.vf e.pasid e.w0 { size := 8 } = .ok p →
      s.enginePlace e.core e.vf e.pasid e.w1 { size := 8, write := true } = .ok q →
      s.engineHeld e.vf e.tenant p.pa false = false → s.engineHeld e.vf e.tenant q.pa true = false → p.kind ≠ .device → q.kind ≠ .device →
      (∀ w ∈ s.waiters, w.pa ≠ q.pa) →
      ∃ t : State, exec (.copyComplete d n i) s = .next t ∧ t.mem.word q.pa = s.mem.word p.pa ∧ SameOutside s t q.pa 8 ∧
        (t.engine d n).done = e.seq ∧ (t.at e.core e.slot).sreg (.priv e.sd) =
          BitVec.ofNat 64 ((if s.isPoisoned p.pa ∨ p.pr = true then 2 ^ 16 else 0) + 8 * 2 ^ 24) ∧
        (t.slotOf e.core e.slot).pendRegs = (s.slotOf e.core e.slot).pendRegs.erase (e.sd, false))) ∧
  ∀ (s : State) i q p, s.colls[i]? = some q → s.collHeld q = false → q.parts = [p] → q.gang = some (0, 0) →
    (s.slotOf p.core p.slot).status = .run → (s.slotOf p.core p.slot).gen = p.gen →
    (p.bad = true → ∃ t : State, exec (.collectiveComplete i) s = .next t ∧ SameMemory s t ∧ (t.at p.core p.slot).sreg (.priv p.sd) = 0x143) ∧
    (∀ x y, p.bad = false → field p.w2 16 0 = 1 → s.enginePlace p.core p.vf (s.pasid p.vf p.tenant) p.w0 { size := 4 } = .ok x →
      s.enginePlace p.core p.vf (s.pasid p.vf p.tenant) p.w1 { size := 4, write := true } = .ok y → x.kind ≠ .device → y.kind ≠ .device → (∀ w ∈ s.waiters, w.pa ≠ y.pa / 8 * 8) →
      wordsHit s.poison x.pa 4 = false → x.pr = false →
      ∃ t : State, exec (.collectiveComplete i) s = .next t ∧ SameOutside s t y.pa 4 ∧ (t.at p.core p.slot).sreg (.priv p.sd) = 0x4000000 ∧
        BitVec.ofNat 32 (leNat (t.mem.bytes y.pa 4)) = reduceOne p.tree [BitVec.ofNat 32 (leNat (s.mem.bytes x.pa 4))])

/-! ## The matrix unit (R211 to R232) -/

/-- R217, R218, R220, and the rest of R216 and R219: MXQ appends a command to the VF's share, CLAIM takes a free bay and owes its RELEASE,
RELEASE hands it to the head of its queue, MXDRAIN waits for the commands of its streams. -/
def Obligations.MatrixQueues : Prop :=
  (∀ (s : State) g a, s.acts g = true → s.mxShare s.bankVf = 0 → exec (.mxq g a) s = .next (s.trap .perm 0)) ∧
  (∀ (s : State) g a s2, s.acts g = true → s.mxShare s.bankVf ≠ 0 →
    (s.modVf s.core s.bankVf fun cv => { cv with mxSeq := cv.mxSeq + 1 }).release .core = some s2 →
    ((s.vfOf s.core s.bankVf).mxq.length < s.mxShare s.bankVf → s.mxWaiting s.core s.bankVf = [] →
      ∃ t q, exec (.mxq g a) s = .next t ∧ Past s t ∧ t.mem = s2.mem ∧
        (t.vfOf s.core s.bankVf).mxq = (s.vfOf s.core s.bankVf).mxq ++ [q] ∧ q.seq = (s.vfOf s.core s.bankVf).mxSeq ∧ q.slot = s.slot ∧
        (t.vfOf s.core s.bankVf).mxSeq = q.seq + 1 ∧
        (cmdType (s.vsrc a) ≠ 1 → cmdType (s.vsrc a) ≠ 3 → cmdType (s.vsrc a) ≠ 4 → q.cmd = s.vsrc a) ∧
        (cmdType (s.vsrc a) = 3 → (∀ i < 16, i ≠ 1 → lane q.cmd i = lane (s.vsrc a) i) ∧
          (lane q.cmd 1).extractLsb' 8 24 = (lane (s.vsrc a) 1).extractLsb' 8 24 ∧
          (lane q.cmd 1).extractLsb' 0 4 = (if (lane (s.vsrc a) 1).extractLsb' 0 4 = 15 then s.cur.fmta else (lane (s.vsrc a) 1).extractLsb' 0 4) ∧
          (lane q.cmd 1).extractLsb' 4 4 =
            if (lane (s.vsrc a) 1).extractLsb' 4 4 = 15 then s.cur.fmtb else (lane (s.vsrc a) 1).extractLsb' 4 4)) ∧
    (s.mxShare s.bankVf ≤ (s.vfOf s.core s.bankVf).mxq.length → s.slot = 15 → exec (.mxq g a) s = .next s.hwait) ∧
    (s.mxShare s.bankVf ≤ (s.vfOf s.core s.bankVf).mxq.length → s.slot ≠ 15 →
      ∃ t cmd, exec (.mxq g a) s = .next t ∧ t.cur.status = .wait (.mxFull cmd (s.vfOf s.core s.bankVf).mxSeq) ∧
        (t.vfOf s.core s.bankVf).mxq = (s.vfOf s.core s.bankVf).mxq)) ∧
  (∀ (s : State) g (bay : BitVec 4), s.acts g = true → s.slot ≠ 0 → s.physBay s.bankVf bay.toNat = none →
    exec (.claim g bay) s = .next ((s.trap .perm (bay.setWidth 64)).unreserve s.core s.slot) ∧
      exec (.release g bay) s = .next (s.trap .perm (bay.setWidth 64))) ∧
  (∀ (s : State) g (bay : BitVec 4) p rank s2, s.acts g = true → s.slot ≠ 0 → s.slot ≠ 15 → s.physBay s.bankVf bay.toNat = some p →
    rank = (s.vfOf s.core s.bankVf).brb + bay.setWidth 56 →
    ((s.obmin s.core s.slot).toNat ≤ rank.toNat → exec (.claim g bay) s =
      .next ((s.trap .obrank (rank.setWidth 64)).unreserve s.core s.slot)) ∧
    (rank.toNat < (s.obmin s.core s.slot).toNat → ∀ i, s.reserveOb s.core s.slot = .ok s2 i →
      ((s.bay s.core p).claim = none →
        ∃ t : State, exec (.claim g bay) s = .next t ∧ Past s t ∧ (t.bay s.core p).claim = some (s.handleOf s.core s.slot) ∧
          Owes s t .release (BitVec.ofNat 64 (2 ^ 63 + s.core * 2 ^ 32 + bay.toNat)) rank) ∧
      ((s.bay s.core p).claim.isSome = true →
        ∃ t : State, exec (.claim g bay) s = .next t ∧ t.cur.status = .wait (.claim bay.toNat rank) ∧
          (t.bay s.core p).queue = (s.bay s.core p).queue ++ [s.slot] ∧ (t.bay s.core p).claim = (s.bay s.core p).claim ∧
          SameMemory s t))) ∧
  (∀ (s : State) g (bay : BitVec 4) p, s.acts g = true → s.slot ≠ 0 → s.physBay s.bankVf bay.toNat = some p →
    (∀ q ∈ s.obsOf s.core s.slot, q.spill = none) →
    (pickOb (s.obsOf s.core s.slot) .release (BitVec.ofNat 64 (2 ^ 63 + s.core * 2 ^ 32 + bay.toNat)) = none →
      exec (.release g bay) s = .next (s.trap .obstray (bay.setWidth 64))) ∧
    (∀ o, pickOb (s.obsOf s.core s.slot) .release (BitVec.ofNat 64 (2 ^ 63 + s.core * 2 ^ 32 + bay.toNat)) = some o →
      (s.mxNames s.core s.bankVf bay.toNat (s.vfOf s.core s.bankVf).mxSeq = true →
        exec (.release g bay) s = .next (s.wait (.release bay.toNat (s.vfOf s.core s.bankVf).mxSeq))) ∧
      (s.mxNames s.core s.bankVf bay.toNat (s.vfOf s.core s.bankVf).mxSeq = false → (s.bay s.core p).queue = [] →
        ∃ t : State, exec (.release g bay) s = .next t ∧ Past s t ∧ (t.bay s.core p).claim = none ∧
          (t.bay s.core p).valid = (s.bay s.core p).valid ∧ t.obsOf s.core s.slot = (s.obsOf s.core s.slot).erase o ∧ SameMemory s t) ∧
      (∀ k rest, s.mxNames s.core s.bankVf bay.toNat (s.vfOf s.core s.bankVf).mxSeq = false → (s.bay s.core p).queue = k :: rest →
        k ≠ s.slot → ∃ t : State, exec (.release g bay) s = .next t ∧ Past s t ∧ (t.bay s.core p).claim = some (s.handleOf s.core k) ∧ (t.bay s.core p).queue = rest ∧
          (t.slotOf s.core k).status = .run ∧ (t.slotOf s.core k).pc = (s.slotOf s.core k).advance.pc ∧
          ∃ o', t.obsOf s.core k = s.obsOf s.core k ++ [o'] ∧ o'.kind = .release ∧
            o'.obj = BitVec.ofNat 64 (2 ^ 63 + s.core * 2 ^ 32 + bay.toNat)))) ∧
  (∀ (s : State) g d, s.acts g = true → s.slot ≠ 0 →
    (∃ u : State, exec (.mxstat g d 1) s = .next (u.putS 3 d (s.vfOf s.core s.bankVf).mxErr).retire ∧ (u.vfOf s.core s.bankVf).mxErr = 0 ∧
      u.mem = s.mem) ∧
    exec (.mxstat g d 2) s = .next (s.putS 3 d ((s.vfOf s.core s.bankVf).brb.setWidth 64)).retire ∧
    ∀ sel : BitVec 3, sel ≠ 1 → ∃ v, exec (.mxstat g d sel) s = .next (s.putS 3 d v).retire ∧
      (sel = 0 → (s.vfOf s.core s.bankVf).mxq.length < 256 → v.extractLsb' 0 8 = BitVec.ofNat 8 (s.vfOf s.core s.bankVf).mxq.length) ∧
      (sel = 4 → ∀ b < (bitsOf (s.bayMask s.bankVf) 16).length, b < 16 →
        v.getLsbD b = (s.obsOf s.core s.slot).any fun o => o.kind == .release && o.obj == BitVec.ofNat 64 (2 ^ 63 + s.core * 2 ^ 32 + b))) ∧
  ∀ (s : State) g mask, s.acts g = true → s.slot ≠ 0 →
    ((∀ q ∈ (s.vfOf s.core s.bankVf).mxq, mask.getLsbD (cmdStream q.cmd) = false) → exec (.mxdrain g mask) s = .next s.retire) ∧
    ((∃ q ∈ (s.vfOf s.core s.bankVf).mxq, mask.getLsbD (cmdStream q.cmd) = true) →
      ∃ l, exec (.mxdrain g mask) s = .next (s.wait (.mxdrain l)) ∧
        ∀ n, n ∈ l ↔ ∃ q ∈ (s.vfOf s.core s.bankVf).mxq, mask.getLsbD (cmdStream q.cmd) = true ∧ q.seq = n)

/-- R88, R225, R227 to R232 in the part each clause gives: a command at the head of its stream that passes its checks runs whole and leaves the
share; one that moves words of memory first starts, with some of its words moved then, and completes with the others (R186); one that fails has no
effect but its status; Notify writes the status word. Details the rules leave open follow logs 35 and 40. -/
def Obligations.MatrixCommands : Prop :=
  ∀ (s : State) c v st q, s.mxReady c v st = some q → s.mxNext c = some v →
    (cmdNotify q.cmd = false →
      (∀ code detail, s.mxChecks c v q.cmd = some (code, detail) → cmdType q.cmd ≠ 1 → cmdType q.cmd ≤ 8 → 0 < cmdType q.cmd →
        (s.vfOf c v).mxErr = 0 → code ≠ 0 → q.begun = false ∨ (s.coreOf c).mxRetired = true →
        ∃ t, (match cmdType q.cmd with
            | 2 => exec (.tstore c v st) s | 3 => exec (.mma c v st) s | 4 => exec (.mmasp c v st) s | 5 => exec (.accz c v st) s
            | 6 => exec (.spload c v st) s | 7 => exec (.mxnote c v st) s | _ => exec (.mxbar c v st) s) = .next t ∧
          SameMemory s t ∧ (t.vfOf c v).mxq = (s.vfOf c v).mxq.erase q ∧ (∀ p, t.acc c p = s.acc c p ∧ t.bay c p = s.bay c p) ∧
          (t.vfOf c v).mxErr = BitVec.ofNat 64 (code + cmdType q.cmd * 2 ^ 8 + cmdStream q.cmd * 2 ^ 16 + detail * 2 ^ 32)) ∧
      (s.mxChecks c v q.cmd = none →
        (q.begun = false → cmdType q.cmd = 1 ∨ cmdType q.cmd = 2 ∨ cmdType q.cmd = 6 →
          ∃ t e, (match cmdType q.cmd with
              | 1 => exec (.tload c v st) s | 2 => exec (.tstore c v st) s | _ => exec (.spload c v st) s) = .next t ∧
            (t.vfOf c v).mxq = ((s.vfOf c v).mxq.map fun x => if x = q then { q with begun := true, early := e } else x) ∧
            (∀ p, t.acc c p = s.acc c p ∧ t.bay c p = s.bay c p) ∧
            (cmdType q.cmd ≠ 2 → SameMemory s t ∧ ∀ w x, e.look w = some x →
              ∃ p, s.windowPlace c v (8 * w) = some p ∧ x = (s.mem.word p.pa, s.isPoisoned p.pa))) ∧
        (∀ p l, q.begun = true → cmdType q.cmd = 1 → s.physBay v (cmdA q.cmd) = some p →
          l = rowBytes (cmdField q.cmd 1 3 0) (cmdNb q.cmd) → cmdLayout q.cmd = 0 →
          ∃ t, exec (.tload c v st) s = .next t ∧ SameMemory s t ∧ (t.vfOf c v).mxq = (s.vfOf c v).mxq.erase q ∧
            (t.bay c p).valid = true ∧ (t.bay c p).fmt = BitVec.ofNat 4 (cmdField q.cmd 1 3 0) ∧ (t.bay c p).nb = cmdNb q.cmd ∧
            (t.bay c p).claim = (s.bay c p).claim ∧
            (∀ r < 32, ∀ i < l, (t.bay c p).codes.look (128 * r + i) = some (s.winByte q.early c v (cmdAddr q.cmd 2 + l * r + i))) ∧
            ∀ r < 32, ∀ kb < cmdNb q.cmd, (t.bay c p).scales.look (8 * r + kb) =
              some (if cmdField q.cmd 1 11 8 = 1 then s.winByte q.early c v (cmdAddr q.cmd 4 + r * cmdNb q.cmd + kb) else 0x7F)) ∧
        (∀ p, q.begun = true → cmdType q.cmd = 2 → s.physAcc v (cmdAcc q.cmd) = some p → cmdLayout q.cmd = 0 → s.waiters = [] →
          ∃ t, exec (.tstore c v st) s = .next t ∧ (t.vfOf c v).mxq = (s.vfOf c v).mxq.erase q ∧ t.acc c p = s.acc c p ∧
            ∀ w < 512, q.early.look w = none → ∀ x, s.windowPlace c v (cmdAddr q.cmd 2 + 8 * w) = some x →
              (t.mem.word x.pa).extractLsb' 0 32 = ((s.acc c p).vals.look (2 * w)).getD 0 ∧
                (t.mem.word x.pa).extractLsb' 32 32 = ((s.acc c p).vals.look (2 * w + 1)).getD 0) ∧
        (∀ p a b, cmdType q.cmd = 3 → s.physAcc v (cmdAcc q.cmd) = some p → s.vfBay c v (cmdA q.cmd) = some a →
          s.vfBay c v (cmdB q.cmd) = some b →
          ∃ t, exec (.mma c v st) s = .next t ∧ SameMemory s t ∧ (t.vfOf c v).mxq = (s.vfOf c v).mxq.erase q ∧
            (t.acc c p).poison = ((s.acc c p).poison || a.poison || b.poison) ∧
            ∀ i < 32, ∀ j < 32, ∃ blocks : List Lane, blocks.length = fmtKmax (cmdField q.cmd 1 3 0) / 32 ∧
              (t.acc c p).vals.look (32 * i + j) = some (blocks.foldl (fun x y => (fadd .rne x y).1) (((s.acc c p).vals.look (32 * i + j)).getD 0)) ∧
              ∀ kb x, blocks[kb]? = some x → (a.nb ≤ kb ∨ b.nb ≤ kb → x = 0) ∧
                (kb < a.nb → kb < b.nb → ∀ f g : Nat → ℚ, a.scale i kb ≠ 255 → b.scale j kb ≠ 255 →
                  (∀ k < 32, ∃ z, Exact.of (s.codeNum c v a.fmt.toNat (a.code i (32 * kb + k))) = .val (f k) z) →
                  (∀ k < 32, ∃ z, Exact.of (s.codeNum c v b.fmt.toNat (b.code j (32 * kb + k))) = .val (g k) z) →
                  ((List.range 32).map fun k => f k * g k).sum ≠ 0 →
                  ∃ fl, (Exact.val (((List.range 32).map fun k => f k * g k).sum * (2 : ℚ) ^ ((a.scale i kb : Int) + b.scale j kb - 254)) false).Gives
                    fp32 .rne x.toNat fl)) ∧
        (∀ p a b0 b1 half, cmdType q.cmd = 4 → s.physAcc v (cmdAcc q.cmd) = some p → s.vfBay c v (cmdA q.cmd) = some a →
          s.vfBay c v (cmdB q.cmd) = some b0 → s.vfBay c v (cmdB q.cmd + 1) = some b1 → half = fmtKmax (cmdField q.cmd 1 3 0) / 32 →
          ∃ t, exec (.mmasp c v st) s = .next t ∧ SameMemory s t ∧ (t.vfOf c v).mxq = (s.vfOf c v).mxq.erase q ∧
            (t.acc c p).poison = ((s.acc c p).poison || a.poison || b0.poison || b1.poison) ∧
            ∀ i < 32, ∀ j < 32, ∃ blocks : List Lane, blocks.length = 2 * half ∧
              (t.acc c p).vals.look (32 * i + j) = some (blocks.foldl (fun x y => (fadd .rne x y).1) (((s.acc c p).vals.look (32 * i + j)).getD 0)) ∧
              ∀ kb x b kl, blocks[kb]? = some x → (b, kl) = (if kb < half then (b0, kb) else (b1, kb - half)) →
                (a.nb ≤ kb / 2 ∨ b.nb ≤ kl → x = 0) ∧
                (kb / 2 < a.nb → kl < b.nb → ∀ f g : Nat → ℚ, a.scale i (kb / 2) ≠ 255 → b.scale j kl ≠ 255 →
                  (∀ k < 32, match sparseAt s c q.cmd i (32 * kb + k) with
                    | some e => ∃ z, Exact.of (s.codeNum c v a.fmt.toNat (a.code i e)) = .val (f k) z
                    | none => f k = 0) →
                  (∀ k < 32, sparseAt s c q.cmd i (32 * kb + k) ≠ none →
                    ∃ z, Exact.of (s.codeNum c v b.fmt.toNat (b.code j (32 * kl + k))) = .val (g k) z) →
                  ((List.range 32).map fun k => f k * g k).sum ≠ 0 →
                  ∃ fl, (Exact.val (((List.range 32).map fun k => f k * g k).sum * (2 : ℚ) ^ ((a.scale i (kb / 2) : Int) + b.scale j kl - 254)) false).Gives
                    fp32 .rne x.toNat fl)) ∧
        (∀ p, cmdType q.cmd = 5 → s.physAcc v (cmdAcc q.cmd) = some p →
          ∃ t, exec (.accz c v st) s = .next t ∧ SameMemory s t ∧ (t.vfOf c v).mxq = (s.vfOf c v).mxq.erase q ∧
            (∀ n, ((t.acc c p).vals.look n).getD 0 = 0) ∧ (t.acc c p).poison = false) ∧
        (q.begun = true → cmdType q.cmd = 6 →
          ∃ t, exec (.spload c v st) s = .next t ∧ SameMemory s t ∧ (t.vfOf c v).mxq = (s.vfOf c v).mxq.erase q ∧
            ∀ i < cmdField q.cmd 1 12 0, ((t.coreOf c).side.look (cmdField q.cmd 4 11 0 + i)) = some (s.winByte q.early c v (cmdAddr q.cmd 2 + i))) ∧
        (cmdType q.cmd = 8 →
          ∃ t, exec (.mxbar c v st) s = .next t ∧ SameMemory s t ∧ (t.vfOf c v).mxq = (s.vfOf c v).mxq.erase q ∧
            (s.vfOf c v).mxq.head? = some q))) ∧
    ∀ x, cmdType q.cmd = 7 → cmdNotify q.cmd = true → s.mxChecks c v q.cmd = none → s.waiters = [] →
      s.windowPlace c v (cmdAddr q.cmd 14) = some x →
      ∃ t, exec (.mxnote c v st) s = .next t ∧ (t.vfOf c v).mxq = (s.vfOf c v).mxq.erase q ∧ SameOutside s t x.pa 8 ∧
        t.mem.word x.pa = BitVec.ofNat 64 (7 * 2 ^ 8 + cmdStream q.cmd * 2 ^ 16) ∧ (hasFE x.pa = true → t.isFull x.pa = true)

/-! ## Page 10 (R65, R170, R310, R323 to R325, R361 to R363) -/

/-- R310, R323, R324, R361 to R363, and R170 and R325 in part: RDCTR and RDTURN read, PWRHINT records its request clipped to the VF's range,
TURNEND sets DONE once, TLBINV drops translations, DBGBRK traps or halts, HALT halts, SETMODE sets the mode or a constant. -/
def Obligations.CountersModes : Prop :=
  (∀ (s : State) g d, s.acts g = true →
    exec (.rdctr g d 0) s = .next (s.putS 3 d (BitVec.ofNat 64 s.time)).retire ∧
    exec (.rdctr g d 1) s = .next (s.putS 3 d (BitVec.ofNat 64 (s.cycle s.core))).retire ∧
    (s.slot ≠ 0 → exec (.rdctr g d 4) s = .next (s.putS 3 d (s.vfOf s.core s.bankVf).msgSent).retire ∧
      exec (.rdctr g d 5) s = .next (s.putS 3 d (s.vfOf s.core s.bankVf).msgRecv).retire ∧
      ∀ j : Nat, j < 8 → exec (.rdctr g d (BitVec.ofNat 4 (8 + j))) s =
        .next (s.putS 3 d (((s.vfOf s.core s.bankVf).pcnt.look j).getD 0)).retire) ∧
    ∀ k, ∃ v, exec (.rdctr g d k) s = .next (s.putS 3 d v).retire) ∧
  (∀ (s : State) g (level : BitVec 3), s.acts g = true → s.slot ≠ 0 → s.slot ≠ 15 →
    ∃ t, exec (.pwrhint g level) s = .next t ∧ Past s t ∧ RegsKept s t none ∧ SameMemory s t ∧
      (t.isl (islandOf s.core)).reqs.look s.bankVf =
        some (min (max level.toNat (field (s.pfReg (0x9000 + 8 * s.bankVf)) 2 0)) (field (s.pfReg (0x9000 + 8 * s.bankVf)) 6 4))) ∧
  (∀ (s : State) g, s.acts g = true → s.slot ≠ 0 → s.slot ≠ 15 →
    ∃ t, exec (.turnend g) s = .next t ∧ Past s t ∧ RegsKept s t none ∧ SameMemory s t ∧
      (s.band.done.getLsbD s.bankVf = true → t.band = s.band) ∧
      (s.bankVf < 8 → s.band.done.getLsbD s.bankVf = false → t.band.done.getLsbD s.bankVf = true ∧
        (∀ v, v ≠ s.bankVf → t.band.done.getLsbD v = s.band.done.getLsbD v) ∧
        t.band.donateAt.look s.bankVf = some ((s.time / 1000 + 1) * 1000))) ∧
  (∀ (s : State) g d, s.acts g = true →
    exec (.rdturn g d 0) s = .next (s.putS 3 d (BitVec.ofNat 64 (s.band.turn % 64 + (if s.band.done.getLsbD s.bankVf then 64 else 0) +
      s.band.rounds % 2 ^ 32 * 2 ^ 32))).retire ∧
    exec (.rdturn g d 1) s = .next (s.putS 3 d (BitVec.ofNat 64 (s.band.epoch + s.band.round * (s.band.rows.map fun r => r.len * 1000).sum +
      ((s.band.rows.take s.band.turn).map fun r => r.len * 1000).sum))).retire) ∧
  (∀ (s : State) g d (sel : BitVec 2), s.acts g = true → ∃ v, exec (.rdturn g d sel) s = .next (s.putS 3 d v).retire ∧
    (sel = 3 → v = s.vfReg s.bankVf 0x10)) ∧
  (∀ (s : State) g vfScope s2, s.acts g = true → s.slot ≠ 0 → s.cur.pl ≠ 0 → s.release .module = some s2 →
    (∀ q ∈ s2.slotsOf s.bankVf (if vfScope then none else some s.cur.tenant.toNat), (s2.slotOf q.1 q.2).inFlight = false) →
    ∃ t, exec (.tlbinv g vfScope) s = .next t ∧ Past s t ∧ t.mem = s2.mem ∧
      (∀ c, ∀ e ∈ (t.coreOf c).utlb, ¬ (e.vf = s.bankVf ∧ (vfScope = true ∨ e.pasid.toNat = s.pasid s.bankVf s.cur.tenant.toNat))) ∧
      ∀ n, ∀ e ∈ (t.clus n).tlb, ¬ (e.vf = s.bankVf ∧ (vfScope = true ∨ e.pasid.toNat = s.pasid s.bankVf s.cur.tenant.toNat))) ∧
  (∀ (s : State) g (code : BitVec 10), s.acts g = true →
    (s.slot = 0 ∨ (s.clus (clusterOf s.core)).kcfg.getLsbD 0 = false ∨ (s.clus (clusterOf s.core)).kcfg.getLsbD (8 + s.bankVf) = false →
      exec (.dbgbrk g code) s = .next (s.trap .brk (code.setWidth 64))) ∧
    (s.slot ≠ 0 → (s.clus (clusterOf s.core)).kcfg.getLsbD 0 = true → (s.clus (clusterOf s.core)).kcfg.getLsbD (8 + s.bankVf) = true →
      (s.clus (clusterOf s.core)).halting = false → (s.clus (clusterOf s.core)).halted = false →
      ∃ t, exec (.dbgbrk g code) s = .next t ∧ t.cur.status = .wait .halted ∧ (t.clus (clusterOf s.core)).halting = true)) ∧
  (∀ (s : State) g, s.acts g = true → s.cur.pl = 2 → (s.clus (clusterOf s.core)).halting = false →
    (s.clus (clusterOf s.core)).halted = false →
    ∃ t, exec (.halt g) s = .next t ∧ (t.clus (clusterOf s.core)).halting = true) ∧
  (∀ (s : State) maint, s.cur.pl = 2 →
    exec (.setmode maint) s = .next (s.modCur fun x => { x with md := maint }).retire) ∧
  (∀ (s : State) n, s.cur.pl = 2 →
    exec (.setmodeConst n) s = .next (s.modCore s.core fun co => { co with constBank := co.constBank.put n.toNat (s.sreg (.priv 1)) }).retire) ∧
  ∀ (s : State) g maint n, s.cur.pl ≠ 2 → exec (.halt g) s = .next (s.decodeFault .priv) ∧
    exec (.setmode maint) s = .next (s.decodeFault .priv) ∧ exec (.setmodeConst n) s = .next (s.decodeFault .priv)

/-! ## Launches (R8 to R12, R30, R31, R314, R345 to R350) -/

/-- R8 to R12, R30, R31, R314, R345, R347 to R349: what the front end does with the packet at the head of a queue slot, a gang's release, two
sweeps that agree, and doorbells. The slot of a first activity and a sweep's single instant are the model's readings (logs 49, 53). -/
def Obligations.Launches : Prop :=
  (∀ (s : State) d hq v tenant q n p, s.headPacket d hq = some (v, tenant, q, n, p, none) →
    s.outranked d hq v (field (pkt p 5) 31 28) = false →
    ∃ t x, exec (.launchTake d hq) s = .next t ∧ t.launches = s.launches.put s.nextLaunch x ∧ t.nextLaunch = s.nextLaunch + 1 ∧ x.vf = v ∧
      x.tenant = tenant ∧ x.num = BitVec.ofNat 32 n ∧ x.image = pkt p 0 ∧ x.compl = pkt p 1 ∧ x.fsa = pkt p 2 ∧ x.fsb = pkt p 3 ∧
      x.maxpt = (pkt p 4).extractLsb' 0 32 ∧ x.hbi = (pkt p 4).extractLsb' 32 32 ∧ x.phase = .taken ∧ x.released = 0 ∧
      x.guardian.toNat = (if (pkt p 5).extractLsb' 0 24 = 0 then 0
        else ((pkt p 0).toNat + 2 * ((pkt p 5).extractLsb' 0 24).toNat) % 2 ^ 64) ∧
      x.stages.length = min 8 (field (pkt p 5) 27 24) ∧
      ∀ g, ∀ st, x.stages[g]? = some st → st.die = field (pkt p (8 + g)) 2 0 ∧ st.x = field (pkt p (8 + g)) 8 3 ∧ st.y = field (pkt p (8 + g)) 13 9 ∧
        st.w = field (pkt p (8 + g)) 19 14 ∧ st.h = field (pkt p (8 + g)) 25 20 ∧ st.bar = (pkt p (8 + g)).getLsbD 26 ∧
        st.entry.toNat = ((pkt p 0).toNat + 2 * field (pkt p (8 + g)) 55 32) % 2 ^ 64) ∧
  (∀ (s : State) v tenant p, (pkt p 1 = 0 ∨ (s.complPlace v tenant (pkt p 1)).isSome = true) →
    ((field (pkt p 5) 27 24 = 0 ∨ 8 < field (pkt p 5) 27 24) → s.reject v tenant p = some (1, 0)) ∧
    (1 ≤ field (pkt p 5) 27 24 → field (pkt p 5) 27 24 ≤ 8 → ∀ g, g < field (pkt p 5) 27 24 → 3 < field (pkt p (8 + g)) 2 0 →
      (∀ i < g, field (pkt p (8 + i)) 2 0 ≤ 3) → s.reject v tenant p = some (2, g))) ∧
  (∀ (s : State) l g x i c k m, s.mayRelease l g = true → s.launches.look l = some x → x.stages[g]? = some i → i.cores.Nodup →
    i.cores[m]? = some c → m < i.w * i.h → s.firstSlot c x.vf = some k →
    ∃ t, exec (.gangRelease l g) s = .next t ∧ SameMemory s t ∧
      (∃ y, t.launches.look l = some y ∧ y.released = g + 1 ∧ y.phase = if x.stages.length ≤ g + 1 then .live else .taken) ∧
      (t.slotOf c k).status = .run ∧ (t.slotOf c k).kind = .first ∧ (t.slotOf c k).pc = i.entry ∧ (t.slotOf c k).pl = 0 ∧
      (t.slotOf c k).vfid = BitVec.ofNat 4 x.vf ∧ (t.slotOf c k).tenant = BitVec.ofNat 5 x.tenant ∧ (t.slotOf c k).member = BitVec.ofNat 11 m ∧
      (t.slotOf c k).stage = BitVec.ofNat 3 g ∧ (t.slotOf c k).gangw = BitVec.ofNat 6 i.w ∧ (t.slotOf c k).gangh = BitVec.ofNat 6 i.h ∧
      (t.slotOf c k).maxpt = x.maxpt ∧ (t.slotOf c k).hbi = x.hbi ∧ (t.slotOf c k).guard = 0x8000000000000000 ∧
      (t.slotOf c k).fmta = x.fsa.extractLsb' 57 4 ∧ (t.slotOf c k).fmtb = x.fsb.extractLsb' 57 4 ∧
      (∀ n, (t.at c k).sreg (.priv n) = 0) ∧ (t.vfOf c x.vf).brb = x.bayrank) ∧
  (∀ (s : State) l x, s.launches.look l = some x → s.maySweep x = true →
    ∃ t, exec (.launchSweep l) s = .next t ∧
      ((s.sweepOf l x).1 = true → (s.sweepOf l x).2.1 = (s.sweepOf l x).2.2 → x.sweep = some (s.sweepOf l x) →
        ∃ y, t.launches.look l = some y ∧ y.phase = .ended) ∧
      ((s.sweepOf l x).1 = false ∨ (s.sweepOf l x).2.1 ≠ (s.sweepOf l x).2.2 ∨ x.sweep ≠ some (s.sweepOf l x) →
        SameMemory s t ∧ ∃ y, t.launches.look l = some y ∧ y.phase = .live ∧ y.sweep = some (s.sweepOf l x))) ∧
  (∀ (s : State) v pasid (w : Word) d, v < 8 → s.lodge.up = true → d = s.vqDesc v (field w 20 16) (field w 15 0) →
    (s.tenantValid v (field w 20 16) = false ∨ pasid.toNat ≠ s.pasid v (field w 20 16) ∨
      (d.valid = false ∧ s.frontGone v (field w 20 16) (s.vqBase v (field w 20 16) (field w 15 0)) 32 = none) →
      ∃ t, exec (.doorbell v pasid w) s = .next t ∧ SameMemory s t ∧ t.vqs = s.vqs ∧ t.vfReg v 0x608 = s.vfReg v 0x608 + 1) ∧
    (s.tenantValid v (field w 20 16) = true → pasid.toNat = s.pasid v (field w 20 16) → d.valid = true →
      s.frontGone v (field w 20 16) (s.vqBase v (field w 20 16) (field w 15 0)) 32 = none →
      (field w 63 32 + 2 ^ 32 - d.head) % 2 ^ 32 ≤ 2 ^ d.log2n →
      (s.vqTail v (field w 20 16) (field w 15 0) + 2 ^ 32 - d.head) % 2 ^ 32 < (field w 63 32 + 2 ^ 32 - d.head) % 2 ^ 32 →
      ∃ t, exec (.doorbell v pasid w) s = .next t ∧ SameMemory s t ∧ t.vqTail v (field w 20 16) (field w 15 0) = field w 63 32)) ∧
  ∀ (s : State) v tenant q die hq, v < 8 → s.takeGone v tenant q = none → s.waiting v tenant q = true → s.residency v tenant q = [] → (s.vqDesc v tenant q).die = die →
    s.vfIsUp v = true → s.hwqMask v die ≠ 0 → s.placeFor v die = some hq → die < 4 → hq < 48 → tenant < 32 → q < 65536 →
    ∃ t, exec (.vqPlacement v tenant q die hq) s = .next t ∧ SameMemory s t ∧ t.resident die hq = some (v, tenant, q)

/-! ## Clocks (R317 to R320, R326) -/

/-- R317 to R320, R326 (R326's 1.6 µs and the steps of a TIME correction are the model's, logs 23 and 44): an island's frequency step and its
end, power caps, power down and start, the anchors of NCYC, and TIME corrections. -/
def Obligations.Clocks : Prop :=
  (∀ (s : State) i d, s.stepDue i = some d → ∃ t, exec (.frequencyStep i) s = .next t ∧ SameMemory s t ∧ t.now = max s.now d ∧
    (t.isl i).relock = true ∧ (t.isl i).target = s.levelTarget i ∧ (t.isl i).lastStep = some t.time ∧ t.cyc i = (s.advance d).cyc i) ∧
  (∀ (s : State) i d, s.relockDue i = some d → ∃ t, exec (.relockComplete i) s = .next t ∧ SameMemory s t ∧ t.now = max s.now d ∧
    (t.isl i).relock = false ∧ (t.isl i).level = (s.isl i).target ∧ t.cyc i = (s.advance d).cyc i) ∧
  (∀ (s : State) i, i < 32 → ∃ t, exec (.powerCapHold i) s = .next t ∧ t = { s with islands := t.islands } ∧
    t.isl i = { s.isl i with capHold := true } ∧ ∀ c, islandOf c = i → t.stalled c = true) ∧
  (∀ (s : State) i, i < 32 → ∃ t, exec (.powerCapRelease i) s = .next t ∧ t = { s with islands := t.islands } ∧
    t.isl i = { s.isl i with capHold := false }) ∧
  (∀ (s : State) i d, i < 32 → d = s.tickOf ((s.time / 1024 + 1) * 1024) →
    ∃ t, exec (.ncycAnchor i) s = .next t ∧ SameMemory s t ∧ t.isl i = (s.advance d).ncycNow i) ∧
  (∀ (x : Island) ns, (x.ncyc0 / 65536 ≤ ns * 18 / 5 → x.reanchor ns = { x with ncyc0 := ns * 18 / 5 * 65536, held := false }) ∧
    (ns * 18 / 5 < x.ncyc0 / 65536 → x.reanchor ns = { x with held := true })) ∧
  (∀ (s : State) i d, s.heldDue i = some d →
    ∃ t, exec (.ncycHeldClear i) s = .next t ∧ SameMemory s t ∧ t.isl i = (s.advance d).ncycNow i) ∧
  (∀ (s : State) (ppm : Int), ppm ≠ 0 → ppm.natAbs ≤ 100 → ∃ t, exec (.timeCorrection ppm) s = .next t ∧ SameMemory s t ∧
    t.now = max s.now (s.slewAt + 36 * (1000000 / ppm.natAbs)) ∧ t.slewAt = t.now ∧ t.slew = s.slew + (if ppm < 0 then -1 else 1)) ∧
  (∀ (s : State) (ppm : Int), 100 < ppm → (∀ p ∈ s.launches, p.2.released = 0) →
    ∃ t, exec (.timeCorrection ppm) s = .next t ∧ SameMemory s t ∧ t.now = s.now ∧ t.slew = s.slew + ppm) ∧
  (∀ (s : State) i, i < 32 → ∃ t, exec (.islandPowerDown i) s = .next t ∧ SameMemory s t ∧ (t.isl i).powered = false ∧
    (∀ d, (t.advance d).cyc i = s.cyc i) ∧ ∀ c, islandOf c = i → t.stalled c = true) ∧
  ∀ (s : State) i, i < 32 → (s.isl i).powered = false → ∃ t, exec (.islandStart i) s = .next t ∧ SameMemory s t ∧
    (t.isl i).powered = true ∧ (t.isl i).relock = false ∧ t.cyc i = s.cyc i ∧ (t.isl i).ncyc0 = s.time * 18 / 5 * 65536

/-! ## Turns (R304 to R313) -/

/-- R304, R306, R307, R310, R312, in part: drain leads, synchronised stops, restores, turn and round boundaries, donations, and a capacity
that changes. When the first
table takes effect is the model's reading (log 26). -/
def Obligations.TurnEdges : Prop :=
  (∀ (s : State) v a d, s.leadDue v = some d → s.outgoing v = some a →
    ∃ t, exec (.drainLead v) s = .next t ∧ t.phase v = .draining ∧
      ((∀ q ∈ (s.advance d).tenantSlots v a, (s.slotOf q.1 q.2).status = .run) → SameMemory s t ∧
        ∀ q ∈ (s.advance d).tenantSlots v a, (t.slotOf q.1 q.2).preLead = true)) ∧
  (∀ (s : State) v a d, s.stopDue v = some d → s.outgoing v = some a →
    ∃ t, exec (.synchronisedStop v) s = .next t ∧ t.phase v = .stopped ∧ t.band.out.look v = some a ∧
      t.band.edgeAt.look v = some s.band.nextBoundary) ∧
  (∀ (s : State) v d, s.restoreDue v = some d → (s.advance d).savesDone v = true →
    ∃ t, exec (.turnEdgeRestore v) s = .next t ∧ t.phase v = .running ∧ t.band.out.look v = none) ∧
  (∀ (s : State) d, s.boundaryDue false = some d →
    ∃ t, exec .turnBoundary s = .next t ∧ t.band.turn = s.band.turn + 1 ∧ t.band.rows = s.band.rows ∧ t.band.round = s.band.round ∧
      t.band.done = 0 ∧ t.band.effect = 0 ∧ t.band.donateAt = []) ∧
  (∀ (s : State) d, s.band.started = true → s.boundaryDue true = some d →
    ∃ t, exec .roundBoundary s = .next t ∧ t.band.turn = 0 ∧ t.band.rounds = s.band.rounds + 1 ∧ t.band.done = 0 ∧
      (s.band.pending.isSome = true → s.band.pendAt + 32000 ≤ s.band.nextBoundary →
        some t.band.rows = s.band.pending ∧ t.band.pending = none ∧ t.band.epoch = s.band.nextBoundary ∧ t.band.round = 0) ∧
      (s.band.pending.isNone = true ∨ s.band.nextBoundary < s.band.pendAt + 32000 →
        t.band.rows = s.band.rows ∧ t.band.pending = s.band.pending ∧ t.band.epoch = s.band.epoch ∧ t.band.round = s.band.round + 1)) ∧
  (∀ (s : State) d, s.band.started = false → s.boundaryDue true = some d →
    ∃ t, exec .roundBoundary s = .next t ∧ t.band.started = true ∧ t.band.turn = 0 ∧ some t.band.rows = s.band.pending ∧
      t.band.pending = none ∧ t.band.epoch = (s.pfReg 8).toNat) ∧
  (∀ (s : State) v d e, s.donationDue v = some d → e = s.rowEntry v →
    ∃ t, exec (.donationEffect v) s = .next t ∧ SameMemory s t ∧ t.band.weights.look v = some (0, 0, 0) ∧ t.band.donateAt.look v = none ∧
      (v < 8 → t.band.effect.getLsbD v = true) ∧
      (e.donate < 8 → e.donate ≠ v → (s.rowEntry e.donate).idle = false →
        t.band.weights.look e.donate = some (
          min 64 (((s.band.weights.look e.donate).getD (0, 0, 0)).1 + ((s.band.weights.look v).getD (0, 0, 0)).1),
          min 64 (((s.band.weights.look e.donate).getD (0, 0, 0)).2.1 + ((s.band.weights.look v).getD (0, 0, 0)).2.1),
          min 64 (((s.band.weights.look e.donate).getD (0, 0, 0)).2.2 + ((s.band.weights.look v).getD (0, 0, 0)).2.2)))) ∧
  ∀ (s : State) r d cap total, r < 5 → d < 4 → cap ≤ 1024 → total = ((List.range 8).map fun v => s.lmin v r d).sum →
    ∃ t, exec (.capacityChange r d cap) s = .next t ∧ t.capOf r d = cap ∧
      ∀ v, v < 8 → t.lmin v r d = if total ≤ cap then s.lmin v r d else s.lmin v r d * cap / total

/-! ## The hypervisor and the supervisors (R303, R306, R314 to R316, R327, R328, R339, R342) -/

/-- R303, R306, R314 to R316, R327, R328, R339, R342, in part: commits, the epoch, VFs up, down and reset, partitions, residency, power
policies, register writes, pre-emptions and resumes, fences lifted, gangs killed, system channels bound, and the host's low reads. That a killed
gang's kill lifts fences, that two SPAD shares clash where their bytes meet, and that an entry of zeros is written whatever VF 0 owns, are the
model's readings (logs 28, 55, 77). -/
def Obligations.HostRegisters : Prop :=
  (∀ (s : State) w, s.pfOn = true → ∃ t, exec (.bscommit w) s = .next t ∧ SameMemory s t ∧
    (field w 6 0 = 0 ∨ 64 < field w 6 0 ∨ (∃ i, i < field w 6 0 ∧ field (s.pfReg (0x1000 + 0x100 * i)) 15 0 < 100) →
      t.band = s.band ∧ t.pfReg 0x10 = 0x100) ∧
    (∀ r, s.commitReason w = some r → t.band = s.band ∧ t.pfReg 0x10 = BitVec.ofNat 64 (r * 256)) ∧
    (s.commitReason w = none → t.pf = s.pf ∧ t.band.pending = some ((List.range (field w 6 0)).map s.shadowRow) ∧
      t.band.pendAt = s.time ∧ t.band.rows = s.band.rows)) ∧
  (∀ (s : State) w, s.pfOn = true → ∃ t, exec (.bsepochWrite w) s = .next t ∧ (s.runOn = true → t = s) ∧ (s.runOn = false → t.pfReg 8 = w)) ∧
  (∀ (s : State) v, v < 8 → s.lodge.minimal = false → s.lodge.up = true → ∃ t, exec (.vfUp v) s = .next t ∧ SameMemory s t ∧ t.vfIsUp v = true) ∧
  (∀ (s : State) v, v < 8 → s.pfOn = true → ∃ t, exec (.vfDown v) s = .next t ∧ t.vfIsUp v = false) ∧
  (∀ (s : State) v, v < 8 → ∃ t, exec (.vfReset v) s = .next t ∧ bit (t.pfReg (0x100 + 0x80 * v)) 1 = false ∧
    (∀ c, t.vfOf c v = {}) ∧ (∀ x ∈ t.saved, x.vf ≠ v) ∧ (∀ x ∈ t.vqs, x.vf ≠ v) ∧
    ((∀ p ∈ s.launches, p.2.vf = v → p.2.phase = .ended) → ∀ a,
      (s.inVf v (s.vfPages v) a = true → s.heldHome a = false → t.mem.get a = 0 ∧ t.isFull a = false ∧ t.isPoisoned a = false) ∧
      (s.inVf v (s.vfPages v) a = false ∨ s.heldHome a = true → t.mem.get a = s.mem.get a ∧ t.isFull a = s.isFull a ∧ t.isPoisoned a = s.isPoisoned a))) ∧
  (∀ (s : State) v off w m, v < 8 → s.pfOn = true → partMask off = some m → ∃ t, exec (.partitionWrite v off w) s = .next t ∧ SameMemory s t ∧
    (s.vfIsUp v = true ∨ s.partClash v off (w &&& m) = true → t = s.setPf 0x10 0x700) ∧
    (s.vfIsUp v = false → s.partClash v off (w &&& m) = false → t.pfReg (0x100 + 0x80 * v + off) = w &&& m)) ∧
  (∀ (s : State) e w, e < 192 → s.pfOn = true → ∃ t, exec (.residencyWrite e w) s = .next t ∧ SameMemory s t ∧
    (w &&& 0x3FFFFFF ≠ 0 → (s.hwqMask (field w 24 21) (e / 48)).testBit (e % 48) = false → t = s.setPf 0x10 0x700) ∧
    (w &&& 0x3FFFFFF = 0 ∨ (s.hwqMask (field w 24 21) (e / 48)).testBit (e % 48) = true → t.pfReg (0x8000 + 8 * e) = w &&& 0x3FFFFFF)) ∧
  (∀ (s : State) v w, v < 8 → s.pfOn = true → ∃ t, exec (.pwrpolWrite v w) s = .next t ∧
    (field w 2 0 ≤ field w 10 8 ∧ field w 10 8 ≤ field w 6 4 ∧ field w 6 4 ≤ 4 → t.pfReg (0x9000 + 8 * v) = w &&& 0x777) ∧
    (field w 10 8 < field w 2 0 ∨ field w 6 4 < field w 10 8 ∨ 4 < field w 6 4 → t = s)) ∧
  (∀ (s : State) off w m, off % 8 = 0 → s.pfOn = true → pfPlain off = some m →
    ∃ t, exec (.registerWrite none off w) s = .next t ∧ SameMemory s t ∧ t.pfReg off = w &&& m) ∧
  (∀ (s : State) v off w m, v < 8 → s.lodge.up = true → off % 8 = 0 → vfPlain off = some m →
    ∃ t, exec (.registerWrite (some v) off w) s = .next t ∧ SameMemory s t ∧ t.vfReg v off = w &&& m) ∧
  (∀ (s : State) v h c k, v < 8 → s.lodge.up = true → s.byHandle h = some (c, k) → k ≠ 15 → (s.slotOf c k).vfid.toNat = v → (s.slotOf c k).status = .run →
    exec (.preempt v h) s = .next (s.modSlot c k fun x => { x with prePreempt := true })) ∧
  (∀ (s : State) v h c k, v < 8 → s.lodge.up = true → s.byHandle h = some (c, k) → (s.slotOf c k).vfid.toNat = v → (s.slotOf c k).status = .parked 2 →
    ∃ t, exec (.resume v h) s = .next t ∧ SameMemory s t ∧ (t.slotOf c k).status = .run) ∧
  (∀ (s : State) v (c : BitVec 13), v < 8 → s.lodge.up = true → validCore c.toNat = true → ∃ t, exec (.unfence v c) s = .next t ∧ SameMemory s t ∧
    (t.vfOf c.toNat v).fenced = false ∧ t.slotOf c.toNat = s.slotOf c.toNat) ∧
  (∀ (s : State) v (c : BitVec 13) l x, v < 8 → s.lodge.up = true → validCore c.toNat = true → s.gangLaunch v c.toNat = some l → s.launches.look l = some x →
    ∃ t y, exec (.killgang v c) s = .next t ∧ t.launches.look l = some y ∧ y.phase = .ended) ∧
  (∀ (s : State) v c w, v < 8 → c < 4 → s.lodge.up = true → ∃ t, exec (.syschanBind v c w) s = .next t ∧ SameMemory s t ∧
    t.vfReg v (0x40 + 8 * c) = if w.getLsbD 63 = true ∧ ∃ u, u < 8 ∧ u ≠ v ∧ bit (s.vfReg u (0x40 + 8 * c)) 63 = true then 0
      else w &&& 0x81FFFFFFFFFFFFFE) ∧
  (∀ (s : State) v p, v < 8 → s.lodge.up = true → ∃ t, exec (.timelRead v p) s = .next t ∧ SameMemory s t ∧
    ((∀ q, p = some q → (s.interfaceOf v q.toNat).isSome = true) → t.lastRead.toNat = s.time % 2 ^ 32 ∧
      (t.readHigh v (p.map BitVec.toNat) 8).toNat = s.time % 2 ^ 64 / 2 ^ 32) ∧
    (∀ q, p = some q → s.interfaceOf v q.toNat = none → t.lastRead = 0)) ∧
  ∀ (s : State) v p j, v < 8 → j < 8 → s.lodge.up = true → ∃ t, exec (.pctlRead v p j) s = .next t ∧ SameMemory s t ∧
    ∀ q i x, p = some q → s.interfaceOf v q.toNat = some i → s.samples.look (v * 1024 + i * 8 + j) = some x →
      t.lastRead = x &&& 0xFFFFFFFF ∧ t.readHigh v (some q.toNat) j = x >>> 32

/-! ## Errors and retirements (R173, R175, R176, R233, R312, R335, R354, R355) -/

/-- R173, R175, R176, R233, R312, R335, R354, R355, in part: uncorrectable errors, and what is repaired or retired. The data that a held or
retired bus serves keeps its place (log 41), FARBW and COMPUTE fall in proportion (log 42), and what a lost link or port leaves of LINKBW is free
(log 71). -/
def Obligations.ErrorsRepairs : Prop :=
  (∀ (s : State) a w, w = a / 8 * 8 → isMemory w = true → (∀ x ∈ s.waiters, x.pa ≠ w) →
    ∃ t, exec (.uncorrectableError a) s = .next t ∧ SameMemory s t ∧ t.isPoisoned w = true ∧ (hasFE w = true → t.isFull w = true) ∧
      (hasFE w = false → t.full = s.full)) ∧
  (∀ (s : State) c k vec (n : BitVec 5), (s.slotOf c k).holds = true → ∃ t, exec (.registerError c k vec (.priv n)) s = .next t ∧
    SameMemory s t ∧ (vec, n) ∈ (t.slotOf c k).regErr) ∧
  (∀ (s : State) c k vec (n : BitVec 5), ∃ t, exec (.registerError c k vec (.shared n)) s = .next t ∧ SameMemory s t ∧
    n ∈ (if vec then (t.vfOf c (if k = 0 then 8 else (s.slotOf c k).vfid.toNat)).wPoison
      else (t.vfOf c (if k = 0 then 8 else (s.slotOf c k).vfid.toNat)).cPoison)) ∧
  (∀ (s : State) v, v < 8 → ∃ t, exec (.obligationStateLoss v) s = .next t ∧ SameMemory s t ∧ bit (t.pfReg (0x100 + 0x80 * v)) 1 = true) ∧
  (∀ (s : State) d b conn n, d < 4 → ((s.die d).busShifts.look b).getD 0 = n → n < 4 → b ∉ (s.die d).busRetired →
    ∃ t, exec (.busRepair d b conn) s = .next t ∧ SameMemory s t ∧ (t.die d).busShifts.look b = some (n + 1) ∧ b ∈ (t.die d).busHeld ∧
    (t.die d).busFailed = (s.die d).busFailed ++ [(b, conn)] ∧
    ∀ pa, rangeOf pa = .near d → busOf pa = b → t.isUnavail pa = true) ∧
  (∀ (s : State) d b, (∀ q ∈ s.faultQ, (busOf q.pa ≠ b ∨ homeDie q.pa ≠ d) ∧ s.isUnavail q.pa = true) → NoHeldSpills s →
    ∃ t, exec (.busHoldEnd d b) s = .next t ∧ SameMemory s t ∧ b ∉ (t.die d).busHeld ∧
      ∀ pa, rangeOf pa = .near d → busOf pa = b → t.isUnavail pa = s.pageGone pa) ∧
  (∀ (s : State) d b q, s.faultQ = [q] → busOf q.pa = b → homeDie q.pa = d → s.pageGone q.pa = false → q.by' = .slot → NoHeldSpills s →
    (s.slotOf q.core q.slot).status = .wait (.fetch q.pa) →
    ∃ t, exec (.busHoldEnd d b) s = .next t ∧ SameMemory s t ∧ t.faultQ = [] ∧ (t.slotOf q.core q.slot).status = .run) ∧
  (∀ (s : State) d b n, ((s.die d).busShifts.look b).getD 0 = n → 4 ≤ n → b ∉ (s.die d).busRetired →
    ∃ t, exec (.busRetire d b) s = .next t ∧ b ∈ (t.die d).busRetired ∧ b ∉ (t.die d).busHeld ∧
      (d < 4 → t.capOf 0 d ≤ s.capOf 0 d ∧ t.capOf 3 d ≤ s.capOf 3 d)) ∧
  (∀ (s : State) c, validCore c = true → (s.coreOf c).mxRetired = false →
    ∃ t, exec (.matrixUnitRetire c) s = .next t ∧ (t.coreOf c).mxRetired = true) ∧
  (∀ (s : State) d ch, d < 4 → ch < 16 → ch ∉ (s.die d).chanRetired →
    ∃ t, exec (.channelRetire d ch) s = .next t ∧ ch ∈ (t.die d).chanRetired ∧
      t.capOf 1 d = 1024 * (16 - ((s.die d).chanRetired.length + 1)) / 16) ∧
  (∀ (s : State) n, n < 384 → (s.clus n).retired = false → ∃ t, exec (.clusterRetire n) s = .next t ∧ (t.clus n).retired = true ∧
    (∀ c, clusterOf c = n → t.stalled c = true) ∧ ((∀ p ∈ s.clusters, p.2.retired = false) → t.capOf 4 (n / 96) = 1013)) ∧
  (∀ (s : State) a b, linked a b = true → (a, b) ∉ s.linksRetired → (b, a) ∉ s.linksRetired →
    (∃ t, exec (.linkRetire a b) s = .next t ∧ t.linksRetired = s.linksRetired ++ [(a, b)] ∧
      (a < 4 → t.capOf 2 a ≤ s.capOf 2 a)) ∧
    ∃ t, exec (.laneRepair a b) s = .next t ∧ SameMemory s t ∧ t.lanesRepaired = s.lanesRepaired ++ [(a, b)]) ∧
  (∀ (s : State) p, p < 16 → (s.port p).retired = false → (s.port p).training = false →
    ∃ t, exec (.flitReplay p) s = .next t ∧ SameMemory s t ∧ (t.port p).replays = (s.port p).replays + 1) ∧
  (∀ (s : State) p, p < 16 → (s.port p).retired = false → (s.port p).training = false → (s.port p).rate < 2 →
    64 < (s.recentReplays p).length →
    ∃ t, exec (.portRetrain p) s = .next t ∧ SameMemory s t ∧ (t.port p).rate = (s.port p).rate + 1 ∧ (t.port p).training = true) ∧
  (∀ (s : State) p, p < 16 → (s.port p).training = true →
    ∃ t, exec (.portTrainingComplete p) s = .next t ∧ SameMemory s t ∧ (t.port p).training = false ∧ (t.port p).rate = (s.port p).rate) ∧
  ∀ (s : State) p, p < 16 → (s.port p).retired = false → (s.port p).rate = 2 →
    ∃ t, exec (.portFailure p) s = .next t ∧ (t.port p).retired = true ∧ ∀ d, d < 4 → t.capOf 2 d ≤ s.capOf 2 d

/-! ## Boundaries and replies (R24, R25, R56, R59, R153, R154, R164, R172, R204, R333 to R338) -/

/-- R56, R59, R153, R154, R164, R172, R204, R333 to R338, in part: heartbeat misses, PTGAP, reply faults, kills and scrubs, the movement
program's restart (its address is free, log 17), words that are no instruction, fetch faults, and late, deferred and replayed replies. How a late reply reaches a saved
activity is the model's reading (log 34). -/
def Obligations.Boundaries : Prop :=
  (∀ (s : State) c k x, x = s.slotOf c k → k ≠ 0 → x.hbi ≠ 0 → x.hbi.toNat ≤ x.hbc.toNat → s.entitled c k = true → x.kill = none →
    s.landedIn c k (.sys .hbi) = true →
    ∃ t, exec (.heartbeatMiss c k) s = .next t ∧
      (x.missed = false → SameMemory s t ∧ t.slotOf c k = { x with hbc := 0, missed := true, hbPend := true }) ∧
      (x.missed = true → (t.vfOf c x.vfid.toNat).fenced = true)) ∧
  (∀ (s : State) c k x, x = s.slotOf c k → k ≠ 15 → s.atBoundary c k = true → x.hbPend = true → x.ih = false → x.replyFault = none →
    x.ptgap = none →
    ∃ t, exec (.hbmissDelivery c k) s = .next t ∧ SameMemory s t ∧ (t.slotOf c k).hbPend = false ∧ (t.slotOf c k).ih = true ∧
      (t.slotOf c k).tcause = Cause.hbmiss.code ∧ (t.slotOf c k).tepc = addrBits x.pc ∧ (t.slotOf c k).tval = x.hbi.setWidth 64 ∧
      (t.slotOf c k).pc = x.vector (s.cycle c) ∧ (t.slotOf c k).status = .run) ∧
  (∀ (s : State) c k x, x = s.slotOf c k → x.preLead = true ∨ x.prePreempt = true → x.maxpt.toNat < x.ptc.toNat → x.holds = true →
    x.ptgap = none → s.landedIn c k (.sys .maxpt) = true → ∃ t, exec (.ptgapRecord c k) s = .next t ∧ SameMemory s t ∧ t.slotOf c k = { x with gap := true }) ∧
  (∀ (s : State) c k x n, x = s.slotOf c k → k ≠ 15 → s.atBoundary c k = true → x.status = .run → x.ptgap = some n → x.ih = false →
    x.replyFault = none →
    ∃ t, exec (.ptgapDelivery c k) s = .next t ∧ SameMemory s t ∧ (t.slotOf c k).ptgap = none ∧ (t.slotOf c k).ih = true ∧
      (t.slotOf c k).tcause = Cause.ptgap.code ∧ (t.slotOf c k).tepc = addrBits x.pc ∧ (t.slotOf c k).tval = n.setWidth 64 ∧
      (t.slotOf c k).pc = x.vector (s.cycle c)) ∧
  (∀ (s : State) c k x cause v, x = s.slotOf c k → k ≠ 15 → s.atBoundary c k = true → x.status = .run → x.replyFault = some (cause, v) →
    ∃ t, exec (.replyFaultDelivery c k) s = .next t ∧ SameMemory s t ∧ (t.slotOf c k).replyFault = none ∧
      (x.ih = false → (t.slotOf c k).ih = true ∧ (t.slotOf c k).tcause = cause.code ∧ (t.slotOf c k).tepc = addrBits x.pc ∧
        (t.slotOf c k).tval = v ∧ (t.slotOf c k).pc = x.vector (s.cycle c)) ∧
      (x.ih = true → (t.slotOf c k).kill = some ⟨.double, x.pc, v⟩)) ∧
  (∀ (s : State) c k r, (s.slotOf c k).kill = some r → k ≠ 0 → s.frozen c = false →
    ∃ t, exec (.activityKill c k) s = .next t ∧ (t.slotOf c k).kill = none ∧ (∀ n, (t.at c k).sreg (.priv n) = 0) ∧
      (t.slotOf c k).status = if k = 15 then .empty else .scrub) ∧
  (∀ (s : State) c k, (s.slotOf c k).status = .scrub →
    (∃ t, exec (.slotScrubComplete c k false) s = .next t ∧ SameMemory s t ∧ (t.slotOf c k).status = .empty) ∧
    ∃ t, exec (.slotScrubComplete c k true) s = .next t ∧ (t.slotOf c k).status = .retired) ∧
  (∀ (s : State) c r, (s.slotOf c 0).kill = some r → ∃ t, exec (.movementRestart c) s = .next t ∧
    ((s.coreOf c).hand = [] → SameMemory s t) ∧ (t.coreOf c).hand = [] ∧
    (t.slotOf c 0).status = .run ∧ (t.slotOf c 0).kind = .movement ∧ (t.slotOf c 0).pl = 2 ∧ (t.slotOf c 0).ppl = 2 ∧ (t.slotOf c 0).kill = none ∧
    (t.slotOf c 0).ih = false) ∧
  (∀ (s : State) w, s.slot ≠ 15 → s.cur.ih = false → ∃ t, exec (.illegal w) s = .next t ∧ SameMemory s t ∧ Elsewhere s t ∧
    t.cur.tcause = Cause.illegal.code ∧ t.cur.tepc = addrBits s.cur.pc ∧ t.cur.tval = w.setWidth 64 ∧ t.cur.ih = true ∧
    t.cur.pc = { s.cur with busyNow := [] }.vector (s.cycle s.core)) ∧
  (∀ (s : State) cause, s.slot ≠ 15 → s.cur.ih = false → ∃ t, exec (.instructionFetchFault cause) s = .next t ∧ SameMemory s t ∧
    Elsewhere s t ∧ t.cur.tcause = (match cause with
      | .xlate => Cause.xlate.code
      | .perm => Cause.perm.code) ∧ t.cur.tepc = addrBits s.cur.pc ∧ t.cur.tval = s.cur.pc ∧ t.cur.ih = true ∧
    t.cur.pc = s.cur.vector (s.cycle s.core)) ∧
  (∀ (s : State) x r e, s.saved = [x] → x.late = some (.tupleSent r) → x.act.ih = false → x.act.kill = none → x.slot ≠ 15 → s.ts = [e] →
    e.device = false → e.parked = false → e.core = x.core → e.slot = x.slot → e.gen = x.act.gen → (s.slotOf x.core x.slot).gen ≠ x.act.gen → s.isUnavail (regionPa e.region) = false →
    s.regionLive e.region e.vf = false →
    ∃ t y, exec (.lateReplyLand x.vf x.tenant x.core x.slot) s = .next t ∧ t.saved = [y] ∧ y.late = none ∧ t.ts = [] ∧
      y.act.replyFault = some (.tskind, e.sr) ∧ y.act.pc = x.act.pc ∧ t.slotOf x.core x.slot = s.slotOf x.core x.slot) ∧
  (∀ (s : State) h w d ea pa pr rank, s.homeUsed h < 256 →
    (s.waiters.find? fun w => w.home == h && w.held && !s.heldHome w.pa) = some w → w.req = .lds d ea pa pr rank →
    ∃ t, exec (.deferredEntryJoin h) s = .next t ∧ SameMemory s t ∧
      (s.isFull w.pa = false → t.waiters = s.waiters.map fun x => if x = w then { x with held := false } else x) ∧
      (s.isFull w.pa = true → w.pa = pa → s.isPoisoned pa = false → pr = false →
        t.waiters = s.waiters.erase w ∧ Done s t w.core w.slot ∧ ∀ n, d = .priv n → (t.at w.core w.slot).sreg d = s.mem.word pa)) ∧
  (∀ (s : State) d i v, (s.die d).invals[i]? = some v → ∃ t, exec (.rdcInvalidation d i) s = .next t ∧ SameMemory s t ∧
    (t.die v.die).rdc.look v.line = none ∧ v ∈ (t.die (homeDie v.line)).acks) ∧
  (∀ (s : State) d i v, (s.die d).acks[i]? = some v → ∃ t, exec (.invalidationAck d i) s = .next t ∧ SameMemory s t ∧
    ((s.die v.die).rdc.look v.line = none →
      (((t.die (homeDie v.line)).sharers.look v.line).getD 0).getLsbD v.die = false)) ∧
  (∀ (s : State) p, rangeOf (p * 4096) ≠ .unmapped → ∃ t, exec (.pageUnavailable p) s = .next t ∧ SameMemory s t ∧
    t.isUnavail (p * 4096) = true) ∧
  (∀ (s : State) p, s.pageGone (p * 4096) = true → (∀ q ∈ s.faultQ, q.pa / 4096 ≠ p ∧ s.isUnavail q.pa = true) → NoHeldSpills s →
    ∃ t, exec (.faultQueueReplay p) s = .next t ∧
    SameMemory s t ∧ t.pageGone (p * 4096) = false) ∧
  ∀ (s : State) p q, s.pageGone (p * 4096) = true → s.faultQ = [q] → q.pa / 4096 = p → q.by' = .slot → s.busHolds q.pa = false → NoHeldSpills s →
    (s.slotOf q.core q.slot).status = .wait (.fetch q.pa) → ∃ t, exec (.faultQueueReplay p) s = .next t ∧
    SameMemory s t ∧ t.pageGone (p * 4096) = false ∧ t.faultQ = [] ∧ (t.slotOf q.core q.slot).status = .run

/-! ## The Kiosk, counters, trace and the Lodges (R322, R328 to R330, R351 to R353, R357 to R359) -/

/-- R322, R328, R330, R351 to R353, R357, R358, in part: halts and resumes, selections and samples of counters, trace, and the Lodges'
updates, failover and start. The versions that an update leaves are free (log 22); that a failed start brings up no
function, and that a takeover makes the standby ready, are the model's choices (logs 22, 38). -/
def Obligations.KioskLodge : Prop :=
  (∀ (s : State) n, n < 384 → (s.clus n).halting = false → (s.clus n).halted = false → ∃ t, exec (.kioskHalt n) s = .next t ∧
    (t.clus n).halting = true ∧ (t.clus n).halted = false ∧ ∀ c, clusterOf c = n → t.stalled c = true) ∧
  (∀ (s : State) n, (s.clus n).halting = true → s.haltReady n = true → ∃ t, exec (.haltComplete n) s = .next t ∧ SameMemory s t ∧ (t.clus n).halting = false ∧
    (t.clus n).halted = true) ∧
  (∀ (s : State) n, (s.clus n).halted = true → ∃ t, exec (.kioskResume n) s = .next t ∧ (t.clus n).halted = false ∧
    (t.clus n).halting = false ∧ ((∀ p ∈ (s.clus n).ingress, ∀ u : State, u.packetAway p = false) → (t.clus n).ingress = [])) ∧
  (∀ (s : State), ∃ t, exec .crossTrigger s = .next t ∧ ∀ n cl, s.clusters.look n = some cl → bit cl.kcfg 16 = true →
    (t.clus n).halting = true ∨ (t.clus n).halted = true) ∧
  (∀ (s : State) c k st, s.traced k = true → s.traceCode c k = st.toNat → (s.coreOf c).traceState.look k ≠ some st →
    ∃ t, exec (.traceStateRecord c k st) s = .next t ∧ (t.coreOf c).traceState.look k = some st) ∧
  (∀ (s : State) v j w, v < 8 → j < 8 → ∃ t, exec (.pcselWrite v j w) s = .next t ∧ SameMemory s t ∧
    t.pcselPend.look (8 * v + j) = some (w &&& 0x3F, (s.time / 1000 + 1) * 1000)) ∧
  (∀ (s : State) v j w ns, v < 8 → j < 8 → s.pcselPend.look (8 * v + j) = some (w, ns) → ∃ t, exec (.pcselEffect v j) s = .next t ∧
    SameMemory s t ∧ t.vfReg v (0x300 + 8 * j) = w ∧ t.pcselPend.look (8 * v + j) = none ∧
    ∀ c, ((t.vfOf c v).pcnt.look j).getD 0 = 0) ∧
  (∀ (s : State) w, ∃ t, exec (.trctlWrite w) s = .next t ∧ SameMemory s t ∧
    t.trctlPend = some (w &&& 0x1FFF3, (s.time / 1000 + 1) * 1000) ∧ t.trctl = s.trctl) ∧
  (∀ (s : State) w ns, s.trctlPend = some (w, ns) → ∃ t, exec .trctlEffect s = .next t ∧ SameMemory s t ∧ t.trctl = w ∧
    t.trctlPend = none) ∧
  (∀ (s : State) d, d = (if s.time % 1024 = 0 ∧ s.sampled < s.time then s.now else s.tickOf ((s.time / 1024 + 1) * 1024)) →
    ∃ t, exec .pcTotalSample s = .next t ∧ SameMemory s t ∧
    t.sampled = (s.advance d).time ∧ ∀ v i j, v < 8 → i < 32 → j < 8 → s.tenantValid v i = true →
      (∃ n, n < 8 ∧ s.vfReg v (0x300 + 8 * n) ≠ 0) → t.samples.look (v * 1024 + i * 8 + j) = some ((s.advance d).pcTotal v i j)) ∧
  (∀ (s : State), s.pfOn = true → s.lodge.updating = false →
    exec (.updcmd 1) s = .next { s with lodge := { s.lodge with updating := true, since := s.now } }) ∧
  (∀ (s : State), s.lodge.updating = true → exec (.updcmd 1) s = .next s) ∧
  (∀ (s : State) w, w ≠ 1 → exec (.updcmd w) s = .next s ∧ exec (.bootclr w) s = .next s) ∧
  (∀ (s : State), s.lodge.updating = true → s.now ≤ s.lodge.since + 36000000000 → ∃ t, exec .liveUpdateTakeover s = .next t ∧ SameMemory s t ∧ t.lodge.west = !s.lodge.west ∧
    t.lodge.updating = false ∧ t.lodge.ready = true ∧ t.lodge.result = 1 ∧ t.cores = s.cores) ∧
  (∀ (s : State) (r : BitVec 8), s.lodge.updating = true → r = 2 ∨ r = 3 →
    exec (.liveUpdateAbandon r) s = .next { s with lodge := { s.lodge with updating := false, result := r } }) ∧
  (∀ (s : State), s.lodge.updating = true → ∃ t, exec (.liveUpdateAbandon 4) s = .next t ∧ SameMemory s t ∧
    t.now = max s.now (s.lodge.since + 36000000000) ∧ t.lodge = { s.lodge with updating := false, result := 4 }) ∧
  (∀ (s : State), ∃ t, exec .lodgeFailover s = .next t ∧ SameMemory s t ∧ t.lodge.west = !s.lodge.west ∧
    t.lodge.ready = false ∧ t.lodge.updating = false ∧ t.cores = s.cores) ∧
  (∀ (s : State), s.pfOn = true → exec (.bootclr 1) s = .next { s with lodge := { s.lodge with clearReq := true } }) ∧
  (∀ (s : State), ∃ t, exec (.moduleStart none) s = .next t ∧ (∀ a, t.mem.get a = 0) ∧ t.runOn = false ∧ t.time = 0 ∧
    (∀ c k, k ≠ 0 → (t.slotOf c k).status = .empty) ∧
    (∀ c, validCore c = true → (t.slotOf c 0).status = .run ∧ (t.slotOf c 0).kind = .movement ∧ (t.slotOf c 0).pl = 2) ∧ (∀ v, v < 8 → t.vfIsUp v = false) ∧ t.lodge.fails = 0 ∧ t.lodge.up = true ∧ t.lodge.ready = false) ∧
  ∀ (s : State) (r : BitVec 8), 1 ≤ r.toNat → r.toNat ≤ 6 → s.lodge.clearReq = false →
    ∃ t, exec (.moduleStart (some r)) s = .next t ∧ t.lodge.fails.toNat = min 3 (s.lodge.fails.toNat + 1) ∧ t.lodge.reason = r ∧ t.lodge.up = false ∧
      t.lodge.minimal = (s.lodge.minimal || decide (2 ≤ s.lodge.fails.toNat))
end

