-- ==== Sys2Proof/Laws/Memory.lean ====
section
/-! SUPPORT. Sparse arrays and memory: reading after writing, and the canonical form that every operation on memory keeps. -/

namespace Sys2Proof.Machine

/-! ## Sparse arrays -/

@[simp] theorem SMap.look_put_self {α : Type} (m : SMap α) (k : Nat) (x : α) : (m.put k x).look k = some x := by
  induction m with
  | nil => simp [SMap.put, SMap.look]
  | cons p m ih =>
    obtain ⟨j, y⟩ := p
    by_cases h : j = k <;> simp [SMap.put, SMap.look, h, ih]

theorem SMap.look_put_ne {α : Type} (m : SMap α) {k j : Nat} (x : α) (h : j ≠ k) : (m.put k x).look j = m.look j := by
  induction m with
  | nil => simp [SMap.put, SMap.look, Ne.symm h]
  | cons p m ih =>
    obtain ⟨i, y⟩ := p
    by_cases hi : i = k
    · subst hi; simp [SMap.put, SMap.look, Ne.symm h]
    · by_cases hj : i = j
      · subst hj; simp [SMap.put, SMap.look, hi]
      · simp [SMap.put, SMap.look, hi, hj, ih]

theorem SMap.look_put {α : Type} (m : SMap α) (k j : Nat) (x : α) :
    (m.put k x).look j = if j = k then some x else m.look j := by
  by_cases h : j = k
  · subst h; simp
  · simp [h, SMap.look_put_ne]

theorem SMap.look_over {α : Type} (m : SMap α) (f : Nat → α → α) (k : Nat) : (m.over f).look k = (m.look k).map (f k) := by
  induction m with
  | nil => rfl
  | cons p m ih =>
    obtain ⟨j, y⟩ := p
    have ih' : SMap.look (List.map (fun p => (p.1, f p.1 p.2)) m) k = Option.map (f k) (SMap.look m k) := ih
    by_cases h : j = k
    · subst h; simp [SMap.over, SMap.look]
    · simp [SMap.over, SMap.look, h, ih']

@[simp] theorem SMap.put_put {α : Type} (m : SMap α) (k : Nat) (x y : α) : (m.put k x).put k y = m.put k y := by
  induction m with
  | nil => simp [SMap.put]
  | cons p m ih =>
    obtain ⟨j, z⟩ := p
    by_cases h : j = k <;> simp [SMap.put, h, ih]

/-! ## Bytes -/

theorem Memory.get_filter (m : Memory) (f : Nat → Bool) (a : Nat) :
    Memory.get (m.filter fun p => f p.1) a = if f a then m.get a else 0 := by
  induction m with
  | nil => simp [Memory.get]
  | cons p m ih =>
    obtain ⟨j, x⟩ := p
    by_cases hf : f j = true
    · simp only [List.filter_cons, hf, if_true, Memory.get]
      by_cases h : j = a
      · subst h; simp [hf]
      · simp [h, ih]
    · simp only [List.filter_cons, hf, Memory.get]
      by_cases h : j = a
      · subst h; simp_all
      · simp [h, ih]

theorem Memory.get_insert (m : Memory) (a b : Nat) (x : Byte) (h : ∀ p ∈ m, p.1 ≠ a) :
    (m.insert a x).get b = if b = a then x else m.get b := by
  induction m with
  | nil =>
    by_cases hb : b = a
    · subst hb; simp [Memory.insert, Memory.get]
    · simp [Memory.insert, Memory.get, hb, Ne.symm hb]
  | cons p m ih =>
    obtain ⟨j, y⟩ := p
    have hj : j ≠ a := h (j, y) (by simp)
    have ih := ih fun p hp => h p (by simp [hp])
    by_cases hlt : a < j
    · by_cases hb : b = a
      · subst hb; simp [Memory.insert, Memory.get, hlt]
      · simp [Memory.insert, Memory.get, hlt, hb, Ne.symm hb]
    · by_cases hjb : j = b
      · subst hjb; simp [Memory.insert, Memory.get, hlt, hj]
      · simp [Memory.insert, Memory.get, hlt, hjb, ih]

/-- Reading a byte after writing one. -/
theorem Memory.get_put (m : Memory) (a b : Nat) (x : Byte) : (m.put a x).get b = if b = a then x else m.get b := by
  have hf := Memory.get_filter m (fun j => j != a) b
  by_cases hx : x = 0
  · by_cases hb : b = a <;> simp_all [Memory.put]
  · have hi := Memory.get_insert (m.filter fun p => p.1 != a) a b x (by simp)
    by_cases hb : b = a <;> simp_all [Memory.put]

@[simp] theorem Memory.get_put_self (m : Memory) (a : Nat) (x : Byte) : (m.put a x).get a = x := by simp [Memory.get_put]

theorem Memory.get_put_ne (m : Memory) {a b : Nat} (x : Byte) (h : b ≠ a) : (m.put a x).get b = m.get b := by simp [Memory.get_put, h]

/-- Reading a byte outside the bytes stored. -/
theorem Memory.get_store_outside (m : Memory) (a b : Nat) (l : List Byte) (h : b < a ∨ a + l.length ≤ b) :
    (m.store a l).get b = m.get b := by
  induction l generalizing m a with
  | nil => rfl
  | cons x l ih =>
    have hlen : (x :: l).length = l.length + 1 := rfl
    rw [Memory.store, ih _ _ (by omega), Memory.get_put_ne _ _ (by omega)]

/-- Reading a byte stored. -/
theorem Memory.get_store_inside (m : Memory) (a i : Nat) (l : List Byte) (h : i < l.length) :
    (m.store a l).get (a + i) = l[i]'h := by
  induction l generalizing m a i with
  | nil => simp at h
  | cons x l ih =>
    cases i with
    | zero => rw [Memory.store, Memory.get_store_outside _ _ _ _ (by omega)]; simp
    | succ i =>
      have := ih (m.put a x) (a + 1) i (by simpa using h)
      rw [Memory.store, show a + (i + 1) = a + 1 + i by omega, this]; rfl

/-- Reading a byte that no cell of a list writes. -/
theorem Memory.get_patch_outside (m : Memory) (l : List (Nat × Byte)) (b : Nat) (h : ∀ p ∈ l, p.1 ≠ b) :
    (m.patch l).get b = m.get b := by
  induction l generalizing m with
  | nil => rfl
  | cons p l ih =>
    rw [Memory.patch, ih _ fun q hq => h q (by simp [hq]), Memory.get_put_ne _ _ (h p (by simp)).symm]

/-- A store is the writing of its cells. -/
theorem Memory.patch_cellsOf (m : Memory) (a : Nat) (l : List Byte) : m.patch (cellsOf a l) = m.store a l := by
  induction l generalizing m a with
  | nil => rfl
  | cons x l ih => simp [cellsOf, Memory.patch, Memory.store, ih]

/-! ## Words -/

theorem leBytes_length (n v : Nat) : (leBytes n v).length = n := by
  induction n generalizing v with
  | zero => rfl
  | succ n ih => simp [leBytes, ih]

theorem leNat_leBytes (n v : Nat) : leNat (leBytes n v) = v % 256 ^ n := by
  induction n generalizing v with
  | zero => simp [leBytes, leNat, Nat.mod_one]
  | succ n ih =>
    rw [Nat.pow_succ, Nat.mul_comm (256 ^ n) 256, Nat.mod_mul, ← ih]
    simp [leBytes, leNat]

theorem Memory.bytes_length (m : Memory) (a n : Nat) : (m.bytes a n).length = n := by
  induction n generalizing a with
  | zero => rfl
  | succ n ih => simp [Memory.bytes, ih]

theorem Memory.bytes_store (m : Memory) (a : Nat) (l : List Byte) : (m.store a l).bytes a l.length = l := by
  induction l generalizing m a with
  | nil => rfl
  | cons x l ih =>
    simp only [List.length_cons, Memory.bytes, Memory.store, ih]
    rw [Memory.get_store_outside _ _ _ _ (by omega)]; simp

/-- A word reads as it was stored (R3). -/
theorem Memory.word_store (m : Memory) (a : Nat) (v : Word) : (m.store a (leBytes 8 v.toNat)).word a = v := by
  have h := Memory.bytes_store m a (leBytes 8 v.toNat)
  rw [leBytes_length] at h
  rw [Memory.word, h, leNat_leBytes]
  apply BitVec.eq_of_toNat_eq
  have := v.isLt
  simp only [BitVec.toNat_ofNat]
  omega

/-! ## The canonical form -/

theorem Memory.wfFrom_mono {m : Memory} {lo lo' : Nat} (h : lo' ≤ lo) (hw : m.wfFrom lo = true) : m.wfFrom lo' = true := by
  cases m with
  | nil => rfl
  | cons p m =>
    obtain ⟨j, x⟩ := p
    simp only [Memory.wfFrom, Bool.and_eq_true, decide_eq_true_eq] at hw ⊢
    exact ⟨⟨by omega, hw.1.2⟩, hw.2⟩

theorem Memory.wfFrom_filter {m : Memory} {lo : Nat} (f : Nat × Byte → Bool) (hw : m.wfFrom lo = true) :
    Memory.wfFrom lo (m.filter f) = true := by
  induction m generalizing lo with
  | nil => rfl
  | cons p m ih =>
    obtain ⟨j, x⟩ := p
    simp only [Memory.wfFrom, Bool.and_eq_true, decide_eq_true_eq] at hw
    have h := ih hw.2
    cases hf : f (j, x)
    · rw [List.filter_cons, hf]; exact Memory.wfFrom_mono (by omega) h
    · rw [List.filter_cons, hf]; simp [Memory.wfFrom, hw.1.1, h]; simpa using hw.1.2

/-- A memory without some of its bytes is canonical. -/
theorem Memory.wf_filter {m : Memory} (f : Nat × Byte → Bool) (h : m.wf = true) : Memory.wf (m.filter f) = true :=
  Memory.wfFrom_filter f h

theorem Memory.wfFrom_insert {m : Memory} {lo a : Nat} {x : Byte} (ha : lo ≤ a) (hx : x ≠ 0) (hn : ∀ p ∈ m, p.1 ≠ a)
    (hw : m.wfFrom lo = true) : Memory.wfFrom lo (m.insert a x) = true := by
  induction m generalizing lo with
  | nil => simpa [Memory.insert, Memory.wfFrom, ha] using hx
  | cons p m ih =>
    obtain ⟨j, y⟩ := p
    have hj : j ≠ a := hn (j, y) (by simp)
    simp only [Memory.wfFrom, Bool.and_eq_true, decide_eq_true_eq] at hw
    by_cases hlt : a < j
    · simp [Memory.insert, hlt, Memory.wfFrom, ha, hw.2]
      exact ⟨by omega, by simpa using hw.1.2⟩
    · have := ih (lo := j + 1) (by omega) (fun p hp => hn p (by simp [hp])) hw.2
      simp [Memory.insert, hlt, Memory.wfFrom, this, hw.1.1]
      simpa using hw.1.2

/-- Writing a byte keeps the canonical form. -/
theorem Memory.wf_put {m : Memory} (a : Nat) (x : Byte) (h : m.wf = true) : (m.put a x).wf = true := by
  have hf : Memory.wf (m.filter fun p => p.1 != a) = true := Memory.wf_filter _ h
  by_cases hx : x = 0
  · rw [Memory.put, if_pos hx]; exact hf
  · rw [Memory.put, if_neg hx]; exact Memory.wfFrom_insert (Nat.zero_le a) hx (by simp) hf

/-- Storing bytes keeps the canonical form. -/
theorem Memory.wf_store {m : Memory} (a : Nat) (l : List Byte) (h : m.wf = true) : (m.store a l).wf = true := by
  induction l generalizing m a with
  | nil => exact h
  | cons x l ih => exact ih (a + 1) (Memory.wf_put a x h)

/-- Writing cells keeps the canonical form. -/
theorem Memory.wf_patch {m : Memory} (l : List (Nat × Byte)) (h : m.wf = true) : (m.patch l).wf = true := by
  induction l generalizing m with
  | nil => exact h
  | cons p l ih => exact ih (Memory.wf_put p.1 p.2 h)

end Sys2Proof.Machine
end

