-- ==== Sys2Proof/Laws/State.lean ====
section
/-! SUPPORT. What each named update of the state leaves: one lemma per field per update, and reading back what an update wrote. -/

namespace Sys2Proof.Machine

/-! ## at -/

@[simp] theorem State.at_agenda (s : State) (c k : Nat) : (s.at c k).agenda = s.agenda := rfl
@[simp] theorem State.at_fresh (s : State) (c k : Nat) : (s.at c k).fresh = s.fresh := rfl
@[simp] theorem State.at_now (s : State) (c k : Nat) : (s.at c k).now = s.now := rfl
@[simp] theorem State.at_slew (s : State) (c k : Nat) : (s.at c k).slew = s.slew := rfl
@[simp] theorem State.at_slewAt (s : State) (c k : Nat) : (s.at c k).slewAt = s.slewAt := rfl
@[simp] theorem State.at_copyOut (s : State) (c k : Nat) : (s.at c k).copyOut = s.copyOut := rfl
@[simp] theorem State.at_msix (s : State) (c k : Nat) : (s.at c k).msix = s.msix := rfl
@[simp] theorem State.at_mem (s : State) (c k : Nat) : (s.at c k).mem = s.mem := rfl
@[simp] theorem State.at_full (s : State) (c k : Nat) : (s.at c k).full = s.full := rfl
@[simp] theorem State.at_poison (s : State) (c k : Nat) : (s.at c k).poison = s.poison := rfl
@[simp] theorem State.at_hostMem (s : State) (c k : Nat) : (s.at c k).hostMem = s.hostMem := rfl
@[simp] theorem State.at_waiters (s : State) (c k : Nat) : (s.at c k).waiters = s.waiters := rfl
@[simp] theorem State.at_faultQ (s : State) (c k : Nat) : (s.at c k).faultQ = s.faultQ := rfl
@[simp] theorem State.at_unavail (s : State) (c k : Nat) : (s.at c k).unavail = s.unavail := rfl
@[simp] theorem State.at_cores (s : State) (c k : Nat) : (s.at c k).cores = s.cores := rfl
@[simp] theorem State.at_clusters (s : State) (c k : Nat) : (s.at c k).clusters = s.clusters := rfl
@[simp] theorem State.at_dies (s : State) (c k : Nat) : (s.at c k).dies = s.dies := rfl
@[simp] theorem State.at_islands (s : State) (c k : Nat) : (s.at c k).islands = s.islands := rfl
@[simp] theorem State.at_root1 (s : State) (c k : Nat) : (s.at c k).root1 = s.root1 := rfl
@[simp] theorem State.at_root2 (s : State) (c k : Nat) : (s.at c k).root2 = s.root2 := rfl
@[simp] theorem State.at_ts (s : State) (c k : Nat) : (s.at c k).ts = s.ts := rfl
@[simp] theorem State.at_launches (s : State) (c k : Nat) : (s.at c k).launches = s.launches := rfl
@[simp] theorem State.at_nextLaunch (s : State) (c k : Nat) : (s.at c k).nextLaunch = s.nextLaunch := rfl
@[simp] theorem State.at_vqs (s : State) (c k : Nat) : (s.at c k).vqs = s.vqs := rfl
@[simp] theorem State.at_colls (s : State) (c k : Nat) : (s.at c k).colls = s.colls := rfl
@[simp] theorem State.at_saved (s : State) (c k : Nat) : (s.at c k).saved = s.saved := rfl
@[simp] theorem State.at_tcores (s : State) (c k : Nat) : (s.at c k).tcores = s.tcores := rfl
@[simp] theorem State.at_tmems (s : State) (c k : Nat) : (s.at c k).tmems = s.tmems := rfl
@[simp] theorem State.at_pf (s : State) (c k : Nat) : (s.at c k).pf = s.pf := rfl
@[simp] theorem State.at_vfb (s : State) (c k : Nat) : (s.at c k).vfb = s.vfb := rfl
@[simp] theorem State.at_latches (s : State) (c k : Nat) : (s.at c k).latches = s.latches := rfl
@[simp] theorem State.at_samples (s : State) (c k : Nat) : (s.at c k).samples = s.samples := rfl
@[simp] theorem State.at_sampled (s : State) (c k : Nat) : (s.at c k).sampled = s.sampled := rfl
@[simp] theorem State.at_pcselPend (s : State) (c k : Nat) : (s.at c k).pcselPend = s.pcselPend := rfl
@[simp] theorem State.at_trctlPend (s : State) (c k : Nat) : (s.at c k).trctlPend = s.trctlPend := rfl
@[simp] theorem State.at_events (s : State) (c k : Nat) : (s.at c k).events = s.events := rfl
@[simp] theorem State.at_band (s : State) (c k : Nat) : (s.at c k).band = s.band := rfl
@[simp] theorem State.at_lodge (s : State) (c k : Nat) : (s.at c k).lodge = s.lodge := rfl
@[simp] theorem State.at_linksRetired (s : State) (c k : Nat) : (s.at c k).linksRetired = s.linksRetired := rfl
@[simp] theorem State.at_lanesRepaired (s : State) (c k : Nat) : (s.at c k).lanesRepaired = s.lanesRepaired := rfl
@[simp] theorem State.at_ports (s : State) (c k : Nat) : (s.at c k).ports = s.ports := rfl
@[simp] theorem State.at_fabricOut (s : State) (c k : Nat) : (s.at c k).fabricOut = s.fabricOut := rfl
@[simp] theorem State.at_devOut (s : State) (c k : Nat) : (s.at c k).devOut = s.devOut := rfl
@[simp] theorem State.at_lastRead (s : State) (c k : Nat) : (s.at c k).lastRead = s.lastRead := rfl

/-! ## setCore -/

@[simp] theorem State.setCore_core (s : State) (c : Nat) (x : Core) : (s.setCore c x).core = s.core := rfl
@[simp] theorem State.setCore_slot (s : State) (c : Nat) (x : Core) : (s.setCore c x).slot = s.slot := rfl
@[simp] theorem State.setCore_agenda (s : State) (c : Nat) (x : Core) : (s.setCore c x).agenda = s.agenda := rfl
@[simp] theorem State.setCore_fresh (s : State) (c : Nat) (x : Core) : (s.setCore c x).fresh = s.fresh := rfl
@[simp] theorem State.setCore_now (s : State) (c : Nat) (x : Core) : (s.setCore c x).now = s.now := rfl
@[simp] theorem State.setCore_slew (s : State) (c : Nat) (x : Core) : (s.setCore c x).slew = s.slew := rfl
@[simp] theorem State.setCore_slewAt (s : State) (c : Nat) (x : Core) : (s.setCore c x).slewAt = s.slewAt := rfl
@[simp] theorem State.setCore_copyOut (s : State) (c : Nat) (x : Core) : (s.setCore c x).copyOut = s.copyOut := rfl
@[simp] theorem State.setCore_msix (s : State) (c : Nat) (x : Core) : (s.setCore c x).msix = s.msix := rfl
@[simp] theorem State.setCore_mem (s : State) (c : Nat) (x : Core) : (s.setCore c x).mem = s.mem := rfl
@[simp] theorem State.setCore_full (s : State) (c : Nat) (x : Core) : (s.setCore c x).full = s.full := rfl
@[simp] theorem State.setCore_poison (s : State) (c : Nat) (x : Core) : (s.setCore c x).poison = s.poison := rfl
@[simp] theorem State.setCore_hostMem (s : State) (c : Nat) (x : Core) : (s.setCore c x).hostMem = s.hostMem := rfl
@[simp] theorem State.setCore_waiters (s : State) (c : Nat) (x : Core) : (s.setCore c x).waiters = s.waiters := rfl
@[simp] theorem State.setCore_faultQ (s : State) (c : Nat) (x : Core) : (s.setCore c x).faultQ = s.faultQ := rfl
@[simp] theorem State.setCore_unavail (s : State) (c : Nat) (x : Core) : (s.setCore c x).unavail = s.unavail := rfl
@[simp] theorem State.setCore_clusters (s : State) (c : Nat) (x : Core) : (s.setCore c x).clusters = s.clusters := rfl
@[simp] theorem State.setCore_dies (s : State) (c : Nat) (x : Core) : (s.setCore c x).dies = s.dies := rfl
@[simp] theorem State.setCore_islands (s : State) (c : Nat) (x : Core) : (s.setCore c x).islands = s.islands := rfl
@[simp] theorem State.setCore_root1 (s : State) (c : Nat) (x : Core) : (s.setCore c x).root1 = s.root1 := rfl
@[simp] theorem State.setCore_root2 (s : State) (c : Nat) (x : Core) : (s.setCore c x).root2 = s.root2 := rfl
@[simp] theorem State.setCore_ts (s : State) (c : Nat) (x : Core) : (s.setCore c x).ts = s.ts := rfl
@[simp] theorem State.setCore_launches (s : State) (c : Nat) (x : Core) : (s.setCore c x).launches = s.launches := rfl
@[simp] theorem State.setCore_nextLaunch (s : State) (c : Nat) (x : Core) : (s.setCore c x).nextLaunch = s.nextLaunch := rfl
@[simp] theorem State.setCore_vqs (s : State) (c : Nat) (x : Core) : (s.setCore c x).vqs = s.vqs := rfl
@[simp] theorem State.setCore_colls (s : State) (c : Nat) (x : Core) : (s.setCore c x).colls = s.colls := rfl
@[simp] theorem State.setCore_saved (s : State) (c : Nat) (x : Core) : (s.setCore c x).saved = s.saved := rfl
@[simp] theorem State.setCore_tcores (s : State) (c : Nat) (x : Core) : (s.setCore c x).tcores = s.tcores := rfl
@[simp] theorem State.setCore_tmems (s : State) (c : Nat) (x : Core) : (s.setCore c x).tmems = s.tmems := rfl
@[simp] theorem State.setCore_pf (s : State) (c : Nat) (x : Core) : (s.setCore c x).pf = s.pf := rfl
@[simp] theorem State.setCore_vfb (s : State) (c : Nat) (x : Core) : (s.setCore c x).vfb = s.vfb := rfl
@[simp] theorem State.setCore_latches (s : State) (c : Nat) (x : Core) : (s.setCore c x).latches = s.latches := rfl
@[simp] theorem State.setCore_samples (s : State) (c : Nat) (x : Core) : (s.setCore c x).samples = s.samples := rfl
@[simp] theorem State.setCore_sampled (s : State) (c : Nat) (x : Core) : (s.setCore c x).sampled = s.sampled := rfl
@[simp] theorem State.setCore_pcselPend (s : State) (c : Nat) (x : Core) : (s.setCore c x).pcselPend = s.pcselPend := rfl
@[simp] theorem State.setCore_trctlPend (s : State) (c : Nat) (x : Core) : (s.setCore c x).trctlPend = s.trctlPend := rfl
@[simp] theorem State.setCore_events (s : State) (c : Nat) (x : Core) : (s.setCore c x).events = s.events := rfl
@[simp] theorem State.setCore_band (s : State) (c : Nat) (x : Core) : (s.setCore c x).band = s.band := rfl
@[simp] theorem State.setCore_lodge (s : State) (c : Nat) (x : Core) : (s.setCore c x).lodge = s.lodge := rfl
@[simp] theorem State.setCore_linksRetired (s : State) (c : Nat) (x : Core) : (s.setCore c x).linksRetired = s.linksRetired := rfl
@[simp] theorem State.setCore_lanesRepaired (s : State) (c : Nat) (x : Core) : (s.setCore c x).lanesRepaired = s.lanesRepaired := rfl
@[simp] theorem State.setCore_ports (s : State) (c : Nat) (x : Core) : (s.setCore c x).ports = s.ports := rfl
@[simp] theorem State.setCore_fabricOut (s : State) (c : Nat) (x : Core) : (s.setCore c x).fabricOut = s.fabricOut := rfl
@[simp] theorem State.setCore_devOut (s : State) (c : Nat) (x : Core) : (s.setCore c x).devOut = s.devOut := rfl
@[simp] theorem State.setCore_lastRead (s : State) (c : Nat) (x : Core) : (s.setCore c x).lastRead = s.lastRead := rfl

/-! ## modCore -/

@[simp] theorem State.modCore_core (s : State) (c : Nat) (f : Core → Core) : (s.modCore c f).core = s.core := rfl
@[simp] theorem State.modCore_slot (s : State) (c : Nat) (f : Core → Core) : (s.modCore c f).slot = s.slot := rfl
@[simp] theorem State.modCore_agenda (s : State) (c : Nat) (f : Core → Core) : (s.modCore c f).agenda = s.agenda := rfl
@[simp] theorem State.modCore_fresh (s : State) (c : Nat) (f : Core → Core) : (s.modCore c f).fresh = s.fresh := rfl
@[simp] theorem State.modCore_now (s : State) (c : Nat) (f : Core → Core) : (s.modCore c f).now = s.now := rfl
@[simp] theorem State.modCore_slew (s : State) (c : Nat) (f : Core → Core) : (s.modCore c f).slew = s.slew := rfl
@[simp] theorem State.modCore_slewAt (s : State) (c : Nat) (f : Core → Core) : (s.modCore c f).slewAt = s.slewAt := rfl
@[simp] theorem State.modCore_copyOut (s : State) (c : Nat) (f : Core → Core) : (s.modCore c f).copyOut = s.copyOut := rfl
@[simp] theorem State.modCore_msix (s : State) (c : Nat) (f : Core → Core) : (s.modCore c f).msix = s.msix := rfl
@[simp] theorem State.modCore_mem (s : State) (c : Nat) (f : Core → Core) : (s.modCore c f).mem = s.mem := rfl
@[simp] theorem State.modCore_full (s : State) (c : Nat) (f : Core → Core) : (s.modCore c f).full = s.full := rfl
@[simp] theorem State.modCore_poison (s : State) (c : Nat) (f : Core → Core) : (s.modCore c f).poison = s.poison := rfl
@[simp] theorem State.modCore_hostMem (s : State) (c : Nat) (f : Core → Core) : (s.modCore c f).hostMem = s.hostMem := rfl
@[simp] theorem State.modCore_waiters (s : State) (c : Nat) (f : Core → Core) : (s.modCore c f).waiters = s.waiters := rfl
@[simp] theorem State.modCore_faultQ (s : State) (c : Nat) (f : Core → Core) : (s.modCore c f).faultQ = s.faultQ := rfl
@[simp] theorem State.modCore_unavail (s : State) (c : Nat) (f : Core → Core) : (s.modCore c f).unavail = s.unavail := rfl
@[simp] theorem State.modCore_clusters (s : State) (c : Nat) (f : Core → Core) : (s.modCore c f).clusters = s.clusters := rfl
@[simp] theorem State.modCore_dies (s : State) (c : Nat) (f : Core → Core) : (s.modCore c f).dies = s.dies := rfl
@[simp] theorem State.modCore_islands (s : State) (c : Nat) (f : Core → Core) : (s.modCore c f).islands = s.islands := rfl
@[simp] theorem State.modCore_root1 (s : State) (c : Nat) (f : Core → Core) : (s.modCore c f).root1 = s.root1 := rfl
@[simp] theorem State.modCore_root2 (s : State) (c : Nat) (f : Core → Core) : (s.modCore c f).root2 = s.root2 := rfl
@[simp] theorem State.modCore_ts (s : State) (c : Nat) (f : Core → Core) : (s.modCore c f).ts = s.ts := rfl
@[simp] theorem State.modCore_launches (s : State) (c : Nat) (f : Core → Core) : (s.modCore c f).launches = s.launches := rfl
@[simp] theorem State.modCore_nextLaunch (s : State) (c : Nat) (f : Core → Core) : (s.modCore c f).nextLaunch = s.nextLaunch := rfl
@[simp] theorem State.modCore_vqs (s : State) (c : Nat) (f : Core → Core) : (s.modCore c f).vqs = s.vqs := rfl
@[simp] theorem State.modCore_colls (s : State) (c : Nat) (f : Core → Core) : (s.modCore c f).colls = s.colls := rfl
@[simp] theorem State.modCore_saved (s : State) (c : Nat) (f : Core → Core) : (s.modCore c f).saved = s.saved := rfl
@[simp] theorem State.modCore_tcores (s : State) (c : Nat) (f : Core → Core) : (s.modCore c f).tcores = s.tcores := rfl
@[simp] theorem State.modCore_tmems (s : State) (c : Nat) (f : Core → Core) : (s.modCore c f).tmems = s.tmems := rfl
@[simp] theorem State.modCore_pf (s : State) (c : Nat) (f : Core → Core) : (s.modCore c f).pf = s.pf := rfl
@[simp] theorem State.modCore_vfb (s : State) (c : Nat) (f : Core → Core) : (s.modCore c f).vfb = s.vfb := rfl
@[simp] theorem State.modCore_latches (s : State) (c : Nat) (f : Core → Core) : (s.modCore c f).latches = s.latches := rfl
@[simp] theorem State.modCore_samples (s : State) (c : Nat) (f : Core → Core) : (s.modCore c f).samples = s.samples := rfl
@[simp] theorem State.modCore_sampled (s : State) (c : Nat) (f : Core → Core) : (s.modCore c f).sampled = s.sampled := rfl
@[simp] theorem State.modCore_pcselPend (s : State) (c : Nat) (f : Core → Core) : (s.modCore c f).pcselPend = s.pcselPend := rfl
@[simp] theorem State.modCore_trctlPend (s : State) (c : Nat) (f : Core → Core) : (s.modCore c f).trctlPend = s.trctlPend := rfl
@[simp] theorem State.modCore_events (s : State) (c : Nat) (f : Core → Core) : (s.modCore c f).events = s.events := rfl
@[simp] theorem State.modCore_band (s : State) (c : Nat) (f : Core → Core) : (s.modCore c f).band = s.band := rfl
@[simp] theorem State.modCore_lodge (s : State) (c : Nat) (f : Core → Core) : (s.modCore c f).lodge = s.lodge := rfl
@[simp] theorem State.modCore_linksRetired (s : State) (c : Nat) (f : Core → Core) : (s.modCore c f).linksRetired = s.linksRetired := rfl
@[simp] theorem State.modCore_lanesRepaired (s : State) (c : Nat) (f : Core → Core) : (s.modCore c f).lanesRepaired = s.lanesRepaired := rfl
@[simp] theorem State.modCore_ports (s : State) (c : Nat) (f : Core → Core) : (s.modCore c f).ports = s.ports := rfl
@[simp] theorem State.modCore_fabricOut (s : State) (c : Nat) (f : Core → Core) : (s.modCore c f).fabricOut = s.fabricOut := rfl
@[simp] theorem State.modCore_devOut (s : State) (c : Nat) (f : Core → Core) : (s.modCore c f).devOut = s.devOut := rfl
@[simp] theorem State.modCore_lastRead (s : State) (c : Nat) (f : Core → Core) : (s.modCore c f).lastRead = s.lastRead := rfl

/-! ## setSlot -/

@[simp] theorem State.setSlot_core (s : State) (c k : Nat) (x : Slot) : (s.setSlot c k x).core = s.core := rfl
@[simp] theorem State.setSlot_slot (s : State) (c k : Nat) (x : Slot) : (s.setSlot c k x).slot = s.slot := rfl
@[simp] theorem State.setSlot_agenda (s : State) (c k : Nat) (x : Slot) : (s.setSlot c k x).agenda = s.agenda := rfl
@[simp] theorem State.setSlot_fresh (s : State) (c k : Nat) (x : Slot) : (s.setSlot c k x).fresh = s.fresh := rfl
@[simp] theorem State.setSlot_now (s : State) (c k : Nat) (x : Slot) : (s.setSlot c k x).now = s.now := rfl
@[simp] theorem State.setSlot_slew (s : State) (c k : Nat) (x : Slot) : (s.setSlot c k x).slew = s.slew := rfl
@[simp] theorem State.setSlot_slewAt (s : State) (c k : Nat) (x : Slot) : (s.setSlot c k x).slewAt = s.slewAt := rfl
@[simp] theorem State.setSlot_copyOut (s : State) (c k : Nat) (x : Slot) : (s.setSlot c k x).copyOut = s.copyOut := rfl
@[simp] theorem State.setSlot_msix (s : State) (c k : Nat) (x : Slot) : (s.setSlot c k x).msix = s.msix := rfl
@[simp] theorem State.setSlot_mem (s : State) (c k : Nat) (x : Slot) : (s.setSlot c k x).mem = s.mem := rfl
@[simp] theorem State.setSlot_full (s : State) (c k : Nat) (x : Slot) : (s.setSlot c k x).full = s.full := rfl
@[simp] theorem State.setSlot_poison (s : State) (c k : Nat) (x : Slot) : (s.setSlot c k x).poison = s.poison := rfl
@[simp] theorem State.setSlot_hostMem (s : State) (c k : Nat) (x : Slot) : (s.setSlot c k x).hostMem = s.hostMem := rfl
@[simp] theorem State.setSlot_waiters (s : State) (c k : Nat) (x : Slot) : (s.setSlot c k x).waiters = s.waiters := rfl
@[simp] theorem State.setSlot_faultQ (s : State) (c k : Nat) (x : Slot) : (s.setSlot c k x).faultQ = s.faultQ := rfl
@[simp] theorem State.setSlot_unavail (s : State) (c k : Nat) (x : Slot) : (s.setSlot c k x).unavail = s.unavail := rfl
@[simp] theorem State.setSlot_clusters (s : State) (c k : Nat) (x : Slot) : (s.setSlot c k x).clusters = s.clusters := rfl
@[simp] theorem State.setSlot_dies (s : State) (c k : Nat) (x : Slot) : (s.setSlot c k x).dies = s.dies := rfl
@[simp] theorem State.setSlot_islands (s : State) (c k : Nat) (x : Slot) : (s.setSlot c k x).islands = s.islands := rfl
@[simp] theorem State.setSlot_root1 (s : State) (c k : Nat) (x : Slot) : (s.setSlot c k x).root1 = s.root1 := rfl
@[simp] theorem State.setSlot_root2 (s : State) (c k : Nat) (x : Slot) : (s.setSlot c k x).root2 = s.root2 := rfl
@[simp] theorem State.setSlot_ts (s : State) (c k : Nat) (x : Slot) : (s.setSlot c k x).ts = s.ts := rfl
@[simp] theorem State.setSlot_launches (s : State) (c k : Nat) (x : Slot) : (s.setSlot c k x).launches = s.launches := rfl
@[simp] theorem State.setSlot_nextLaunch (s : State) (c k : Nat) (x : Slot) : (s.setSlot c k x).nextLaunch = s.nextLaunch := rfl
@[simp] theorem State.setSlot_vqs (s : State) (c k : Nat) (x : Slot) : (s.setSlot c k x).vqs = s.vqs := rfl
@[simp] theorem State.setSlot_colls (s : State) (c k : Nat) (x : Slot) : (s.setSlot c k x).colls = s.colls := rfl
@[simp] theorem State.setSlot_saved (s : State) (c k : Nat) (x : Slot) : (s.setSlot c k x).saved = s.saved := rfl
@[simp] theorem State.setSlot_tcores (s : State) (c k : Nat) (x : Slot) : (s.setSlot c k x).tcores = s.tcores := rfl
@[simp] theorem State.setSlot_tmems (s : State) (c k : Nat) (x : Slot) : (s.setSlot c k x).tmems = s.tmems := rfl
@[simp] theorem State.setSlot_pf (s : State) (c k : Nat) (x : Slot) : (s.setSlot c k x).pf = s.pf := rfl
@[simp] theorem State.setSlot_vfb (s : State) (c k : Nat) (x : Slot) : (s.setSlot c k x).vfb = s.vfb := rfl
@[simp] theorem State.setSlot_latches (s : State) (c k : Nat) (x : Slot) : (s.setSlot c k x).latches = s.latches := rfl
@[simp] theorem State.setSlot_samples (s : State) (c k : Nat) (x : Slot) : (s.setSlot c k x).samples = s.samples := rfl
@[simp] theorem State.setSlot_sampled (s : State) (c k : Nat) (x : Slot) : (s.setSlot c k x).sampled = s.sampled := rfl
@[simp] theorem State.setSlot_pcselPend (s : State) (c k : Nat) (x : Slot) : (s.setSlot c k x).pcselPend = s.pcselPend := rfl
@[simp] theorem State.setSlot_trctlPend (s : State) (c k : Nat) (x : Slot) : (s.setSlot c k x).trctlPend = s.trctlPend := rfl
@[simp] theorem State.setSlot_events (s : State) (c k : Nat) (x : Slot) : (s.setSlot c k x).events = s.events := rfl
@[simp] theorem State.setSlot_band (s : State) (c k : Nat) (x : Slot) : (s.setSlot c k x).band = s.band := rfl
@[simp] theorem State.setSlot_lodge (s : State) (c k : Nat) (x : Slot) : (s.setSlot c k x).lodge = s.lodge := rfl
@[simp] theorem State.setSlot_linksRetired (s : State) (c k : Nat) (x : Slot) : (s.setSlot c k x).linksRetired = s.linksRetired := rfl
@[simp] theorem State.setSlot_lanesRepaired (s : State) (c k : Nat) (x : Slot) : (s.setSlot c k x).lanesRepaired = s.lanesRepaired := rfl
@[simp] theorem State.setSlot_ports (s : State) (c k : Nat) (x : Slot) : (s.setSlot c k x).ports = s.ports := rfl
@[simp] theorem State.setSlot_fabricOut (s : State) (c k : Nat) (x : Slot) : (s.setSlot c k x).fabricOut = s.fabricOut := rfl
@[simp] theorem State.setSlot_devOut (s : State) (c k : Nat) (x : Slot) : (s.setSlot c k x).devOut = s.devOut := rfl
@[simp] theorem State.setSlot_lastRead (s : State) (c k : Nat) (x : Slot) : (s.setSlot c k x).lastRead = s.lastRead := rfl

/-! ## modSlot -/

@[simp] theorem State.modSlot_core (s : State) (c k : Nat) (f : Slot → Slot) : (s.modSlot c k f).core = s.core := rfl
@[simp] theorem State.modSlot_slot (s : State) (c k : Nat) (f : Slot → Slot) : (s.modSlot c k f).slot = s.slot := rfl
@[simp] theorem State.modSlot_agenda (s : State) (c k : Nat) (f : Slot → Slot) : (s.modSlot c k f).agenda = s.agenda := rfl
@[simp] theorem State.modSlot_fresh (s : State) (c k : Nat) (f : Slot → Slot) : (s.modSlot c k f).fresh = s.fresh := rfl
@[simp] theorem State.modSlot_now (s : State) (c k : Nat) (f : Slot → Slot) : (s.modSlot c k f).now = s.now := rfl
@[simp] theorem State.modSlot_slew (s : State) (c k : Nat) (f : Slot → Slot) : (s.modSlot c k f).slew = s.slew := rfl
@[simp] theorem State.modSlot_slewAt (s : State) (c k : Nat) (f : Slot → Slot) : (s.modSlot c k f).slewAt = s.slewAt := rfl
@[simp] theorem State.modSlot_copyOut (s : State) (c k : Nat) (f : Slot → Slot) : (s.modSlot c k f).copyOut = s.copyOut := rfl
@[simp] theorem State.modSlot_msix (s : State) (c k : Nat) (f : Slot → Slot) : (s.modSlot c k f).msix = s.msix := rfl
@[simp] theorem State.modSlot_mem (s : State) (c k : Nat) (f : Slot → Slot) : (s.modSlot c k f).mem = s.mem := rfl
@[simp] theorem State.modSlot_full (s : State) (c k : Nat) (f : Slot → Slot) : (s.modSlot c k f).full = s.full := rfl
@[simp] theorem State.modSlot_poison (s : State) (c k : Nat) (f : Slot → Slot) : (s.modSlot c k f).poison = s.poison := rfl
@[simp] theorem State.modSlot_hostMem (s : State) (c k : Nat) (f : Slot → Slot) : (s.modSlot c k f).hostMem = s.hostMem := rfl
@[simp] theorem State.modSlot_waiters (s : State) (c k : Nat) (f : Slot → Slot) : (s.modSlot c k f).waiters = s.waiters := rfl
@[simp] theorem State.modSlot_faultQ (s : State) (c k : Nat) (f : Slot → Slot) : (s.modSlot c k f).faultQ = s.faultQ := rfl
@[simp] theorem State.modSlot_unavail (s : State) (c k : Nat) (f : Slot → Slot) : (s.modSlot c k f).unavail = s.unavail := rfl
@[simp] theorem State.modSlot_clusters (s : State) (c k : Nat) (f : Slot → Slot) : (s.modSlot c k f).clusters = s.clusters := rfl
@[simp] theorem State.modSlot_dies (s : State) (c k : Nat) (f : Slot → Slot) : (s.modSlot c k f).dies = s.dies := rfl
@[simp] theorem State.modSlot_islands (s : State) (c k : Nat) (f : Slot → Slot) : (s.modSlot c k f).islands = s.islands := rfl
@[simp] theorem State.modSlot_root1 (s : State) (c k : Nat) (f : Slot → Slot) : (s.modSlot c k f).root1 = s.root1 := rfl
@[simp] theorem State.modSlot_root2 (s : State) (c k : Nat) (f : Slot → Slot) : (s.modSlot c k f).root2 = s.root2 := rfl
@[simp] theorem State.modSlot_ts (s : State) (c k : Nat) (f : Slot → Slot) : (s.modSlot c k f).ts = s.ts := rfl
@[simp] theorem State.modSlot_launches (s : State) (c k : Nat) (f : Slot → Slot) : (s.modSlot c k f).launches = s.launches := rfl
@[simp] theorem State.modSlot_nextLaunch (s : State) (c k : Nat) (f : Slot → Slot) : (s.modSlot c k f).nextLaunch = s.nextLaunch := rfl
@[simp] theorem State.modSlot_vqs (s : State) (c k : Nat) (f : Slot → Slot) : (s.modSlot c k f).vqs = s.vqs := rfl
@[simp] theorem State.modSlot_colls (s : State) (c k : Nat) (f : Slot → Slot) : (s.modSlot c k f).colls = s.colls := rfl
@[simp] theorem State.modSlot_saved (s : State) (c k : Nat) (f : Slot → Slot) : (s.modSlot c k f).saved = s.saved := rfl
@[simp] theorem State.modSlot_tcores (s : State) (c k : Nat) (f : Slot → Slot) : (s.modSlot c k f).tcores = s.tcores := rfl
@[simp] theorem State.modSlot_tmems (s : State) (c k : Nat) (f : Slot → Slot) : (s.modSlot c k f).tmems = s.tmems := rfl
@[simp] theorem State.modSlot_pf (s : State) (c k : Nat) (f : Slot → Slot) : (s.modSlot c k f).pf = s.pf := rfl
@[simp] theorem State.modSlot_vfb (s : State) (c k : Nat) (f : Slot → Slot) : (s.modSlot c k f).vfb = s.vfb := rfl
@[simp] theorem State.modSlot_latches (s : State) (c k : Nat) (f : Slot → Slot) : (s.modSlot c k f).latches = s.latches := rfl
@[simp] theorem State.modSlot_samples (s : State) (c k : Nat) (f : Slot → Slot) : (s.modSlot c k f).samples = s.samples := rfl
@[simp] theorem State.modSlot_sampled (s : State) (c k : Nat) (f : Slot → Slot) : (s.modSlot c k f).sampled = s.sampled := rfl
@[simp] theorem State.modSlot_pcselPend (s : State) (c k : Nat) (f : Slot → Slot) : (s.modSlot c k f).pcselPend = s.pcselPend := rfl
@[simp] theorem State.modSlot_trctlPend (s : State) (c k : Nat) (f : Slot → Slot) : (s.modSlot c k f).trctlPend = s.trctlPend := rfl
@[simp] theorem State.modSlot_events (s : State) (c k : Nat) (f : Slot → Slot) : (s.modSlot c k f).events = s.events := rfl
@[simp] theorem State.modSlot_band (s : State) (c k : Nat) (f : Slot → Slot) : (s.modSlot c k f).band = s.band := rfl
@[simp] theorem State.modSlot_lodge (s : State) (c k : Nat) (f : Slot → Slot) : (s.modSlot c k f).lodge = s.lodge := rfl
@[simp] theorem State.modSlot_linksRetired (s : State) (c k : Nat) (f : Slot → Slot) : (s.modSlot c k f).linksRetired = s.linksRetired := rfl
@[simp] theorem State.modSlot_lanesRepaired (s : State) (c k : Nat) (f : Slot → Slot) : (s.modSlot c k f).lanesRepaired = s.lanesRepaired := rfl
@[simp] theorem State.modSlot_ports (s : State) (c k : Nat) (f : Slot → Slot) : (s.modSlot c k f).ports = s.ports := rfl
@[simp] theorem State.modSlot_fabricOut (s : State) (c k : Nat) (f : Slot → Slot) : (s.modSlot c k f).fabricOut = s.fabricOut := rfl
@[simp] theorem State.modSlot_devOut (s : State) (c k : Nat) (f : Slot → Slot) : (s.modSlot c k f).devOut = s.devOut := rfl
@[simp] theorem State.modSlot_lastRead (s : State) (c k : Nat) (f : Slot → Slot) : (s.modSlot c k f).lastRead = s.lastRead := rfl

/-! ## modCur -/

@[simp] theorem State.modCur_core (s : State) (f : Slot → Slot) : (s.modCur f).core = s.core := rfl
@[simp] theorem State.modCur_slot (s : State) (f : Slot → Slot) : (s.modCur f).slot = s.slot := rfl
@[simp] theorem State.modCur_agenda (s : State) (f : Slot → Slot) : (s.modCur f).agenda = s.agenda := rfl
@[simp] theorem State.modCur_fresh (s : State) (f : Slot → Slot) : (s.modCur f).fresh = s.fresh := rfl
@[simp] theorem State.modCur_now (s : State) (f : Slot → Slot) : (s.modCur f).now = s.now := rfl
@[simp] theorem State.modCur_slew (s : State) (f : Slot → Slot) : (s.modCur f).slew = s.slew := rfl
@[simp] theorem State.modCur_slewAt (s : State) (f : Slot → Slot) : (s.modCur f).slewAt = s.slewAt := rfl
@[simp] theorem State.modCur_copyOut (s : State) (f : Slot → Slot) : (s.modCur f).copyOut = s.copyOut := rfl
@[simp] theorem State.modCur_msix (s : State) (f : Slot → Slot) : (s.modCur f).msix = s.msix := rfl
@[simp] theorem State.modCur_mem (s : State) (f : Slot → Slot) : (s.modCur f).mem = s.mem := rfl
@[simp] theorem State.modCur_full (s : State) (f : Slot → Slot) : (s.modCur f).full = s.full := rfl
@[simp] theorem State.modCur_poison (s : State) (f : Slot → Slot) : (s.modCur f).poison = s.poison := rfl
@[simp] theorem State.modCur_hostMem (s : State) (f : Slot → Slot) : (s.modCur f).hostMem = s.hostMem := rfl
@[simp] theorem State.modCur_waiters (s : State) (f : Slot → Slot) : (s.modCur f).waiters = s.waiters := rfl
@[simp] theorem State.modCur_faultQ (s : State) (f : Slot → Slot) : (s.modCur f).faultQ = s.faultQ := rfl
@[simp] theorem State.modCur_unavail (s : State) (f : Slot → Slot) : (s.modCur f).unavail = s.unavail := rfl
@[simp] theorem State.modCur_clusters (s : State) (f : Slot → Slot) : (s.modCur f).clusters = s.clusters := rfl
@[simp] theorem State.modCur_dies (s : State) (f : Slot → Slot) : (s.modCur f).dies = s.dies := rfl
@[simp] theorem State.modCur_islands (s : State) (f : Slot → Slot) : (s.modCur f).islands = s.islands := rfl
@[simp] theorem State.modCur_root1 (s : State) (f : Slot → Slot) : (s.modCur f).root1 = s.root1 := rfl
@[simp] theorem State.modCur_root2 (s : State) (f : Slot → Slot) : (s.modCur f).root2 = s.root2 := rfl
@[simp] theorem State.modCur_ts (s : State) (f : Slot → Slot) : (s.modCur f).ts = s.ts := rfl
@[simp] theorem State.modCur_launches (s : State) (f : Slot → Slot) : (s.modCur f).launches = s.launches := rfl
@[simp] theorem State.modCur_nextLaunch (s : State) (f : Slot → Slot) : (s.modCur f).nextLaunch = s.nextLaunch := rfl
@[simp] theorem State.modCur_vqs (s : State) (f : Slot → Slot) : (s.modCur f).vqs = s.vqs := rfl
@[simp] theorem State.modCur_colls (s : State) (f : Slot → Slot) : (s.modCur f).colls = s.colls := rfl
@[simp] theorem State.modCur_saved (s : State) (f : Slot → Slot) : (s.modCur f).saved = s.saved := rfl
@[simp] theorem State.modCur_tcores (s : State) (f : Slot → Slot) : (s.modCur f).tcores = s.tcores := rfl
@[simp] theorem State.modCur_tmems (s : State) (f : Slot → Slot) : (s.modCur f).tmems = s.tmems := rfl
@[simp] theorem State.modCur_pf (s : State) (f : Slot → Slot) : (s.modCur f).pf = s.pf := rfl
@[simp] theorem State.modCur_vfb (s : State) (f : Slot → Slot) : (s.modCur f).vfb = s.vfb := rfl
@[simp] theorem State.modCur_latches (s : State) (f : Slot → Slot) : (s.modCur f).latches = s.latches := rfl
@[simp] theorem State.modCur_samples (s : State) (f : Slot → Slot) : (s.modCur f).samples = s.samples := rfl
@[simp] theorem State.modCur_sampled (s : State) (f : Slot → Slot) : (s.modCur f).sampled = s.sampled := rfl
@[simp] theorem State.modCur_pcselPend (s : State) (f : Slot → Slot) : (s.modCur f).pcselPend = s.pcselPend := rfl
@[simp] theorem State.modCur_trctlPend (s : State) (f : Slot → Slot) : (s.modCur f).trctlPend = s.trctlPend := rfl
@[simp] theorem State.modCur_events (s : State) (f : Slot → Slot) : (s.modCur f).events = s.events := rfl
@[simp] theorem State.modCur_band (s : State) (f : Slot → Slot) : (s.modCur f).band = s.band := rfl
@[simp] theorem State.modCur_lodge (s : State) (f : Slot → Slot) : (s.modCur f).lodge = s.lodge := rfl
@[simp] theorem State.modCur_linksRetired (s : State) (f : Slot → Slot) : (s.modCur f).linksRetired = s.linksRetired := rfl
@[simp] theorem State.modCur_lanesRepaired (s : State) (f : Slot → Slot) : (s.modCur f).lanesRepaired = s.lanesRepaired := rfl
@[simp] theorem State.modCur_ports (s : State) (f : Slot → Slot) : (s.modCur f).ports = s.ports := rfl
@[simp] theorem State.modCur_fabricOut (s : State) (f : Slot → Slot) : (s.modCur f).fabricOut = s.fabricOut := rfl
@[simp] theorem State.modCur_devOut (s : State) (f : Slot → Slot) : (s.modCur f).devOut = s.devOut := rfl
@[simp] theorem State.modCur_lastRead (s : State) (f : Slot → Slot) : (s.modCur f).lastRead = s.lastRead := rfl

/-! ## modVf -/

@[simp] theorem State.modVf_core (s : State) (c v : Nat) (f : CoreVf → CoreVf) : (s.modVf c v f).core = s.core := rfl
@[simp] theorem State.modVf_slot (s : State) (c v : Nat) (f : CoreVf → CoreVf) : (s.modVf c v f).slot = s.slot := rfl
@[simp] theorem State.modVf_agenda (s : State) (c v : Nat) (f : CoreVf → CoreVf) : (s.modVf c v f).agenda = s.agenda := rfl
@[simp] theorem State.modVf_fresh (s : State) (c v : Nat) (f : CoreVf → CoreVf) : (s.modVf c v f).fresh = s.fresh := rfl
@[simp] theorem State.modVf_now (s : State) (c v : Nat) (f : CoreVf → CoreVf) : (s.modVf c v f).now = s.now := rfl
@[simp] theorem State.modVf_slew (s : State) (c v : Nat) (f : CoreVf → CoreVf) : (s.modVf c v f).slew = s.slew := rfl
@[simp] theorem State.modVf_slewAt (s : State) (c v : Nat) (f : CoreVf → CoreVf) : (s.modVf c v f).slewAt = s.slewAt := rfl
@[simp] theorem State.modVf_copyOut (s : State) (c v : Nat) (f : CoreVf → CoreVf) : (s.modVf c v f).copyOut = s.copyOut := rfl
@[simp] theorem State.modVf_msix (s : State) (c v : Nat) (f : CoreVf → CoreVf) : (s.modVf c v f).msix = s.msix := rfl
@[simp] theorem State.modVf_mem (s : State) (c v : Nat) (f : CoreVf → CoreVf) : (s.modVf c v f).mem = s.mem := rfl
@[simp] theorem State.modVf_full (s : State) (c v : Nat) (f : CoreVf → CoreVf) : (s.modVf c v f).full = s.full := rfl
@[simp] theorem State.modVf_poison (s : State) (c v : Nat) (f : CoreVf → CoreVf) : (s.modVf c v f).poison = s.poison := rfl
@[simp] theorem State.modVf_hostMem (s : State) (c v : Nat) (f : CoreVf → CoreVf) : (s.modVf c v f).hostMem = s.hostMem := rfl
@[simp] theorem State.modVf_waiters (s : State) (c v : Nat) (f : CoreVf → CoreVf) : (s.modVf c v f).waiters = s.waiters := rfl
@[simp] theorem State.modVf_faultQ (s : State) (c v : Nat) (f : CoreVf → CoreVf) : (s.modVf c v f).faultQ = s.faultQ := rfl
@[simp] theorem State.modVf_unavail (s : State) (c v : Nat) (f : CoreVf → CoreVf) : (s.modVf c v f).unavail = s.unavail := rfl
@[simp] theorem State.modVf_clusters (s : State) (c v : Nat) (f : CoreVf → CoreVf) : (s.modVf c v f).clusters = s.clusters := rfl
@[simp] theorem State.modVf_dies (s : State) (c v : Nat) (f : CoreVf → CoreVf) : (s.modVf c v f).dies = s.dies := rfl
@[simp] theorem State.modVf_islands (s : State) (c v : Nat) (f : CoreVf → CoreVf) : (s.modVf c v f).islands = s.islands := rfl
@[simp] theorem State.modVf_root1 (s : State) (c v : Nat) (f : CoreVf → CoreVf) : (s.modVf c v f).root1 = s.root1 := rfl
@[simp] theorem State.modVf_root2 (s : State) (c v : Nat) (f : CoreVf → CoreVf) : (s.modVf c v f).root2 = s.root2 := rfl
@[simp] theorem State.modVf_ts (s : State) (c v : Nat) (f : CoreVf → CoreVf) : (s.modVf c v f).ts = s.ts := rfl
@[simp] theorem State.modVf_launches (s : State) (c v : Nat) (f : CoreVf → CoreVf) : (s.modVf c v f).launches = s.launches := rfl
@[simp] theorem State.modVf_nextLaunch (s : State) (c v : Nat) (f : CoreVf → CoreVf) : (s.modVf c v f).nextLaunch = s.nextLaunch := rfl
@[simp] theorem State.modVf_vqs (s : State) (c v : Nat) (f : CoreVf → CoreVf) : (s.modVf c v f).vqs = s.vqs := rfl
@[simp] theorem State.modVf_colls (s : State) (c v : Nat) (f : CoreVf → CoreVf) : (s.modVf c v f).colls = s.colls := rfl
@[simp] theorem State.modVf_saved (s : State) (c v : Nat) (f : CoreVf → CoreVf) : (s.modVf c v f).saved = s.saved := rfl
@[simp] theorem State.modVf_tcores (s : State) (c v : Nat) (f : CoreVf → CoreVf) : (s.modVf c v f).tcores = s.tcores := rfl
@[simp] theorem State.modVf_tmems (s : State) (c v : Nat) (f : CoreVf → CoreVf) : (s.modVf c v f).tmems = s.tmems := rfl
@[simp] theorem State.modVf_pf (s : State) (c v : Nat) (f : CoreVf → CoreVf) : (s.modVf c v f).pf = s.pf := rfl
@[simp] theorem State.modVf_vfb (s : State) (c v : Nat) (f : CoreVf → CoreVf) : (s.modVf c v f).vfb = s.vfb := rfl
@[simp] theorem State.modVf_latches (s : State) (c v : Nat) (f : CoreVf → CoreVf) : (s.modVf c v f).latches = s.latches := rfl
@[simp] theorem State.modVf_samples (s : State) (c v : Nat) (f : CoreVf → CoreVf) : (s.modVf c v f).samples = s.samples := rfl
@[simp] theorem State.modVf_sampled (s : State) (c v : Nat) (f : CoreVf → CoreVf) : (s.modVf c v f).sampled = s.sampled := rfl
@[simp] theorem State.modVf_pcselPend (s : State) (c v : Nat) (f : CoreVf → CoreVf) : (s.modVf c v f).pcselPend = s.pcselPend := rfl
@[simp] theorem State.modVf_trctlPend (s : State) (c v : Nat) (f : CoreVf → CoreVf) : (s.modVf c v f).trctlPend = s.trctlPend := rfl
@[simp] theorem State.modVf_events (s : State) (c v : Nat) (f : CoreVf → CoreVf) : (s.modVf c v f).events = s.events := rfl
@[simp] theorem State.modVf_band (s : State) (c v : Nat) (f : CoreVf → CoreVf) : (s.modVf c v f).band = s.band := rfl
@[simp] theorem State.modVf_lodge (s : State) (c v : Nat) (f : CoreVf → CoreVf) : (s.modVf c v f).lodge = s.lodge := rfl
@[simp] theorem State.modVf_linksRetired (s : State) (c v : Nat) (f : CoreVf → CoreVf) : (s.modVf c v f).linksRetired = s.linksRetired := rfl
@[simp] theorem State.modVf_lanesRepaired (s : State) (c v : Nat) (f : CoreVf → CoreVf) : (s.modVf c v f).lanesRepaired = s.lanesRepaired := rfl
@[simp] theorem State.modVf_ports (s : State) (c v : Nat) (f : CoreVf → CoreVf) : (s.modVf c v f).ports = s.ports := rfl
@[simp] theorem State.modVf_fabricOut (s : State) (c v : Nat) (f : CoreVf → CoreVf) : (s.modVf c v f).fabricOut = s.fabricOut := rfl
@[simp] theorem State.modVf_devOut (s : State) (c v : Nat) (f : CoreVf → CoreVf) : (s.modVf c v f).devOut = s.devOut := rfl
@[simp] theorem State.modVf_lastRead (s : State) (c v : Nat) (f : CoreVf → CoreVf) : (s.modVf c v f).lastRead = s.lastRead := rfl

/-! ## modBay -/

@[simp] theorem State.modBay_core (s : State) (c b : Nat) (f : Bay → Bay) : (s.modBay c b f).core = s.core := rfl
@[simp] theorem State.modBay_slot (s : State) (c b : Nat) (f : Bay → Bay) : (s.modBay c b f).slot = s.slot := rfl
@[simp] theorem State.modBay_agenda (s : State) (c b : Nat) (f : Bay → Bay) : (s.modBay c b f).agenda = s.agenda := rfl
@[simp] theorem State.modBay_fresh (s : State) (c b : Nat) (f : Bay → Bay) : (s.modBay c b f).fresh = s.fresh := rfl
@[simp] theorem State.modBay_now (s : State) (c b : Nat) (f : Bay → Bay) : (s.modBay c b f).now = s.now := rfl
@[simp] theorem State.modBay_slew (s : State) (c b : Nat) (f : Bay → Bay) : (s.modBay c b f).slew = s.slew := rfl
@[simp] theorem State.modBay_slewAt (s : State) (c b : Nat) (f : Bay → Bay) : (s.modBay c b f).slewAt = s.slewAt := rfl
@[simp] theorem State.modBay_copyOut (s : State) (c b : Nat) (f : Bay → Bay) : (s.modBay c b f).copyOut = s.copyOut := rfl
@[simp] theorem State.modBay_msix (s : State) (c b : Nat) (f : Bay → Bay) : (s.modBay c b f).msix = s.msix := rfl
@[simp] theorem State.modBay_mem (s : State) (c b : Nat) (f : Bay → Bay) : (s.modBay c b f).mem = s.mem := rfl
@[simp] theorem State.modBay_full (s : State) (c b : Nat) (f : Bay → Bay) : (s.modBay c b f).full = s.full := rfl
@[simp] theorem State.modBay_poison (s : State) (c b : Nat) (f : Bay → Bay) : (s.modBay c b f).poison = s.poison := rfl
@[simp] theorem State.modBay_hostMem (s : State) (c b : Nat) (f : Bay → Bay) : (s.modBay c b f).hostMem = s.hostMem := rfl
@[simp] theorem State.modBay_waiters (s : State) (c b : Nat) (f : Bay → Bay) : (s.modBay c b f).waiters = s.waiters := rfl
@[simp] theorem State.modBay_faultQ (s : State) (c b : Nat) (f : Bay → Bay) : (s.modBay c b f).faultQ = s.faultQ := rfl
@[simp] theorem State.modBay_unavail (s : State) (c b : Nat) (f : Bay → Bay) : (s.modBay c b f).unavail = s.unavail := rfl
@[simp] theorem State.modBay_clusters (s : State) (c b : Nat) (f : Bay → Bay) : (s.modBay c b f).clusters = s.clusters := rfl
@[simp] theorem State.modBay_dies (s : State) (c b : Nat) (f : Bay → Bay) : (s.modBay c b f).dies = s.dies := rfl
@[simp] theorem State.modBay_islands (s : State) (c b : Nat) (f : Bay → Bay) : (s.modBay c b f).islands = s.islands := rfl
@[simp] theorem State.modBay_root1 (s : State) (c b : Nat) (f : Bay → Bay) : (s.modBay c b f).root1 = s.root1 := rfl
@[simp] theorem State.modBay_root2 (s : State) (c b : Nat) (f : Bay → Bay) : (s.modBay c b f).root2 = s.root2 := rfl
@[simp] theorem State.modBay_ts (s : State) (c b : Nat) (f : Bay → Bay) : (s.modBay c b f).ts = s.ts := rfl
@[simp] theorem State.modBay_launches (s : State) (c b : Nat) (f : Bay → Bay) : (s.modBay c b f).launches = s.launches := rfl
@[simp] theorem State.modBay_nextLaunch (s : State) (c b : Nat) (f : Bay → Bay) : (s.modBay c b f).nextLaunch = s.nextLaunch := rfl
@[simp] theorem State.modBay_vqs (s : State) (c b : Nat) (f : Bay → Bay) : (s.modBay c b f).vqs = s.vqs := rfl
@[simp] theorem State.modBay_colls (s : State) (c b : Nat) (f : Bay → Bay) : (s.modBay c b f).colls = s.colls := rfl
@[simp] theorem State.modBay_saved (s : State) (c b : Nat) (f : Bay → Bay) : (s.modBay c b f).saved = s.saved := rfl
@[simp] theorem State.modBay_tcores (s : State) (c b : Nat) (f : Bay → Bay) : (s.modBay c b f).tcores = s.tcores := rfl
@[simp] theorem State.modBay_tmems (s : State) (c b : Nat) (f : Bay → Bay) : (s.modBay c b f).tmems = s.tmems := rfl
@[simp] theorem State.modBay_pf (s : State) (c b : Nat) (f : Bay → Bay) : (s.modBay c b f).pf = s.pf := rfl
@[simp] theorem State.modBay_vfb (s : State) (c b : Nat) (f : Bay → Bay) : (s.modBay c b f).vfb = s.vfb := rfl
@[simp] theorem State.modBay_latches (s : State) (c b : Nat) (f : Bay → Bay) : (s.modBay c b f).latches = s.latches := rfl
@[simp] theorem State.modBay_samples (s : State) (c b : Nat) (f : Bay → Bay) : (s.modBay c b f).samples = s.samples := rfl
@[simp] theorem State.modBay_sampled (s : State) (c b : Nat) (f : Bay → Bay) : (s.modBay c b f).sampled = s.sampled := rfl
@[simp] theorem State.modBay_pcselPend (s : State) (c b : Nat) (f : Bay → Bay) : (s.modBay c b f).pcselPend = s.pcselPend := rfl
@[simp] theorem State.modBay_trctlPend (s : State) (c b : Nat) (f : Bay → Bay) : (s.modBay c b f).trctlPend = s.trctlPend := rfl
@[simp] theorem State.modBay_events (s : State) (c b : Nat) (f : Bay → Bay) : (s.modBay c b f).events = s.events := rfl
@[simp] theorem State.modBay_band (s : State) (c b : Nat) (f : Bay → Bay) : (s.modBay c b f).band = s.band := rfl
@[simp] theorem State.modBay_lodge (s : State) (c b : Nat) (f : Bay → Bay) : (s.modBay c b f).lodge = s.lodge := rfl
@[simp] theorem State.modBay_linksRetired (s : State) (c b : Nat) (f : Bay → Bay) : (s.modBay c b f).linksRetired = s.linksRetired := rfl
@[simp] theorem State.modBay_lanesRepaired (s : State) (c b : Nat) (f : Bay → Bay) : (s.modBay c b f).lanesRepaired = s.lanesRepaired := rfl
@[simp] theorem State.modBay_ports (s : State) (c b : Nat) (f : Bay → Bay) : (s.modBay c b f).ports = s.ports := rfl
@[simp] theorem State.modBay_fabricOut (s : State) (c b : Nat) (f : Bay → Bay) : (s.modBay c b f).fabricOut = s.fabricOut := rfl
@[simp] theorem State.modBay_devOut (s : State) (c b : Nat) (f : Bay → Bay) : (s.modBay c b f).devOut = s.devOut := rfl
@[simp] theorem State.modBay_lastRead (s : State) (c b : Nat) (f : Bay → Bay) : (s.modBay c b f).lastRead = s.lastRead := rfl

/-! ## modAcc -/

@[simp] theorem State.modAcc_core (s : State) (c a : Nat) (f : Acc → Acc) : (s.modAcc c a f).core = s.core := rfl
@[simp] theorem State.modAcc_slot (s : State) (c a : Nat) (f : Acc → Acc) : (s.modAcc c a f).slot = s.slot := rfl
@[simp] theorem State.modAcc_agenda (s : State) (c a : Nat) (f : Acc → Acc) : (s.modAcc c a f).agenda = s.agenda := rfl
@[simp] theorem State.modAcc_fresh (s : State) (c a : Nat) (f : Acc → Acc) : (s.modAcc c a f).fresh = s.fresh := rfl
@[simp] theorem State.modAcc_now (s : State) (c a : Nat) (f : Acc → Acc) : (s.modAcc c a f).now = s.now := rfl
@[simp] theorem State.modAcc_slew (s : State) (c a : Nat) (f : Acc → Acc) : (s.modAcc c a f).slew = s.slew := rfl
@[simp] theorem State.modAcc_slewAt (s : State) (c a : Nat) (f : Acc → Acc) : (s.modAcc c a f).slewAt = s.slewAt := rfl
@[simp] theorem State.modAcc_copyOut (s : State) (c a : Nat) (f : Acc → Acc) : (s.modAcc c a f).copyOut = s.copyOut := rfl
@[simp] theorem State.modAcc_msix (s : State) (c a : Nat) (f : Acc → Acc) : (s.modAcc c a f).msix = s.msix := rfl
@[simp] theorem State.modAcc_mem (s : State) (c a : Nat) (f : Acc → Acc) : (s.modAcc c a f).mem = s.mem := rfl
@[simp] theorem State.modAcc_full (s : State) (c a : Nat) (f : Acc → Acc) : (s.modAcc c a f).full = s.full := rfl
@[simp] theorem State.modAcc_poison (s : State) (c a : Nat) (f : Acc → Acc) : (s.modAcc c a f).poison = s.poison := rfl
@[simp] theorem State.modAcc_hostMem (s : State) (c a : Nat) (f : Acc → Acc) : (s.modAcc c a f).hostMem = s.hostMem := rfl
@[simp] theorem State.modAcc_waiters (s : State) (c a : Nat) (f : Acc → Acc) : (s.modAcc c a f).waiters = s.waiters := rfl
@[simp] theorem State.modAcc_faultQ (s : State) (c a : Nat) (f : Acc → Acc) : (s.modAcc c a f).faultQ = s.faultQ := rfl
@[simp] theorem State.modAcc_unavail (s : State) (c a : Nat) (f : Acc → Acc) : (s.modAcc c a f).unavail = s.unavail := rfl
@[simp] theorem State.modAcc_clusters (s : State) (c a : Nat) (f : Acc → Acc) : (s.modAcc c a f).clusters = s.clusters := rfl
@[simp] theorem State.modAcc_dies (s : State) (c a : Nat) (f : Acc → Acc) : (s.modAcc c a f).dies = s.dies := rfl
@[simp] theorem State.modAcc_islands (s : State) (c a : Nat) (f : Acc → Acc) : (s.modAcc c a f).islands = s.islands := rfl
@[simp] theorem State.modAcc_root1 (s : State) (c a : Nat) (f : Acc → Acc) : (s.modAcc c a f).root1 = s.root1 := rfl
@[simp] theorem State.modAcc_root2 (s : State) (c a : Nat) (f : Acc → Acc) : (s.modAcc c a f).root2 = s.root2 := rfl
@[simp] theorem State.modAcc_ts (s : State) (c a : Nat) (f : Acc → Acc) : (s.modAcc c a f).ts = s.ts := rfl
@[simp] theorem State.modAcc_launches (s : State) (c a : Nat) (f : Acc → Acc) : (s.modAcc c a f).launches = s.launches := rfl
@[simp] theorem State.modAcc_nextLaunch (s : State) (c a : Nat) (f : Acc → Acc) : (s.modAcc c a f).nextLaunch = s.nextLaunch := rfl
@[simp] theorem State.modAcc_vqs (s : State) (c a : Nat) (f : Acc → Acc) : (s.modAcc c a f).vqs = s.vqs := rfl
@[simp] theorem State.modAcc_colls (s : State) (c a : Nat) (f : Acc → Acc) : (s.modAcc c a f).colls = s.colls := rfl
@[simp] theorem State.modAcc_saved (s : State) (c a : Nat) (f : Acc → Acc) : (s.modAcc c a f).saved = s.saved := rfl
@[simp] theorem State.modAcc_tcores (s : State) (c a : Nat) (f : Acc → Acc) : (s.modAcc c a f).tcores = s.tcores := rfl
@[simp] theorem State.modAcc_tmems (s : State) (c a : Nat) (f : Acc → Acc) : (s.modAcc c a f).tmems = s.tmems := rfl
@[simp] theorem State.modAcc_pf (s : State) (c a : Nat) (f : Acc → Acc) : (s.modAcc c a f).pf = s.pf := rfl
@[simp] theorem State.modAcc_vfb (s : State) (c a : Nat) (f : Acc → Acc) : (s.modAcc c a f).vfb = s.vfb := rfl
@[simp] theorem State.modAcc_latches (s : State) (c a : Nat) (f : Acc → Acc) : (s.modAcc c a f).latches = s.latches := rfl
@[simp] theorem State.modAcc_samples (s : State) (c a : Nat) (f : Acc → Acc) : (s.modAcc c a f).samples = s.samples := rfl
@[simp] theorem State.modAcc_sampled (s : State) (c a : Nat) (f : Acc → Acc) : (s.modAcc c a f).sampled = s.sampled := rfl
@[simp] theorem State.modAcc_pcselPend (s : State) (c a : Nat) (f : Acc → Acc) : (s.modAcc c a f).pcselPend = s.pcselPend := rfl
@[simp] theorem State.modAcc_trctlPend (s : State) (c a : Nat) (f : Acc → Acc) : (s.modAcc c a f).trctlPend = s.trctlPend := rfl
@[simp] theorem State.modAcc_events (s : State) (c a : Nat) (f : Acc → Acc) : (s.modAcc c a f).events = s.events := rfl
@[simp] theorem State.modAcc_band (s : State) (c a : Nat) (f : Acc → Acc) : (s.modAcc c a f).band = s.band := rfl
@[simp] theorem State.modAcc_lodge (s : State) (c a : Nat) (f : Acc → Acc) : (s.modAcc c a f).lodge = s.lodge := rfl
@[simp] theorem State.modAcc_linksRetired (s : State) (c a : Nat) (f : Acc → Acc) : (s.modAcc c a f).linksRetired = s.linksRetired := rfl
@[simp] theorem State.modAcc_lanesRepaired (s : State) (c a : Nat) (f : Acc → Acc) : (s.modAcc c a f).lanesRepaired = s.lanesRepaired := rfl
@[simp] theorem State.modAcc_ports (s : State) (c a : Nat) (f : Acc → Acc) : (s.modAcc c a f).ports = s.ports := rfl
@[simp] theorem State.modAcc_fabricOut (s : State) (c a : Nat) (f : Acc → Acc) : (s.modAcc c a f).fabricOut = s.fabricOut := rfl
@[simp] theorem State.modAcc_devOut (s : State) (c a : Nat) (f : Acc → Acc) : (s.modAcc c a f).devOut = s.devOut := rfl
@[simp] theorem State.modAcc_lastRead (s : State) (c a : Nat) (f : Acc → Acc) : (s.modAcc c a f).lastRead = s.lastRead := rfl

/-! ## modDie -/

@[simp] theorem State.modDie_core (s : State) (d : Nat) (f : Die → Die) : (s.modDie d f).core = s.core := rfl
@[simp] theorem State.modDie_slot (s : State) (d : Nat) (f : Die → Die) : (s.modDie d f).slot = s.slot := rfl
@[simp] theorem State.modDie_agenda (s : State) (d : Nat) (f : Die → Die) : (s.modDie d f).agenda = s.agenda := rfl
@[simp] theorem State.modDie_fresh (s : State) (d : Nat) (f : Die → Die) : (s.modDie d f).fresh = s.fresh := rfl
@[simp] theorem State.modDie_now (s : State) (d : Nat) (f : Die → Die) : (s.modDie d f).now = s.now := rfl
@[simp] theorem State.modDie_slew (s : State) (d : Nat) (f : Die → Die) : (s.modDie d f).slew = s.slew := rfl
@[simp] theorem State.modDie_slewAt (s : State) (d : Nat) (f : Die → Die) : (s.modDie d f).slewAt = s.slewAt := rfl
@[simp] theorem State.modDie_copyOut (s : State) (d : Nat) (f : Die → Die) : (s.modDie d f).copyOut = s.copyOut := rfl
@[simp] theorem State.modDie_msix (s : State) (d : Nat) (f : Die → Die) : (s.modDie d f).msix = s.msix := rfl
@[simp] theorem State.modDie_mem (s : State) (d : Nat) (f : Die → Die) : (s.modDie d f).mem = s.mem := rfl
@[simp] theorem State.modDie_full (s : State) (d : Nat) (f : Die → Die) : (s.modDie d f).full = s.full := rfl
@[simp] theorem State.modDie_poison (s : State) (d : Nat) (f : Die → Die) : (s.modDie d f).poison = s.poison := rfl
@[simp] theorem State.modDie_hostMem (s : State) (d : Nat) (f : Die → Die) : (s.modDie d f).hostMem = s.hostMem := rfl
@[simp] theorem State.modDie_waiters (s : State) (d : Nat) (f : Die → Die) : (s.modDie d f).waiters = s.waiters := rfl
@[simp] theorem State.modDie_faultQ (s : State) (d : Nat) (f : Die → Die) : (s.modDie d f).faultQ = s.faultQ := rfl
@[simp] theorem State.modDie_unavail (s : State) (d : Nat) (f : Die → Die) : (s.modDie d f).unavail = s.unavail := rfl
@[simp] theorem State.modDie_cores (s : State) (d : Nat) (f : Die → Die) : (s.modDie d f).cores = s.cores := rfl
@[simp] theorem State.modDie_clusters (s : State) (d : Nat) (f : Die → Die) : (s.modDie d f).clusters = s.clusters := rfl
@[simp] theorem State.modDie_islands (s : State) (d : Nat) (f : Die → Die) : (s.modDie d f).islands = s.islands := rfl
@[simp] theorem State.modDie_root1 (s : State) (d : Nat) (f : Die → Die) : (s.modDie d f).root1 = s.root1 := rfl
@[simp] theorem State.modDie_root2 (s : State) (d : Nat) (f : Die → Die) : (s.modDie d f).root2 = s.root2 := rfl
@[simp] theorem State.modDie_ts (s : State) (d : Nat) (f : Die → Die) : (s.modDie d f).ts = s.ts := rfl
@[simp] theorem State.modDie_launches (s : State) (d : Nat) (f : Die → Die) : (s.modDie d f).launches = s.launches := rfl
@[simp] theorem State.modDie_nextLaunch (s : State) (d : Nat) (f : Die → Die) : (s.modDie d f).nextLaunch = s.nextLaunch := rfl
@[simp] theorem State.modDie_vqs (s : State) (d : Nat) (f : Die → Die) : (s.modDie d f).vqs = s.vqs := rfl
@[simp] theorem State.modDie_colls (s : State) (d : Nat) (f : Die → Die) : (s.modDie d f).colls = s.colls := rfl
@[simp] theorem State.modDie_saved (s : State) (d : Nat) (f : Die → Die) : (s.modDie d f).saved = s.saved := rfl
@[simp] theorem State.modDie_tcores (s : State) (d : Nat) (f : Die → Die) : (s.modDie d f).tcores = s.tcores := rfl
@[simp] theorem State.modDie_tmems (s : State) (d : Nat) (f : Die → Die) : (s.modDie d f).tmems = s.tmems := rfl
@[simp] theorem State.modDie_pf (s : State) (d : Nat) (f : Die → Die) : (s.modDie d f).pf = s.pf := rfl
@[simp] theorem State.modDie_vfb (s : State) (d : Nat) (f : Die → Die) : (s.modDie d f).vfb = s.vfb := rfl
@[simp] theorem State.modDie_latches (s : State) (d : Nat) (f : Die → Die) : (s.modDie d f).latches = s.latches := rfl
@[simp] theorem State.modDie_samples (s : State) (d : Nat) (f : Die → Die) : (s.modDie d f).samples = s.samples := rfl
@[simp] theorem State.modDie_sampled (s : State) (d : Nat) (f : Die → Die) : (s.modDie d f).sampled = s.sampled := rfl
@[simp] theorem State.modDie_pcselPend (s : State) (d : Nat) (f : Die → Die) : (s.modDie d f).pcselPend = s.pcselPend := rfl
@[simp] theorem State.modDie_trctlPend (s : State) (d : Nat) (f : Die → Die) : (s.modDie d f).trctlPend = s.trctlPend := rfl
@[simp] theorem State.modDie_events (s : State) (d : Nat) (f : Die → Die) : (s.modDie d f).events = s.events := rfl
@[simp] theorem State.modDie_band (s : State) (d : Nat) (f : Die → Die) : (s.modDie d f).band = s.band := rfl
@[simp] theorem State.modDie_lodge (s : State) (d : Nat) (f : Die → Die) : (s.modDie d f).lodge = s.lodge := rfl
@[simp] theorem State.modDie_linksRetired (s : State) (d : Nat) (f : Die → Die) : (s.modDie d f).linksRetired = s.linksRetired := rfl
@[simp] theorem State.modDie_lanesRepaired (s : State) (d : Nat) (f : Die → Die) : (s.modDie d f).lanesRepaired = s.lanesRepaired := rfl
@[simp] theorem State.modDie_ports (s : State) (d : Nat) (f : Die → Die) : (s.modDie d f).ports = s.ports := rfl
@[simp] theorem State.modDie_fabricOut (s : State) (d : Nat) (f : Die → Die) : (s.modDie d f).fabricOut = s.fabricOut := rfl
@[simp] theorem State.modDie_devOut (s : State) (d : Nat) (f : Die → Die) : (s.modDie d f).devOut = s.devOut := rfl
@[simp] theorem State.modDie_lastRead (s : State) (d : Nat) (f : Die → Die) : (s.modDie d f).lastRead = s.lastRead := rfl

/-! ## modClus -/

@[simp] theorem State.modClus_core (s : State) (c : Nat) (f : Cluster → Cluster) : (s.modClus c f).core = s.core := rfl
@[simp] theorem State.modClus_slot (s : State) (c : Nat) (f : Cluster → Cluster) : (s.modClus c f).slot = s.slot := rfl
@[simp] theorem State.modClus_agenda (s : State) (c : Nat) (f : Cluster → Cluster) : (s.modClus c f).agenda = s.agenda := rfl
@[simp] theorem State.modClus_fresh (s : State) (c : Nat) (f : Cluster → Cluster) : (s.modClus c f).fresh = s.fresh := rfl
@[simp] theorem State.modClus_now (s : State) (c : Nat) (f : Cluster → Cluster) : (s.modClus c f).now = s.now := rfl
@[simp] theorem State.modClus_slew (s : State) (c : Nat) (f : Cluster → Cluster) : (s.modClus c f).slew = s.slew := rfl
@[simp] theorem State.modClus_slewAt (s : State) (c : Nat) (f : Cluster → Cluster) : (s.modClus c f).slewAt = s.slewAt := rfl
@[simp] theorem State.modClus_copyOut (s : State) (c : Nat) (f : Cluster → Cluster) : (s.modClus c f).copyOut = s.copyOut := rfl
@[simp] theorem State.modClus_msix (s : State) (c : Nat) (f : Cluster → Cluster) : (s.modClus c f).msix = s.msix := rfl
@[simp] theorem State.modClus_mem (s : State) (c : Nat) (f : Cluster → Cluster) : (s.modClus c f).mem = s.mem := rfl
@[simp] theorem State.modClus_full (s : State) (c : Nat) (f : Cluster → Cluster) : (s.modClus c f).full = s.full := rfl
@[simp] theorem State.modClus_poison (s : State) (c : Nat) (f : Cluster → Cluster) : (s.modClus c f).poison = s.poison := rfl
@[simp] theorem State.modClus_hostMem (s : State) (c : Nat) (f : Cluster → Cluster) : (s.modClus c f).hostMem = s.hostMem := rfl
@[simp] theorem State.modClus_waiters (s : State) (c : Nat) (f : Cluster → Cluster) : (s.modClus c f).waiters = s.waiters := rfl
@[simp] theorem State.modClus_faultQ (s : State) (c : Nat) (f : Cluster → Cluster) : (s.modClus c f).faultQ = s.faultQ := rfl
@[simp] theorem State.modClus_unavail (s : State) (c : Nat) (f : Cluster → Cluster) : (s.modClus c f).unavail = s.unavail := rfl
@[simp] theorem State.modClus_cores (s : State) (c : Nat) (f : Cluster → Cluster) : (s.modClus c f).cores = s.cores := rfl
@[simp] theorem State.modClus_dies (s : State) (c : Nat) (f : Cluster → Cluster) : (s.modClus c f).dies = s.dies := rfl
@[simp] theorem State.modClus_islands (s : State) (c : Nat) (f : Cluster → Cluster) : (s.modClus c f).islands = s.islands := rfl
@[simp] theorem State.modClus_root1 (s : State) (c : Nat) (f : Cluster → Cluster) : (s.modClus c f).root1 = s.root1 := rfl
@[simp] theorem State.modClus_root2 (s : State) (c : Nat) (f : Cluster → Cluster) : (s.modClus c f).root2 = s.root2 := rfl
@[simp] theorem State.modClus_ts (s : State) (c : Nat) (f : Cluster → Cluster) : (s.modClus c f).ts = s.ts := rfl
@[simp] theorem State.modClus_launches (s : State) (c : Nat) (f : Cluster → Cluster) : (s.modClus c f).launches = s.launches := rfl
@[simp] theorem State.modClus_nextLaunch (s : State) (c : Nat) (f : Cluster → Cluster) : (s.modClus c f).nextLaunch = s.nextLaunch := rfl
@[simp] theorem State.modClus_vqs (s : State) (c : Nat) (f : Cluster → Cluster) : (s.modClus c f).vqs = s.vqs := rfl
@[simp] theorem State.modClus_colls (s : State) (c : Nat) (f : Cluster → Cluster) : (s.modClus c f).colls = s.colls := rfl
@[simp] theorem State.modClus_saved (s : State) (c : Nat) (f : Cluster → Cluster) : (s.modClus c f).saved = s.saved := rfl
@[simp] theorem State.modClus_tcores (s : State) (c : Nat) (f : Cluster → Cluster) : (s.modClus c f).tcores = s.tcores := rfl
@[simp] theorem State.modClus_tmems (s : State) (c : Nat) (f : Cluster → Cluster) : (s.modClus c f).tmems = s.tmems := rfl
@[simp] theorem State.modClus_pf (s : State) (c : Nat) (f : Cluster → Cluster) : (s.modClus c f).pf = s.pf := rfl
@[simp] theorem State.modClus_vfb (s : State) (c : Nat) (f : Cluster → Cluster) : (s.modClus c f).vfb = s.vfb := rfl
@[simp] theorem State.modClus_latches (s : State) (c : Nat) (f : Cluster → Cluster) : (s.modClus c f).latches = s.latches := rfl
@[simp] theorem State.modClus_samples (s : State) (c : Nat) (f : Cluster → Cluster) : (s.modClus c f).samples = s.samples := rfl
@[simp] theorem State.modClus_sampled (s : State) (c : Nat) (f : Cluster → Cluster) : (s.modClus c f).sampled = s.sampled := rfl
@[simp] theorem State.modClus_pcselPend (s : State) (c : Nat) (f : Cluster → Cluster) : (s.modClus c f).pcselPend = s.pcselPend := rfl
@[simp] theorem State.modClus_trctlPend (s : State) (c : Nat) (f : Cluster → Cluster) : (s.modClus c f).trctlPend = s.trctlPend := rfl
@[simp] theorem State.modClus_events (s : State) (c : Nat) (f : Cluster → Cluster) : (s.modClus c f).events = s.events := rfl
@[simp] theorem State.modClus_band (s : State) (c : Nat) (f : Cluster → Cluster) : (s.modClus c f).band = s.band := rfl
@[simp] theorem State.modClus_lodge (s : State) (c : Nat) (f : Cluster → Cluster) : (s.modClus c f).lodge = s.lodge := rfl
@[simp] theorem State.modClus_linksRetired (s : State) (c : Nat) (f : Cluster → Cluster) : (s.modClus c f).linksRetired = s.linksRetired := rfl
@[simp] theorem State.modClus_lanesRepaired (s : State) (c : Nat) (f : Cluster → Cluster) : (s.modClus c f).lanesRepaired = s.lanesRepaired := rfl
@[simp] theorem State.modClus_ports (s : State) (c : Nat) (f : Cluster → Cluster) : (s.modClus c f).ports = s.ports := rfl
@[simp] theorem State.modClus_fabricOut (s : State) (c : Nat) (f : Cluster → Cluster) : (s.modClus c f).fabricOut = s.fabricOut := rfl
@[simp] theorem State.modClus_devOut (s : State) (c : Nat) (f : Cluster → Cluster) : (s.modClus c f).devOut = s.devOut := rfl
@[simp] theorem State.modClus_lastRead (s : State) (c : Nat) (f : Cluster → Cluster) : (s.modClus c f).lastRead = s.lastRead := rfl

/-! ## modIsl -/

@[simp] theorem State.modIsl_core (s : State) (i : Nat) (f : Island → Island) : (s.modIsl i f).core = s.core := rfl
@[simp] theorem State.modIsl_slot (s : State) (i : Nat) (f : Island → Island) : (s.modIsl i f).slot = s.slot := rfl
@[simp] theorem State.modIsl_agenda (s : State) (i : Nat) (f : Island → Island) : (s.modIsl i f).agenda = s.agenda := rfl
@[simp] theorem State.modIsl_fresh (s : State) (i : Nat) (f : Island → Island) : (s.modIsl i f).fresh = s.fresh := rfl
@[simp] theorem State.modIsl_now (s : State) (i : Nat) (f : Island → Island) : (s.modIsl i f).now = s.now := rfl
@[simp] theorem State.modIsl_slew (s : State) (i : Nat) (f : Island → Island) : (s.modIsl i f).slew = s.slew := rfl
@[simp] theorem State.modIsl_slewAt (s : State) (i : Nat) (f : Island → Island) : (s.modIsl i f).slewAt = s.slewAt := rfl
@[simp] theorem State.modIsl_copyOut (s : State) (i : Nat) (f : Island → Island) : (s.modIsl i f).copyOut = s.copyOut := rfl
@[simp] theorem State.modIsl_msix (s : State) (i : Nat) (f : Island → Island) : (s.modIsl i f).msix = s.msix := rfl
@[simp] theorem State.modIsl_mem (s : State) (i : Nat) (f : Island → Island) : (s.modIsl i f).mem = s.mem := rfl
@[simp] theorem State.modIsl_full (s : State) (i : Nat) (f : Island → Island) : (s.modIsl i f).full = s.full := rfl
@[simp] theorem State.modIsl_poison (s : State) (i : Nat) (f : Island → Island) : (s.modIsl i f).poison = s.poison := rfl
@[simp] theorem State.modIsl_hostMem (s : State) (i : Nat) (f : Island → Island) : (s.modIsl i f).hostMem = s.hostMem := rfl
@[simp] theorem State.modIsl_waiters (s : State) (i : Nat) (f : Island → Island) : (s.modIsl i f).waiters = s.waiters := rfl
@[simp] theorem State.modIsl_faultQ (s : State) (i : Nat) (f : Island → Island) : (s.modIsl i f).faultQ = s.faultQ := rfl
@[simp] theorem State.modIsl_unavail (s : State) (i : Nat) (f : Island → Island) : (s.modIsl i f).unavail = s.unavail := rfl
@[simp] theorem State.modIsl_cores (s : State) (i : Nat) (f : Island → Island) : (s.modIsl i f).cores = s.cores := rfl
@[simp] theorem State.modIsl_clusters (s : State) (i : Nat) (f : Island → Island) : (s.modIsl i f).clusters = s.clusters := rfl
@[simp] theorem State.modIsl_dies (s : State) (i : Nat) (f : Island → Island) : (s.modIsl i f).dies = s.dies := rfl
@[simp] theorem State.modIsl_root1 (s : State) (i : Nat) (f : Island → Island) : (s.modIsl i f).root1 = s.root1 := rfl
@[simp] theorem State.modIsl_root2 (s : State) (i : Nat) (f : Island → Island) : (s.modIsl i f).root2 = s.root2 := rfl
@[simp] theorem State.modIsl_ts (s : State) (i : Nat) (f : Island → Island) : (s.modIsl i f).ts = s.ts := rfl
@[simp] theorem State.modIsl_launches (s : State) (i : Nat) (f : Island → Island) : (s.modIsl i f).launches = s.launches := rfl
@[simp] theorem State.modIsl_nextLaunch (s : State) (i : Nat) (f : Island → Island) : (s.modIsl i f).nextLaunch = s.nextLaunch := rfl
@[simp] theorem State.modIsl_vqs (s : State) (i : Nat) (f : Island → Island) : (s.modIsl i f).vqs = s.vqs := rfl
@[simp] theorem State.modIsl_colls (s : State) (i : Nat) (f : Island → Island) : (s.modIsl i f).colls = s.colls := rfl
@[simp] theorem State.modIsl_saved (s : State) (i : Nat) (f : Island → Island) : (s.modIsl i f).saved = s.saved := rfl
@[simp] theorem State.modIsl_tcores (s : State) (i : Nat) (f : Island → Island) : (s.modIsl i f).tcores = s.tcores := rfl
@[simp] theorem State.modIsl_tmems (s : State) (i : Nat) (f : Island → Island) : (s.modIsl i f).tmems = s.tmems := rfl
@[simp] theorem State.modIsl_pf (s : State) (i : Nat) (f : Island → Island) : (s.modIsl i f).pf = s.pf := rfl
@[simp] theorem State.modIsl_vfb (s : State) (i : Nat) (f : Island → Island) : (s.modIsl i f).vfb = s.vfb := rfl
@[simp] theorem State.modIsl_latches (s : State) (i : Nat) (f : Island → Island) : (s.modIsl i f).latches = s.latches := rfl
@[simp] theorem State.modIsl_samples (s : State) (i : Nat) (f : Island → Island) : (s.modIsl i f).samples = s.samples := rfl
@[simp] theorem State.modIsl_sampled (s : State) (i : Nat) (f : Island → Island) : (s.modIsl i f).sampled = s.sampled := rfl
@[simp] theorem State.modIsl_pcselPend (s : State) (i : Nat) (f : Island → Island) : (s.modIsl i f).pcselPend = s.pcselPend := rfl
@[simp] theorem State.modIsl_trctlPend (s : State) (i : Nat) (f : Island → Island) : (s.modIsl i f).trctlPend = s.trctlPend := rfl
@[simp] theorem State.modIsl_events (s : State) (i : Nat) (f : Island → Island) : (s.modIsl i f).events = s.events := rfl
@[simp] theorem State.modIsl_band (s : State) (i : Nat) (f : Island → Island) : (s.modIsl i f).band = s.band := rfl
@[simp] theorem State.modIsl_lodge (s : State) (i : Nat) (f : Island → Island) : (s.modIsl i f).lodge = s.lodge := rfl
@[simp] theorem State.modIsl_linksRetired (s : State) (i : Nat) (f : Island → Island) : (s.modIsl i f).linksRetired = s.linksRetired := rfl
@[simp] theorem State.modIsl_lanesRepaired (s : State) (i : Nat) (f : Island → Island) : (s.modIsl i f).lanesRepaired = s.lanesRepaired := rfl
@[simp] theorem State.modIsl_ports (s : State) (i : Nat) (f : Island → Island) : (s.modIsl i f).ports = s.ports := rfl
@[simp] theorem State.modIsl_fabricOut (s : State) (i : Nat) (f : Island → Island) : (s.modIsl i f).fabricOut = s.fabricOut := rfl
@[simp] theorem State.modIsl_devOut (s : State) (i : Nat) (f : Island → Island) : (s.modIsl i f).devOut = s.devOut := rfl
@[simp] theorem State.modIsl_lastRead (s : State) (i : Nat) (f : Island → Island) : (s.modIsl i f).lastRead = s.lastRead := rfl

/-! ## setPf -/

@[simp] theorem State.setPf_core (s : State) (off : Nat) (v : Word) : (s.setPf off v).core = s.core := rfl
@[simp] theorem State.setPf_slot (s : State) (off : Nat) (v : Word) : (s.setPf off v).slot = s.slot := rfl
@[simp] theorem State.setPf_agenda (s : State) (off : Nat) (v : Word) : (s.setPf off v).agenda = s.agenda := rfl
@[simp] theorem State.setPf_fresh (s : State) (off : Nat) (v : Word) : (s.setPf off v).fresh = s.fresh := rfl
@[simp] theorem State.setPf_now (s : State) (off : Nat) (v : Word) : (s.setPf off v).now = s.now := rfl
@[simp] theorem State.setPf_slew (s : State) (off : Nat) (v : Word) : (s.setPf off v).slew = s.slew := rfl
@[simp] theorem State.setPf_slewAt (s : State) (off : Nat) (v : Word) : (s.setPf off v).slewAt = s.slewAt := rfl
@[simp] theorem State.setPf_copyOut (s : State) (off : Nat) (v : Word) : (s.setPf off v).copyOut = s.copyOut := rfl
@[simp] theorem State.setPf_msix (s : State) (off : Nat) (v : Word) : (s.setPf off v).msix = s.msix := rfl
@[simp] theorem State.setPf_mem (s : State) (off : Nat) (v : Word) : (s.setPf off v).mem = s.mem := rfl
@[simp] theorem State.setPf_full (s : State) (off : Nat) (v : Word) : (s.setPf off v).full = s.full := rfl
@[simp] theorem State.setPf_poison (s : State) (off : Nat) (v : Word) : (s.setPf off v).poison = s.poison := rfl
@[simp] theorem State.setPf_hostMem (s : State) (off : Nat) (v : Word) : (s.setPf off v).hostMem = s.hostMem := rfl
@[simp] theorem State.setPf_waiters (s : State) (off : Nat) (v : Word) : (s.setPf off v).waiters = s.waiters := rfl
@[simp] theorem State.setPf_faultQ (s : State) (off : Nat) (v : Word) : (s.setPf off v).faultQ = s.faultQ := rfl
@[simp] theorem State.setPf_unavail (s : State) (off : Nat) (v : Word) : (s.setPf off v).unavail = s.unavail := rfl
@[simp] theorem State.setPf_cores (s : State) (off : Nat) (v : Word) : (s.setPf off v).cores = s.cores := rfl
@[simp] theorem State.setPf_clusters (s : State) (off : Nat) (v : Word) : (s.setPf off v).clusters = s.clusters := rfl
@[simp] theorem State.setPf_dies (s : State) (off : Nat) (v : Word) : (s.setPf off v).dies = s.dies := rfl
@[simp] theorem State.setPf_islands (s : State) (off : Nat) (v : Word) : (s.setPf off v).islands = s.islands := rfl
@[simp] theorem State.setPf_root1 (s : State) (off : Nat) (v : Word) : (s.setPf off v).root1 = s.root1 := rfl
@[simp] theorem State.setPf_root2 (s : State) (off : Nat) (v : Word) : (s.setPf off v).root2 = s.root2 := rfl
@[simp] theorem State.setPf_ts (s : State) (off : Nat) (v : Word) : (s.setPf off v).ts = s.ts := rfl
@[simp] theorem State.setPf_launches (s : State) (off : Nat) (v : Word) : (s.setPf off v).launches = s.launches := rfl
@[simp] theorem State.setPf_nextLaunch (s : State) (off : Nat) (v : Word) : (s.setPf off v).nextLaunch = s.nextLaunch := rfl
@[simp] theorem State.setPf_vqs (s : State) (off : Nat) (v : Word) : (s.setPf off v).vqs = s.vqs := rfl
@[simp] theorem State.setPf_colls (s : State) (off : Nat) (v : Word) : (s.setPf off v).colls = s.colls := rfl
@[simp] theorem State.setPf_saved (s : State) (off : Nat) (v : Word) : (s.setPf off v).saved = s.saved := rfl
@[simp] theorem State.setPf_tcores (s : State) (off : Nat) (v : Word) : (s.setPf off v).tcores = s.tcores := rfl
@[simp] theorem State.setPf_tmems (s : State) (off : Nat) (v : Word) : (s.setPf off v).tmems = s.tmems := rfl
@[simp] theorem State.setPf_vfb (s : State) (off : Nat) (v : Word) : (s.setPf off v).vfb = s.vfb := rfl
@[simp] theorem State.setPf_latches (s : State) (off : Nat) (v : Word) : (s.setPf off v).latches = s.latches := rfl
@[simp] theorem State.setPf_samples (s : State) (off : Nat) (v : Word) : (s.setPf off v).samples = s.samples := rfl
@[simp] theorem State.setPf_sampled (s : State) (off : Nat) (v : Word) : (s.setPf off v).sampled = s.sampled := rfl
@[simp] theorem State.setPf_pcselPend (s : State) (off : Nat) (v : Word) : (s.setPf off v).pcselPend = s.pcselPend := rfl
@[simp] theorem State.setPf_trctlPend (s : State) (off : Nat) (v : Word) : (s.setPf off v).trctlPend = s.trctlPend := rfl
@[simp] theorem State.setPf_events (s : State) (off : Nat) (v : Word) : (s.setPf off v).events = s.events := rfl
@[simp] theorem State.setPf_band (s : State) (off : Nat) (v : Word) : (s.setPf off v).band = s.band := rfl
@[simp] theorem State.setPf_lodge (s : State) (off : Nat) (v : Word) : (s.setPf off v).lodge = s.lodge := rfl
@[simp] theorem State.setPf_linksRetired (s : State) (off : Nat) (v : Word) : (s.setPf off v).linksRetired = s.linksRetired := rfl
@[simp] theorem State.setPf_lanesRepaired (s : State) (off : Nat) (v : Word) : (s.setPf off v).lanesRepaired = s.lanesRepaired := rfl
@[simp] theorem State.setPf_ports (s : State) (off : Nat) (v : Word) : (s.setPf off v).ports = s.ports := rfl
@[simp] theorem State.setPf_fabricOut (s : State) (off : Nat) (v : Word) : (s.setPf off v).fabricOut = s.fabricOut := rfl
@[simp] theorem State.setPf_devOut (s : State) (off : Nat) (v : Word) : (s.setPf off v).devOut = s.devOut := rfl
@[simp] theorem State.setPf_lastRead (s : State) (off : Nat) (v : Word) : (s.setPf off v).lastRead = s.lastRead := rfl

/-! ## setVfReg -/

@[simp] theorem State.setVfReg_core (s : State) (v off : Nat) (w : Word) : (s.setVfReg v off w).core = s.core := rfl
@[simp] theorem State.setVfReg_slot (s : State) (v off : Nat) (w : Word) : (s.setVfReg v off w).slot = s.slot := rfl
@[simp] theorem State.setVfReg_agenda (s : State) (v off : Nat) (w : Word) : (s.setVfReg v off w).agenda = s.agenda := rfl
@[simp] theorem State.setVfReg_fresh (s : State) (v off : Nat) (w : Word) : (s.setVfReg v off w).fresh = s.fresh := rfl
@[simp] theorem State.setVfReg_now (s : State) (v off : Nat) (w : Word) : (s.setVfReg v off w).now = s.now := rfl
@[simp] theorem State.setVfReg_slew (s : State) (v off : Nat) (w : Word) : (s.setVfReg v off w).slew = s.slew := rfl
@[simp] theorem State.setVfReg_slewAt (s : State) (v off : Nat) (w : Word) : (s.setVfReg v off w).slewAt = s.slewAt := rfl
@[simp] theorem State.setVfReg_copyOut (s : State) (v off : Nat) (w : Word) : (s.setVfReg v off w).copyOut = s.copyOut := rfl
@[simp] theorem State.setVfReg_msix (s : State) (v off : Nat) (w : Word) : (s.setVfReg v off w).msix = s.msix := rfl
@[simp] theorem State.setVfReg_mem (s : State) (v off : Nat) (w : Word) : (s.setVfReg v off w).mem = s.mem := rfl
@[simp] theorem State.setVfReg_full (s : State) (v off : Nat) (w : Word) : (s.setVfReg v off w).full = s.full := rfl
@[simp] theorem State.setVfReg_poison (s : State) (v off : Nat) (w : Word) : (s.setVfReg v off w).poison = s.poison := rfl
@[simp] theorem State.setVfReg_hostMem (s : State) (v off : Nat) (w : Word) : (s.setVfReg v off w).hostMem = s.hostMem := rfl
@[simp] theorem State.setVfReg_waiters (s : State) (v off : Nat) (w : Word) : (s.setVfReg v off w).waiters = s.waiters := rfl
@[simp] theorem State.setVfReg_faultQ (s : State) (v off : Nat) (w : Word) : (s.setVfReg v off w).faultQ = s.faultQ := rfl
@[simp] theorem State.setVfReg_unavail (s : State) (v off : Nat) (w : Word) : (s.setVfReg v off w).unavail = s.unavail := rfl
@[simp] theorem State.setVfReg_cores (s : State) (v off : Nat) (w : Word) : (s.setVfReg v off w).cores = s.cores := rfl
@[simp] theorem State.setVfReg_clusters (s : State) (v off : Nat) (w : Word) : (s.setVfReg v off w).clusters = s.clusters := rfl
@[simp] theorem State.setVfReg_dies (s : State) (v off : Nat) (w : Word) : (s.setVfReg v off w).dies = s.dies := rfl
@[simp] theorem State.setVfReg_islands (s : State) (v off : Nat) (w : Word) : (s.setVfReg v off w).islands = s.islands := rfl
@[simp] theorem State.setVfReg_root1 (s : State) (v off : Nat) (w : Word) : (s.setVfReg v off w).root1 = s.root1 := rfl
@[simp] theorem State.setVfReg_root2 (s : State) (v off : Nat) (w : Word) : (s.setVfReg v off w).root2 = s.root2 := rfl
@[simp] theorem State.setVfReg_ts (s : State) (v off : Nat) (w : Word) : (s.setVfReg v off w).ts = s.ts := rfl
@[simp] theorem State.setVfReg_launches (s : State) (v off : Nat) (w : Word) : (s.setVfReg v off w).launches = s.launches := rfl
@[simp] theorem State.setVfReg_nextLaunch (s : State) (v off : Nat) (w : Word) : (s.setVfReg v off w).nextLaunch = s.nextLaunch := rfl
@[simp] theorem State.setVfReg_vqs (s : State) (v off : Nat) (w : Word) : (s.setVfReg v off w).vqs = s.vqs := rfl
@[simp] theorem State.setVfReg_colls (s : State) (v off : Nat) (w : Word) : (s.setVfReg v off w).colls = s.colls := rfl
@[simp] theorem State.setVfReg_saved (s : State) (v off : Nat) (w : Word) : (s.setVfReg v off w).saved = s.saved := rfl
@[simp] theorem State.setVfReg_tcores (s : State) (v off : Nat) (w : Word) : (s.setVfReg v off w).tcores = s.tcores := rfl
@[simp] theorem State.setVfReg_tmems (s : State) (v off : Nat) (w : Word) : (s.setVfReg v off w).tmems = s.tmems := rfl
@[simp] theorem State.setVfReg_pf (s : State) (v off : Nat) (w : Word) : (s.setVfReg v off w).pf = s.pf := rfl
@[simp] theorem State.setVfReg_latches (s : State) (v off : Nat) (w : Word) : (s.setVfReg v off w).latches = s.latches := rfl
@[simp] theorem State.setVfReg_samples (s : State) (v off : Nat) (w : Word) : (s.setVfReg v off w).samples = s.samples := rfl
@[simp] theorem State.setVfReg_sampled (s : State) (v off : Nat) (w : Word) : (s.setVfReg v off w).sampled = s.sampled := rfl
@[simp] theorem State.setVfReg_pcselPend (s : State) (v off : Nat) (w : Word) : (s.setVfReg v off w).pcselPend = s.pcselPend := rfl
@[simp] theorem State.setVfReg_trctlPend (s : State) (v off : Nat) (w : Word) : (s.setVfReg v off w).trctlPend = s.trctlPend := rfl
@[simp] theorem State.setVfReg_events (s : State) (v off : Nat) (w : Word) : (s.setVfReg v off w).events = s.events := rfl
@[simp] theorem State.setVfReg_band (s : State) (v off : Nat) (w : Word) : (s.setVfReg v off w).band = s.band := rfl
@[simp] theorem State.setVfReg_lodge (s : State) (v off : Nat) (w : Word) : (s.setVfReg v off w).lodge = s.lodge := rfl
@[simp] theorem State.setVfReg_linksRetired (s : State) (v off : Nat) (w : Word) : (s.setVfReg v off w).linksRetired = s.linksRetired := rfl
@[simp] theorem State.setVfReg_lanesRepaired (s : State) (v off : Nat) (w : Word) : (s.setVfReg v off w).lanesRepaired = s.lanesRepaired := rfl
@[simp] theorem State.setVfReg_ports (s : State) (v off : Nat) (w : Word) : (s.setVfReg v off w).ports = s.ports := rfl
@[simp] theorem State.setVfReg_fabricOut (s : State) (v off : Nat) (w : Word) : (s.setVfReg v off w).fabricOut = s.fabricOut := rfl
@[simp] theorem State.setVfReg_devOut (s : State) (v off : Nat) (w : Word) : (s.setVfReg v off w).devOut = s.devOut := rfl
@[simp] theorem State.setVfReg_lastRead (s : State) (v off : Nat) (w : Word) : (s.setVfReg v off w).lastRead = s.lastRead := rfl

@[simp] theorem State.at_core (s : State) (c k : Nat) : (s.at c k).core = c := rfl
@[simp] theorem State.at_slot (s : State) (c k : Nat) : (s.at c k).slot = k := rfl
@[simp] theorem State.at_at (s : State) (c k c' k' : Nat) : (s.at c k).at c' k' = s.at c' k' := rfl
@[simp] theorem State.at_self (s : State) : s.at s.core s.slot = s := rfl

/-! ## Reading back -/

@[simp] theorem State.coreOf_setCore (s : State) (c : Nat) (x : Core) : (s.setCore c x).coreOf c = x := by
  simp [State.coreOf, State.setCore]
theorem State.coreOf_setCore_ne (s : State) {c c' : Nat} (x : Core) (h : c' ≠ c) : (s.setCore c x).coreOf c' = s.coreOf c' := by
  simp [State.coreOf, State.setCore, SMap.look_put, h]
@[simp] theorem State.coreOf_modCore (s : State) (c : Nat) (f : Core → Core) : (s.modCore c f).coreOf c = f (s.coreOf c) := by
  simp [State.modCore]
theorem State.coreOf_modCore_ne (s : State) {c c' : Nat} (f : Core → Core) (h : c' ≠ c) : (s.modCore c f).coreOf c' = s.coreOf c' := by
  simp [State.modCore, State.coreOf_setCore_ne _ _ h]
@[simp] theorem State.coreOf_at (s : State) (c k c' : Nat) : (s.at c k).coreOf c' = s.coreOf c' := rfl
@[simp] theorem State.slotOf_at (s : State) (c k c' k' : Nat) : (s.at c k).slotOf c' k' = s.slotOf c' k' := rfl
@[simp] theorem State.vfOf_at (s : State) (c k c' v : Nat) : (s.at c k).vfOf c' v = s.vfOf c' v := rfl
@[simp] theorem State.cur_at (s : State) (c k : Nat) : (s.at c k).cur = s.slotOf c k := rfl

@[simp] theorem State.slotOf_setSlot (s : State) (c k : Nat) (x : Slot) : (s.setSlot c k x).slotOf c k = x := by
  simp [State.slotOf, State.setSlot]
theorem State.slotOf_setSlot_ne (s : State) {c k c' k' : Nat} (x : Slot) (h : c' ≠ c ∨ k' ≠ k) :
    (s.setSlot c k x).slotOf c' k' = s.slotOf c' k' := by
  by_cases hc : c' = c
  · subst hc
    have hk : k' ≠ k := by simpa using h
    simp [State.slotOf, State.setSlot, SMap.look_put, hk]
  · simp [State.slotOf, State.setSlot, State.coreOf_modCore_ne _ _ hc]
@[simp] theorem State.slotOf_modSlot (s : State) (c k : Nat) (f : Slot → Slot) : (s.modSlot c k f).slotOf c k = f (s.slotOf c k) := by
  simp [State.modSlot]
theorem State.slotOf_modSlot_ne (s : State) {c k c' k' : Nat} (f : Slot → Slot) (h : c' ≠ c ∨ k' ≠ k) :
    (s.modSlot c k f).slotOf c' k' = s.slotOf c' k' := by
  simp [State.modSlot, State.slotOf_setSlot_ne _ _ h]
@[simp] theorem State.cur_modCur (s : State) (f : Slot → Slot) : (s.modCur f).cur = f s.cur := by
  show (s.modSlot s.core s.slot f).slotOf s.core s.slot = _
  simp [State.cur]
theorem State.slotOf_modCur_ne (s : State) {c k : Nat} (f : Slot → Slot) (h : c ≠ s.core ∨ k ≠ s.slot) :
    (s.modCur f).slotOf c k = s.slotOf c k := State.slotOf_modSlot_ne s f h

@[simp] theorem State.vfOf_setSlot (s : State) (c k c' v : Nat) (x : Slot) : (s.setSlot c k x).vfOf c' v = s.vfOf c' v := by
  by_cases h : c' = c
  · subst h; simp [State.vfOf, State.setSlot]
  · simp [State.vfOf, State.setSlot, State.coreOf_modCore_ne _ _ h]
@[simp] theorem State.vfOf_modSlot (s : State) (c k c' v : Nat) (f : Slot → Slot) : (s.modSlot c k f).vfOf c' v = s.vfOf c' v := by
  simp [State.modSlot]
@[simp] theorem State.vfOf_modCur (s : State) (c v : Nat) (f : Slot → Slot) : (s.modCur f).vfOf c v = s.vfOf c v := by
  simp [State.modCur]
@[simp] theorem State.vfOf_modVf (s : State) (c v : Nat) (f : CoreVf → CoreVf) : (s.modVf c v f).vfOf c v = f (s.vfOf c v) := by
  simp [State.vfOf, State.modVf]
theorem State.vfOf_modVf_ne (s : State) {c v c' v' : Nat} (f : CoreVf → CoreVf) (h : c' ≠ c ∨ v' ≠ v) :
    (s.modVf c v f).vfOf c' v' = s.vfOf c' v' := by
  by_cases hc : c' = c
  · subst hc
    have hv : v' ≠ v := by simpa using h
    simp [State.vfOf, State.modVf, SMap.look_put, hv]
  · simp [State.vfOf, State.modVf, State.coreOf_modCore_ne _ _ hc]
@[simp] theorem State.slotOf_modVf (s : State) (c v c' k : Nat) (f : CoreVf → CoreVf) : (s.modVf c v f).slotOf c' k = s.slotOf c' k := by
  by_cases h : c' = c
  · subst h; simp [State.slotOf, State.modVf]
  · simp [State.slotOf, State.modVf, State.coreOf_modCore_ne _ _ h]
@[simp] theorem State.cur_modVf (s : State) (c v : Nat) (f : CoreVf → CoreVf) : (s.modVf c v f).cur = s.cur := by
  show (s.modVf c v f).slotOf s.core s.slot = _
  simp [State.cur]

@[simp] theorem State.die_modDie (s : State) (d : Nat) (f : Die → Die) : (s.modDie d f).die d = f (s.die d) := by
  simp [State.die, State.modDie]
theorem State.die_modDie_ne (s : State) {d d' : Nat} (f : Die → Die) (h : d' ≠ d) : (s.modDie d f).die d' = s.die d' := by
  simp [State.die, State.modDie, SMap.look_put, h]
@[simp] theorem State.clus_modClus (s : State) (c : Nat) (f : Cluster → Cluster) : (s.modClus c f).clus c = f (s.clus c) := by
  simp [State.clus, State.modClus]
theorem State.clus_modClus_ne (s : State) {c c' : Nat} (f : Cluster → Cluster) (h : c' ≠ c) : (s.modClus c f).clus c' = s.clus c' := by
  simp [State.clus, State.modClus, SMap.look_put, h]
@[simp] theorem State.isl_modIsl (s : State) (i : Nat) (f : Island → Island) : (s.modIsl i f).isl i = f (s.isl i) := by
  simp [State.isl, State.modIsl]
theorem State.isl_modIsl_ne (s : State) {i i' : Nat} (f : Island → Island) (h : i' ≠ i) : (s.modIsl i f).isl i' = s.isl i' := by
  simp [State.isl, State.modIsl, SMap.look_put, h]
@[simp] theorem State.pfReg_setPf (s : State) (off : Nat) (v : Word) : (s.setPf off v).pfReg off = v := by
  simp [State.pfReg, State.setPf]
theorem State.pfReg_setPf_ne (s : State) {off off' : Nat} (v : Word) (h : off' ≠ off) : (s.setPf off v).pfReg off' = s.pfReg off' := by
  simp [State.pfReg, State.setPf, SMap.look_put, h]

end Sys2Proof.Machine
end

