-- ==== Sys2Proof/Laws/Ops.lean ====
section
/-! SUPPORT. What the shared operations do, once each: the issuing slot's writes, waits, traps and completion, writes at a home, full/empty
bits and poison, the packing of lanes, and that a step of the model's own is `exec` of an instruction. -/

namespace Sys2Proof.Machine

/-! ## The issuing slot -/

@[simp] theorem State.modCur_modCur (s : State) (f g : Slot → Slot) : (s.modCur f).modCur g = s.modCur fun x => g (f x) := by
  simp [State.modCur, State.modSlot, State.setSlot, State.modCore, State.setCore, State.coreOf, State.slotOf]

/-- Everything a completion changes: the pc, the loop's count, and that the slot runs (R146). -/
theorem State.cur_retire (s : State) : s.retire.cur = { s.cur.advance with status := .run } := by simp [State.retire]

theorem State.slotOf_retire_ne (s : State) {c k : Nat} (h : c ≠ s.core ∨ k ≠ s.slot) : s.retire.slotOf c k = s.slotOf c k :=
  State.slotOf_modCur_ne s _ h

@[simp] theorem State.vfOf_retire (s : State) (c v : Nat) : s.retire.vfOf c v = s.vfOf c v := by simp [State.retire]

@[simp] theorem State.mem_retire (s : State) : s.retire.mem = s.mem := rfl
@[simp] theorem State.mem_wait (s : State) (w : Wait) : (s.wait w).mem = s.mem := rfl
@[simp] theorem State.mem_hold (s : State) (w : Wait) : (s.hold w).mem = s.mem := rfl
@[simp] theorem State.mem_trap (s : State) (c : Cause) (v : Word) : (s.trap c v).mem = s.mem := rfl
@[simp] theorem State.mem_decodeFault (s : State) (c : Cause) : (s.decodeFault c).mem = s.mem := rfl
@[simp] theorem State.mem_putP (s : State) (d : PReg) (v : BitVec 16) : (s.putP d v).mem = s.mem := rfl
@[simp] theorem State.mem_addFlags (s : State) (f : FFlags) : (s.addFlags f).mem = s.mem := rfl
@[simp] theorem State.mem_jumpTo (s : State) (t : Word) : (s.jumpTo t).mem = s.mem := rfl
@[simp] theorem State.mem_land (s : State) (lat : Nat) (w : Landing) : (s.land lat w).mem = s.mem := rfl
@[simp] theorem State.mem_putS (s : State) (lat : Nat) (d : Reg) (v : Word) : (s.putS lat d v).mem = s.mem := by
  cases d <;> simp only [State.putS]
  · split <;> rfl
  · rfl
@[simp] theorem State.mem_putV (s : State) (lat : Nat) (d : Reg) (m : BitVec 16) (v : Vec) : (s.putV lat d m v).mem = s.mem := by
  cases d <;> rfl

theorem State.cur_wait (s : State) (w : Wait) : (s.wait w).cur = { s.cur with status := .wait w } := by simp [State.wait]

/-- A trap outside a trap handler and outside the handler slot (R331). -/
theorem State.cur_trap (s : State) (c : Cause) (v : Word) (hk : s.slot ≠ 15) (hi : s.cur.ih = false) :
    (s.trap c v).cur = { s.cur with
      busyNow := [], status := .run, reissue := false, tepc := addrBits s.cur.pc, tcause := c.code, tval := v, ppl := s.cur.pl, pmd := s.cur.md,
      ih := true, pc := { s.cur with busyNow := [] }.vector (s.cycle s.core) } := by
  simp [State.trap, Slot.trap, Slot.deliver, hk, hi]

/-- A trap in a trap handler marks the activity for a kill with DOUBLE (R334). -/
theorem State.cur_trap_double (s : State) (c : Cause) (v : Word) (hk : s.slot ≠ 15) (hi : s.cur.ih = true) :
    (s.trap c v).cur = { s.cur with busyNow := [], status := .run, kill := some (s.cur.kill.getD ⟨.double, s.cur.pc, v⟩) } := by
  simp [State.trap, Slot.trap, Slot.mark, hk, hi]

/-- A trap in the handler slot marks the handler for its abandonment (R25). -/
theorem State.cur_trap_handler (s : State) (c : Cause) (v : Word) (hk : s.slot = 15) :
    (s.trap c v).cur = { s.cur with busyNow := [], status := .run, kill := some (s.cur.kill.getD ⟨c, s.cur.pc, v⟩) } := by
  simp [State.trap, Slot.trap, Slot.mark, hk]

theorem State.slotOf_trap_ne (s : State) (c : Cause) (v : Word) {c' k : Nat} (h : c' ≠ s.core ∨ k ≠ s.slot) :
    (s.trap c v).slotOf c' k = s.slotOf c' k := State.slotOf_modCur_ne s _ h

/-- An instruction whose condition holds acts; one whose condition fails only issues (R61). -/
theorem guarded_acts {g : Pred} {s : State} (x : Out) (h : s.acts g = true) : guarded g s x = x := by simp [guarded, h]
theorem guarded_fails {g : Pred} {s : State} (x : Out) (h : s.acts g = false) : guarded g s x = .next s.retire := by simp [guarded, h]

/-! ## Registers (R92 to R94) -/

/-- A private register that no write still on its way to it is to outlast (R94) reads as written. -/
theorem State.sreg_putS_priv (s : State) (lat : Nat) (n : BitVec 5) (v : Word) (h : s.older (.s (.priv n)) = 0) :
    (s.putS lat (.priv n) v).sreg (.priv n) = v := by
  simp [State.putS, State.sreg, Slot.setS, h]

/-- The write that lands later remains (R94). -/
theorem State.putS_priv_older (s : State) (lat : Nat) (n : BitVec 5) (v : Word) (h : s.older (.s (.priv n)) ≠ 0) :
    s.putS lat (.priv n) v = s := by
  simp only [State.putS, if_neg h]

theorem State.sreg_putS_priv_ne (s : State) (lat : Nat) {n m : BitVec 5} (v : Word) (h : m ≠ n) :
    (s.putS lat (.priv n) v).sreg (.priv m) = s.sreg (.priv m) := by
  have h' : m.toNat ≠ n.toNat := fun e => h (BitVec.eq_of_toNat_eq e)
  simp only [State.putS]
  split
  · simp [State.sreg, Slot.setS, SMap.look_put, h']
  · rfl

/-- A write to a shared register changes nothing but the writes on their way (R94). -/
theorem State.putS_shared (s : State) (lat : Nat) (n : BitVec 5) (v : Word) :
    s.putS lat (.shared n) v = s.land lat { cycle := 0, slot := 0, vf := 0, reg := n, scalar := some v } := rfl

@[simp] theorem State.slotOf_land (s : State) (lat : Nat) (w : Landing) (c k : Nat) : (s.land lat w).slotOf c k = s.slotOf c k := by
  by_cases h : c = s.core
  · subst h; simp [State.slotOf, State.land]
  · simp [State.slotOf, State.land, State.coreOf_modCore_ne _ _ h]

@[simp] theorem State.vfOf_land (s : State) (lat : Nat) (w : Landing) (c v : Nat) : (s.land lat w).vfOf c v = s.vfOf c v := by
  by_cases h : c = s.core
  · subst h; simp [State.vfOf, State.land]
  · simp [State.vfOf, State.land, State.coreOf_modCore_ne _ _ h]

/-- A mask that keeps nothing lets the new value through. -/
theorem keepsNone {n : Nat} (new old : BitVec n) : (new &&& ~~~ (0 : BitVec n)) ||| (old &&& 0) = new := by simp

theorem narrow_none (m n : Nat) : (0 : BitVec m).setWidth n = 0 := by simp

theorem State.vreg_putV_priv (s : State) (lat : Nat) (n : BitVec 5) (m : BitVec 16) (v : Vec) (h : s.older (.v (.priv n)) = 0) :
    (s.putV lat (.priv n) m v).vreg (.priv n) = mergeLanes m (s.vreg (.priv n)) v := by
  simp only [State.putV, State.vreg, State.cur_modCur, h, keepsNone]
  split <;> simp [Slot.setV, Slot.soundV]

theorem State.preg_putP (s : State) (d : PReg) (v : BitVec 16) (h : s.older (.p d) = 0) : (s.putP d v).preg d = v := by
  have h' : (s.older (.p d)).setWidth 16 = 0 := (congrArg (BitVec.setWidth 16) h).trans (narrow_none 512 16)
  simp only [State.putP, State.preg, State.cur_modCur, h', keepsNone]
  simp [Slot.setP]

theorem State.preg_putP_ne (s : State) {d e : PReg} (v : BitVec 16) (h : e ≠ d) : (s.putP d v).preg e = s.preg e := by
  have h' : e.toNat ≠ d.toNat := fun q => h (BitVec.eq_of_toNat_eq q)
  simp [State.putP, State.preg, Slot.setP, SMap.look_put, h']

/-! ## Lanes (R121) -/

theorem packLanes_lt (f : Nat → Lane) (n : Nat) : packLanes f n < 2 ^ (32 * n) := by
  induction n with
  | zero => simp [packLanes]
  | succ n ih =>
    have := (f n).isLt
    have e : 2 ^ (32 * (n + 1)) = 2 ^ 32 * 2 ^ (32 * n) := by rw [← Nat.pow_add]; congr 1; omega
    simp only [packLanes]
    calc packLanes f n + (f n).toNat * 2 ^ (32 * n) < 2 ^ (32 * n) + (f n).toNat * 2 ^ (32 * n) := by omega
      _ = ((f n).toNat + 1) * 2 ^ (32 * n) := by rw [Nat.add_mul, Nat.one_mul, Nat.add_comm]
      _ ≤ 2 ^ 32 * 2 ^ (32 * n) := Nat.mul_le_mul_right _ (by omega)
      _ = _ := e.symm

theorem packLanes_field (f : Nat → Lane) (n i : Nat) (h : i < n) : packLanes f n / 2 ^ (32 * i) % 2 ^ 32 = (f i).toNat := by
  induction n with
  | zero => omega
  | succ n ih =>
    simp only [packLanes]
    by_cases hi : i = n
    · subst hi
      rw [Nat.add_mul_div_right _ _ (Nat.two_pow_pos _), Nat.div_eq_of_lt (packLanes_lt f i), Nat.zero_add,
        Nat.mod_eq_of_lt (f i).isLt]
    · have hlt : i < n := by omega
      have e : (f n).toNat * 2 ^ (32 * n) = (f n).toNat * 2 ^ (32 * (n - i - 1)) * 2 ^ 32 * 2 ^ (32 * i) := by
        rw [Nat.mul_assoc, Nat.mul_assoc, ← Nat.pow_add, ← Nat.pow_add]; congr 2; omega
      rw [e, Nat.add_mul_div_right _ _ (Nat.two_pow_pos _), Nat.add_mul_mod_self_right, ih hlt]

theorem ofNat_field (m n w p : Nat) (h : p < 2 ^ m) : (BitVec.extractLsb' n w (BitVec.ofNat m p)).toNat = p / 2 ^ n % 2 ^ w := by
  rw [BitVec.extractLsb'_toNat, BitVec.toNat_ofNat, Nat.mod_eq_of_lt h, Nat.shiftRight_eq_div_pow]

/-- Lane `i` of a vector built from lanes. -/
theorem lane_ofLanes (f : Nat → Lane) {i : Nat} (h : i < 16) : lane (ofLanes f) i = f i :=
  BitVec.eq_of_toNat_eq ((ofNat_field (32 * 16) (32 * i) 32 _ (packLanes_lt f 16)).trans (packLanes_field f 16 i h))

/-- A masked write takes the acting lanes from the new value and the others from the old (R122). -/
theorem lane_mergeLanes (m : BitVec 16) (old new : Vec) {i : Nat} (h : i < 16) :
    lane (mergeLanes m old new) i = if m.getLsbD i then lane new i else lane old i := lane_ofLanes _ h

/-! ## Homes (R173, R178, R204) -/

/-- A write at a home changes memory by its cells alone. -/
theorem State.mem_sendInvals (s : State) (core slot die line : Nat) : (s.sendInvals core slot die line).mem = s.mem := by
  simp only [State.sendInvals]
  generalize (bitsOf _ 4).filter (fun d => d != die) = l
  induction l generalizing s with
  | nil => rfl
  | cons d l ih => exact (ih _).trans rfl

@[simp] theorem State.mem_perform (s : State) (c k : Nat) (cells : List (Nat × Byte)) :
    (s.perform c k cells).mem = s.mem.patch cells := by
  have fold : ∀ (l : List Nat) (f : State → Nat → State), (∀ u a, (f u a).mem = u.mem) → ∀ u : State, (l.foldl f u).mem = u.mem := by
    intro l f hf
    induction l with
    | nil => exact fun _ => rfl
    | cons a l ih => exact fun u => (ih _).trans (hf u a)
  refine (fold _ _ ?_ _).trans rfl
  intro u a
  by_cases h : isRemote (dieOf c) a = true <;> cases hb : (u.die (dieOf c)).rdc.look a <;> cases hr : rangeOf a <;>
    simp [h, State.mem_sendInvals]

@[simp] theorem State.mem_setFull (s : State) (pa : Nat) (b : Bool) : (s.setFull pa b).mem = s.mem := rfl
@[simp] theorem State.mem_setPoison (s : State) (pa : Nat) : (s.setPoison pa).mem = s.mem := rfl

theorem setAdd_elem (l : List Nat) (a : Nat) : (setAdd l a).elem a = true := by
  induction l with
  | nil => simp [setAdd]
  | cons x l ih =>
    simp only [setAdd]
    split
    · simp
    · split
      · rename_i h; simp [h]
      · simp at ih; simp [ih]

theorem setDel_elem (l : List Nat) (a : Nat) : (setDel l a).elem a = false := by simp [setDel]

/-- The full/empty bit reads as it was set. -/
@[simp] theorem State.isFull_setFull (s : State) (pa : Nat) (b : Bool) : (s.setFull pa b).isFull pa = b := by
  cases b
  · simpa [State.isFull, State.setFull, setHas, setPut] using setDel_elem s.full pa
  · simpa [State.isFull, State.setFull, setHas, setPut] using setAdd_elem s.full pa

@[simp] theorem State.isPoisoned_setPoison (s : State) (pa : Nat) : (s.setPoison pa).isPoisoned pa = true := by
  simpa [State.isPoisoned, State.setPoison, setHas] using setAdd_elem s.poison pa

/-- Without a waiter at a word, its service only sets it full (R204). -/
theorem State.serveWord_alone (s : State) (pa : Nat) (h : ∀ w ∈ s.waiters, w.pa ≠ pa) : s.serveWord pa = s.setFull pa true := by
  have : (s.waiters.filter fun w => w.pa == pa && !w.held && w.req.isFE) = [] := by
    rw [List.filter_eq_nil_iff]
    intro w hw
    simp [h w hw]
  simp [State.serveWord, this, State.serveList]

/-! ## The model's own steps -/

/-- What the machine does by itself is `exec` of some instruction, or the saving of an activity that waits for software (R307): `Act.run`
stands for it only because of how Lean compiles a large inductive type. -/
theorem Act.run_exec (a : Act) (s : State) : (∃ i, a.run s = exec i s) ∨ ∃ c k, a.run s = .next (s.parkWaiting c k) := by
  cases a with
  | waitPark c k => exact .inr ⟨c, k, rfl⟩
  | liveUpdateTimeout => exact .inl ⟨.liveUpdateAbandon 4, rfl⟩
  | movementRestart c => exact .inl ⟨.movementRestart c, rfl⟩
  | activityKill c k => exact .inl ⟨.activityKill c k, rfl⟩
  | replyFaultDelivery c k => exact .inl ⟨.replyFaultDelivery c k, rfl⟩
  | ptgapDelivery c k => exact .inl ⟨.ptgapDelivery c k, rfl⟩
  | hbmissDelivery c k => exact .inl ⟨.hbmissDelivery c k, rfl⟩
  | handlerBudgetExhausted c => exact .inl ⟨.handlerBudgetExhausted c, rfl⟩
  | instructionFetchFault c => exact .inl ⟨.instructionFetchFault c, rfl⟩
  | illegal w => exact .inl ⟨.illegal w, rfl⟩
  | drainLead v => exact .inl ⟨.drainLead v, rfl⟩
  | synchronisedStop v => exact .inl ⟨.synchronisedStop v, rfl⟩
  | turnBoundary => exact .inl ⟨.turnBoundary, rfl⟩
  | roundBoundary => exact .inl ⟨.roundBoundary, rfl⟩
  | turnEdgeRestore v => exact .inl ⟨.turnEdgeRestore v, rfl⟩
  | donationEffect v => exact .inl ⟨.donationEffect v, rfl⟩
  | frequencyStep i => exact .inl ⟨.frequencyStep i, rfl⟩
  | relockComplete i => exact .inl ⟨.relockComplete i, rfl⟩
  | pcselEffect v j => exact .inl ⟨.pcselEffect v j, rfl⟩
  | trctlEffect => exact .inl ⟨.trctlEffect, rfl⟩
  | pcTotalSample => exact .inl ⟨.pcTotalSample, rfl⟩
  | heartbeatMiss c k => exact .inl ⟨.heartbeatMiss c k, rfl⟩
  | ptgapRecord c k => exact .inl ⟨.ptgapRecord c k, rfl⟩
  | traceStateRecord c k st => exact .inl ⟨.traceStateRecord c k st, rfl⟩
  | vfReset v => exact .inl ⟨.vfReset v, rfl⟩
  | storeBufferDrain c k i => exact .inl ⟨.storeBufferDrain c k i, rfl⟩
  | postedStoreArrival c k i => exact .inl ⟨.postedStoreArrival c k i, rfl⟩
  | postedReplyArrival c k i => exact .inl ⟨.postedReplyArrival c k i, rfl⟩
  | memoryReply c k => exact .inl ⟨.memoryReply c k, rfl⟩
  | divideComplete c k => exact .inl ⟨.divideComplete c k, rfl⟩
  | tsRequestArrival c k => exact .inl ⟨.tsRequestArrival c k, rfl⟩
  | tsDepositArrival c k => exact .inl ⟨.tsDepositArrival c k, rfl⟩
  | slotScrubComplete c k => exact .inl ⟨.slotScrubComplete c k false, rfl⟩
  | messageEntry c k => exact .inl ⟨.messageEntry c k, rfl⟩
  | lateReplyLand v t c k => exact .inl ⟨.lateReplyLand v t c k, rfl⟩
  | deferredEntryJoin h => exact .inl ⟨.deferredEntryJoin h, rfl⟩
  | faultQueueReplay p => exact .inl ⟨.faultQueueReplay p, rfl⟩
  | rdcInvalidation d i => exact .inl ⟨.rdcInvalidation d i, rfl⟩
  | invalidationAck d i => exact .inl ⟨.invalidationAck d i, rfl⟩
  | taskPop c k => exact .inl ⟨.taskPop c k, rfl⟩
  | stealVisit c v => exact .inl ⟨.stealVisit c v, rfl⟩
  | stealArrival c v => exact .inl ⟨.stealArrival c v, rfl⟩
  | stealBackoffExpiry c v => exact .inl ⟨.stealBackoffExpiry c v, rfl⟩
  | dequeRefill c v => exact .inl ⟨.dequeRefill c v, rfl⟩
  | systemChannelMessage c v => exact .inl ⟨.systemChannelMessage c v, rfl⟩
  | handlerStart c => exact .inl ⟨.handlerStart c, rfl⟩
  | mailboxService c => exact .inl ⟨.mailboxService c, rfl⟩
  | copyStart d e => exact .inl ⟨.copyStart d e, rfl⟩
  | copyComplete d e i => exact .inl ⟨.copyComplete d e i, rfl⟩
  | collectiveComplete i => exact .inl ⟨.collectiveComplete i, rfl⟩
  | matrix t c v st =>
    rcases t with _ | _ | _ | _ | _ | _ | _ | _ | _ | t
    · exact .inl ⟨.mxnote c v st, rfl⟩
    · exact .inl ⟨.tload c v st, rfl⟩
    · exact .inl ⟨.tstore c v st, rfl⟩
    · exact .inl ⟨.mma c v st, rfl⟩
    · exact .inl ⟨.mmasp c v st, rfl⟩
    · exact .inl ⟨.accz c v st, rfl⟩
    · exact .inl ⟨.spload c v st, rfl⟩
    · exact .inl ⟨.mxnote c v st, rfl⟩
    · exact .inl ⟨.mxbar c v st, rfl⟩
    · exact .inl ⟨.mxnote c v st, rfl⟩
  | launchTake d h => exact .inl ⟨.launchTake d h, rfl⟩
  | gangRelease l g => exact .inl ⟨.gangRelease l g, rfl⟩
  | launchSweep l => exact .inl ⟨.launchSweep l, rfl⟩
  | vqPlacement v t q d h => exact .inl ⟨.vqPlacement v t q d h, rfl⟩
  | haltComplete n => exact .inl ⟨.haltComplete n, rfl⟩

end Sys2Proof.Machine
end

