-- ==== Sys2Proof/Tests/Slice0.lean ====
section
/-! SUPPORT. Tests: words that decode as the spec's encodings say, ill-formed terms that are refused, single steps on small states whose results
are worked out from the rules, and states that meet the hypotheses of the statements. -/

namespace Sys2Proof.Tests

open Sys2Proof.Machine Sys2Proof.Safety

set_option Elab.async false

/-! ## Decoding -/

/-- Private register `n`. -/
abbrev r (n : Nat) : Reg := .priv (BitVec.ofNat 5 n)
/-- Shared register `n`. -/
abbrev sh (n : Nat) : Reg := .shared (BitVec.ofNat 5 n)
/-- Private scalar `n` as a source. -/
abbrev x (n : Nat) : SSrc := .reg (r n)
/-- Private vector `n` as a source. -/
abbrev v (n : Nat) : VSrc := .reg (r n)

/-- Every list of words of a list decodes, whole, to the instruction beside it. -/
abbrev decodes (l : List (List Half × Instr)) : Prop := ∀ p ∈ l, decode {} p.1 = .ok (p.2, 2 * p.1.length)

/-- The statements the spec prints with their words: R55 to R70, R112, R141, R195 and the worked programs. -/
theorem test_decode_printed_a : decodes [
    ([0xF425, 0xFD20, 0xC879], .vfadd (.lanes 2 false) (r 17) (v 3) (.reg (sh 9)) .rtz),
    ([0xFD20, 0xF425, 0xC879], .vfadd (.lanes 2 false) (r 17) (v 3) (.reg (sh 9)) .rtz),
    ([0xF840, 0xF4C0, 0x08E8], .div .always (r 6) (x 7) (x 8)), ([0x08E8], .movi .always (r 7) 8),
    ([0xF460, 0xE001], .mfs .always (r 3) .tcause), ([0xF000, 0x0820], .movi .always (r 1) 0),
    ([0xF009, 0xF068, 0xF2B3, 0x0838], .movi .always (r 1) 0x12345678), ([0xF001, 0x3420], .shli .always (r 1) 32),
    ([0xF04D, 0xF179, 0xF2F7, 0x2830], .ori .always (r 1) 0x9ABCDEF0),
    ([0xF904, 0xF4C0, 0x5422], .vblkmax .always (r 6) (v 1) (v 2) .e2m1), ([0xF007, 0x08FE], .movi .always (r 7) 254),
    ([0xF4E0, 0x14E6], .sub .always (r 7) (x 7) (x 6)), ([0xF900, 0xF4A0, 0x5027], .vscale .always (r 5) (v 1) (x 7) .rne),
    ([0xF900, 0x2925], .cvtfn .always (r 9) (v 5) 0), ([0xF901, 0x1901], .cvtfq .always (r 8) (v 1) 1 false),
    ([0x50A7], .ldb .always (r 5) (x 7) 0), ([0xF3FF, 0x5C22], .ldd .always (r 1) (x 2) (-1)),
    ([0xF007, 0x6C6A], .std .always (x 3) (x 10) 7), ([0xA928], .lds .always (r 9) (x 8) 0),
    ([0xF940, 0x2008], .fill .always (x 8) 0), ([0xF944, 0x1822], .ldacq .always (r 1) (x 2) 0 .module),
    ([0xF940, 0xF401, 0x1028], .rst .always (x 1) (x 8) 0 true false), ([0xF940, 0xF460, 0x0044], .vldg .always (r 2) (x 4) 0 (v 3))] := by
  decide

theorem test_decode_printed_b : decodes [
    ([0xF9C0, 0x006A], .tsput (v 3) (x 10)), ([0xF9C1, 0xF4C0, 0x090A], .tstakeNb (r 6) (r 8) (x 10)),
    ([0xF9C0, 0xF580, 0x0D47], .tsowe .always (r 12) (x 10) (x 7)), ([0xF940, 0xF408, 0x142C], .rstv .always (v 1) (x 28) 0 false false),
    ([0xA408], .fence .always true .thread), ([0xF940, 0xF419, 0x10AC], .rst .always (x 21) (x 28) 0 true false),
    ([0xF940, 0xF419, 0xF001, 0x10AD], .rst .always (x 21) (x 29) 1 true false), ([0xF980, 0x1000], .gbar),
    ([0xF981, 0xF4C0, 0x14E8], .obnew .always (r 6) (x 7) (x 8) true), ([0xF988, 0x1D40], .obgive .always (x 10) (x 0) .toRecord .signal),
    ([0xF980, 0x180A], .obowe .always (x 10)), ([0xF404, 0xD9CC], .sywait .always (r 16) (x 14) (x 12)),
    ([0xF484, 0xE404], .mts .always .tvec (x 20)), ([0xF980, 0xF410, 0x2160], .obq .always (r 27) (x 0) 0),
    ([0xF840, 0xF418, 0xF001, 0xF200, 0x496B], .extu .always (r 27) (x 27) 0 24), ([0xF410, 0xDD6D], .syadd .always (x 27) (x 13)),
    ([0x9000], .exit .always)] := by
  decide

theorem test_decode_printed_c : decodes [
    ([0xF9C0, 0xF480, 0x084A], .tstake (r 4) (r 2) (x 10)),
    ([0xF9C0, 0xF480, 0x044A], .tscopy (r 4) (r 2) (x 10)), ([0xF4AC, 0xD8C4], .sywait .always (r 21) (x 6) (x 20)),
    ([0xF4A4, 0xFC80, 0xD90D], .sywait (.whole 1 false) (r 21) (x 8) (x 13)), ([0xDCCD], .syadd .always (x 6) (x 13)),
    ([0xF900, 0xF430, 0x440E], .vins .always (r 1) (x 16) (x 14)), ([0xF982, 0xF5A0, 0x004C], .syinit .always (x 2) (x 12) (x 13) .barrier false),
    ([0xF980, 0xF410, 0x0462], .syarrive .always (r 19) (x 2)), ([0xF44C, 0xD843], .sywait .always (r 18) (x 2) (x 19)),
    ([0xFA80, 0x0562], .rdctr .always (r 11) 2), ([0xFA80, 0xFC80, 0x0802], .pwrhint (.whole 1 false) 2),
    ([0xFA80, 0xF410, 0x0402], .rdctr .always (r 16) 2), ([0xF983, 0xF4C0, 0x00A5], .syinit .always (x 5) (x 5) (x 6) .join false),
    ([0xF994, 0x1D80], .obgive .always (x 12) (x 0) .toRecord .tuple), ([0x9800], .beat .always), ([0x9C00], .ypt .always),
    ([0xFA00, 0x0400], .taskend .always)] := by
  decide

/-- What the table of fates under R70 calls ILLEGAL. -/
theorem test_decode_illegal : ∀ ws ∈ ([[0x0001], [0xFFFF], [0xF800, 0x0C24], [0xFAC0, 0x0000], [0xF840, 0x9000], [0xF840, 0xF840, 0x08E8],
    [0xF4E0, 0x7BF9], [0xF400, 0x7BF9], [0xFC20, 0x0C24], [0xF000, 0xF000, 0xF000, 0xF000, 0x0820]] : List (List Half)),
    (match decode {} ws with
      | .ok _ => false
      | .error _ => true) = true := by
  decide

/-- Page 0 (R66, R67), with fa = 6, fb = 10 and the other fields 5, cut to their widths. -/
theorem test_decode_page0_a : decodes [
    ([0x0000], .nop .always),
    ([0x04CA], .mov .always (r 6) (x 10)),
    ([0x08C5], .movi .always (r 6) 5),
    ([0x0CCA], .add .always (r 6) (x 6) (x 10)),
    ([0x10C5], .addi .always (r 6) 5),
    ([0x14CA], .sub .always (r 6) (x 6) (x 10)),
    ([0x18CA], .mul .always (r 6) (x 6) (x 10)),
    ([0x1CCA], .and .always (r 6) (x 6) (x 10)),
    ([0x20C5], .andi .always (r 6) 5),
    ([0x24CA], .or .always (r 6) (x 6) (x 10)),
    ([0x28C5], .ori .always (r 6) 5),
    ([0x2CCA], .xor .always (r 6) (x 6) (x 10)),
    ([0x30CA], .shl .always (r 6) (x 6) (x 10)),
    ([0x34C5], .shli .always (r 6) 5),
    ([0x38CA], .shr .always (r 6) (x 6) (x 10)),
    ([0x3CC5], .shri .always (r 6) 5),
    ([0x40CA], .sar .always (r 6) (x 6) (x 10)),
    ([0x44C5], .sari .always (r 6) 5),
    ([0x48CA], .sel .always (r 6) (x 6) (x 10)),
    ([0x4CC5], .lea .always (r 6) 5),
    ([0x50AA], .ldb .always (r 5) (x 10) 0),
    ([0x54AA], .ldh .always (r 5) (x 10) 0),
    ([0x58AA], .ldw .always (r 5) (x 10) 0),
    ([0x5CAA], .ldd .always (r 5) (x 10) 0)] := by decide

/-- Page 0 (R66, R67), with fa = 6, fb = 10 and the other fields 5, cut to their widths. -/
theorem test_decode_page0_b : decodes [
    ([0x60AA], .stb .always (x 5) (x 10) 0),
    ([0x64AA], .sth .always (x 5) (x 10) 0),
    ([0x68AA], .stw .always (x 5) (x 10) 0),
    ([0x6CAA], .std .always (x 5) (x 10) 0),
    ([0x70AA], .vld .always (r 5) (x 10) 0),
    ([0x74AA], .vst .always (v 5) (x 10) 0),
    ([0x7805], .br .always 5),
    ([0x7EC5], .brp 5 true 5),
    ([0x8005], .call .always 5),
    ([0x8400], .ret .always),
    ([0x88CA], .jmpr .always (r 6) (x 10)),
    ([0x8CC5], .loop (x 6) 5),
    ([0x9000], .exit .always),
    ([0x9405], .trap .always 5),
    ([0x9800], .beat .always),
    ([0x9C00], .ypt .always),
    ([0xA005], .sigchk 5),
    ([0xA40D], .fence .always true .system),
    ([0xA8AA], .lds .always (r 5) (x 10) 0),
    ([0xACAA], .take .always (r 5) (x 10) 0),
    ([0xB0AA], .put .always (x 5) (x 10) 0),
    ([0xB4CA], .vadd .always (r 6) (v 6) (v 10)),
    ([0xB8CA], .vsub .always (r 6) (v 6) (v 10)),
    ([0xBCCA], .vmul .always (r 6) (v 6) (v 10))] := by decide

/-- Page 0 (R66, R67), with fa = 6, fb = 10 and the other fields 5, cut to their widths. -/
theorem test_decode_page0_c : decodes [
    ([0xC0CA], .vmov .always (r 6) (v 10)),
    ([0xC4CA], .vbcast .always (r 6) (x 10)),
    ([0xC8CA], .vfadd .always (r 6) (v 6) (v 10) .rne),
    ([0xCCCA], .vfmul .always (r 6) (v 6) (v 10) .rne),
    ([0xF4BD, 0xD0CA], .vffma .always (r 21) (v 22) (v 26) .rtz),
    ([0xD4C0], .mxq .always (v 6)),
    ([0xD8CA], .sywait .always (r 6) (x 6) (x 10)),
    ([0xDCCA], .syadd .always (x 6) (x 10)),
    ([0xF4A4, 0xE005], .mfs .always (r 21) .fpflags),
    ([0xF4A4, 0xE405], .mts .always .fpflags (x 21)),
    ([0xE8CA], .cmpeq .always 0 (x 6) (x 10)),
    ([0xECCA], .cmplt .always 0 (x 6) (x 10))] := by decide

/-- Page 1 (R66, R67), with fa = 6, fb = 10 and the other fields 5, cut to their widths. -/
theorem test_decode_page1_a : decodes [
    ([0xF840, 0x00CA], .mulh .always (r 6) (x 6) (x 10)),
    ([0xF840, 0x04CA], .mulhu .always (r 6) (x 6) (x 10)),
    ([0xF840, 0x08CA], .div .always (r 6) (x 6) (x 10)),
    ([0xF840, 0x0CCA], .divu .always (r 6) (x 6) (x 10)),
    ([0xF840, 0x10CA], .rem .always (r 6) (x 6) (x 10)),
    ([0xF840, 0x14CA], .remu .always (r 6) (x 6) (x 10)),
    ([0xF840, 0x18CA], .min .always (r 6) (x 6) (x 10)),
    ([0xF840, 0x1CCA], .max .always (r 6) (x 6) (x 10)),
    ([0xF840, 0x20CA], .minu .always (r 6) (x 6) (x 10)),
    ([0xF840, 0x24CA], .maxu .always (r 6) (x 6) (x 10)),
    ([0xF840, 0x28CA], .abs .always (r 6) (x 10)),
    ([0xF840, 0x2CCA], .neg .always (r 6) (x 10)),
    ([0xF840, 0x30CA], .clz .always (r 6) (x 10)),
    ([0xF840, 0x34CA], .ctz .always (r 6) (x 10)),
    ([0xF840, 0x38CA], .popc .always (r 6) (x 10)),
    ([0xF840, 0x3CCA], .brev .always (r 6) (x 10)),
    ([0xF840, 0x40CA], .rotl .always (r 6) (x 6) (x 10)),
    ([0xF840, 0x44CA], .ext .always (r 6) (x 10) 0 0),
    ([0xF840, 0x48CA], .extu .always (r 6) (x 10) 0 0),
    ([0xF840, 0x4CCA], .ins .always (r 6) (x 10) 0 0),
    ([0xF840, 0x50CA], .sext .always (r 6) (x 10) .b),
    ([0xF840, 0x54CA], .zext .always (r 6) (x 10) .b),
    ([0xF840, 0x58CA], .cmpne .always 0 (x 6) (x 10)),
    ([0xF840, 0x5CCA], .cmpge .always 0 (x 6) (x 10))] := by decide

/-- Page 1 (R66, R67), with fa = 6, fb = 10 and the other fields 5, cut to their widths. -/
theorem test_decode_page1_b : decodes [
    ([0xF840, 0x60CA], .cmpltu .always 0 (x 6) (x 10)),
    ([0xF840, 0x64CA], .cmpgeu .always 0 (x 6) (x 10)),
    ([0xF840, 0x68C5], .cmpeqi .always 0 (x 6) 5),
    ([0xF840, 0x6CC5], .cmplti .always 0 (x 6) 5),
    ([0xF840, 0x70C5], .cmpltui .always 0 (x 6) 5),
    ([0xF840, 0x7462], .pand .always 3 3 2),
    ([0xF840, 0x7862], .por .always 3 3 2),
    ([0xF840, 0x7C62], .pxor .always 3 3 2),
    ([0xF840, 0x8062], .pnot .always 3 2),
    ([0xF840, 0x8465], .pset .always 3 5),
    ([0xF840, 0x88C2], .pmovs .always (r 6) 2),
    ([0xF840, 0x8C6A], .pmovp .always 3 (x 10))] := by decide

/-- Page 2 (R66, R67), with fa = 6, fb = 10 and the other fields 5, cut to their widths. -/
theorem test_decode_page2_a : decodes [
    ([0xF880, 0x00CA], .vand .always (r 6) (v 6) (v 10)),
    ([0xF880, 0x04CA], .vor .always (r 6) (v 6) (v 10)),
    ([0xF880, 0x08CA], .vxor .always (r 6) (v 6) (v 10)),
    ([0xF880, 0x0CCA], .vshl .always (r 6) (v 6) (v 10)),
    ([0xF880, 0x10CA], .vshr .always (r 6) (v 6) (v 10)),
    ([0xF880, 0x14CA], .vsar .always (r 6) (v 6) (v 10)),
    ([0xF880, 0x18C5], .vshli .always (r 6) 5),
    ([0xF880, 0x1CC5], .vshri .always (r 6) 5),
    ([0xF880, 0x20C5], .vsari .always (r 6) 5),
    ([0xF880, 0x24C5], .vaddi .always (r 6) 5),
    ([0xF880, 0x28CA], .vmin .always (r 6) (v 6) (v 10)),
    ([0xF880, 0x2CCA], .vmax .always (r 6) (v 6) (v 10)),
    ([0xF880, 0x30CA], .vminu .always (r 6) (v 6) (v 10)),
    ([0xF880, 0x34CA], .vmaxu .always (r 6) (v 6) (v 10)),
    ([0xF880, 0x38CA], .vmulh .always (r 6) (v 6) (v 10) false),
    ([0xF880, 0x40CA], .vabs .always (r 6) (v 10)),
    ([0xF880, 0x44CA], .vneg .always (r 6) (v 10)),
    ([0xF880, 0x48CA], .vaddsat .always (r 6) (v 6) (v 10) false),
    ([0xF880, 0x4CCA], .vsubsat .always (r 6) (v 6) (v 10) false),
    ([0xF880, 0x50CA], .vcmpeq .always 0 (v 6) (v 10)),
    ([0xF880, 0x54CA], .vcmpne .always 0 (v 6) (v 10)),
    ([0xF880, 0x58CA], .vcmplt .always 0 (v 6) (v 10)),
    ([0xF880, 0x5CCA], .vcmpge .always 0 (v 6) (v 10)),
    ([0xF880, 0x60CA], .vcmpltu .always 0 (v 6) (v 10))] := by decide

/-- Page 2 (R66, R67), with fa = 6, fb = 10 and the other fields 5, cut to their widths. -/
theorem test_decode_page2_b : decodes [
    ([0xF880, 0x64CA], .vcmpgeu .always 0 (v 6) (v 10)),
    ([0xF880, 0x68CA], .vsel .always (r 6) (v 6) (v 10)),
    ([0xF880, 0x6CCA], .vpopc .always (r 6) (v 10)),
    ([0xF880, 0x70CA], .vclz .always (r 6) (v 10)),
    ([0xF880, 0xF460, 0x3CCA], .vmad .always (r 3) (v 6) (v 10)),
    ([0xF880, 0xF461, 0x74CA], .vdot4 .always (r 3) (v 6) (v 10) .uu)] := by decide

/-- Page 3 (R66, R67), with fa = 6, fb = 10 and the other fields 5, cut to their widths. -/
theorem test_decode_page3 : decodes [
    ([0xF8C0, 0x00CA], .vfsub .always (r 6) (v 6) (v 10) .rne),
    ([0xF8C0, 0x04CA], .vfmin .always (r 6) (v 6) (v 10)),
    ([0xF8C0, 0x08CA], .vfmax .always (r 6) (v 6) (v 10)),
    ([0xF8C0, 0x0CCA], .vfabs .always (r 6) (v 10)),
    ([0xF8C0, 0x10CA], .vfneg .always (r 6) (v 10)),
    ([0xF8C0, 0x1CCA], .vfdiv .always (r 6) (v 6) (v 10) .rne),
    ([0xF8C0, 0x20CA], .vfsqrt .always (r 6) (v 10) .rne),
    ([0xF8C0, 0x24CA], .vfrcp .always (r 6) (v 10)),
    ([0xF8C0, 0x28CA], .vfrsq .always (r 6) (v 10)),
    ([0xF8C0, 0x2CCA], .vfexp2 .always (r 6) (v 10)),
    ([0xF8C0, 0x30CA], .vflog2 .always (r 6) (v 10)),
    ([0xF8C0, 0x34CA], .vftanh .always (r 6) (v 10)),
    ([0xF8C0, 0x38CA], .vfcmpeq .always 0 (v 6) (v 10)),
    ([0xF8C0, 0x3CCA], .vfcmplt .always 0 (v 6) (v 10)),
    ([0xF8C0, 0x40CA], .vfcmple .always 0 (v 6) (v 10)),
    ([0xF8C0, 0x44CA], .vfcmpun .always 0 (v 6) (v 10)),
    ([0xF8C0, 0x48CA], .vfclass .always (r 6) (v 10)),
    ([0xF8C0, 0x4CCA], .vfscale .always (r 6) (v 6) (v 10) .rne),
    ([0xF8C0, 0x50CA], .vfredsum .always (r 6) (v 10) .rne),
    ([0xF8C0, 0x54CA], .vfredmax .always (r 6) (v 10)),
    ([0xF8C0, 0xF462, 0x14CA], .vffms .always (r 3) (v 6) (v 10) .rup),
    ([0xF8C0, 0xF463, 0x18CA], .vffnma .always (r 3) (v 6) (v 10) .rdn),
    ([0xF8C1, 0xF461, 0x58CA], .vfdot2 .always (r 3) (v 6) (v 10) .rtz true)] := by decide

/-- Page 4 (R66, R67), with fa = 6, fb = 10 and the other fields 5, cut to their widths. -/
theorem test_decode_page4 : decodes [
    ([0xF900, 0x00CA], .cvtfi .always (r 6) (v 10) .rne),
    ([0xF900, 0x04CA], .cvtif .always (r 6) (v 10) .rne),
    ([0xF901, 0x08CA], .cvtfh .always (r 6) (v 10) .rne 1),
    ([0xF901, 0x0CCA], .cvthf .always (r 6) (v 10) 1),
    ([0xF901, 0x10CA], .cvtfb .always (r 6) (v 10) .rne 1),
    ([0xF901, 0x14CA], .cvtbf .always (r 6) (v 10) 1),
    ([0xF913, 0x18CA], .cvtfq .always (r 6) (v 10) 3 true),
    ([0xF903, 0x1CCA], .cvtqf .always (r 6) (v 10) 3),
    ([0xF909, 0x20CA], .cvtfs .always (r 6) (v 10) 1 true),
    ([0xF909, 0x24CA], .cvtsf .always (r 6) (v 10) 1 true),
    ([0xF905, 0x28CA], .cvtfn .always (r 6) (v 10) 5),
    ([0xF905, 0x2CCA], .cvtnf .always (r 6) (v 10) 5),
    ([0xF900, 0x30AA], .tblld .always 1 (x 10)),
    ([0xF900, 0x34CA], .tblsel .always (r 6) (v 10)),
    ([0xF900, 0x38CA], .vperm .always (r 6) (v 6) (v 10)),
    ([0xF900, 0x3CCA], .vrotl .always (r 6) (v 6) (x 10)),
    ([0xF901, 0x48CA], .vpack .always (r 6) (v 6) (v 10) 1 .trunc),
    ([0xF905, 0x4CCA], .vunpk .always (r 6) (v 10) 1 1 false),
    ([0xF900, 0x50CA], .vscale .always (r 6) (v 6) (x 10) .rne),
    ([0xF900, 0xF461, 0x40CA], .vextr .always (r 3) (v 6) (x 10) true),
    ([0xF900, 0xF460, 0x44CA], .vins .always (r 3) (x 6) (x 10)),
    ([0xF903, 0xF460, 0x54CA], .vblkmax .always (r 3) (v 6) (v 10) .e3m2)] := by decide

/-- Page 5 (R66, R67), with fa = 6, fb = 10 and the other fields 5, cut to their widths. -/
theorem test_decode_page5 : decodes [
    ([0xF940, 0x08AA], .vlds .always (r 5) (x 10) 0),
    ([0xF940, 0x0CAA], .rld .always (r 5) (x 10) 0),
    ([0xF940, 0x10AA], .rst .always (x 5) (x 10) 0 false false),
    ([0xF940, 0x14AA], .rstv .always (v 5) (x 10) 0 false false),
    ([0xF945, 0x18AA], .ldacq .always (r 5) (x 10) 0 .system),
    ([0xF945, 0x1CAA], .strel .always (x 5) (x 10) 0 .system),
    ([0xF940, 0x200A], .fill .always (x 10) 0),
    ([0xF940, 0x240A], .empty .always (x 10) 0),
    ([0xF940, 0x28AA], .takenb .always (r 5) (x 10) 0),
    ([0xF940, 0x2CAA], .festat .always (r 5) (x 10) 0),
    ([0xF940, 0x300A], .pref .always (x 10) 0),
    ([0xF940, 0x340A], .flushl .always (x 10) 0),
    ([0xF940, 0xF540, 0xF005, 0x0066], .vldg .always (r 3) (x 6) 5 (v 10)),
    ([0xF940, 0xF540, 0xF005, 0x0466], .vsts .always (v 3) (x 6) 5 (v 10))] := by decide

/-- Page 6 (R66, R67), with fa = 6, fb = 10 and the other fields 5, cut to their widths. -/
theorem test_decode_page6 : decodes [
    ([0xF980, 0x04CA], .syarrive .always (r 6) (x 10)),
    ([0xF980, 0x080A], .syret .always (x 10)),
    ([0xF981, 0x0CCA], .syread .always (r 6) (x 10) true),
    ([0xF980, 0x1000], .gbar),
    ([0xF980, 0x180A], .obowe .always (x 10)),
    ([0xF995, 0x1CCA], .obgive .always (x 6) (x 10) .toActivity .tuple),
    ([0xF981, 0x20CA], .obq .always (r 6) (x 10) 1),
    ([0xF981, 0x24CA], .obrank .always (r 6) (x 10) 1),
    ([0xF986, 0xF540, 0x0066], .syinit .always (x 3) (x 6) (x 10) .barrier true),
    ([0xF981, 0xF460, 0x14CA], .obnew .always (r 3) (x 6) (x 10) true)] := by decide

/-- Page 7 (R66, R67), with fa = 6, fb = 10 and the other fields 5, cut to their widths. -/
theorem test_decode_page7 : decodes [
    ([0xF9C0, 0x00CA], .tsput (v 6) (x 10)),
    ([0xF9C0, 0xF4C0, 0x0485], .tscopy (r 6) (r 4) (x 5)),
    ([0xF9C1, 0xF4C0, 0x0485], .tscopyNb (r 6) (r 4) (x 5)),
    ([0xF9C0, 0xF4C0, 0x0885], .tstake (r 6) (r 4) (x 5)),
    ([0xF9C1, 0xF4C0, 0x0885], .tstakeNb (r 6) (r 4) (x 5)),
    ([0xF9C0, 0xF460, 0x0CCA], .tsowe .always (r 3) (x 6) (x 10)),
    ([0xF9C0, 0xF4C0, 0x1085], .tscount .always (r 6) (r 4) (x 5))] := by decide

/-- Page 8 (R66, R67), with fa = 6, fb = 10 and the other fields 5, cut to their widths. -/
theorem test_decode_page8 : decodes [
    ([0xFA00, 0x0005], .fork .always 5),
    ([0xFA00, 0x0400], .taskend .always),
    ([0xFA00, 0x08CA], .send .always (v 6) (x 10)),
    ([0xFA05, 0x08CA], .sendSys .always (v 6) (x 10) 1),
    ([0xFA00, 0x0CCA], .sendr .always (v 6) (x 10)),
    ([0xFA00, 0x10CA], .reply .always (x 6) (x 10)),
    ([0xFA00, 0x1400], .msgend .always),
    ([0xFA00, 0x182A], .mbw .always 1 (x 10)),
    ([0xFA00, 0x1CC1], .mbr .always (r 6) 1),
    ([0xFA00, 0x20CA], .copy .always 6 (v 10)),
    ([0xFA00, 0x24CA], .reduceExact .always 6 (v 10)),
    ([0xFA00, 0xF401, 0x24CA], .reduceTree .always 6 (v 10))] := by decide

/-- Page 9 (R66, R67), with fa = 6, fb = 10 and the other fields 5, cut to their widths. -/
theorem test_decode_page9 : decodes [
    ([0xFA40, 0x0140], .claim .always 10),
    ([0xFA40, 0x0540], .release .always 10),
    ([0xFA40, 0x08C4], .mxstat .always (r 6) 4),
    ([0xFA40, 0x0C05], .mxdrain .always 5)] := by decide

/-- Page 10 (R66, R67), with fa = 6, fb = 10 and the other fields 5, cut to their widths. -/
theorem test_decode_page10 : decodes [
    ([0xFA80, 0x0000], .trapret),
    ([0xFA80, 0x04C5], .rdctr .always (r 6) 5),
    ([0xFA80, 0x0803], .pwrhint .always 3),
    ([0xFA80, 0x0C00], .turnend .always),
    ([0xFA80, 0x10C1], .rdturn .always (r 6) 1),
    ([0xFA80, 0x1401], .tlbinv .always true),
    ([0xFA80, 0x1805], .dbgbrk .always 5),
    ([0xFA80, 0x1C00], .halt .always),
    ([0xFA80, 0x2001], .setmode true),
    ([0xFA80, 0x2015], .setmodeConst 5)] := by decide

/-- MBR's fb names a register in the movement slot only (R235). -/
theorem test_decode_mbr : decode { slot0 := true } [0xFA00, 0x1CCA] = .ok (.mbrMovement .always (r 6) (x 10), 4) ∧
    decode {} [0xFA00, 0x1CC1] = .ok (.mbr .always (r 6) 1, 4) := by decide

/-- Maintenance decode (R64): the tag of a source field is its bits 4 and 3: 01 a scalar register, 10 a constant, 11 a literal, which XIMM
extends; 00 a vector register, which no scalar source may be. -/
theorem test_decode_maintenance :
    (∀ p ∈ ([([0x0C2B], .add .always (r 1) (x 1) (x 3)), ([0x0C32], .add .always (r 1) (x 1) (.const 2)),
        ([0x0C3D], .add .always (r 1) (x 1) (.lit 5)), ([0xF001, 0x0C3A], .add .always (r 1) (x 1) (.lit 10)),
        ([0xB42B], .vadd .always (r 1) (v 1) (.bcast (x 3)))] : List (List Half × Instr)),
      decode { maint := true } p.1 = .ok (p.2, 2 * p.1.length)) ∧
    decode { maint := true } [0x0C20] = .error .badCode ∧ decode {} [0x0C20] = .ok (.add .always (r 1) (x 1) (x 0), 2) := by decide

/-! ## Ill-formed instructions are refused -/

/-- Every instruction of a list is ill formed under the decoding beside it. -/
abbrev illFormed (l : List (DecMode × Instr)) : Prop := ∀ p ∈ l, wf p.1 p.2 = false

/-- Lane-by-lane predication of a scalar instruction (R61), a register shared in maintenance decode, a private source above 15 there, a
constant or literal outside it, and literals too wide for their field or two in one statement (R53, R62 to R64). -/
theorem test_wf_operands : illFormed [
    ({}, .add (.lanes 1 false) (r 1) (x 2) (x 3)), ({ maint := true }, .add .always (sh 1) (x 2) (x 3)),
    ({ maint := true }, .add .always (r 1) (x 16) (x 3)), ({ maint := true }, .add .always (r 1) (.reg (sh 2)) (x 3)),
    ({}, .add .always (r 1) (x 2) (.const 3)), ({}, .add .always (r 1) (x 2) (.lit 3)),
    ({ maint := true }, .mov .always (r 1) (.lit 0x200000000)), ({ maint := true }, .add .always (r 1) (.lit 8) (.lit 1)),
    ({ maint := true }, .ldd .always (r 1) (.lit 8) 0), ({}, .vadd .always (r 1) (v 2) (.bcast (x 3))),
    ({ maint := true }, .vadd .always (r 1) (v 16) (v 3)), ({ maint := true }, .tstake (r 4) (r 16) (x 10)), ({}, .tstake (r 4) (r 3) (x 10))] := by
  decide

/-- Fields with values that no encoding has, or that R59's field step refuses. -/
theorem test_wf_fields : illFormed [
    ({}, .mts .always .tenant (x 1)), ({}, .mts .always .coreid (x 1)), ({}, .ext .always (r 1) (x 2) 32 32), ({}, .ins .always (r 1) (x 2) 63 1),
    ({}, .loop (x 1) 0), ({}, .loop (x 20) 1), ({}, .mxq .always (v 16)), ({}, .vpack .always (r 1) (v 2) (v 3) 3 .trunc),
    ({}, .vpack .always (r 1) (v 2) (v 3) 2 .signed), ({}, .vunpk .always (r 1) (v 2) 0 2 false), ({}, .vunpk .always (r 1) (v 2) 2 1 false),
    ({}, .vunpk .always (r 1) (v 2) 3 0 false), ({}, .rstv (.lanes 1 false) (v 1) (x 8) 0 true false), ({}, .obq .always (r 1) (x 2) 3),
    ({ slot0 := true }, .mbr .always (r 6) 1), ({}, .mbrMovement .always (r 6) (x 10)), ({}, .mxstat .always (r 16) 0),
    ({}, .mxstat .always (r 1) 5), ({}, .mxdrain .always 0), ({}, .rdctr .always (r 1) 6), ({}, .rdctr .always (r 1) 7), ({}, .pwrhint .always 5)] := by
  decide

/-! ## States -/

/-- A slot that runs at an address, past a first word, with scalar registers. -/
abbrev act (regs : SMap Word) (y : Slot := {}) : Slot := { y with status := .run, pc := 0x40000000, ilen := 2, s := regs }
/-- VF 0 up, with slots 1 to 14, every local bank, cluster memory, bays and accumulators, and a share of 64 sync slots. -/
abbrev part : SMap Word := [(0x100, 1), (0x108, 0x7FFE), (0x110, 0xFFFF), (0x118, 0x100), (0x120, 0x50FFFFF), (0x128, 0x40)]
/-- A slot of core 0 that issues. -/
abbrev on (k : Nat) (regs : SMap Word) (y : Slot := {}) (co : Core := {}) : State :=
  { core := 0, slot := k, cores := [(0, { co with slots := (k, act regs y) :: co.slots })], pf := part }
/-- The bytes of a word in memory. -/
abbrev wordAt (pa : Nat) (w : Word) : Memory := Memory.store [] pa ((List.range 8).map fun j => w.extractLsb' (8 * j) 8)
/-- The local memory of core 0. -/
abbrev P : Nat := 0x2000000000
/-- The next state, where there is one. -/
def nx : Out → State
  | .next t => t
  | _ => {}
/-- Whether there is a next state. -/
def goes : Out → Bool
  | .next _ => true
  | _ => false
theorem nx_of_goes {o : Out} (h : goes o = true) : o = .next (nx o) := by cases o <;> first | rfl | cases h
/-- The value, where there is one. -/
abbrev got {ε α : Type} (d : α) : Except ε α → α
  | .ok a => a
  | .error _ => d
/-- No write is on its way to a register of a slot whose list of busy registers is empty. -/
theorem settled_of_idle {s : State} {c k : Nat} (h : (s.at c k).cur.busy = []) : Settled s c k := by
  have h2 : (s.slotOf c k).busy = [] := h
  intro r; simp [State.older, Slot.older, h2]
/-- The state with room found. -/
abbrev roomOf : Room → State
  | .ok s _ => s
  | .busy s _ _ => s
  | .full s => s
/-- The entry of the spill area in which room was found. -/
abbrev roomAt : Room → Option Nat
  | .ok _ i => i
  | _ => none
theorem ok_of_hasRoom {x : Room} (h : (match x with | .ok _ _ => true | _ => false) = true) : x = .ok (roomOf x) (roomAt x) := by
  cases x <;> first | rfl | cases h
theorem full_of_noRoom {x : Room} (h : (match x with | .full _ => true | _ => false) = true) : x = .full (roomOf x) := by
  cases x <;> first | rfl | cases h
/-- Nothing holds the words of a vector access. -/
theorem lanesFree_of {s : State} {i : Instr} {l : List (LaneLoad × MemKind)} (h : s.donated s.bankVf = false)
    (w : ((laneWalks s i).all fun a => !s.walkHeld a) = true) : LanesFree s i l :=
  ⟨.inl h, fun a ha => by simpa using List.all_eq_true.1 w a ha⟩
/-- A deferred list of LDS entries and the TAKE after them. -/
theorem listed_of {s : State} {pa : Nat} {l rest : List Waiter}
    (h : (s.waiters.filter fun w => w.pa == pa && !w.held && w.req.isFE) = l ++ rest)
    (hl : (l.all fun w => match w.req with | .lds _ _ _ false _ => true | _ => false) = true)
    (hr : ((rest.take 1).all fun w => match w.req with | .take _ _ _ false _ _ => true | _ => false) = true)
    (hs : ((l ++ rest.take 1).all fun w => (s.at w.core w.slot).cur.busy.isEmpty && ((s.coreOf w.core).spillResv w.slot).isNone) = true)
    (hn : ((l ++ rest.take 1).map fun w => (w.core, w.slot)).Nodup) : Listed s pa l rest := by
  refine ⟨h, fun w hw => ?_, fun w hw => ?_, fun w hw => ?_, hn⟩
  · have := List.all_eq_true.1 hl w hw
    split at this
    · exact ⟨_, _, _, _, by assumption⟩
    · cases this
  · have := List.all_eq_true.1 hr w hw
    split at this
    · exact ⟨_, _, _, _, _, by assumption⟩
    · cases this
  · have := List.all_eq_true.1 hs w hw
    rw [Bool.and_eq_true] at this
    exact ⟨settled_of_idle (List.isEmpty_iff.1 this.1), Option.isNone_iff_eq_none.1 this.2⟩


/-! ## Witnesses: states and operands that meet the hypotheses of the statements -/

namespace La
abbrev vs : SMap Vec := [
    (
      1,
      ofLanes fun i => if i = 1 then 0x3F800000 else if i = 2 then 0x7F800001 else if i = 3 then 0x00000003 else if i = 4 then 0xFF800000 else if i = 5 then 0x40490FDB else BitVec.ofNat 32 (i * 0x01234567)),
    (
      2,
      ofLanes fun i => if i = 1 then 0x3F800001 else if i = 3 then 0x80000003 else if i = 4 then 0x7F800000 else if i = 5 then 0x40000000 else BitVec.ofNat 32 (i * 0x41234567)),
    (3, ofLanes fun i => 0x3F000000)]
end La

namespace Me
abbrev v1 : Vec := ofLanes fun i => BitVec.ofNat 32 (i * 0x01010103 + 7)
abbrev v2 : Vec := ofLanes fun i => BitVec.ofNat 32 ((15 - i) + i * 0x20000000)
abbrev sv : State := on 1 [(1, 0x40), (2, 35)] { v := [(1, v1), (2, v2)], p := [(1, 0x5)] }
abbrev mv : SMap Word := [(1, 0x40), (2, 0x41), (4, 0x123456789ABCDEF0)]
abbrev sm : State := { on 1 mv with mem := wordAt (P + 0x40) 0x8877665544332211 ++ wordAt (P + 0x48) 0x99, full := [P + 0x40] }
end Me

namespace Ld
abbrev v1 : Vec := ofLanes fun i => BitVec.ofNat 32 (i * 0x01010103 + 7)
abbrev v2 : Vec := ofLanes fun i => BitVec.ofNat 32 (i * 4)
abbrev mv : SMap Word := [(1, 0x40), (2, 0x41), (4, 0x123456789ABCDEF0)]
abbrev mem0 : Memory := wordAt (P + 0x40) 0x8877665544332211 ++ wordAt (P + 0x48) 0x99
abbrev sm : State := { on 1 mv with mem := mem0, full := [P + 0x40] }
abbrev sl : State := { on 1 mv { v := [(1, v1), (2, v2)], p := [(1, 0x5)] } with mem := mem0 }
abbrev sg : State := { on 1 [(1, 1 * 2 ^ 32 + 0x40), (4, 0x123456789ABCDEF0)] {
        v := [(1, v1)], p := [(1, 5)], gangw := 2, gangh := 1, launch := some 1 } with
    cores := [
      (
        0,
        {
          slots := [
            (
              1,
              act [(1, 1 * 2 ^ 32 + 0x40), (4, 0x123456789ABCDEF0), (2, 2 * 2 ^ 32)] {
                v := [(1, v1)], p := [(1, 5)], gangw := 2, gangh := 1, launch := some 1 })], vfs := [(0, { launch := some 1, stage := 0 })] })],
    launches := [
      (
        1,
        {
          vf := 0, tenant := 0, die := 0, hq := 0, num := 0, stat := 0, image := 0, compl := 0, fsa := 0, fsb := 0, maxpt := 0, hbi := 0,
          guardian := 0, bayrank := 0, stages := [{ die := 0, x := 0, y := 0, w := 2, h := 1, bar := true, rank := 5, entry := 0 }],
          released := 1, phase := .live })], mem := wordAt (P + 0x20040) 0x8877665544332211 }
abbrev slp : State := { sl with poison := [P + 0x48] }
end Ld

namespace Sy
abbrev mv : SMap Word := [(1, 0x40), (2, 0x41), (4, 0x123456789ABCDEF0), (31, 0x50000000)]
abbrev s0 : State := on 1 mv { pl := 1, tvec := 0x41000000, sigacc := 0x1234, iword := 0xF0F0, sigPrev := 0x77 }
abbrev sF : State := on 1 mv { pl := 2, tvec := 0x41000000, ppl := 1 }
abbrev ld (c sl n : Nat) (w : Word) : Landing := { cycle := c, slot := sl, vf := 0, reg := BitVec.ofNat 5 n, scalar := some w }
abbrev sL : State := on 1 mv { ls := 0x40000000, le := 0x40000100, lc := 3 }
end Sy

namespace Lo
abbrev mv : SMap Word := [(1, 0x40), (2, 0x41), (4, 0x123456789ABCDEF0), (31, 0x50000000)]
abbrev sL : State := on 1 mv { ls := 0x40000000, le := 0x40000100, lc := 3 }
abbrev le0 : Word := BitVec.ofInt 64 (sL.cur.pc.toNat + 2 * (5 : BitVec 35).toInt) &&& 0x01FFFFFFFFFFFFFE
abbrev sp (s : State) (a : SSrc) : State := (s.modCur fun x => { x with
      ls := (s.cur.pc + BitVec.ofNat 64 s.cur.ilen) &&& 0x01FFFFFFFFFFFFFE, le := le0, lc := s.ssrc a })
abbrev sM (m : Memory) : State := { on 1 mv {} {
        utlb := [
          {
            vf := 0, pasid := 0, vpn := 1, bits := 30, pa := 0x40000000, kind := .near, rankClass := 0, w := true, x := true, fe := true,
            pr := false }] } with
    mem := m }
end Lo

namespace Fe
abbrev qOf (s : State) : Seat := s.nextSeat.getD ⟨0, 0, 0, 0, false⟩
abbrev uOf (s : State) : State := (((seated s (qOf s) []).modCur fun x => { x with sigPrev := x.sigacc }).fetchInstr).1
abbrev t1 := State.reset.withFetchWord 16 0x0823
abbrev t3 := State.reset.withFetchWord 32 0xFC800823
abbrev t5 : State := State.reset.withFetchWord 32 0xFA801C00
end Fe

namespace Sn
abbrev mv : SMap Word := [(1, 0x40), (2, 5), (3, 3 * 2 ^ 24 + 1), (4, 0x60), (6, 0x100), (5, 0xFFFFFFFFFFFFFF), (8, 7)]
abbrev w0 (ty ph val : Nat) : Word := BitVec.ofNat 64 (2 ^ 60 + ty * 2 ^ 56 + ph * 2 ^ 48 + val)
abbrev sy (ty ph val : Nat) (cnt : Nat := 0) (y : Slot := {}) (obs : List Oblig := []) : State :=
  { on 1 mv y { vfs := [(0, { sync := [(P + 0x40, cnt)] })], obs := obs } with
      mem := wordAt (P + 0x40) (w0 ty ph val) ++ wordAt (P + 0x48) 0x60 }
abbrev s0 : State := { on 1 mv with mem := wordAt (P + 0x40) 7 }
abbrev ob (k : ObKind) (o : Word) (rk : BitVec 56) : Oblig := { obj := o, kind := k, rank := rk, holder := 1 }
abbrev wt (t : Word) : State := { sy 1 3 9 with
    cores := [(0, { slots := [(1, act mv), (2, { act mv with status := .wait (.sync 0x60) })], vfs := [(0, { sync := [(P + 0x40, 0)] })] })],
    waiters := [⟨0x2000, P + 0x40, 0, 2, .sywait (.priv 9) 0x40 (P + 0x40) t 0xFFFFFFFFFFFFFF, false⟩] }
abbrev lau (bar : Bool) (n : Nat) : Launch := {
    vf := 0, tenant := 0, die := 0, hq := 0, num := 0, stat := 0, image := 0, compl := 0, fsa := 0, fsb := 0, maxpt := 0, hbi := 0,
    guardian := 0, bayrank := 0, stages := [{ die := 0, x := 0, y := 0, w := n, h := 1, bar := bar, rank := 5, entry := 0 }], released := 1,
    phase := .live }
abbrev gb (bar : Bool) (y : Slot := {}) (cv : CoreVf := {}) (co1 : List (Nat × Core) := []) (n : Nat := 1) (obs : List Oblig := []) (more : SMap Slot := []) : State := { on 1 mv with
    launches := [(1, lau bar n)],
    cores := (
      0, { slots := (1, act mv { y with launch := some 1 }) :: more, vfs := [(0, { cv with launch := some 1, stage := 0 })], obs := obs }) :: co1 }
abbrev c1 (a : Bool) : List (Nat × Core) := [
    (
      1,
      {
        slots := [(2, { act mv { launch := some 1, barPhase := some 0 } with status := .wait (.gbar 0 5) })],
        vfs := [(0, { launch := some 1, stage := 0, barArrived := a })] })]
end Sn

namespace Tu
abbrev bnd : Band := { rows := [{ len := 65535, vfs := [(0, { idle := false })] }], started := true }
abbrev tl (k : MemKind) : TlbEntry := {
    vf := 0, pasid := 0, vpn := 1, bits := 30, pa := 0x40000000, kind := k, rankClass := 2, w := true, x := true, fe := true, pr := false }
abbrev mv : SMap Word := [(1, 0x40000000), (2, 0x4C41), (3, 3), (4, 4), (8, 0x40)]
abbrev tup : Vec := ofLanes fun i => if i = 0 then 0x4C41 else if i = 1 then 1 else if i < 4 then BitVec.ofNat 32 (i * 5) else 0
abbrev pv : Vec := ofLanes fun i => if i = 0 then 0x4C41 else 0
abbrev pm : Vec := ofLanes fun i => if i = 0 then 0xFFFFFFFF else 0
abbrev pv2 : Vec := ofLanes fun i => if i = 0 then 0x4C41 else if i = 2 then 11 else 0
abbrev pm2 : Vec := ofLanes fun i => if i = 0 ∨ i = 2 then 0xFFFFFFFF else 0
abbrev vv : SMap Vec := [(1, tup), (2, pv), (3, pm), (4, pv2), (5, pm2)]
abbrev ob (k : ObKind) (o : Word) (rk : BitVec 56) (sl : Nat := 1) : Oblig := { obj := o, kind := k, rank := rk, holder := sl }
abbrev hdr : Memory := wordAt 0x40000000 (2 * 2 ^ 32 + 0x54530001) ++ wordAt 0x40000008 0x40000
abbrev s0 (obs : List Oblig := []) (k : Nat := 1) : State := { on k mv { v := vv } { utlb := [tl .ts], obs := obs } with
    band := bnd, mem := hdr }
abbrev sl : Nat := homeSlice 0x40000 0x4C41
abbrev fl (r : TsReq) (k : Nat := 1) (pk : Bool := false) : TsEntry := {
    core := 0, slot := k, vf := 0, tenant := 0, sr := 0x40000000, region := 0x40000, slice := sl, req := r, rank := 0x20000, parked := pk }
abbrev fs (r : TsReq) (more : List TsEntry := []) (obs : List Oblig := []) (mem : Memory := []) : State :=
  { on 1 mv with band := bnd, mem := hdr ++ mem, ts := fl r :: more,
                 cores := [
                     (
                       0,
                       {
                         slots := [
                           (1, { act mv { v := vv, tvec := 0x77 } with status := .wait (.tupleSent none) }),
                           (2, { act mv with status := .wait (.tupleParked 0x20000) })], obs := obs, utlb := [tl .ts] })] }
abbrev ent (i : Nat) (t : Vec) (seq : Nat) : Memory := Memory.store [] (0x40001000 + (sl * 2 + i) * 128) ((List.range 64).map (fun j => t.extractLsb' (8 * j) 8) ++ (List.range 8).map (fun j => (BitVec.ofNat 64 seq).extractLsb' (8 * j) 8) ++ [1])
abbrev bothT : Memory := ent 0 tup 7 ++ ent 1 tup 3
abbrev sg (obs : List Oblig) (more : SMap Slot := []) (mem : Memory := []) : State := { on 1 [
        (1, 0x40), (2, 2 * 2 ^ 16), (3, 2 * 2 ^ 16 + 2 ^ 20), (4, 2 ^ 16)] {} { obs := obs } with
    cores := [
      (
        0,
        {
          slots := (1, act [(1, 0x40), (2, 2 * 2 ^ 16), (3, 2 * 2 ^ 16 + 2 ^ 20), (4, 2 ^ 16)]) :: more, obs := obs,
          vfs := [(0, { sync := [(P + 0x40, 1)] })] })], mem := mem }
end Tu

namespace Ta
abbrev bnd : Band := { rows := [{ len := 65535, vfs := [(0, { idle := false })] }], started := true }
abbrev mv : SMap Word := [(1, 0x40), (2, 5), (3, 33), (4, 0x60), (8, 7)]
abbrev ob (k : ObKind) (o : Word) (rk : BitVec 56) (sl : Nat := 1) : Oblig := { obj := o, kind := k, rank := rk, holder := sl }
abbrev w0 (ty ph val : Nat) : Word := BitVec.ofNat 64 (2 ^ 60 + ty * 2 ^ 56 + ph * 2 ^ 48 + val)
abbrev rc (n : Nat) : TaskRec := { entry := BitVec.ofNat 64 (0x40000000 + n), arg1 := 7, arg2 := 8, arg3 := 9, arg4 := BitVec.ofNat 64 n }
abbrev s0 (cv : CoreVf := {}) (obs : List Oblig := []) (rs : SMap Word := mv) (y : Slot := {}) : State := { on 1 rs y { vfs := [(0, cv)], obs := obs } with
    band := bnd, mem := wordAt (P + 0x40) (w0 3 5 9) ++ wordAt (P + 0x48) 0x60 }
abbrev fo : Oblig := { ob .arrive (boundObj 0 0x40) 0x60 with fromFork := true }
abbrev emt (cv : CoreVf) : State := { on 2 mv {} { vfs := [(0, cv)] } with band := bnd }
abbrev lau (n : Nat) : Launch := {
    vf := 0, tenant := 0, die := 0, hq := 0, num := 0, stat := 0, image := 0, compl := 0, fsa := 0, fsb := 0, maxpt := 0, hbi := 0,
    guardian := 0, bayrank := 0, stages := [{ die := 0, x := 0, y := 0, w := n, h := 1, bar := false, rank := 5, entry := 0 }],
    released := 1, phase := .live }
abbrev gs (cv cu : CoreVf) : State := { on 1 mv with
    band := bnd, launches := [(1, lau 3)],
    cores := [
      (0, { slots := [(1, act mv { launch := some 1 })], vfs := [(0, { cv with launch := some 1, stage := 0 })] }),
      (1, { vfs := [(0, { cu with launch := some 1, stage := 0 })] }), (2, { vfs := [(0, { launch := some 1, stage := 0 })] })] }
abbrev tlb : TlbEntry := {
    vf := 0, pasid := 0, vpn := 1, bits := 30, pa := 0x40000000, kind := .near, rankClass := 2, w := true, x := true, fe := false,
    pr := false }
abbrev dq (cv : CoreVf) : State := { on 1 mv {} {
        utlb := [tlb], vfs := [(0, { cv with dqspill := BitVec.ofNat 64 (2 ^ 58 + 0x40000000) })] } with
    band := bnd, mem := wordAt 0x40000000 0x4444 ++ wordAt 0x40000008 0x55 ++ wordAt 0x40000028 0x66 }
end Ta

namespace Ms
abbrev bnd : Band := { rows := [{ len := 65535, vfs := [(0, { idle := false })] }], started := true }
abbrev md (a : Nat) : Vec := ofLanes fun i => if i = 0 then BitVec.ofNat 32 a else if i = 2 then 0x40 else if i = 4 then 0x77 else if i = 10 then 0x99 else if i < 16 then BitVec.ofNat 32 (5 * i) else 0
abbrev mv : SMap Word := [
    (1, 1), (2, BitVec.ofNat 64 (2 ^ 31 + 3 * 2 ^ 32 + 5)), (3, 2), (4, 0x60), (8, 7), (9, BitVec.ofNat 64 (5 * 2 ^ 32 + 0x40)),
    (10, BitVec.ofNat 64 (2 ^ 45 + 5 * 2 ^ 32 + 0x40))]
abbrev vv : SMap Vec := [(1, md 0x40000000), (2, md 0x40000001), (3, md 0), (4, ofLanes fun i => if i = 2 then 5 else 0)]
abbrev ob (k : ObKind) (o : Word) (rk : BitVec 56) (sl : Nat := 1) : Oblig := { obj := o, kind := k, rank := rk, holder := sl }
abbrev lau (n : Nat) : Launch := {
    vf := 0, tenant := 0, die := 0, hq := 0, num := 0, stat := 0, image := 0, compl := 0, fsa := 0, fsb := 0, maxpt := 0, hbi := 0,
    guardian := 0, bayrank := 0, stages := [{ die := 0, x := 0, y := 0, w := n, h := 1, bar := false, rank := 5, entry := 0 }],
    released := 1, phase := .live }
abbrev gs (y : Slot := {}) (obs : List Oblig := []) (k : Nat := 1) (cv : CoreVf := {}) : State := { on 1 mv with
    slot := k, band := bnd, launches := [(1, lau 2)], pf := (0xB380, 0) :: part,
    cores := [
      (
        0,
        {
          slots := [(k, act mv { y with launch := some 1, gangw := 2, gangh := 1, v := vv })],
          vfs := [(0, { cv with launch := some 1, stage := 0 })], obs := obs }), (1, { vfs := [(0, { launch := some 1, stage := 0 })] })] }
abbrev so : State := gs {} [ob .reply (BitVec.ofNat 64 (5 * 2 ^ 32 + 0x40)) 9]
abbrev msg (k : MsgKind := .plain) (d : Vec := md 0x40000000) : Msg := { data := d, src := 0x5, kind := k, target := 1 }
abbrev hs (l : List Msg) : State := gs {} [] 1 { inbox := l }
abbrev ch (rdy hold : BitVec 4) (l : List Msg) : State := { gs {} [] 1 { inbox := l, ready := rdy, hold := hold } with
    vfb := [(0x50, BitVec.ofNat 64 (2 ^ 63 + 0x40000100))] }
end Ms

namespace Co
abbrev bnd : Band := { rows := [{ len := 65535, vfs := [(0, { idle := false })] }], started := true }
abbrev q4 (a b c d : Nat) : Vec := ofLanes fun i => match i with | 0 => BitVec.ofNat 32 a | 2 => BitVec.ofNat 32 b | 4 => BitVec.ofNat 32 c | 5 => BitVec.ofNat 32 (c / 2^32) | 6 => BitVec.ofNat 32 d | _ => 0
abbrev mv : SMap Word := [(1, 1), (2, 0x21), (3, 2), (4, 0x60), (8, 7)]
abbrev vv : SMap Vec := [(1, q4 0x40 0x80 0x0000000001000008 0), (2, q4 0x40 0x80 (7*2^48+1) 0), (3, q4 0x40 0x80 (2^32+7*2^48+1) 0x10003)]
abbrev lau (n : Nat) : Launch := {
    vf := 0, tenant := 0, die := 0, hq := 0, num := 0, stat := 0, image := 0, compl := 0, fsa := 0, fsb := 0, maxpt := 0, hbi := 0,
    guardian := 0, bayrank := 0, stages := [{ die := 0, x := 0, y := 0, w := n, h := 1, bar := false, rank := 5, entry := 0 }],
    released := 1, phase := .live }
abbrev ob (k : ObKind) (o : Word) (rk : BitVec 56) (sl : Nat := 1) : Oblig := { obj := o, kind := k, rank := rk, holder := sl }
abbrev gs (y : Slot := {}) (obs : List Oblig := []) (more : SMap Slot := []) (k : Nat := 1) (cv : CoreVf := {}) : State := { on 1 mv with
    slot := k, band := bnd, launches := [(1, lau 2)],
    cores := [
      (
        0,
        {
          slots := (k, act mv { y with launch := some 1, gangw := 2, gangh := 1, v := vv }) :: more,
          vfs := [(0, { cv with launch := some 1, stage := 0 })], obs := obs }), (1, { vfs := [(0, { launch := some 1, stage := 0 })] })],
    mem := wordAt (P + 0x40) 0x1234567840490fdb }
abbrev ce (st : Bool) (w2 : Word := 0x0000000001000008) : CopyEntry := {
    w0 := 0x40, w1 := 0x80, w2 := w2, w3 := 0, vf := 0, tenant := 0, core := 0, slot := 1, gen := 0, sd := 9, started := st, seq := 3 }
abbrev eg (l : List CopyEntry) : State := { gs { pendRegs := [(9, false)] } with
    dies := [(0, { engines := [(0, { chain := l, next := 3, done := 2 })] })] }
abbrev pt (n : Nat) (tree : Bool) : Participant := {
    index := 0, core := 0, slot := 1, gen := 0, sd := 9, vf := 0, tenant := 0, w0 := 0x40, w1 := 0x80, w2 := BitVec.ofNat 64 n, w3 := 0,
    tree := tree }
abbrev co (n : Nat) (tree : Bool) : Collective := { tag := 7, gang := some (0, 0), vf := 0, tenant := 0, parts := [pt n tree] }
abbrev cs (n : Nat) (tree : Bool) : State := { gs { pendRegs := [(9, true)] } with colls := [co n tree] }
end Co

namespace Mx
abbrev bnd : Band := { rows := [{ len := 65535, vfs := [(0, { idle := false })] }], started := true }
abbrev cm (l : List Nat) : Vec := ofLanes fun i => BitVec.ofNat 32 (l.getD i 0)
abbrev mv : SMap Word := [(1, 1), (2, 0x21), (3, 2), (4, 0x60), (8, 7)]
abbrev ob (k : ObKind) (o : Word) (rk : BitVec 56) (sl : Nat := 1) : Oblig := { obj := o, kind := k, rank := rk, holder := sl }
abbrev mq (v : Vec) (q : List MxCmd) (obs : List Oblig := []) (bays : SMap Bay := []) (y : Slot := {}) (more : SMap Slot := []) (k : Nat := 1) : State :=
  { on k mv { y with v := [(1, v)] } { vfs := [(0, { mxq := q, mxSeq := 20 })], obs := obs, bays := bays } with
      band := bnd,
      cores := [
        (0, { slots := (k, act mv { y with v := [(1, v)] }) :: more, vfs := [(0, { mxq := q, mxSeq := 20 })], obs := obs, bays := bays })] }
abbrev tlo (st : Nat) : Vec := cm [1 + st * 256, 0xC, 0x80]
abbrev rel (b : Nat) : Oblig := ob .release (BitVec.ofNat 64 (2 ^ 63 + b)) 5
abbrev mc (v : Vec) (bays : SMap Bay := []) (accs : SMap Acc := []) (w : List MxCmd := []) : State :=
  { (mq v ({ cmd := v, seq := 3 } :: w) [] bays) with
      mem := Memory.store [] (P + 0x80) ((List.range 600).map fun i => BitVec.ofNat 8 (i * 37 + 5)),
      cores := [
        (
          0,
          {
            slots := [(1, act mv { v := [(1, v)] })], vfs := [(0, { mxq := { cmd := v, seq := 3 } :: w, mxSeq := 20 })], bays := bays,
            accs := accs })] }
abbrev cl : Bay := { claim := some 1 }
abbrev nt : Vec := cm [7 + 0x400 + 0x100, 0, 0, 0, 0, 0, 0, 0, 0, 0, 0, 0, 0, 0, 0x40]
abbrev mb (v : Vec) (bays : SMap Bay := []) (accs : SMap Acc := []) (e : SMap (Word × Bool) := []) : State :=
  { (mc v bays accs) with
      cores := [
        (
          0,
          {
            slots := [(1, act mv { v := [(1, v)] })],
            vfs := [(0, { mxq := [{ cmd := v, seq := 3, begun := true, early := e }], mxSeq := 20 })], bays := bays, accs := accs })] }
abbrev n2 : Waiter := { home := 0, pa := P + 0x40, core := 0, slot := 2, req := .lds (r 3) 0x40 (P + 0x40) false 0x40 }
end Mx

namespace Cn
abbrev bnd : Band := { rows := [{ len := 65535, vfs := [(0, { idle := false })] }], started := true }
abbrev mv : SMap Word := [(1, 1), (2, 0x21), (3, 2), (4, 0x60), (8, 7)]
abbrev st (y : Slot := {}) (k : Nat := 1) (co : Core := {}) : State := { on k mv y co with
    band := bnd, now := 100000, pf := (0x9000, 0x241) :: part }
abbrev kc (w : Word) (y : Slot := {}) : State := { st y with clusters := [(0, { kcfg := w })] }
abbrev isl (x : Island) : State := { st with islands := [(3, x)] }
end Cn

namespace Er
abbrev bnd : Band := { rows := [{ len := 65535, vfs := [(0, { idle := false })] }], started := true }
abbrev mv : SMap Word := [(1, 1), (2, 0x21), (3, 2), (4, 0x60), (8, 7)]
abbrev st (y : Slot := {}) (k : Nat := 1) (co : Core := {}) : State := { on k mv y co with
    band := bnd, now := 100000, pf := (0x9000, 0x241) :: part }
abbrev bd (x : Slot) (k : Nat := 1) (more : SMap Slot := []) : State := { st with
    core := 5, slot := k, cores := [(0, { slots := (k, { act mv x with status := x.status }) :: more })] }
abbrev pq : Parked := { pa := 0x40000000, core := 0, slot := 1 }
abbrev pf0 : State := { bd { status := .wait (.fetch 0x40000000) } with faultQ := [pq], dies := [(0, { busHeld := [busOf 0x40000000] })] }
abbrev pf1 : State := { bd { status := .wait (.fetch 0x40000000) } with faultQ := [pq], unavail := [0x40000] }
end Er

namespace Lq
abbrev bnd : Band := { rows := [{ len := 65535, vfs := [(0, { idle := false })] }], started := true }
abbrev hm (l : List (Nat × Nat)) : Memory := l.foldl (fun m p => Memory.store m p.1 ((List.range 8).map fun j => (BitVec.ofNat 64 p.2).extractLsb' (8 * j) 8)) []
abbrev pk (a : Nat) (stages : Nat) (infos : List Nat) : List (Nat × Nat) :=
  [
      (a, 0x40010000), (a + 8, 0), (a + 16, 0x1200000000000040), (a + 24, 5), (a + 32, 0x70000 + 77),
      (a + 40, 3 + stages * 2 ^ 24 + 2 * 2 ^ 28)] ++ (List.range 8).map fun i => (a + 64 + 8 * i, infos.getD i 0)
abbrev inf (die x y w h entry : Nat) (bar : Nat := 0) : Nat := die + x * 8 + y * 2 ^ 9 + w * 2 ^ 14 + h * 2 ^ 20 + bar * 2 ^ 26 + entry * 2 ^ 32
abbrev q0 : List (Nat × Nat) := [(0x10000, 0x20000), (0x10008, 4 + 0 * 256 + 1024), (0x10010, 1), (0x10018, 0x30000)]
abbrev st (mem : List (Nat × Nat)) : State :=
  { core := 5, band := bnd, now := 100000, pf := (0x8000, 2 ^ 25) :: (0x130, 7) :: part, hostMem := hm mem, vfb := [(0x200, 0x10000), (0x100, 0x8000000000000000)],
    vqs := [⟨0, 0, 0, 2⟩] }
abbrev s1 : State := st (q0 ++ pk 0x20080 2 [inf 0 0 0 2 1 5, inf 1 4 4 1 1 9 1])
abbrev s2 := nx (execLaunchTake 0 0 s1)
abbrev s3 := nx (execGangRelease 0 0 s2)
abbrev s4 := nx (execGangRelease 0 1 s3)
abbrev sd : State := { s1 with vqs := [] }
abbrev sp : State := { s1 with pf := (0x130, 6) :: part }
end Lq

namespace Te
abbrev row (t : Nat) (n : Nat := 100) : Row := {
    len := n, vfs := [(0, { idle := false, tenant := t, donate := 1 }), (1, { idle := false, tenant := 0, donate := 8 })] }
abbrev bnd : Band := { rows := [row 0, row 1], started := true }
abbrev mv : SMap Word := [(1, 1), (2, 0x21), (3, 2), (4, 0x60), (8, 7)]
abbrev st (b : Band := bnd) (y : Slot := {}) (k : Nat := 1) (co : Core := {}) (pf : SMap Word := []) : State := { on k mv y co with
    core := 7, band := b, now := 1000, pf := pf ++ (0x9000, 0x241) :: (0x180, 1) :: part }
abbrev b2 : Band := { bnd with edge := [(0, .stopped)], out := [(0, 0)], edgeAt := [(0, 100000)], turn := 1 }
abbrev b3 : Band := { bnd with turn := 1, done := 5, donateAt := [(0, 5)] }
abbrev b5 : Band := { pending := some [row 5] }
abbrev s5 : State := st b5 {} 1 {} [(8, 1000000), (0, 1)]
abbrev b6 : Band := { bnd with donateAt := [(0, 2000)], weights := [(0, 10, 40, 30), (1, 60, 20, 30)] }
abbrev b7 : Band := { bnd with lmin := (List.range 8).map fun v => (minKey v 1 0, 100 + v) }
abbrev hd : Word := BitVec.ofNat 64 (0 + 1 * 2 ^ 16 + 9 * 2 ^ 20)
abbrev pk : State := { st bnd with cores := [(0, { slots := [(1, { act mv { gen := 9 } with status := .parked 2 })] })] }
abbrev lau (n : Nat) : Launch := {
    vf := 0, tenant := 0, die := 0, hq := 0, num := 0, stat := 0, image := 0, compl := 0, fsa := 0, fsb := 0, maxpt := 0, hbi := 0,
    guardian := 0, bayrank := 0, stages := [{ die := 0, x := 0, y := 0, w := n, h := 1, bar := false, rank := 5, entry := 0 }],
    released := 1, phase := .live }
abbrev kg : State := { st bnd { launch := some 1 } 1 { vfs := [(0, { launch := some 1 })] } with launches := [(1, lau 2)] }
end Te

namespace Ki
abbrev bnd : Band := { rows := [{ len := 65535, vfs := [(0, { idle := false })] }], started := true }
abbrev mv : SMap Word := [(1, 1), (2, 0x21), (3, 2), (4, 0x60), (8, 7)]
abbrev st (y : Slot := {}) (k : Nat := 1) (co : Core := {}) : State := { on k mv y co with
    core := 7, band := bnd, now := 100000, pf := (0x9000, 0x241) :: part }
abbrev sv : Saved := {
    vf := 0, tenant := 3, core := 1, slot := 1, act := { pc := 0x44, ilen := 2, s := [(5, 6)], gen := 6 }, obs := [], reason := 1,
    late := some (.tupleSent none) }
abbrev te : TsEntry := {
    core := 1, slot := 1, gen := 6, vf := 0, tenant := 3, sr := 0x4400, region := 4, slice := 5, req := .count (.priv 9) 0 0 }
abbrev sl : State := { st with saved := [sv], ts := [te] }
abbrev wt (held : Bool) : Waiter := {
    home := 5, pa := P + 0x40, core := 0, slot := 1, req := .lds (.priv 9) 0x40 (P + 0x40) false 5, held := held }
abbrev sw (f : List Nat) : State := { (st) with
    waiters := [wt true], full := f, mem := wordAt (P + 0x40) 55,
    cores := [(0, { slots := [(1, { act mv with status := .wait (.deferred 5) })] })] }
abbrev il : Nat := 0x40000000
abbrev iv1 : Inval := ⟨il, 1, 0, 1⟩
abbrev pp : State := { st with pcselPend := [(3, (5, 2000))] , cores := [(0, { vfs := [(0, { pcnt := [(3, 5)] })] })] }
abbrev ps : State := { st with vfb := [(0x100, 0x8000000000000000), (0x300, 5)] }
abbrev lu : State := { st with lodge := { updating := true } }
end Ki

namespace Pl
abbrev s0 : State := on 1 [(1, 0x40), (2, 5)]
end Pl

namespace Mx3
abbrev bnd : Band := { rows := [{ len := 65535, vfs := [(0, { idle := false })] }], started := true }
abbrev cm (l : List Nat) : Vec := ofLanes fun i => BitVec.ofNat 32 (l.getD i 0)
abbrev mm (v : Vec) (bays : SMap Bay) (side : SMap Byte := []) : State :=
  { on 1 [] with
      band := bnd,
      cores := [(0, { slots := [(1, act [])], vfs := [(0, { mxq := [{ cmd := v, seq := 3 }], mxSeq := 4 })], bays := bays, side := side })] }
abbrev bay (l : SMap Byte) : Bay := {
    claim := some 1, valid := true, fmt := 8, nb := 2, codes := l, scales := (List.range 64).map fun i => (8 * (i / 2) + i % 2, 0x7F) }
abbrev c3 : Vec := cm [3 + 0x200000, 0x88]
abbrev c4 : Vec := cm [4 + 0x200000, 0x88]
abbrev ba : SMap Byte := [(1, 0x3C), (3, 0x40)]   -- A[0][0]=1, A[0][1]=2
abbrev bb : SMap Byte := [(129, 0x42), (131, 0x44)] -- B[1][0]=3, B[1][1]=4
abbrev s3 : State := mm c3 [(0, bay ba), (2, bay bb)]
abbrev s4 : State := mm c4 [(0, bay ba), (2, bay bb), (3, bay bb)] ((List.range 1024).map fun i => (i, 4))
abbrev q3 : MxCmd := { cmd := c3, seq := 3 }
abbrev q4 : MxCmd := { cmd := c4, seq := 3 }
theorem look_side (l : List Nat) (i : Nat) (h : i ∈ l) : SMap.look (l.map fun i => (i, (4 : Byte))) i = some 4 := by
  induction l with
  | nil => cases h
  | cons a l ih =>
    by_cases e : a = i
    · simp [SMap.look, e]
    · rw [List.map_cons]
      have := ih ((List.mem_cons.1 h).resolve_left fun h => e h.symm)
      simpa [SMap.look, e] using this
theorem side_mm (l : SMap Bay) (m : SMap Byte) : ((mm c4 l m).coreOf 0).side = m := rfl
theorem metaGood : s4.badMeta 0 c4 = none := by
  have hk : 16 * fmtKmax (cmdField c4 1 3 0) = 1024 := by decide +kernel
  have h0 : cmdField c4 2 11 0 = 0 := by decide +kernel
  unfold State.badMeta
  simp only [hk, h0]
  refine List.find?_eq_none.2 fun o ho => ?_
  obtain ⟨i, hi, rfl⟩ := List.mem_map.1 ho
  have := List.mem_range.1 hi
  simp only [Nat.zero_add, side_mm, look_side _ i hi, Option.getD_some]
  simp; omega
theorem checksGood : s4.mxChecks 0 0 c4 = none := by
  have h : s4.tagChecks 0 0 c4 =
      [(8 ≠ (s4.theBay 0 0 0).fmt.toNat || 8 ≠ (s4.theBay 0 0 2).fmt.toNat ||
          (s4.theBay 0 0 2).fmt != (s4.theBay 0 0 3).fmt || (s4.theBay 0 0 2).layout != (s4.theBay 0 0 3).layout, (0x42, 1)),
        ((s4.badMeta 0 c4).isSome, (0x42, (s4.badMeta 0 c4).getD 0))] := rfl
  unfold State.mxChecks
  rw [h, metaGood]
  decide +kernel

end Mx3

namespace Wy
abbrev mv : SMap Word := [(1, 0x40), (2, 0x41), (4, 0x123456789ABCDEF0)]
abbrev mem0 : Memory := wordAt (P + 0x40) 0x8877665544332211 ++ wordAt (P + 0x48) 0x99
abbrev iv : Inval := { line := P, die := 0, core := 0, slot := 2 }
abbrev si : State := { on 1 mv with dies := [(0, { invals := [iv], acks := [iv] })] }
abbrev po : Posted := {
    bytes := Safety.bytesAt (P + 0x48) 8 0x1122334455667788, words := [P + 0x48], full := true, target := 0, ord := false, vf := 0 }
abbrev sw : State := { on 1 mv { posted := [po] } with mem := mem0 }
abbrev w2 : Waiter := { home := 0, pa := P + 0x48, core := 0, slot := 2, req := .lds (r 3) 0x48 (P + 0x48) false 0x48 }
abbrev w3 : Waiter := { home := 0, pa := P + 0x48, core := 0, slot := 3, req := .take (r 3) 0x48 (P + 0x48) false (boundObj 0 0x48) 0x48 }
abbrev sq : State := { on 1 mv with
    mem := mem0, waiters := [w2, w3],
    cores := [(0, { slots := [(1, act mv), (2, { status := .wait (.deferred 0x48) }), (3, { status := .wait (.deferred 0x48) })] })] }
abbrev sl : State := { on 1 mv { p := [(1, 0x5)] } with mem := mem0 }
abbrev v1 : Vec := ofLanes fun i => BitVec.ofNat 32 (i * 0x01010103 + 7)
abbrev sg : State := { on 1 [(1, 1 * 2 ^ 32 + 0x41), (4, 0x123456789ABCDEF0)] {
        v := [(1, v1)], p := [(1, 5)], gangw := 2, gangh := 1, launch := some 1 } with
    cores := [
      (
        0,
        {
          slots := [
            (
              1,
              act [(1, 1 * 2 ^ 32 + 0x41), (4, 0x123456789ABCDEF0), (2, 2 * 2 ^ 32)] {
                v := [(1, v1)], p := [(1, 5)], gangw := 2, gangh := 1, launch := some 1 })], vfs := [(0, { launch := some 1, stage := 0 })] })],
    launches := [
      (
        1,
        {
          vf := 0, tenant := 0, die := 0, hq := 0, num := 0, stat := 0, image := 0, compl := 0, fsa := 0, fsb := 0, maxpt := 0, hbi := 0,
          guardian := 0, bayrank := 0, stages := [{ die := 0, x := 0, y := 0, w := 2, h := 1, bar := true, rank := 5, entry := 0 }],
          released := 1, phase := .live })], mem := wordAt (P + 0x20040) 0x8877665544332211 }
abbrev so : State := { on 1 [(1, 1 * 2 ^ 32 + 0x40), (4, 0x123456789ABCDEF0)] {
        v := [(1, v1)], p := [(1, 5)], gangw := 2, gangh := 1, launch := some 1 } with
    cores := [
      (
        0,
        {
          slots := [
            (
              1,
              act [(1, 1 * 2 ^ 32 + 0x40), (4, 0x123456789ABCDEF0), (2, 2 * 2 ^ 32)] {
                v := [(1, v1)], p := [(1, 5)], gangw := 2, gangh := 1, launch := some 1 })], vfs := [(0, { launch := some 1, stage := 0 })] })],
    launches := [
      (
        1,
        {
          vf := 0, tenant := 0, die := 0, hq := 0, num := 0, stat := 0, image := 0, compl := 0, fsa := 0, fsb := 0, maxpt := 0, hbi := 0,
          guardian := 0, bayrank := 0, stages := [{ die := 0, x := 0, y := 0, w := 2, h := 1, bar := true, rank := 5, entry := 0 }],
          released := 1, phase := .live })], mem := wordAt (P + 0x20040) 0x8877665544332211 }
end Wy

/-! ## Single steps -/

/-- Scalar `n` after a step. -/
abbrev sAfter (o : Out) (n : Nat) : Option Word :=
  match o with
  | .next t => some (t.sreg (r n))
  | _ => none
/-- Lane `i` of vector `n` after a step. -/
abbrev lAfter (o : Out) (n i : Nat) : Option Lane :=
  match o with
  | .next t => some (lane (t.vreg (r n)) i)
  | _ => none
/-- Predicate `n` after a step. -/
abbrev pAfter (o : Out) (n : PReg) : Option (BitVec 16) :=
  match o with
  | .next t => some (t.preg n)
  | _ => none
/-- The pc after a step. -/
abbrev pcAfter (o : Out) : Option Word :=
  match o with
  | .next t => some t.cur.pc
  | _ => none
/-- The value that a divide has on its way. -/
abbrev quotient (o : Out) : Option Word :=
  match o with
  | .next t =>
    match t.cur.status with
    | .wait (.divide _ v) => some v
    | _ => none
  | _ => none

/-- s1 = −1, s2 = 2, s3 = the most negative word, s4 = 65. -/
abbrev u0 : State := on 1 [(1, 0xFFFFFFFFFFFFFFFF), (2, 2), (3, 0x8000000000000000), (4, 65)]
/-- v1 and v2 hold one lane value each in lanes 0 to 15. -/
abbrev f0 (a b : Lane) : State := on 1 [(1, 0x40), (2, 2)] { v := [(1, ofLanes fun _ => a), (2, ofLanes fun _ => b)] }

/-- R113: sums and differences wrap; SUB takes fb from fa. -/
theorem test_add_sub : sAfter (exec (.add .always (r 5) (x 1) (x 2)) u0) 5 = some 1 ∧
    sAfter (exec (.sub .always (r 5) (x 2) (x 1)) u0) 5 = some 3 ∧ sAfter (exec (.addi .always (r 2) (-3)) u0) 2 = some 0xFFFFFFFFFFFFFFFF := by
  decide +kernel
/-- R113: MULH is signed, MULHU unsigned. -/
theorem test_mulh : sAfter (exec (.mulh .always (r 5) (x 1) (x 2)) u0) 5 = some 0xFFFFFFFFFFFFFFFF ∧
    sAfter (exec (.mulhu .always (r 5) (x 1) (x 2)) u0) 5 = some 1 ∧ sAfter (exec (.mul .always (r 5) (x 3) (x 2)) u0) 5 = some 0 := by
  decide +kernel
/-- R113: MIN is signed, MAXU unsigned; the most negative value is its own absolute value. -/
theorem test_min_abs : sAfter (exec (.min .always (r 5) (x 1) (x 2)) u0) 5 = some 0xFFFFFFFFFFFFFFFF ∧
    sAfter (exec (.maxu .always (r 5) (x 1) (x 2)) u0) 5 = some 0xFFFFFFFFFFFFFFFF ∧
    sAfter (exec (.abs .always (r 5) (x 3)) u0) 5 = some 0x8000000000000000 ∧ sAfter (exec (.neg .always (r 5) (x 2)) u0) 5 =
      some 0xFFFFFFFFFFFFFFFE := by decide +kernel
/-- R114: the printed examples, and the corner −2^63 by −1. -/
theorem test_div : quotient (exec (.div .always (r 5) (x 6) (x 2)) (on 1 [(6, -7), (2, 2)])) = some (-3) ∧
    quotient (exec (.rem .always (r 5) (x 6) (x 2)) (on 1 [(6, -7), (2, 2)])) = some (-1) ∧
    quotient (exec (.divu .always (r 5) (x 6) (x 2)) (on 1 [(6, 7)])) = some 0xFFFFFFFFFFFFFFFF ∧
    quotient (exec (.remu .always (r 5) (x 6) (x 2)) (on 1 [(6, 7)])) = some 7 ∧
    quotient (exec (.div .always (r 5) (x 3) (x 1)) u0) = some 0x8000000000000000 := by decide +kernel
/-- R115: a count of 65 shifts by 1; CLZ of 0 is 64. -/
theorem test_shift : sAfter (exec (.shl .always (r 5) (x 2) (x 4)) u0) 5 = some 4 ∧
    sAfter (exec (.sar .always (r 5) (x 3) (x 4)) u0) 5 = some 0xC000000000000000 ∧
    sAfter (exec (.shr .always (r 5) (x 3) (x 4)) u0) 5 = some 0x4000000000000000 ∧
    sAfter (exec (.rotl .always (r 5) (x 3) (x 4)) u0) 5 = some 1 ∧ sAfter (exec (.clz .always (r 5) (x 9)) u0) 5 = some 64 := by decide +kernel
/-- R115: ANDI extends its immediate by the sign, ORI by zeros. -/
theorem test_immediates : sAfter (exec (.andi .always (r 1) (-2)) u0) 1 = some 0xFFFFFFFFFFFFFFFE ∧
    sAfter (exec (.ori .always (r 2) 5) u0) 2 = some 7 ∧ sAfter (exec (.movi .always (r 7) (-1)) u0) 7 = some 0xFFFFFFFFFFFFFFFF := by decide +kernel
/-- R116, R117: a field of w1 + 1 bits at pos. -/
theorem test_fields : sAfter (exec (.extu .always (r 5) (x 1) 8 7) u0) 5 = some 0xFF ∧
    sAfter (exec (.ext .always (r 5) (x 1) 8 7) u0) 5 = some 0xFFFFFFFFFFFFFFFF ∧
    sAfter (exec (.ins .always (r 2) (x 1) 4 3) u0) 2 = some 0xF2 := by decide +kernel
/-- R118: a signed and an unsigned compare of −1 with 2. -/
theorem test_compare : pAfter (exec (.cmplt .always 3 (x 1) (x 2)) u0) 3 = some 0xFFFF ∧ pAfter (exec (.cmpltu .always 3 (x 1) (x 2)) u0) 3 = some 0 := by
  decide +kernel
/-- R123: VADD wraps in each lane; R127: VCMPLT is signed. -/
theorem test_vadd : lAfter (exec (.vadd .always (r 3) (v 1) (v 2)) (f0 0xFFFFFFFF 2)) 3 15 = some 1 ∧
    lAfter (exec (.vsub .always (r 3) (v 1) (v 2)) (f0 1 2)) 3 0 = some 0xFFFFFFFF ∧
    pAfter (exec (.vcmplt .always 3 (v 1) (v 2)) (f0 0xFFFFFFFF 2)) 3 = some 0xFFFF := by decide +kernel
/-- R128: 1 + 2^−24 ties to even, and 1 + 3·2^−24 rounds up; toward zero it does not. -/
theorem test_vfadd : lAfter (exec (.vfadd .always (r 3) (v 1) (v 2) .rne) (f0 0x3F800000 0x33800000)) 3 0 = some 0x3F800000 ∧
    lAfter (exec (.vfadd .always (r 3) (v 1) (v 2) .rne) (f0 0x3F800001 0x33800000)) 3 0 = some 0x3F800002 ∧
    lAfter (exec (.vfadd .always (r 3) (v 1) (v 2) .rtz) (f0 0x3F800001 0x33800000)) 3 0 = some 0x3F800001 := by decide +kernel
/-- R128: ∞ − ∞ is the NaN of R79, and a divide by zero is an infinity. -/
theorem test_vfsub : lAfter (exec (.vfsub .always (r 3) (v 1) (v 2) .rne) (f0 0x7F800000 0x7F800000)) 3 0 = some 0x7FC00000 ∧
    lAfter (exec (.vfmul .always (r 3) (v 1) (v 2) .rne) (f0 0x40400000 0xC0000000)) 3 0 = some 0xC0C00000 := by decide +kernel
/-- R147: distances count half-words from the instruction; CALL links to s31 (R148). -/
theorem test_branch : pcAfter (exec (.br .always (-3)) u0) = some 0x3FFFFFFA ∧ sAfter (exec (.call .always 4) u0) 31 = some 0x40000002 ∧
    pcAfter (exec (.call .always 4) u0) = some 0x40000008 := by decide +kernel
/-- R150, R331: TRAP saves the next pc, gives its code as TVAL and goes to TVEC at the level it came from. -/
theorem test_trap : (match exec (.trap .always 9) (on 1 [] { tvec := 0x41000000, pl := 1 }) with
    | .next t => (t.cur.pc, t.cur.tepc, t.cur.tval, t.cur.ppl, t.cur.pl)
    | _ => (0, 0, 0, 0, 0)) = (0x41000000, 0x40000002, 9, 1, 1) := by decide +kernel
/-- R172, R178: a byte load extends by zeros and takes the addressed byte of a little-endian word; a store is forwarded to a load. -/
theorem test_memory : sAfter (exec (.ldb .always (r 5) (x 1) 1) Me.sm) 5 = some 0x22 ∧
    (match exec (.std .always (x 4) (x 1) 1) Me.sm with
      | .next t => sAfter (exec (.ldd .always (r 5) (x 1) 1) t) 5
      | _ => none) = some 0x123456789ABCDEF0 := by decide +kernel

/-- States and operands that meet the hypotheses of `Obligations.ScalarMovesArithmetic`. -/
theorem witness_ScalarMovesArithmetic :
    ∃ (s : State) (i : _) (g : Pred) (lat : _) (d : _) (v : _), (moveResult s i = some (g, lat, d, v) ∨ arithResult s i = some (g, lat, d, v)) ∧
      s.acts g = true :=
  ⟨(on 1 [(1, 5), (2, 7)]), (.add .always (r 3) (x 1) (x 2)), .always, 2, (r 3), 12, .inr rfl, by decide +kernel⟩

/-- States and operands that meet the hypotheses of `Obligations.ScalarBitsFields`. -/
theorem witness_ScalarBitsFields :
    ∃ (s : State) (i : _) (g : Pred) (lat : _) (d : _) (v : _), (bitResult s i = some (g, lat, d, v) ∨ fieldResult s i = some (g, lat, d, v)) ∧
      s.acts g = true :=
  ⟨(on 1 [(1, 5), (2, 66)]), (.shl .always (r 3) (x 1) (x 2)), .always, 2, (r 3), 20, .inl rfl, by decide +kernel⟩

/-- States and operands that meet the hypotheses of `Obligations.ComparesPredicates`. -/
theorem witness_ComparesPredicates :
    ∃ (s : State) (i : _) (g : Pred) (d : _) (v : _), (compareResult s i = some (g, d, v) ∨ predicateResult s i = some (g, d, v)) ∧
      s.acts g = true :=
  ⟨(on 1 [(1, 5), (2, 66)]), (.cmplt .always 2 (x 1) (x 2)), .always, 2, 0xFFFF, .inl rfl, by decide +kernel⟩

/-- States and operands that meet the hypotheses of `Obligations.Divides`, clause by clause. -/
theorem witness_Divides :
    (∃ (s : State) (i : _) (g : Pred) (d : _) (v : _), divResult s i = some (g, d, v) ∧ s.acts g = true) ∧
    (∃ (s : State) (c : _) (k : _) (d : _) (v : _), (s.slotOf c k).status = .wait (.divide d v)) ∧
    (∃ (s : State) (c : _) (k : _) (d : _) (m : _) (v : _) (fl : _), (s.slotOf c k).status = .wait (.vdivide d m v fl)) :=
  ⟨⟨(on 1 [(1, 7)]), (.rem .always (r 3) (x 1) (x 2)), .always, (r 3), 7, rfl, by decide +kernel⟩,
    ⟨(on 1 [] { } { slots := [(2, { status := .wait (.divide (r 3) 9) })] }), 0, 2, (r 3), 9, by decide +kernel⟩,
    ⟨(on 1 [] { } { slots := [(2, { status := .wait (.vdivide (r 3) 1 9 1) })] }), 0, 2, (r 3), 1, 9, 1, by decide +kernel⟩⟩

/-- States and operands that meet the hypotheses of `Obligations.VectorIntegers`. -/
theorem witness_VectorIntegers :
    ∃ (s : State) (i : _) (g : Pred) (lat : _) (d : _) (f : _), (laneResult s i = some (g, lat, d, f) ∨ laneResult2 s i = some (g, lat, d, f)) ∧
      s.acts g = true :=
  ⟨(on 1 [] {v := La.vs}), (.vadd .always (r 3) (v 1) (v 2)), .always, 2, (r 3),
      (fun i => BitVec.ofNat 32 ((lane ((on 1 [] {v := La.vs}).vsrc (v 1)) i).toNat + (lane ((on 1 [] {v := La.vs}).vsrc (v 2)) i).toNat)),
      .inl rfl, by decide +kernel⟩

/-- States and operands that meet the hypotheses of `Obligations.VectorComparesSelect`. -/
theorem witness_VectorComparesSelect :
    ∃ (s : State) (i : _) (g : Pred) (d : _) (f : _), laneCompare s i = some (g, d, f) ∧ s.acts g = true :=
  ⟨(on 1 [] {v := La.vs, p := [(2, 0x8000)]}), (.vcmplt (.lanes 2 true) 1 (v 1) (v 2)), (.lanes 2 true), 1,
      (fun i => decide ((lane ((on 1 [] {v := La.vs}).vsrc (v 1)) i).toInt < (lane ((on 1 [] {v := La.vs}).vsrc (v 2)) i).toInt)), rfl,
      by decide +kernel⟩

/-- States and operands that meet the hypotheses of `Obligations.FloatArithmetic`. -/
theorem witness_FloatArithmetic :
    ∃ (s : State) (i : _) (g : Pred) (lat : _) (d : _) (r : _) (x : _), floatResultOf s i = some (g, lat, d, r, x) ∧ s.acts g = true :=
  ⟨(on 1 [] {v := La.vs}), (.vfmul .always (r 3) (v 1) (v 2) .rup), .always, 6, (r 3), .rup,
      (fun i => (Exact.lane (lane ((on 1 [] {v := La.vs}).vsrc (v 1)) i)).mul (.lane (lane ((on 1 [] {v := La.vs}).vsrc (v 2)) i))), rfl,
      by decide +kernel⟩

/-- States and operands that meet the hypotheses of `Obligations.FloatElementwise`. -/
theorem witness_FloatElementwise :
    ∃ (s : State) (g : Pred), s.acts g = true :=
  ⟨Pl.s0, .always, by decide +kernel⟩

/-- States and operands that meet the hypotheses of `Obligations.FloatApproximations`. -/
theorem witness_FloatApproximations :
    ∃ (s : State) (i : _) (g : Pred) (d : _) (x : _), approxCase s i = some (g, d, x) ∧ s.acts g = true :=
  ⟨Pl.s0, (.vfrcp .always (r 3) (v 1)), .always, (r 3), _, rfl, by decide +kernel⟩

/-- States and operands that meet the hypotheses of `Obligations.FloatCompares`. -/
theorem witness_FloatCompares :
    ∃ (s : State) (i : _) (g : Pred) (d : _) (f : _) (nv : _), floatCompare s i = some (g, d, f, nv) ∧ s.acts g = true :=
  ⟨Pl.s0, (.vfcmpeq .always 1 (v 1) (v 1)), .always, 1, _, _, rfl, by decide +kernel⟩

/-- States and operands that meet the hypotheses of `Obligations.FloatReductionsDot`, clause by clause. -/
theorem witness_FloatReductionsDot :
    (
        ∃ (s : State) (g : Pred) (b : _) (r : _) (x : _),
        s.acts g = true ∧ x = pairwise (fadd r) (fun j => if (s.mask g).getLsbD j then some (lane (s.vsrc b) j) else none)) ∧
    (
        ∃ (s : State) (g : Pred) (b : _) (x : _),
        s.acts g = true ∧ x = pairwise (fpick true) (fun j => if (s.mask g).getLsbD j then some (lane (s.vsrc b) j) else none)) :=
  ⟨⟨Pl.s0, .always, (v 1), .rne, _, by decide +kernel, rfl⟩,
    ⟨Pl.s0, .always, (v 1), _, by decide +kernel, rfl⟩⟩

/-- States and operands that meet the hypotheses of `Obligations.Conversions`, clause by clause. -/
theorem witness_Conversions :
    (
        ∃ (s : State) (i : _) (g : Pred) (lat : _) (d : _) (w : _) (p : _) (x : _),
        narrowing s i = some (g, lat, d, w, p, x) ∧ s.acts g = true) ∧
    (∃ (s : State) (i : _) (g : Pred) (d : _) (x : _), widening s i = some (g, d, x) ∧ s.acts g = true) :=
  ⟨⟨Pl.s0, (.cvtfh .always (r 3) (v 1) .rne 0), .always, _, _, _, _, _, rfl, by decide +kernel⟩,
    ⟨Pl.s0, (.cvthf .always (r 3) (v 1) 1), .always, _, _, rfl, by decide +kernel⟩⟩

/-- States and operands that meet the hypotheses of `Obligations.LaneMovesScales`. -/
theorem witness_LaneMovesScales :
    ∃ (s : State) (i : _) (g : Pred) (d : _) (x : _), movedPart s i = some (g, d, x) ∧ s.acts g = true :=
  ⟨Me.sv, (.vperm .always (r 3) (v 1) (v 2)), .always, (r 3),
      (⟨32, fun i => lane (Me.sv.vsrc (v 1)) (lane (Me.sv.vsrc (v 2)) i &&& 15).toNat⟩), rfl, by decide +kernel⟩

/-- States and operands that meet the hypotheses of `Obligations.Alignment`, clause by clause. -/
theorem witness_Alignment :
    (
        ∃ (s : State) (i : _) (g : Pred) (d : _) (b : _) (o : _) (n : _) (home : _),
        loadForm i = some (g, d, b, o, n, home) ∧ s.acts g = true ∧ (effAddr s b o n).toNat % n ≠ 0) ∧
    (
        ∃ (s : State) (i : _) (g : Pred) (a : _) (b : _) (o : _) (n : _) (sc : _),
        storeForm i = some (g, a, b, o, n, sc) ∧ s.acts g = true ∧ (effAddr s b o n).toNat % n ≠ 0) ∧
    (∃ (s : State) (g : Pred) (b : _) (o : _), s.acts g = true ∧ (effAddr s b o 64).toNat % 64 ≠ 0) ∧
    (∃ (s : State) (g : Pred) (b : _) (o : _), s.acts g = true ∧ (effAddr s b o 8).toNat % 8 ≠ 0 ∧ s.slot ≠ 15) :=
  ⟨⟨(on 1 Me.mv), (.ldd .always (r 3) (x 2) 0), .always, (r 3), (x 2), 0, 8, false, rfl, by and_intros <;> decide +kernel⟩,
    ⟨(on 1 Me.mv), (.std .always (x 1) (x 2) 0), .always, (x 1), (x 2), 0, 8, none, rfl, by and_intros <;> decide +kernel⟩,
    ⟨(on 1 Me.mv), .always, (x 2), 0, by decide +kernel⟩,
    ⟨(on 1 Me.mv), .always, (x 2), 0, by decide +kernel⟩⟩

/-- States and operands that meet the hypotheses of `Obligations.Windows`, clause by clause. -/
theorem witness_Windows :
    (∃ (s : State) (ea : Word) (w : Want), ea.toNat % w.size = 0 ∧ w.fetch = false ∧ s.slot ≠ 0 ∧ ea.toNat < 0x20000) ∧
    (
        ∃ (s : State) (ea : Word) (w : Want) (q : Nat),
        ea.toNat % w.size = 0 ∧ w.fetch = false ∧ s.slot ≠ 0 ∧ ea.toNat = 0x1000000 + q ∧ q < 0x800000 ∧ q < (s.spad s.bankVf).2) ∧
    (
        ∃ (s : State) (ea : Word) (w : Want) (q : Nat),
        ea.toNat % w.size = 0 ∧ w.fetch = false ∧ s.slot ≠ 0 ∧ ea.toNat = 0x1000000 + q ∧ q < 0x800000 ∧ (s.spad s.bankVf).2 ≤ q) ∧
    (
        ∃ (s : State) (ea : Word) (w : Want),
        ea.toNat % w.size = 0 ∧ ea.toNat < 0x2000000 ∧ (s.slot = 0 ∨ (0x20000 ≤ ea.toNat ∧ ea.toNat < 0x1000000) ∨ 0x1800000 ≤ ea.toNat ∨ w.fetch = true)) :=
  ⟨⟨(on 1 Me.mv), 0x1FFF8, {size := 8}, by decide +kernel⟩,
    ⟨(on 1 Me.mv), 0x100FFF8, {size := 8}, 0xFFF8, by decide +kernel⟩,
    ⟨(on 1 Me.mv), 0x1010000, {size := 8}, 0x10000, by decide +kernel⟩,
    ⟨(on 1 Me.mv), 0x20000, {size := 8}, by decide +kernel⟩⟩

/-- States and operands that meet the hypotheses of `Obligations.LoadResults`, clause by clause. -/
theorem witness_LoadResults :
    (
        ∃ (s : State) (i : _) (g : Pred) (d : _) (b : _) (o : _) (n : _) (home : _) (s1 : _) (p : _),
        loadForm i = some (g, d, b, o, n, home) ∧ s.acts g = true ∧ Reaches s (effAddr s b o n) { size := n } s1 p ∧ Sound s p n) ∧
    (
        ∃ (s : State) (i : _) (g : Pred) (d : _) (b : _) (o : _) (n : _) (home : _) (s1 : _) (p : _),
        loadForm i = some (g, d, b, o, n, home) ∧ s.acts g = true ∧ Reaches s (effAddr s b o n) { size := n } s1 p ∧ (isRemote (dieOf s.core) p.pa = false ∨ home = true) ∧ (∃ j < n, ownByte s (p.pa + j) = none) ∧ (p.pr = true ∨ p.pa / 8 * 8 ∈ s.poison)) :=
  ⟨⟨Me.sm, (.ldh .always (r 3) (x 1) 1), .always, (r 3), (x 1), 1, 2, false, ((Me.sm.resolve (effAddr Me.sm (x 1) 1 2) { size := 2 }).1), (got ({ pa := 0, kind := .window } : Place) (Me.sm.resolve (effAddr Me.sm (x 1) 1 2) { size := 2 }).2), rfl, by and_intros <;> decide +kernel⟩,
    ⟨{Me.sm with poison := [P + 0x40]}, (.ldh .always (r 3) (x 1) 1), .always, (r 3), (x 1), 1, 2, false,
        (({Me.sm with poison := [P + 0x40]}.resolve (effAddr {Me.sm with poison := [P + 0x40]} (x 1) 1 2) { size := 2 }).1),
        (got ({ pa := 0, kind := .window } : Place) ({Me.sm with poison := [P + 0x40]}.resolve (effAddr {Me.sm with poison := [P + 0x40]} (x 1) 1 2) { size := 2 }).2),
        rfl, by and_intros <;> decide +kernel⟩⟩

/-- States and operands that meet the hypotheses of `Obligations.VectorLoads`, clause by clause. -/
theorem witness_VectorLoads :
    (
        ∃ (s : State) (i : _) (g : Pred) (addr : _) (d : _) (s1 : _) (l : _),
        laneAddr s i = some (g, addr) ∧ ((∃ b o, i = .vld g d b o) ∨ (∃ b o vi, i = .vldg g d b o vi)) ∧
        s.acts g = true ∧ vectorAccess s false i = some (s1, .ok l) ∧ LanesFree s i l ∧ (
          ∀ q ∈ l,
          q.2 ≠ .device ∧ rangeOf q.1.pa ≠ .device ∧ s.isUnavail q.1.pa = false ∧
          q.1.pa % 8 = q.1.ea.toNat % 8 ∧ Sound s { pa := q.1.pa, kind := q.2, pr := q.1.pr } 4)) ∧
    (
        ∃ (s : State) (i : _) (g : Pred) (addr : _) (d : _) (s1 : _) (l : _),
        laneAddr s i = some (g, addr) ∧ ((∃ b o, i = .vld g d b o) ∨ (∃ b o vi, i = .vldg g d b o vi)) ∧
        s.acts g = true ∧ vectorAccess s false i = some (s1, .ok l) ∧ LanesFree s i l ∧ (
          ∀ q ∈ l,
          q.2 ≠ .device ∧ rangeOf q.1.pa ≠ .device ∧ s.isUnavail q.1.pa = false ∧ isRemote (dieOf s.core) q.1.pa = false ∧
          q.1.pa % 8 = q.1.ea.toNat % 8) ∧ (∃ q ∈ l, LanePoisoned s q)) :=
  ⟨⟨Ld.sl, (.vld (.lanes 1 false) (r 3) (x 1) 0), (.lanes 1 false), (fun i => effAddr Ld.sl (x 1) 0 64 + BitVec.ofNat 64 (4 * i)), (r 3), (((vectorAccess Ld.sl false (.vld (.lanes 1 false) (r 3) (x 1) 0)).getD ({}, (.ok []))).1), (got [] (((vectorAccess Ld.sl false (.vld (.lanes 1 false) (r 3) (x 1) 0)).getD ({}, (.ok []))).2)), rfl, .inl ⟨_, _, rfl⟩, by decide +kernel, by decide +kernel, lanesFree_of (by decide +kernel) (by decide +kernel), by decide +kernel⟩,
    ⟨Ld.slp, (.vld .always (r 3) (x 1) 0), .always, (fun i => effAddr Ld.slp (x 1) 0 64 + BitVec.ofNat 64 (4 * i)), (r 3),
        (((vectorAccess Ld.slp false (.vld .always (r 3) (x 1) 0)).getD ({}, (.ok []))).1),
        (got [] (((vectorAccess Ld.slp false (.vld .always (r 3) (x 1) 0)).getD ({}, (.ok []))).2)), rfl, .inl ⟨_, _, rfl⟩,
        by decide +kernel, by decide +kernel, lanesFree_of (by decide +kernel) (by decide +kernel), by and_intros <;> decide +kernel⟩⟩

/-- States and operands that meet the hypotheses of `Obligations.StoreResults`, clause by clause. -/
theorem witness_StoreResults :
    (
        ∃ (s : State) (i : _) (g : Pred) (a : _) (b : _) (o : _) (n : _) (sc : _) (s1 : _) (p : _),
        storeForm i = some (g, a, b, o, n, sc) ∧ s.acts g = true ∧ s.walkHeld (effAddr s b o n) = false ∧
        s.resolve (effAddr s b o n) { size := n, write := true } = (s1, .ok p) ∧ p.kind ≠ .device) ∧
    (
        ∃ (s : State) (i : _) (g : Pred) (addr : _) (a : _) (s1 : _) (l : _) (scatter : _),
        laneAddr s i = some (g, addr) ∧ ((scatter = false ∧ ∃ b o, i = .vst g a b o) ∨ (scatter = true ∧ ∃ b o vi, i = .vsts g a b o vi)) ∧
        s.acts g = true ∧ vectorAccess s true i = some (s1, .ok l) ∧ LanesFree s i l ∧ (∀ q ∈ l, q.2 ≠ .device)) :=
  ⟨⟨Me.sm, (.std .always (x 4) (x 1) 1), .always, (x 4), (x 1), 1, 8, none, ((Me.sm.resolve (effAddr Me.sm (x 1) 1 8) { size := 8, write := true }).1), (got ({ pa := 0, kind := .window } : Place) ((Me.sm.resolve (effAddr Me.sm (x 1) 1 8) { size := 8, write := true }).2)), rfl, by and_intros <;> decide +kernel⟩,
    ⟨Ld.sl, (.vst (.lanes 1 false) (v 1) (x 1) 0), (.lanes 1 false), (fun i => effAddr Ld.sl (x 1) 0 64 + BitVec.ofNat 64 (4 * i)), (v 1),
        (((vectorAccess Ld.sl true (.vst (.lanes 1 false) (v 1) (x 1) 0)).getD ({}, (.ok []))).1),
        (got [] (((vectorAccess Ld.sl true (.vst (.lanes 1 false) (v 1) (x 1) 0)).getD ({}, (.ok []))).2)), false, rfl,
        .inl ⟨rfl, _, _, rfl⟩, by decide +kernel, by decide +kernel, lanesFree_of (by decide +kernel) (by decide +kernel), by decide +kernel⟩⟩

/-- States and operands that meet the hypotheses of `Obligations.StoreDrains`. -/
theorem witness_StoreDrains :
    ∃ (s : State) (c : _) (k : _) (e : _) (rest : _) (w : _) (ws : _) (cells : _), (s.slotOf c k).storeBuf = e :: rest ∧
      e.words = w :: ws ∧ s.relocks c = false ∧ s.isUnavail (8 * w) = false ∧ s.heldHome (8 * w) = false ∧
      s.heldFor e.vf (8 * w) = false ∧ s.pushHolds c k (8 * w) = false ∧ cells = (if e.scatter = true then e.bytes.take 4 else e.bytes.filter fun q => q.1 / 8 == w) :=
  ⟨{ on 1 Me.mv { storeBuf := [{ bytes := Safety.bytesAt (P + 0x48) 8 0x1122334455667788, vf := 0 }] } with
        mem := wordAt (P + 0x40) 0x8877665544332211 ++ wordAt (P + 0x48) 0x99, poison := [P + 0x48] }, 0, 1,
      ((({ on 1 Me.mv { storeBuf := [{ bytes := Safety.bytesAt (P + 0x48) 8 0x1122334455667788, vf := 0 }] } with
              mem := wordAt (P + 0x40) 0x8877665544332211 ++ wordAt (P + 0x48) 0x99, poison := [P + 0x48] }.slotOf 0 1).storeBuf).headD { bytes := [] }),
      ((({ on 1 Me.mv { storeBuf := [{ bytes := Safety.bytesAt (P + 0x48) 8 0x1122334455667788, vf := 0 }] } with
              mem := wordAt (P + 0x40) 0x8877665544332211 ++ wordAt (P + 0x48) 0x99, poison := [P + 0x48] }.slotOf 0 1).storeBuf).tail),
      ((((({ on 1 Me.mv { storeBuf := [{ bytes := Safety.bytesAt (P + 0x48) 8 0x1122334455667788, vf := 0 }] } with
                  mem := wordAt (P + 0x40) 0x8877665544332211 ++ wordAt (P + 0x48) 0x99, poison := [P + 0x48] }.slotOf 0 1).storeBuf).headD { bytes := [] }).words).headD 0),
      ((((({ on 1 Me.mv { storeBuf := [{ bytes := Safety.bytesAt (P + 0x48) 8 0x1122334455667788, vf := 0 }] } with
                  mem := wordAt (P + 0x40) 0x8877665544332211 ++ wordAt (P + 0x48) 0x99, poison := [P + 0x48] }.slotOf 0 1).storeBuf).headD { bytes := [] }).words).tail),
      ((if ((({ on 1 Me.mv { storeBuf := [{ bytes := Safety.bytesAt (P + 0x48) 8 0x1122334455667788, vf := 0 }] } with
                  mem := wordAt (P + 0x40) 0x8877665544332211 ++ wordAt (P + 0x48) 0x99, poison := [P + 0x48] }.slotOf 0 1).storeBuf).headD { bytes := [] }).scatter = true then ((({ on 1 Me.mv {
                      storeBuf := [{ bytes := Safety.bytesAt (P + 0x48) 8 0x1122334455667788, vf := 0 }] } with
                  mem := wordAt (P + 0x40) 0x8877665544332211 ++ wordAt (P + 0x48) 0x99, poison := [P + 0x48] }.slotOf 0 1).storeBuf).headD { bytes := [] }).bytes.take 4 else ((({ on 1 Me.mv {
                      storeBuf := [{ bytes := Safety.bytesAt (P + 0x48) 8 0x1122334455667788, vf := 0 }] } with
                  mem := wordAt (P + 0x40) 0x8877665544332211 ++ wordAt (P + 0x48) 0x99, poison := [P + 0x48] }.slotOf 0 1).storeBuf).headD { bytes := [] }).bytes.filter fun q => q.1 / 8 == ((((({ on 1 Me.mv {
                          storeBuf := [{ bytes := Safety.bytesAt (P + 0x48) 8 0x1122334455667788, vf := 0 }] } with
                      mem := wordAt (P + 0x40) 0x8877665544332211 ++ wordAt (P + 0x48) 0x99, poison := [P + 0x48] }.slotOf 0 1).storeBuf).headD { bytes := [] }).words).headD 0))),
      by decide +kernel⟩

/-- States and operands that meet the hypotheses of `Obligations.FencesFlushes`, clause by clause. -/
theorem witness_FencesFlushes :
    (∃ (s : State) (g : Pred), s.acts g = true ∧ s.cur.storeBuf = [] ∧ s.cur.posted = []) ∧
    (
        ∃ (s : State) (g : Pred) (rst : _) (sc : _) (t : _),
        s.acts g = true ∧ exec (.fence g rst sc) s = .next t ∧ t.cur.status = .run ∧ sc ≠ .thread) ∧
    (
        ∃ (s : State) (g : Pred) (rst : _) (sc : _) (t : _),
        s.acts g = true ∧ exec (.fence g rst sc) s = .next t ∧ t.cur.status = .run ∧ rst = true) ∧
    (
        ∃ (s : State) (g : Pred) (rst : _) (sc : _) (t : _) (v : Inval),
        s.acts g = true ∧ exec (.fence g rst sc) s = .next t ∧ t.cur.status = .run ∧ (sc = .module ∨ sc = .system) ∧ (rst = false ∨ s.cur.posted = []) ∧
        v.die < 4 ∧ v ∈ (t.die v.die).invals) ∧
    (
        ∃ (s : State) (g : Pred) (rst : _) (sc : _) (t : _) (v : Inval),
        s.acts g = true ∧ exec (.fence g rst sc) s = .next t ∧ t.cur.status = .run ∧ (sc = .module ∨ sc = .system) ∧ (rst = false ∨ s.cur.posted = []) ∧
        homeDie v.line < 4 ∧ v ∈ (t.die (homeDie v.line)).acks) ∧
    (
        ∃ (s : State) (g : Pred) (e : _) (w : _),
        s.acts g = true ∧ s.cur.status = .run ∧ s.cur.posted = [e] ∧ e.words = [w] ∧ s.wayHeld e.vf s.core e.target w = true) ∧
    (
        ∃ (s : State) (g : Pred) (e : _) (w : _),
        s.acts g = true ∧ s.cur.status = .run ∧ s.cur.posted = [e] ∧ e.words = [w] ∧
        s.wayHeld e.vf s.core e.target w = false ∧ (s.vfOf e.target e.vf).fenced = false ∧ (∀ q ∈ s.waiters, q.pa ≠ w) ∧ w % 8 = 0) ∧
    (∃ (s : State) (g : Pred) (b : _) (o : _) (s1 : _) (p : _), s.acts g = true ∧ Reaches s (effAddr s b o 64) { size := 64 } s1 p) :=
  ⟨⟨(on 1 Me.mv), .always, by decide +kernel⟩,
    ⟨(on 1 Me.mv { storeBuf := [{ bytes := Safety.bytesAt (P + 0x49) 2 0x1122334455667788, vf := 0 }] }), .always, true, .system,
        (nx (exec (.fence .always true .system) (on 1 Me.mv {
                storeBuf := [{ bytes := Safety.bytesAt (P + 0x49) 2 0x1122334455667788, vf := 0 }] }))), by decide +kernel,
        nx_of_goes (by decide +kernel), by and_intros <;> decide +kernel⟩,
    ⟨(on 1 Me.mv { storeBuf := [{ bytes := Safety.bytesAt (P + 0x49) 2 0x1122334455667788, vf := 0 }] }), .always, true, .system,
        (nx (exec (.fence .always true .system) (on 1 Me.mv {
                storeBuf := [{ bytes := Safety.bytesAt (P + 0x49) 2 0x1122334455667788, vf := 0 }] }))), by decide +kernel,
        nx_of_goes (by decide +kernel), by and_intros <;> decide +kernel⟩,
    ⟨Wy.si, .always, true, .system, (nx (exec (.fence .always true .system) Wy.si)), Wy.iv, by decide +kernel,
        nx_of_goes (by decide +kernel), by and_intros <;> decide +kernel⟩,
    ⟨Wy.si, .always, true, .system, (nx (exec (.fence .always true .system) Wy.si)), Wy.iv, by decide +kernel,
        nx_of_goes (by decide +kernel), by and_intros <;> decide +kernel⟩,
    ⟨{ Wy.sw with clusters := [(0, { halted := true })] }, .always, Wy.po, (P + 0x48), by decide +kernel⟩,
    ⟨Wy.sw, .always, Wy.po, (P + 0x48), by decide +kernel⟩,
    ⟨(on 1 Wy.mv), .always, (x 1), 1, (((on 1 Wy.mv).resolve (effAddr (on 1 Wy.mv) (x 1) 1 64) { size := 64 }).1),
        (got ({ pa := 0, kind := .window } : Place) ((on 1 Wy.mv).resolve (effAddr (on 1 Wy.mv) (x 1) 1 64) { size := 64 }).2),
        by decide +kernel⟩⟩

/-- States and operands that meet the hypotheses of `Obligations.TableLoad`. -/
theorem witness_TableLoad :
    ∃ (s : State) (g : Pred) (t : BitVec 2) (b : _) (pas : _) (s1 : _), s.acts g = true ∧ (s.ssrc b).toNat % 64 = 0 ∧
      s.slot ≠ 0 ∧ s.tablePlaces (s.ssrc b) = some pas ∧ s.drained s.core s.slot = some s1 ∧ (
        ∀ c ∈ s1.mxPushed s.core s.bankVf, c.seq < s.curVf.mxSeq → c.usesTable (4 + t.toNat) = false) ∧
      s1.tablePlaces (s.ssrc b) = some pas ∧ (∀ pa ∈ pas, wordsHit s1.poison pa 4 = false) :=
  ⟨Ld.sl, .always, 1, (x 1), ((Ld.sl.tablePlaces (Ld.sl.ssrc (x 1))).getD []), ((Ld.sl.drained Ld.sl.core Ld.sl.slot).getD {}),
      by decide +kernel⟩

/-- States and operands that meet the hypotheses of `Obligations.FullEmpty`, clause by clause. -/
theorem witness_FullEmpty :
    (
        ∃ (s : State) (g : Pred) (b : _) (o : _) (s1 : _) (p : _),
        s.acts g = true ∧ s.slot ≠ 15 ∧ Reaches s (effAddr s b o 8) { size := 8, fe := true } s1 p ∧ (feRank p (effAddr s b o 8)).toNat < (s.obmin s.core s.slot).toNat ∧
        s.cur.storeBuf = [] ∧ s.isPoisoned p.pa = false ∧ p.pr = false ∧ (s.isFull p.pa = true ∨ s.heldHome p.pa = false)) ∧
    (
        ∃ (s : State) (g : Pred) (b : _) (o : _) (s1 : _) (s2 : _) (p : _) (i : _),
        s.acts g = true ∧ s.slot ≠ 15 ∧ Reaches s (effAddr s b o 8) { size := 8, write := true, takes := true, fe := true } s1 p ∧ (feRank p (effAddr s b o 8)).toNat < (s.obmin s.core s.slot).toNat ∧
        s.cur.storeBuf = [] ∧ s1.reserveOb s.core s.slot = .ok s2 i ∧ s2.isUnavail p.pa = false ∧ s2.isPoisoned p.pa = false ∧
        p.pr = false ∧ s2.isFull p.pa = true) ∧
    (
        ∃ (s : State) (g : Pred) (b : _) (o : _) (s1 : _) (s2 : _) (p : _) (i : _),
        s.acts g = true ∧ s.slot ≠ 15 ∧ Reaches s (effAddr s b o 8) { size := 8, write := true, takes := true, fe := true } s1 p ∧ (feRank p (effAddr s b o 8)).toNat < (s.obmin s.core s.slot).toNat ∧
        s.cur.storeBuf = [] ∧ s1.reserveOb s.core s.slot = .ok s2 i ∧ s2.isUnavail p.pa = false ∧ s2.isFull p.pa = false) ∧
    (
        ∃ (s : State) (g : Pred) (b : _) (o : _) (s1 : _) (p : _),
        s.acts g = true ∧ Reaches s (effAddr s b o 8) { size := 8, write := true, fe := true } s1 p ∧
        s.cur.storeBuf = [] ∧ (∀ w ∈ s.waiters, w.pa ≠ p.pa) ∧ (∀ q ∈ s.obsOf s.core s.slot, q.spill = none) ∧ s.isFull p.pa = true) ∧
    (
        ∃ (s : State) (g : Pred) (b : _) (o : _) (s1 : _) (p : _),
        s.acts g = true ∧ Reaches s (effAddr s b o 8) { size := 8, write := true, fe := true } s1 p ∧
        s.cur.storeBuf = [] ∧ (∀ w ∈ s.waiters, w.pa ≠ p.pa) ∧ (∀ q ∈ s.obsOf s.core s.slot, q.spill = none) ∧ s.isFull p.pa = false) ∧
    (
        ∃ (s : State) (g : Pred) (b : _) (o : _) (s1 : _) (p : _) (l : _) (rest : _),
        s.acts g = true ∧ Reaches s (effAddr s b o 8) { size := 8, write := true, fe := true } s1 p ∧
        s.cur.storeBuf = [] ∧ (∀ q ∈ s.obsOf s.core s.slot, q.spill = none) ∧
        s.isFull p.pa = false ∧ p.pa % 8 = 0 ∧ Listed s p.pa l rest ∧ (∀ w ∈ l ++ rest.take 1, (w.core, w.slot) ≠ (s.core, s.slot)) ∧
        s.isPoisoned p.pa = false) ∧
    (
        ∃ (s : State) (c : _) (v : _) (st : _) (q : _) (x : _) (l : _) (rest : _),
        s.mxReady c v st = some q ∧ s.mxNext c = some v ∧ cmdType q.cmd = 7 ∧
        cmdNotify q.cmd = true ∧ s.mxChecks c v q.cmd = none ∧ s.windowPlace c v (cmdAddr q.cmd 14) = some x ∧ hasFE x.pa = true ∧
        s.isFull x.pa = false ∧ Listed s x.pa l rest) ∧
    (∃ (s : State) (g : Pred) (b : _) (o : _), s.acts g = true ∧ s.slot ≠ 15 ∧ (effAddr s b o 64).toNat % 64 = 0 ∧ s.mask g = 0) ∧
    (
        ∃ (s : State) (g : Pred) (b : _) (o : _) (s1 : _) (ps : _) (w0 : _) (p0 : _),
        s.acts g = true ∧ s.slot ≠ 15 ∧ (effAddr s b o 64).toNat % 64 = 0 ∧ s.cur.storeBuf = [] ∧ (
          ∀ j ∈ actingWords (s.mask g), s.walkHeld (effAddr s b o 64 + BitVec.ofNat 64 (8 * j)) = false) ∧
        s.resolveAll { size := 8, fe := true } ((actingWords (s.mask g)).map fun j => effAddr s b o 64 + BitVec.ofNat 64 (8 * j)) = (s1, .ok ps) ∧ ((actingWords (s.mask g)).zip ps).getLast? = some (w0, p0) ∧ (feRank p0 (effAddr s b o 64 + BitVec.ofNat 64 (8 * w0))).toNat < (s.obmin s.core s.slot).toNat ∧ (
          ∀ p ∈ ps, p.pr = false ∧ s.isUnavail p.pa = false ∧ s.isPoisoned p.pa = false ∧ (p.kind = .window ∨ s.donated s.bankVf = false)) ∧ (∃ p ∈ ps, s.isFull p.pa = false) ∧ (∀ p ∈ ps, s.heldHome p.pa = false)) ∧
    (
        ∃ (s : State) (g : Pred) (b : _) (o : _) (s1 : _) (ps : _) (w0 : _) (p0 : _),
        s.acts g = true ∧ s.slot ≠ 15 ∧ (effAddr s b o 64).toNat % 64 = 0 ∧ s.cur.storeBuf = [] ∧ (
          ∀ j ∈ actingWords (s.mask g), s.walkHeld (effAddr s b o 64 + BitVec.ofNat 64 (8 * j)) = false) ∧
        s.resolveAll { size := 8, fe := true } ((actingWords (s.mask g)).map fun j => effAddr s b o 64 + BitVec.ofNat 64 (8 * j)) = (s1, .ok ps) ∧ ((actingWords (s.mask g)).zip ps).getLast? = some (w0, p0) ∧ (feRank p0 (effAddr s b o 64 + BitVec.ofNat 64 (8 * w0))).toNat < (s.obmin s.core s.slot).toNat ∧ (
          ∀ p ∈ ps, p.pr = false ∧ s.isUnavail p.pa = false ∧ s.isPoisoned p.pa = false ∧ (p.kind = .window ∨ s.donated s.bankVf = false)) ∧ (∀ p ∈ ps, s.isFull p.pa = true)) :=
  ⟨⟨Ld.sm, .always, (x 1), 0, ((Ld.sm.resolve (effAddr Ld.sm (x 1) 0 8) { size := 8, fe := true }).1), (got ({ pa := 0, kind := .window } : Place) (Ld.sm.resolve (effAddr Ld.sm (x 1) 0 8) { size := 8, fe := true }).2), by decide +kernel⟩,
    ⟨Ld.sm, .always, (x 1), 0, ((Ld.sm.resolve (effAddr Ld.sm (x 1) 0 8) { size := 8, write := true, takes := true, fe := true }).1),
        (roomOf (((Ld.sm.resolve (effAddr Ld.sm (x 1) 0 8) { size := 8, write := true, takes := true, fe := true }).1).reserveOb Ld.sm.core Ld.sm.slot)),
        (got ({ pa := 0, kind := .window } : Place) (Ld.sm.resolve (effAddr Ld.sm (x 1) 0 8) {
              size := 8, write := true, takes := true, fe := true }).2),
        (roomAt (((Ld.sm.resolve (effAddr Ld.sm (x 1) 0 8) { size := 8, write := true, takes := true, fe := true }).1).reserveOb Ld.sm.core Ld.sm.slot)),
        by decide +kernel, by decide +kernel, by decide +kernel, by decide +kernel, by decide +kernel, ok_of_hasRoom (by decide +kernel),
        by and_intros <;> decide +kernel⟩,
    ⟨Ld.sm, .always, (x 1), 1, ((Ld.sm.resolve (effAddr Ld.sm (x 1) 1 8) { size := 8, write := true, takes := true, fe := true }).1),
        (roomOf (((Ld.sm.resolve (effAddr Ld.sm (x 1) 1 8) { size := 8, write := true, takes := true, fe := true }).1).reserveOb Ld.sm.core Ld.sm.slot)),
        (got ({ pa := 0, kind := .window } : Place) (Ld.sm.resolve (effAddr Ld.sm (x 1) 1 8) {
              size := 8, write := true, takes := true, fe := true }).2),
        (roomAt (((Ld.sm.resolve (effAddr Ld.sm (x 1) 1 8) { size := 8, write := true, takes := true, fe := true }).1).reserveOb Ld.sm.core Ld.sm.slot)),
        by decide +kernel, by decide +kernel, by decide +kernel, by decide +kernel, by decide +kernel, ok_of_hasRoom (by decide +kernel),
        by and_intros <;> decide +kernel⟩,
    ⟨Ld.sm, .always, (x 1), 0, ((Ld.sm.resolve (effAddr Ld.sm (x 1) 0 8) { size := 8, write := true, fe := true }).1),
        (got ({ pa := 0, kind := .window } : Place) (Ld.sm.resolve (effAddr Ld.sm (x 1) 0 8) { size := 8, write := true, fe := true }).2),
        by decide +kernel⟩,
    ⟨Ld.sm, .always, (x 1), 1, ((Ld.sm.resolve (effAddr Ld.sm (x 1) 1 8) { size := 8, write := true, fe := true }).1),
        (got ({ pa := 0, kind := .window } : Place) (Ld.sm.resolve (effAddr Ld.sm (x 1) 1 8) { size := 8, write := true, fe := true }).2),
        by decide +kernel⟩,
    ⟨Wy.sq, .always, (x 1), 1, ((Wy.sq.resolve (effAddr Wy.sq (x 1) 1 8) { size := 8, write := true, fe := true }).1),
        (got ({ pa := 0, kind := .window } : Place) (Wy.sq.resolve (effAddr Wy.sq (x 1) 1 8) { size := 8, write := true, fe := true }).2),
        [Wy.w2], [Wy.w3], by decide +kernel, by decide +kernel, by decide +kernel, by decide +kernel, by decide +kernel, by decide +kernel,
        listed_of (by decide +kernel) (by decide +kernel) (by decide +kernel) (by decide +kernel) (by decide +kernel),
        by and_intros <;> decide +kernel⟩,
    ⟨{ Mx.mc Mx.nt with waiters := [Mx.n2] }, 0, 0, 1, { cmd := Mx.nt, seq := 3 }, ({ pa := P + 0x40, kind := .window } : Place), [Mx.n2],
        [], by decide +kernel, by decide +kernel, by decide +kernel, by decide +kernel, by decide +kernel, by decide +kernel,
        by decide +kernel, by decide +kernel,
        listed_of (by decide +kernel) (by decide +kernel) (by decide +kernel) (by decide +kernel) (by decide +kernel)⟩,
    ⟨Wy.sl, (.lanes 2 false), (x 1), 0, by decide +kernel⟩,
    ⟨Wy.sl, (.lanes 1 false), (x 1), 0,
        ((Wy.sl.resolveAll { size := 8, fe := true } ((actingWords (Wy.sl.mask (.lanes 1 false))).map fun j => effAddr Wy.sl (x 1) 0 64 + BitVec.ofNat 64 (8 * j))).1),
        (got [] ((Wy.sl.resolveAll { size := 8, fe := true } ((actingWords (Wy.sl.mask (.lanes 1 false))).map fun j => effAddr Wy.sl (x 1) 0 64 + BitVec.ofNat 64 (8 * j))).2)),
        (((((actingWords (Wy.sl.mask (.lanes 1 false))).zip (got [] ((Wy.sl.resolveAll { size := 8, fe := true } ((actingWords (Wy.sl.mask (.lanes 1 false))).map fun j => effAddr Wy.sl (x 1) 0 64 + BitVec.ofNat 64 (8 * j))).2))).getLast?).getD (0, ({ pa := 0, kind := .window } : Place))).1),
        (((((actingWords (Wy.sl.mask (.lanes 1 false))).zip (got [] ((Wy.sl.resolveAll { size := 8, fe := true } ((actingWords (Wy.sl.mask (.lanes 1 false))).map fun j => effAddr Wy.sl (x 1) 0 64 + BitVec.ofNat 64 (8 * j))).2))).getLast?).getD (0, ({ pa := 0, kind := .window } : Place))).2),
        by decide +kernel⟩,
    ⟨{ Wy.sl with full := [P + 0x40, P + 0x48] }, (.lanes 1 false), (x 1), 0,
        (({ Wy.sl with full := [P + 0x40, P + 0x48] }.resolveAll { size := 8, fe := true } ((actingWords ({ Wy.sl with full := [P + 0x40, P + 0x48] }.mask (.lanes 1 false))).map fun j => effAddr { Wy.sl with full := [P + 0x40, P + 0x48] } (x 1) 0 64 + BitVec.ofNat 64 (8 * j))).1),
        (got [] (({ Wy.sl with full := [P + 0x40, P + 0x48] }.resolveAll { size := 8, fe := true } ((actingWords ({ Wy.sl with full := [P + 0x40, P + 0x48] }.mask (.lanes 1 false))).map fun j => effAddr { Wy.sl with full := [P + 0x40, P + 0x48] } (x 1) 0 64 + BitVec.ofNat 64 (8 * j))).2)),
        (((((actingWords ({ Wy.sl with full := [P + 0x40, P + 0x48] }.mask (.lanes 1 false))).zip (got [] (({ Wy.sl with full := [P + 0x40, P + 0x48] }.resolveAll { size := 8, fe := true } ((actingWords ({ Wy.sl with full := [P + 0x40, P + 0x48] }.mask (.lanes 1 false))).map fun j => effAddr { Wy.sl with full := [P + 0x40, P + 0x48] } (x 1) 0 64 + BitVec.ofNat 64 (8 * j))).2))).getLast?).getD (0, ({ pa := 0, kind := .window } : Place))).1),
        (((((actingWords ({ Wy.sl with full := [P + 0x40, P + 0x48] }.mask (.lanes 1 false))).zip (got [] (({ Wy.sl with full := [P + 0x40, P + 0x48] }.resolveAll { size := 8, fe := true } ((actingWords ({ Wy.sl with full := [P + 0x40, P + 0x48] }.mask (.lanes 1 false))).map fun j => effAddr { Wy.sl with full := [P + 0x40, P + 0x48] } (x 1) 0 64 + BitVec.ofNat 64 (8 * j))).2))).getLast?).getD (0, ({ pa := 0, kind := .window } : Place))).2),
        by decide +kernel⟩⟩

/-- States and operands that meet the hypotheses of `Obligations.RemoteAccesses`, clause by clause. -/
theorem witness_RemoteAccesses :
    (
        ∃ (s : State) (g : Pred) (b : _) (o : _) (c : _) (pa : _) (addr : _),
        s.acts g = true ∧ s.remote b o 8 = .ok (c, pa, addr) ∧ s.cur.posted = [] ∧ s.cur.storeBuf = [] ∧
        s.linkHeld s.bankVf s.core c = false ∧ s.fifoHeld s.core c = false ∧ s.isUnavail pa = false) ∧
    (
        ∃ (s : State) (g : Pred) (b : _) (o : _) (c : _) (pa : _) (addr : _),
        s.acts g = true ∧ s.remote b o 8 = .ok (c, pa, addr) ∧ s.cur.posted.length < 16) ∧
    (
        ∃ (s : State) (g : Pred) (b : _) (o : _) (c : _) (pa : _) (addr : _),
        s.acts g = true ∧ s.remote b o 64 = .ok (c, pa, addr) ∧ s.cur.posted.length < 16 ∧ s.mask g ≠ 0) ∧
    (
        ∃ (s : State) (i : _) (g : Pred) (b : _) (o : _) (n : _) (t : _) (formed : _),
        remoteForm i = some (g, b, o, n) ∧ s.acts g = true ∧ t = (field (s.ssrc b) 16 0 : Int) + o.toInt * n ∧
        formed = BitVec.ofNat 64 (field (s.ssrc b) 42 32 * 2 ^ 32 + (t % 2 ^ 17).toNat) ∧ s.slot = 0) ∧
    (
        ∃ (s : State) (i : _) (g : Pred) (b : _) (o : _) (n : _) (t : _) (formed : _),
        remoteForm i = some (g, b, o, n) ∧ s.acts g = true ∧ t = (field (s.ssrc b) 16 0 : Int) + o.toInt * n ∧
        formed = BitVec.ofNat 64 (field (s.ssrc b) 42 32 * 2 ^ 32 + (t % 2 ^ 17).toNat) ∧
        s.slot ≠ 0 ∧ (field (s.ssrc b) 63 43 ≠ 0 ∨ field (s.ssrc b) 31 17 ≠ 0 ∨ s.cur.gangw.toNat * s.cur.gangh.toNat ≤ field (s.ssrc b) 42 32 ∨ (
            ∃ c, (s.gangCores s.core s.bankVf)[field (s.ssrc b) 42 32]? = some c ∧ (s.vfOf c s.bankVf).fenced = true))) ∧
    (
        ∃ (s : State) (i : _) (g : Pred) (b : _) (o : _) (n : _) (t : _) (formed : _),
        remoteForm i = some (g, b, o, n) ∧ s.acts g = true ∧ t = (field (s.ssrc b) 16 0 : Int) + o.toInt * n ∧
        formed = BitVec.ofNat 64 (field (s.ssrc b) 42 32 * 2 ^ 32 + (t % 2 ^ 17).toNat) ∧
        s.slot ≠ 0 ∧ field (s.ssrc b) 63 43 = 0 ∧ field (s.ssrc b) 31 17 = 0 ∧ (s.member (field (s.ssrc b) 42 32)).isSome = true ∧ t % n ≠ 0) ∧
    (
        ∃ (s : State) (i : _) (g : Pred) (b : _) (o : _) (n : _) (t : _) (formed : _),
        remoteForm i = some (g, b, o, n) ∧ s.acts g = true ∧ t = (field (s.ssrc b) 16 0 : Int) + o.toInt * n ∧
        formed = BitVec.ofNat 64 (field (s.ssrc b) 42 32 * 2 ^ 32 + (t % 2 ^ 17).toNat) ∧
        s.slot ≠ 0 ∧ field (s.ssrc b) 63 43 = 0 ∧ field (s.ssrc b) 31 17 = 0 ∧ (s.member (field (s.ssrc b) 42 32)).isSome = true ∧
        t % n = 0 ∧ (t < 0 ∨ (s.banks s.bankVf).length * 8192 ≤ t)) :=
  ⟨⟨Ld.sg, .always, (x 1), 0, ((got (0, 0, 0) (Ld.sg.remote (x 1) 0 8)).1), ((got (0, 0, 0) (Ld.sg.remote (x 1) 0 8)).2.1), ((got (0, 0, 0) (Ld.sg.remote (x 1) 0 8)).2.2), by decide +kernel⟩,
    ⟨Ld.sg, .always, (x 1), 0, ((got (0, 0, 0) (Ld.sg.remote (x 1) 0 8)).1), ((got (0, 0, 0) (Ld.sg.remote (x 1) 0 8)).2.1),
        ((got (0, 0, 0) (Ld.sg.remote (x 1) 0 8)).2.2), by decide +kernel⟩,
    ⟨Ld.sg, (.lanes 1 false), (x 1), 0, ((got (0, 0, 0) (Ld.sg.remote (x 1) 0 64)).1), ((got (0, 0, 0) (Ld.sg.remote (x 1) 0 64)).2.1),
        ((got (0, 0, 0) (Ld.sg.remote (x 1) 0 64)).2.2), by decide +kernel⟩,
    ⟨(on 0 Wy.mv), (.rld .always (r 3) (x 1) 0), .always, (x 1), (0 : BitVec 30), 8,
        ((field ((on 0 Wy.mv).ssrc (x 1)) 16 0 : Int) + (0 : BitVec 30).toInt * 8),
        (BitVec.ofNat 64 (field ((on 0 Wy.mv).ssrc (x 1)) 42 32 * 2 ^ 32 + (((field ((on 0 Wy.mv).ssrc (x 1)) 16 0 : Int) + (0 : BitVec 30).toInt * 8) % 2 ^ 17).toNat)),
        rfl, by and_intros <;> decide +kernel⟩,
    ⟨Wy.sg, (.rst .always (x 4) (x 2) 0 true false), .always, (x 2), (0 : BitVec 30), 8,
        ((field (Wy.sg.ssrc (x 2)) 16 0 : Int) + (0 : BitVec 30).toInt * 8),
        (BitVec.ofNat 64 (field (Wy.sg.ssrc (x 2)) 42 32 * 2 ^ 32 + (((field (Wy.sg.ssrc (x 2)) 16 0 : Int) + (0 : BitVec 30).toInt * 8) % 2 ^ 17).toNat)),
        rfl, by decide +kernel, by decide +kernel, by decide +kernel, by decide +kernel, .inr (.inr (.inl (by decide +kernel)))⟩,
    ⟨Wy.sg, (.rld .always (r 3) (x 1) 0), .always, (x 1), (0 : BitVec 30), 8,
        ((field (Wy.sg.ssrc (x 1)) 16 0 : Int) + (0 : BitVec 30).toInt * 8),
        (BitVec.ofNat 64 (field (Wy.sg.ssrc (x 1)) 42 32 * 2 ^ 32 + (((field (Wy.sg.ssrc (x 1)) 16 0 : Int) + (0 : BitVec 30).toInt * 8) % 2 ^ 17).toNat)),
        rfl, by and_intros <;> decide +kernel⟩,
    ⟨Wy.so, (.rstv .always (v 1) (x 1) 0x800 true false), .always, (x 1), (0x800 : BitVec 30), 64,
        ((field (Wy.so.ssrc (x 1)) 16 0 : Int) + (0x800 : BitVec 30).toInt * 64),
        (BitVec.ofNat 64 (field (Wy.so.ssrc (x 1)) 42 32 * 2 ^ 32 + (((field (Wy.so.ssrc (x 1)) 16 0 : Int) + (0x800 : BitVec 30).toInt * 64) % 2 ^ 17).toNat)),
        rfl, by and_intros <;> decide +kernel⟩⟩

/-- States and operands that meet the hypotheses of `Obligations.PostedArrivals`, clause by clause. -/
theorem witness_PostedArrivals :
    (
        ∃ (s : State) (c : _) (k : _) (e : _) (rest : _) (w : _) (ws : _),
        (s.slotOf c k).posted = e :: rest ∧ e.words = w :: ws ∧
        s.wayHeld e.vf c e.target w = false ∧ (s.vfOf e.target e.vf).fenced = false ∧ (∀ q ∈ s.waiters, q.pa ≠ w) ∧ w % 8 = 0) ∧
    (
        ∃ (s : State) (c : _) (k : _) (r : _) (rest : _) (p : _) (v : _),
        (s.slotOf c k).replies = r :: rest ∧ r.xmod = none ∧ r.value = some v ∧
        s.replyPlace r.vf r.token = some p ∧ s.wayHeld r.vf c (field r.token 44 32) p.pa = false ∧ (∀ q ∈ s.waiters, q.pa ≠ p.pa)) :=
  ⟨⟨{ on 1 Ld.mv { posted := [{ bytes := Safety.bytesAt (P + 0x48) 8 0x1122334455667788, words := [P + 0x48], full := true, target := 0, ord := false, vf := 0 }] } with mem := Ld.mem0 }, 0, 1, ((({ on 1 Ld.mv { posted := [{ bytes := Safety.bytesAt (P + 0x48) 8 0x1122334455667788, words := [P + 0x48], full := true, target := 0, ord := false, vf := 0 }] } with mem := Ld.mem0 }.slotOf 0 1).posted).headD { bytes := [], words := [], full := false, target := 0, ord := false }), ((({ on 1 Ld.mv { posted := [{ bytes := Safety.bytesAt (P + 0x48) 8 0x1122334455667788, words := [P + 0x48], full := true, target := 0, ord := false, vf := 0 }] } with mem := Ld.mem0 }.slotOf 0 1).posted).tail), ((((({ on 1 Ld.mv { posted := [{ bytes := Safety.bytesAt (P + 0x48) 8 0x1122334455667788, words := [P + 0x48], full := true, target := 0, ord := false, vf := 0 }] } with mem := Ld.mem0 }.slotOf 0 1).posted).headD { bytes := [], words := [], full := false, target := 0, ord := false }).words).headD 0), ((((({ on 1 Ld.mv { posted := [{ bytes := Safety.bytesAt (P + 0x48) 8 0x1122334455667788, words := [P + 0x48], full := true, target := 0, ord := false, vf := 0 }] } with mem := Ld.mem0 }.slotOf 0 1).posted).headD { bytes := [], words := [], full := false, target := 0, ord := false }).words).tail), by decide +kernel⟩,
    ⟨{ on 1 Ld.mv { replies := [{ token := 0x48, vf := 0, value := some 5 }] } with mem := Ld.mem0 }, 0, 1,
        ((({ on 1 Ld.mv { replies := [{ token := 0x48, vf := 0, value := some 5 }] } with mem := Ld.mem0 }.slotOf 0 1).replies).headD { token := 0, vf := 0, value := none }),
        ((({ on 1 Ld.mv { replies := [{ token := 0x48, vf := 0, value := some 5 }] } with mem := Ld.mem0 }.slotOf 0 1).replies).tail),
        (({ on 1 Ld.mv { replies := [{ token := 0x48, vf := 0, value := some 5 }] } with mem := Ld.mem0 }.replyPlace ((({ on 1 Ld.mv {
                        replies := [{ token := 0x48, vf := 0, value := some 5 }] } with
                    mem := Ld.mem0 }.slotOf 0 1).replies).headD { token := 0, vf := 0, value := none }).vf ((({ on 1 Ld.mv {
                        replies := [{ token := 0x48, vf := 0, value := some 5 }] } with
                    mem := Ld.mem0 }.slotOf 0 1).replies).headD { token := 0, vf := 0, value := none }).token).getD ({ pa := 0, kind := .window } : Place)),
        ((((({ on 1 Ld.mv { replies := [{ token := 0x48, vf := 0, value := some 5 }] } with mem := Ld.mem0 }.slotOf 0 1).replies).headD { token := 0, vf := 0, value := none }).value).getD 0),
        by decide +kernel⟩⟩

/-- States and operands that meet the hypotheses of `Obligations.SystemRegisters`, clause by clause. -/
theorem witness_SystemRegisters :
    (∃ (s : State) (n : _), s.cur.pl.toNat < sysLevel n) ∧
    (
        ∃ (s : State) (g : Pred) (n : _) (m : _),
        sysBits n = some m ∧ sysLevel n ≤ s.cur.pl.toNat ∧ s.acts g = true ∧ (n = .obspill → ∀ o ∈ s.obsOf s.core s.slot, o.spill = none)) ∧
    (∃ (s : State) (g : Pred), 1 ≤ s.cur.pl.toNat ∧ s.acts g = true ∧ (∃ o ∈ s.obsOf s.core s.slot, o.spill.isSome = true)) :=
  ⟨⟨Sy.s0, .tstat, by decide +kernel⟩,
    ⟨Sy.sF, .always, .tstat, ((sysBits .tstat).getD 0), by decide +kernel⟩,
    ⟨{ Sy.sF with
          cores := [
            (0, { slots := [(1, act Sy.mv { pl := 1})], obs := [{ obj := 0, kind := .put, rank := 0x48, holder := 1, spill := some 0 }] })] },
        .always, by decide +kernel⟩⟩

/-- States and operands that meet the hypotheses of `Obligations.FalsePredicate`. -/
theorem witness_FalsePredicate :
    ∃ (s : State) (i : _), s.acts (foot i).pred = false ∧ s.barred i = false ∧ NoneReserved s s.core s.slot :=
  ⟨Sy.s0, (.br (.whole 1 false) 5), by decide +kernel, by decide +kernel,
      ⟨by decide +kernel, by decide +kernel, fun _ => ⟨List.not_mem_nil, List.not_mem_nil⟩⟩⟩

/-- States and operands that meet the hypotheses of `Obligations.Completion`, clause by clause. -/
theorem witness_Completion :
    (∃ (s : State), (s.cur.ih = true ∨ s.cur.lc = 0 ∨ s.cur.pc ≠ s.cur.le)) ∧
    (∃ (s : State), s.cur.ih = false ∧ s.cur.pc = s.cur.le ∧ s.cur.lc = 1) ∧
    (∃ (s : State), s.cur.ih = false ∧ s.cur.pc = s.cur.le ∧ 1 < s.cur.lc.toNat) :=
  ⟨⟨(on 1 Sy.mv { ls := 0x3FFFFF00, le := 0x40000000, lc := 1, ih := true }), by decide +kernel⟩,
    ⟨(on 1 Sy.mv { ls := 0x3FFFFF00, le := 0x40000000, lc := 1 }), by decide +kernel⟩,
    ⟨(on 1 Sy.mv { ls := 0x3FFFFF00, le := 0x40000000, lc := 3 }), by decide +kernel⟩⟩

/-- States and operands that meet the hypotheses of `Obligations.RegisterWrites`, clause by clause. -/
theorem witness_RegisterWrites :
    (
        ∃ (s : State) (r : _) (n : _),
        (s.cur.busyNow.find? fun b => b.reg == r).map (fun b => b.cycle) = some n ∧ (∀ b ∈ s.cur.busy, b.reg = r → b.cycle ≤ n)) ∧
    (∃ (s : State) (c : _) (w : _) (v : _), (s.coreOf c).landing = [w] ∧ w.scalar = some v ∧ w.dq = false ∧ w.cycle ≤ s.cycle c) ∧
    (∃ (s : State) (c : _) (w : _) (v : _), (s.coreOf c).landing = [w] ∧ w.scalar = some v ∧ w.dq = false ∧ s.cycle c < w.cycle) ∧
    (
        ∃ (s : State) (c : _) (w : _) (l : _) (i : _),
        (s.coreOf c).landing = [w] ∧ w.scalar = none ∧ w.lanes = l ∧ w.cycle ≤ s.cycle c ∧
        l.Nodup ∧ (∀ p ∈ l, ∀ q ∈ l, p.1 = q.1 → p = q) ∧ (∀ p ∈ l, p.1 < 16) ∧ i < 16) ∧
    (
        ∃ (s : State) (c : _) (a : _) (b : _) (x : _) (y : _),
        (s.coreOf c).landing = [a, b] ∧ a.vf = b.vf ∧ a.reg = b.reg ∧ a.scalar = some x ∧ b.scalar = some y ∧ a.dq = false ∧ b.dq = false ∧
        a.cycle ≤ s.cycle c ∧ b.cycle ≤ s.cycle c) :=
  ⟨⟨(on 1 Sy.mv { busyNow := [{ reg := .s (.priv 3), cycle := 9 }], busy := [{ reg := .s (.priv 3), cycle := 9 }, { reg := .s (.priv 3), cycle := 4 }] }), (.s (.priv 3)), 9, by decide +kernel⟩,
    ⟨(on 1 Sy.mv {} { landing := [Sy.ld 0 1 5 9] }), 0,
        ((((on 1 Sy.mv {} { landing := [Sy.ld 0 1 5 9] }).coreOf 0).landing).headD ⟨0, 0, 0, 0, none, [], false⟩),
        ((((((on 1 Sy.mv {} { landing := [Sy.ld 0 1 5 9] }).coreOf 0).landing).headD ⟨0, 0, 0, 0, none, [], false⟩).scalar).getD 0),
        by decide +kernel⟩,
    ⟨(on 1 Sy.mv {} { landing := [Sy.ld 3 1 5 9] }), 0,
        ((((on 1 Sy.mv {} { landing := [Sy.ld 3 1 5 9] }).coreOf 0).landing).headD ⟨0, 0, 0, 0, none, [], false⟩),
        ((((((on 1 Sy.mv {} { landing := [Sy.ld 3 1 5 9] }).coreOf 0).landing).headD ⟨0, 0, 0, 0, none, [], false⟩).scalar).getD 0),
        by decide +kernel⟩,
    ⟨(on 1 Sy.mv {} { landing := [{ cycle := 0, slot := 1, vf := 0, reg := 5, lanes := [(0, 9), (15, 8)] }] }), 0,
        ((((on 1 Sy.mv {} { landing := [{ cycle := 0, slot := 1, vf := 0, reg := 5, lanes := [(0, 9), (15, 8)] }] }).coreOf 0).landing).headD ⟨0, 0, 0, 0, none, [], false⟩),
        (((((on 1 Sy.mv {} { landing := [{ cycle := 0, slot := 1, vf := 0, reg := 5, lanes := [(0, 9), (15, 8)] }] }).coreOf 0).landing).headD ⟨0, 0, 0, 0, none, [], false⟩).lanes),
        15, by decide +kernel⟩,
    ⟨(on 1 Sy.mv {} { landing := [Sy.ld 0 2 5 9, Sy.ld 0 1 5 8] }), 0,
        ((((on 1 Sy.mv {} { landing := [Sy.ld 0 2 5 9, Sy.ld 0 1 5 8] }).coreOf 0).landing).getD 0 ⟨0, 0, 0, 0, none, [], false⟩),
        ((((on 1 Sy.mv {} { landing := [Sy.ld 0 2 5 9, Sy.ld 0 1 5 8] }).coreOf 0).landing).getD 1 ⟨0, 0, 0, 0, none, [], false⟩),
        ((((((on 1 Sy.mv {} { landing := [Sy.ld 0 2 5 9, Sy.ld 0 1 5 8] }).coreOf 0).landing).getD 0 ⟨0, 0, 0, 0, none, [], false⟩).scalar).getD 0),
        ((((((on 1 Sy.mv {} { landing := [Sy.ld 0 2 5 9, Sy.ld 0 1 5 8] }).coreOf 0).landing).getD 1 ⟨0, 0, 0, 0, none, [], false⟩).scalar).getD 0),
        by decide +kernel⟩⟩

/-- States and operands that meet the hypotheses of `Obligations.ResultFrame`. -/
theorem witness_ResultFrame :
    ∃ (s : State) (i : _) (g : _) (d : _) (t : _), resultOf s i = some (g, d) ∧ exec i s = .next t :=
  ⟨Sy.s0, (.add .always (r 3) (x 1) (x 2)), .always, (.s (r 3)), (nx (exec (.add .always (r 3) (x 1) (x 2)) Sy.s0)), rfl,
      nx_of_goes (by decide +kernel)⟩

/-- States and operands that meet the hypotheses of `Obligations.ControlTransfers`, clause by clause. -/
theorem witness_ControlTransfers :
    (∃ (s : State) (g : Pred), s.acts g = true) ∧
    (
        ∃ (s : State) (a : _) (dist : BitVec 35) (s' : State) (le : Word),
        le = BitVec.ofInt 64 (s.cur.pc.toNat + 2 * dist.toInt) &&& 0x01FFFFFFFFFFFFFE ∧ s' = (s.modCur fun x => { x with
            ls := (s.cur.pc + BitVec.ofNat 64 s.cur.ilen) &&& 0x01FFFFFFFFFFFFFE, le := le, lc := s.ssrc a }) ∧ s.ssrc a ≠ 0) ∧
    (
        ∃ (s : State) (a : _) (dist : BitVec 35) (s' : State) (le : Word) (u : State) (ws : _) (k : _),
        le = BitVec.ofInt 64 (s.cur.pc.toNat + 2 * dist.toInt) &&& 0x01FFFFFFFFFFFFFE ∧ s' = (s.modCur fun x => { x with
            ls := (s.cur.pc + BitVec.ofNat 64 s.cur.ilen) &&& 0x01FFFFFFFFFFFFFE, le := le, lc := s.ssrc a }) ∧
        s.ssrc a = 0 ∧ s.fetchHeld le = none ∧ s'.fetchWords le = (u, .ok ws) ∧ chainLength ws = some k) ∧
    (
        ∃ (s : State) (a : _) (dist : BitVec 35) (s' : State) (le : Word) (u : State) (ws : _),
        le = BitVec.ofInt 64 (s.cur.pc.toNat + 2 * dist.toInt) &&& 0x01FFFFFFFFFFFFFE ∧ s' = (s.modCur fun x => { x with
            ls := (s.cur.pc + BitVec.ofNat 64 s.cur.ilen) &&& 0x01FFFFFFFFFFFFFE, le := le, lc := s.ssrc a }) ∧
        s.ssrc a = 0 ∧ s.fetchHeld le = none ∧ s'.fetchWords le = (u, .ok ws) ∧ chainLength ws = none) ∧
    (
        ∃ (s : State) (a : _) (dist : BitVec 35) (s' : State) (le : Word) (u : State) (c : _),
        le = BitVec.ofInt 64 (s.cur.pc.toNat + 2 * dist.toInt) &&& 0x01FFFFFFFFFFFFFE ∧ s' = (s.modCur fun x => { x with
            ls := (s.cur.pc + BitVec.ofNat 64 s.cur.ilen) &&& 0x01FFFFFFFFFFFFFE, le := le, lc := s.ssrc a }) ∧ s.ssrc a = 0 ∧
        s.fetchHeld le = none ∧ s'.fetchWords le = (u, .error c)) :=
  ⟨⟨Sy.sL, .always, by decide +kernel⟩,
    ⟨Lo.sL, (x 1), (5 : BitVec 35), (Lo.sp Lo.sL (x 1)), Lo.le0, by decide +kernel⟩,
    ⟨(Lo.sM (wordAt 0x40000008 0x08230000)), (x 7), (5 : BitVec 35), (Lo.sp (Lo.sM (wordAt 0x40000008 0x08230000)) (x 7)), Lo.le0,
        (((Lo.sp (Lo.sM (wordAt 0x40000008 0x08230000)) (x 7)).fetchWords Lo.le0).1),
        (got [] (((Lo.sp (Lo.sM (wordAt 0x40000008 0x08230000)) (x 7)).fetchWords Lo.le0).2)),
        ((chainLength (got [] (((Lo.sp (Lo.sM (wordAt 0x40000008 0x08230000)) (x 7)).fetchWords Lo.le0).2))).getD 0), by decide +kernel⟩,
    ⟨(Lo.sM (wordAt 0x40000008 0xF8000000)), (x 7), (5 : BitVec 35), (Lo.sp (Lo.sM (wordAt 0x40000008 0xF8000000)) (x 7)), Lo.le0,
        (((Lo.sp (Lo.sM (wordAt 0x40000008 0xF8000000)) (x 7)).fetchWords Lo.le0).1),
        (got [] (((Lo.sp (Lo.sM (wordAt 0x40000008 0xF8000000)) (x 7)).fetchWords Lo.le0).2)), by decide +kernel⟩,
    ⟨Lo.sL, (x 7), (5 : BitVec 35), (Lo.sp Lo.sL (x 7)), Lo.le0, (((Lo.sp Lo.sL (x 7)).fetchWords Lo.le0).1), .xlate, by decide +kernel⟩⟩

/-- States and operands that meet the hypotheses of `Obligations.TrapEntry`, clause by clause. -/
theorem witness_TrapEntry :
    (∃ (s : State), s.slot ≠ 15 ∧ s.cur.ih = false) ∧
    (∃ (s : State), s.slot ≠ 15 ∧ s.cur.ih = true ∧ s.cur.kill = none) ∧
    (∃ (s : State), s.slot = 15 ∧ s.cur.kill = none) :=
  ⟨⟨Sy.s0, by decide +kernel⟩,
    ⟨(on 1 Sy.mv { ih := true }), by decide +kernel⟩,
    ⟨(on 15 Sy.mv), by decide +kernel⟩⟩

/-- States and operands that meet the hypotheses of `Obligations.SlotAndLevel`, clause by clause. -/
theorem witness_SlotAndLevel :
    (∃ (s : State) (i : _), (((footOf i).noMove = true ∧ s.slot = 0) ∨ ((footOf i).general = true ∧ (s.slot = 0 ∨ s.slot = 15)))) ∧
    (∃ (s : State) (i : _), s.cur.pl.toNat < (footOf i).level ∧ ((footOf i).noMove = false ∨ s.slot ≠ 0)) ∧
    (∃ (s : State), s.slot ≠ 15) ∧
    (∃ (s : State), s.slot = 15) ∧
    (∃ (s : State), s.slot ≠ 0) :=
  ⟨⟨(on 0 Sy.mv), (.fork .always 5), by decide +kernel⟩,
    ⟨(on 1 Sy.mv), (.sendSys .always (v 1) (x 1) 2), by decide +kernel⟩,
    ⟨(on 1 Sy.mv), by decide +kernel⟩,
    ⟨(on 15 Sy.mv), by decide +kernel⟩,
    ⟨(on 1 Sy.mv), by decide +kernel⟩⟩

/-- States and operands that meet the hypotheses of `Obligations.ChecksAndTraps`, clause by clause. -/
theorem witness_ChecksAndTraps :
    (∃ (s : State) (g : Pred), s.acts g = true ∧ s.slot ≠ 15 ∧ s.cur.ih = false) ∧
    (∃ (s : State), s.cur.ih = true ∧ s.cur.ppl ≠ 3) ∧
    (∃ (s : State), (s.cur.ih = false ∨ s.cur.ppl = 3)) ∧
    (∃ (s : State) (g : Pred), s.acts g = true ∧ ((s.cur.preLead = false ∧ s.cur.prePreempt = false) ∨ s.slot = 15)) ∧
    (
        ∃ (s : State) (g : Pred),
        s.acts g = true ∧ (s.cur.preLead = true ∨ s.cur.prePreempt = true) ∧ s.slot ≠ 15 ∧
        s.slot ≠ 0 ∧ s.cur.storeBuf = [] ∧ s.cur.posted = [] ∧ s.cur.regErr = []) ∧
    (∃ (s : State) (imm : _), s.cur.sigPrev = imm) ∧
    (∃ (s : State) (imm : _), s.cur.sigPrev ≠ imm ∧ s.cur.kill = none) :=
  ⟨⟨Sy.s0, .always, by decide +kernel⟩,
    ⟨(on 1 Sy.mv { ih := true, ppl := 1, tepc := 0x66 }), by decide +kernel⟩,
    ⟨Sy.s0, by decide +kernel⟩,
    ⟨(on 1 Sy.mv { ptc := 4 }), .always, by decide +kernel⟩,
    ⟨(on 1 Sy.mv { ptc := 4, preLead := true }), .always, by decide +kernel⟩,
    ⟨Sy.s0, 0x77, by decide +kernel⟩,
    ⟨Sy.s0, 0x78, by decide +kernel⟩⟩

/-- States and operands that meet the hypotheses of `Obligations.ActivityEnd`, clause by clause. -/
theorem witness_ActivityEnd :
    (∃ (s : State) (g : Pred), s.acts g = true ∧ s.slot ≠ 15 ∧ s.obsOf s.core s.slot = [] ∧ (∀ p ∈ s.cur.pendRegs, p.2 = true)) ∧
    (∃ (s : State) (g : Pred), s.acts g = true ∧ s.slot ≠ 15 ∧ s.obsOf s.core s.slot = [] ∧ (∃ p ∈ s.cur.pendRegs, p.2 = false)) ∧
    (
        ∃ (s : State) (c : _) (k : _),
        (s.slotOf c k).status = .wait .exiting ∧ s.relocks c = false ∧ (∀ p ∈ (s.slotOf c k).pendRegs, p.2 = true)) ∧
    (∃ (s : State) (g : Pred), s.acts g = true ∧ s.slot ≠ 15 ∧ s.obsOf s.core s.slot ≠ []) :=
  ⟨⟨(on 1 Sy.mv { pendRegs := [(1, true)] }), .always, by decide +kernel⟩,
    ⟨(on 1 Sy.mv { pendRegs := [(1, false)] }), .always, by decide +kernel⟩,
    ⟨{ on 1 Sy.mv with cores := [(0, { slots := [(1, { act Sy.mv with status := .wait .exiting })] })] }, 0, 1, by decide +kernel⟩,
    ⟨{ Sy.sF with
          cores := [
            (0, { slots := [(1, act Sy.mv { pl := 1})], obs := [{ obj := 0, kind := .put, rank := 0x48, holder := 1, spill := some 0 }] })] },
        .always, by decide +kernel⟩⟩

/-- States and operands that meet the hypotheses of `Obligations.StepRunsDecoded`, clause by clause. -/
theorem witness_StepRunsDecoded :
    (
        ∃ (s : State) (u : State) (i : _) (ws : _) (len : _),
        s.cur.pc.toNat % 2 = 0 ∧ s.fetchHeld s.cur.pc = none ∧ s.fetchWords s.cur.pc = (u, .ok ws) ∧ decode s.decMode ws = .ok (i, len)) ∧
    (
        ∃ (s : State) (u : State) (rest : _) (q : _) (i : _) (len : _) (ws : _) (f : Foot),
        s.traceNow = none ∧ s.agenda = .seat :: rest ∧ s.nextSeat = some q ∧
        s.dueBefore q.tick true = none ∧ (seated s q rest).cur.boundary q.core q.slot = none ∧ ((seated s q rest).modCur fun x => { x with sigPrev := x.sigacc }).fetchInstr = (u, .instr i len ws) ∧ (u.setInstr len ws).cur.loopEnds i = false ∧ (u.setInstr len ws).barred i = false ∧ (u.setInstr len ws).acts (foot i).pred = true ∧
        f = (u.setInstr len ws).foot i ∧ (u.setInstr len ws).stopped (!q.donated) f (fun v => v.begin i f ws) = none) ∧
    (
        ∃ (s : State) (u : State) (rest : _) (q : _) (i : _) (len : _) (ws : _),
        s.traceNow = none ∧ s.agenda = .seat :: rest ∧ s.nextSeat = some q ∧
        s.dueBefore q.tick true = none ∧ (seated s q rest).cur.boundary q.core q.slot = none ∧ ((seated s q rest).modCur fun x => { x with sigPrev := x.sigacc }).fetchInstr = (u, .instr i len ws) ∧ (u.setInstr len ws).cur.loopEnds i = false ∧ (u.setInstr len ws).barred i = true) ∧
    (
        ∃ (s : State) (u : State) (rest : _) (q : _) (i : _) (len : _) (ws : _),
        s.traceNow = none ∧ s.agenda = .seat :: rest ∧ s.nextSeat = some q ∧
        s.dueBefore q.tick true = none ∧ (seated s q rest).cur.boundary q.core q.slot = none ∧ ((seated s q rest).modCur fun x => { x with sigPrev := x.sigacc }).fetchInstr = (u, .instr i len ws) ∧ (u.setInstr len ws).cur.loopEnds i = false ∧ (u.setInstr len ws).barred i = false ∧ (u.setInstr len ws).acts (foot i).pred = false) ∧
    (∃ (s : State) (i : _) (rest : _), s.traceNow = none ∧ s.agenda = .ev i :: rest ∧ s.evTick i = none) :=
  ⟨⟨(Lo.sM (wordAt 0x40000000 0x0823F000)), (((Lo.sM (wordAt 0x40000000 0x0823F000)).fetchWords (Lo.sM (wordAt 0x40000000 0x0823F000)).cur.pc).1), ((got (.nop .always, 0) (decode (Lo.sM (wordAt 0x40000000 0x0823F000)).decMode (got [] (((Lo.sM (wordAt 0x40000000 0x0823F000)).fetchWords (Lo.sM (wordAt 0x40000000 0x0823F000)).cur.pc).2)))).1), (got [] (((Lo.sM (wordAt 0x40000000 0x0823F000)).fetchWords (Lo.sM (wordAt 0x40000000 0x0823F000)).cur.pc).2)), ((got (.nop .always, 0) (decode (Lo.sM (wordAt 0x40000000 0x0823F000)).decMode (got [] (((Lo.sM (wordAt 0x40000000 0x0823F000)).fetchWords (Lo.sM (wordAt 0x40000000 0x0823F000)).cur.pc).2)))).2), by decide +kernel⟩,
    ⟨Fe.t1, (Fe.uOf Fe.t1), ((Fe.t1.agenda).tail), ((Fe.t1.nextSeat).getD ⟨0, 0, 0, 0, false⟩), (.movi .always (r 1) 3), 2, [0x0823],
        (((Fe.uOf Fe.t1).setInstr 2 [0x0823]).foot (.movi .always (r 1) 3)), by decide +kernel⟩,
    ⟨Fe.t5, (Fe.uOf Fe.t5), ((Fe.t5.agenda).tail), ((Fe.t5.nextSeat).getD ⟨0, 0, 0, 0, false⟩), (.halt .always), 4, [0xFA80, 0x1C00],
        by decide +kernel⟩,
    ⟨Fe.t3, (Fe.uOf Fe.t3), ((Fe.t3.agenda).tail), ((Fe.t3.nextSeat).getD ⟨0, 0, 0, 0, false⟩), (.movi (.whole 1 false) (r 1) 3), 4,
        [0xFC80, 0x0823], by decide +kernel⟩,
    ⟨{ State.reset with agenda := [.ev (.vfUp 3)] }, (.vfUp 3), [], by decide +kernel⟩⟩

/-- States and operands that meet the hypotheses of `Obligations.ResetState`. -/
theorem witness_ResetState :
    ∃ (v : _), v < 8 :=
  ⟨7, by decide +kernel⟩

/-- States and operands that meet the hypotheses of `Obligations.MemoryForm`. -/
theorem witness_MemoryForm :
    ∃ (s : State) (t : State), Memory.wf s.mem ∧ step s = .next t :=
  ⟨(State.reset.withFetchWord 16 0x0823), (nx (step (State.reset.withFetchWord 16 0x0823))), by decide +kernel,
      nx_of_goes (by decide +kernel)⟩

/-- States and operands that meet the hypotheses of `Obligations.ReservedRefused`, clause by clause. -/
theorem witness_ReservedRefused :
    (∃ (ws : List Half), (∀ w ∈ ws, 0x3C ≤ (w.extractLsb' 10 6).toNat)) ∧
    (∃ (p : List Half), 4 < p.length ∧ (∀ w ∈ p, 0x3C ≤ (w.extractLsb' 10 6).toNat)) ∧
    (
        ∃ (a : Half) (b : Half) (p : List Half) (q : List Half),
        0x3D ≤ (a.extractLsb' 10 6).toNat ∧ a.extractLsb' 10 6 = b.extractLsb' 10 6 ∧ (∀ w ∈ p ++ q, 0x3C ≤ (w.extractLsb' 10 6).toNat)) ∧
    (
        ∃ (w : Half) (p : List Half),
        (∀ x ∈ p, 0x3C ≤ (x.extractLsb' 10 6).toNat) ∧ w.extractLsb' 10 6 = 0x3E ∧ (w.extractLsb' 6 4 = 0 ∨ 11 ≤ (w.extractLsb' 6 4).toNat)) ∧
    (∃ (w : Half) (p : List Half), (∀ x ∈ p, 0x3C ≤ (x.extractLsb' 10 6).toNat) ∧ w.extractLsb' 10 6 = 0x3F ∧ w.extractLsb' 0 5 ≠ 0) ∧
    (∃ (p : List Half), (∀ x ∈ p, 0x3C ≤ (x.extractLsb' 10 6).toNat) ∧ 4 ≤ (p.filter fun x => x.extractLsb' 10 6 == 0x3C).length) ∧
    (
        ∃ (w : Half) (p : List Half),
        (∀ x ∈ p, 0x3C ≤ (x.extractLsb' 10 6).toNat) ∧ (w.extractLsb' 10 6).toNat < 0x3C ∧ opsListed (pageOf p) ≤ (w.extractLsb' 10 6).toNat) ∧
    (
        ∃ (w : Half) (p : List Half),
        (∀ x ∈ p, 0x3C ≤ (x.extractLsb' 10 6).toNat) ∧ (w.extractLsb' 10 6).toNat < 0x3C ∧ (w.extractLsb' 10 6).toNat ∉ thirdOps (pageOf p) ∧ (
          ∃ x ∈ p, x.extractLsb' 10 6 = 0x3D ∧ (x.extractLsb' 5 5 ≠ 0 ∨ x.getLsbD 2 = true))) :=
  ⟨⟨[0xF000, 0xFFFF], by simp⟩,
    ⟨[0xF000, 0xF001, 0xF002, 0xF003, 0xF004], by decide +kernel, by simp⟩,
    ⟨0xF400, 0xF7FF, [0xF000], [0xF840], by decide +kernel, by decide +kernel, by simp⟩,
    ⟨0xFAC0, [0xF000], by simp, by and_intros <;> decide +kernel⟩,
    ⟨0xFC01, [0xF000], by simp, by and_intros <;> decide +kernel⟩,
    ⟨[0xF000, 0xF001, 0xF002, 0xF003], by simp, by decide +kernel⟩,
    ⟨0xA000, [0xF840], by simp, by and_intros <;> decide +kernel⟩,
    ⟨0, [0xF420], by simp, by decide +kernel, by decide +kernel, by simp⟩⟩

/-- States and operands that meet the hypotheses of `Obligations.DecodeEncode`. -/
theorem witness_DecodeEncode :
    ∃ (m : _) (i : _) (ws : _), wf m i = true ∧ encode m i = some ws :=
  ⟨{ maint := true }, (.add .always (r 31) (.reg (r 15)) (.lit 300)),
      ((encode { maint := true } (.add .always (r 31) (.reg (r 15)) (.lit 300))).getD []), by decide +kernel⟩

/-- States and operands that meet the hypotheses of `Obligations.SyncCreates`, clause by clause. -/
theorem witness_SyncCreates :
    (
        ∃ (s : State) (g : Pred) (sa : _) (sr : _) (sv : _) (type : SlotType) (owe : _) (s1 : _) (s2 : _) (p : _),
        s.acts g = true ∧ AtSlot s (s.ssrc sa) true s1 p ∧ (s.ssrc sr).toNat < 0xFFFFFFFFFFFFFF ∧ (type = .barrier → field (s.ssrc sv) 47 24 ≠ 0) ∧
        owe = false ∧ EntryLeft s ∧ (withEntry s1).release .module = some s2 ∧ ¬ (slotWord (s2.mem.word p.pa)).Live) ∧
    (
        ∃ (s : State) (g : Pred) (sa : _) (sr : _) (sv : _) (s1 : _) (s2 : _) (s3 : _) (p : _) (i : _),
        s.acts g = true ∧ AtSlot s (s.ssrc sa) true s1 p ∧ (s.ssrc sr).toNat < 0xFFFFFFFFFFFFFF ∧
        field (s.ssrc sv) 47 24 ≠ 0 ∧ EntryLeft s ∧ (withEntry s1).reserveOb s.core s.slot = .ok s2 i ∧ (s2.coreOf s.core).obResv.look (16 + s.slot) = none ∧
        s2.isUnavail p.pa = false ∧ s2.release .module = some s3 ∧ ¬ (slotWord (s3.mem.word p.pa)).Live) ∧
    (
        ∃ (s : State) (g : Pred) (d : _) (lo : _) (hi : _) (owe : _) (s1 : _) (s2 : _) (p : _),
        s.acts g = true ∧ AtSlot s (s.sreg d) true s1 p ∧ (s.ssrc hi).toNat ≤ 0xFFFFFFFFFFFFFF ∧ (s.ssrc lo).toNat + 2 ≤ (s.ssrc hi).toNat ∧
        owe = false ∧ EntryLeft s ∧ (withEntry s1).release .module = some s2 ∧ ¬ (slotWord (s2.mem.word p.pa)).Live) ∧
    (
        ∃ (s : State) (g : Pred) (d : _) (lo : _) (hi : _) (s1 : _) (s2 : _) (s3 : _) (p : _) (i : _),
        s.acts g = true ∧ AtSlot s (s.sreg d) true s1 p ∧ (s.ssrc hi).toNat ≤ 0xFFFFFFFFFFFFFF ∧ (s.ssrc lo).toNat + 2 ≤ (s.ssrc hi).toNat ∧
        EntryLeft s ∧ (withEntry s1).reserveOb s.core s.slot = .ok s2 i ∧ (s2.coreOf s.core).obResv.look (16 + s.slot) = none ∧
        s2.isUnavail p.pa = false ∧ s2.release .module = some s3 ∧ ¬ (slotWord (s3.mem.word p.pa)).Live) ∧
    (
        ∃ (s : State) (g : Pred) (sa : _) (sr : _) (s1 : _) (p : _),
        s.acts g = true ∧ AtSlot s (s.ssrc sa) true s1 p ∧ 0xFFFFFFFFFFFFFF ≤ (s.ssrc sr).toNat) ∧
    (
        ∃ (s : State) (g : Pred) (sa : _) (sr : _) (sv : _) (type : SlotType) (owe : _) (s1 : _) (p : _),
        s.acts g = true ∧ AtSlot s (s.ssrc sa) true s1 p ∧ (s.ssrc sr).toNat < 0xFFFFFFFFFFFFFF ∧ ((type = .barrier ∧ field (s.ssrc sv) 47 24 = 0) ∨ (owe = true ∧ type ≠ .barrier))) ∧
    (
        ∃ (s : State) (g : Pred) (sa : _) (sr : _) (sv : _) (type : SlotType) (owe : _) (s1 : _) (p : _),
        s.acts g = true ∧ AtSlot s (s.ssrc sa) true s1 p ∧ (s.ssrc sr).toNat < 0xFFFFFFFFFFFFFF ∧ (type = .barrier → field (s.ssrc sv) 47 24 ≠ 0) ∧ (owe = true → type = .barrier) ∧
        ¬ EntryLeft s) ∧
    (
        ∃ (s : State) (g : Pred) (lo : _) (hi : _),
        s.acts g = true ∧ s.slot ≠ 0 ∧ (0xFFFFFFFFFFFFFF < (s.ssrc hi).toNat ∨ (s.ssrc hi).toNat < (s.ssrc lo).toNat + 2)) :=
  ⟨⟨Sn.s0, .always, (x 1), (x 4), (x 3), .barrier, false, ((Sn.s0.resolve (Sn.s0.ssrc (x 1)) { size := 16, write := true }).1), (((withEntry ((Sn.s0.resolve (Sn.s0.ssrc (x 1)) { size := 16, write := true }).1)).release .module).getD {}), (got ({ pa := 0, kind := .window } : Place) (Sn.s0.resolve (Sn.s0.ssrc (x 1)) { size := 16, write := true }).2), by decide +kernel⟩,
    ⟨Sn.s0, .always, (x 1), (x 4), (x 3), ((Sn.s0.resolve (Sn.s0.ssrc (x 1)) { size := 16, write := true }).1),
        (roomOf ((withEntry ((Sn.s0.resolve (Sn.s0.ssrc (x 1)) { size := 16, write := true }).1)).reserveOb Sn.s0.core Sn.s0.slot)),
        (((roomOf ((withEntry ((Sn.s0.resolve (Sn.s0.ssrc (x 1)) { size := 16, write := true }).1)).reserveOb Sn.s0.core Sn.s0.slot)).release .module).getD {}),
        (got ({ pa := 0, kind := .window } : Place) (Sn.s0.resolve (Sn.s0.ssrc (x 1)) { size := 16, write := true }).2),
        (roomAt ((withEntry ((Sn.s0.resolve (Sn.s0.ssrc (x 1)) { size := 16, write := true }).1)).reserveOb Sn.s0.core Sn.s0.slot)),
        by decide +kernel, by decide +kernel, by decide +kernel, by decide +kernel, by decide +kernel, ok_of_hasRoom (by decide +kernel),
        by and_intros <;> decide +kernel⟩,
    ⟨Sn.s0, .always, (r 1), (x 4), (x 6), false, ((Sn.s0.resolve (Sn.s0.sreg (r 1)) { size := 16, write := true }).1),
        (((withEntry ((Sn.s0.resolve (Sn.s0.sreg (r 1)) { size := 16, write := true }).1)).release .module).getD {}),
        (got ({ pa := 0, kind := .window } : Place) (Sn.s0.resolve (Sn.s0.sreg (r 1)) { size := 16, write := true }).2), by decide +kernel⟩,
    ⟨Sn.s0, .always, (r 1), (x 8), (x 6), ((Sn.s0.resolve (Sn.s0.sreg (r 1)) { size := 16, write := true }).1),
        (roomOf ((withEntry ((Sn.s0.resolve (Sn.s0.sreg (r 1)) { size := 16, write := true }).1)).reserveOb Sn.s0.core Sn.s0.slot)),
        (((roomOf ((withEntry ((Sn.s0.resolve (Sn.s0.sreg (r 1)) { size := 16, write := true }).1)).reserveOb Sn.s0.core Sn.s0.slot)).release .module).getD {}),
        (got ({ pa := 0, kind := .window } : Place) (Sn.s0.resolve (Sn.s0.sreg (r 1)) { size := 16, write := true }).2),
        (roomAt ((withEntry ((Sn.s0.resolve (Sn.s0.sreg (r 1)) { size := 16, write := true }).1)).reserveOb Sn.s0.core Sn.s0.slot)),
        by decide +kernel, by decide +kernel, by decide +kernel, by decide +kernel, by decide +kernel, ok_of_hasRoom (by decide +kernel),
        by and_intros <;> decide +kernel⟩,
    ⟨Sn.s0, .always, (x 1), (x 5), ((Sn.s0.resolve (Sn.s0.ssrc (x 1)) { size := 16, write := true }).1),
        (got ({ pa := 0, kind := .window } : Place) (Sn.s0.resolve (Sn.s0.ssrc (x 1)) { size := 16, write := true }).2), by decide +kernel⟩,
    ⟨Sn.s0, .always, (x 1), (x 4), (x 2), .barrier, false, ((Sn.s0.resolve (Sn.s0.ssrc (x 1)) { size := 16, write := true }).1),
        (got ({ pa := 0, kind := .window } : Place) (Sn.s0.resolve (Sn.s0.ssrc (x 1)) { size := 16, write := true }).2), by decide +kernel⟩,
    ⟨{Sn.s0 with pf := [(0x110, 1)]}, .always, (x 1), (x 4), (x 2), .join, false,
        (({Sn.s0 with pf := [(0x110, 1)]}.resolve ({Sn.s0 with pf := [(0x110, 1)]}.ssrc (x 1)) { size := 16, write := true }).1),
        (got ({ pa := 0, kind := .window } : Place) ({Sn.s0 with pf := [(0x110, 1)]}.resolve ({Sn.s0 with pf := [(0x110, 1)]}.ssrc (x 1)) { size := 16, write := true }).2),
        by decide +kernel⟩,
    ⟨Sn.s0, .always, (x 8), (x 8), by decide +kernel⟩⟩

/-- States and operands that meet the hypotheses of `Obligations.SyncSlots`, clause by clause. -/
theorem witness_SyncSlots :
    (
        ∃ (s : State) (g : Pred) (sa : _) (s1 : _) (s2 : _) (p : _) (b : _) (ph : _) (v : _),
        s.acts g = true ∧ AtSlot s (s.ssrc sa) true s1 p ∧ s1.release .module = some s2 ∧ slotWord (s2.mem.word p.pa) = ⟨b, true, 1, ph, v⟩ ∧
        Alone s p.pa) ∧
    (
        ∃ (s : State) (g : Pred) (sa : _) (s1 : _) (s2 : _) (p : _),
        s.acts g = true ∧ AtSlot s (s.ssrc sa) true s1 p ∧ s1.release .module = some s2 ∧ ¬ ((slotWord (s2.mem.word p.pa)).Live ∧ (slotWord (s2.mem.word p.pa)).type = 1)) ∧
    (
        ∃ (s : State) (g : Pred) (sa : _) (s1 : _) (s2 : _) (p : _) (b : _) (ph : _) (n : _) (r : _),
        s.acts g = true ∧ AtSlot s (s.ssrc sa) true s1 p ∧ s1.release .module = some s2 ∧
        r < 2 ^ 24 ∧ slotWord (s2.mem.word p.pa) = ⟨b, true, 2, ph, n * 2 ^ 24 + r⟩ ∧ 1 ≤ r ∧ Alone s p.pa) ∧
    (
        ∃ (s : State) (g : Pred) (sa : _) (s1 : _) (s2 : _) (p : _),
        s.acts g = true ∧ AtSlot s (s.ssrc sa) true s1 p ∧ s1.release .module = some s2 ∧ ¬ ((slotWord (s2.mem.word p.pa)).Live ∧ (slotWord (s2.mem.word p.pa)).type = 2)) ∧
    (
        ∃ (s : State) (g : Pred) (sa : _) (s1 : _) (p : _),
        s.acts g = true ∧ s.slot ≠ 15 ∧ AtSlot s (s.ssrc sa) true s1 p ∧ s.cur.storeBuf = [] ∧ ¬ (slotWord (s.mem.word p.pa)).Live) ∧
    (
        ∃ (s : State) (g : Pred) (sa : _) (s1 : _) (p : _),
        s.acts g = true ∧ s.slot ≠ 15 ∧ AtSlot s (s.ssrc sa) true s1 p ∧ s.cur.storeBuf = [] ∧ (slotWord (s.mem.word p.pa)).Live ∧ ((s.mem.word (p.pa + 8)).setWidth 56).toNat < (s.obmin s.core s.slot).toNat) ∧
    (∃ (s : State) (g : Pred), s.acts g = true ∧ s.slot = 15) ∧
    (
        ∃ (s : State) (g : Pred) (sa : _) (s1 : _) (s2 : _) (p : _) (b : _) (ph : _) (v : _) (c : _) (k : _) (d : _) (a : _) (target : _) (m : _) (h : _),
        s.acts g = true ∧ AtSlot s (s.ssrc sa) true s1 p ∧ s1.release .module = some s2 ∧ slotWord (s2.mem.word p.pa) = ⟨b, true, 1, ph, v⟩ ∧ (∀ q ∈ s.obsOf s.core s.slot, q.spill = none) ∧
        s.waiters = [⟨h, p.pa, c, k, .sywait (.priv d) a p.pa target m, false⟩] ∧ (c, k) ≠ (s.core, s.slot) ∧ (s.at c k).older (.s (.priv d)) = 0) ∧
    (∃ (s : State) (g : Pred) (sa : _) (s1 : _) (p : _), s.acts g = true ∧ AtSlot s (s.ssrc sa) false s1 p ∧ s.cur.storeBuf = []) ∧
    (
        ∃ (s : State) (g : Pred) (sa : _) (s1 : _) (p : _),
        s.acts g = true ∧ AtSlot s (s.ssrc sa) true s1 p ∧ (¬ (slotWord (s.mem.word p.pa)).Live ∨ (s.vfOf s.core s.bankVf).sync.look p.pa ≠ some 0 ∨ (
            ∃ w ∈ s.waiters, w.pa = p.pa ∧ w.req.isFE = false))) ∧
    (
        ∃ (s : State) (g : Pred) (sa : _) (s1 : _) (s2 : _) (p : _),
        s.acts g = true ∧ AtSlot s (s.ssrc sa) true s1 p ∧ s1.release .module = some s2 ∧ (slotWord (s.mem.word p.pa)).Live ∧ (s.vfOf s.core s.bankVf).sync.look p.pa = some 0 ∧ (∀ w ∈ s.waiters, w.pa ≠ p.pa) ∧ (slotWord (s2.mem.word p.pa)).Live) ∧
    (
        ∃ (s : State) (g : Pred) (sa : _) (s1 : _) (s2 : _) (p : _),
        s.acts g = true ∧ AtSlot s (s.ssrc sa) true s1 p ∧ s1.release .module = some s2 ∧ (slotWord (s.mem.word p.pa)).Live ∧ (s.vfOf s.core s.bankVf).sync.look p.pa = some 0 ∧ (∀ w ∈ s.waiters, w.pa ≠ p.pa) ∧
        ¬ (slotWord (s2.mem.word p.pa)).Live) :=
  ⟨⟨(Sn.sy 1 3 9 1 {} [Sn.ob .signal (boundObj 0 0x40) 0x60]), .always, (x 1), (((Sn.sy 1 3 9 1 {} [Sn.ob .signal (boundObj 0 0x40) 0x60]).resolve ((Sn.sy 1 3 9 1 {} [Sn.ob .signal (boundObj 0 0x40) 0x60]).ssrc (x 1)) { size := 16, write := true }).1), (((((Sn.sy 1 3 9 1 {} [Sn.ob .signal (boundObj 0 0x40) 0x60]).resolve ((Sn.sy 1 3 9 1 {} [Sn.ob .signal (boundObj 0 0x40) 0x60]).ssrc (x 1)) { size := 16, write := true }).1).release .module).getD {}), (got ({ pa := 0, kind := .window } : Place) ((Sn.sy 1 3 9 1 {} [Sn.ob .signal (boundObj 0 0x40) 0x60]).resolve ((Sn.sy 1 3 9 1 {} [Sn.ob .signal (boundObj 0 0x40) 0x60]).ssrc (x 1)) { size := 16, write := true }).2), ((slotWord ((((((Sn.sy 1 3 9 1 {} [Sn.ob .signal (boundObj 0 0x40) 0x60]).resolve ((Sn.sy 1 3 9 1 {} [Sn.ob .signal (boundObj 0 0x40) 0x60]).ssrc (x 1)) { size := 16, write := true }).1).release .module).getD {}).mem.word (got ({ pa := 0, kind := .window } : Place) ((Sn.sy 1 3 9 1 {} [Sn.ob .signal (boundObj 0 0x40) 0x60]).resolve ((Sn.sy 1 3 9 1 {} [Sn.ob .signal (boundObj 0 0x40) 0x60]).ssrc (x 1)) { size := 16, write := true }).2).pa)).1), ((slotWord ((((((Sn.sy 1 3 9 1 {} [Sn.ob .signal (boundObj 0 0x40) 0x60]).resolve ((Sn.sy 1 3 9 1 {} [Sn.ob .signal (boundObj 0 0x40) 0x60]).ssrc (x 1)) { size := 16, write := true }).1).release .module).getD {}).mem.word (got ({ pa := 0, kind := .window } : Place) ((Sn.sy 1 3 9 1 {} [Sn.ob .signal (boundObj 0 0x40) 0x60]).resolve ((Sn.sy 1 3 9 1 {} [Sn.ob .signal (boundObj 0 0x40) 0x60]).ssrc (x 1)) { size := 16, write := true }).2).pa)).4), ((slotWord ((((((Sn.sy 1 3 9 1 {} [Sn.ob .signal (boundObj 0 0x40) 0x60]).resolve ((Sn.sy 1 3 9 1 {} [Sn.ob .signal (boundObj 0 0x40) 0x60]).ssrc (x 1)) { size := 16, write := true }).1).release .module).getD {}).mem.word (got ({ pa := 0, kind := .window } : Place) ((Sn.sy 1 3 9 1 {} [Sn.ob .signal (boundObj 0 0x40) 0x60]).resolve ((Sn.sy 1 3 9 1 {} [Sn.ob .signal (boundObj 0 0x40) 0x60]).ssrc (x 1)) { size := 16, write := true }).2).pa)).5), by decide +kernel⟩,
    ⟨(Sn.sy 2 3 9), .always, (x 1), (((Sn.sy 2 3 9).resolve ((Sn.sy 2 3 9).ssrc (x 1)) { size := 16, write := true }).1),
        (((((Sn.sy 2 3 9).resolve ((Sn.sy 2 3 9).ssrc (x 1)) { size := 16, write := true }).1).release .module).getD {}),
        (got ({ pa := 0, kind := .window } : Place) ((Sn.sy 2 3 9).resolve ((Sn.sy 2 3 9).ssrc (x 1)) { size := 16, write := true }).2),
        by decide +kernel⟩,
    ⟨(Sn.sy 2 255 (3 * 2 ^ 24 + 1) 1 {} [Sn.ob .arrive (boundObj 0 0x40) 0x60]), .always, (x 1),
        (((Sn.sy 2 255 (3 * 2 ^ 24 + 1) 1 {} [Sn.ob .arrive (boundObj 0 0x40) 0x60]).resolve ((Sn.sy 2 255 (3 * 2 ^ 24 + 1) 1 {} [Sn.ob .arrive (boundObj 0 0x40) 0x60]).ssrc (x 1)) { size := 16, write := true }).1),
        (((((Sn.sy 2 255 (3 * 2 ^ 24 + 1) 1 {} [Sn.ob .arrive (boundObj 0 0x40) 0x60]).resolve ((Sn.sy 2 255 (3 * 2 ^ 24 + 1) 1 {} [Sn.ob .arrive (boundObj 0 0x40) 0x60]).ssrc (x 1)) { size := 16, write := true }).1).release .module).getD {}),
        (got ({ pa := 0, kind := .window } : Place) ((Sn.sy 2 255 (3 * 2 ^ 24 + 1) 1 {} [Sn.ob .arrive (boundObj 0 0x40) 0x60]).resolve ((Sn.sy 2 255 (3 * 2 ^ 24 + 1) 1 {} [Sn.ob .arrive (boundObj 0 0x40) 0x60]).ssrc (x 1)) { size := 16, write := true }).2),
        ((slotWord ((((((Sn.sy 2 255 (3 * 2 ^ 24 + 1) 1 {} [Sn.ob .arrive (boundObj 0 0x40) 0x60]).resolve ((Sn.sy 2 255 (3 * 2 ^ 24 + 1) 1 {} [Sn.ob .arrive (boundObj 0 0x40) 0x60]).ssrc (x 1)) { size := 16, write := true }).1).release .module).getD {}).mem.word (got ({ pa := 0, kind := .window } : Place) ((Sn.sy 2 255 (3 * 2 ^ 24 + 1) 1 {} [Sn.ob .arrive (boundObj 0 0x40) 0x60]).resolve ((Sn.sy 2 255 (3 * 2 ^ 24 + 1) 1 {} [Sn.ob .arrive (boundObj 0 0x40) 0x60]).ssrc (x 1)) { size := 16, write := true }).2).pa)).1),
        ((slotWord ((((((Sn.sy 2 255 (3 * 2 ^ 24 + 1) 1 {} [Sn.ob .arrive (boundObj 0 0x40) 0x60]).resolve ((Sn.sy 2 255 (3 * 2 ^ 24 + 1) 1 {} [Sn.ob .arrive (boundObj 0 0x40) 0x60]).ssrc (x 1)) { size := 16, write := true }).1).release .module).getD {}).mem.word (got ({ pa := 0, kind := .window } : Place) ((Sn.sy 2 255 (3 * 2 ^ 24 + 1) 1 {} [Sn.ob .arrive (boundObj 0 0x40) 0x60]).resolve ((Sn.sy 2 255 (3 * 2 ^ 24 + 1) 1 {} [Sn.ob .arrive (boundObj 0 0x40) 0x60]).ssrc (x 1)) { size := 16, write := true }).2).pa)).4),
        3, 1, by decide +kernel⟩,
    ⟨(Sn.sy 1 3 9), .always, (x 1), (((Sn.sy 1 3 9).resolve ((Sn.sy 1 3 9).ssrc (x 1)) { size := 16, write := true }).1),
        (((((Sn.sy 1 3 9).resolve ((Sn.sy 1 3 9).ssrc (x 1)) { size := 16, write := true }).1).release .module).getD {}),
        (got ({ pa := 0, kind := .window } : Place) ((Sn.sy 1 3 9).resolve ((Sn.sy 1 3 9).ssrc (x 1)) { size := 16, write := true }).2),
        by decide +kernel⟩,
    ⟨(Sn.sy 0 5 4), .always, (x 1), (((Sn.sy 0 5 4).resolve ((Sn.sy 0 5 4).ssrc (x 1)) { size := 16, write := true }).1),
        (got ({ pa := 0, kind := .window } : Place) ((Sn.sy 0 5 4).resolve ((Sn.sy 0 5 4).ssrc (x 1)) { size := 16, write := true }).2),
        by decide +kernel⟩,
    ⟨(Sn.sy 1 3 9), .always, (x 1), (((Sn.sy 1 3 9).resolve ((Sn.sy 1 3 9).ssrc (x 1)) { size := 16, write := true }).1),
        (got ({ pa := 0, kind := .window } : Place) ((Sn.sy 1 3 9).resolve ((Sn.sy 1 3 9).ssrc (x 1)) { size := 16, write := true }).2),
        by decide +kernel⟩,
    ⟨(on 15 Sn.mv), .always, by decide +kernel⟩,
    ⟨(Sn.wt 10), .always, (x 1), (((Sn.wt 10).resolve ((Sn.wt 10).ssrc (x 1)) { size := 16, write := true }).1),
        (((((Sn.wt 10).resolve ((Sn.wt 10).ssrc (x 1)) { size := 16, write := true }).1).release .module).getD {}),
        (got ({ pa := 0, kind := .window } : Place) ((Sn.wt 10).resolve ((Sn.wt 10).ssrc (x 1)) { size := 16, write := true }).2),
        ((slotWord ((((((Sn.wt 10).resolve ((Sn.wt 10).ssrc (x 1)) { size := 16, write := true }).1).release .module).getD {}).mem.word (got ({ pa := 0, kind := .window } : Place) ((Sn.wt 10).resolve ((Sn.wt 10).ssrc (x 1)) { size := 16, write := true }).2).pa)).1),
        ((slotWord ((((((Sn.wt 10).resolve ((Sn.wt 10).ssrc (x 1)) { size := 16, write := true }).1).release .module).getD {}).mem.word (got ({ pa := 0, kind := .window } : Place) ((Sn.wt 10).resolve ((Sn.wt 10).ssrc (x 1)) { size := 16, write := true }).2).pa)).4),
        ((slotWord ((((((Sn.wt 10).resolve ((Sn.wt 10).ssrc (x 1)) { size := 16, write := true }).1).release .module).getD {}).mem.word (got ({ pa := 0, kind := .window } : Place) ((Sn.wt 10).resolve ((Sn.wt 10).ssrc (x 1)) { size := 16, write := true }).2).pa)).5),
        0, 2, 9, 0x40, 10, 0xFFFFFFFFFFFFFF, 0x2000, by decide +kernel⟩,
    ⟨(Sn.sy 2 4 4), .always, (x 1), (((Sn.sy 2 4 4).resolve ((Sn.sy 2 4 4).ssrc (x 1)) { size := 16, write := false }).1),
        (got ({ pa := 0, kind := .window } : Place) ((Sn.sy 2 4 4).resolve ((Sn.sy 2 4 4).ssrc (x 1)) { size := 16, write := false }).2),
        by decide +kernel⟩,
    ⟨{ Sn.sy 2 4 4 with mem := [] }, .always, (x 1),
        (({ Sn.sy 2 4 4 with mem := [] }.resolve ({ Sn.sy 2 4 4 with mem := [] }.ssrc (x 1)) { size := 16, write := true }).1),
        (got ({ pa := 0, kind := .window } : Place) ({ Sn.sy 2 4 4 with mem := [] }.resolve ({ Sn.sy 2 4 4 with mem := [] }.ssrc (x 1)) { size := 16, write := true }).2),
        by decide +kernel⟩,
    ⟨(Sn.sy 2 4 4), .always, (x 1), (((Sn.sy 2 4 4).resolve ((Sn.sy 2 4 4).ssrc (x 1)) { size := 16, write := true }).1),
        (((((Sn.sy 2 4 4).resolve ((Sn.sy 2 4 4).ssrc (x 1)) { size := 16, write := true }).1).release .module).getD {}),
        (got ({ pa := 0, kind := .window } : Place) ((Sn.sy 2 4 4).resolve ((Sn.sy 2 4 4).ssrc (x 1)) { size := 16, write := true }).2),
        by decide +kernel⟩,
    ⟨(Sn.sy 2 4 4 0 { storeBuf := [{ bytes := bytesAt (P + 0x40) 8 0, vf := 0 }] }), .always, (x 1),
        (((Sn.sy 2 4 4 0 { storeBuf := [{ bytes := bytesAt (P + 0x40) 8 0, vf := 0 }] }).resolve ((Sn.sy 2 4 4 0 {
                  storeBuf := [{ bytes := bytesAt (P + 0x40) 8 0, vf := 0 }] }).ssrc (x 1)) { size := 16, write := true }).1),
        (((((Sn.sy 2 4 4 0 { storeBuf := [{ bytes := bytesAt (P + 0x40) 8 0, vf := 0 }] }).resolve ((Sn.sy 2 4 4 0 {
                      storeBuf := [{ bytes := bytesAt (P + 0x40) 8 0, vf := 0 }] }).ssrc (x 1)) { size := 16, write := true }).1).release .module).getD {}),
        (got ({ pa := 0, kind := .window } : Place) ((Sn.sy 2 4 4 0 { storeBuf := [{ bytes := bytesAt (P + 0x40) 8 0, vf := 0 }] }).resolve ((Sn.sy 2 4 4 0 {
                  storeBuf := [{ bytes := bytesAt (P + 0x40) 8 0, vf := 0 }] }).ssrc (x 1)) { size := 16, write := true }).2),
        by decide +kernel⟩⟩

/-- States and operands that meet the hypotheses of `Obligations.GangBarrier`, clause by clause. -/
theorem witness_GangBarrier :
    (∃ (s : State), s.slot ≠ 0 ∧ s.slot ≠ 15 ∧ (∀ g, s.gangStage s.core s.bankVf = some g → g.bar = false)) ∧
    (
        ∃ (s : State) (g : _) (v : _) (cv : _),
        s.slot ≠ 0 ∧ s.slot ≠ 15 ∧ v = s.bankVf ∧ cv = s.vfOf s.core v ∧
        s.gangStage s.core v = some g ∧ g.bar = true ∧ (s.obmin s.core s.slot).toNat ≤ g.rank.toNat) ∧
    (
        ∃ (s : State) (g : _) (s2 : _) (v : _) (cv : _) (p : _),
        s.slot ≠ 0 ∧ s.slot ≠ 15 ∧ v = s.bankVf ∧ cv = s.vfOf s.core v ∧
        s.gangStage s.core v = some g ∧ g.bar = true ∧ g.rank.toNat < (s.obmin s.core s.slot).toNat ∧ s.release .module = some s2 ∧
        s.cur.barPhase = some p ∧ p = cv.barPhase) ∧
    (
        ∃ (s : State) (g : _) (s2 : _) (v : _) (cv : _) (p : _),
        s.slot ≠ 0 ∧ s.slot ≠ 15 ∧ v = s.bankVf ∧ cv = s.vfOf s.core v ∧
        s.gangStage s.core v = some g ∧ g.bar = true ∧ g.rank.toNat < (s.obmin s.core s.slot).toNat ∧ s.release .module = some s2 ∧
        s.cur.barPhase = some p ∧ p ≠ cv.barPhase) ∧
    (
        ∃ (s : State) (g : _) (s2 : _) (v : _) (cv : _),
        s.slot ≠ 0 ∧ s.slot ≠ 15 ∧ v = s.bankVf ∧ cv = s.vfOf s.core v ∧
        s.gangStage s.core v = some g ∧ g.bar = true ∧ g.rank.toNat < (s.obmin s.core s.slot).toNat ∧ s.release .module = some s2 ∧
        s.cur.barPhase = none ∧ cv.barArrived = true) ∧
    (
        ∃ (s : State) (g : _) (s2 : _) (v : _) (cv : _),
        s.slot ≠ 0 ∧ s.slot ≠ 15 ∧ v = s.bankVf ∧ cv = s.vfOf s.core v ∧
        s.gangStage s.core v = some g ∧ g.bar = true ∧ g.rank.toNat < (s.obmin s.core s.slot).toNat ∧
        s.release .module = some s2 ∧ s.cur.barPhase = none ∧ cv.barArrived = false ∧ (
          ∃ c ∈ s.gangCores s.core v, c ≠ s.core ∧ (s.vfOf c v).barArrived = false)) ∧
    (
        ∃ (s : State) (g : _) (s2 : _) (v : _) (cv : _),
        s.slot ≠ 0 ∧ s.slot ≠ 15 ∧ v = s.bankVf ∧ cv = s.vfOf s.core v ∧
        s.gangStage s.core v = some g ∧ g.bar = true ∧ g.rank.toNat < (s.obmin s.core s.slot).toNat ∧
        s.release .module = some s2 ∧ s.cur.barPhase = none ∧ cv.barArrived = false ∧ (s.gangCores s.core v).Nodup ∧
        s.core ∈ s.gangCores s.core v ∧ (∀ c ∈ s.gangCores s.core v, c ≠ s.core → (s.vfOf c v).barArrived = true)) :=
  ⟨⟨(Sn.gb false), by decide +kernel⟩,
    ⟨(Sn.gb true {} {} [] 1 [Sn.ob .put 0 5]),
        (((Sn.gb true {} {} [] 1 [Sn.ob .put 0 5]).gangStage (Sn.gb true {} {} [] 1 [Sn.ob .put 0 5]).core ((Sn.gb true {} {} [] 1 [Sn.ob .put 0 5]).bankVf)).getD {
            die := 0, x := 0, y := 0, w := 0, h := 0, bar := false, rank := 0, entry := 0 }),
        ((Sn.gb true {} {} [] 1 [Sn.ob .put 0 5]).bankVf),
        ((Sn.gb true {} {} [] 1 [Sn.ob .put 0 5]).vfOf (Sn.gb true {} {} [] 1 [Sn.ob .put 0 5]).core ((Sn.gb true {} {} [] 1 [Sn.ob .put 0 5]).bankVf)),
        by decide +kernel⟩,
    ⟨(Sn.gb true { barPhase := some 0 }),
        (((Sn.gb true { barPhase := some 0 }).gangStage (Sn.gb true { barPhase := some 0 }).core ((Sn.gb true { barPhase := some 0 }).bankVf)).getD {
            die := 0, x := 0, y := 0, w := 0, h := 0, bar := false, rank := 0, entry := 0 }),
        (((Sn.gb true { barPhase := some 0 }).release .module).getD {}), ((Sn.gb true { barPhase := some 0 }).bankVf),
        ((Sn.gb true { barPhase := some 0 }).vfOf (Sn.gb true { barPhase := some 0 }).core ((Sn.gb true { barPhase := some 0 }).bankVf)),
        (((Sn.gb true { barPhase := some 0 }).cur.barPhase).getD 0), by decide +kernel⟩,
    ⟨(Sn.gb true { barPhase := some 4 }),
        (((Sn.gb true { barPhase := some 4 }).gangStage (Sn.gb true { barPhase := some 4 }).core ((Sn.gb true { barPhase := some 4 }).bankVf)).getD {
            die := 0, x := 0, y := 0, w := 0, h := 0, bar := false, rank := 0, entry := 0 }),
        (((Sn.gb true { barPhase := some 4 }).release .module).getD {}), ((Sn.gb true { barPhase := some 4 }).bankVf),
        ((Sn.gb true { barPhase := some 4 }).vfOf (Sn.gb true { barPhase := some 4 }).core ((Sn.gb true { barPhase := some 4 }).bankVf)),
        (((Sn.gb true { barPhase := some 4 }).cur.barPhase).getD 0), by decide +kernel⟩,
    ⟨(Sn.gb true {} { barArrived := true }),
        (((Sn.gb true {} { barArrived := true }).gangStage (Sn.gb true {} { barArrived := true }).core ((Sn.gb true {} { barArrived := true }).bankVf)).getD {
            die := 0, x := 0, y := 0, w := 0, h := 0, bar := false, rank := 0, entry := 0 }),
        (((Sn.gb true {} { barArrived := true }).release .module).getD {}), ((Sn.gb true {} { barArrived := true }).bankVf),
        ((Sn.gb true {} { barArrived := true }).vfOf (Sn.gb true {} { barArrived := true }).core ((Sn.gb true {} { barArrived := true }).bankVf)),
        by decide +kernel⟩,
    ⟨(Sn.gb true {} {} (Sn.c1 false) 2),
        (((Sn.gb true {} {} (Sn.c1 false) 2).gangStage (Sn.gb true {} {} (Sn.c1 false) 2).core ((Sn.gb true {} {} (Sn.c1 false) 2).bankVf)).getD {
            die := 0, x := 0, y := 0, w := 0, h := 0, bar := false, rank := 0, entry := 0 }),
        (((Sn.gb true {} {} (Sn.c1 false) 2).release .module).getD {}), ((Sn.gb true {} {} (Sn.c1 false) 2).bankVf),
        ((Sn.gb true {} {} (Sn.c1 false) 2).vfOf (Sn.gb true {} {} (Sn.c1 false) 2).core ((Sn.gb true {} {} (Sn.c1 false) 2).bankVf)),
        by decide +kernel⟩,
    ⟨(Sn.gb true {} {} (Sn.c1 true) 2 [] [(3, { act Sn.mv { launch := some 1, barPhase := some 0 } with status := .wait (.gbar 0 5) })]),
        (((Sn.gb true {} {} (Sn.c1 true) 2 [] [(3, { act Sn.mv { launch := some 1, barPhase := some 0 } with status := .wait (.gbar 0 5) })]).gangStage (Sn.gb true {} {} (Sn.c1 true) 2 [] [
                (3, { act Sn.mv { launch := some 1, barPhase := some 0 } with status := .wait (.gbar 0 5) })]).core ((Sn.gb true {} {} (Sn.c1 true) 2 [] [
                  (3, { act Sn.mv { launch := some 1, barPhase := some 0 } with status := .wait (.gbar 0 5) })]).bankVf)).getD {
            die := 0, x := 0, y := 0, w := 0, h := 0, bar := false, rank := 0, entry := 0 }),
        (((Sn.gb true {} {} (Sn.c1 true) 2 [] [(3, { act Sn.mv { launch := some 1, barPhase := some 0 } with status := .wait (.gbar 0 5) })]).release .module).getD {}),
        ((Sn.gb true {} {} (Sn.c1 true) 2 [] [(3, { act Sn.mv { launch := some 1, barPhase := some 0 } with status := .wait (.gbar 0 5) })]).bankVf),
        ((Sn.gb true {} {} (Sn.c1 true) 2 [] [(3, { act Sn.mv { launch := some 1, barPhase := some 0 } with status := .wait (.gbar 0 5) })]).vfOf (Sn.gb true {} {} (Sn.c1 true) 2 [] [
              (3, { act Sn.mv { launch := some 1, barPhase := some 0 } with status := .wait (.gbar 0 5) })]).core ((Sn.gb true {} {} (Sn.c1 true) 2 [] [
                (3, { act Sn.mv { launch := some 1, barPhase := some 0 } with status := .wait (.gbar 0 5) })]).bankVf)), by decide +kernel⟩⟩

/-- States and operands that meet the hypotheses of `Obligations.ObligationReads`, clause by clause. -/
theorem witness_ObligationReads :
    (
        ∃ (s : State) (g : Pred) (sa : _) (s1 : _) (s2 : _) (p : _) (w : _) (i : _),
        s.acts g = true ∧ AtSlot s (s.ssrc sa) true s1 p ∧ s.cur.storeBuf = [] ∧
        s1.reserveOb s.core s.slot = .ok s2 i ∧ s2.isUnavail p.pa = false ∧ w = slotWord (s.mem.word p.pa) ∧ w.Live ∧ w.type ≠ 3) ∧
    (
        ∃ (s : State) (g : Pred) (sa : _) (s1 : _) (s2 : _) (p : _) (w : _) (i : _),
        s.acts g = true ∧ AtSlot s (s.ssrc sa) true s1 p ∧ s.cur.storeBuf = [] ∧
        s1.reserveOb s.core s.slot = .ok s2 i ∧ s2.isUnavail p.pa = false ∧ w = slotWord (s.mem.word p.pa) ∧ ¬ (w.Live ∧ w.type ≠ 3)) ∧
    (
        ∃ (s : State) (g : Pred) (sa : _) (s1 : _) (s2 : _) (p : _),
        s.acts g = true ∧ AtSlot s (s.ssrc sa) true s1 p ∧ s.cur.storeBuf = [] ∧ s1.reserveOb s.core s.slot = .full s2) ∧
    (
        ∃ (s : State) (g : Pred) (f : BitVec 2),
        s.acts g = true ∧ s.slot ≠ 0 ∧ (∀ q ∈ s.obsOf s.core s.slot, q.spill = none) ∧ (f = 0 ∨ f = 1)) ∧
    (
        ∃ (s : State) (g : Pred) (so : _) (s1 : _) (p : _),
        s.acts g = true ∧ s.slot ≠ 0 ∧ (s.ssrc so).toNat % 8 = 0 ∧ s.walkHeld (s.ssrc so) = false ∧
        s.locate s.core s.slot s.bankVf (s.pasid s.bankVf s.cur.tenant.toNat) (s.ssrc so) = (s1, .ok p)) ∧
    (
        ∃ (s : State) (g : Pred) (so : _) (s1 : _) (p : _),
        s.acts g = true ∧ AtSlot s (s.ssrc so) false s1 p ∧ s.cur.storeBuf = [] ∧ (slotWord (s.mem.word p.pa)).Live) ∧
    (∃ (s : State) (g : Pred) (x : _), s.acts g = true ∧ s.slot ≠ 0 ∧ s.gangStage s.core s.bankVf = some x) :=
  ⟨⟨(Sn.sy 1 3 9), .always, (x 1), (((Sn.sy 1 3 9).resolve ((Sn.sy 1 3 9).ssrc (x 1)) { size := 16, write := true }).1), (roomOf ((((Sn.sy 1 3 9).resolve ((Sn.sy 1 3 9).ssrc (x 1)) { size := 16, write := true }).1).reserveOb (Sn.sy 1 3 9).core (Sn.sy 1 3 9).slot)), (got ({ pa := 0, kind := .window } : Place) ((Sn.sy 1 3 9).resolve ((Sn.sy 1 3 9).ssrc (x 1)) { size := 16, write := true }).2), (slotWord ((Sn.sy 1 3 9).mem.word (got ({ pa := 0, kind := .window } : Place) ((Sn.sy 1 3 9).resolve ((Sn.sy 1 3 9).ssrc (x 1)) { size := 16, write := true }).2).pa)), (roomAt ((((Sn.sy 1 3 9).resolve ((Sn.sy 1 3 9).ssrc (x 1)) { size := 16, write := true }).1).reserveOb (Sn.sy 1 3 9).core (Sn.sy 1 3 9).slot)), by decide +kernel, by decide +kernel, by decide +kernel, ok_of_hasRoom (by decide +kernel), by and_intros <;> decide +kernel⟩,
    ⟨(Sn.sy 3 3 9), .always, (x 1), (((Sn.sy 3 3 9).resolve ((Sn.sy 3 3 9).ssrc (x 1)) { size := 16, write := true }).1),
        (roomOf ((((Sn.sy 3 3 9).resolve ((Sn.sy 3 3 9).ssrc (x 1)) { size := 16, write := true }).1).reserveOb (Sn.sy 3 3 9).core (Sn.sy 3 3 9).slot)),
        (got ({ pa := 0, kind := .window } : Place) ((Sn.sy 3 3 9).resolve ((Sn.sy 3 3 9).ssrc (x 1)) { size := 16, write := true }).2),
        (slotWord ((Sn.sy 3 3 9).mem.word (got ({ pa := 0, kind := .window } : Place) ((Sn.sy 3 3 9).resolve ((Sn.sy 3 3 9).ssrc (x 1)) { size := 16, write := true }).2).pa)),
        (roomAt ((((Sn.sy 3 3 9).resolve ((Sn.sy 3 3 9).ssrc (x 1)) { size := 16, write := true }).1).reserveOb (Sn.sy 3 3 9).core (Sn.sy 3 3 9).slot)),
        by decide +kernel, by decide +kernel, by decide +kernel, ok_of_hasRoom (by decide +kernel), by and_intros <;> decide +kernel⟩,
    ⟨(Sn.sy 1 3 9 0 {} (List.replicate 128 (Sn.ob .put 0 5))), .always, (x 1),
        (((Sn.sy 1 3 9 0 {} (List.replicate 128 (Sn.ob .put 0 5))).resolve ((Sn.sy 1 3 9 0 {} (List.replicate 128 (Sn.ob .put 0 5))).ssrc (x 1)) { size := 16, write := true }).1),
        (roomOf ((((Sn.sy 1 3 9 0 {} (List.replicate 128 (Sn.ob .put 0 5))).resolve ((Sn.sy 1 3 9 0 {} (List.replicate 128 (Sn.ob .put 0 5))).ssrc (x 1)) { size := 16, write := true }).1).reserveOb (Sn.sy 1 3 9 0 {} (List.replicate 128 (Sn.ob .put 0 5))).core (Sn.sy 1 3 9 0 {} (List.replicate 128 (Sn.ob .put 0 5))).slot)),
        (got ({ pa := 0, kind := .window } : Place) ((Sn.sy 1 3 9 0 {} (List.replicate 128 (Sn.ob .put 0 5))).resolve ((Sn.sy 1 3 9 0 {} (List.replicate 128 (Sn.ob .put 0 5))).ssrc (x 1)) { size := 16, write := true }).2),
        by decide +kernel, by decide +kernel, by decide +kernel, full_of_noRoom (by decide +kernel)⟩,
    ⟨(Sn.sy 1 3 9 0 {} [Sn.ob .put 0x77 9, Sn.ob .put 0x78 5, Sn.ob .put 0x79 9]), .always, 1, by decide +kernel⟩,
    ⟨(Sn.sy 1 3 9), .always, (x 1),
        (((Sn.sy 1 3 9).locate (Sn.sy 1 3 9).core (Sn.sy 1 3 9).slot (Sn.sy 1 3 9).bankVf ((Sn.sy 1 3 9).pasid (Sn.sy 1 3 9).bankVf (Sn.sy 1 3 9).cur.tenant.toNat) ((Sn.sy 1 3 9).ssrc (x 1))).1),
        (got ({ pa := 0, kind := .window } : Place) (((Sn.sy 1 3 9).locate (Sn.sy 1 3 9).core (Sn.sy 1 3 9).slot (Sn.sy 1 3 9).bankVf ((Sn.sy 1 3 9).pasid (Sn.sy 1 3 9).bankVf (Sn.sy 1 3 9).cur.tenant.toNat) ((Sn.sy 1 3 9).ssrc (x 1))).2)),
        by decide +kernel⟩,
    ⟨(Sn.sy 1 3 9), .always, (x 1), (((Sn.sy 1 3 9).resolve ((Sn.sy 1 3 9).ssrc (x 1)) { size := 16, write := false }).1),
        (got ({ pa := 0, kind := .window } : Place) ((Sn.sy 1 3 9).resolve ((Sn.sy 1 3 9).ssrc (x 1)) { size := 16, write := false }).2),
        by decide +kernel⟩,
    ⟨(Sn.gb true), .always,
        (((Sn.gb true).gangStage (Sn.gb true).core (Sn.gb true).bankVf).getD {
            die := 0, x := 0, y := 0, w := 0, h := 0, bar := false, rank := 0, entry := 0 }), by decide +kernel⟩⟩

/-- States and operands that meet the hypotheses of `Obligations.ObligationGiven`, clause by clause. -/
theorem witness_ObligationGiven :
    (
        ∃ (s : State) (g : Pred) (so : _) (kind : _) (obj : _),
        s.acts g = true ∧ s.slot ≠ 0 ∧ (∀ q ∈ s.obsOf s.core s.slot, q.spill = none) ∧
        obj = giveObj s.core kind (s.ssrc so) ∧ pickOb (s.obsOf s.core s.slot) kind obj = none) ∧
    (
        ∃ (s : State) (g : Pred) (so : _) (kind : _) (obj : _) (o : _),
        s.acts g = true ∧ s.slot ≠ 0 ∧ (∀ q ∈ s.obsOf s.core s.slot, q.spill = none) ∧
        obj = giveObj s.core kind (s.ssrc so) ∧ ((s.obsOf s.core s.slot).find? fun o => o.kind == kind && o.obj == obj && !o.marked) = some o) ∧
    (
        ∃ (s : State) (g : Pred) (so : _) (kind : _) (obj : _) (o : _),
        s.acts g = true ∧ s.slot ≠ 0 ∧ (∀ q ∈ s.obsOf s.core s.slot, q.spill = none) ∧
        obj = giveObj s.core kind (s.ssrc so) ∧ pickOb (s.obsOf s.core s.slot) kind obj = some o ∧ o.marked = true) ∧
    (
        ∃ (s : State) (g : Pred) (so : _) (sh : _) (kind : _) (obj : _) (o : _),
        s.acts g = true ∧ s.slot ≠ 0 ∧ (∀ q ∈ s.obsOf s.core s.slot, q.spill = none) ∧
        obj = giveObj s.core kind (s.ssrc so) ∧ pickOb (s.obsOf s.core s.slot) kind obj = some o ∧ s.ssrc sh = s.handleOf s.core s.slot) ∧
    (
        ∃ (s : State) (g : Pred) (so : _) (sh : _) (kind : _) (obj : _) (o : _),
        s.acts g = true ∧ s.slot ≠ 0 ∧ (∀ q ∈ s.obsOf s.core s.slot, q.spill = none) ∧
        obj = giveObj s.core kind (s.ssrc so) ∧ pickOb (s.obsOf s.core s.slot) kind obj = some o ∧
        s.ssrc sh ≠ s.handleOf s.core s.slot ∧ s.byHandle (s.ssrc sh) = none) ∧
    (
        ∃ (s : State) (g : Pred) (so : _) (sh : _) (kind : _) (obj : _) (o : _) (c : _) (k : _),
        s.acts g = true ∧ s.slot ≠ 0 ∧ (∀ q ∈ s.obsOf s.core s.slot, q.spill = none) ∧
        obj = giveObj s.core kind (s.ssrc so) ∧ pickOb (s.obsOf s.core s.slot) kind obj = some o ∧
        s.ssrc sh ≠ s.handleOf s.core s.slot ∧ s.byHandle (s.ssrc sh) = some (c, k) ∧ ((s.slotOf c k).vfid.toNat ≠ s.bankVf ∨ s.waitsAbove c k o.rank = true)) ∧
    (
        ∃ (s : State) (g : Pred) (so : _) (sh : _) (kind : _) (obj : _) (o : _) (c : _) (k : _) (s2 : _) (i : _),
        s.acts g = true ∧ s.slot ≠ 0 ∧ (∀ q ∈ s.obsOf s.core s.slot, q.spill = none) ∧
        obj = giveObj s.core kind (s.ssrc so) ∧ pickOb (s.obsOf s.core s.slot) kind obj = some o ∧
        s.ssrc sh ≠ s.handleOf s.core s.slot ∧ s.byHandle (s.ssrc sh) = some (c, k) ∧ (s.slotOf c k).vfid.toNat = s.bankVf ∧
        s.waitsAbove c k o.rank = false ∧ (c, k) ≠ (s.core, s.slot) ∧ s.findRoom c k = .ok s2 i) ∧
    (
        ∃ (s : State) (g : Pred) (so : _) (sh : _) (kind : _) (obj : _) (o : _) (c : _) (k : _) (s2 : _),
        s.acts g = true ∧ s.slot ≠ 0 ∧ (∀ q ∈ s.obsOf s.core s.slot, q.spill = none) ∧
        obj = giveObj s.core kind (s.ssrc so) ∧ pickOb (s.obsOf s.core s.slot) kind obj = some o ∧
        s.ssrc sh ≠ s.handleOf s.core s.slot ∧ s.byHandle (s.ssrc sh) = some (c, k) ∧ (s.slotOf c k).vfid.toNat = s.bankVf ∧
        s.waitsAbove c k o.rank = false ∧ (c, k) ≠ (s.core, s.slot) ∧ s.findRoom c k = .full s2) ∧
    (
        ∃ (s : State) (g : Pred) (so : _) (kind : _) (obj : _) (o : _) (s2 : _),
        s.acts g = true ∧ s.slot ≠ 0 ∧ (∀ q ∈ s.obsOf s.core s.slot, q.spill = none) ∧
        obj = giveObj s.core kind (s.ssrc so) ∧ pickOb (s.obsOf s.core s.slot) kind obj = some o ∧
        s.release .module = some s2 ∧ (kind = .reply ∨ (kind = .tuple ∧ s2.regionExists (field o.obj 31 0) = false))) ∧
    (
        ∃ (s : State) (g : Pred) (so : _) (kind : _) (obj : _) (o : _) (s2 : _) (q : _),
        s.acts g = true ∧ s.slot ≠ 0 ∧ (∀ q ∈ s.obsOf s.core s.slot, q.spill = none) ∧
        obj = giveObj s.core kind (s.ssrc so) ∧ pickOb (s.obsOf s.core s.slot) kind obj = some o ∧
        s.release .module = some s2 ∧ kind = .release ∧ s2.physBay s.bankVf (unbind s.core o.obj).2.toNat = some q ∧ (s2.bay (unbind s.core o.obj).1 q).queue = []) ∧
    (
        ∃ (s : State) (g : Pred) (so : _) (kind : _) (obj : _) (o : _) (s2 : _) (p : _),
        s.acts g = true ∧ s.slot ≠ 0 ∧ (∀ q ∈ s.obsOf s.core s.slot, q.spill = none) ∧
        obj = giveObj s.core kind (s.ssrc so) ∧ pickOb (s.obsOf s.core s.slot) kind obj = some o ∧
        s.release .module = some s2 ∧ kind = .put ∧
        s2.objPlace s.core s.bankVf s.cur.tenant.toNat o.obj = some p ∧ hasFE p.pa = true ∧
        s.heldHome p.pa = false ∧ (∀ w ∈ s.waiters, w.pa ≠ p.pa)) ∧
    (
        ∃ (s : State) (g : Pred) (so : _) (kind : _) (obj : _) (o : _) (s2 : _) (p : _),
        s.acts g = true ∧ s.slot ≠ 0 ∧ (∀ q ∈ s.obsOf s.core s.slot, q.spill = none) ∧
        obj = giveObj s.core kind (s.ssrc so) ∧ pickOb (s.obsOf s.core s.slot) kind obj = some o ∧
        s.release .module = some s2 ∧ (kind = .signal ∨ kind = .arrive) ∧
        s2.objPlace s.core s.bankVf s.cur.tenant.toNat o.obj = some p ∧ s.heldHome p.pa = false ∧ ¬ (slotWord (s2.mem.word p.pa)).Live) ∧
    (
        ∃ (s : State) (g : Pred) (so : _) (kind : _) (obj : _) (o : _) (s2 : _) (p : _) (b : _) (ph : _) (x : _),
        s.acts g = true ∧ s.slot ≠ 0 ∧ (∀ q ∈ s.obsOf s.core s.slot, q.spill = none) ∧
        obj = giveObj s.core kind (s.ssrc so) ∧ pickOb (s.obsOf s.core s.slot) kind obj = some o ∧
        s.release .module = some s2 ∧ kind = .signal ∧
        s2.objPlace s.core s.bankVf s.cur.tenant.toNat o.obj = some p ∧ s.heldHome p.pa = false ∧
        slotWord (s2.mem.word p.pa) = ⟨b, true, 1, ph, x⟩ ∧ (∀ w ∈ s.waiters, w.pa ≠ p.pa)) :=
  ⟨⟨(Tu.sg []), .always, (x 1), .put, (giveObj (Tu.sg []).core .put ((Tu.sg []).ssrc (x 1))), by decide +kernel⟩,
    ⟨(Tu.sg [{ Tu.ob .put (boundObj 0 0x40) 0x40 with marked := false }]), .always, (x 1), .put,
        (giveObj (Tu.sg [{ Tu.ob .put (boundObj 0 0x40) 0x40 with marked := false }]).core .put ((Tu.sg [
                { Tu.ob .put (boundObj 0 0x40) 0x40 with marked := false }]).ssrc (x 1))), (Tu.ob .put (boundObj 0 0x40) 0x40),
        by decide +kernel⟩,
    ⟨(Tu.sg [{ Tu.ob .put (boundObj 0 0x40) 0x40 with marked := true }]), .always, (x 1), .put,
        (giveObj (Tu.sg [{ Tu.ob .put (boundObj 0 0x40) 0x40 with marked := true }]).core .put ((Tu.sg [
                { Tu.ob .put (boundObj 0 0x40) 0x40 with marked := true }]).ssrc (x 1))),
        ((pickOb ((Tu.sg [{ Tu.ob .put (boundObj 0 0x40) 0x40 with marked := true }]).obsOf (Tu.sg [
                  { Tu.ob .put (boundObj 0 0x40) 0x40 with marked := true }]).core (Tu.sg [
                  { Tu.ob .put (boundObj 0 0x40) 0x40 with marked := true }]).slot) .put (giveObj (Tu.sg [
                  { Tu.ob .put (boundObj 0 0x40) 0x40 with marked := true }]).core .put ((Tu.sg [
                    { Tu.ob .put (boundObj 0 0x40) 0x40 with marked := true }]).ssrc (x 1)))).getD { obj := 0, kind := .put, rank := 0 }),
        by decide +kernel⟩,
    ⟨(Tu.sg [Tu.ob .put (boundObj 0 0x40) 0x40] [(2, act [])]), .always, (x 1), (x 4), .put,
        (giveObj (Tu.sg [Tu.ob .put (boundObj 0 0x40) 0x40] [(2, act [])]).core .put ((Tu.sg [Tu.ob .put (boundObj 0 0x40) 0x40] [(2, act [])]).ssrc (x 1))),
        ((pickOb ((Tu.sg [Tu.ob .put (boundObj 0 0x40) 0x40] [(2, act [])]).obsOf (Tu.sg [Tu.ob .put (boundObj 0 0x40) 0x40] [(2, act [])]).core (Tu.sg [Tu.ob .put (boundObj 0 0x40) 0x40] [(2, act [])]).slot) .put (giveObj (Tu.sg [Tu.ob .put (boundObj 0 0x40) 0x40] [(2, act [])]).core .put ((Tu.sg [Tu.ob .put (boundObj 0 0x40) 0x40] [(2, act [])]).ssrc (x 1)))).getD { obj := 0, kind := .put, rank := 0 }),
        by decide +kernel⟩,
    ⟨(Tu.sg [Tu.ob .reply 0x40 0x40]), .always, (x 1), (x 2), .reply,
        (giveObj (Tu.sg [Tu.ob .reply 0x40 0x40]).core .reply ((Tu.sg [Tu.ob .reply 0x40 0x40]).ssrc (x 1))),
        ((pickOb ((Tu.sg [Tu.ob .reply 0x40 0x40]).obsOf (Tu.sg [Tu.ob .reply 0x40 0x40]).core (Tu.sg [Tu.ob .reply 0x40 0x40]).slot) .reply (giveObj (Tu.sg [Tu.ob .reply 0x40 0x40]).core .reply ((Tu.sg [Tu.ob .reply 0x40 0x40]).ssrc (x 1)))).getD { obj := 0, kind := .put, rank := 0 }),
        by decide +kernel⟩,
    ⟨(Tu.sg [Tu.ob .put (boundObj 0 0x40) 0x40] [(2, { act [] with status := .wait (.deferred 0x50) })]), .always, (x 1), (x 2), .put,
        (giveObj (Tu.sg [Tu.ob .put (boundObj 0 0x40) 0x40] [(2, { act [] with status := .wait (.deferred 0x50) })]).core .put ((Tu.sg [Tu.ob .put (boundObj 0 0x40) 0x40] [
                (2, { act [] with status := .wait (.deferred 0x50) })]).ssrc (x 1))),
        ((pickOb ((Tu.sg [Tu.ob .put (boundObj 0 0x40) 0x40] [(2, { act [] with status := .wait (.deferred 0x50) })]).obsOf (Tu.sg [Tu.ob .put (boundObj 0 0x40) 0x40] [
                  (2, { act [] with status := .wait (.deferred 0x50) })]).core (Tu.sg [Tu.ob .put (boundObj 0 0x40) 0x40] [
                  (2, { act [] with status := .wait (.deferred 0x50) })]).slot) .put (giveObj (Tu.sg [Tu.ob .put (boundObj 0 0x40) 0x40] [
                  (2, { act [] with status := .wait (.deferred 0x50) })]).core .put ((Tu.sg [Tu.ob .put (boundObj 0 0x40) 0x40] [
                    (2, { act [] with status := .wait (.deferred 0x50) })]).ssrc (x 1)))).getD { obj := 0, kind := .put, rank := 0 }),
        ((((Tu.sg [Tu.ob .put (boundObj 0 0x40) 0x40] [(2, { act [] with status := .wait (.deferred 0x50) })]).byHandle ((Tu.sg [Tu.ob .put (boundObj 0 0x40) 0x40] [
                    (2, { act [] with status := .wait (.deferred 0x50) })]).ssrc (x 2))).getD (0, 0)).1),
        ((((Tu.sg [Tu.ob .put (boundObj 0 0x40) 0x40] [(2, { act [] with status := .wait (.deferred 0x50) })]).byHandle ((Tu.sg [Tu.ob .put (boundObj 0 0x40) 0x40] [
                    (2, { act [] with status := .wait (.deferred 0x50) })]).ssrc (x 2))).getD (0, 0)).2), by decide +kernel⟩,
    by
    refine ⟨(Tu.sg [Tu.ob .put (boundObj 0 0x40) 0x40] [(2, act [])]), .always, (x 1), (x 2), .put,
        (giveObj (Tu.sg [Tu.ob .put (boundObj 0 0x40) 0x40] [(2, act [])]).core .put ((Tu.sg [Tu.ob .put (boundObj 0 0x40) 0x40] [(2, act [])]).ssrc (x 1))),
        ((pickOb ((Tu.sg [Tu.ob .put (boundObj 0 0x40) 0x40] [(2, act [])]).obsOf (Tu.sg [Tu.ob .put (boundObj 0 0x40) 0x40] [(2, act [])]).core (Tu.sg [Tu.ob .put (boundObj 0 0x40) 0x40] [(2, act [])]).slot) .put (giveObj (Tu.sg [Tu.ob .put (boundObj 0 0x40) 0x40] [(2, act [])]).core .put ((Tu.sg [Tu.ob .put (boundObj 0 0x40) 0x40] [(2, act [])]).ssrc (x 1)))).getD { obj := 0, kind := .put, rank := 0 }),
        ((((Tu.sg [Tu.ob .put (boundObj 0 0x40) 0x40] [(2, act [])]).byHandle ((Tu.sg [Tu.ob .put (boundObj 0 0x40) 0x40] [(2, act [])]).ssrc (x 2))).getD (0, 0)).1),
        ((((Tu.sg [Tu.ob .put (boundObj 0 0x40) 0x40] [(2, act [])]).byHandle ((Tu.sg [Tu.ob .put (boundObj 0 0x40) 0x40] [(2, act [])]).ssrc (x 2))).getD (0, 0)).2),
        (roomOf ((Tu.sg [Tu.ob .put (boundObj 0 0x40) 0x40] [(2, act [])]).findRoom ((((Tu.sg [Tu.ob .put (boundObj 0 0x40) 0x40] [(2, act [])]).byHandle ((Tu.sg [Tu.ob .put (boundObj 0 0x40) 0x40] [(2, act [])]).ssrc (x 2))).getD (0, 0)).1) ((((Tu.sg [Tu.ob .put (boundObj 0 0x40) 0x40] [(2, act [])]).byHandle ((Tu.sg [Tu.ob .put (boundObj 0 0x40) 0x40] [(2, act [])]).ssrc (x 2))).getD (0, 0)).2))),
        (roomAt ((Tu.sg [Tu.ob .put (boundObj 0 0x40) 0x40] [(2, act [])]).findRoom ((((Tu.sg [Tu.ob .put (boundObj 0 0x40) 0x40] [(2, act [])]).byHandle ((Tu.sg [Tu.ob .put (boundObj 0 0x40) 0x40] [(2, act [])]).ssrc (x 2))).getD (0, 0)).1) ((((Tu.sg [Tu.ob .put (boundObj 0 0x40) 0x40] [(2, act [])]).byHandle ((Tu.sg [Tu.ob .put (boundObj 0 0x40) 0x40] [(2, act [])]).ssrc (x 2))).getD (0, 0)).2))),
        ?_⟩
    and_intros <;> first | exact ok_of_hasRoom (by decide +kernel) | decide +kernel,
    by
    refine ⟨(Tu.sg (Tu.ob .put (boundObj 0 0x40) 0x40 :: List.replicate 128 (Tu.ob .put 5 5 3)) [(2, act [])]), .always, (x 1), (x 2), .put,
        (giveObj (Tu.sg (Tu.ob .put (boundObj 0 0x40) 0x40 :: List.replicate 128 (Tu.ob .put 5 5 3)) [(2, act [])]).core .put ((Tu.sg (Tu.ob .put (boundObj 0 0x40) 0x40 :: List.replicate 128 (Tu.ob .put 5 5 3)) [(2, act [])]).ssrc (x 1))),
        ((pickOb ((Tu.sg (Tu.ob .put (boundObj 0 0x40) 0x40 :: List.replicate 128 (Tu.ob .put 5 5 3)) [(2, act [])]).obsOf (Tu.sg (Tu.ob .put (boundObj 0 0x40) 0x40 :: List.replicate 128 (Tu.ob .put 5 5 3)) [(2, act [])]).core (Tu.sg (Tu.ob .put (boundObj 0 0x40) 0x40 :: List.replicate 128 (Tu.ob .put 5 5 3)) [(2, act [])]).slot) .put (giveObj (Tu.sg (Tu.ob .put (boundObj 0 0x40) 0x40 :: List.replicate 128 (Tu.ob .put 5 5 3)) [(2, act [])]).core .put ((Tu.sg (Tu.ob .put (boundObj 0 0x40) 0x40 :: List.replicate 128 (Tu.ob .put 5 5 3)) [(2, act [])]).ssrc (x 1)))).getD { obj := 0, kind := .put, rank := 0 }),
        ((((Tu.sg (Tu.ob .put (boundObj 0 0x40) 0x40 :: List.replicate 128 (Tu.ob .put 5 5 3)) [(2, act [])]).byHandle ((Tu.sg (Tu.ob .put (boundObj 0 0x40) 0x40 :: List.replicate 128 (Tu.ob .put 5 5 3)) [(2, act [])]).ssrc (x 2))).getD (0, 0)).1),
        ((((Tu.sg (Tu.ob .put (boundObj 0 0x40) 0x40 :: List.replicate 128 (Tu.ob .put 5 5 3)) [(2, act [])]).byHandle ((Tu.sg (Tu.ob .put (boundObj 0 0x40) 0x40 :: List.replicate 128 (Tu.ob .put 5 5 3)) [(2, act [])]).ssrc (x 2))).getD (0, 0)).2),
        (roomOf ((Tu.sg (Tu.ob .put (boundObj 0 0x40) 0x40 :: List.replicate 128 (Tu.ob .put 5 5 3)) [(2, act [])]).findRoom ((((Tu.sg (Tu.ob .put (boundObj 0 0x40) 0x40 :: List.replicate 128 (Tu.ob .put 5 5 3)) [(2, act [])]).byHandle ((Tu.sg (Tu.ob .put (boundObj 0 0x40) 0x40 :: List.replicate 128 (Tu.ob .put 5 5 3)) [(2, act [])]).ssrc (x 2))).getD (0, 0)).1) ((((Tu.sg (Tu.ob .put (boundObj 0 0x40) 0x40 :: List.replicate 128 (Tu.ob .put 5 5 3)) [(2, act [])]).byHandle ((Tu.sg (Tu.ob .put (boundObj 0 0x40) 0x40 :: List.replicate 128 (Tu.ob .put 5 5 3)) [(2, act [])]).ssrc (x 2))).getD (0, 0)).2))),
        ?_⟩
    and_intros <;> first | exact full_of_noRoom (by decide +kernel) | decide +kernel,
    ⟨(Tu.sg [Tu.ob .reply 0x40 0x40]), .always, (x 1), .reply,
        (giveObj (Tu.sg [Tu.ob .reply 0x40 0x40]).core .reply ((Tu.sg [Tu.ob .reply 0x40 0x40]).ssrc (x 1))),
        ((pickOb ((Tu.sg [Tu.ob .reply 0x40 0x40]).obsOf (Tu.sg [Tu.ob .reply 0x40 0x40]).core (Tu.sg [Tu.ob .reply 0x40 0x40]).slot) .reply (giveObj (Tu.sg [Tu.ob .reply 0x40 0x40]).core .reply ((Tu.sg [Tu.ob .reply 0x40 0x40]).ssrc (x 1)))).getD { obj := 0, kind := .put, rank := 0 }),
        (((Tu.sg [Tu.ob .reply 0x40 0x40]).release .module).getD {}), by decide +kernel⟩,
    ⟨(Tu.sg [Tu.ob .release (giveObj 0 .release 0) 5]), .always, (x 9), .release,
        (giveObj (Tu.sg [Tu.ob .release (giveObj 0 .release 0) 5]).core .release ((Tu.sg [Tu.ob .release (giveObj 0 .release 0) 5]).ssrc (x 9))),
        ((pickOb ((Tu.sg [Tu.ob .release (giveObj 0 .release 0) 5]).obsOf (Tu.sg [Tu.ob .release (giveObj 0 .release 0) 5]).core (Tu.sg [Tu.ob .release (giveObj 0 .release 0) 5]).slot) .release (giveObj (Tu.sg [Tu.ob .release (giveObj 0 .release 0) 5]).core .release ((Tu.sg [Tu.ob .release (giveObj 0 .release 0) 5]).ssrc (x 9)))).getD { obj := 0, kind := .put, rank := 0 }),
        (((Tu.sg [Tu.ob .release (giveObj 0 .release 0) 5]).release .module).getD {}),
        (((((Tu.sg [Tu.ob .release (giveObj 0 .release 0) 5]).release .module).getD {}).physBay (Tu.sg [Tu.ob .release (giveObj 0 .release 0) 5]).bankVf (unbind (Tu.sg [Tu.ob .release (giveObj 0 .release 0) 5]).core ((pickOb ((Tu.sg [Tu.ob .release (giveObj 0 .release 0) 5]).obsOf (Tu.sg [Tu.ob .release (giveObj 0 .release 0) 5]).core (Tu.sg [Tu.ob .release (giveObj 0 .release 0) 5]).slot) .release (giveObj (Tu.sg [Tu.ob .release (giveObj 0 .release 0) 5]).core .release ((Tu.sg [Tu.ob .release (giveObj 0 .release 0) 5]).ssrc (x 9)))).getD { obj := 0, kind := .put, rank := 0 }).obj).2.toNat).getD 0),
        by decide +kernel⟩,
    ⟨(Tu.sg [Tu.ob .put (boundObj 0 0x40) 0x40]), .always, (x 1), .put,
        (giveObj (Tu.sg [Tu.ob .put (boundObj 0 0x40) 0x40]).core .put ((Tu.sg [Tu.ob .put (boundObj 0 0x40) 0x40]).ssrc (x 1))),
        ((pickOb ((Tu.sg [Tu.ob .put (boundObj 0 0x40) 0x40]).obsOf (Tu.sg [Tu.ob .put (boundObj 0 0x40) 0x40]).core (Tu.sg [Tu.ob .put (boundObj 0 0x40) 0x40]).slot) .put (giveObj (Tu.sg [Tu.ob .put (boundObj 0 0x40) 0x40]).core .put ((Tu.sg [Tu.ob .put (boundObj 0 0x40) 0x40]).ssrc (x 1)))).getD { obj := 0, kind := .put, rank := 0 }),
        (((Tu.sg [Tu.ob .put (boundObj 0 0x40) 0x40]).release .module).getD {}),
        (((((Tu.sg [Tu.ob .put (boundObj 0 0x40) 0x40]).release .module).getD {}).objPlace (Tu.sg [Tu.ob .put (boundObj 0 0x40) 0x40]).core (Tu.sg [Tu.ob .put (boundObj 0 0x40) 0x40]).bankVf (Tu.sg [Tu.ob .put (boundObj 0 0x40) 0x40]).cur.tenant.toNat ((pickOb ((Tu.sg [Tu.ob .put (boundObj 0 0x40) 0x40]).obsOf (Tu.sg [Tu.ob .put (boundObj 0 0x40) 0x40]).core (Tu.sg [Tu.ob .put (boundObj 0 0x40) 0x40]).slot) .put (giveObj (Tu.sg [Tu.ob .put (boundObj 0 0x40) 0x40]).core .put ((Tu.sg [Tu.ob .put (boundObj 0 0x40) 0x40]).ssrc (x 1)))).getD { obj := 0, kind := .put, rank := 0 }).obj).getD ({ pa := 0, kind := .window } : Place)),
        by decide +kernel⟩,
    ⟨(Tu.sg [Tu.ob .arrive (boundObj 0 0x40) 0x40]), .always, (x 1), .arrive,
        (giveObj (Tu.sg [Tu.ob .arrive (boundObj 0 0x40) 0x40]).core .arrive ((Tu.sg [Tu.ob .arrive (boundObj 0 0x40) 0x40]).ssrc (x 1))),
        ((pickOb ((Tu.sg [Tu.ob .arrive (boundObj 0 0x40) 0x40]).obsOf (Tu.sg [Tu.ob .arrive (boundObj 0 0x40) 0x40]).core (Tu.sg [Tu.ob .arrive (boundObj 0 0x40) 0x40]).slot) .arrive (giveObj (Tu.sg [Tu.ob .arrive (boundObj 0 0x40) 0x40]).core .arrive ((Tu.sg [Tu.ob .arrive (boundObj 0 0x40) 0x40]).ssrc (x 1)))).getD { obj := 0, kind := .put, rank := 0 }),
        (((Tu.sg [Tu.ob .arrive (boundObj 0 0x40) 0x40]).release .module).getD {}),
        (((((Tu.sg [Tu.ob .arrive (boundObj 0 0x40) 0x40]).release .module).getD {}).objPlace (Tu.sg [Tu.ob .arrive (boundObj 0 0x40) 0x40]).core (Tu.sg [Tu.ob .arrive (boundObj 0 0x40) 0x40]).bankVf (Tu.sg [Tu.ob .arrive (boundObj 0 0x40) 0x40]).cur.tenant.toNat ((pickOb ((Tu.sg [Tu.ob .arrive (boundObj 0 0x40) 0x40]).obsOf (Tu.sg [Tu.ob .arrive (boundObj 0 0x40) 0x40]).core (Tu.sg [Tu.ob .arrive (boundObj 0 0x40) 0x40]).slot) .arrive (giveObj (Tu.sg [Tu.ob .arrive (boundObj 0 0x40) 0x40]).core .arrive ((Tu.sg [Tu.ob .arrive (boundObj 0 0x40) 0x40]).ssrc (x 1)))).getD { obj := 0, kind := .put, rank := 0 }).obj).getD ({ pa := 0, kind := .window } : Place)),
        by decide +kernel⟩,
    ⟨(Tu.sg [Tu.ob .signal (boundObj 0 0x40) 0x40] [] (wordAt (P + 0x40) (BitVec.ofNat 64 (2 ^ 60 + 2 ^ 56 + 5)))), .always, (x 1), .signal,
        (giveObj (Tu.sg [Tu.ob .signal (boundObj 0 0x40) 0x40] [] (wordAt (P + 0x40) (BitVec.ofNat 64 (2 ^ 60 + 2 ^ 56 + 5)))).core .signal ((Tu.sg [Tu.ob .signal (boundObj 0 0x40) 0x40] [] (wordAt (P + 0x40) (BitVec.ofNat 64 (2 ^ 60 + 2 ^ 56 + 5)))).ssrc (x 1))),
        ((pickOb ((Tu.sg [Tu.ob .signal (boundObj 0 0x40) 0x40] [] (wordAt (P + 0x40) (BitVec.ofNat 64 (2 ^ 60 + 2 ^ 56 + 5)))).obsOf (Tu.sg [Tu.ob .signal (boundObj 0 0x40) 0x40] [] (wordAt (P + 0x40) (BitVec.ofNat 64 (2 ^ 60 + 2 ^ 56 + 5)))).core (Tu.sg [Tu.ob .signal (boundObj 0 0x40) 0x40] [] (wordAt (P + 0x40) (BitVec.ofNat 64 (2 ^ 60 + 2 ^ 56 + 5)))).slot) .signal (giveObj (Tu.sg [Tu.ob .signal (boundObj 0 0x40) 0x40] [] (wordAt (P + 0x40) (BitVec.ofNat 64 (2 ^ 60 + 2 ^ 56 + 5)))).core .signal ((Tu.sg [Tu.ob .signal (boundObj 0 0x40) 0x40] [] (wordAt (P + 0x40) (BitVec.ofNat 64 (2 ^ 60 + 2 ^ 56 + 5)))).ssrc (x 1)))).getD { obj := 0, kind := .put, rank := 0 }),
        (((Tu.sg [Tu.ob .signal (boundObj 0 0x40) 0x40] [] (wordAt (P + 0x40) (BitVec.ofNat 64 (2 ^ 60 + 2 ^ 56 + 5)))).release .module).getD {}),
        (((((Tu.sg [Tu.ob .signal (boundObj 0 0x40) 0x40] [] (wordAt (P + 0x40) (BitVec.ofNat 64 (2 ^ 60 + 2 ^ 56 + 5)))).release .module).getD {}).objPlace (Tu.sg [Tu.ob .signal (boundObj 0 0x40) 0x40] [] (wordAt (P + 0x40) (BitVec.ofNat 64 (2 ^ 60 + 2 ^ 56 + 5)))).core (Tu.sg [Tu.ob .signal (boundObj 0 0x40) 0x40] [] (wordAt (P + 0x40) (BitVec.ofNat 64 (2 ^ 60 + 2 ^ 56 + 5)))).bankVf (Tu.sg [Tu.ob .signal (boundObj 0 0x40) 0x40] [] (wordAt (P + 0x40) (BitVec.ofNat 64 (2 ^ 60 + 2 ^ 56 + 5)))).cur.tenant.toNat ((pickOb ((Tu.sg [Tu.ob .signal (boundObj 0 0x40) 0x40] [] (wordAt (P + 0x40) (BitVec.ofNat 64 (2 ^ 60 + 2 ^ 56 + 5)))).obsOf (Tu.sg [Tu.ob .signal (boundObj 0 0x40) 0x40] [] (wordAt (P + 0x40) (BitVec.ofNat 64 (2 ^ 60 + 2 ^ 56 + 5)))).core (Tu.sg [Tu.ob .signal (boundObj 0 0x40) 0x40] [] (wordAt (P + 0x40) (BitVec.ofNat 64 (2 ^ 60 + 2 ^ 56 + 5)))).slot) .signal (giveObj (Tu.sg [Tu.ob .signal (boundObj 0 0x40) 0x40] [] (wordAt (P + 0x40) (BitVec.ofNat 64 (2 ^ 60 + 2 ^ 56 + 5)))).core .signal ((Tu.sg [Tu.ob .signal (boundObj 0 0x40) 0x40] [] (wordAt (P + 0x40) (BitVec.ofNat 64 (2 ^ 60 + 2 ^ 56 + 5)))).ssrc (x 1)))).getD { obj := 0, kind := .put, rank := 0 }).obj).getD ({ pa := 0, kind := .window } : Place)),
        ((slotWord ((((Tu.sg [Tu.ob .signal (boundObj 0 0x40) 0x40] [] (wordAt (P + 0x40) (BitVec.ofNat 64 (2 ^ 60 + 2 ^ 56 + 5)))).release .module).getD {}).mem.word (((((Tu.sg [Tu.ob .signal (boundObj 0 0x40) 0x40] [] (wordAt (P + 0x40) (BitVec.ofNat 64 (2 ^ 60 + 2 ^ 56 + 5)))).release .module).getD {}).objPlace (Tu.sg [Tu.ob .signal (boundObj 0 0x40) 0x40] [] (wordAt (P + 0x40) (BitVec.ofNat 64 (2 ^ 60 + 2 ^ 56 + 5)))).core (Tu.sg [Tu.ob .signal (boundObj 0 0x40) 0x40] [] (wordAt (P + 0x40) (BitVec.ofNat 64 (2 ^ 60 + 2 ^ 56 + 5)))).bankVf (Tu.sg [Tu.ob .signal (boundObj 0 0x40) 0x40] [] (wordAt (P + 0x40) (BitVec.ofNat 64 (2 ^ 60 + 2 ^ 56 + 5)))).cur.tenant.toNat ((pickOb ((Tu.sg [Tu.ob .signal (boundObj 0 0x40) 0x40] [] (wordAt (P + 0x40) (BitVec.ofNat 64 (2 ^ 60 + 2 ^ 56 + 5)))).obsOf (Tu.sg [Tu.ob .signal (boundObj 0 0x40) 0x40] [] (wordAt (P + 0x40) (BitVec.ofNat 64 (2 ^ 60 + 2 ^ 56 + 5)))).core (Tu.sg [Tu.ob .signal (boundObj 0 0x40) 0x40] [] (wordAt (P + 0x40) (BitVec.ofNat 64 (2 ^ 60 + 2 ^ 56 + 5)))).slot) .signal (giveObj (Tu.sg [Tu.ob .signal (boundObj 0 0x40) 0x40] [] (wordAt (P + 0x40) (BitVec.ofNat 64 (2 ^ 60 + 2 ^ 56 + 5)))).core .signal ((Tu.sg [Tu.ob .signal (boundObj 0 0x40) 0x40] [] (wordAt (P + 0x40) (BitVec.ofNat 64 (2 ^ 60 + 2 ^ 56 + 5)))).ssrc (x 1)))).getD { obj := 0, kind := .put, rank := 0 }).obj).getD ({ pa := 0, kind := .window } : Place)).pa)).1),
        ((slotWord ((((Tu.sg [Tu.ob .signal (boundObj 0 0x40) 0x40] [] (wordAt (P + 0x40) (BitVec.ofNat 64 (2 ^ 60 + 2 ^ 56 + 5)))).release .module).getD {}).mem.word (((((Tu.sg [Tu.ob .signal (boundObj 0 0x40) 0x40] [] (wordAt (P + 0x40) (BitVec.ofNat 64 (2 ^ 60 + 2 ^ 56 + 5)))).release .module).getD {}).objPlace (Tu.sg [Tu.ob .signal (boundObj 0 0x40) 0x40] [] (wordAt (P + 0x40) (BitVec.ofNat 64 (2 ^ 60 + 2 ^ 56 + 5)))).core (Tu.sg [Tu.ob .signal (boundObj 0 0x40) 0x40] [] (wordAt (P + 0x40) (BitVec.ofNat 64 (2 ^ 60 + 2 ^ 56 + 5)))).bankVf (Tu.sg [Tu.ob .signal (boundObj 0 0x40) 0x40] [] (wordAt (P + 0x40) (BitVec.ofNat 64 (2 ^ 60 + 2 ^ 56 + 5)))).cur.tenant.toNat ((pickOb ((Tu.sg [Tu.ob .signal (boundObj 0 0x40) 0x40] [] (wordAt (P + 0x40) (BitVec.ofNat 64 (2 ^ 60 + 2 ^ 56 + 5)))).obsOf (Tu.sg [Tu.ob .signal (boundObj 0 0x40) 0x40] [] (wordAt (P + 0x40) (BitVec.ofNat 64 (2 ^ 60 + 2 ^ 56 + 5)))).core (Tu.sg [Tu.ob .signal (boundObj 0 0x40) 0x40] [] (wordAt (P + 0x40) (BitVec.ofNat 64 (2 ^ 60 + 2 ^ 56 + 5)))).slot) .signal (giveObj (Tu.sg [Tu.ob .signal (boundObj 0 0x40) 0x40] [] (wordAt (P + 0x40) (BitVec.ofNat 64 (2 ^ 60 + 2 ^ 56 + 5)))).core .signal ((Tu.sg [Tu.ob .signal (boundObj 0 0x40) 0x40] [] (wordAt (P + 0x40) (BitVec.ofNat 64 (2 ^ 60 + 2 ^ 56 + 5)))).ssrc (x 1)))).getD { obj := 0, kind := .put, rank := 0 }).obj).getD ({ pa := 0, kind := .window } : Place)).pa)).4),
        ((slotWord ((((Tu.sg [Tu.ob .signal (boundObj 0 0x40) 0x40] [] (wordAt (P + 0x40) (BitVec.ofNat 64 (2 ^ 60 + 2 ^ 56 + 5)))).release .module).getD {}).mem.word (((((Tu.sg [Tu.ob .signal (boundObj 0 0x40) 0x40] [] (wordAt (P + 0x40) (BitVec.ofNat 64 (2 ^ 60 + 2 ^ 56 + 5)))).release .module).getD {}).objPlace (Tu.sg [Tu.ob .signal (boundObj 0 0x40) 0x40] [] (wordAt (P + 0x40) (BitVec.ofNat 64 (2 ^ 60 + 2 ^ 56 + 5)))).core (Tu.sg [Tu.ob .signal (boundObj 0 0x40) 0x40] [] (wordAt (P + 0x40) (BitVec.ofNat 64 (2 ^ 60 + 2 ^ 56 + 5)))).bankVf (Tu.sg [Tu.ob .signal (boundObj 0 0x40) 0x40] [] (wordAt (P + 0x40) (BitVec.ofNat 64 (2 ^ 60 + 2 ^ 56 + 5)))).cur.tenant.toNat ((pickOb ((Tu.sg [Tu.ob .signal (boundObj 0 0x40) 0x40] [] (wordAt (P + 0x40) (BitVec.ofNat 64 (2 ^ 60 + 2 ^ 56 + 5)))).obsOf (Tu.sg [Tu.ob .signal (boundObj 0 0x40) 0x40] [] (wordAt (P + 0x40) (BitVec.ofNat 64 (2 ^ 60 + 2 ^ 56 + 5)))).core (Tu.sg [Tu.ob .signal (boundObj 0 0x40) 0x40] [] (wordAt (P + 0x40) (BitVec.ofNat 64 (2 ^ 60 + 2 ^ 56 + 5)))).slot) .signal (giveObj (Tu.sg [Tu.ob .signal (boundObj 0 0x40) 0x40] [] (wordAt (P + 0x40) (BitVec.ofNat 64 (2 ^ 60 + 2 ^ 56 + 5)))).core .signal ((Tu.sg [Tu.ob .signal (boundObj 0 0x40) 0x40] [] (wordAt (P + 0x40) (BitVec.ofNat 64 (2 ^ 60 + 2 ^ 56 + 5)))).ssrc (x 1)))).getD { obj := 0, kind := .put, rank := 0 }).obj).getD ({ pa := 0, kind := .window } : Place)).pa)).5),
        by decide +kernel⟩⟩

/-- States and operands that meet the hypotheses of `Obligations.TupleRequests`, clause by clause. -/
theorem witness_TupleRequests :
    (
        ∃ (s : State) (a : _) (sr : _) (s1 : _) (p : _) (s2 : _),
        AtRegion s (s.ssrc sr) true s1 p ∧ s.slot ≠ 15 ∧ TupleOk (s.vsrc a) ∧
        p.rankClass.toNat * 2 ^ 40 < (s.obmin s.core s.slot).toNat ∧ s1.release .module = some s2) ∧
    (∃ (s : State) (a : _) (sr : _) (s1 : _) (p : _), AtRegion s (s.ssrc sr) true s1 p ∧ s.slot ≠ 15 ∧ ¬ TupleOk (s.vsrc a)) ∧
    (
        ∃ (s : State) (a : _) (sr : _) (s1 : _) (p : _),
        AtRegion s (s.ssrc sr) true s1 p ∧ s.slot ≠ 15 ∧ TupleOk (s.vsrc a) ∧ (s.obmin s.core s.slot).toNat ≤ p.rankClass.toNat * 2 ^ 40) ∧
    (
        ∃ (s : State) (vp : _) (sr : _) (s1 : _) (p : _),
        AtRegion s (s.ssrc sr) true s1 p ∧ s.slot ≠ 15 ∧ PatternOk (s.vreg vp) (s.vreg (regAfter vp)) ∧
        p.rankClass.toNat * 2 ^ 40 + (lane (s.vreg vp) 0).toNat * 2 ^ 8 < (s.obmin s.core s.slot).toNat) ∧
    (
        ∃ (s : State) (vp : _) (sr : _) (s1 : _) (p : _),
        AtRegion s (s.ssrc sr) true s1 p ∧ s.slot ≠ 15 ∧ PatternOk (s.vreg vp) (s.vreg (regAfter vp)) ∧ (s.obmin s.core s.slot).toNat ≤ p.rankClass.toNat * 2 ^ 40 + (lane (s.vreg vp) 0).toNat * 2 ^ 8) ∧
    (
        ∃ (s : State) (vp : _) (sr : _) (s1 : _) (p : _),
        AtRegion s (s.ssrc sr) false s1 p ∧ PatternOk (s.vreg vp) (s.vreg (regAfter vp)) ∧
        s.slot ≠ 15 ∧ p.rankClass.toNat * 2 ^ 40 + (lane (s.vreg vp) 0).toNat * 2 ^ 8 < (s.obmin s.core s.slot).toNat) ∧
    (
        ∃ (s : State) (vp : _) (sr : _) (s1 : _) (p : _) (g : Pred),
        AtRegion s (s.ssrc sr) false s1 p ∧ PatternOk (s.vreg vp) (s.vreg (regAfter vp)) ∧ s.acts g = true) ∧
    (
        ∃ (s : State) (vp : _) (sr : _) (s1 : _) (p : _) (g : Pred),
        AtRegion s (s.ssrc sr) false s1 p ∧ ¬ PatternOk (s.vreg vp) (s.vreg (regAfter vp)) ∧ s.acts g = true) ∧
    (
        ∃ (s : State) (sr : _) (s1 : _) (p : _) (g : Pred) (st : _),
        AtRegion s (s.ssrc sr) false s1 p ∧ s.acts g = true ∧ ((s.ssrc st).toNat = 0 ∨ 2 ^ 32 ≤ (s.ssrc st).toNat ∨ (s.ssrc st).toNat % 2 ^ 32 = 0)) ∧
    (
        ∃ (s : State) (sr : _) (s1 : _) (p : _) (g : Pred) (st : _) (s2 : _) (i : _),
        AtRegion s (s.ssrc sr) false s1 p ∧ s.acts g = true ∧ 1 ≤ (s.ssrc st).toNat ∧ (s.ssrc st).toNat < 2 ^ 32 ∧
        s1.reserveOb s.core s.slot = .ok s2 i) ∧
    (∃ (s : State) (sr : _), s.slot ≠ 0 ∧ s.slot ≠ 15 ∧ (s.ssrc sr).toNat % 4096 ≠ 0) :=
  ⟨⟨Tu.s0, (v 1), (x 1), ((Tu.s0.locate Tu.s0.core Tu.s0.slot Tu.s0.bankVf (Tu.s0.pasid Tu.s0.bankVf Tu.s0.cur.tenant.toNat) (Tu.s0.ssrc (x 1))).1), (got ({ pa := 0, kind := .window } : Place) (Tu.s0.locate Tu.s0.core Tu.s0.slot Tu.s0.bankVf (Tu.s0.pasid Tu.s0.bankVf Tu.s0.cur.tenant.toNat) (Tu.s0.ssrc (x 1))).2), ((((Tu.s0.locate Tu.s0.core Tu.s0.slot Tu.s0.bankVf (Tu.s0.pasid Tu.s0.bankVf Tu.s0.cur.tenant.toNat) (Tu.s0.ssrc (x 1))).1).release .module).getD {}), by decide +kernel⟩,
    ⟨Tu.s0, (v 7), (x 1),
        ((Tu.s0.locate Tu.s0.core Tu.s0.slot Tu.s0.bankVf (Tu.s0.pasid Tu.s0.bankVf Tu.s0.cur.tenant.toNat) (Tu.s0.ssrc (x 1))).1),
        (got ({ pa := 0, kind := .window } : Place) (Tu.s0.locate Tu.s0.core Tu.s0.slot Tu.s0.bankVf (Tu.s0.pasid Tu.s0.bankVf Tu.s0.cur.tenant.toNat) (Tu.s0.ssrc (x 1))).2),
        by decide +kernel⟩,
    ⟨(Tu.s0 [Tu.ob .put 0 5]), (v 1), (x 1),
        (((Tu.s0 [Tu.ob .put 0 5]).locate (Tu.s0 [Tu.ob .put 0 5]).core (Tu.s0 [Tu.ob .put 0 5]).slot (Tu.s0 [Tu.ob .put 0 5]).bankVf ((Tu.s0 [Tu.ob .put 0 5]).pasid (Tu.s0 [Tu.ob .put 0 5]).bankVf (Tu.s0 [Tu.ob .put 0 5]).cur.tenant.toNat) ((Tu.s0 [Tu.ob .put 0 5]).ssrc (x 1))).1),
        (got ({ pa := 0, kind := .window } : Place) ((Tu.s0 [Tu.ob .put 0 5]).locate (Tu.s0 [Tu.ob .put 0 5]).core (Tu.s0 [Tu.ob .put 0 5]).slot (Tu.s0 [Tu.ob .put 0 5]).bankVf ((Tu.s0 [Tu.ob .put 0 5]).pasid (Tu.s0 [Tu.ob .put 0 5]).bankVf (Tu.s0 [Tu.ob .put 0 5]).cur.tenant.toNat) ((Tu.s0 [Tu.ob .put 0 5]).ssrc (x 1))).2),
        by decide +kernel⟩,
    ⟨Tu.s0, (r 2), (x 1),
        ((Tu.s0.locate Tu.s0.core Tu.s0.slot Tu.s0.bankVf (Tu.s0.pasid Tu.s0.bankVf Tu.s0.cur.tenant.toNat) (Tu.s0.ssrc (x 1))).1),
        (got ({ pa := 0, kind := .window } : Place) (Tu.s0.locate Tu.s0.core Tu.s0.slot Tu.s0.bankVf (Tu.s0.pasid Tu.s0.bankVf Tu.s0.cur.tenant.toNat) (Tu.s0.ssrc (x 1))).2),
        by decide +kernel⟩,
    ⟨(Tu.s0 [Tu.ob .put 0 5]), (r 2), (x 1),
        (((Tu.s0 [Tu.ob .put 0 5]).locate (Tu.s0 [Tu.ob .put 0 5]).core (Tu.s0 [Tu.ob .put 0 5]).slot (Tu.s0 [Tu.ob .put 0 5]).bankVf ((Tu.s0 [Tu.ob .put 0 5]).pasid (Tu.s0 [Tu.ob .put 0 5]).bankVf (Tu.s0 [Tu.ob .put 0 5]).cur.tenant.toNat) ((Tu.s0 [Tu.ob .put 0 5]).ssrc (x 1))).1),
        (got ({ pa := 0, kind := .window } : Place) ((Tu.s0 [Tu.ob .put 0 5]).locate (Tu.s0 [Tu.ob .put 0 5]).core (Tu.s0 [Tu.ob .put 0 5]).slot (Tu.s0 [Tu.ob .put 0 5]).bankVf ((Tu.s0 [Tu.ob .put 0 5]).pasid (Tu.s0 [Tu.ob .put 0 5]).bankVf (Tu.s0 [Tu.ob .put 0 5]).cur.tenant.toNat) ((Tu.s0 [Tu.ob .put 0 5]).ssrc (x 1))).2),
        by decide +kernel⟩,
    ⟨Tu.s0, (r 2), (x 1),
        ((Tu.s0.locate Tu.s0.core Tu.s0.slot Tu.s0.bankVf (Tu.s0.pasid Tu.s0.bankVf Tu.s0.cur.tenant.toNat) (Tu.s0.ssrc (x 1))).1),
        (got ({ pa := 0, kind := .window } : Place) (Tu.s0.locate Tu.s0.core Tu.s0.slot Tu.s0.bankVf (Tu.s0.pasid Tu.s0.bankVf Tu.s0.cur.tenant.toNat) (Tu.s0.ssrc (x 1))).2),
        by decide +kernel⟩,
    ⟨Tu.s0, (r 2), (x 1),
        ((Tu.s0.locate Tu.s0.core Tu.s0.slot Tu.s0.bankVf (Tu.s0.pasid Tu.s0.bankVf Tu.s0.cur.tenant.toNat) (Tu.s0.ssrc (x 1))).1),
        (got ({ pa := 0, kind := .window } : Place) (Tu.s0.locate Tu.s0.core Tu.s0.slot Tu.s0.bankVf (Tu.s0.pasid Tu.s0.bankVf Tu.s0.cur.tenant.toNat) (Tu.s0.ssrc (x 1))).2),
        .always, by decide +kernel⟩,
    ⟨Tu.s0, (r 1), (x 1),
        ((Tu.s0.locate Tu.s0.core Tu.s0.slot Tu.s0.bankVf (Tu.s0.pasid Tu.s0.bankVf Tu.s0.cur.tenant.toNat) (Tu.s0.ssrc (x 1))).1),
        (got ({ pa := 0, kind := .window } : Place) (Tu.s0.locate Tu.s0.core Tu.s0.slot Tu.s0.bankVf (Tu.s0.pasid Tu.s0.bankVf Tu.s0.cur.tenant.toNat) (Tu.s0.ssrc (x 1))).2),
        .always, by decide +kernel⟩,
    ⟨Tu.s0, (x 1),
        ((Tu.s0.locate Tu.s0.core Tu.s0.slot Tu.s0.bankVf (Tu.s0.pasid Tu.s0.bankVf Tu.s0.cur.tenant.toNat) (Tu.s0.ssrc (x 1))).1),
        (got ({ pa := 0, kind := .window } : Place) (Tu.s0.locate Tu.s0.core Tu.s0.slot Tu.s0.bankVf (Tu.s0.pasid Tu.s0.bankVf Tu.s0.cur.tenant.toNat) (Tu.s0.ssrc (x 1))).2),
        .always, (x 7), by decide +kernel⟩,
    ⟨Tu.s0, (x 1),
        ((Tu.s0.locate Tu.s0.core Tu.s0.slot Tu.s0.bankVf (Tu.s0.pasid Tu.s0.bankVf Tu.s0.cur.tenant.toNat) (Tu.s0.ssrc (x 1))).1),
        (got ({ pa := 0, kind := .window } : Place) (Tu.s0.locate Tu.s0.core Tu.s0.slot Tu.s0.bankVf (Tu.s0.pasid Tu.s0.bankVf Tu.s0.cur.tenant.toNat) (Tu.s0.ssrc (x 1))).2),
        .always, (x 2),
        (roomOf (((Tu.s0.locate Tu.s0.core Tu.s0.slot Tu.s0.bankVf (Tu.s0.pasid Tu.s0.bankVf Tu.s0.cur.tenant.toNat) (Tu.s0.ssrc (x 1))).1).reserveOb Tu.s0.core Tu.s0.slot)),
        (roomAt (((Tu.s0.locate Tu.s0.core Tu.s0.slot Tu.s0.bankVf (Tu.s0.pasid Tu.s0.bankVf Tu.s0.cur.tenant.toNat) (Tu.s0.ssrc (x 1))).1).reserveOb Tu.s0.core Tu.s0.slot)),
        by decide +kernel, by decide +kernel, by decide +kernel, by decide +kernel, ok_of_hasRoom (by decide +kernel)⟩,
    ⟨Tu.s0, (x 2), by decide +kernel⟩⟩

/-- States and operands that meet the hypotheses of `Obligations.TupleService`, clause by clause. -/
theorem witness_TupleService :
    (
        ∃ (s : State) (c : _) (k : _) (e : _) (tup : _) (pb : _) (ob : _) (i : _),
        (∃ r, (s.slotOf c k).status = .wait (.tupleSent r)) ∧ s.tsFlight c k = some e ∧
        s.donated e.vf = false ∧ s.relocks c = false ∧ s.isUnavail (regionPa e.region) = false ∧
        s.regionLive e.region e.vf = true ∧ e.slice < 64 ∧ Settled s c k ∧ (∀ a ∈ s.poison, a % 8 = 0) ∧
        e.req = .put tup pb ob ∧ s.ts = [e] ∧ s.freeEntry e.region e.slice = some i ∧ (∀ q ∈ s.obsOf c k, q.spill = none)) ∧
    (
        ∃ (s : State) (c : _) (k : _) (e : _) (q : _) (tup : _) (ob : _) (d : _) (v : _) (m : _) (nb : _),
        (∃ r, (s.slotOf c k).status = .wait (.tupleSent r)) ∧ s.tsFlight c k = some e ∧
        s.donated e.vf = false ∧ s.relocks c = false ∧ s.isUnavail (regionPa e.region) = false ∧
        s.regionLive e.region e.vf = true ∧ e.slice < 64 ∧ Settled s c k ∧
        e.req = .put tup false ob ∧ s.ts = [e, q] ∧ q.req = .take (.priv d) v m nb ∧
        q.parked = true ∧ q.region = e.region ∧ q.slice = e.slice ∧ Matches v m tup false ∧ (q.core, q.slot) ≠ (c, k) ∧ (s.slotOf q.core q.slot).holds = true ∧ (s.slotOf q.core q.slot).gen = q.gen ∧
        Settled s q.core q.slot ∧ (∀ x ∈ s.obsOf c k, x.spill = none)) ∧
    (
        ∃ (s : State) (c : _) (k : _) (e : _) (x : _) (d : _) (v : _) (m : _) (nb : _),
        (∃ r, (s.slotOf c k).status = .wait (.tupleSent r)) ∧ s.tsFlight c k = some e ∧
        s.donated e.vf = false ∧ s.relocks c = false ∧ s.isUnavail (regionPa e.region) = false ∧
        s.regionLive e.region e.vf = true ∧ e.slice < 64 ∧ Settled s c k ∧ s.ts = [e] ∧
        x ∈ s.storedAll e.region e.slice ∧ Matches v m x.tuple x.poisoned ∧ x.poisoned = false ∧ (
          ∀ y ∈ s.storedAll e.region e.slice, Matches v m y.tuple y.poisoned → y = x ∨ x.seq < y.seq) ∧ e.req = .copy (.priv d) v m nb) ∧
    (
        ∃ (s : State) (c : _) (k : _) (e : _) (x : _) (d : _) (v : _) (m : _) (nb : _),
        (∃ r, (s.slotOf c k).status = .wait (.tupleSent r)) ∧ s.tsFlight c k = some e ∧
        s.donated e.vf = false ∧ s.relocks c = false ∧ s.isUnavail (regionPa e.region) = false ∧
        s.regionLive e.region e.vf = true ∧ e.slice < 64 ∧ Settled s c k ∧ s.ts = [e] ∧
        x ∈ s.storedAll e.region e.slice ∧ Matches v m x.tuple x.poisoned ∧ x.poisoned = false ∧ (
          ∀ y ∈ s.storedAll e.region e.slice, Matches v m y.tuple y.poisoned → y = x ∨ x.seq < y.seq) ∧ e.req = .take (.priv d) v m nb) ∧
    (
        ∃ (s : State) (c : _) (k : _) (e : _) (d : _) (v : _) (m : _) (nb : _),
        (∃ r, (s.slotOf c k).status = .wait (.tupleSent r)) ∧ s.tsFlight c k = some e ∧
        s.donated e.vf = false ∧ s.relocks c = false ∧ s.isUnavail (regionPa e.region) = false ∧
        s.regionLive e.region e.vf = true ∧ e.slice < 64 ∧ Settled s c k ∧ s.ts = [e] ∧ (e.req = .copy d v m nb ∨ e.req = .take d v m nb) ∧ (
          ∀ y ∈ s.storedAll e.region e.slice, ¬ Matches v m y.tuple y.poisoned) ∧ nb = true) ∧
    (
        ∃ (s : State) (c : _) (k : _) (e : _) (d : _) (v : _) (m : _) (nb : _),
        (∃ r, (s.slotOf c k).status = .wait (.tupleSent r)) ∧ s.tsFlight c k = some e ∧
        s.donated e.vf = false ∧ s.relocks c = false ∧ s.isUnavail (regionPa e.region) = false ∧
        s.regionLive e.region e.vf = true ∧ e.slice < 64 ∧ Settled s c k ∧ s.ts = [e] ∧ (e.req = .copy d v m nb ∨ e.req = .take d v m nb) ∧ (
          ∀ y ∈ s.storedAll e.region e.slice, ¬ Matches v m y.tuple y.poisoned) ∧ nb = false) ∧
    (
        ∃ (s : State) (c : _) (k : _) (e : _) (d : _) (v : _) (m : _) (f : Stored → Bool),
        (∃ r, (s.slotOf c k).status = .wait (.tupleSent r)) ∧ s.tsFlight c k = some e ∧
        s.donated e.vf = false ∧ s.relocks c = false ∧ s.isUnavail (regionPa e.region) = false ∧
        s.regionLive e.region e.vf = true ∧ e.slice < 64 ∧ Settled s c k ∧ e.req = .count (.priv d) v m ∧ (
          ∀ x, f x = true ↔ Matches v m x.tuple x.poisoned)) ∧
    (
        ∃ (s : State) (c : _) (k : _) (e : _) (d : _) (tag : _),
        (∃ r, (s.slotOf c k).status = .wait (.tupleSent r)) ∧ s.tsFlight c k = some e ∧
        s.donated e.vf = false ∧ s.relocks c = false ∧ s.isUnavail (regionPa e.region) = false ∧
        s.regionLive e.region e.vf = true ∧ e.slice < 64 ∧ Settled s c k ∧ e.req = .owe (.priv d) tag) ∧
    (
        ∃ (s : State) (c : _) (k : _) (e : _),
        (∃ r, (s.slotOf c k).status = .wait (.tupleSent r)) ∧ s.tsFlight c k = some e ∧
        s.donated e.vf = false ∧ s.relocks c = false ∧ s.isUnavail (regionPa e.region) = false ∧
        s.regionLive e.region e.vf = false ∧ k ≠ 15 ∧ (s.slotOf c k).ih = false) :=
  ⟨by
    refine ⟨(Tu.fs (.put Tu.tup false true)), 0, 1, (Tu.fl (.put Tu.tup false true)), Tu.tup, false, true,
        (((Tu.fs (.put Tu.tup false true)).freeEntry (Tu.fl (.put Tu.tup false true)).region (Tu.fl (.put Tu.tup false true)).slice).getD 0),
        ⟨_, rfl⟩, ?_⟩
    and_intros <;> first | exact settled_of_idle rfl | decide +kernel,
    by
    refine ⟨(Tu.fs (.put Tu.tup false true) [Tu.fl (.take (r 6) Tu.pv Tu.pm false) 2 true]), 0, 1, (Tu.fl (.put Tu.tup false true)),
        (Tu.fl (.take (r 6) Tu.pv Tu.pm false) 2 true), Tu.tup, true, 6, Tu.pv, Tu.pm, false, ⟨_, rfl⟩, ?_⟩
    and_intros <;> first | exact settled_of_idle rfl | decide +kernel,
    by
    refine ⟨(Tu.fs (.copy (r 6) Tu.pv Tu.pm true) [] [] Tu.bothT), 0, 1, (Tu.fl (.copy (r 6) Tu.pv Tu.pm true)), (⟨1, 3, Tu.tup, false⟩), 6,
        Tu.pv, Tu.pm, true, ⟨_, rfl⟩, ?_⟩
    and_intros <;> first | exact settled_of_idle rfl | decide +kernel,
    by
    refine ⟨(Tu.fs (.take (r 6) Tu.pv Tu.pm true) [] [] Tu.bothT), 0, 1, (Tu.fl (.take (r 6) Tu.pv Tu.pm true)), (⟨1, 3, Tu.tup, false⟩), 6,
        Tu.pv, Tu.pm, true, ⟨_, rfl⟩, ?_⟩
    and_intros <;> first | exact settled_of_idle rfl | decide +kernel,
    by
    refine ⟨(Tu.fs (.copy (r 6) Tu.pv2 Tu.pm2 true) [] [] Tu.bothT), 0, 1, (Tu.fl (.copy (r 6) Tu.pv2 Tu.pm2 true)), (r 6), Tu.pv2, Tu.pm2,
        true, ⟨_, rfl⟩, ?_⟩
    and_intros <;> first | exact settled_of_idle rfl | decide +kernel,
    by
    refine ⟨(Tu.fs (.take (r 6) Tu.pv2 Tu.pm2 false) [] [] Tu.bothT), 0, 1, (Tu.fl (.take (r 6) Tu.pv2 Tu.pm2 false)), (r 6), Tu.pv2,
        Tu.pm2, false, ⟨_, rfl⟩, ?_⟩
    and_intros <;> first | exact settled_of_idle rfl | decide +kernel,
    by
    refine ⟨(Tu.fs (.count (r 6) Tu.pv Tu.pm) [] [] Tu.bothT), 0, 1, (Tu.fl (.count (r 6) Tu.pv Tu.pm)), 6, Tu.pv, Tu.pm,
        (fun y => decide (Matches Tu.pv Tu.pm y.tuple y.poisoned)), ⟨_, rfl⟩, ?_⟩
    and_intros <;> first | exact settled_of_idle rfl | exact fun _ => decide_eq_true_iff | decide +kernel,
    by
    refine ⟨(Tu.fs (.owe (r 6) 0x4C41)), 0, 1, (Tu.fl (.owe (r 6) 0x4C41)), 6, 0x4C41, ⟨_, rfl⟩, ?_⟩
    and_intros <;> first | exact settled_of_idle rfl | decide +kernel,
    ⟨{ Tu.fs (.owe (r 6) 0x4C41) with mem := [] }, 0, 1, (Tu.fl (.owe (r 6) 0x4C41)), ⟨_, rfl⟩, by and_intros <;> decide +kernel⟩⟩

/-- States and operands that meet the hypotheses of `Obligations.Tasks`, clause by clause. -/
theorem witness_Tasks :
    (
        ∃ (s : State) (g : Pred),
        s.acts g = true ∧ s.slot ≠ 0 ∧ s.sreg (.priv 5) = 0 ∧ s.slot ∉ (s.vfOf s.core s.bankVf).dqResv ∧ (s.vfOf s.core s.bankVf).deque.length + (s.vfOf s.core s.bankVf).dqResv.length < 32 ∧
        s.older (.p 0) = 0) ∧
    (
        ∃ (s : State) (g : Pred),
        s.acts g = true ∧ s.slot ≠ 0 ∧ (s.sreg (.priv 5)).toNat % 16 = 0 ∧ s.slot ∉ (s.vfOf s.core s.bankVf).dqResv ∧
        32 ≤ (s.vfOf s.core s.bankVf).deque.length + (s.vfOf s.core s.bankVf).dqResv.length ∧ (s.vfOf s.core s.bankVf).dqRoom = 0) ∧
    (∃ (s : State) (g : Pred), s.acts g = true ∧ s.slot ≠ 0 ∧ (s.sreg (.priv 5)).toNat % 16 ≠ 0) ∧
    (
        ∃ (s : State) (u : State) (g : Pred) (s1 : _) (p : _) (b : _) (ph : _) (x : _) (i : _),
        s.acts g = true ∧ s.sreg (.priv 5) ≠ 0 ∧ (s.sreg (.priv 5)).toNat % 16 = 0 ∧
        s.cur.storeBuf = [] ∧ s.slot ∉ (s.vfOf s.core s.bankVf).dqResv ∧ (s.vfOf s.core s.bankVf).deque.length + (s.vfOf s.core s.bankVf).dqResv.length < 32 ∧
        s.older (.p 0) = 0 ∧ s.reserveDq s.core s.bankVf s.slot = .ok u i ∧ AtSlot u (s.sreg (.priv 5)) true s1 p ∧
        slotWord (s.mem.word p.pa) = ⟨b, true, 3, ph, x⟩ ∧ x + 1 < 2 ^ 48 ∧ (∀ w ∈ s.waiters, w.pa ≠ p.pa)) ∧
    (
        ∃ (s : State) (g : Pred) (o : _) (s1 : _) (s2 : _) (p : _) (b : _) (ph : _) (x : _),
        s.acts g = true ∧ s.slot ≠ 15 ∧ s.forkOb s.core s.slot = some o ∧ (s.obsOf s.core s.slot).length = 1 ∧ (∀ q ∈ s.cur.pendRegs, q.2 = true) ∧
        AtJoin s o.obj s1 p ∧ s1.release .module = some s2 ∧ slotWord (s2.mem.word p.pa) = ⟨b, true, 3, ph, x⟩ ∧ (∀ w ∈ s.waiters, w.pa ≠ p.pa)) ∧
    (
        ∃ (s : State) (g : Pred) (o : _) (s1 : _) (s2 : _) (p : _),
        s.acts g = true ∧ s.slot ≠ 15 ∧ s.forkOb s.core s.slot = some o ∧ (s.obsOf s.core s.slot).length = 1 ∧
        AtJoin s o.obj s1 p ∧ s1.release .module = some s2 ∧ ¬ ((slotWord (s2.mem.word p.pa)).Live ∧ (slotWord (s2.mem.word p.pa)).type = 3)) ∧
    (∃ (s : State) (g : Pred), s.acts g = true ∧ s.slot ≠ 0 ∧ s.slot ≠ 15 ∧ s.obsOf s.core s.slot = [] ∧ (∀ q ∈ s.cur.pendRegs, q.2 = true)) ∧
    (
        ∃ (s : State) (g : Pred),
        s.acts g = true ∧ s.slot ≠ 0 ∧ s.slot ≠ 15 ∧ (if (s.forkOb s.core s.slot).isSome then 1 else 0) < (s.obsOf s.core s.slot).length) ∧
    (
        ∃ (s : State) (c : _) (k : _) (l : _) (r : _),
        s.takesWork c (s.slotOwner k) = true ∧ s.emptySlot c (s.slotOwner k) = some k ∧ (s.vfOf c (s.slotOwner k)).deque = l ++ [r] ∧
        r.bound = []) ∧
    (
        ∃ (s : State) (c : _) (v : _) (d : _) (u : _) (r : _) (rest : _),
        s.stealDist c v = some d ∧ s.victim c v d = some u ∧ s.frozen u = false ∧ u ≠ c ∧ (s.vfOf u v).spilled = [] ∧ (s.vfOf u v).deque = r :: rest ∧
        s.carriedUsed c v + r.bound.length ≤ 64) ∧
    (
        ∃ (s : State) (c : _) (v : _) (d : _) (u : _),
        s.stealDist c v = some d ∧ s.victim c v d = some u ∧ s.frozen u = false ∧ (s.vfOf u v).spilled = [] ∧ (s.vfOf u v).deque = []) ∧
    (
        ∃ (s : State) (c : _) (v : _) (x : _) (r : _) (k : _),
        (s.vfOf c v).steal = some x ∧ x.found = some r ∧ s.frozen c = false ∧ r.bound = [] ∧ s.takesWork c v = true ∧
        s.emptySlot c v = some k) ∧
    (
        ∃ (s : State) (c : _) (v : _) (x : _) (r : _),
        (s.vfOf c v).steal = some x ∧ x.found = some r ∧ s.frozen c = false ∧ r.bound = [] ∧
        s.takesWork c v = true ∧ s.emptySlot c v = none ∧ (s.vfOf c v).deque.length + (s.vfOf c v).dqResv.length < 32) ∧
    (∃ (s : State) (c : _) (v : _) (n : _), (s.vfOf c v).backoff = some n ∧ n + 256 ≤ s.cycle c) ∧
    (
        ∃ (s : State) (c : _) (v : _) (r : _) (rest : _) (s1 : _) (ea : _) (p : _),
        s.takesWork c v = true ∧ 32 ≤ (s.vfOf c v).deque.length + (s.vfOf c v).dqResv.length ∧ (s.vfOf c v).deque = r :: rest ∧ (s.vfOf c v).dqRoom ≠ 0 ∧
        s.dqHold c v (s.vfOf c v).spilled.length = none ∧ s.dqPlace c v (s.vfOf c v).spilled.length true = (s1, ea, some p) ∧
        s1.accessWait v p.pa true = none) ∧
    (
        ∃ (s : State) (c : _) (v : _) (r : _) (l : _) (s1 : _) (ea : _) (p : _),
        s.takesWork c v = true ∧ (s.vfOf c v).deque.length + (s.vfOf c v).dqResv.length < 32 ∧ (s.vfOf c v).spilled = l ++ [r] ∧
        s.dqHold c v l.length = none ∧ s.dqPlace c v l.length false = (s1, ea, some p) ∧ s1.accessWait v p.pa false = none ∧ p.pr = false ∧
        wordsHit s1.poison p.pa 64 = false) :=
  ⟨⟨Ta.s0, .always, by decide +kernel⟩,
    ⟨(Ta.s0 { deque := List.replicate 32 (Ta.rc 2) }), .always, by decide +kernel⟩,
    ⟨(Ta.s0 {} [] ((5, 3) :: Ta.mv)), .always, by decide +kernel⟩,
    by
    refine ⟨(Ta.s0 { sync := [(P + 0x40, 1)] } [] ((5, 0x40) :: Ta.mv)),
        (roomOf ((Ta.s0 { sync := [(P + 0x40, 1)] } [] ((5, 0x40) :: Ta.mv)).reserveDq (Ta.s0 { sync := [(P + 0x40, 1)] } [] ((5, 0x40) :: Ta.mv)).core (Ta.s0 { sync := [(P + 0x40, 1)] } [] ((5, 0x40) :: Ta.mv)).bankVf (Ta.s0 { sync := [(P + 0x40, 1)] } [] ((5, 0x40) :: Ta.mv)).slot)),
        .always,
        (((roomOf ((Ta.s0 { sync := [(P + 0x40, 1)] } [] ((5, 0x40) :: Ta.mv)).reserveDq (Ta.s0 { sync := [(P + 0x40, 1)] } [] ((5, 0x40) :: Ta.mv)).core (Ta.s0 { sync := [(P + 0x40, 1)] } [] ((5, 0x40) :: Ta.mv)).bankVf (Ta.s0 { sync := [(P + 0x40, 1)] } [] ((5, 0x40) :: Ta.mv)).slot)).resolve ((Ta.s0 { sync := [(P + 0x40, 1)] } [] ((5, 0x40) :: Ta.mv)).sreg (.priv 5)) { size := 16, write := true }).1),
        (got ({ pa := 0, kind := .window } : Place) ((roomOf ((Ta.s0 { sync := [(P + 0x40, 1)] } [] ((5, 0x40) :: Ta.mv)).reserveDq (Ta.s0 { sync := [(P + 0x40, 1)] } [] ((5, 0x40) :: Ta.mv)).core (Ta.s0 { sync := [(P + 0x40, 1)] } [] ((5, 0x40) :: Ta.mv)).bankVf (Ta.s0 { sync := [(P + 0x40, 1)] } [] ((5, 0x40) :: Ta.mv)).slot)).resolve ((Ta.s0 { sync := [(P + 0x40, 1)] } [] ((5, 0x40) :: Ta.mv)).sreg (.priv 5)) { size := 16, write := true }).2),
        ((slotWord ((Ta.s0 { sync := [(P + 0x40, 1)] } [] ((5, 0x40) :: Ta.mv)).mem.word (got ({ pa := 0, kind := .window } : Place) ((roomOf ((Ta.s0 { sync := [(P + 0x40, 1)] } [] ((5, 0x40) :: Ta.mv)).reserveDq (Ta.s0 { sync := [(P + 0x40, 1)] } [] ((5, 0x40) :: Ta.mv)).core (Ta.s0 { sync := [(P + 0x40, 1)] } [] ((5, 0x40) :: Ta.mv)).bankVf (Ta.s0 { sync := [(P + 0x40, 1)] } [] ((5, 0x40) :: Ta.mv)).slot)).resolve ((Ta.s0 { sync := [(P + 0x40, 1)] } [] ((5, 0x40) :: Ta.mv)).sreg (.priv 5)) { size := 16, write := true }).2).pa)).1),
        ((slotWord ((Ta.s0 { sync := [(P + 0x40, 1)] } [] ((5, 0x40) :: Ta.mv)).mem.word (got ({ pa := 0, kind := .window } : Place) ((roomOf ((Ta.s0 { sync := [(P + 0x40, 1)] } [] ((5, 0x40) :: Ta.mv)).reserveDq (Ta.s0 { sync := [(P + 0x40, 1)] } [] ((5, 0x40) :: Ta.mv)).core (Ta.s0 { sync := [(P + 0x40, 1)] } [] ((5, 0x40) :: Ta.mv)).bankVf (Ta.s0 { sync := [(P + 0x40, 1)] } [] ((5, 0x40) :: Ta.mv)).slot)).resolve ((Ta.s0 { sync := [(P + 0x40, 1)] } [] ((5, 0x40) :: Ta.mv)).sreg (.priv 5)) { size := 16, write := true }).2).pa)).4),
        ((slotWord ((Ta.s0 { sync := [(P + 0x40, 1)] } [] ((5, 0x40) :: Ta.mv)).mem.word (got ({ pa := 0, kind := .window } : Place) ((roomOf ((Ta.s0 { sync := [(P + 0x40, 1)] } [] ((5, 0x40) :: Ta.mv)).reserveDq (Ta.s0 { sync := [(P + 0x40, 1)] } [] ((5, 0x40) :: Ta.mv)).core (Ta.s0 { sync := [(P + 0x40, 1)] } [] ((5, 0x40) :: Ta.mv)).bankVf (Ta.s0 { sync := [(P + 0x40, 1)] } [] ((5, 0x40) :: Ta.mv)).slot)).resolve ((Ta.s0 { sync := [(P + 0x40, 1)] } [] ((5, 0x40) :: Ta.mv)).sreg (.priv 5)) { size := 16, write := true }).2).pa)).5),
        (roomAt ((Ta.s0 { sync := [(P + 0x40, 1)] } [] ((5, 0x40) :: Ta.mv)).reserveDq (Ta.s0 { sync := [(P + 0x40, 1)] } [] ((5, 0x40) :: Ta.mv)).core (Ta.s0 { sync := [(P + 0x40, 1)] } [] ((5, 0x40) :: Ta.mv)).bankVf (Ta.s0 { sync := [(P + 0x40, 1)] } [] ((5, 0x40) :: Ta.mv)).slot)),
        ?_⟩
    and_intros <;> first | exact ok_of_hasRoom (by decide +kernel) | decide +kernel,
    ⟨(Ta.s0 { sync := [(P + 0x40, 1)] } [Ta.fo]), .always, Ta.fo, (Ta.s0 { sync := [(P + 0x40, 1)] } [Ta.fo]),
        (((Ta.s0 { sync := [(P + 0x40, 1)] } [Ta.fo]).release .module).getD {}), ({ pa := P + 0x40, kind := .window } : Place),
        ((slotWord ((((Ta.s0 { sync := [(P + 0x40, 1)] } [Ta.fo]).release .module).getD {}).mem.word ({ pa := P + 0x40, kind := .window } : Place).pa)).1),
        ((slotWord ((((Ta.s0 { sync := [(P + 0x40, 1)] } [Ta.fo]).release .module).getD {}).mem.word ({ pa := P + 0x40, kind := .window } : Place).pa)).4),
        ((slotWord ((((Ta.s0 { sync := [(P + 0x40, 1)] } [Ta.fo]).release .module).getD {}).mem.word ({ pa := P + 0x40, kind := .window } : Place).pa)).5),
        by decide +kernel⟩,
    ⟨{ Ta.s0 { sync := [(P + 0x40, 1)] } [Ta.fo] with mem := [] }, .always, Ta.fo,
        { Ta.s0 { sync := [(P + 0x40, 1)] } [Ta.fo] with mem := [] },
        (({ Ta.s0 { sync := [(P + 0x40, 1)] } [Ta.fo] with mem := [] }.release .module).getD {}),
        ({ pa := P + 0x40, kind := .window } : Place), by decide +kernel⟩,
    ⟨Ta.s0, .always, by decide +kernel⟩,
    ⟨(Ta.s0 {} [Ta.fo, Ta.ob .put 5 6]), .always, by decide +kernel⟩,
    ⟨(Ta.emt { deque := [Ta.rc 1, Ta.rc 2] }), 0, 1, [Ta.rc 1], (Ta.rc 2), by decide +kernel⟩,
    ⟨(Ta.gs {} { deque := [Ta.rc 1, Ta.rc 2] }), 0, 0, 1, 1, (Ta.rc 1), [Ta.rc 2], by decide +kernel⟩,
    ⟨(Ta.gs {} {}), 0, 0, 1, 1, by decide +kernel⟩,
    ⟨(Ta.gs { steal := some ⟨2, some (Ta.rc 4)⟩ } {}), 0, 0, (⟨2, some (Ta.rc 4)⟩), (Ta.rc 4),
        (((Ta.gs { steal := some ⟨2, some (Ta.rc 4)⟩ } {}).emptySlot 0 0).getD 0), by decide +kernel⟩,
    ⟨{ Ta.gs { steal := some ⟨2, some (Ta.rc 4)⟩ } {} with pf := (0x108, 2) :: part }, 0, 0, (⟨2, some (Ta.rc 4)⟩), (Ta.rc 4),
        by decide +kernel⟩,
    ⟨{ Ta.gs { backoff := some 100 } {} with now := 2000000 }, 0, 0, 100, by decide +kernel⟩,
    ⟨(Ta.dq { deque := (List.range 32).map Ta.rc }), 0, 0, (Ta.rc 0), ((List.range 31).map fun i => Ta.rc (i + 1)),
        (((Ta.dq { deque := (List.range 32).map Ta.rc }).dqPlace 0 0 ((Ta.dq { deque := (List.range 32).map Ta.rc }).vfOf 0 0).spilled.length true).1),
        (((Ta.dq { deque := (List.range 32).map Ta.rc }).dqPlace 0 0 ((Ta.dq { deque := (List.range 32).map Ta.rc }).vfOf 0 0).spilled.length true).2.1),
        ((((Ta.dq { deque := (List.range 32).map Ta.rc }).dqPlace 0 0 ((Ta.dq { deque := (List.range 32).map Ta.rc }).vfOf 0 0).spilled.length true).2.2).getD ({ pa := 0, kind := .window } : Place)),
        by decide +kernel⟩,
    ⟨(Ta.dq { deque := List.replicate 31 (Ta.rc 9), spilled := [Ta.rc 6, Ta.rc 7] }), 0, 0, (Ta.rc 7), [Ta.rc 6],
        (((Ta.dq { deque := List.replicate 31 (Ta.rc 9), spilled := [Ta.rc 6, Ta.rc 7] }).dqPlace 0 0 [Ta.rc 6].length false).1),
        (((Ta.dq { deque := List.replicate 31 (Ta.rc 9), spilled := [Ta.rc 6, Ta.rc 7] }).dqPlace 0 0 [Ta.rc 6].length false).2.1),
        ((((Ta.dq { deque := List.replicate 31 (Ta.rc 9), spilled := [Ta.rc 6, Ta.rc 7] }).dqPlace 0 0 [Ta.rc 6].length false).2.2).getD ({ pa := 0, kind := .window } : Place)),
        by decide +kernel⟩⟩

/-- States and operands that meet the hypotheses of `Obligations.Messages`, clause by clause. -/
theorem witness_Messages :
    (
        ∃ (s : State) (g : Pred) (st : _) (c : _) (x : _) (s2 : _),
        s.acts g = true ∧ s.slot ≠ 0 ∧ s.slot ≠ 15 ∧ s.msgTarget (s.ssrc st) = some (c, x) ∧ 0 < (s.obmin s.core s.slot).toNat ∧
        s.release (if x.isSome then .system else .module) = some s2 ∧ (s.cur.sendq.filter fun m => m.tenant == s.cur.tenant.toNat).length < 8 ∧
        s.cur.pl ≠ 0) ∧
    (
        ∃ (s : State) (g : Pred) (a : _) (st : _) (c : _) (x : _) (s2 : _) (p : _) (off : _),
        s.acts g = true ∧ s.slot ≠ 0 ∧ s.slot ≠ 15 ∧ s.msgTarget (s.ssrc st) = some (c, x) ∧ 0 < (s.obmin s.core s.slot).toNat ∧
        s.release (if x.isSome then .system else .module) = some s2 ∧ (s.cur.sendq.filter fun m => m.tenant == s.cur.tenant.toNat).length < 8 ∧
        off = field ((s.vsrc a).extractLsb' 64 64) 16 0 ∧ off % 8 = 0 ∧ s.windowPlace s.core s.bankVf off = some p ∧ s2.cur.storeBuf = []) ∧
    (∃ (s : State) (g : Pred) (st : _), s.acts g = true ∧ s.slot ≠ 0 ∧ s.msgTarget (s.ssrc st) = none ∧ s.slot ≠ 15) ∧
    (
        ∃ (s : State) (g : Pred) (st : _) (t0 : _),
        s.acts g = true ∧ s.slot ≠ 0 ∧ s.slot ≠ 15 ∧ s.msgTarget (s.ssrc st) = some t0 ∧ s.obmin s.core s.slot = 0) ∧
    (
        ∃ (s : State) (g : Pred) (sk : _) (o : _) (s2 : _),
        s.acts g = true ∧ s.slot ≠ 0 ∧ (∀ q ∈ s.obsOf s.core s.slot, q.spill = none) ∧ pickOb (s.obsOf s.core s.slot) .reply (s.ssrc sk) = some o ∧
        field (s.ssrc sk) 56 45 = field (s.pfReg 0xB380) 11 0 ∧ s.release .module = some s2) ∧
    (
        ∃ (s : State) (g : Pred) (sk : _),
        s.acts g = true ∧ s.slot ≠ 0 ∧ (∀ q ∈ s.obsOf s.core s.slot, q.spill = none) ∧ pickOb (s.obsOf s.core s.slot) .reply (s.ssrc sk) = none) ∧
    (∃ (s : State) (g : Pred), s.acts g = true ∧ s.slot = 15 ∧ s.obsOf s.core 15 = []) ∧
    (
        ∃ (s : State) (c : _) (k : _) (m : _) (rest : _),
        k < 16 ∧ s.frozen c = false ∧ (s.slotOf c k).sendq = m :: rest ∧ (∀ r, (s.slotOf c k).status ≠ .parked r) ∧ (
          ∀ x, (s.slotOf c k).status ≠ .wait (.sendFull x)) ∧ s.onTurn m.vf m.tenant = true ∧
        m.xmod = none ∧ (s.vfOf m.target m.vf).fenced = false ∧ (s.vfOf m.target m.vf).inbox.length < 16 ∧ s.frozen m.target = false ∧
        s.linkHeld m.vf c m.target = false ∧ s.fifoHeld c m.target = false) ∧
    (
        ∃ (s : State) (c : _) (v : _) (m : _) (rest : _),
        (s.slotOf c 15).status = .empty ∧ s.nextHandler c = some v ∧ (s.vfOf c v).inbox = m :: rest ∧
        m.obs = [] ∧ m.kind = .plain ∧ (m.data.extractLsb' 0 64).getLsbD 0 = false ∧ field (m.data.extractLsb' 0 64) 63 57 = 0) ∧
    (
        ∃ (s : State) (c : _) (v : _) (m : _) (rest : _),
        (s.slotOf c 15).status = .empty ∧ s.nextHandler c = some v ∧ (s.vfOf c v).inbox = m :: rest ∧
        m.obs = [] ∧ m.kind = .sendr ∧ (m.data.extractLsb' 0 64).getLsbD 0 = false ∧ field (m.data.extractLsb' 0 64) 63 57 = 0 ∧ (s.coreOf c).tableUsed + (s.coreOf c).tableResv < 128) ∧
    (
        ∃ (s : State) (c : _),
        (s.slotOf c 15).status = .run ∧ (s.slotOf c 15).kill = none ∧ 256 ≤ (s.slotOf c 15).hcount ∧ (s.slotOf c 15).reissue = false ∧
        s.stalled c = false ∧ s.obsOf c 15 = []) ∧
    (
        ∃ (s : State) (c : _) (v : _) (ch : _) (m : _) (rest : _) (u : _),
        s.takesWork c v = true ∧ (s.vfOf c v).inbox = m :: rest ∧ m.kind = .sys ch ∧
        s.boundVf ch.toNat = some u ∧ m.vf = v ∧ m.data.extractLsb' 0 64 = 0 ∧ field (m.data.extractLsb' 64 64) 31 4 = 0) ∧
    (
        ∃ (s : State) (c : _) (v : _) (ch : _) (m : _) (rest : _) (u : _),
        s.takesWork c v = true ∧ (s.vfOf c v).inbox = m :: rest ∧ m.kind = .sys ch ∧
        s.boundVf ch.toNat = some u ∧ m.vf = v ∧ m.data.extractLsb' 0 64 ≠ 0 ∧ (s.vfOf c u).ready.getLsbD ch.toNat = true ∧ (s.vfOf c u).hold.getLsbD ch.toNat = false ∧ (s.vfOf c u).deque.length + (s.vfOf c u).dqResv.length < 32) :=
  ⟨⟨(Ms.gs { pl := 1 } [Ms.ob .put 5 5]), .always, (x 2), ((((Ms.gs { pl := 1 } [Ms.ob .put 5 5]).msgTarget ((Ms.gs { pl := 1 } [Ms.ob .put 5 5]).ssrc (x 2))).getD (0, none)).1), ((((Ms.gs { pl := 1 } [Ms.ob .put 5 5]).msgTarget ((Ms.gs { pl := 1 } [Ms.ob .put 5 5]).ssrc (x 2))).getD (0, none)).2), (((Ms.gs { pl := 1 } [Ms.ob .put 5 5]).release (if ((((Ms.gs { pl := 1 } [Ms.ob .put 5 5]).msgTarget ((Ms.gs { pl := 1 } [Ms.ob .put 5 5]).ssrc (x 2))).getD (0, none)).2).isSome then .system else .module)).getD {}), by decide +kernel⟩,
    ⟨Ms.gs, .always, (v 1), (x 1), (((Ms.gs.msgTarget (Ms.gs.ssrc (x 1))).getD (0, none)).1),
        (((Ms.gs.msgTarget (Ms.gs.ssrc (x 1))).getD (0, none)).2),
        ((Ms.gs.release (if (((Ms.gs.msgTarget (Ms.gs.ssrc (x 1))).getD (0, none)).2).isSome then .system else .module)).getD {}),
        ({ pa := P + 0x40, kind := .window } : Place), (field ((Ms.gs.vsrc (v 1)).extractLsb' 64 64) 16 0), by decide +kernel⟩,
    ⟨Ms.gs, .always, (x 3), by decide +kernel⟩,
    ⟨(Ms.gs {} [Ms.ob .put 5 0]), .always, (x 1),
        (((Ms.gs {} [Ms.ob .put 5 0]).msgTarget ((Ms.gs {} [Ms.ob .put 5 0]).ssrc (x 1))).getD (0, none)), by decide +kernel⟩,
    ⟨Ms.so, .always, (x 9),
        ((pickOb (Ms.so.obsOf Ms.so.core Ms.so.slot) .reply (Ms.so.ssrc (x 9))).getD { obj := 0, kind := .put, rank := 0 }),
        ((Ms.so.release .module).getD {}), by decide +kernel⟩,
    ⟨Ms.so, .always, (x 10), by decide +kernel⟩,
    ⟨(Ms.gs {} [] 15), .always, by decide +kernel⟩,
    ⟨(Ms.gs { sendq := [Ms.msg, Ms.msg .sendr] }), 0, 1, Ms.msg, [Ms.msg .sendr], by decide +kernel, by decide +kernel, by decide +kernel,
        fun _ h => Status.noConfusion (show Status.run = _ from h), fun _ h => Status.noConfusion (show Status.run = _ from h),
        by and_intros <;> decide +kernel⟩,
    ⟨(Ms.hs [Ms.msg]), 0, 0, Ms.msg, [], by decide +kernel⟩,
    ⟨(Ms.hs [Ms.msg .sendr, Ms.msg]), 0, 0, (Ms.msg .sendr), [Ms.msg], by decide +kernel⟩,
    ⟨{ (Ms.gs { hcount := 256 } [] 15) with core := 0 }, 0, by decide +kernel⟩,
    ⟨(Ms.ch 0 0 [Ms.msg (.sys 2) 0]), 0, 0, 2, (Ms.msg (.sys 2) 0), [], 0, by decide +kernel⟩,
    ⟨(Ms.ch 4 0 [Ms.msg (.sys 2)]), 0, 0, 2, (Ms.msg (.sys 2)), [], 0, by decide +kernel⟩⟩

/-- States and operands that meet the hypotheses of `Obligations.CopiesCollectives`, clause by clause. -/
theorem witness_CopiesCollectives :
    (
        ∃ (s : State) (g : Pred) (a : _) (k : _) (n : _),
        s.acts g = true ∧ s.slot = 0 ∧ 1 ≤ k ∧ k ≤ 14 ∧ n < 4 ∧ s.ssrc a = BitVec.ofNat 64 (k + 16 * n) ∧ (s.slotOf s.core k).mbFull.getLsbD n = true) ∧
    (
        ∃ (s : State) (g : Pred) (a : _) (k : _) (n : _),
        s.acts g = true ∧ s.slot = 0 ∧ 1 ≤ k ∧ k ≤ 14 ∧ n < 4 ∧ s.ssrc a = BitVec.ofNat 64 (k + 16 * n) ∧ (s.slotOf s.core k).mbFull.getLsbD n = false) ∧
    (∃ (s : State) (g : Pred) (s2 : _), s.acts g = true ∧ s.slot ≠ 0 ∧ s.slot ≠ 15 ∧ s.release .core = some s2 ∧ s.cur.mbFull = 0) ∧
    (∃ (s : State) (g : Pred) (s2 : _), s.acts g = true ∧ s.slot ≠ 0 ∧ s.slot ≠ 15 ∧ s.release .core = some s2 ∧ s.cur.mbFull ≠ 0) ∧
    (
        ∃ (s : State) (g : Pred) (x : _),
        s.acts g = true ∧ s.slot ≠ 0 ∧ s.slot ≠ 15 ∧ s.gangStage s.core s.bankVf = some x ∧ (s.obmin s.core s.slot).toNat ≤ x.rank.toNat) ∧
    (
        ∃ (s : State) (g : Pred) (a : _) (x : _) (s2 : _),
        s.acts g = true ∧ s.slot ≠ 0 ∧ s.slot ≠ 15 ∧ s.gangStage s.core s.bankVf = some x ∧
        x.rank.toNat < (s.obmin s.core s.slot).toNat ∧ s.release (if (s.vsrc a).getLsbD 160 then .system else .module) = some s2) ∧
    (
        ∃ (s : State) (c : _) (v : _) (k : _),
        s.frozen c = false ∧ s.lodge.up = true ∧ s.nextQuartet c = some (v, k) ∧ (s.engine (dieOf c) (engineOf c)).chain.length < 4096) ∧
    (
        ∃ (s : State) (d : _) (n : _) (e : _),
        ((s.engine d n).chain.find? fun e => !e.started) = some e ∧ s.onTurn e.vf e.tenant = true ∧ s.frozen e.core = false ∧
        s.donated e.vf = false) ∧
    (
        ∃ (s : State) (d : _) (n : _) (i : Nat) (e : CopyEntry),
        (s.engine d n).chain[i]? = some e ∧ e.started = true ∧ (s.slotOf e.core e.slot).status = .run ∧ (s.slotOf e.core e.slot).gen = e.gen ∧ (field e.w2 39 24 = 0 ∨ 4 < field e.w2 43 40 ∨ field e.w2 23 0 % 8 ≠ 0)) ∧
    (
        ∃ (s : State) (d : _) (n : _) (i : Nat) (e : CopyEntry) (p : _) (q : _),
        (s.engine d n).chain[i]? = some e ∧ e.started = true ∧ (s.slotOf e.core e.slot).status = .run ∧ (s.slotOf e.core e.slot).gen = e.gen ∧
        e.w2 = 0x0000000001000008 ∧ e.w3 = 0 ∧ e.w0.toNat % 8 = 0 ∧ e.w1.toNat % 8 = 0 ∧
        field e.w0 63 57 = 0 ∧ field e.w1 63 57 = 0 ∧ e.got.look 0 = none ∧ e.moved.look 0 = none ∧
        s.engineWalkHeld e.vf e.pasid e.w0 = false ∧ s.engineWalkHeld e.vf e.pasid e.w1 = false ∧
        s.enginePlace e.core e.vf e.pasid e.w0 { size := 8 } = .ok p ∧
        s.enginePlace e.core e.vf e.pasid e.w1 { size := 8, write := true } = .ok q ∧
        s.engineHeld e.vf e.tenant p.pa false = false ∧ s.engineHeld e.vf e.tenant q.pa true = false ∧
        p.kind ≠ .device ∧ q.kind ≠ .device ∧ (∀ w ∈ s.waiters, w.pa ≠ q.pa)) ∧
    (
        ∃ (s : State) (i : Nat) (q : _) (p : _),
        s.colls[i]? = some q ∧ s.collHeld q = false ∧ q.parts = [p] ∧ q.gang = some (0, 0) ∧ (s.slotOf p.core p.slot).status = .run ∧ (s.slotOf p.core p.slot).gen = p.gen ∧
        p.bad = true) ∧
    (
        ∃ (s : State) (i : Nat) (q : _) (p : _) (x : _) (y : _),
        s.colls[i]? = some q ∧ s.collHeld q = false ∧ q.parts = [p] ∧ q.gang = some (0, 0) ∧ (s.slotOf p.core p.slot).status = .run ∧ (s.slotOf p.core p.slot).gen = p.gen ∧
        p.bad = false ∧ field p.w2 16 0 = 1 ∧ s.enginePlace p.core p.vf (s.pasid p.vf p.tenant) p.w0 { size := 4 } = .ok x ∧
        s.enginePlace p.core p.vf (s.pasid p.vf p.tenant) p.w1 { size := 4, write := true } = .ok y ∧
        x.kind ≠ .device ∧ y.kind ≠ .device ∧ (∀ w ∈ s.waiters, w.pa ≠ y.pa / 8 * 8) ∧ wordsHit s.poison x.pa 4 = false ∧ x.pr = false) :=
  ⟨⟨(Co.gs {} [] [(1, act Co.mv { mb := [(2, 77)], mbFull := 6 })] 0), .always, (x 2), 1, 2, by decide +kernel⟩,
    ⟨(Co.gs {} [] [(1, act Co.mv { mb := [(2, 77)], mbFull := 2 })] 0), .always, (x 2), 1, 2, by decide +kernel⟩,
    ⟨Co.gs, .always, ((Co.gs.release .core).getD {}), by decide +kernel⟩,
    ⟨(Co.gs { mbFull := 2 }), .always, (((Co.gs { mbFull := 2 }).release .core).getD {}), by decide +kernel⟩,
    ⟨(Co.gs {} [Co.ob .put 5 5]), .always,
        (((Co.gs {} [Co.ob .put 5 5]).gangStage (Co.gs {} [Co.ob .put 5 5]).core (Co.gs {} [Co.ob .put 5 5]).bankVf).getD {
            die := 0, x := 0, y := 0, w := 0, h := 0, bar := false, rank := 0, entry := 0 }), by decide +kernel⟩,
    ⟨Co.gs, .always, (v 2),
        ((Co.gs.gangStage Co.gs.core Co.gs.bankVf).getD { die := 0, x := 0, y := 0, w := 0, h := 0, bar := false, rank := 0, entry := 0 }),
        ((Co.gs.release (if (Co.gs.vsrc (v 2)).getLsbD 160 then .system else .module)).getD {}), by decide +kernel⟩,
    ⟨(Co.gs { mb := [(0, 0x40), (1, 0x80), (2, 5), (3, 6)], mbFull := 15, mbTag := some 9 }), 0, 0, 1, by decide +kernel⟩,
    ⟨(Co.eg [Co.ce false]), 0, 0, (Co.ce false), by decide +kernel⟩,
    ⟨(Co.eg [Co.ce true 8]), 0, 0, 0, (Co.ce true 8), by decide +kernel⟩,
    ⟨(Co.eg [Co.ce true]), 0, 0, 0, (Co.ce true), ({ pa := P + 0x40, kind := .window } : Place),
        ({ pa := P + 0x80, kind := .window } : Place), by decide +kernel⟩,
    ⟨(Co.cs 0 true), 0, (Co.co 0 true), (Co.pt 0 true), by decide +kernel⟩,
    ⟨(Co.cs 1 true), 0, (Co.co 1 true), (Co.pt 1 true), ({ pa := P + 0x40, kind := .window } : Place),
        ({ pa := P + 0x80, kind := .window } : Place), by decide +kernel⟩⟩

/-- States and operands that meet the hypotheses of `Obligations.MatrixQueues`, clause by clause. -/
theorem witness_MatrixQueues :
    (∃ (s : State) (g : Pred), s.acts g = true ∧ s.mxShare s.bankVf = 0) ∧
    (
        ∃ (s : State) (g : Pred) (s2 : _),
        s.acts g = true ∧ s.mxShare s.bankVf ≠ 0 ∧ (s.modVf s.core s.bankVf fun cv => { cv with mxSeq := cv.mxSeq + 1 }).release .core = some s2 ∧ (s.vfOf s.core s.bankVf).mxq.length < s.mxShare s.bankVf ∧
        s.mxWaiting s.core s.bankVf = []) ∧
    (
        ∃ (s : State) (g : Pred) (s2 : _),
        s.acts g = true ∧ s.mxShare s.bankVf ≠ 0 ∧ (s.modVf s.core s.bankVf fun cv => { cv with mxSeq := cv.mxSeq + 1 }).release .core = some s2 ∧
        s.mxShare s.bankVf ≤ (s.vfOf s.core s.bankVf).mxq.length ∧ s.slot = 15) ∧
    (
        ∃ (s : State) (g : Pred) (s2 : _),
        s.acts g = true ∧ s.mxShare s.bankVf ≠ 0 ∧ (s.modVf s.core s.bankVf fun cv => { cv with mxSeq := cv.mxSeq + 1 }).release .core = some s2 ∧
        s.mxShare s.bankVf ≤ (s.vfOf s.core s.bankVf).mxq.length ∧ s.slot ≠ 15) ∧
    (∃ (s : State) (g : Pred) (bay : BitVec 4), s.acts g = true ∧ s.slot ≠ 0 ∧ s.physBay s.bankVf bay.toNat = none) ∧
    (
        ∃ (s : State) (g : Pred) (bay : BitVec 4) (p : _) (rank : _),
        s.acts g = true ∧ s.slot ≠ 0 ∧ s.slot ≠ 15 ∧ s.physBay s.bankVf bay.toNat = some p ∧ rank = (s.vfOf s.core s.bankVf).brb + bay.setWidth 56 ∧ (s.obmin s.core s.slot).toNat ≤ rank.toNat) ∧
    (
        ∃ (s : State) (g : Pred) (bay : BitVec 4) (p : _) (rank : _) (s2 : _) (i : _),
        s.acts g = true ∧ s.slot ≠ 0 ∧ s.slot ≠ 15 ∧ s.physBay s.bankVf bay.toNat = some p ∧ rank = (s.vfOf s.core s.bankVf).brb + bay.setWidth 56 ∧
        rank.toNat < (s.obmin s.core s.slot).toNat ∧ s.reserveOb s.core s.slot = .ok s2 i ∧ (s.bay s.core p).claim = none) ∧
    (
        ∃ (s : State) (g : Pred) (bay : BitVec 4) (p : _) (rank : _) (s2 : _) (i : _),
        s.acts g = true ∧ s.slot ≠ 0 ∧ s.slot ≠ 15 ∧ s.physBay s.bankVf bay.toNat = some p ∧ rank = (s.vfOf s.core s.bankVf).brb + bay.setWidth 56 ∧
        rank.toNat < (s.obmin s.core s.slot).toNat ∧ s.reserveOb s.core s.slot = .ok s2 i ∧ (s.bay s.core p).claim.isSome = true) ∧
    (
        ∃ (s : State) (g : Pred) (bay : BitVec 4) (p : _),
        s.acts g = true ∧ s.slot ≠ 0 ∧ s.physBay s.bankVf bay.toNat = some p ∧ (∀ q ∈ s.obsOf s.core s.slot, q.spill = none) ∧
        pickOb (s.obsOf s.core s.slot) .release (BitVec.ofNat 64 (2 ^ 63 + s.core * 2 ^ 32 + bay.toNat)) = none) ∧
    (
        ∃ (s : State) (g : Pred) (bay : BitVec 4) (p : _) (o : _),
        s.acts g = true ∧ s.slot ≠ 0 ∧ s.physBay s.bankVf bay.toNat = some p ∧ (∀ q ∈ s.obsOf s.core s.slot, q.spill = none) ∧
        pickOb (s.obsOf s.core s.slot) .release (BitVec.ofNat 64 (2 ^ 63 + s.core * 2 ^ 32 + bay.toNat)) = some o ∧
        s.mxNames s.core s.bankVf bay.toNat (s.vfOf s.core s.bankVf).mxSeq = true) ∧
    (
        ∃ (s : State) (g : Pred) (bay : BitVec 4) (p : _) (o : _),
        s.acts g = true ∧ s.slot ≠ 0 ∧ s.physBay s.bankVf bay.toNat = some p ∧ (∀ q ∈ s.obsOf s.core s.slot, q.spill = none) ∧
        pickOb (s.obsOf s.core s.slot) .release (BitVec.ofNat 64 (2 ^ 63 + s.core * 2 ^ 32 + bay.toNat)) = some o ∧
        s.mxNames s.core s.bankVf bay.toNat (s.vfOf s.core s.bankVf).mxSeq = false ∧ (s.bay s.core p).queue = []) ∧
    (
        ∃ (s : State) (g : Pred) (bay : BitVec 4) (p : _) (o : _) (k : _) (rest : _),
        s.acts g = true ∧ s.slot ≠ 0 ∧ s.physBay s.bankVf bay.toNat = some p ∧ (∀ q ∈ s.obsOf s.core s.slot, q.spill = none) ∧
        pickOb (s.obsOf s.core s.slot) .release (BitVec.ofNat 64 (2 ^ 63 + s.core * 2 ^ 32 + bay.toNat)) = some o ∧
        s.mxNames s.core s.bankVf bay.toNat (s.vfOf s.core s.bankVf).mxSeq = false ∧ (s.bay s.core p).queue = k :: rest ∧ k ≠ s.slot) ∧
    (∃ (s : State) (g : Pred) (sel : BitVec 3), s.acts g = true ∧ s.slot ≠ 0 ∧ sel ≠ 1) ∧
    (
        ∃ (s : State) (g : Pred) (mask : BitVec 4),
        s.acts g = true ∧ s.slot ≠ 0 ∧ (∀ q ∈ (s.vfOf s.core s.bankVf).mxq, mask.getLsbD (cmdStream q.cmd) = false)) ∧
    (
        ∃ (s : State) (g : Pred) (mask : BitVec 4),
        s.acts g = true ∧ s.slot ≠ 0 ∧ (∃ q ∈ (s.vfOf s.core s.bankVf).mxq, mask.getLsbD (cmdStream q.cmd) = true)) :=
  ⟨⟨{ Mx.mq (Mx.tlo 0) [] with pf := (0x120, 0xFFFFF) :: part }, .always, by decide +kernel⟩,
    ⟨(Mx.mq (Mx.tlo 0) []), .always,
        ((((Mx.mq (Mx.tlo 0) []).modVf (Mx.mq (Mx.tlo 0) []).core (Mx.mq (Mx.tlo 0) []).bankVf fun cv => { cv with mxSeq := cv.mxSeq + 1 }).release .core).getD {}),
        by decide +kernel⟩,
    ⟨(Mx.mq (Mx.cm [8]) ((List.range 16).map fun i => { cmd := Mx.tlo 0, seq := i }) [] [] {} [] 15), .always,
        ((((Mx.mq (Mx.cm [8]) ((List.range 16).map fun i => { cmd := Mx.tlo 0, seq := i }) [] [] {} [] 15).modVf (Mx.mq (Mx.cm [8]) ((List.range 16).map fun i => { cmd := Mx.tlo 0, seq := i }) [] [] {} [] 15).core (Mx.mq (Mx.cm [8]) ((List.range 16).map fun i => { cmd := Mx.tlo 0, seq := i }) [] [] {} [] 15).bankVf fun cv => { cv with mxSeq := cv.mxSeq + 1 }).release .core).getD {}),
        by decide +kernel⟩,
    ⟨(Mx.mq (Mx.cm [8]) ((List.range 16).map fun i => { cmd := Mx.tlo 0, seq := i })), .always,
        ((((Mx.mq (Mx.cm [8]) ((List.range 16).map fun i => { cmd := Mx.tlo 0, seq := i })).modVf (Mx.mq (Mx.cm [8]) ((List.range 16).map fun i => { cmd := Mx.tlo 0, seq := i })).core (Mx.mq (Mx.cm [8]) ((List.range 16).map fun i => { cmd := Mx.tlo 0, seq := i })).bankVf fun cv => { cv with mxSeq := cv.mxSeq + 1 }).release .core).getD {}),
        by decide +kernel⟩,
    ⟨{ Mx.mq (Mx.tlo 0) [] with pf := [(0x100, 1), (0x108, 0x7FFE), (0x120, 0x50F00FF)] }, .always, (8 : BitVec 4), by decide +kernel⟩,
    ⟨(Mx.mq (Mx.tlo 0) [] [Mx.ob .put 5 5]), .always, (15 : BitVec 4),
        (((Mx.mq (Mx.tlo 0) [] [Mx.ob .put 5 5]).physBay (Mx.mq (Mx.tlo 0) [] [Mx.ob .put 5 5]).bankVf (15 : BitVec 4).toNat).getD 0),
        (((Mx.mq (Mx.tlo 0) [] [Mx.ob .put 5 5]).vfOf (Mx.mq (Mx.tlo 0) [] [Mx.ob .put 5 5]).core (Mx.mq (Mx.tlo 0) [] [Mx.ob .put 5 5]).bankVf).brb + (15 : BitVec 4).setWidth 56),
        by decide +kernel⟩,
    by
    refine ⟨(Mx.mq (Mx.tlo 0) []), .always, (3 : BitVec 4),
        (((Mx.mq (Mx.tlo 0) []).physBay (Mx.mq (Mx.tlo 0) []).bankVf (3 : BitVec 4).toNat).getD 0),
        (((Mx.mq (Mx.tlo 0) []).vfOf (Mx.mq (Mx.tlo 0) []).core (Mx.mq (Mx.tlo 0) []).bankVf).brb + (3 : BitVec 4).setWidth 56),
        (roomOf ((Mx.mq (Mx.tlo 0) []).reserveOb (Mx.mq (Mx.tlo 0) []).core (Mx.mq (Mx.tlo 0) []).slot)),
        (roomAt ((Mx.mq (Mx.tlo 0) []).reserveOb (Mx.mq (Mx.tlo 0) []).core (Mx.mq (Mx.tlo 0) []).slot)), ?_⟩
    and_intros <;> first | exact ok_of_hasRoom (by decide +kernel) | decide +kernel,
    by
    refine ⟨(Mx.mq (Mx.tlo 0) [] [] [(3, { claim := some 2, queue := [4] })]), .always, (3 : BitVec 4),
        (((Mx.mq (Mx.tlo 0) [] [] [(3, { claim := some 2, queue := [4] })]).physBay (Mx.mq (Mx.tlo 0) [] [] [(3, { claim := some 2, queue := [4] })]).bankVf (3 : BitVec 4).toNat).getD 0),
        (((Mx.mq (Mx.tlo 0) [] [] [(3, { claim := some 2, queue := [4] })]).vfOf (Mx.mq (Mx.tlo 0) [] [] [(3, { claim := some 2, queue := [4] })]).core (Mx.mq (Mx.tlo 0) [] [] [(3, { claim := some 2, queue := [4] })]).bankVf).brb + (3 : BitVec 4).setWidth 56),
        (roomOf ((Mx.mq (Mx.tlo 0) [] [] [(3, { claim := some 2, queue := [4] })]).reserveOb (Mx.mq (Mx.tlo 0) [] [] [(3, { claim := some 2, queue := [4] })]).core (Mx.mq (Mx.tlo 0) [] [] [(3, { claim := some 2, queue := [4] })]).slot)),
        (roomAt ((Mx.mq (Mx.tlo 0) [] [] [(3, { claim := some 2, queue := [4] })]).reserveOb (Mx.mq (Mx.tlo 0) [] [] [(3, { claim := some 2, queue := [4] })]).core (Mx.mq (Mx.tlo 0) [] [] [(3, { claim := some 2, queue := [4] })]).slot)),
        ?_⟩
    and_intros <;> first | exact ok_of_hasRoom (by decide +kernel) | decide +kernel,
    ⟨(Mx.mq (Mx.tlo 0) []), .always, (3 : BitVec 4),
        (((Mx.mq (Mx.tlo 0) []).physBay (Mx.mq (Mx.tlo 0) []).bankVf (3 : BitVec 4).toNat).getD 0), by decide +kernel⟩,
    ⟨(Mx.mq (Mx.tlo 0) [{ cmd := Mx.tlo 0, seq := 3 }] [Mx.rel 0] [(0, { claim := some 1 })]), .always, (0 : BitVec 4),
        (((Mx.mq (Mx.tlo 0) [{ cmd := Mx.tlo 0, seq := 3 }] [Mx.rel 0] [(0, { claim := some 1 })]).physBay (Mx.mq (Mx.tlo 0) [{ cmd := Mx.tlo 0, seq := 3 }] [Mx.rel 0] [(0, { claim := some 1 })]).bankVf (0 : BitVec 4).toNat).getD 0),
        ((pickOb ((Mx.mq (Mx.tlo 0) [{ cmd := Mx.tlo 0, seq := 3 }] [Mx.rel 0] [(0, { claim := some 1 })]).obsOf (Mx.mq (Mx.tlo 0) [{ cmd := Mx.tlo 0, seq := 3 }] [Mx.rel 0] [(0, { claim := some 1 })]).core (Mx.mq (Mx.tlo 0) [{ cmd := Mx.tlo 0, seq := 3 }] [Mx.rel 0] [(0, { claim := some 1 })]).slot) .release (BitVec.ofNat 64 (2 ^ 63 + (Mx.mq (Mx.tlo 0) [{ cmd := Mx.tlo 0, seq := 3 }] [Mx.rel 0] [(0, { claim := some 1 })]).core * 2 ^ 32 + (0 : BitVec 4).toNat))).getD { obj := 0, kind := .put, rank := 0 }),
        by decide +kernel⟩,
    ⟨(Mx.mq (Mx.tlo 0) [{ cmd := Mx.tlo 0, seq := 3 }] [Mx.rel 2] [(2, { claim := some 1, valid := true })]), .always, (2 : BitVec 4),
        (((Mx.mq (Mx.tlo 0) [{ cmd := Mx.tlo 0, seq := 3 }] [Mx.rel 2] [(2, { claim := some 1, valid := true })]).physBay (Mx.mq (Mx.tlo 0) [{ cmd := Mx.tlo 0, seq := 3 }] [Mx.rel 2] [(2, { claim := some 1, valid := true })]).bankVf (2 : BitVec 4).toNat).getD 0),
        ((pickOb ((Mx.mq (Mx.tlo 0) [{ cmd := Mx.tlo 0, seq := 3 }] [Mx.rel 2] [(2, { claim := some 1, valid := true })]).obsOf (Mx.mq (Mx.tlo 0) [{ cmd := Mx.tlo 0, seq := 3 }] [Mx.rel 2] [(2, { claim := some 1, valid := true })]).core (Mx.mq (Mx.tlo 0) [{ cmd := Mx.tlo 0, seq := 3 }] [Mx.rel 2] [(2, { claim := some 1, valid := true })]).slot) .release (BitVec.ofNat 64 (2 ^ 63 + (Mx.mq (Mx.tlo 0) [{ cmd := Mx.tlo 0, seq := 3 }] [Mx.rel 2] [(2, { claim := some 1, valid := true })]).core * 2 ^ 32 + (2 : BitVec 4).toNat))).getD { obj := 0, kind := .put, rank := 0 }),
        by decide +kernel⟩,
    ⟨(Mx.mq (Mx.tlo 0) [] [Mx.rel 2] [(2, { claim := some 1, queue := [2, 3] })] {} [(2, act Mx.mv { status := .wait (.claim 2 100) })]),
        .always, (2 : BitVec 4),
        (((Mx.mq (Mx.tlo 0) [] [Mx.rel 2] [(2, { claim := some 1, queue := [2, 3] })] {} [(2, act Mx.mv { status := .wait (.claim 2 100) })]).physBay (Mx.mq (Mx.tlo 0) [] [Mx.rel 2] [(2, { claim := some 1, queue := [2, 3] })] {} [
                (2, act Mx.mv { status := .wait (.claim 2 100) })]).bankVf (2 : BitVec 4).toNat).getD 0),
        ((pickOb ((Mx.mq (Mx.tlo 0) [] [Mx.rel 2] [(2, { claim := some 1, queue := [2, 3] })] {} [
                  (2, act Mx.mv { status := .wait (.claim 2 100) })]).obsOf (Mx.mq (Mx.tlo 0) [] [Mx.rel 2] [(2, { claim := some 1, queue := [2, 3] })] {} [
                  (2, act Mx.mv { status := .wait (.claim 2 100) })]).core (Mx.mq (Mx.tlo 0) [] [Mx.rel 2] [(2, { claim := some 1, queue := [2, 3] })] {} [
                  (2, act Mx.mv { status := .wait (.claim 2 100) })]).slot) .release (BitVec.ofNat 64 (2 ^ 63 + (Mx.mq (Mx.tlo 0) [] [Mx.rel 2] [(2, { claim := some 1, queue := [2, 3] })] {} [
                    (2, act Mx.mv { status := .wait (.claim 2 100) })]).core * 2 ^ 32 + (2 : BitVec 4).toNat))).getD { obj := 0, kind := .put, rank := 0 }),
        ((((Mx.mq (Mx.tlo 0) [] [Mx.rel 2] [(2, { claim := some 1, queue := [2, 3] })] {} [
                  (2, act Mx.mv { status := .wait (.claim 2 100) })]).bay (Mx.mq (Mx.tlo 0) [] [Mx.rel 2] [(2, { claim := some 1, queue := [2, 3] })] {} [
                  (2, act Mx.mv { status := .wait (.claim 2 100) })]).core (((Mx.mq (Mx.tlo 0) [] [Mx.rel 2] [(2, { claim := some 1, queue := [2, 3] })] {} [
                      (2, act Mx.mv { status := .wait (.claim 2 100) })]).physBay (Mx.mq (Mx.tlo 0) [] [Mx.rel 2] [(2, { claim := some 1, queue := [2, 3] })] {} [
                      (2, act Mx.mv { status := .wait (.claim 2 100) })]).bankVf (2 : BitVec 4).toNat).getD 0)).queue).headD 0),
        ((((Mx.mq (Mx.tlo 0) [] [Mx.rel 2] [(2, { claim := some 1, queue := [2, 3] })] {} [
                  (2, act Mx.mv { status := .wait (.claim 2 100) })]).bay (Mx.mq (Mx.tlo 0) [] [Mx.rel 2] [(2, { claim := some 1, queue := [2, 3] })] {} [
                  (2, act Mx.mv { status := .wait (.claim 2 100) })]).core (((Mx.mq (Mx.tlo 0) [] [Mx.rel 2] [(2, { claim := some 1, queue := [2, 3] })] {} [
                      (2, act Mx.mv { status := .wait (.claim 2 100) })]).physBay (Mx.mq (Mx.tlo 0) [] [Mx.rel 2] [(2, { claim := some 1, queue := [2, 3] })] {} [
                      (2, act Mx.mv { status := .wait (.claim 2 100) })]).bankVf (2 : BitVec 4).toNat).getD 0)).queue).tail),
        by decide +kernel⟩,
    ⟨Pl.s0, .always, 4, by decide +kernel⟩,
    ⟨(Mx.mq (Mx.tlo 0) [{ cmd := Mx.tlo 0, seq := 3 }]), .always, 2, by decide +kernel⟩,
    ⟨(Mx.mq (Mx.tlo 0) [{ cmd := Mx.tlo 0, seq := 3 }]), .always, 1, by decide +kernel⟩⟩

/-- States and operands that meet the hypotheses of `Obligations.MatrixCommands`, clause by clause. -/
theorem witness_MatrixCommands :
    (
        ∃ (s : State) (c : _) (v : _) (st : _) (q : _) (code : _) (detail : _),
        s.mxReady c v st = some q ∧ s.mxNext c = some v ∧ cmdNotify q.cmd = false ∧
        s.mxChecks c v q.cmd = some (code, detail) ∧ cmdType q.cmd ≠ 1 ∧ cmdType q.cmd ≤ 8 ∧
        0 < cmdType q.cmd ∧ (s.vfOf c v).mxErr = 0 ∧ code ≠ 0 ∧ (q.begun = false ∨ (s.coreOf c).mxRetired = true)) ∧
    (
        ∃ (s : State) (c : _) (v : _) (st : _) (q : _),
        s.mxReady c v st = some q ∧ s.mxNext c = some v ∧ cmdNotify q.cmd = false ∧
        s.mxChecks c v q.cmd = none ∧ q.begun = false ∧ (cmdType q.cmd = 1 ∨ cmdType q.cmd = 2 ∨ cmdType q.cmd = 6)) ∧
    (
        ∃ (s : State) (c : _) (v : _) (st : _) (q : _) (p : _) (l : _),
        s.mxReady c v st = some q ∧ s.mxNext c = some v ∧ cmdNotify q.cmd = false ∧
        s.mxChecks c v q.cmd = none ∧ q.begun = true ∧ cmdType q.cmd = 1 ∧ s.physBay v (cmdA q.cmd) = some p ∧
        l = rowBytes (cmdField q.cmd 1 3 0) (cmdNb q.cmd) ∧ cmdLayout q.cmd = 0) ∧
    (
        ∃ (s : State) (c : _) (v : _) (st : _) (q : _) (p : _),
        s.mxReady c v st = some q ∧ s.mxNext c = some v ∧ cmdNotify q.cmd = false ∧
        s.mxChecks c v q.cmd = none ∧ q.begun = true ∧ cmdType q.cmd = 2 ∧ s.physAcc v (cmdAcc q.cmd) = some p ∧ cmdLayout q.cmd = 0 ∧
        s.waiters = []) ∧
    (
        ∃ (s : State) (c : _) (v : _) (st : _) (q : _) (p : _) (a : _) (b : _),
        s.mxReady c v st = some q ∧ s.mxNext c = some v ∧ cmdNotify q.cmd = false ∧
        s.mxChecks c v q.cmd = none ∧ cmdType q.cmd = 3 ∧ s.physAcc v (cmdAcc q.cmd) = some p ∧
        s.vfBay c v (cmdA q.cmd) = some a ∧ s.vfBay c v (cmdB q.cmd) = some b) ∧
    (
        ∃ (s : State) (c : _) (v : _) (st : _) (q : _) (p : _) (a : _) (b0 : _) (b1 : _) (half : _),
        s.mxReady c v st = some q ∧ s.mxNext c = some v ∧ cmdNotify q.cmd = false ∧
        s.mxChecks c v q.cmd = none ∧ cmdType q.cmd = 4 ∧ s.physAcc v (cmdAcc q.cmd) = some p ∧
        s.vfBay c v (cmdA q.cmd) = some a ∧ s.vfBay c v (cmdB q.cmd) = some b0 ∧ s.vfBay c v (cmdB q.cmd + 1) = some b1 ∧
        half = fmtKmax (cmdField q.cmd 1 3 0) / 32) ∧
    (
        ∃ (s : State) (c : _) (v : _) (st : _) (q : _) (p : _),
        s.mxReady c v st = some q ∧ s.mxNext c = some v ∧ cmdNotify q.cmd = false ∧ s.mxChecks c v q.cmd = none ∧
        cmdType q.cmd = 5 ∧ s.physAcc v (cmdAcc q.cmd) = some p) ∧
    (
        ∃ (s : State) (c : _) (v : _) (st : _) (q : _),
        s.mxReady c v st = some q ∧ s.mxNext c = some v ∧ cmdNotify q.cmd = false ∧ s.mxChecks c v q.cmd = none ∧ q.begun = true ∧
        cmdType q.cmd = 6) ∧
    (
        ∃ (s : State) (c : _) (v : _) (st : _) (q : _),
        s.mxReady c v st = some q ∧ s.mxNext c = some v ∧ cmdNotify q.cmd = false ∧ s.mxChecks c v q.cmd = none ∧ cmdType q.cmd = 8) ∧
    (
        ∃ (s : State) (c : _) (v : _) (st : _) (q : _) (x : _),
        s.mxReady c v st = some q ∧ s.mxNext c = some v ∧ cmdType q.cmd = 7 ∧
        cmdNotify q.cmd = true ∧ s.mxChecks c v q.cmd = none ∧ s.waiters = [] ∧ s.windowPlace c v (cmdAddr q.cmd 14) = some x) :=
  ⟨⟨(Mx.mc (Mx.cm [7])), 0, 0, 0, { cmd := Mx.cm [7], seq := 3 }, 0x42, 0, by decide +kernel⟩,
    ⟨(Mx.mc (Mx.cm [1, 0x100C, 0x80]) [(0, Mx.cl)]), 0, 0, 0, { cmd := Mx.cm [1, 0x100C, 0x80], seq := 3 }, by decide +kernel⟩,
    ⟨(Mx.mb (Mx.cm [1, 0x100C, 0x80]) [(0, Mx.cl)]), 0, 0, 0, { cmd := Mx.cm [1, 0x100C, 0x80], seq := 3, begun := true }, 0, 16,
        by decide +kernel⟩,
    ⟨(Mx.mb (Mx.cm [2 + 0x1000000, 0, 0x100]) [] [(1, { vals := [(3, 7), (4, 9), (1023, 11)] })]), 0, 0, 0,
        { cmd := Mx.cm [2 + 0x1000000, 0, 0x100], seq := 3, begun := true }, 1, by decide +kernel⟩,
    ⟨Mx3.s3, 0, 0, 0, Mx3.q3, 0, ((Mx3.s3.vfBay 0 0 (cmdA Mx3.q3.cmd)).getD {}), ((Mx3.s3.vfBay 0 0 (cmdB Mx3.q3.cmd)).getD {}),
        by decide +kernel⟩,
    ⟨Mx3.s4, 0, 0, 0, Mx3.q4, 0, ((Mx3.s4.vfBay 0 0 (cmdA Mx3.q4.cmd)).getD {}), ((Mx3.s4.vfBay 0 0 (cmdB Mx3.q4.cmd)).getD {}),
        ((Mx3.s4.vfBay 0 0 (cmdB Mx3.q4.cmd + 1)).getD {}), (fmtKmax (cmdField Mx3.q4.cmd 1 3 0) / 32), by decide +kernel,
        by decide +kernel, by decide +kernel, Mx3.checksGood, by and_intros <;> decide +kernel⟩,
    ⟨(Mx.mc (Mx.cm [5 + 0x1000000]) [] [(1, { vals := [(3, 7), (4, 9), (1023, 11)] })]), 0, 0, 0,
        { cmd := Mx.cm [5 + 0x1000000], seq := 3 }, 1, by decide +kernel⟩,
    ⟨(Mx.mb (Mx.cm [6, 0x80, 0x80, 0, 0x40])), 0, 0, 0, { cmd := Mx.cm [6, 0x80, 0x80, 0, 0x40], seq := 3, begun := true },
        by decide +kernel⟩,
    ⟨(Mx.mc (Mx.cm [8])), 0, 0, 0, { cmd := Mx.cm [8], seq := 3 }, by decide +kernel⟩,
    ⟨(Mx.mc Mx.nt), 0, 0, 1, { cmd := Mx.nt, seq := 3 }, ({ pa := P + 0x40, kind := .window } : Place), by decide +kernel⟩⟩

/-- States and operands that meet the hypotheses of `Obligations.CountersModes`, clause by clause. -/
theorem witness_CountersModes :
    (∃ (s : State) (g : Pred) (j : Nat), s.acts g = true ∧ s.slot ≠ 0 ∧ j < 8) ∧
    (∃ (s : State) (g : Pred), s.acts g = true ∧ s.slot ≠ 0 ∧ s.slot ≠ 15) ∧
    (
        ∃ (s : State) (g : Pred) (vfScope : Bool) (s2 : _),
        s.acts g = true ∧ s.slot ≠ 0 ∧ s.cur.pl ≠ 0 ∧ s.release .module = some s2 ∧ (
          ∀ q ∈ s2.slotsOf s.bankVf (if vfScope then none else some s.cur.tenant.toNat), (s2.slotOf q.1 q.2).inFlight = false)) ∧
    (
        ∃ (s : State) (g : Pred),
        s.acts g = true ∧ (s.slot = 0 ∨ (s.clus (clusterOf s.core)).kcfg.getLsbD 0 = false ∨ (s.clus (clusterOf s.core)).kcfg.getLsbD (8 + s.bankVf) = false)) ∧
    (
        ∃ (s : State) (g : Pred),
        s.acts g = true ∧ s.slot ≠ 0 ∧ (s.clus (clusterOf s.core)).kcfg.getLsbD 0 = true ∧ (s.clus (clusterOf s.core)).kcfg.getLsbD (8 + s.bankVf) = true ∧ (s.clus (clusterOf s.core)).halting = false ∧ (s.clus (clusterOf s.core)).halted = false) ∧
    (
        ∃ (s : State) (g : Pred),
        s.acts g = true ∧ s.cur.pl = 2 ∧ (s.clus (clusterOf s.core)).halting = false ∧ (s.clus (clusterOf s.core)).halted = false) ∧
    (∃ (s : State), s.cur.pl ≠ 2) :=
  ⟨⟨Pl.s0, .always, 7, by decide +kernel⟩,
    ⟨Cn.st, .always, by decide +kernel⟩,
    ⟨(Cn.st { pl := 1 } 1 {
            utlb := [⟨0, 0, 1, 12, 0x1000, .near, 0, true, true, true, false⟩, ⟨0, 1, 1, 12, 0x1000, .near, 0, true, true, true, false⟩] }),
        .always, false,
        (((Cn.st { pl := 1 } 1 {
                utlb := [⟨0, 0, 1, 12, 0x1000, .near, 0, true, true, true, false⟩, ⟨0, 1, 1, 12, 0x1000, .near, 0, true, true, true, false⟩] }).release .module).getD {}),
        by decide +kernel⟩,
    ⟨(Cn.kc 0x100), .always, by decide +kernel⟩,
    ⟨(Cn.kc 0x101), .always, by decide +kernel⟩,
    ⟨(Cn.st { pl := 2 }), .always, by decide +kernel⟩,
    ⟨(Cn.st { pl := 1 }), by decide +kernel⟩⟩

set_option synthInstance.maxSize 1000 in
/-- States and operands that meet the hypotheses of `Obligations.Launches`, clause by clause. -/
theorem witness_Launches :
    (
        ∃ (s : State) (d : _) (hq : _) (v : _) (tenant : _) (q : _) (n : _) (p : _),
        s.headPacket d hq = some (v, tenant, q, n, p, none) ∧ s.outranked d hq v (field (pkt p 5) 31 28) = false) ∧
    (
        ∃ (s : State) (v : _) (tenant : _) (p : _),
        (pkt p 1 = 0 ∨ (s.complPlace v tenant (pkt p 1)).isSome = true) ∧ (field (pkt p 5) 27 24 = 0 ∨ 8 < field (pkt p 5) 27 24)) ∧
    (
        ∃ (s : State) (v : _) (tenant : _) (p : _) (g : _),
        (pkt p 1 = 0 ∨ (s.complPlace v tenant (pkt p 1)).isSome = true) ∧ 1 ≤ field (pkt p 5) 27 24 ∧
        field (pkt p 5) 27 24 ≤ 8 ∧ g < field (pkt p 5) 27 24 ∧ 3 < field (pkt p (8 + g)) 2 0 ∧ (∀ i < g, field (pkt p (8 + i)) 2 0 ≤ 3)) ∧
    (
        ∃ (s : State) (l : _) (g : _) (x : _) (i : _) (c : _) (k : _) (m : _),
        s.mayRelease l g = true ∧ s.launches.look l = some x ∧ x.stages[g]? = some i ∧
        i.cores.Nodup ∧ i.cores[m]? = some c ∧ m < i.w * i.h ∧ s.firstSlot c x.vf = some k) ∧
    (∃ (s : State) (l : _) (x : _), s.launches.look l = some x ∧ s.maySweep x = true) ∧
    (
        ∃ (s : State) (v : _) (pasid : BitVec 20) (w : Word) (d : VqDesc),
        v < 8 ∧ s.lodge.up = true ∧ d = s.vqDesc v (field w 20 16) (field w 15 0) ∧ (s.tenantValid v (field w 20 16) = false ∨ pasid.toNat ≠ s.pasid v (field w 20 16) ∨ (d.valid = false ∧
            s.frontGone v (field w 20 16) (s.vqBase v (field w 20 16) (field w 15 0)) 32 = none))) ∧
    (
        ∃ (s : State) (v : _) (pasid : BitVec 20) (w : Word) (d : VqDesc),
        v < 8 ∧ s.lodge.up = true ∧ d = s.vqDesc v (field w 20 16) (field w 15 0) ∧ s.tenantValid v (field w 20 16) = true ∧
        pasid.toNat = s.pasid v (field w 20 16) ∧ d.valid = true ∧ s.frontGone v (field w 20 16) (s.vqBase v (field w 20 16) (field w 15 0)) 32 = none ∧ (field w 63 32 + 2 ^ 32 - d.head) % 2 ^ 32 ≤ 2 ^ d.log2n ∧ (s.vqTail v (field w 20 16) (field w 15 0) + 2 ^ 32 - d.head) % 2 ^ 32 < (field w 63 32 + 2 ^ 32 - d.head) % 2 ^ 32) ∧
    (
        ∃ (s : State) (v : _) (tenant : _) (q : _) (die : _) (hq : _),
        v < 8 ∧ s.takeGone v tenant q = none ∧ s.waiting v tenant q = true ∧
        s.residency v tenant q = [] ∧ (s.vqDesc v tenant q).die = die ∧ s.vfIsUp v = true ∧ s.hwqMask v die ≠ 0 ∧
        s.placeFor v die = some hq ∧ die < 4 ∧ hq < 48 ∧ tenant < 32 ∧ q < 65536) :=
  ⟨⟨Lq.s1, 0, 0, 0, 0, 0, 1, (((Lq.s1.headPacket 0 0).getD (0, 0, 0, 0, [], none)).2.2.2.2.1), by decide +kernel⟩,
    ⟨Lq.s1, 0, 0, [0, 0, 0, 0, 0, 0], by decide +kernel⟩,
    ⟨Lq.s1, 0, 0, [0, 0, 0, 0, 0, BitVec.ofNat 64 (2 * 2 ^ 24), 0, 0, BitVec.ofNat 64 (Lq.inf 0 0 0 2 1 5), 5], 1, by decide +kernel⟩,
    ⟨Lq.s2, 0, 0,
        ((Lq.s2.launches.look 0).getD {
            vf := 0, tenant := 0, die := 0, hq := 0, num := 0, stat := 0, image := 0, compl := 0, fsa := 0, fsb := 0, maxpt := 0, hbi := 0,
            guardian := 0, bayrank := 0, stages := [] }),
        ((((Lq.s2.launches.look 0).getD {
                vf := 0, tenant := 0, die := 0, hq := 0, num := 0, stat := 0, image := 0, compl := 0, fsa := 0, fsb := 0, maxpt := 0,
                hbi := 0, guardian := 0, bayrank := 0, stages := [] }).stages[0]?).getD {
            die := 0, x := 0, y := 0, w := 0, h := 0, bar := false, rank := 0, entry := 0 }), 1, 1, 1, by decide +kernel⟩,
    ⟨Lq.s4, 0,
        ((Lq.s4.launches.look 0).getD {
            vf := 0, tenant := 0, die := 0, hq := 0, num := 0, stat := 0, image := 0, compl := 0, fsa := 0, fsb := 0, maxpt := 0, hbi := 0,
            guardian := 0, bayrank := 0, stages := [] }), by decide +kernel⟩,
    ⟨Lq.sd, 0, 1, (BitVec.ofNat 64 (2 * 2 ^ 32)), (Lq.sd.vqDesc 0 0 0), by decide +kernel⟩,
    ⟨Lq.sd, 0, 0, (BitVec.ofNat 64 (17 * 2 ^ 32)), (Lq.sd.vqDesc 0 0 0), by decide +kernel⟩,
    ⟨Lq.sp, 0, 0, 0, 0, 1, by decide +kernel⟩⟩

/-- States and operands that meet the hypotheses of `Obligations.Clocks`, clause by clause. -/
theorem witness_Clocks :
    (∃ (s : State) (i : _) (d : _), s.stepDue i = some d) ∧
    (∃ (s : State) (i : _) (d : _), s.relockDue i = some d) ∧
    (∃ (s : State) (i : _) (d : _), i < 32 ∧ d = s.tickOf ((s.time / 1024 + 1) * 1024)) ∧
    (∃ (x : Island) (ns : _), x.ncyc0 / 65536 ≤ ns * 18 / 5) ∧
    (∃ (x : Island) (ns : _), ns * 18 / 5 < x.ncyc0 / 65536) ∧
    (∃ (s : State) (i : _) (d : _), s.heldDue i = some d) ∧
    (∃ (ppm : Int), ppm ≠ 0 ∧ ppm.natAbs ≤ 100) ∧
    (∃ (s : State) (ppm : Int), 100 < ppm ∧ (∀ p ∈ s.launches, p.2.released = 0)) ∧
    (∃ (s : State) (i : _), i < 32 ∧ (s.isl i).powered = false) :=
  ⟨⟨(Cn.isl { reqs := [(0, 3)] }), 3, (((Cn.isl { reqs := [(0, 3)] }).stepDue 3).getD 0), by decide +kernel⟩,
    ⟨(Cn.isl { relock := true, target := 2, lastStep := some 4 }), 3,
        (((Cn.isl { relock := true, target := 2, lastStep := some 4 }).relockDue 3).getD 0), by decide +kernel⟩,
    ⟨Cn.st, 0, ((Cn.st).tickOf (((Cn.st).time / 1024 + 1) * 1024)), by decide +kernel⟩,
    ⟨{ ncyc0 := 65536 * 10 }, 77, by decide +kernel⟩,
    ⟨{ ncyc0 := 65536 * 1000, held := false }, 77, by decide +kernel⟩,
    ⟨{ Cn.st with islands := [(3, { held := true, ncyc0 := 65536 * 10005 })] }, 3,
        (({ Cn.st with islands := [(3, { held := true, ncyc0 := 65536 * 10005 })] }.heldDue 3).getD 0), by decide +kernel⟩,
    ⟨100, by decide +kernel⟩,
    ⟨Cn.st, 101, by decide +kernel⟩,
    ⟨{ Cn.st with islands := [(3, { powered := false, cyc0 := 45 })] }, 3, by decide +kernel⟩⟩

/-- States and operands that meet the hypotheses of `Obligations.TurnEdges`, clause by clause. -/
theorem witness_TurnEdges :
    (∃ (s : State) (v : _) (a : _) (d : _), s.leadDue v = some d ∧ s.outgoing v = some a) ∧
    (∃ (s : State) (v : _) (a : _) (d : _), s.stopDue v = some d ∧ s.outgoing v = some a) ∧
    (∃ (s : State) (v : _) (d : _), s.restoreDue v = some d ∧ (s.advance d).savesDone v = true) ∧
    (∃ (s : State) (d : _), s.boundaryDue false = some d) ∧
    (∃ (s : State) (d : _), s.band.started = true ∧ s.boundaryDue true = some d) ∧
    (∃ (s : State) (d : _), s.band.started = false ∧ s.boundaryDue true = some d) ∧
    (∃ (s : State) (v : _) (d : _) (e : _), s.donationDue v = some d ∧ e = s.rowEntry v) ∧
    (
        ∃ (s : State) (r : _) (d : _) (cap : _) (total : _),
        r < 5 ∧ d < 4 ∧ cap ≤ 1024 ∧ total = ((List.range 8).map fun v => s.lmin v r d).sum) :=
  ⟨⟨Te.st, 0, 0, ((Te.st.leadDue 0).getD 0), by decide +kernel⟩,
    ⟨Te.st, 0, 0, ((Te.st.stopDue 0).getD 0), by decide +kernel⟩,
    ⟨(Te.st Te.b2), 0, (((Te.st Te.b2).restoreDue 0).getD 0), by decide +kernel⟩,
    ⟨Te.st, ((Te.st.boundaryDue false).getD 0), by decide +kernel⟩,
    ⟨(Te.st Te.b3), (((Te.st Te.b3).boundaryDue true).getD 0), by decide +kernel⟩,
    ⟨Te.s5, ((Te.s5.boundaryDue true).getD 0), by decide +kernel⟩,
    ⟨(Te.st Te.b6), 0, (((Te.st Te.b6).donationDue 0).getD 0), ((Te.st Te.b6).rowEntry 0), by decide +kernel⟩,
    ⟨(Te.st Te.b7), 1, 0, 500, (((List.range 8).map fun v => (Te.st Te.b7).lmin v 1 0).sum), by decide +kernel⟩⟩

/-- States and operands that meet the hypotheses of `Obligations.HostRegisters`, clause by clause. -/
theorem witness_HostRegisters :
    (∃ (s : State) (v : _), v < 8 ∧ s.lodge.minimal = false ∧ s.lodge.up = true) ∧
    (∃ (s : State) (v : _) (off : _) (m : _), v < 8 ∧ s.pfOn = true ∧ partMask off = some m) ∧
    (∃ (s : State) (e : _), e < 192 ∧ s.pfOn = true) ∧
    (∃ (s : State) (off : _) (m : _), off % 8 = 0 ∧ s.pfOn = true ∧ pfPlain off = some m) ∧
    (∃ (s : State) (v : _) (off : _) (m : _), v < 8 ∧ s.lodge.up = true ∧ off % 8 = 0 ∧ vfPlain off = some m) ∧
    (
        ∃ (s : State) (v : _) (h : _) (c : _) (k : _),
        v < 8 ∧ s.lodge.up = true ∧ s.byHandle h = some (c, k) ∧ k ≠ 15 ∧ (s.slotOf c k).vfid.toNat = v ∧ (s.slotOf c k).status = .run) ∧
    (
        ∃ (s : State) (v : _) (h : _) (c : _) (k : _),
        v < 8 ∧ s.lodge.up = true ∧ s.byHandle h = some (c, k) ∧ (s.slotOf c k).vfid.toNat = v ∧ (s.slotOf c k).status = .parked 2) ∧
    (
        ∃ (s : State) (v : _) (c : BitVec 13) (l : _) (x : _),
        v < 8 ∧ s.lodge.up = true ∧ validCore c.toNat = true ∧ s.gangLaunch v c.toNat = some l ∧ s.launches.look l = some x) ∧
    (∃ (s : State) (v : _) (c : _), v < 8 ∧ c < 4 ∧ s.lodge.up = true) ∧
    (∃ (s : State) (v : _) (j : _), v < 8 ∧ j < 8 ∧ s.lodge.up = true) :=
  ⟨⟨Te.st, 5, by decide +kernel⟩,
    ⟨Te.st, 0, 8, 0x7FFE, by decide +kernel⟩,
    ⟨(Te.st Te.bnd {} 1 {} [(0x130, 7)]), 2, by decide +kernel⟩,
    ⟨Te.st, 0x500, 0x07FF07FF07FF07FF, by decide +kernel⟩,
    ⟨Te.st, 3, 0x508, 0x11F, by decide +kernel⟩,
    ⟨(Te.st Te.bnd { gen := 9 }), 0, Te.hd, 0, 1, by decide +kernel⟩,
    ⟨Te.pk, 0, Te.hd, 0, 1, by decide +kernel⟩,
    ⟨Te.kg, 0, 0, 1, (Te.lau 2), by decide +kernel⟩,
    ⟨Te.st, 0, 3, by decide +kernel⟩,
    ⟨{ Te.st with vfb := [(0x108, 0x8000000000000004)], samples := [(8 + 3, 0x1234567890)] }, 0, 3, by decide +kernel⟩⟩

/-- States and operands that meet the hypotheses of `Obligations.ErrorsRepairs`, clause by clause. -/
theorem witness_ErrorsRepairs :
    (∃ (s : State) (a : _) (w : _), w = a / 8 * 8 ∧ isMemory w = true ∧ (∀ x ∈ s.waiters, x.pa ≠ w)) ∧
    (∃ (s : State) (c : _) (k : _), (s.slotOf c k).holds = true) ∧
    (∃ (v : _), v < 8) ∧
    (∃ (s : State) (d : _) (b : _) (n : _), d < 4 ∧ ((s.die d).busShifts.look b).getD 0 = n ∧ n < 4 ∧ b ∉ (s.die d).busRetired) ∧
    (∃ (s : State) (d : _) (b : _), (∀ q ∈ s.faultQ, (busOf q.pa ≠ b ∨ homeDie q.pa ≠ d) ∧ s.isUnavail q.pa = true) ∧ NoHeldSpills s) ∧
    (
        ∃ (s : State) (d : _) (b : _) (q : _),
        s.faultQ = [q] ∧ busOf q.pa = b ∧ homeDie q.pa = d ∧ s.pageGone q.pa = false ∧
        q.by' = .slot ∧ NoHeldSpills s ∧ (s.slotOf q.core q.slot).status = .wait (.fetch q.pa)) ∧
    (∃ (s : State) (d : _) (b : _) (n : _), ((s.die d).busShifts.look b).getD 0 = n ∧ 4 ≤ n ∧ b ∉ (s.die d).busRetired) ∧
    (∃ (s : State) (c : _), validCore c = true ∧ (s.coreOf c).mxRetired = false) ∧
    (∃ (s : State) (d : _) (ch : _), d < 4 ∧ ch < 16 ∧ ch ∉ (s.die d).chanRetired) ∧
    (∃ (s : State) (n : _), n < 384 ∧ (s.clus n).retired = false) ∧
    (∃ (s : State) (a : _) (b : _), linked a b = true ∧ (a, b) ∉ s.linksRetired ∧ (b, a) ∉ s.linksRetired) ∧
    (
        ∃ (s : State) (p : _),
        p < 16 ∧ (s.port p).retired = false ∧ (s.port p).training = false ∧ (s.port p).rate < 2 ∧ 64 < (s.recentReplays p).length) ∧
    (∃ (s : State) (p : _), p < 16 ∧ (s.port p).training = true) ∧
    (∃ (s : State) (p : _), p < 16 ∧ (s.port p).retired = false ∧ (s.port p).rate = 2) :=
  ⟨⟨Er.st, (P + 0x43), ((P + 0x43) / 8 * 8), by decide +kernel⟩,
    ⟨Er.st, 0, 1, by decide +kernel⟩,
    ⟨0, by decide +kernel⟩,
    ⟨Er.st, 0, 3, 0, by decide +kernel⟩,
    ⟨{ Er.st with dies := [(0, { busHeld := [3, 4] })] }, 0, 3, fun _ h => absurd h List.not_mem_nil, by decide +kernel⟩,
    ⟨Er.pf0, 0, (busOf 0x40000000), Er.pq, by decide +kernel, rfl, by and_intros <;> decide +kernel⟩,
    ⟨{ Er.st with dies := [(0, { busShifts := [(3, 4)], busHeld := [3] })] }, 0, 3, 4, by decide +kernel⟩,
    ⟨Er.st, 0, by decide +kernel⟩,
    ⟨Er.st, 0, 0, by decide +kernel⟩,
    ⟨Er.st, 0, by decide +kernel⟩,
    ⟨Er.st, 0, 1, by decide +kernel⟩,
    ⟨{ Er.st with ports := [(3, { recent := List.replicate 65 90000, rate := 1 })] }, 3, by decide +kernel⟩,
    ⟨{ Er.st with ports := [(3, { training := true, rate := 1 })] }, 3, by decide +kernel⟩,
    ⟨{ Er.st with ports := [(3, { training := true, rate := 2 })] }, 3, by decide +kernel⟩⟩

/-- States and operands that meet the hypotheses of `Obligations.Boundaries`, clause by clause. -/
theorem witness_Boundaries :
    (
        ∃ (s : State) (c : _) (k : _) (x : _),
        x = s.slotOf c k ∧ k ≠ 0 ∧ x.hbi ≠ 0 ∧ x.hbi.toNat ≤ x.hbc.toNat ∧ s.entitled c k = true ∧ x.kill = none ∧
        s.landedIn c k (.sys .hbi) = true) ∧
    (
        ∃ (s : State) (c : _) (k : _) (x : _),
        x = s.slotOf c k ∧ k ≠ 15 ∧ s.atBoundary c k = true ∧ x.hbPend = true ∧ x.ih = false ∧ x.replyFault = none ∧ x.ptgap = none) ∧
    (
        ∃ (s : State) (c : _) (k : _) (x : _),
        x = s.slotOf c k ∧ (x.preLead = true ∨ x.prePreempt = true) ∧ x.maxpt.toNat < x.ptc.toNat ∧ x.holds = true ∧
        x.ptgap = none ∧ s.landedIn c k (.sys .maxpt) = true) ∧
    (
        ∃ (s : State) (c : _) (k : _) (x : _) (n : _),
        x = s.slotOf c k ∧ k ≠ 15 ∧ s.atBoundary c k = true ∧ x.status = .run ∧ x.ptgap = some n ∧ x.ih = false ∧ x.replyFault = none) ∧
    (
        ∃ (s : State) (c : _) (k : _) (x : _) (cause : _) (v : _),
        x = s.slotOf c k ∧ k ≠ 15 ∧ s.atBoundary c k = true ∧ x.status = .run ∧ x.replyFault = some (cause, v)) ∧
    (∃ (s : State) (c : _) (k : _) (r : _), (s.slotOf c k).kill = some r ∧ k ≠ 0 ∧ s.frozen c = false) ∧
    (∃ (s : State) (c : _) (k : _), (s.slotOf c k).status = .scrub) ∧
    (∃ (s : State) (c : _) (r : _), (s.slotOf c 0).kill = some r) ∧
    (∃ (s : State), s.slot ≠ 15 ∧ s.cur.ih = false) ∧
    (
        ∃ (s : State) (x : _) (r : _) (e : _),
        s.saved = [x] ∧ x.late = some (.tupleSent r) ∧ x.act.ih = false ∧ x.act.kill = none ∧
        x.slot ≠ 15 ∧ s.ts = [e] ∧ e.device = false ∧ e.parked = false ∧ e.core = x.core ∧
        e.slot = x.slot ∧ e.gen = x.act.gen ∧ (s.slotOf x.core x.slot).gen ≠ x.act.gen ∧
        s.isUnavail (regionPa e.region) = false ∧ s.regionLive e.region e.vf = false) ∧
    (
        ∃ (s : State) (h : _) (w : _) (d : _) (ea : _) (pa : _) (pr : _) (rank : _),
        s.homeUsed h < 256 ∧ (s.waiters.find? fun w => w.home == h && w.held && !s.heldHome w.pa) = some w ∧ w.req = .lds d ea pa pr rank) ∧
    (∃ (s : State) (d : Nat) (i : Nat) (v : Inval), (s.die d).invals[i]? = some v) ∧
    (∃ (s : State) (d : Nat) (i : Nat) (v : Inval), (s.die d).acks[i]? = some v) ∧
    (∃ (p : _), rangeOf (p * 4096) ≠ .unmapped) ∧
    (∃ (s : State) (p : _), s.pageGone (p * 4096) = true ∧ (∀ q ∈ s.faultQ, q.pa / 4096 ≠ p ∧ s.isUnavail q.pa = true) ∧ NoHeldSpills s) ∧
    (
        ∃ (s : State) (p : _) (q : _),
        s.pageGone (p * 4096) = true ∧ s.faultQ = [q] ∧ q.pa / 4096 = p ∧ q.by' = .slot ∧
        s.busHolds q.pa = false ∧ NoHeldSpills s ∧ (s.slotOf q.core q.slot).status = .wait (.fetch q.pa)) :=
  ⟨⟨(Er.bd { status := .run, hbi := 5, hbc := 5 }), 0, 1, { act Er.mv { hbi := 5, hbc := 5 } with status := .run }, by decide +kernel⟩,
    ⟨(Er.bd { status := .run, hbi := 5, hbPend := true }), 0, 1, { act Er.mv { hbi := 5, hbPend := true } with status := .run },
        by decide +kernel⟩,
    ⟨(Er.bd { status := .run, ptc := 5, maxpt := 4, preLead := true }), 0, 1,
        { act Er.mv { ptc := 5, maxpt := 4, preLead := true } with status := .run }, by decide +kernel⟩,
    ⟨(Er.bd { status := .run, ptgap := some 77 }), 0, 1, { act Er.mv { ptgap := some 77 } with status := .run }, 77, by decide +kernel⟩,
    ⟨(Er.bd { status := .run, replyFault := some (.poison, 77) }), 0, 1,
        { act Er.mv { replyFault := some (.poison, 77) } with status := .run }, .poison, 77, by decide +kernel⟩,
    ⟨(Er.bd { status := .run, kill := some ⟨.double, 5, 6⟩ }), 0, 1, (⟨.double, 5, 6⟩), by decide +kernel⟩,
    ⟨(Er.bd { status := .scrub }), 0, 1, by decide +kernel⟩,
    ⟨(Er.bd { status := .run, kill := some ⟨.double, 5, 6⟩ } 0), 0, (⟨.double, 5, 6⟩), by decide +kernel⟩,
    ⟨Er.st, by decide +kernel⟩,
    ⟨Ki.sl, Ki.sv, none, Ki.te, by decide +kernel⟩,
    ⟨(Ki.sw []), 5, (Ki.wt true), (.priv 9), 0x40, (P + 0x40), false, 5, by decide +kernel⟩,
    ⟨{ Ki.st with dies := [(0, { invals := [Ki.iv1] }), (1, { rdc := [(Ki.il, List.replicate 64 5)], rdcOwner := [(Ki.il, 0)] })] }, 0, 0,
        Ki.iv1, by decide +kernel⟩,
    ⟨{ Ki.st with dies := [(0, { acks := [Ki.iv1], sharers := [(Ki.il, 2)] })] }, 0, 0, Ki.iv1, by decide +kernel⟩,
    ⟨0x40000, by decide +kernel⟩,
    ⟨{ Ki.st with unavail := [0x40000] }, 0x40000, by decide +kernel⟩,
    ⟨Er.pf1, 0x40000, Er.pq, by decide +kernel⟩⟩

/-- States and operands that meet the hypotheses of `Obligations.KioskLodge`, clause by clause. -/
theorem witness_KioskLodge :
    (∃ (s : State) (n : _), n < 384 ∧ (s.clus n).halting = false ∧ (s.clus n).halted = false) ∧
    (∃ (s : State) (n : _), (s.clus n).halting = true ∧ s.haltReady n = true) ∧
    (∃ (s : State) (n : _), (s.clus n).halted = true) ∧
    (∃ (s : State) (c : _) (k : _) (st : _), s.traced k = true ∧ s.traceCode c k = st.toNat ∧ (s.coreOf c).traceState.look k ≠ some st) ∧
    (∃ (s : State) (v : _) (j : _) (w : _) (ns : _), v < 8 ∧ j < 8 ∧ s.pcselPend.look (8 * v + j) = some (w, ns)) ∧
    (∃ (s : State) (w : _) (ns : _), s.trctlPend = some (w, ns)) ∧
    (∃ (s : State) (d : _), d = (if s.time % 1024 = 0 ∧ s.sampled < s.time then s.now else s.tickOf ((s.time / 1024 + 1) * 1024))) ∧
    (∃ (s : State), s.pfOn = true ∧ s.lodge.updating = false) ∧
    (∃ (w : _), w ≠ 1) ∧
    (∃ (s : State), s.lodge.updating = true ∧ s.now ≤ s.lodge.since + 36000000000) ∧
    (∃ (s : State) (r : BitVec 8), s.lodge.updating = true ∧ (r = 2 ∨ r = 3)) ∧
    (∃ (s : State) (r : BitVec 8), 1 ≤ r.toNat ∧ r.toNat ≤ 6 ∧ s.lodge.clearReq = false) :=
  ⟨⟨Ki.st, 0, by decide +kernel⟩,
    ⟨{ Ki.st with clusters := [(2, { halting := true })] }, 2, by decide +kernel⟩,
    ⟨{ Ki.st with clusters := [(0, { halted := true })] }, 0, by decide +kernel⟩,
    ⟨{ Pl.s0 with pf := (0x9408, 0x101) :: part }, 0, 1, 4, by decide +kernel⟩,
    ⟨Ki.pp, 0, 3, 5, 2000, by decide +kernel⟩,
    ⟨{ Ki.st with trctlPend := some (0x10101, 200) }, 0x10101, 200, by decide +kernel⟩,
    ⟨Ki.ps, (Ki.ps.tickOf ((Ki.ps.time / 1024 + 1) * 1024)), by decide +kernel⟩,
    ⟨Ki.st, by decide +kernel⟩,
    ⟨2, by decide +kernel⟩,
    ⟨Ki.lu, by decide +kernel⟩,
    ⟨Ki.lu, 3, by decide +kernel⟩,
    ⟨Ki.st, 6, by decide +kernel⟩⟩

end Sys2Proof.Tests
end

section
/-! # Laws shared by the proofs of the machine's statements: folds that keep a part of the state, fields of words, and what caches and writes
at homes leave alone -/

namespace Sys2Proof.Machine

/-! ## Folds -/

/-- A fold whose every step keeps a part of its state keeps it. -/
theorem foldl_keeps {α β γ : Type} (p : β → γ) (f : β → α → β) (l : List α) (b : β) (h : ∀ b, ∀ a ∈ l, p (f b a) = p b) :
    p (l.foldl f b) = p b := by
  induction l generalizing b with
  | nil => rfl
  | cons a l ih => exact (ih (f b a) fun b x hx => h b x (List.mem_cons_of_mem a hx)).trans (h b a List.mem_cons_self)

/-- A fold whose every step is related by a reflexive and transitive relation is. -/
theorem foldl_relates {α β : Type} {r : β → β → Prop} (refl : ∀ b, r b b) (trans : ∀ {a b c}, r a b → r b c → r a c) (f : β → α → β)
    (step : ∀ b a, r b (f b a)) (l : List α) (b : β) : r b (l.foldl f b) := by
  induction l generalizing b with
  | nil => exact refl b
  | cons a l ih => exact trans (step b a) (ih (f b a))

/-! ## Fields of words (R3) -/

theorem field_lt (w : Word) (hi lo : Nat) : field w hi lo < 2 ^ (hi + 1 - lo) := Nat.mod_lt _ (Nat.two_pow_pos _)

/-- A field is the number of the bits it names. -/
theorem field_eq_toNat (w : Word) (hi lo n : Nat) (h : hi + 1 - lo = n) : field w hi lo = (w.extractLsb' lo n).toNat := by
  rw [field, h, BitVec.extractLsb'_toNat, Nat.shiftRight_eq_div_pow]

theorem ofNat_field_eq (w : Word) (hi lo n : Nat) (h : hi + 1 - lo = n) : BitVec.ofNat n (field w hi lo) = w.extractLsb' lo n := by
  rw [field_eq_toNat w hi lo n h, BitVec.ofNat_toNat, BitVec.setWidth_eq]

/-! ## What only caches notice (R163, R164) -/

/-- Nothing changes but the lines that L2s and RDCs hold, and the number of free values taken. -/
def CachesOnly (s t : State) : Prop := ∃ dies fresh, t = { s with dies := dies, fresh := fresh }

theorem CachesOnly.refl (s : State) : CachesOnly s s := ⟨s.dies, s.fresh, rfl⟩

theorem CachesOnly.trans {s t u : State} (h : CachesOnly s t) (h' : CachesOnly t u) : CachesOnly s u := by
  obtain ⟨_, _, rfl⟩ := h
  obtain ⟨d, f, rfl⟩ := h'
  exact ⟨d, f, rfl⟩

theorem CachesOnly.modDie (s : State) (d : Nat) (f : Die → Die) : CachesOnly s (s.modDie d f) := ⟨_, s.fresh, rfl⟩

theorem CachesOnly.l2Pass (s : State) (v pa : Nat) (write : Bool) : CachesOnly s (s.l2Pass v pa write).1 := by
  unfold State.l2Pass
  split
  · dsimp only
    split
    · exact .refl s
    · split <;> exact ⟨_, _, rfl⟩
  · exact .refl s

theorem CachesOnly.l2Touch (s : State) (v pa : Nat) (write : Bool) : CachesOnly s (s.l2Touch v pa write) := .l2Pass s v pa write

theorem CachesOnly.sendInvals (s : State) (core slot die line : Nat) : CachesOnly s (s.sendInvals core slot die line) :=
  foldl_relates .refl .trans _ (fun s d => .modDie s d _) _ s

theorem CachesOnly.invalArrive (s : State) (v : Inval) : CachesOnly s (s.invalArrive v) := ⟨_, s.fresh, rfl⟩

theorem CachesOnly.ackArrive (s : State) (v : Inval) : CachesOnly s (s.ackArrive v) := ⟨_, s.fresh, rfl⟩

theorem CachesOnly.flushInvals (s : State) (core slot : Nat) : CachesOnly s (s.flushInvals core slot) :=
  .trans (foldl_relates .refl .trans _ (fun s _ => foldl_relates .refl .trans _ .invalArrive _ s) _ s)
    (foldl_relates .refl .trans _ (fun s _ => foldl_relates .refl .trans _ .ackArrive _ s) _ _)

theorem CachesOnly.readHome (s : State) (c pa : Nat) : CachesOnly s (s.readHome c pa) := by
  unfold State.readHome
  split
  · exact .modDie ..
  · exact .refl s

/-! ## What a write at a home leaves alone (R164, R173, R178) -/

/-- Nothing changes but memory, the words that are poisoned, cached lines, and the number of free values taken. -/
def WritesOnly (s t : State) : Prop :=
  ∃ mem poison dies fresh, t = { s with mem := mem, poison := poison, dies := dies, fresh := fresh }

theorem WritesOnly.refl (s : State) : WritesOnly s s := ⟨s.mem, s.poison, s.dies, s.fresh, rfl⟩

theorem WritesOnly.trans {s t u : State} (h : WritesOnly s t) (h' : WritesOnly t u) : WritesOnly s u := by
  obtain ⟨_, _, _, _, rfl⟩ := h
  obtain ⟨m, p, d, f, rfl⟩ := h'
  exact ⟨m, p, d, f, rfl⟩

theorem CachesOnly.writes {s t : State} (h : CachesOnly s t) : WritesOnly s t := by
  obtain ⟨d, f, rfl⟩ := h
  exact ⟨s.mem, s.poison, d, f, rfl⟩

theorem WritesOnly.performAt (s : State) (die core slot : Nat) (cells : List (Nat × Byte)) :
    WritesOnly s (s.performAt die core slot cells) := by
  refine .trans (t := { s with mem := s.mem.patch cells, poison := s.poison.filter fun a => !(wholeWords cells).elem a }) ⟨_, _, _, _, rfl⟩
    (foldl_relates .refl .trans _ (fun s line => ?_) _ _)
  dsimp only
  generalize (if isRemote die line = true then (s.die die).rdc.look line else none) = copy
  have sent (u : State) (h : WritesOnly s u) : WritesOnly s (u.sendInvals core slot die line) := h.trans (CachesOnly.sendInvals ..).writes
  have near (o : State) (h : WritesOnly s o) : WritesOnly s (match rangeOf line with
      | .near _ | .far _ => o.sendInvals core slot die line
      | _ => o) := by
    split
    · exact sent o h
    · exact sent o h
    · exact h
  cases copy with
  | none => exact near s (.refl s)
  | some bs => exact near _ (CachesOnly.modDie s die _).writes

theorem WritesOnly.perform (s : State) (core slot : Nat) (cells : List (Nat × Byte)) : WritesOnly s (s.perform core slot cells) :=
  .performAt ..

theorem WritesOnly.performIo (s : State) (slot v : Nat) (cells : List (Nat × Byte)) : WritesOnly s (s.performIo slot v cells) :=
  .trans (foldl_relates .refl .trans _ (fun s _ => (CachesOnly.l2Touch s v _ true).writes) _ s) (.performAt ..)

end Sys2Proof.Machine
end

section
/-! # Tasks (O48)

The statement fails where the obligation that a FORK gave an activity stands in its spill area: TASKEND has to read the entry back before
it arrives at its join (R265), and the read is held while the VF's turn is donated (R311). The clauses on TASKEND with a join do not ask
that the obligation be unspilled. -/

namespace Sys2Proof.Machine

open Sys2Proof.Safety

/-- The ARRIVE of a join in a window of core 0, spilled to entry 0 of the activity's OBSPILL area (R242, R264). -/
def spilledArrive : Oblig :=
  { obj := 0x8000000000000040, kind := .arrive, rank := 0x60, holder := 1, fromFork := true, spill := some 0 }

/-- A task in slot 1 of core 0 that owes `spilledArrive`, on an active join of count 9, while the turn of its VF is donated. -/
def donatedTask : State :=
  { slot := 1, pf := [(0x110, 1)], mem := [(0x2000000040, 9), (0x2000000047, 0x13)], band := { effect := 1 },
    cores := [(0, { slots := [(1, { status := .run, obspill := 0x0400000040000000 })], obs := [spilledArrive] })] }

/-- The place of the join of `donatedTask`. -/
def donatedTaskJoin : Place := { pa := 0x2000000040, kind := .window }

/-- Nothing is buffered, so the release of `donatedTask` changes nothing (R181). -/
theorem donatedTask_release : donatedTask.release .module = some donatedTask := by decide +kernel

/-- TASKEND of `donatedTask` is held before any effect. -/
theorem donatedTask_taskend :
    exec (.taskend .always) donatedTask = .next (donatedTask.holdFor .donated) := by
  rfl

theorem donatedTask_held : ((donatedTask.holdFor .donated).slotOf 0 1).status = .wait .donated := by decide +kernel

/-- Refutes O48: the read of a spilled ARRIVE is held in a donated turn (R265, R311), so TASKEND waits and does not end. -/
theorem not_tasks : ¬ Obligations.Tasks := by
  unfold Obligations.Tasks
  rintro ⟨-, -, -, -, hend, -⟩
  obtain ⟨t, ht, hempty, -⟩ := hend donatedTask .always spilledArrive donatedTask donatedTask donatedTaskJoin false 0 9
    (by decide +kernel) (by decide +kernel) (by decide +kernel) (by decide +kernel) (by decide +kernel) (by decide +kernel)
    donatedTask_release (by decide +kernel) (by decide +kernel)
  rw [donatedTask_taskend] at ht
  obtain rfl : donatedTask.holdFor .donated = t := by injection ht
  obtain ⟨hstatus, -⟩ := hempty
  exact absurd (donatedTask_held.symm.trans hstatus) (by decide)

end Sys2Proof.Machine
end

section
/-! # What a release leaves alone (R163, R179, R181) -/

namespace Sys2Proof.Machine

/-- Nothing changes but what `WritesOnly` allows, full/empty bits, counts of events, and what slots have buffered. -/
structure Drains (s t : State) : Prop where
  outer : ∃ mem full poison dies fresh cores,
    t = { s with mem := mem, full := full, poison := poison, dies := dies, fresh := fresh, cores := cores }
  coreOf : ∀ c, ∃ slots vfs, t.coreOf c = { s.coreOf c with slots := slots, vfs := vfs }
  vfOf : ∀ c v, ∃ n, t.vfOf c v = { s.vfOf c v with pcnt := n }
  slotOf : ∀ c k, ∃ b, t.slotOf c k = { s.slotOf c k with storeBuf := b }

namespace Drains

theorem refl (s : State) : Drains s s :=
  ⟨⟨s.mem, s.full, s.poison, s.dies, s.fresh, s.cores, rfl⟩, fun _ => ⟨_, _, rfl⟩, fun _ _ => ⟨_, rfl⟩, fun _ _ => ⟨_, rfl⟩⟩

theorem trans {s t u : State} (h : Drains s t) (h' : Drains t u) : Drains s u where
  outer := by
    obtain ⟨_, _, _, _, _, _, rfl⟩ := h.outer
    obtain ⟨m, b, p, d, f, c, rfl⟩ := h'.outer
    exact ⟨m, b, p, d, f, c, rfl⟩
  coreOf c := by
    obtain ⟨_, _, e⟩ := h.coreOf c
    obtain ⟨sl, v, e'⟩ := h'.coreOf c
    exact ⟨sl, v, by rw [e', e]⟩
  vfOf c v := by
    obtain ⟨_, e⟩ := h.vfOf c v
    obtain ⟨n, e'⟩ := h'.vfOf c v
    exact ⟨n, by rw [e', e]⟩
  slotOf c k := by
    obtain ⟨_, e⟩ := h.slotOf c k
    obtain ⟨b, e'⟩ := h'.slotOf c k
    exact ⟨b, by rw [e', e]⟩

end Drains

theorem WritesOnly.drains {s t : State} (h : WritesOnly s t) : Drains s t := by
  obtain ⟨m, p, d, f, rfl⟩ := h
  exact ⟨⟨m, s.full, p, d, f, s.cores, rfl⟩, fun _ => ⟨_, _, rfl⟩, fun _ _ => ⟨_, rfl⟩, fun _ _ => ⟨_, rfl⟩⟩

theorem CachesOnly.drains {s t : State} (h : CachesOnly s t) : Drains s t := h.writes.drains

namespace Drains

/-- One event is counted (R322). -/
theorem modPcnt (s : State) (c v : Nat) (f : CoreVf → SMap Word) : Drains s (s.modVf c v fun cv => { cv with pcnt := f cv }) where
  outer := ⟨s.mem, s.full, s.poison, s.dies, s.fresh, _, rfl⟩
  coreOf c' := by
    by_cases h : c' = c
    · subst h; exact ⟨_, _, State.coreOf_modCore ..⟩
    · exact ⟨_, _, State.coreOf_modCore_ne _ _ h⟩
  vfOf c' v' := by
    by_cases h : c' = c ∧ v' = v
    · obtain ⟨rfl, rfl⟩ := h; exact ⟨_, State.vfOf_modVf ..⟩
    · exact ⟨_, State.vfOf_modVf_ne _ _ (by tauto)⟩
  slotOf c' k := ⟨_, State.slotOf_modVf ..⟩

theorem count (s : State) (c v code : Nat) : Drains s (s.count c v code) := by
  unfold State.count
  split
  · exact .refl s
  · exact foldl_relates .refl .trans _ (fun s _ => .modPcnt s c v _) _ s

/-- A slot's buffered stores change. -/
theorem modStoreBuf (s : State) (c k : Nat) (b : List StoreEntry) : Drains s (s.modSlot c k fun x => { x with storeBuf := b }) where
  outer := ⟨s.mem, s.full, s.poison, s.dies, s.fresh, _, rfl⟩
  coreOf c' := by
    by_cases h : c' = c
    · subst h; exact ⟨_, _, State.coreOf_modCore ..⟩
    · exact ⟨_, _, State.coreOf_modCore_ne _ _ h⟩
  vfOf c' v := ⟨_, State.vfOf_modSlot ..⟩
  slotOf c' k' := by
    by_cases h : c' = c ∧ k' = k
    · obtain ⟨rfl, rfl⟩ := h; exact ⟨_, State.slotOf_modSlot ..⟩
    · exact ⟨_, State.slotOf_modSlot_ne _ _ (by tauto)⟩

/-- A full/empty bit is set. -/
theorem setFull (s : State) (pa : Nat) (b : Bool) : Drains s (s.setFull pa b) :=
  ⟨⟨s.mem, _, s.poison, s.dies, s.fresh, s.cores, rfl⟩, fun _ => ⟨_, _, rfl⟩, fun _ _ => ⟨_, rfl⟩, fun _ _ => ⟨_, rfl⟩⟩

theorem l2Access (s : State) (c v pa : Nat) (write : Bool) : Drains s (s.l2Access c v pa write) :=
  (CachesOnly.l2Pass s v pa write).drains.trans (.count ..)

theorem performFor (s : State) (c k v : Nat) (cells : List (Nat × Byte)) : Drains s (s.performFor c k v cells) :=
  .trans (foldl_relates refl trans _ (fun s _ => l2Access s c v _ true) _ s) (WritesOnly.perform ..).drains

theorem performEntry (s : State) (c k : Nat) (e : StoreEntry) : Drains s (s.performEntry c k e) := by
  unfold State.performEntry
  split
  · exact foldl_relates .refl .trans _ (fun s _ => .performFor s ..) _ s
  · exact .performFor s ..

/-- One entry of a store buffer leaves for its home (R179). -/
theorem drain1 {s t : State} {c k : Nat} (h : s.drain1 false c k = some t) : Drains s t := by
  unfold State.drain1 at h
  split at h
  · cases h
  · split at h
    · cases h
    · simp only [Bool.false_eq_true, if_false, Option.some.injEq] at h
      subst h
      refine .trans (.trans ?_ (.performEntry _ c k _)) (.modStoreBuf _ c k _)
      split
      · exact (CachesOnly.flushInvals ..).drains
      · exact (CachesOnly.flushInvals ..).drains
      · exact .refl s

theorem drainAll (s : State) (c k n : Nat) : Drains s (s.drainAll false c k n) := by
  induction n generalizing s with
  | zero => exact .refl s
  | succ n ih =>
    rw [State.drainAll]
    split
    · exact .refl s
    next t h => exact (drain1 h).trans (ih t)

theorem drained {s t : State} {c k : Nat} (h : s.drained c k = some t) : Drains s t := by
  simp only [State.drained] at h
  split at h
  · cases h; exact .drainAll ..
  · cases h

/-- A release performs the slot's stores and changes nothing else (R181). -/
theorem release {s t : State} {sc : Scope} (h : s.release sc = some t) : Drains s t := by
  unfold State.release at h
  split at h
  · cases h
  next u hu =>
    have acked : Drains s (u.flushInvals s.core s.slot) := (drained hu).trans (CachesOnly.flushInvals ..).drains
    cases sc with
    | module => exact Option.some.inj h ▸ acked
    | system => exact Option.some.inj h ▸ acked
    | thread => exact Option.some.inj h ▸ drained hu
    | core => exact Option.some.inj h ▸ drained hu
    | cluster => exact Option.some.inj h ▸ drained hu
    | die => exact Option.some.inj h ▸ drained hu

/-! ## What the issuing slot reads stays -/

variable {s t : State}

theorem core_eq (h : Drains s t) : t.core = s.core := by
  obtain ⟨_, _, _, _, _, _, rfl⟩ := h.outer
  rfl

theorem slot_eq (h : Drains s t) : t.slot = s.slot := by
  obtain ⟨_, _, _, _, _, _, rfl⟩ := h.outer
  rfl

theorem pfReg_eq (h : Drains s t) (off : Nat) : t.pfReg off = s.pfReg off := by
  obtain ⟨_, _, _, _, _, _, rfl⟩ := h.outer
  rfl

theorem cur_eq (h : Drains s t) : ∃ b, t.cur = { s.cur with storeBuf := b } := by
  rw [State.cur, h.core_eq, h.slot_eq]
  exact h.slotOf ..

theorem bankVf_eq (h : Drains s t) : t.bankVf = s.bankVf := by
  obtain ⟨b, hb⟩ := h.cur_eq
  simp only [State.bankVf, h.slot_eq, hb]

theorem obsOf_eq (h : Drains s t) (c k : Nat) : t.obsOf c k = s.obsOf c k := by
  obtain ⟨_, _, e⟩ := h.coreOf c
  simp only [State.obsOf, e]

theorem curVf_eq (h : Drains s t) : ∃ n, t.curVf = { s.curVf with pcnt := n } := by
  rw [State.curVf, h.core_eq, h.bankVf_eq]
  exact h.vfOf ..

theorem sreg_eq (h : Drains s t) (r : Reg) : t.sreg r = s.sreg r := by
  obtain ⟨b, hb⟩ := h.cur_eq
  obtain ⟨n, hn⟩ := h.curVf_eq
  cases r with
  | priv n => simp only [State.sreg, hb]
  | shared n => simp only [State.sreg, hn]

theorem vreg_eq (h : Drains s t) (r : Reg) : t.vreg r = s.vreg r := by
  obtain ⟨b, hb⟩ := h.cur_eq
  obtain ⟨n, hn⟩ := h.curVf_eq
  cases r with
  | priv n => simp only [State.vreg, hb]
  | shared n => simp only [State.vreg, hn]

theorem ssrc_eq (h : Drains s t) (a : SSrc) : t.ssrc a = s.ssrc a := by
  cases a with
  | reg r => exact h.sreg_eq r
  | const n =>
    obtain ⟨_, _, e⟩ := h.coreOf s.core
    simp only [State.ssrc, h.core_eq, e]
  | lit v => rfl

theorem vsrc_eq (h : Drains s t) (a : VSrc) : t.vsrc a = s.vsrc a := by
  cases a with
  | reg r => exact h.vreg_eq r
  | bcast x => simp only [State.vsrc, h.ssrc_eq x]

end Drains

end Sys2Proof.Machine
end

section
/-! # Messages (O49): senders, replies, message entry, handlers and system channels -/

namespace Sys2Proof.Machine

open Sys2Proof.Safety

/-! ## The program counter and the send queue -/

/-- The next address depends on the pc, the length and the loop alone (R144, R146). -/
theorem Slot.advance_pc (x : Slot) :
    x.advance.pc = if !x.ih && x.lc != 0 && x.pc == x.le then (if x.lc = 1 then x.pc + BitVec.ofNat 64 x.ilen else x.ls)
      else x.pc + BitVec.ofNat 64 x.ilen := by
  unfold Slot.advance
  dsimp only
  split
  · split <;> rfl
  · rfl

/-- What has been issued and not performed stays as an instruction completes. -/
theorem Slot.advance_queues (x : Slot) : x.advance.sendq = x.sendq ∧ x.advance.replies = x.replies := by
  unfold Slot.advance
  dsimp only
  split
  · split <;> exact ⟨rfl, rfl⟩
  · exact ⟨rfl, rfl⟩

/-- A completion after acts that leave the pc and the loop alone is past the instruction. -/
theorem past_retire {s t : State} (hpc : t.cur.advance.pc = s.cur.advance.pc) : Past s t.retire := by
  rw [Past, State.cur_retire]
  exact ⟨hpc, rfl⟩

theorem cur_enqueue (s : State) (m : Msg) : (s.enqueue m).cur = { s.cur with sendq := s.cur.sendq ++ [m] } := by simp [State.enqueue]

theorem vfOf_enqueue (s : State) (m : Msg) : ((s.enqueue m).vfOf s.core s.bankVf).msgSent = (s.vfOf s.core s.bankVf).msgSent + 1 := by
  simp [State.enqueue]

theorem exec_send (g : Pred) (a : VSrc) (st : SSrc) (s : State) : exec (.send g a st) s = execSend g a st s := rfl
theorem exec_sendSys (g : Pred) (a : VSrc) (st : SSrc) (ch : BitVec 2) (s : State) : exec (.sendSys g a st ch) s = execSendSys g a st ch s := rfl
theorem exec_sendr (g : Pred) (a : VSrc) (st : SSrc) (s : State) : exec (.sendr g a st) s = execSendr g a st s := rfl
theorem exec_reply (g : Pred) (a sk : SSrc) (s : State) : exec (.reply g a sk) s = execReply g a sk s := rfl
theorem exec_msgend (g : Pred) (s : State) : exec (.msgend g) s = execMsgend g s := rfl

theorem notMovement_of_ne {s : State} (h : s.slot ≠ 0) (f : State → Out) : s.notMovement f = f s := if_neg h

theorem generalOnly_of_ne {s : State} (h0 : s.slot ≠ 0) (h15 : s.slot ≠ 15) (f : State → Out) : s.generalOnly f = f s :=
  if_neg (by simp [h0, h15])

/-! ## Senders (R243, R244) -/

/-- A sender with a target, a rank below what it owes, and its stores performed, goes on. -/
theorem sending_goes {s s2 : State} {st : Word} {tval : Word} {t : Nat × Option (BitVec 12)} (f : State → Nat × Option (BitVec 12) → Out)
    (ht : s.msgTarget st = some t) (hrank : 0 < (s.obmin s.core s.slot).toNat) (h15 : s.slot ≠ 15)
    (hrel : s.release (if t.2.isSome then .system else .module) = some s2) : s.sending st none tval f = f s2 t := by
  have hbelow : ¬ (s.obmin s.core s.slot).toNat ≤ (0 : BitVec 56).toNat := Nat.not_le.2 hrank
  simp only [State.sending, ht, State.rankBelow, if_neg hbelow, h15, State.afterRelease, hrel]
  rfl

/-- A sender without a target raises REMOTE (R243). -/
theorem sending_noTarget {s : State} {st : Word} (also : Option Cause) (tval : Word) (f : State → Nat × Option (BitVec 12) → Out)
    (ht : s.msgTarget st = none) : s.sending st also tval f = .next (s.trap .remote st) := by
  simp only [State.sending, ht]

/-- A sender that owes an obligation of rank 0 raises OBRANK (R244, R259). -/
theorem sending_rank {s : State} {st : Word} {t : Nat × Option (BitVec 12)} (tval : Word) (f : State → Nat × Option (BitVec 12) → Out)
    (ht : s.msgTarget st = some t) (hrank : s.obmin s.core s.slot = 0) : s.sending st none tval f = .next (s.trap .obrank 0) := by
  have habove : (s.obmin s.core s.slot).toNat ≤ (0 : BitVec 56).toNat := by rw [hrank]
  simp only [State.sending, ht, State.rankBelow, if_pos habove]

/-- A message that is built after a release is the same as before it. -/
theorem Drains.message_eq {s s2 : State} (h : Drains s s2) (data : Vec) (kind : MsgKind) (t : Nat × Option (BitVec 12)) :
    s2.message data kind t = s.message data kind t := by
  obtain ⟨b, hb⟩ := h.cur_eq
  rw [State.message, State.msgSource, State.modId, h.bankVf_eq, h.pfReg_eq, h.core_eq, hb]
  rfl

theorem Drains.token_eq {s s2 : State} (h : Drains s s2) (off : Nat) : s2.token off = s.token off := by
  simp only [State.token, State.modId, h.pfReg_eq, h.core_eq]

/-- The state of a sender whose message has entered its send queue (R244): past its instruction, with the message last in the queue and counted. -/
structure Sent (s t : State) (m : Msg) : Prop where
  past : Past s t
  queue : t.cur.sendq = s.cur.sendq ++ [m]
  counted : (t.vfOf s.core s.bankVf).msgSent = (s.vfOf s.core s.bankVf).msgSent + 1

/-- With room in the queue of eight, the message enters it (R211, R244). -/
theorem sendMsg_sent {s s2 : State} {m : Msg} (h : Drains s s2) (hroom : (s.cur.sendq.filter fun x => x.tenant == m.tenant).length < 8) :
    Sent s (s2.sendMsg m) m ∧ (s2.sendMsg m).mem = s2.mem ∧ (s2.sendMsg m).full = s2.full := by
  obtain ⟨b, hb⟩ := h.cur_eq
  obtain ⟨n, hn⟩ := h.vfOf s.core s.bankVf
  have hsend : s2.sendMsg m = (s2.enqueue m).retire := if_pos (by rw [hb]; exact hroom)
  rw [hsend]
  refine ⟨⟨past_retire ?_, ?_, ?_⟩, rfl, rfl⟩
  · simp only [cur_enqueue, hb, Slot.advance_pc]
  · simp only [State.cur_retire, (Slot.advance_queues _).1, cur_enqueue, hb]
  · have hcounted := vfOf_enqueue s2 m
    rw [h.core_eq, h.bankVf_eq] at hcounted
    rw [State.vfOf_retire, hcounted, hn]

/-! ### The word of a vector that SENDR replaces (R244) -/

/-- Bits of a number that is cut to `n` bits. -/
theorem extract_ofNat (n p i l : Nat) (h : i + l ≤ n) : (BitVec.ofNat n p).extractLsb' i l = BitVec.ofNat l (p / 2 ^ i) := by
  apply BitVec.eq_of_getLsbD_eq
  intro j hj
  have hn : i + j < n := by omega
  rw [BitVec.getLsbD_extractLsb', BitVec.getLsbD_ofNat, BitVec.getLsbD_ofNat, Nat.testBit_div_two_pow, Nat.add_comm j i]
  simp [hj, hn]

/-- Bits of a vector, by its number. -/
theorem extract_eq_ofNat (v : Vec) (i l : Nat) (h : i + l ≤ 512) : v.extractLsb' i l = BitVec.ofNat l (v.toNat / 2 ^ i) := by
  rw [← extract_ofNat 512 v.toNat i l h, BitVec.ofNat_toNat, BitVec.setWidth_eq]

/-- A number with its second digit to base `b` replaced. -/
theorem secondDigit (v x b : Nat) (hb : 0 < b) (hx : x < b) :
    (v - v / b % b * b + x * b) % b = v % b ∧ (v - v / b % b * b + x * b) / b % b = x ∧ (v - v / b % b * b + x * b) / b / b = v / b / b := by
  have hv : v - v / b % b * b = v % b + v / b / b * b * b := by
    have h1 := Nat.div_add_mod v b
    have h2 := Nat.div_add_mod (v / b) b
    have h3 : v = v % b + v / b % b * b + v / b / b * b * b := by
      calc v = b * (v / b) + v % b := h1.symm
        _ = b * (b * (v / b / b) + v / b % b) + v % b := by rw [h2]
        _ = _ := by ring
    omega
  have hlow : v % b < b := Nat.mod_lt _ hb
  have hdiv : (v % b + v / b / b * b * b + x * b) / b = x + v / b / b * b := by
    rw [show v % b + v / b / b * b * b + x * b = v % b + (x + v / b / b * b) * b by ring, Nat.add_mul_div_right _ _ hb,
      Nat.div_eq_of_lt hlow, Nat.zero_add]
  rw [hv]
  refine ⟨?_, ?_, ?_⟩
  · rw [show v % b + v / b / b * b * b + x * b = v % b + (x + v / b / b * b) * b by ring, Nat.add_mul_mod_self_right, Nat.mod_mod]
  · rw [hdiv, Nat.add_mul_mod_self_right, Nat.mod_eq_of_lt hx]
  · rw [hdiv, Nat.add_mul_div_right _ _ hb, Nat.div_eq_of_lt hx, Nat.zero_add]

/-- A vector with its second word replaced keeps the words below and above. -/
theorem setWord_one (v : Vec) (w : Word) : (setWord v 1 w).extractLsb' 0 64 = v.extractLsb' 0 64 ∧
    (setWord v 1 w).extractLsb' 64 64 = w ∧ (setWord v 1 w).extractLsb' 128 384 = v.extractLsb' 128 384 := by
  obtain ⟨low, mid, high⟩ := secondDigit v.toNat w.toNat (2 ^ 64) (Nat.two_pow_pos 64) w.isLt
  simp only [setWord, setElem, elem, Nat.mul_one, Nat.mod_eq_of_lt w.isLt]
  rw [extract_ofNat _ _ _ _ (by omega), extract_ofNat _ _ _ _ (by omega), extract_ofNat _ _ _ _ (by omega),
    extract_eq_ofNat v _ _ (by omega), extract_eq_ofNat v _ _ (by omega)]
  generalize v.toNat - v.toNat / 2 ^ 64 % 2 ^ 64 * 2 ^ 64 + w.toNat * 2 ^ 64 = n at low mid high ⊢
  refine ⟨?_, ?_, ?_⟩
  · rw [← BitVec.toNat_inj, BitVec.toNat_ofNat, BitVec.toNat_ofNat, Nat.pow_zero, Nat.div_one, Nat.div_one, low]
  · rw [← BitVec.toNat_inj, BitVec.toNat_ofNat, mid]
  · rw [show (2 : Nat) ^ 128 = 2 ^ 64 * 2 ^ 64 from rfl, ← Nat.div_div_eq_div_mul, ← Nat.div_div_eq_div_mul, high]

/-! ### SEND and SENDR (R244) -/

section Senders

variable {s s2 : State} {g : Pred} {st : SSrc} {c : Nat} {x : Option (BitVec 12)}

/-- SEND sends the vector as it stands at issue. -/
theorem exec_send_sent (a : VSrc) (hg : s.acts g = true) (h0 : s.slot ≠ 0) (h15 : s.slot ≠ 15) (ht : s.msgTarget (s.ssrc st) = some (c, x))
    (hrank : 0 < (s.obmin s.core s.slot).toNat) (hrel : s.release (if x.isSome then .system else .module) = some s2)
    (hroom : (s.cur.sendq.filter fun m => m.tenant == s.cur.tenant.toNat).length < 8) :
    ∃ t, exec (.send g a st) s = .next t ∧ Sent s t (s.message (s.vsrc a) .plain (c, x)) ∧ t.mem = s2.mem := by
  have hdrains := Drains.release hrel
  obtain ⟨hsent, hmem, -⟩ := sendMsg_sent (m := s.message (s.vsrc a) .plain (c, x)) hdrains hroom
  refine ⟨_, ?_, hsent, hmem⟩
  rw [exec_send, execSend, notMovement_of_ne h0, guarded_acts _ hg, sending_goes _ ht hrank h15 hrel, hdrains.message_eq, hdrains.vsrc_eq]

/-- At S level, SEND sends on a system channel (R26, R249). -/
theorem exec_sendSys_sent (a : VSrc) (ch : BitVec 2) (hg : s.acts g = true) (h0 : s.slot ≠ 0) (h15 : s.slot ≠ 15) (hpl : s.cur.pl ≠ 0)
    (ht : s.msgTarget (s.ssrc st) = some (c, x)) (hrank : 0 < (s.obmin s.core s.slot).toNat)
    (hrel : s.release (if x.isSome then .system else .module) = some s2)
    (hroom : (s.cur.sendq.filter fun m => m.tenant == s.cur.tenant.toNat).length < 8) :
    ∃ t, exec (.sendSys g a st ch) s = .next t ∧ Sent s t (s.message (s.vsrc a) (.sys ch) (c, x)) := by
  have hdrains := Drains.release hrel
  obtain ⟨hsent, -, -⟩ := sendMsg_sent (m := s.message (s.vsrc a) (.sys ch) (c, x)) hdrains hroom
  refine ⟨_, ?_, hsent⟩
  rw [exec_sendSys, execSendSys, notMovement_of_ne h0, if_neg hpl, guarded_acts _ hg, sending_goes _ ht hrank h15 hrel, hdrains.message_eq,
    hdrains.vsrc_eq]

/-- A slot with an empty buffer is drained. -/
theorem drained_of_empty {k : Nat} (h : (s.slotOf c k).storeBuf = []) : s.drained c k = some s := by
  simp [State.drained, h, State.drainAll]

/-- SENDR empties its reply word, and sends the vector with the word's token (R244). -/
theorem exec_sendr_sent (a : VSrc) {p : Place} {off : Nat} (hg : s.acts g = true) (h0 : s.slot ≠ 0) (h15 : s.slot ≠ 15)
    (ht : s.msgTarget (s.ssrc st) = some (c, x)) (hrank : 0 < (s.obmin s.core s.slot).toNat)
    (hrel : s.release (if x.isSome then .system else .module) = some s2)
    (hroom : (s.cur.sendq.filter fun m => m.tenant == s.cur.tenant.toNat).length < 8)
    (hoff : off = field ((s.vsrc a).extractLsb' 64 64) 16 0) (halign : off % 8 = 0)
    (hp : s.windowPlace s.core s.bankVf off = some p) (hbuf : s2.cur.storeBuf = []) :
    ∃ t, exec (.sendr g a st) s = .next t ∧ Sent s t (s.message (setWord (s.vsrc a) 1 (s.token off)) .sendr (c, x)) ∧ t.mem = s2.mem ∧
      t.isFull p.pa = false := by
  subst hoff
  have hdrains := (Drains.release hrel).trans (.setFull s2 p.pa false)
  obtain ⟨hsent, hmem, hfull⟩ := sendMsg_sent
    (m := s.message (setWord (s.vsrc a) 1 (s.token (field ((s.vsrc a).extractLsb' 64 64) 16 0))) .sendr (c, x)) hdrains hroom
  refine ⟨_, ?_, hsent, hmem, ?_⟩
  · rw [exec_sendr, execSendr, generalOnly_of_ne h0 h15, guarded_acts _ hg]
    simp only [halign, hp, ne_eq, not_true_eq_false, if_false, Option.isNone_some, Bool.false_eq_true]
    rw [sending_goes _ ht hrank h15 hrel, State.afterDrain, drained_of_empty hbuf, ← hdrains.message_eq, ← hdrains.token_eq]
  · rw [State.isFull, hfull]
    exact State.isFull_setFull s2 p.pa false

end Senders

/-! ### REPLY (R248) -/

/-- Removing an obligation of a slot removes it from the slot's own list. -/
theorem obsOf_dropOb (s : State) (c k : Nat) (o : Oblig) : (s.dropOb c o).obsOf c k = (s.obsOf c k).erase o := by
  simp only [State.obsOf, State.dropOb, State.coreOf_modCore]
  exact List.erase_filter.symm

/-- The obligation an act takes is one of its activity's (R268). -/
theorem pickOb_mem {l : List Oblig} {kind : ObKind} {obj : Word} {o : Oblig} (h : pickOb l kind obj = some o) : o ∈ l := by
  simp only [pickOb] at h
  split at h
  next q hq => exact Option.some.inj h ▸ (List.mem_filter.1 (List.mem_of_find?_eq_some hq)).1
  next => exact (List.mem_filter.1 (List.mem_of_head? h)).1

/-- The write that a REPLY of the issuing slot queues to its own module. -/
def ownReply (s : State) (k v : Word) : PostedReply :=
  { token := k, vf := s.bankVf, value := some v, xmod := none, tenant := s.cur.tenant.toNat }

/-- The issuing slot's REPLY leaves its list of obligations for its queue of replies (R248). -/
def queueReply (s : State) (o : Oblig) (r : PostedReply) : State :=
  (s.dropOb s.core o).modCur fun y => { y with replies := y.replies ++ [r] }

/-- A message counts as sent on the issuing slot's core (R31). -/
def countSent (s : State) : State := s.modVf s.core s.bankVf fun cv => { cv with msgSent := cv.msgSent + 1 }

/-- A message of the issuing slot's VF counts as received on core `c` (R31). -/
def countReceived (s : State) (c : Nat) : State := s.modVf c s.bankVf fun cv => { cv with msgRecv := cv.msgRecv + 1 }

/-- A REPLY to a word of this module, whose obligation is not spilled, queues its write after the release (R248, R268). -/
theorem exec_reply_goes {s s2 : State} {g : Pred} (a : SSrc) {sk : SSrc} {o : Oblig} (hg : s.acts g = true) (h0 : s.slot ≠ 0)
    (hpick : pickOb (s.obsOf s.core s.slot) .reply (s.ssrc sk) = some o) (hspill : o.spill = none)
    (hmod : field (s.ssrc sk) 56 45 = s.modId) (hrel : s.release .module = some s2) :
    exec (.reply g a sk) s = .next
      (countReceived (countSent (queueReply s2 o (ownReply s2 (s.ssrc sk) (s.ssrc a)))) (field (s.ssrc sk) 44 32)).retire := by
  have hwait : s.recallWait (some o) = none := by simp [State.recallWait, hspill]
  have hrecall : s2.recallOb s2.core s2.slot o = (s2, o) := by simp only [State.recallOb, hspill]
  rw [exec_reply, execReply, notMovement_of_ne h0, guarded_acts _ hg]
  simp only [hpick, if_pos hmod, State.afterRecall, hwait, State.afterRelease, Option.isSome_none, Bool.false_eq_true, if_false, hrel, hrecall]
  rfl

/-- A REPLY without its obligation raises OBSTRAY (R248). -/
theorem exec_reply_stray {s : State} {g : Pred} (a : SSrc) {sk : SSrc} (hg : s.acts g = true) (h0 : s.slot ≠ 0)
    (hpick : pickOb (s.obsOf s.core s.slot) .reply (s.ssrc sk) = none) : exec (.reply g a sk) s = .next (s.trap .obstray (s.ssrc sk)) := by
  rw [exec_reply, execReply, notMovement_of_ne h0, guarded_acts _ hg]
  simp only [hpick]

theorem cur_dropOb (s : State) (c : Nat) (o : Oblig) : (s.dropOb c o).cur = s.cur := by
  by_cases h : s.core = c
  · subst h; simp [State.cur, State.slotOf, State.dropOb]
  · simp [State.cur, State.slotOf, State.dropOb, State.coreOf_modCore_ne _ _ h]

theorem vfOf_dropOb (s : State) (c c' v : Nat) (o : Oblig) : (s.dropOb c o).vfOf c' v = s.vfOf c' v := by
  by_cases h : c' = c
  · subst h; simp [State.vfOf, State.dropOb]
  · simp [State.vfOf, State.dropOb, State.coreOf_modCore_ne _ _ h]

theorem obsOf_modVf (s : State) (c v c' k : Nat) (f : CoreVf → CoreVf) : (s.modVf c v f).obsOf c' k = s.obsOf c' k := by
  by_cases h : c' = c
  · subst h; simp [State.obsOf, State.modVf]
  · simp [State.obsOf, State.modVf, State.coreOf_modCore_ne _ _ h]

theorem obsOf_setSlot (s : State) (c k c' k' : Nat) (x : Slot) : (s.setSlot c k x).obsOf c' k' = s.obsOf c' k' := by
  by_cases h : c' = c
  · subst h; simp [State.obsOf, State.setSlot]
  · simp [State.obsOf, State.setSlot, State.coreOf_modCore_ne _ _ h]

theorem obsOf_modCur (s : State) (c k : Nat) (f : Slot → Slot) : (s.modCur f).obsOf c k = s.obsOf c k := obsOf_setSlot ..

theorem cur_queueReply (s : State) (o : Oblig) (r : PostedReply) :
    (queueReply s o r).cur = { s.cur with replies := s.cur.replies ++ [r] } := by rw [queueReply, State.cur_modCur, cur_dropOb]

theorem vfOf_queueReply (s : State) (o : Oblig) (r : PostedReply) (c v : Nat) : (queueReply s o r).vfOf c v = s.vfOf c v := by
  rw [queueReply, State.vfOf_modCur, vfOf_dropOb]

theorem bankVf_queueReply (s : State) (o : Oblig) (r : PostedReply) : (queueReply s o r).bankVf = s.bankVf := by
  have hslot : (queueReply s o r).slot = s.slot := rfl
  simp only [State.bankVf, cur_queueReply, hslot]

theorem bankVf_countSent (s : State) : (countSent s).bankVf = s.bankVf := by
  have hslot : (countSent s).slot = s.slot := rfl
  simp only [State.bankVf, countSent, State.cur_modVf]
  rfl

/-- Counting a message as sent leaves every other count of a core (R31). -/
theorem vfOf_countSent (s : State) :
    ((countSent s).vfOf s.core s.bankVf).msgSent = (s.vfOf s.core s.bankVf).msgSent + 1 ∧
      ∀ c v, ((countSent s).vfOf c v).msgRecv = (s.vfOf c v).msgRecv := by
  refine ⟨by simp [countSent], fun c v => ?_⟩
  by_cases h : c = s.core ∧ v = s.bankVf
  · obtain ⟨rfl, rfl⟩ := h
    simp [countSent]
  · rw [countSent, State.vfOf_modVf_ne _ _ (by tauto)]

theorem vfOf_countReceived (s : State) (c : Nat) :
    ((countReceived s c).vfOf c s.bankVf).msgRecv = (s.vfOf c s.bankVf).msgRecv + 1 ∧
      ∀ c' v, ((countReceived s c).vfOf c' v).msgSent = (s.vfOf c' v).msgSent := by
  refine ⟨by simp [countReceived], fun c' v => ?_⟩
  by_cases h : c' = c ∧ v = s.bankVf
  · obtain ⟨rfl, rfl⟩ := h
    simp [countReceived]
  · rw [countReceived, State.vfOf_modVf_ne _ _ (by tauto)]

/-- What a REPLY changes: the obligation, the queue of replies, and the two counts of messages (R248). -/
theorem reply_effect (s : State) (o : Oblig) (r : PostedReply) (c : Nat) :
    let t := (countReceived (countSent (queueReply s o r)) c).retire
    Past s t ∧ t.mem = s.mem ∧ t.obsOf s.core s.slot = (s.obsOf s.core s.slot).erase o ∧ t.cur.replies = s.cur.replies ++ [r] ∧
      (t.vfOf s.core s.bankVf).msgSent = (s.vfOf s.core s.bankVf).msgSent + 1 ∧
      (t.vfOf c s.bankVf).msgRecv = (s.vfOf c s.bankVf).msgRecv + 1 := by
  intro t
  have hcur : (countReceived (countSent (queueReply s o r)) c).cur = { s.cur with replies := s.cur.replies ++ [r] } := by
    rw [countReceived, State.cur_modVf, countSent, State.cur_modVf, cur_queueReply]
  have hbank := bankVf_queueReply s o r
  obtain ⟨hsent, hkept⟩ := vfOf_countSent (queueReply s o r)
  obtain ⟨hrecv, hkept'⟩ := vfOf_countReceived (countSent (queueReply s o r)) c
  rw [bankVf_countSent, hbank] at hrecv
  rw [hbank, vfOf_queueReply] at hsent
  refine ⟨past_retire ?_, ?_, ?_, ?_, ?_, ?_⟩
  · rw [hcur]
    simp only [Slot.advance_pc]
  · simp only [t, State.mem_retire, countReceived, countSent, queueReply, State.modVf_mem, State.modCur_mem, State.dropOb, State.modCore_mem]
  · simp only [t, State.retire, obsOf_modCur, countReceived, countSent, obsOf_modVf, queueReply, obsOf_dropOb]
  · simp only [t, State.cur_retire, (Slot.advance_queues _).2, hcur]
  · rw [State.vfOf_retire, hkept']
    exact hsent
  · rw [State.vfOf_retire, hrecv, hkept, vfOf_queueReply]

/-! ## The end of a handler (R25, R246, R247) -/

/-- A cleared slot holds no activity (R149). -/
theorem emptied_of_cleared {s t : State} {c k : Nat} (h : t.slotOf c k = (s.slotOf c k).cleared) : Emptied s t c k := by
  unfold Emptied
  rw [h]
  exact ⟨rfl, rfl, rfl, rfl, rfl, rfl, rfl, rfl, rfl, rfl, rfl, rfl, rfl, rfl, rfl, rfl, rfl, rfl, rfl, rfl⟩

theorem slotOf_endHandler (s : State) (c v : Nat) : (s.endHandler c v).slotOf c 15 = (s.slotOf c 15).cleared := by
  simp [State.endHandler]

theorem vfOf_endHandler (s : State) (c v : Nat) : ((s.endHandler c v).vfOf c v).msgRecv = (s.vfOf c v).msgRecv + 1 := by
  simp [State.endHandler]

/-- MSGEND of a handler that owes nothing ends it (R247). -/
theorem exec_msgend_goes {s : State} {g : Pred} (hg : s.acts g = true) (h15 : s.slot = 15) (hobs : s.obsOf s.core 15 = []) :
    exec (.msgend g) s = .next (s.endHandler s.core s.bankVf) := by
  have hcnt : ¬ s.obcnt s.core 15 ≠ 0 := by simp [State.obcnt, hobs]
  rw [exec_msgend, execMsgend, if_neg (not_not.2 h15), guarded_acts _ hg, if_neg hcnt]

/-! ### An abandoned handler (R25) -/

theorem WritesOnly.cores {s t : State} (h : WritesOnly s t) : t.cores = s.cores := by
  obtain ⟨_, _, _, _, rfl⟩ := h
  rfl

theorem cores_ringWrite (s : State) (v pa : Nat) (r : EventRec) : (s.ringWrite v pa r).cores = s.cores := by
  unfold State.ringWrite
  split
  · rfl
  · split
    · rfl
    · exact (WritesOnly.performIo ..).cores

theorem cores_signal (s : State) (f n : Nat) : (s.signal f n).cores = s.cores := by
  simp only [State.signal]
  split
  · split <;> rfl
  · rfl

/-- An event record leaves the cores alone (R343). -/
theorem cores_record (s : State) (ring v code cause core slot tenant : Nat) (detail : List Word) :
    (s.record ring v code cause core slot tenant detail).cores = s.cores := by
  have hring (o : Option Nat) (r : EventRec) : (match o with
      | some pa => s.ringWrite ring pa r
      | none => s).cores = s.cores := by
    cases o with
    | none => rfl
    | some pa => exact cores_ringWrite ..
  by_cases h : ring < 8 <;> simp only [State.record, h, if_true, if_false]
  · split
    · rfl
    · rw [cores_signal]
      exact hring ..
  · split
    · rfl
    · rw [cores_signal]
      exact hring ..

theorem slotOf_of_cores {s t : State} (h : t.cores = s.cores) (c k : Nat) : t.slotOf c k = s.slotOf c k := by
  simp only [State.slotOf, State.coreOf, h]

/-- Giving back what a slot reserved leaves slots and obligations (R239, R264, R272). -/
theorem unreserve_keeps (s : State) (c k : Nat) :
    (∀ c' k', (s.unreserve c k).slotOf c' k' = s.slotOf c' k') ∧ ∀ c' k', (s.unreserve c k).obsOf c' k' = s.obsOf c' k' := by
  have hfree : (∀ c' k', (s.freeResv c k).slotOf c' k' = s.slotOf c' k') ∧ ∀ c' k', (s.freeResv c k).obsOf c' k' = s.obsOf c' k' := by
    constructor <;> intro c' k' <;> by_cases h : c' = c
    · subst h; simp [State.slotOf, State.freeResv]
    · simp [State.slotOf, State.freeResv, State.coreOf_modCore_ne _ _ h]
    · subst h; simp [State.obsOf, State.freeResv]
    · simp [State.obsOf, State.freeResv, State.coreOf_modCore_ne _ _ h]
  simp only [State.unreserve]
  constructor <;> intro c' k' <;> split <;> split <;> simp [hfree, obsOf_modVf]

/-- Withdrawing a slot's waits leaves slots and obligations (R209). -/
theorem unlist_keeps (s : State) (c k : Nat) :
    (∀ c' k', (s.unlist c k).slotOf c' k' = s.slotOf c' k') ∧ ∀ c' k', (s.unlist c k).obsOf c' k' = s.obsOf c' k' := by
  have hbays (u : State) : (∀ c' k', (u.modCore c fun co =>
        { co with bays := co.bays.map fun p => (p.1, { p.2 with queue := p.2.queue.filter (· != k) }) }).slotOf c' k' = u.slotOf c' k') ∧
      ∀ c' k', (u.modCore c fun co =>
        { co with bays := co.bays.map fun p => (p.1, { p.2 with queue := p.2.queue.filter (· != k) }) }).obsOf c' k' = u.obsOf c' k' := by
    constructor <;> intro c' k' <;> by_cases h : c' = c
    · subst h; simp [State.slotOf]
    · simp [State.slotOf, State.coreOf_modCore_ne _ _ h]
    · subst h; simp [State.obsOf]
    · simp [State.obsOf, State.coreOf_modCore_ne _ _ h]
  simp only [State.unlist]
  exact ⟨fun c' k' => by rw [(hbays _).1, (unreserve_keeps ..).1]; rfl, fun c' k' => by rw [(hbays _).2, (unreserve_keeps ..).2]; rfl⟩

/-- Obligations may leave a core without a change to its slots. -/
theorem slotOf_modObs (s : State) (c c' k : Nat) (f : List Oblig → List Oblig) :
    (s.modCore c fun co => { co with obs := f co.obs }).slotOf c' k = s.slotOf c' k := by
  by_cases h : c' = c
  · subst h; simp [State.slotOf]
  · simp [State.slotOf, State.coreOf_modCore_ne _ _ h]

/-- Without obligations nothing passes to the supervisor (R270). -/
theorem toSupervisor_nil (s : State) (c v tenant : Nat) (launch : Option Nat) (cause : Byte) (kh : Word) :
    s.toSupervisor c v tenant launch cause kh [] = s := by
  unfold State.toSupervisor
  split <;> rfl

/-- A handler that owes nothing leaves an empty slot when it is abandoned (R25). -/
theorem slotOf_abandonHandler {s : State} {c : Nat} (cause : Byte) (hobs : s.obsOf c 15 = []) :
    (s.abandonHandler c cause).slotOf c 15 = (s.slotOf c 15).cleared := by
  obtain ⟨hslot, hobs'⟩ := unlist_keeps s c 15
  have hnone : (s.unlist c 15).obsOf c 15 = [] := (hobs' c 15).trans hobs
  have hrecall : (s.unlist c 15).recallObs c 15 = s.unlist c 15 := by rw [State.recallObs, hnone]; rfl
  simp only [State.abandonHandler]
  rw [slotOf_endHandler, State.handlerReport, State.event, slotOf_of_cores (cores_record ..)]
  congr 1
  split
  · simp only [State.poisonAll, hrecall, hnone, List.foldl_nil]
    rw [slotOf_modObs, hslot]
  · simp only [hrecall, hnone, toSupervisor_nil]
    rw [slotOf_modObs, hslot]

/-- The 257th instruction of a handler has it abandoned (R25). -/
theorem exec_handlerBudgetExhausted {s : State} {c : Nat} (hrun : (s.slotOf c 15).status = .run) (hkill : (s.slotOf c 15).kill = none)
    (hcount : 256 ≤ (s.slotOf c 15).hcount) (hissue : (s.slotOf c 15).reissue = false) (hstall : s.stalled c = false) :
    exec (.handlerBudgetExhausted c) s = .next (s.abandonHandler c Cause.hwait.code) := by
  show execHandlerBudgetExhausted c s = _
  simp [execHandlerBudgetExhausted, hrun, hkill, hcount, hissue, hstall]

/-! ## Messages on their way (R24, R245) -/

/-- The first message of a queue whose tenant runs enters its target's inbound queue, in order (R24, R245). -/
theorem exec_messageEntry {s : State} {c k : Nat} {m : Msg} {rest : List Msg} (hk : k < 16) (hf : s.frozen c = false)
    (hq : (s.slotOf c k).sendq = m :: rest) (hpark : ∀ r, (s.slotOf c k).status ≠ .parked r)
    (hwait : ∀ x, (s.slotOf c k).status ≠ .wait (.sendFull x)) (hturn : s.onTurn m.vf m.tenant = true) (hx : m.xmod = none)
    (hfence : (s.vfOf m.target m.vf).fenced = false) (hroom : (s.vfOf m.target m.vf).inbox.length < 16) (hf' : s.frozen m.target = false)
    (hlink : s.linkHeld m.vf c m.target = false) (hfifo : s.fifoHeld c m.target = false) :
    exec (.messageEntry c k) s = .next ((s.modVf m.target m.vf fun cv => { cv with inbox := cv.inbox ++ [m] }).modSlot c k fun x =>
      { x with sendq := rest }) := by
  have hfirst : s.firstMsg (s.slotOf c k).sendq = some (m, rest) := by rw [hq, State.firstMsg, if_pos hturn]
  have hsends : (s.slotOf c k).sends = true := by
    unfold Slot.sends
    split
    next r h => exact absurd h (hpark r)
    next => rfl
  have harrive : s.arrive m = some (s.modVf m.target m.vf fun cv => { cv with inbox := cv.inbox ++ [m] }) := by
    simp [State.arrive, hfence, hf', hroom]
  have hdepart : s.depart c k m = s.arrive m := by simp [State.depart, hx, hlink, hfifo]
  have hnext : ∀ u : State, (∀ x, (u.slotOf c k).status ≠ .wait (.sendFull x)) → u.sendNext c k = u := fun u hu => by
    unfold State.sendNext
    split
    next x h => exact absurd h (hu x)
    next => rfl
  show execMessageEntry c k s = _
  simp only [execMessageEntry, hf, if_pos hk, hfirst, hsends, hdepart, harrive, Bool.false_eq_true, if_false, Bool.not_true]
  rw [hnext _ fun x => by simpa using hwait x]

/-! ## Handlers (R25, R246) -/

theorem mem_count (s : State) (c v code : Nat) : (s.count c v code).mem = s.mem := by
  unfold State.count
  split
  · rfl
  · exact foldl_keeps State.mem _ _ _ fun _ _ _ => rfl

/-- The coordinates of an activity are its VF and tenant, and fields of the launch; its registers and pc stay (R10, R13). -/
theorem coords_eq (s : State) (c v tenant : Nat) (x : Slot) : ∃ member stage launch maxpt hbi gangw gangh,
    s.coords c v tenant x = { x with vfid := BitVec.ofNat 4 v, tenant := BitVec.ofNat 5 tenant, member := member, stage := stage,
                                     launch := launch, maxpt := maxpt, hbi := hbi, gangw := gangw, gangh := gangh } := by
  simp only [State.coords]
  split
  · exact ⟨_, _, _, _, _, _, _, rfl⟩
  · split
    · exact ⟨_, _, _, _, _, _, _, rfl⟩
    · exact ⟨_, _, _, _, _, _, _, rfl⟩

/-- A handler as it starts: the message in v0, its source in s1, every other register zero (R246). -/
theorem handlerSlot_eq (s : State) (c : Nat) (m : Msg) :
    let x := s.handlerSlot c m
    x.status = .run ∧ x.pc = m.data.extractLsb' 0 64 ∧ x.v = [(0, m.data)] ∧ x.s = [(1, m.src)] ∧ x.vfid = BitVec.ofNat 4 m.vf ∧
      x.tenant = BitVec.ofNat 5 m.tenant ∧ x.guard = 0x8000000000000000 := by
  obtain ⟨_, _, _, _, _, _, _, hco⟩ := coords_eq s c m.vf m.tenant ((s.slotOf c 15).fresh .handler (m.data.extractLsb' 0 64))
  simp only [State.handlerSlot, hco]
  exact ⟨rfl, rfl, rfl, rfl, rfl, rfl, trivial⟩

/-- The core of a handler slot that takes a message of VF `v` off its inbound queue (R25). -/
def handlerTaken (s : State) (c v : Nat) (m : Msg) (rest : List Msg) : State :=
  let u := ((s.modVf c v fun cv => { cv with inbox := rest }).modCore c fun co => { co with handlerTurn := (v + 1) % 8 }).count c v 17
  u.setSlot c 15 (u.handlerSlot c m)

/-- A message that carries no obligation and a good address starts a handler that has room for the REPLY it owes (R25, R246). -/
theorem exec_handlerStart {s : State} {c v : Nat} {m : Msg} {rest : List Msg} (hempty : (s.slotOf c 15).status = .empty)
    (hnext : s.nextHandler c = some v) (hin : (s.vfOf c v).inbox = m :: rest) (hobs : m.obs = [])
    (halign : (m.data.extractLsb' 0 64).getLsbD 0 = false) (haddr : field (m.data.extractLsb' 0 64) 63 57 = 0)
    (hroom : ((handlerTaken s c v m rest).oweReply c m).2 = true) :
    exec (.handlerStart c) s = .next ((handlerTaken s c v m rest).oweReply c m).1 := by
  have hbit : bit (m.data.extractLsb' 0 64) 0 = false := halign
  show execHandlerStart c s = _
  simp only [execHandlerStart, hempty, hnext, hin, hobs, List.foldl_nil, ne_eq, not_true_eq_false, if_false, hbit, haddr,
    Bool.false_eq_true]
  change (if (!((handlerTaken s c v m rest).oweReply c m).2) = true then _ else Host.Outcome.next ((handlerTaken s c v m rest).oweReply c m).1) = _
  rw [hroom]
  rfl

/-- What the start of a handler leaves of its core: the queue without its message, memory, and the slot as `handlerSlot` says. -/
theorem handlerTaken_eq (s : State) (c v : Nat) (m : Msg) (rest : List Msg) :
    (handlerTaken s c v m rest).mem = s.mem ∧ ((handlerTaken s c v m rest).vfOf c v).inbox = rest ∧
      (∃ u : State, (handlerTaken s c v m rest).slotOf c 15 = u.handlerSlot c m) ∧
      ((handlerTaken s c v m rest).coreOf c).obs = (s.coreOf c).obs ∧ ((handlerTaken s c v m rest).coreOf c).obResv = (s.coreOf c).obResv := by
  have hcount := Drains.count ((s.modVf c v fun cv => { cv with inbox := rest }).modCore c fun co => { co with handlerTurn := (v + 1) % 8 }) c v 17
  obtain ⟨_, hvf⟩ := hcount.vfOf c v
  obtain ⟨_, _, hcore⟩ := hcount.coreOf c
  refine ⟨mem_count .., ?_, ⟨_, State.slotOf_setSlot ..⟩, ?_, ?_⟩
  · rw [handlerTaken, State.vfOf_setSlot, hvf]
    simp [State.vfOf, State.modVf]
  · rw [handlerTaken, State.setSlot, State.coreOf_modCore, hcore]
    simp [State.modVf]
  · rw [handlerTaken, State.setSlot, State.coreOf_modCore, hcore]
    simp [State.modVf]

/-! ### The REPLY that a SENDR makes its handler owe (R246) -/

/-- The obligation that a SENDR's reply token stands for (R246). -/
def replyOwed (m : Msg) : Oblig :=
  { obj := m.data.extractLsb' 64 64, kind := .reply, rank := BitVec.ofNat 56 (field (m.data.extractLsb' 64 64) 16 0), holder := 15 }

/-- A message that is no SENDR makes its handler owe nothing. -/
theorem oweReply_other {s : State} {c : Nat} {m : Msg} (h : m.kind ≠ .sendr) : s.oweReply c m = (s, true) := if_neg h

/-- With room in the obligation table, the handler of a SENDR owes its reply there (R246, R264). -/
theorem oweReply_sendr {s : State} {c : Nat} {m : Msg} (h : m.kind = .sendr)
    (hroom : (s.coreOf c).tableUsed + (s.coreOf c).tableResv < 128) :
    s.oweReply c m = (s.modCore c fun co => { co with obs := co.obs ++ [replyOwed m] }, true) := by
  have hfind : s.findRoom c 15 = .ok s none := if_pos hroom
  simp only [State.oweReply, if_pos h, hfind, State.placeOb]
  rfl

/-- An obligation that a core takes for a slot is the slot's last one. -/
theorem obsOf_append (s : State) (c k : Nat) (o : Oblig) (h : o.holder = k) :
    (s.modCore c fun co => { co with obs := co.obs ++ [o] }).obsOf c k = s.obsOf c k ++ [o] := by
  simp [State.obsOf, h]

/-! ## System channels (R26, R249) -/

/-- What a control message leaves of its channel's bit: clear wins over set, and without either the bit stays (R249). -/
theorem chanBits_at (b : BitVec 4) (ch : BitVec 2) (set clear : Bool) :
    (chanBits b ch.toNat set clear).getLsbD ch.toNat = (!clear && (set || b.getLsbD ch.toNat)) := by
  have hlt : ch.toNat < 4 := ch.isLt
  have hone : (BitVec.ofNat 4 (2 ^ ch.toNat)).getLsbD ch.toNat = true := by
    rw [BitVec.getLsbD_ofNat, Nat.testBit_two_pow_self, Bool.and_true, decide_eq_true hlt]
  simp only [chanBits]
  generalize BitVec.ofNat 4 (2 ^ ch.toNat) = one at hone
  have hnot : (~~~one).getLsbD ch.toNat = false := by rw [BitVec.getLsbD_not, hone]; simp
  have hset : (if set then b ||| one else b).getLsbD ch.toNat = (set || b.getLsbD ch.toNat) := by
    cases set
    · rfl
    · exact (BitVec.getLsbD_or ..).trans (by rw [hone, Bool.or_true, Bool.true_or])
  cases clear
  · exact hset
  · exact (BitVec.getLsbD_and ..).trans (by rw [hnot, Bool.and_false, Bool.not_true, Bool.false_and])

/-- A VF of a core after the message at the head of its inbound queue has been taken and counted as received. -/
theorem vfOf_received (s : State) (c v : Nat) : (s.received c v).vfOf c v = { s.vfOf c v with msgRecv := (s.vfOf c v).msgRecv + 1 } :=
  State.vfOf_modVf ..

/-- Counting a message as received leaves every other field of every VF. -/
theorem vfOf_received_keeps (s : State) (c v u : Nat) : ∃ n, (s.received c v).vfOf c u = { s.vfOf c u with msgRecv := n } := by
  by_cases h : u = v
  · subst h; exact ⟨_, vfOf_received ..⟩
  · exact ⟨_, State.vfOf_modVf_ne _ _ (.inr h)⟩

/-- Taking a message off an inbound queue leaves every other field of every VF. -/
theorem vfOf_takeInbox_keeps (s : State) (c v u : Nat) (l : List Msg) :
    ∃ l', (s.modVf c v fun cv => { cv with inbox := l }).vfOf c u = { s.vfOf c u with inbox := l' } := by
  by_cases h : u = v
  · subst h; exact ⟨_, State.vfOf_modVf ..⟩
  · exact ⟨_, State.vfOf_modVf_ne _ _ (.inr h)⟩

theorem exec_systemChannelMessage (c v : Nat) (s : State) : exec (.systemChannelMessage c v) s = execSystemChannelMessage c v s := rfl

section Channels

variable {s : State} {c v u : Nat} {ch : BitVec 2} {m : Msg} {rest : List Msg}

/-- The taken message of a channel's queue acts on VF `u` by `f`, and counts as received. -/
def channelActs (s : State) (c v u : Nat) (rest : List Msg) (f : CoreVf → CoreVf) : State :=
  ((s.modVf c v fun cv => { cv with inbox := rest }).modVf c u f).received c v

/-- A control word sets and clears the bits of its channel (R249). -/
def setChannel (ch : BitVec 2) (ctl : Word) (cv : CoreVf) : CoreVf :=
  { cv with hold := chanBits cv.hold ch.toNat (ctl.getLsbD 0) (ctl.getLsbD 1), ready := chanBits cv.ready ch.toNat (ctl.getLsbD 2) (ctl.getLsbD 3) }

/-- A record enters the deque last. -/
def pushLast (r : TaskRec) (cv : CoreVf) : CoreVf := { cv with deque := cv.deque ++ [r] }

/-- A control message acts on its channel's bits (R249). -/
theorem exec_channelControl (htakes : s.takesWork c v = true) (hin : (s.vfOf c v).inbox = m :: rest) (hkind : m.kind = .sys ch)
    (hbound : s.boundVf ch.toNat = some u) (hzero : m.data.extractLsb' 0 64 = 0) (hctl : field (m.data.extractLsb' 64 64) 31 4 = 0) :
    exec (.systemChannelMessage c v) s = .next (channelActs s c v u rest (setChannel ch (m.data.extractLsb' 64 64))) := by
  rw [exec_systemChannelMessage, execSystemChannelMessage]
  simp only [htakes, hin, hkind, hbound, hzero, hctl, ne_eq, not_true_eq_false, if_false, Bool.not_true, Bool.false_eq_true, if_true]
  rfl

/-- A message of a channel that is ready and not held becomes a record of the bound VF's deque, if it has room (R249). -/
theorem exec_channelRecord (htakes : s.takesWork c v = true) (hin : (s.vfOf c v).inbox = m :: rest) (hkind : m.kind = .sys ch)
    (hbound : s.boundVf ch.toNat = some u) (hdata : m.data.extractLsb' 0 64 ≠ 0) (hready : (s.vfOf c u).ready.getLsbD ch.toNat = true)
    (hhold : (s.vfOf c u).hold.getLsbD ch.toNat = false) (hroom : (s.vfOf c u).deque.length + (s.vfOf c u).dqResv.length < 32) :
    exec (.systemChannelMessage c v) s = .next (channelActs s c v u rest
      (pushLast (chanRec (s.vfReg u (0x40 + 8 * ch.toNat)) m (s.vfOf c u).launch))) := by
  obtain ⟨_, htaken⟩ := vfOf_takeInbox_keeps s c v u rest
  have hdq : (s.modVf c v fun cv => { cv with inbox := rest }).roomDq c u = .ok (s.modVf c v fun cv => { cv with inbox := rest }) none :=
    if_pos (by rw [htaken]; exact hroom)
  rw [exec_systemChannelMessage, execSystemChannelMessage]
  simp only [htakes, hin, hkind, hbound, if_neg hdata, hready, hhold, hdq, Bool.not_true, Bool.or_self, Bool.false_eq_true, if_false]
  rfl

/-- What a message of a channel changes of the two VFs, where its act leaves inbound queue and count alone. -/
theorem channelActs_eq (f : CoreVf → CoreVf) (hinbox : ∀ cv, (f cv).inbox = cv.inbox) (hrecv : ∀ cv, (f cv).msgRecv = cv.msgRecv) :
    ((channelActs s c v u rest f).vfOf c v).inbox = rest ∧
      ((channelActs s c v u rest f).vfOf c v).msgRecv = (s.vfOf c v).msgRecv + 1 ∧
      ∃ l n, (channelActs s c v u rest f).vfOf c u = { f { s.vfOf c u with inbox := l } with msgRecv := n } := by
  obtain ⟨n, hn⟩ := vfOf_received_keeps ((s.modVf c v fun cv => { cv with inbox := rest }).modVf c u f) c v u
  obtain ⟨l, hl⟩ := vfOf_takeInbox_keeps s c v u rest
  have hacts : ((s.modVf c v fun cv => { cv with inbox := rest }).modVf c u f).vfOf c v =
      if v = u then f { s.vfOf c v with inbox := rest } else { s.vfOf c v with inbox := rest } := by
    split
    next h => subst h; simp
    next h => rw [State.vfOf_modVf_ne _ _ (.inr h), State.vfOf_modVf]
  refine ⟨?_, ?_, l, n, ?_⟩
  · rw [channelActs, vfOf_received, hacts]
    split
    · exact hinbox _
    · rfl
  · rw [channelActs, vfOf_received, hacts]
    split
    · simp only [hrecv]
    · rfl
  · rw [channelActs, hn, State.vfOf_modVf, hl]

end Channels

/-! ## The statement -/

/-- Settles O49, a sender by its release and its send queue, a handler by the slot that its message starts, and a channel's message by what it
does to the bound VF. -/
theorem messages : Obligations.Messages := by
  unfold Obligations.Messages
  refine ⟨?send, ?noTarget, ?rank, ?reply, ?stray, ?msgend, ?entry, ?start, ?startSendr, ?budget, ?channel⟩
  case send =>
    intro s g a st c x hg h0 h15 ht hrank s2 hrel hroom
    refine ⟨?_, fun hpl ch => ?_, fun p off hoff halign hp hbuf => ?_⟩
    · obtain ⟨t, hexec, ⟨hpast, hqueue, hcounted⟩, hmem⟩ := exec_send_sent a hg h0 h15 ht hrank hrel hroom
      exact ⟨t, _, hexec, hpast, hmem, hqueue, rfl, rfl, rfl, rfl, rfl, rfl, rfl, hcounted⟩
    · obtain ⟨t, hexec, ⟨hpast, hqueue, hcounted⟩⟩ := exec_sendSys_sent a ch hg h0 h15 hpl ht hrank hrel hroom
      exact ⟨t, _, hexec, hpast, hqueue, rfl, rfl, rfl, hcounted⟩
    · obtain ⟨t, hexec, ⟨hpast, hqueue, hcounted⟩, hmem, hempty⟩ :=
        exec_sendr_sent a hg h0 h15 ht hrank hrel hroom hoff halign hp hbuf
      obtain ⟨hlow, htoken, hhigh⟩ := setWord_one (s.vsrc a) (s.token off)
      exact ⟨t, _, hexec, hpast, hmem, hempty, hqueue, rfl, rfl, hlow, hhigh, htoken, hcounted⟩
  case noTarget =>
    intro s g a st hg h0 ht
    refine ⟨?_, fun h15 => ?_⟩
    · rw [exec_send, execSend, notMovement_of_ne h0, guarded_acts _ hg, sending_noTarget _ _ _ ht]
    · rw [exec_sendr, execSendr, generalOnly_of_ne h0 h15, guarded_acts _ hg]
      exact sending_noTarget _ _ _ ht
  case rank =>
    intro s g a st t0 hg h0 _ ht hrank
    rw [exec_send, execSend, notMovement_of_ne h0, guarded_acts _ hg, sending_rank _ _ ht hrank]
  case reply =>
    intro s g a sk o s2 hg h0 hspill hpick hmod hrel
    have hdrains := Drains.release hrel
    obtain ⟨b, hb⟩ := hdrains.cur_eq
    obtain ⟨_, hvf⟩ := hdrains.vfOf s.core s.bankVf
    obtain ⟨_, hvf'⟩ := hdrains.vfOf (field (s.ssrc sk) 44 32) s.bankVf
    obtain ⟨hpast, hmem, hobs, hqueue, hsent, hrecv⟩ := reply_effect s2 o (ownReply s2 (s.ssrc sk) (s.ssrc a)) (field (s.ssrc sk) 44 32)
    rw [hdrains.core_eq, hdrains.slot_eq, hdrains.obsOf_eq] at hobs
    rw [hdrains.core_eq, hdrains.bankVf_eq, hvf] at hsent
    rw [hdrains.bankVf_eq, hvf'] at hrecv
    have hown : ownReply s2 (s.ssrc sk) (s.ssrc a) = ownReply s (s.ssrc sk) (s.ssrc a) := by simp only [ownReply, hdrains.bankVf_eq, hb]
    obtain ⟨hpc, hrun⟩ := hpast
    refine ⟨_, exec_reply_goes a hg h0 hpick (hspill o (pickOb_mem hpick)) hmod hrel, ⟨?_, hrun⟩, hmem, hobs, ?_, hsent, hrecv⟩
    · rw [hpc, hb]
      simp only [Slot.advance_pc]
    · rw [hqueue, hb, hown]
      rfl
  case stray =>
    intro s g a sk hg h0 _ hpick
    exact exec_reply_stray a hg h0 hpick
  case msgend =>
    intro s g hg h15 hobs
    exact ⟨_, exec_msgend_goes hg h15 hobs, emptied_of_cleared (slotOf_endHandler ..), fun _ => rfl, vfOf_endHandler ..⟩
  case entry =>
    intro s c k m rest hk hf hq hpark hwait hturn hx hfence hroom hf' hlink hfifo
    refine ⟨_, exec_messageEntry hk hf hq hpark hwait hturn hx hfence hroom hf' hlink hfifo, fun _ => rfl, by simp, by simp⟩
  case start =>
    intro s c v m rest hempty hnext hin hobs hkind halign haddr
    have hother := oweReply_other (s := handlerTaken s c v m rest) (c := c) (m := m) (by rw [hkind]; decide)
    obtain ⟨hmem, hinbox, ⟨u, hslot⟩, -, -⟩ := handlerTaken_eq s c v m rest
    obtain ⟨hstatus, hpc, hv, hs, hvfid, htenant, hguard⟩ := handlerSlot_eq u c m
    have hcur : ((handlerTaken s c v m rest).at c 15).cur = u.handlerSlot c m := hslot
    refine ⟨_, exec_handlerStart hempty hnext hin hobs halign haddr (by rw [hother]), ?_⟩
    rw [hother, hslot]
    refine ⟨fun _ => by rw [hmem], hinbox, hstatus, hpc, ?_, ?_, fun n hn => ?_, fun n hn => ?_, hvfid, htenant, hguard⟩
    · rw [State.vreg, hcur, hv]; rfl
    · rw [State.sreg, hcur, hs]; rfl
    · have : n.toNat ≠ 1 := fun e => hn (BitVec.eq_of_toNat_eq e)
      rw [State.sreg, hcur, hs]
      simp [SMap.look, this.symm]
    · have : n.toNat ≠ 0 := fun e => hn (BitVec.eq_of_toNat_eq e)
      rw [State.vreg, hcur, hv]
      simp [SMap.look, this.symm]
  case startSendr =>
    intro s c v m rest hempty hnext hin hobs hkind halign haddr hroom
    obtain ⟨-, -, -, hob, hresv⟩ := handlerTaken_eq s c v m rest
    have howe := oweReply_sendr (s := handlerTaken s c v m rest) (c := c) hkind (by
      rw [Core.tableUsed, Core.tableResv, hob, hresv]; exact hroom)
    refine ⟨_, replyOwed m, exec_handlerStart hempty hnext hin hobs halign haddr (by rw [howe]), ?_, rfl, rfl, rfl⟩
    rw [howe]
    exact (obsOf_append _ c 15 _ rfl).trans (by rw [State.obsOf, hob]; rfl)
  case budget =>
    intro s c hrun hkill hcount hissue hstall hobs
    exact ⟨_, exec_handlerBudgetExhausted hrun hkill hcount hissue hstall, emptied_of_cleared (slotOf_abandonHandler _ hobs)⟩
  case channel =>
    intro s c v ch m rest u htakes hin hkind hbound _
    refine ⟨fun hzero hctl => ?_, fun hdata hready hhold hroom => ?_⟩
    · obtain ⟨hinbox, hrecv, _, _, hvf⟩ := channelActs_eq (s := s) (c := c) (v := v) (u := u) (rest := rest)
        (setChannel ch (m.data.extractLsb' 64 64)) (fun _ => rfl) (fun _ => rfl)
      refine ⟨_, exec_channelControl htakes hin hkind hbound hzero hctl, hinbox, ?_, ?_, hrecv⟩
      · rw [hvf]
        exact chanBits_at ..
      · rw [hvf]
        exact chanBits_at ..
    · obtain ⟨hinbox, hrecv, _, _, hvf⟩ := channelActs_eq (s := s) (c := c) (v := v) (u := u) (rest := rest)
        (pushLast (chanRec (s.vfReg u (0x40 + 8 * ch.toNat)) m (s.vfOf c u).launch)) (fun _ => rfl) (fun _ => rfl)
      refine ⟨_, chanRec (s.vfReg u (0x40 + 8 * ch.toNat)) m (s.vfOf c u).launch,
        exec_channelRecord htakes hin hkind hbound hdata hready hhold hroom, hinbox, ?_, rfl, rfl, rfl, rfl, hrecv⟩
      rw [hvf]
      rfl

end Sys2Proof.Machine
end

section
/-! # Launches (O54): the packet taken, its checks, the release of a gang, sweeps, doorbells and placement -/

namespace Sys2Proof.Machine

open Sys2Proof.Safety

/-! ## Taking a packet (R8, R348) -/

theorem CachesOnly.frontTouch (s : State) (v tenant a n : Nat) : CachesOnly s (s.frontTouch v tenant a n) :=
  foldl_relates .refl .trans _ (fun s _ => .l2Touch s ..) _ s

theorem CachesOnly.takeTouch (s : State) (v tenant q a : Nat) : CachesOnly s (s.takeTouch v tenant q a) :=
  ((CachesOnly.frontTouch s ..).trans (.frontTouch ..)).trans (.frontTouch ..)

/-- The stages of a packet, one by one. -/
theorem pktInfos_getElem? {p : List Word} {g : Nat} (h : g < min 8 (pktStages p)) : (pktInfos p)[g]? = some (pktStage p g) := by
  simp [pktInfos, h]

theorem pktInfos_length (p : List Word) : (pktInfos p).length = min 8 (pktStages p) := by simp [pktInfos]

/-- A stage of a launch is a stage word of its packet. -/
theorem pktStage_of_getElem? {p : List Word} {g : Nat} {st : StageInfo} (h : (pktInfos p)[g]? = some st) : st = pktStage p g := by
  have hg : g < min 8 (pktStages p) := by
    have := (List.getElem?_eq_some_iff.1 h).1
    rwa [pktInfos_length] at this
  exact (Option.some.inj ((pktInfos_getElem? hg).symm.trans h)).symm

/-- The guardian's address of a packet (R348): its image and an offset in 2-byte units, or 0. -/
theorem newLaunch_guardian (s : State) (d hq v tenant q n : Nat) (p : List Word) :
    (s.newLaunch d hq v tenant q n p).guardian.toNat = if (pkt p 5).extractLsb' 0 24 = 0 then 0
      else ((pkt p 0).toNat + 2 * ((pkt p 5).extractLsb' 0 24).toNat) % 2 ^ 64 := by
  have hf : field (pkt p 5) 23 0 = ((pkt p 5).extractLsb' 0 24).toNat := field_eq_toNat _ _ _ _ rfl
  have hz : field (pkt p 5) 23 0 = 0 ↔ (pkt p 5).extractLsb' 0 24 = 0 := by
    rw [hf, ← BitVec.toNat_inj]
    rfl
  simp only [State.newLaunch, hz]
  split
  · rfl
  · rw [hf, BitVec.toNat_ofNat]

/-- A packet that nothing rejects and no other slot outranks becomes the next launch (R8, R349). -/
theorem exec_launchTake (s : State) (d hq v tenant q n : Nat) (p : List Word) (h : s.headPacket d hq = some (v, tenant, q, n, p, none))
    (hr : s.outranked d hq v (field (pkt p 5) 31 28) = false) :
    ∃ (t u : State), exec (.launchTake d hq) s = .next t ∧ t.launches = s.launches.put s.nextLaunch (u.newLaunch d hq v tenant q n p) ∧
      t.nextLaunch = s.nextLaunch + 1 := by
  obtain ⟨dies, fresh, hu⟩ := CachesOnly.takeTouch s v tenant q (pkt p 0).toNat
  have hl : (s.takeTouch v tenant q (pkt p 0).toNat).launches = s.launches := by rw [hu]
  have hn : (s.takeTouch v tenant q (pkt p 0).toNat).nextLaunch = s.nextLaunch := by rw [hu]
  refine ⟨s.take d hq, s.takeTouch v tenant q (pkt p 0).toNat, rfl, ?_, ?_⟩
  · simp [State.take, h, hr, hl, hn]
  · simp [State.take, h, hr, hn]

/-! ## The checks of a packet (R349) -/

theorem firstStage_eq_some {l : List StageInfo} {f : Nat → StageInfo → Bool} {g : Nat} {st : StageInfo} (hg : l[g]? = some st)
    (hf : f g st = true) (hlow : ∀ i < g, ∀ x, l[i]? = some x → f i x = false) : firstStage l f = some g := by
  rw [firstStage, List.find?_range_eq_some]
  refine ⟨by simpa [hg] using hf, List.mem_range.2 (List.getElem?_eq_some_iff.1 hg).1, fun i hi => ?_⟩
  cases hx : l[i]? with
  | none => rfl
  | some x => simp [hlow i hi x hx]

/-- The completion slot of a packet is good, or there is none. -/
theorem reject_pastCompl {s : State} {v tenant : Nat} {p : List Word} (h : pkt p 1 = 0 ∨ (s.complPlace v tenant (pkt p 1)).isSome = true) :
    ¬ (pkt p 1 ≠ 0 && (s.complPlace v tenant (pkt p 1)).isNone) = true := by
  rcases h with h | h
  · simp [h]
  · simp [Option.isSome_iff_ne_none.1 h]

theorem reject_stageCount {s : State} {v tenant : Nat} {p : List Word}
    (hc : pkt p 1 = 0 ∨ (s.complPlace v tenant (pkt p 1)).isSome = true) (h : pktStages p = 0 ∨ 8 < pktStages p) :
    s.reject v tenant p = some (1, 0) := by
  rw [State.reject, if_neg (reject_pastCompl hc), if_pos (by simpa using h)]

theorem reject_die {s : State} {v tenant g : Nat} {p : List Word}
    (hc : pkt p 1 = 0 ∨ (s.complPlace v tenant (pkt p 1)).isSome = true) (h1 : 1 ≤ pktStages p) (h8 : pktStages p ≤ 8)
    (hg : g < pktStages p) (hd : 3 < (pktStage p g).die) (hlow : ∀ i < g, (pktStage p i).die ≤ 3) : s.reject v tenant p = some (2, g) := by
  have hfirst : firstStage (pktInfos p) (fun _ g => decide (3 < g.die)) = some g := by
    refine firstStage_eq_some (pktInfos_getElem? (by omega)) (by simpa using hd) fun i hi x hx => ?_
    rw [pktStage_of_getElem? hx]
    simpa using hlow i hi
  have hcount : ¬ (pktStages p = 0 || 8 < pktStages p) = true := by simp; omega
  rw [State.reject, if_neg (reject_pastCompl hc), if_neg hcount]
  simp only [hfirst]

/-! ## Doorbells (R345, R347) -/

theorem vqTail_of_cachesOnly {s t : State} (h : CachesOnly s t) (v tenant q : Nat) : t.vqTail v tenant q = s.vqTail v tenant q := by
  obtain ⟨_, _, rfl⟩ := h
  rfl

/-- A queue's tail reads as it was set. -/
theorem vqTail_setTail (s : State) (v tenant q tail : Nat) : (s.setTail v tenant q tail).vqTail v tenant q = tail % 2 ^ 32 := by
  have hrest : (s.vqs.filter fun x => !(x.vf == v && x.tenant == tenant && x.vq == q)).find?
      (fun x => x.vf == v && x.tenant == tenant && x.vq == q) = none := by
    rw [List.find?_eq_none]
    intro x hx
    have hne := (List.mem_filter.1 hx).2
    cases hk : (x.vf == v && x.tenant == tenant && x.vq == q) <;> simp [hk] at hne ⊢
  simp only [State.vqTail, State.setTail, List.find?_append, hrest, Option.none_or]
  simp

/-- A doorbell that names no valid queue of its requester is dropped and counted (R347). -/
theorem doorbell_dropped (s : State) (v : Nat) (pasid : Nat) (w : Word)
    (h : s.tenantValid v (field w 20 16) = false ∨ pasid ≠ s.pasid v (field w 20 16) ∨
      ((s.vqDesc v (field w 20 16) (field w 15 0)).valid = false ∧
        s.frontGone v (field w 20 16) (s.vqBase v (field w 20 16) (field w 15 0)) 32 = none)) :
    s.doorbell v (some pasid) true w = s.setVfReg v 0x608 (s.vfReg v 0x608 + 1) := by
  rw [State.doorbell, if_pos]
  rcases h with h | h | ⟨h, hg⟩ <;> simp [*]

/-- A doorbell that moves the tail on, within the ring's size, is accepted (R345). -/
theorem doorbell_accepted (s : State) (v : Nat) (w : Word) (ht : s.tenantValid v (field w 20 16) = true)
    (hv : (s.vqDesc v (field w 20 16) (field w 15 0)).valid = true)
    (hg : s.frontGone v (field w 20 16) (s.vqBase v (field w 20 16) (field w 15 0)) 32 = none)
    (hsize : (field w 63 32 + 2 ^ 32 - (s.vqDesc v (field w 20 16) (field w 15 0)).head) % 2 ^ 32 ≤
      2 ^ (s.vqDesc v (field w 20 16) (field w 15 0)).log2n)
    (hon : (s.vqTail v (field w 20 16) (field w 15 0) + 2 ^ 32 - (s.vqDesc v (field w 20 16) (field w 15 0)).head) % 2 ^ 32 <
      (field w 63 32 + 2 ^ 32 - (s.vqDesc v (field w 20 16) (field w 15 0)).head) % 2 ^ 32) :
    s.doorbell v (some (s.pasid v (field w 20 16))) true w =
      (s.frontTouch v (field w 20 16) (s.vqBase v (field w 20 16) (field w 15 0)) 32).setTail v (field w 20 16) (field w 15 0)
        (field w 63 32) := by
  have htail := vqTail_of_cachesOnly (CachesOnly.frontTouch s v (field w 20 16) (s.vqBase v (field w 20 16) (field w 15 0)) 32) v
    (field w 20 16) (field w 15 0)
  simp only [State.doorbell, ht, hv, hg, htail, if_neg (Nat.not_lt.2 hsize), if_neg (Nat.not_le.2 hon)]
  simp

theorem vfReg_setVfReg (s : State) (v off : Nat) (w : Word) : (s.setVfReg v off w).vfReg v off = w := by
  simp [State.vfReg, State.setVfReg]

/-! ## Placement (R314) -/

/-- The residency word that firmware writes for a queue. -/
def residencyWord (v tenant q : Nat) : Word := BitVec.ofNat 64 (2 ^ 25 + v * 2 ^ 21 + tenant % 32 * 2 ^ 16 + q % 65536)

/-- A residency word names its queue. -/
theorem residencyWord_fields {v tenant q : Nat} (hv : v < 8) (ht : tenant < 32) (hq : q < 65536) :
    bit (residencyWord v tenant q) 25 = true ∧ field (residencyWord v tenant q) 24 21 = v ∧
      field (residencyWord v tenant q) 20 16 = tenant ∧ field (residencyWord v tenant q) 15 0 = q := by
  have hn : (residencyWord v tenant q).toNat = 2 ^ 25 + v * 2 ^ 21 + tenant * 2 ^ 16 + q := by
    rw [residencyWord, BitVec.toNat_ofNat]
    omega
  simp only [bit, field, Nat.testBit_eq_decide_div_mod_eq, hn, decide_eq_true_eq]
  omega

theorem resident_setPf (s : State) {v tenant q die hq : Nat} (hv : v < 8) (ht : tenant < 32) (hq' : q < 65536) (hd : die < 4)
    (hs : hq < 48) : (s.setPf (0x8000 + 8 * (48 * die + hq)) (residencyWord v tenant q)).resident die hq = some (v, tenant, q) := by
  obtain ⟨h1, h2, h3, h4⟩ := residencyWord_fields hv ht hq'
  simp [State.resident, h1, h2, h3, h4, hd, hs]

/-- A queue that waits, is resident nowhere and belongs to a VF with a hardware slot on its die is placed where firmware chooses (R314). -/
theorem exec_vqPlacement {s : State} {v tenant q die hq : Nat} (hv : v < 8) (hgone : s.takeGone v tenant q = none)
    (hw : s.waiting v tenant q = true) (hres : s.residency v tenant q = []) (hdie : (s.vqDesc v tenant q).die = die)
    (hup : s.vfIsUp v = true) (hmask : s.hwqMask v die ≠ 0) (hplace : s.placeFor v die = some hq) :
    exec (.vqPlacement v tenant q die hq) s = .next (s.setPf (0x8000 + 8 * (48 * die + hq)) (residencyWord v tenant q)) := by
  have hidle : ¬ (8 ≤ v || (s.takeGone v tenant q).isSome || !s.waiting v tenant q || !(s.residency v tenant q).isEmpty ||
      (s.vqDesc v tenant q).die ≠ die) = true := by
    simp [hgone, hw, hres, hdie, hv]
  have hdown : ¬ (!s.vfIsUp v || s.hwqMask v die = 0) = true := by simp [hup, hmask]
  show execVqPlacement v tenant q die hq s = _
  simp only [execVqPlacement, if_neg hidle, if_neg hdown, hplace, ne_eq, not_true_eq_false, if_false]
  rfl

/-! ## The end of a launch keeps the table of launches (R31, R350) -/

theorem launches_putS (s : State) (lat : Nat) (d : Reg) (v : Word) : (s.putS lat d v).launches = s.launches := by
  cases d with
  | priv n =>
    simp only [State.putS]
    split <;> rfl
  | shared n => rfl

theorem launches_replyS (s : State) (c k : Nat) (d : Reg) (v : Word) : (s.replyS c k d v).launches = s.launches :=
  launches_putS (s.at c k) 0 d v

theorem WritesOnly.launches {s t : State} (h : WritesOnly s t) : t.launches = s.launches := by
  obtain ⟨_, _, _, _, rfl⟩ := h
  rfl

theorem launches_serveSync (s : State) (pa : Nat) : (s.serveSync pa).launches = s.launches := by
  refine foldl_keeps State.launches _ _ s fun s w _ => ?_
  split
  · split
    · rw [launches_replyS, (CachesOnly.readHome ..).writes.launches]
      rfl
    · rfl
  · rfl

theorem launches_complAdd (s : State) (pa : Nat) : (s.complAdd pa).launches = s.launches := by
  rw [State.complAdd, (CachesOnly.flushInvals ..).writes.launches, State.syncUpdate, launches_serveSync, State.writeWord,
    (WritesOnly.perform ..).launches]

theorem launches_frontWrite (s : State) (v tenant a : Nat) (bs : List Byte) : (s.frontWrite v tenant a bs).launches = s.launches := by
  unfold State.frontWrite
  split
  · rfl
  · split
    · rw [(CachesOnly.flushInvals ..).writes.launches, (WritesOnly.performIo ..).launches]
    · rfl

theorem launches_writeStatus (s : State) (v tenant : Nat) (addr w : Word) : (s.writeStatus v tenant addr w).launches = s.launches :=
  launches_frontWrite ..

theorem launches_endPacket (s : State) (v tenant code stage n : Nat) (stat compl : Word) :
    (s.endPacket v tenant code stage n stat compl).launches = s.launches := by
  unfold State.endPacket
  split
  · rfl
  · split
    · exact launches_writeStatus ..
    · split
      · rw [launches_complAdd, launches_writeStatus]
      · exact launches_writeStatus ..

/-- A launch that ends is marked so (R31). -/
theorem look_endLaunch {s : State} {l : Nat} {x : Launch} (code : Nat) (h : s.launches.look l = some x) :
    (s.endLaunch l code).launches.look l = some { x with phase := .ended } := by
  have hunlink : (s.unlinkLaunch l x).launches.look l = some { x with phase := .ended } := by
    have hcores : ∀ (g : StageInfo) (s : State), (g.cores.foldl (fun s c => s.modVf c x.vf fun cv =>
        if cv.launch = some l then { cv with launch := none, barArrived := false } else cv) s).launches = s.launches :=
      fun g s => foldl_keeps State.launches _ _ s fun _ _ _ => rfl
    simp only [State.unlinkLaunch]
    rw [SMap.look_put_self]
  simp only [State.endLaunch, h, launches_endPacket, hunlink]

/-! ## Sweeps (R30 to R32) -/

/-- A sweep that agrees with the last and finds every core idle ends the launch (R31). -/
theorem sweep_ends {s : State} {l : Nat} {x : Launch} (h : s.launches.look l = some x) (hm : s.maySweep x = true)
    (hidle : (s.sweepOf l x).1 = true) (hsum : (s.sweepOf l x).2.1 = (s.sweepOf l x).2.2) (hlast : x.sweep = some (s.sweepOf l x)) :
    s.sweep l = s.endLaunch l 0 := by
  have hagree : ((s.sweepOf l x).1 && (s.sweepOf l x).2.1 == (s.sweepOf l x).2.2 && x.sweep == some (s.sweepOf l x)) = true := by
    rw [Bool.and_eq_true, Bool.and_eq_true, beq_iff_eq, beq_iff_eq]
    exact ⟨⟨hidle, hsum⟩, hlast⟩
  simp only [State.sweep, h, hm, Bool.not_true, hagree, if_true]
  rfl

/-- Any other sweep is only noted. -/
theorem sweep_noted {s : State} {l : Nat} {x : Launch} (h : s.launches.look l = some x) (hm : s.maySweep x = true)
    (hdiff : (s.sweepOf l x).1 = false ∨ (s.sweepOf l x).2.1 ≠ (s.sweepOf l x).2.2 ∨ x.sweep ≠ some (s.sweepOf l x)) :
    s.sweep l = { s with launches := s.launches.put l { x with sweep := some (s.sweepOf l x) } } := by
  have hagree : ((s.sweepOf l x).1 && (s.sweepOf l x).2.1 == (s.sweepOf l x).2.2 && x.sweep == some (s.sweepOf l x)) = false := by
    rw [Bool.and_eq_false_iff, Bool.and_eq_false_iff, beq_eq_false_iff_ne, beq_eq_false_iff_ne]
    exact or_assoc.2 hdiff
  simp only [State.sweep, h, hm, Bool.not_true, hagree]
  rfl

theorem phase_of_maySweep {s : State} {x : Launch} (h : s.maySweep x = true) : x.phase = .live := by
  simp only [State.maySweep, Bool.and_eq_true, beq_iff_eq] at h
  exact h.1.1.1

/-! ## Releasing a gang (R9, R10) -/

theorem firstSlot_congr {s t : State} {c v : Nat} (hpf : t.pf = s.pf) (hslot : ∀ k, t.slotOf c k = s.slotOf c k) :
    t.firstSlot c v = s.firstSlot c v := by
  simp [State.firstSlot, State.ownSlots, State.slotMask, State.pfReg, hpf, hslot]

/-- The coordinates of an activity of a live launch's stage (R10, R13). -/
theorem coords_of_stage {s : State} {c v tenant l : Nat} {x : Launch} {i : StageInfo} (y : Slot) (hl : (s.vfOf c v).launch = some l)
    (hx : s.launches.look l = some x) (hi : x.stages[(s.vfOf c v).stage]? = some i) :
    s.coords c v tenant y =
      { y with vfid := BitVec.ofNat 4 v, tenant := BitVec.ofNat 5 tenant, member := BitVec.ofNat 11 (s.vfOf c v).member,
               stage := BitVec.ofNat 3 (s.vfOf c v).stage, launch := some l, maxpt := x.maxpt, hbi := x.hbi, gangw := BitVec.ofNat 6 i.w,
               gangh := BitVec.ofNat 6 i.h } := by
  simp [State.coords, hl, hx, hi]

/-- Loading text leaves everything but instruction caches. -/
theorem loadText_keeps (s : State) (c v : Nat) (text : List TextLine) :
    (∀ c' k, (s.modCore c fun co => co.loadText v text).slotOf c' k = s.slotOf c' k) ∧
      ∀ c' u, (s.modCore c fun co => co.loadText v text).vfOf c' u = s.vfOf c' u := by
  constructor <;> intro c' k <;> by_cases h : c' = c
  · subst h; simp [State.slotOf, Core.loadText]
  · simp [State.slotOf, State.coreOf_modCore_ne _ _ h]
  · subst h; simp [State.vfOf, Core.loadText]
  · simp [State.vfOf, State.coreOf_modCore_ne _ _ h]

/-- What a core keeps for the VF of a launch when member `m` of stage `g` starts there (R9). -/
def memberVf (cv : CoreVf) (l g m : Nat) (x : Launch) : CoreVf :=
  { cv with launch := some l, member := m, stage := g, brb := x.bayrank, barArrived := false, barPhase := 0 }

/-- A first activity with its coordinates, as it starts (R10). -/
def firstActivity (y : Slot) (l g m : Nat) (x : Launch) (i : StageInfo) : Slot :=
  { ({ y.fresh .first i.entry with
        vfid := BitVec.ofNat 4 x.vf, tenant := BitVec.ofNat 5 x.tenant, member := BitVec.ofNat 11 m, stage := BitVec.ofNat 3 g,
        launch := some l, maxpt := x.maxpt, hbi := x.hbi, gangw := BitVec.ofNat 6 i.w, gangh := BitVec.ofNat 6 i.h }).pointers x.fsa x.fsb with
    guard := 0x8000000000000000 }

theorem startMember_mem (s : State) (l g m : Nat) (x : Launch) (i : StageInfo) : (s.startMember l g m x i).mem = s.mem := by
  unfold State.startMember
  split
  · rfl
  · dsimp only
    split <;> rfl

theorem startMember_launches (s : State) (l g m : Nat) (x : Launch) (i : StageInfo) : (s.startMember l g m x i).launches = s.launches := by
  unfold State.startMember
  split
  · rfl
  · dsimp only
    split <;> rfl

theorem startMember_pf (s : State) (l g m : Nat) (x : Launch) (i : StageInfo) : (s.startMember l g m x i).pf = s.pf := by
  unfold State.startMember
  split
  · rfl
  · dsimp only
    split <;> rfl

/-- Starting a member touches no other core. -/
theorem startMember_ne (s : State) {l g m c : Nat} {x : Launch} {i : StageInfo} (h : i.cores[m]? ≠ some c) :
    (∀ k, (s.startMember l g m x i).slotOf c k = s.slotOf c k) ∧ ∀ v, (s.startMember l g m x i).vfOf c v = s.vfOf c v := by
  unfold State.startMember
  split
  next => exact ⟨fun _ => rfl, fun _ => rfl⟩
  next c' hc' =>
    have hne : c ≠ c' := fun e => h (e ▸ hc')
    dsimp only
    split
    next => exact ⟨fun k => by simp, fun v => State.vfOf_modVf_ne s _ (.inl hne)⟩
    next k' _ =>
      exact ⟨fun k => by rw [State.slotOf_setSlot_ne _ _ (.inl hne)]; simp,
        fun v => by rw [State.vfOf_setSlot, State.vfOf_modVf_ne s _ (.inl hne)]⟩

/-- Starting a member gives its core the launch, and its first slot the first activity. -/
theorem startMember_self {s : State} {l g m c k : Nat} {x : Launch} {i : StageInfo} (hc : i.cores[m]? = some c)
    (hx : s.launches.look l = some x) (hi : x.stages[g]? = some i) (hk : s.firstSlot c x.vf = some k) :
    (s.startMember l g m x i).slotOf c k = firstActivity (s.slotOf c k) l g m x i ∧
      (s.startMember l g m x i).vfOf c x.vf = memberVf (s.vfOf c x.vf) l g m x := by
  have hk' : (s.modVf c x.vf fun cv => memberVf cv l g m x).firstSlot c x.vf = some k :=
    (firstSlot_congr (s := s) (t := s.modVf c x.vf _) rfl fun k => State.slotOf_modVf ..).trans hk
  have hco := coords_of_stage (s := s.modVf c x.vf fun cv => memberVf cv l g m x) (c := c) (v := x.vf) (tenant := x.tenant) (l := l) (x := x) (i := i)
    ((s.slotOf c k).fresh .first i.entry) (by simp [memberVf]) (by simpa using hx) (by simpa [memberVf] using hi)
  have hstart : s.startMember l g m x i =
      (s.modVf c x.vf fun cv => memberVf cv l g m x).setSlot c k (firstActivity (s.slotOf c k) l g m x i) := by
    simp only [State.startMember, hc]
    split
    next hnone => exact absurd (hk'.symm.trans hnone) (Option.some_ne_none k)
    next k' hsome =>
      obtain rfl : k = k' := Option.some.inj (hk'.symm.trans hsome)
      have hy : (s.modVf c x.vf fun cv => memberVf cv l g m x).slotOf c k = s.slotOf c k := State.slotOf_modVf ..
      change State.setSlot _ c k { ((s.modVf c x.vf fun cv => memberVf cv l g m x).coords c x.vf x.tenant
        (((s.modVf c x.vf fun cv => memberVf cv l g m x).slotOf c k).fresh .first i.entry)).pointers x.fsa x.fsb with guard := _ } = _
      rw [hy, hco]
      simp only [firstActivity, State.vfOf_modVf, memberVf]
  rw [hstart]
  exact ⟨State.slotOf_setSlot .., by rw [State.vfOf_setSlot, State.vfOf_modVf]⟩

/-- The first activity's registers read zero. -/
theorem firstActivity_sreg (t : State) (c k : Nat) (y : Slot) (l g m : Nat) (x : Launch) (i : StageInfo) (n : BitVec 5)
    (h : t.slotOf c k = firstActivity y l g m x i) : (t.at c k).sreg (.priv n) = 0 := by
  show ((t.slotOf c k).s.look n.toNat).getD 0 = 0
  rw [h]
  rfl

/-! ### The members of a gang, one after another -/

section Members

variable {l g c m : Nat} {x : Launch} {i : StageInfo}

/-- The members that start elsewhere leave a core alone. -/
theorem startMembers_ne (s : State) (ms : List Nat) (h : ∀ m' ∈ ms, i.cores[m']? ≠ some c) :
    (∀ k, (ms.foldl (fun s m => s.startMember l g m x i) s).slotOf c k = s.slotOf c k) ∧
      ∀ v, (ms.foldl (fun s m => s.startMember l g m x i) s).vfOf c v = s.vfOf c v :=
  ⟨fun k => foldl_keeps (fun s => s.slotOf c k) _ ms s fun s m' hm => (startMember_ne s (h m' hm)).1 k,
    fun v => foldl_keeps (fun s => s.vfOf c v) _ ms s fun s m' hm => (startMember_ne s (h m' hm)).2 v⟩

/-- Each member of a gang starts once, on a core of its own. -/
theorem startMembers_self {s : State} {ms : List Nat} {k : Nat} (hm : m ∈ ms) (hms : ms.Nodup) (hc : i.cores[m]? = some c)
    (hown : ∀ m', m' ≠ m → i.cores[m']? ≠ some c) (hx : s.launches.look l = some x) (hi : x.stages[g]? = some i)
    (hk : s.firstSlot c x.vf = some k) :
    (ms.foldl (fun s m => s.startMember l g m x i) s).slotOf c k = firstActivity (s.slotOf c k) l g m x i ∧
      (ms.foldl (fun s m => s.startMember l g m x i) s).vfOf c x.vf = memberVf (s.vfOf c x.vf) l g m x := by
  obtain ⟨before, after, rfl⟩ := List.append_of_mem hm
  have hbefore : ∀ m' ∈ before, i.cores[m']? ≠ some c := fun m' h' =>
    hown m' fun e => (List.nodup_append.1 hms).2.2 m' h' m List.mem_cons_self e
  have hafter : ∀ m' ∈ after, i.cores[m']? ≠ some c := fun m' h' =>
    hown m' fun e => (List.nodup_cons.1 (List.nodup_append.1 hms).2.1).1 (e ▸ h')
  rw [List.foldl_append, List.foldl_cons]
  obtain ⟨hslot, hvf⟩ := startMembers_ne (l := l) (g := g) (x := x) s before hbefore
  have hlaunches : (before.foldl (fun s m => s.startMember l g m x i) s).launches = s.launches :=
    foldl_keeps State.launches _ _ s fun s m _ => startMember_launches s l g m x i
  have hpf : (before.foldl (fun s m => s.startMember l g m x i) s).pf = s.pf :=
    foldl_keeps State.pf _ _ s fun s m _ => startMember_pf s l g m x i
  obtain ⟨hself, hselfVf⟩ := startMember_self hc (hlaunches ▸ hx) hi ((firstSlot_congr hpf hslot).trans hk)
  obtain ⟨hslot', hvf'⟩ := startMembers_ne (l := l) (g := g) (x := x)
    ((before.foldl (fun s m => s.startMember l g m x i) s).startMember l g m x i) after hafter
  exact ⟨by rw [hslot', hself, hslot], by rw [hvf', hselfVf, hvf]⟩

end Members

/-- A launch whose stage `g` is released (R9): live with its last stage. -/
def releasedLaunch (x : Launch) (g : Nat) : Launch :=
  { x with released := g + 1, phase := if x.stages.length ≤ g + 1 then .live else .taken }

/-- The state in which the members of a gang start: its launch has released it, and its text is loaded (R9). -/
def gangLoaded (s : State) (l g : Nat) (x : Launch) (i : StageInfo) : State :=
  i.cores.foldl (fun t c => t.modCore c fun co => co.loadText x.vf (s.imageText x.vf x.tenant x.image.toNat))
    { s with launches := s.launches.put l (releasedLaunch x g) }

theorem gangLoaded_mem (s : State) (l g : Nat) (x : Launch) (i : StageInfo) : (gangLoaded s l g x i).mem = s.mem :=
  foldl_keeps State.mem _ _ _ fun _ _ _ => rfl

theorem gangLoaded_pf (s : State) (l g : Nat) (x : Launch) (i : StageInfo) : (gangLoaded s l g x i).pf = s.pf :=
  foldl_keeps State.pf _ _ _ fun _ _ _ => rfl

theorem gangLoaded_launches (s : State) (l g : Nat) (x : Launch) (i : StageInfo) :
    (gangLoaded s l g x i).launches = s.launches.put l (releasedLaunch x g) :=
  foldl_keeps State.launches _ _ _ fun _ _ _ => rfl

theorem gangLoaded_slotOf (s : State) (l g : Nat) (x : Launch) (i : StageInfo) (c k : Nat) :
    (gangLoaded s l g x i).slotOf c k = s.slotOf c k :=
  foldl_keeps (fun t => t.slotOf c k) _ _ _ fun t c' _ => (loadText_keeps t c' _ _).1 c k

/-- The release of a gang: its text is loaded, and its members start in order of their index (R9). -/
theorem releaseGang_eq {s : State} {l g : Nat} {x : Launch} {i : StageInfo} (hx : s.launches.look l = some x)
    (hi : x.stages[g]? = some i) :
    s.releaseGang l g =
      (List.range (i.w * i.h)).foldl (fun s m => s.startMember l g m (releasedLaunch x g) i) (gangLoaded s l g x i) := by
  simp only [State.releaseGang, hx, hi]
  rfl

/-- A gang that may be released starts a first activity on each of its cores, and leaves memory alone (R9, R10). -/
theorem exec_gangRelease {s : State} {l g c k m : Nat} {x : Launch} {i : StageInfo} (hmay : s.mayRelease l g = true)
    (hx : s.launches.look l = some x) (hi : x.stages[g]? = some i) (hnd : i.cores.Nodup) (hc : i.cores[m]? = some c) (hm : m < i.w * i.h)
    (hk : s.firstSlot c x.vf = some k) :
    ∃ t, exec (.gangRelease l g) s = .next t ∧ t.mem = s.mem ∧ t.launches.look l = some (releasedLaunch x g) ∧
      t.slotOf c k = firstActivity (s.slotOf c k) l g m (releasedLaunch x g) i ∧ (t.vfOf c x.vf).brb = x.bayrank := by
  have hown : ∀ m', m' ≠ m → i.cores[m']? ≠ some c := fun m' hne hc' =>
    hne ((List.getElem?_inj (List.getElem?_eq_some_iff.1 hc').1 hnd).1 (hc'.trans hc.symm))
  have hlook : (gangLoaded s l g x i).launches.look l = some (releasedLaunch x g) := by rw [gangLoaded_launches, SMap.look_put_self]
  have hfirst : (gangLoaded s l g x i).firstSlot c (releasedLaunch x g).vf = some k :=
    (firstSlot_congr (gangLoaded_pf s l g x i) (gangLoaded_slotOf s l g x i c)).trans hk
  obtain ⟨hslot, hvf⟩ := startMembers_self (x := releasedLaunch x g) (List.mem_range.2 hm) List.nodup_range hc hown hlook hi hfirst
  refine ⟨s.releaseGang l g, ?_, ?_, ?_, ?_, ?_⟩
  · show execGangRelease l g s = _
    rw [execGangRelease, if_pos hmay]
  · rw [releaseGang_eq hx hi, ← gangLoaded_mem s l g x i]
    exact foldl_keeps State.mem _ _ _ fun s m _ => startMember_mem s l g m _ i
  · rw [releaseGang_eq hx hi, ← hlook]
    exact congrArg (SMap.look · l) (foldl_keeps State.launches _ _ _ fun s m _ => startMember_launches s l g m _ i)
  · rw [releaseGang_eq hx hi, hslot, gangLoaded_slotOf]
  · rw [releaseGang_eq hx hi]
    exact congrArg CoreVf.brb hvf

/-! ## The statement -/

/-- Settles O54, clause by clause: a packet becomes a launch, its checks come in R349's order, a released gang starts its first activities, two
sweeps that agree end a launch, doorbells move a tail or count as dropped, and a queue is placed. -/
theorem launches : Obligations.Launches := by
  unfold Obligations.Launches
  refine ⟨?take, ?reject, ?release, ?sweep, ?bell, ?place⟩
  case take =>
    intro s d hq v tenant q n p hhead hfirst
    obtain ⟨t, u, hexec, hlaunches, hnext⟩ := exec_launchTake s d hq v tenant q n p hhead hfirst
    refine ⟨t, u.newLaunch d hq v tenant q n p, hexec, hlaunches, hnext, rfl, rfl, rfl, rfl, rfl, rfl, rfl, ofNat_field_eq _ _ _ _ rfl,
      ofNat_field_eq _ _ _ _ rfl, rfl, rfl, newLaunch_guardian .., pktInfos_length p, fun g st hst => ?_⟩
    obtain rfl := pktStage_of_getElem? hst
    exact ⟨rfl, rfl, rfl, rfl, rfl, rfl, BitVec.toNat_ofNat ..⟩
  case reject =>
    exact fun s v tenant p hc => ⟨reject_stageCount hc, fun h1 h8 g hg hd hlow => reject_die hc h1 h8 hg hd hlow⟩
  case release =>
    intro s l g x i c k m hmay hx hi hnd hc hm hk
    obtain ⟨t, hexec, hmem, hlook, hslot, hbrb⟩ := exec_gangRelease hmay hx hi hnd hc hm hk
    refine ⟨t, hexec, fun a => by rw [hmem], ⟨_, hlook, rfl, rfl⟩, ?_⟩
    have hreg := fun n => firstActivity_sreg t c k _ _ _ _ _ _ n hslot
    rw [hslot]
    exact ⟨rfl, rfl, rfl, rfl, rfl, rfl, rfl, rfl, rfl, rfl, rfl, rfl, rfl, ofNat_field_eq _ _ _ _ rfl, ofNat_field_eq _ _ _ _ rfl, hreg, hbrb⟩
  case sweep =>
    intro s l x hx hmay
    refine ⟨s.sweep l, rfl, fun hidle hsum hlast => ?_, fun hdiff => ?_⟩
    · exact ⟨_, by rw [sweep_ends hx hmay hidle hsum hlast, look_endLaunch 0 hx], rfl⟩
    · rw [sweep_noted hx hmay hdiff]
      exact ⟨fun _ => rfl, _, SMap.look_put_self .., phase_of_maySweep hmay, rfl⟩
  case bell =>
    intro s v pasid w d hv hup hd
    subst hd
    have hexec : exec (.doorbell v pasid w) s = .next (s.doorbell v (some pasid.toNat) true w) := by
      show execDoorbell v pasid w s = _
      rw [execDoorbell, if_pos (by simp [hv, State.hostOn, hup])]
    refine ⟨fun hdrop => ?_, fun ht hp hvalid hgone hsize hon => ?_⟩
    · rw [hexec, doorbell_dropped s v pasid.toNat w hdrop]
      exact ⟨_, rfl, fun _ => rfl, rfl, vfReg_setVfReg ..⟩
    · rw [hexec, hp, doorbell_accepted s v w ht hvalid hgone hsize hon]
      refine ⟨_, rfl, fun a => ?_, ?_⟩
      · obtain ⟨_, _, hu⟩ := CachesOnly.frontTouch s v (field w 20 16) (s.vqBase v (field w 20 16) (field w 15 0)) 32
        show (State.frontTouch ..).mem.get a = _
        rw [hu]
      · rw [vqTail_setTail, Nat.mod_eq_of_lt (field_lt w 63 32)]
  case place =>
    intro s v tenant q die hq hv hgone hw hres hdie hup hmask hplace hd hs ht hq'
    exact ⟨_, exec_vqPlacement hv hgone hw hres hdie hup hmask hplace, fun _ => rfl, resident_setPf s hv ht hq' hd hs⟩

end Sys2Proof.Machine
end

section
/-! # Chains: the words of a chain, with whatever follows them, are read back as that chain (R50, R55, R60) -/

namespace Sys2Proof

/-! ## One word of a chain -/

/-- The op or prefix code of a word (R50). -/
theorem code_append (c : BitVec 6) (x : BitVec 10) : (c ++ x : Half).extractLsb' 10 6 = c := BitVec.extractLsb'_append_eq_left

/-- Its payload. -/
theorem payload_append (c : BitVec 6) (x : BitVec 10) : (c ++ x : Half).extractLsb' 0 10 = x := BitVec.extractLsb'_append_eq_right

theorem addPrefix_ximm (r : Raw) {w : Half} (h : w.extractLsb' 10 6 = 0x3C#6) :
    addPrefix r w = if r.ximm.length = 3 then .error .fourthXimm else .ok { r with ximm := r.ximm ++ [w.extractLsb' 0 10] } := by
  rw [addPrefix, h]; rfl

theorem addPrefix_xreg (r : Raw) {w : Half} (h : w.extractLsb' 10 6 = 0x3D#6) :
    addPrefix r w = if r.xreg.isSome then .error .repeatedPrefix else .ok { r with xreg := some (w.extractLsb' 0 10) } := by
  rw [addPrefix, h]; rfl

theorem addPrefix_xpage (r : Raw) {w : Half} (h : w.extractLsb' 10 6 = 0x3E#6) :
    addPrefix r w = if r.xpage then .error .repeatedPrefix
      else if (w.extractLsb' 0 10).extractLsb' 6 4 = 0 || 10 < ((w.extractLsb' 0 10).extractLsb' 6 4).toNat then .error .badPage
      else .ok { r with xpage := true, page := (w.extractLsb' 0 10).extractLsb' 6 4, m6 := (w.extractLsb' 0 10).extractLsb' 0 6 } := by
  rw [addPrefix, h]; rfl

theorem addPrefix_xpred (r : Raw) {w : Half} (h : w.extractLsb' 10 6 = 0x3F#6) :
    addPrefix r w = if r.xpred.isSome then .error .repeatedPrefix
      else if (w.extractLsb' 0 10).extractLsb' 0 5 ≠ 0 then .error .predLow
      else .ok { r with xpred := some (w.extractLsb' 0 10) } := by
  rw [addPrefix, h]; rfl

/-- A prefix word joins the chain. -/
theorem walk_prefix {n : Nat} {r r' : Raw} {w : Half} (ws : List Half) (hn : n < 4) (hw : 0x3C ≤ (w.extractLsb' 10 6).toNat)
    (h : addPrefix r w = .ok r') : walk n r (w :: ws) = walk (n + 1) r' ws := by
  rw [walk, if_neg (Nat.not_lt.2 hw), if_neg (Nat.ne_of_lt hn), h]

/-- A base word ends the chain. -/
theorem walk_base (n : Nat) (r : Raw) (op : BitVec 6) (f : BitVec 10) (ws : List Half) (h : op.toNat < 0x3C) :
    walk n r ((op ++ f) :: ws) = .ok { r with op := op, f10 := f, words := n + 1 } := by
  rw [walk, code_append, payload_append, if_pos h]

/-! ## The prefixes of a chain, in the order in which they are assembled -/

theorem walk_xpage (b : Bool) (p : BitVec 4) (q : BitVec 6) (ws : List Half) (hp : b = true → p ≠ 0 ∧ p.toNat ≤ 10)
    (h0 : b = false → p = 0 ∧ q = 0) :
    walk 0 {} ((if b then [0x3E#6 ++ (p ++ q)] else []) ++ ws) = walk b.toNat { xpage := b, page := p, m6 := q } ws := by
  cases b with
  | false => obtain ⟨rfl, rfl⟩ := h0 rfl; rfl
  | true =>
    obtain ⟨hne, hle⟩ := hp rfl
    refine walk_prefix ws (by omega) (by rw [code_append]; decide) ?_
    rw [addPrefix_xpage _ (code_append ..), payload_append, BitVec.extractLsb'_append_eq_left, BitVec.extractLsb'_append_eq_right,
      if_neg Bool.false_ne_true, if_neg (by simpa using ⟨hne, hle⟩)]

theorem walk_xreg (o : Option (BitVec 10)) {n : Nat} {r : Raw} (ws : List Half) (hn : n < 4) (h : r.xreg = none) :
    walk n r ((o.map (0x3D#6 ++ ·)).toList ++ ws) = walk (n + o.isSome.toNat) { r with xreg := o } ws := by
  cases o with
  | none => rw [show ({ r with xreg := none } : Raw) = r by rw [← h]]; rfl
  | some x =>
    refine walk_prefix ws hn (by rw [code_append]; decide) ?_
    rw [addPrefix_xreg r (code_append ..), payload_append, h, if_neg (by simp)]

theorem walk_xpred (o : Option (BitVec 10)) {n : Nat} {r : Raw} (ws : List Half) (hn : n < 4) (h : r.xpred = none)
    (ho : ∀ x, o = some x → x.extractLsb' 0 5 = 0) :
    walk n r ((o.map (0x3F#6 ++ ·)).toList ++ ws) = walk (n + o.isSome.toNat) { r with xpred := o } ws := by
  cases o with
  | none => rw [show ({ r with xpred := none } : Raw) = r by rw [← h]]; rfl
  | some x =>
    refine walk_prefix ws hn (by rw [code_append]; decide) ?_
    rw [addPrefix_xpred r (code_append ..), payload_append, h, if_neg (by simp), if_neg (by simpa using ho x rfl)]

theorem walk_ximms (xs : List (BitVec 10)) {n : Nat} {r : Raw} (ws : List Half) (hn : n + xs.length ≤ 4)
    (h : r.ximm.length + xs.length ≤ 3) :
    walk n r (xs.map (0x3C#6 ++ ·) ++ ws) = walk (n + xs.length) { r with ximm := r.ximm ++ xs } ws := by
  induction xs generalizing n r with
  | nil => simp
  | cons x xs ih =>
    rw [List.length_cons] at hn h
    have hx : addPrefix r (0x3C#6 ++ x) = .ok { r with ximm := r.ximm ++ [x] } := by
      rw [addPrefix_ximm r (code_append ..), payload_append, if_neg (by omega)]
    rw [List.map_cons, List.cons_append, walk_prefix _ (by omega) (by rw [code_append]; decide) hx,
      ih (by omega) (by rw [List.length_append, List.length_singleton]; omega)]
    simp [Nat.add_assoc, Nat.add_comm]

/-! ## Chains that words can carry -/

/-- How many prefixes a chain has besides XIMM. -/
def Raw.prefixes (r : Raw) : Nat := r.xpage.toNat + r.xreg.isSome.toNat + r.xpred.isSome.toNat

/-- What R55 and R56 ask of the fields of a chain. -/
structure Raw.Carried (r : Raw) : Prop where
  page : r.xpage = true → r.page ≠ 0 ∧ r.page.toNat ≤ 10
  noPage : r.xpage = false → r.page = 0 ∧ r.m6 = 0
  predLow : ∀ x, r.xpred = some x → x.extractLsb' 0 5 = 0
  ximm_le : r.ximm.length ≤ 3
  op_lt : r.op.toNat < 0x3C
  words_eq : r.words = r.prefixes + r.ximm.length + 1

/-- The prefix words of a chain. -/
def Raw.prefixWords (r : Raw) : List Half :=
  (if r.xpage then [0x3E#6 ++ (r.page ++ r.m6)] else []) ++
    ((r.xreg.map (0x3D#6 ++ ·)).toList ++ ((r.xpred.map (0x3F#6 ++ ·)).toList ++ r.ximm.map (0x3C#6 ++ ·)))

theorem assemble_eq (r : Raw) : assemble r = if r.prefixWords.length ≤ 4 then some (r.prefixWords ++ [r.op ++ r.f10]) else none := by
  obtain ⟨page, m6, op, f10, ximm, _ | x, xpage, _ | y, words⟩ := r <;> simp [assemble, Raw.prefixWords]

theorem Raw.prefixWords_length (r : Raw) : r.prefixWords.length = r.prefixes + r.ximm.length := by
  obtain ⟨page, m6, op, f10, ximm, _ | x, _ | _, _ | y, words⟩ := r <;> simp [Raw.prefixWords, Raw.prefixes] <;> omega

/-- The words of a chain are read as that chain, whatever follows them. -/
theorem walk_assemble {r : Raw} {ws : List Half} (h : r.Carried) (ha : assemble r = some ws) (rest : List Half) :
    walk 0 {} (ws ++ rest) = .ok r ∧ ws.length = r.words := by
  rw [assemble_eq] at ha
  split at ha
  next hlen =>
    obtain rfl := Option.some.inj ha
    rw [r.prefixWords_length] at hlen
    have hpage := Bool.toNat_le r.xpage
    have hxreg := Bool.toNat_le r.xreg.isSome
    refine ⟨?_, by rw [List.length_append, r.prefixWords_length, h.words_eq]; rfl⟩
    simp only [Raw.prefixes, Raw.prefixWords, List.append_assoc] at hlen ⊢
    rw [walk_xpage _ _ _ _ h.page h.noPage, walk_xreg _ _ (by omega) rfl, walk_xpred _ _ (by omega) rfl h.predLow,
      walk_ximms _ _ (by omega) (by simpa using h.ximm_le), List.singleton_append, walk_base _ _ _ _ _ h.op_lt, ← Raw.prefixes, ← h.words_eq]
    rfl
  · cases ha

end Sys2Proof
end

section
/-! # Fields: what the decoder reads in a field is what the encoder put there (R52, R53, R64) -/

namespace Sys2Proof

/-! ## Immediates (R52) -/

/-- `b` is the low `k` bits of `v`. -/
def LowBits {w k : Nat} (v : BitVec w) (b : BitVec k) : Prop := ∀ i, b.getLsbD i = (decide (i < k) && v.getLsbD i)

theorem LowBits.setWidth {w : Nat} (v : BitVec w) (k : Nat) : LowBits v (v.setWidth k) := fun _ => BitVec.getLsbD_setWidth ..

/-- An XIMM word joins the low bits below it. -/
theorem LowBits.append {w k : Nat} {v : BitVec w} {b : BitVec k} (hb : LowBits v b) {n : Nat} (hn : n = k) :
    LowBits v (v.extractLsb' n 10 ++ b) := by
  subst hn
  intro i
  rw [BitVec.getLsbD_append, hb, BitVec.getLsbD_extractLsb']
  by_cases h : i < n
  · simp [h, show i < 10 + n by omega]
  · have hk : (i - n < 10) = (i < 10 + n) := by rw [eq_iff_iff]; omega
    simp only [h, hk, decide_false, if_false, show n + (i - n) = i by omega]

/-- The low bits of a value extend as the value cut to them does. -/
theorem LowBits.signExtend {w k : Nat} {v : BitVec w} {b : BitVec k} (hb : LowBits v b) {l : Nat} (hl : l = k) :
    b.signExtend w = (v.setWidth l).signExtend w := by
  subst hl
  rw [show b = v.setWidth l from BitVec.eq_of_getLsbD_eq fun i _ => (hb i).trans (LowBits.setWidth v l i).symm]

/-- Every value of at most 30 bits more than the base field is the sign extension of the words that carry it. -/
theorem extS_splitS {bw w : Nat} (v : BitVec w) (hw : w = bw + 30) : extS bw w (splitS bw v).1 (splitS bw v).2 = v := by
  have h0 := LowBits.setWidth v bw
  have h1 := h0.append (n := bw + 10 * 0) rfl
  have h2 := h1.append (n := bw + 10 * 1) (by omega)
  have h3 := h2.append (n := bw + 10 * 2) (by omega)
  simp only [splitS]
  split
  next e => exact e
  split
  next e => exact (h1.signExtend (by omega)).trans e
  split
  next e => exact (h2.signExtend (by omega)).trans e
  exact (h3.signExtend (l := w) (by omega)).trans (by simp)

/-- The number of two words, one above the other. -/
theorem toNat_append_eq {k l : Nat} (a : BitVec k) (b : BitVec l) : (a ++ b).toNat = a.toNat * 2 ^ l + b.toNat := by
  rw [BitVec.toNat_append, ← Nat.shiftLeft_add_eq_or_of_lt b.isLt, Nat.shiftLeft_eq]

/-- The value that XIMM words carry, as a number: each word counts 1024 of the next. -/
theorem toNat_ximmVal_one (x : BitVec 10) : (ximmVal [x]).toNat = x.toNat := by
  exact BitVec.toNat_setWidth_of_le (by omega)

theorem toNat_ximmVal_two (x y : BitVec 10) : (ximmVal [x, y]).toNat = x.toNat * 1024 + y.toNat := by
  simp only [ximmVal, BitVec.toNat_setWidth, toNat_append_eq]
  omega

theorem toNat_ximmVal_three (x y z : BitVec 10) (xs : List (BitVec 10)) :
    (ximmVal (x :: y :: z :: xs)).toNat = (x.toNat * 1024 + y.toNat) * 1024 + z.toNat := by
  simp only [ximmVal, toNat_append_eq, Nat.reducePow]

/-- An immediate that is extended by zeros is the words above its base field. -/
theorem toNat_extU (bw w : Nat) (xs : List (BitVec 10)) (b : BitVec bw) :
    (extU bw w xs b).toNat = ((ximmVal xs).toNat * 2 ^ bw + b.toNat) % 2 ^ w := by
  rcases xs with _ | ⟨x, _ | ⟨y, _ | ⟨z, xs⟩⟩⟩
  · simp [extU, ximmVal]
  · simp only [extU, BitVec.toNat_setWidth, toNat_append_eq, toNat_ximmVal_one]
  · simp only [extU, BitVec.toNat_setWidth, toNat_append_eq, toNat_ximmVal_two]
    ring_nf
  · simp only [extU, BitVec.toNat_setWidth, toNat_append_eq, toNat_ximmVal_three]
    ring_nf

/-- The words above the base field of a value carry what the value has above it. -/
theorem toNat_ximmVal_splitU {bw w : Nat} (v : BitVec w) (hv : v.toNat < 2 ^ (bw + 30)) :
    (ximmVal (splitU bw v).1).toNat = v.toNat / 2 ^ bw := by
  have hq (k : Nat) : v.toNat < 2 ^ (bw + k) ↔ v.toNat / 2 ^ bw < 2 ^ k := by
    rw [Nat.div_lt_iff_lt_mul (Nat.two_pow_pos bw), ← Nat.pow_add, Nat.add_comm]
  have hx (k : Nat) : (v.extractLsb' (bw + k) 10).toNat = v.toNat / 2 ^ bw / 2 ^ k % 2 ^ 10 := by
    rw [BitVec.extractLsb'_toNat, Nat.shiftRight_eq_div_pow, Nat.pow_add, Nat.div_div_eq_div_mul]
  have h0 : v.toNat < 2 ^ bw ↔ v.toNat / 2 ^ bw = 0 := (Nat.div_eq_zero_iff_lt (Nat.two_pow_pos bw)).symm
  simp only [splitU, h0, hq] at hv ⊢
  generalize v.toNat / 2 ^ bw = q at *
  split
  · simp [ximms, ximmVal, *]
  split
  · rw [ximms, ximms, toNat_ximmVal_one, hx]
    omega
  split
  · rw [ximms, ximms, ximms, toNat_ximmVal_two, hx, hx]
    omega
  · rw [ximms, ximms, ximms, ximms, toNat_ximmVal_three, hx, hx, hx]
    omega

/-- A value of at most 30 bits more than the base field is the zero extension of the words that carry it. -/
theorem extU_splitU {bw w : Nat} (v : BitVec w) (hv : v.toNat < 2 ^ (bw + 30)) : extU bw w (splitU bw v).1 (splitU bw v).2 = v := by
  apply BitVec.eq_of_toNat_eq
  have hbase : (splitU bw v).2.toNat = v.toNat % 2 ^ bw := BitVec.toNat_setWidth ..
  rw [toNat_extU, toNat_ximmVal_splitU v hv, hbase, Nat.mul_comm, Nat.div_add_mod, Nat.mod_eq_of_lt v.isLt]

/-- A literal of a tagged source is the words above its three bits (R64). -/
theorem lit_splitU (v : Word) (hv : v.toNat < 2 ^ 33) : (ximmVal (splitU 3 v).1 ++ v.setWidth 3).setWidth 64 = v := by
  apply BitVec.eq_of_toNat_eq
  rw [BitVec.toNat_setWidth, toNat_append_eq, toNat_ximmVal_splitU v hv, BitVec.toNat_setWidth, Nat.mul_comm, Nat.div_add_mod,
    Nat.mod_eq_of_lt v.isLt]

theorem ximms_length (w : Nat) (v : BitVec w) (bw n : Nat) : (ximms w v bw n).length = n := by
  induction n with
  | zero => rfl
  | succ n ih => rw [ximms, List.length_cons, ih]

theorem splitS_length (bw : Nat) {w : Nat} (v : BitVec w) : (splitS bw v).1.length ≤ 3 := by
  rw [splitS, ximms_length]
  split_ifs <;> decide

theorem splitU_length (bw : Nat) {w : Nat} (v : BitVec w) : (splitU bw v).1.length ≤ 3 := by
  rw [splitU, ximms_length]
  split_ifs <;> decide

/-- A value of the base field needs no XIMM. -/
theorem splitU_small {bw w : Nat} (v : BitVec w) (hv : v.toNat < 2 ^ bw) : (splitU bw v).1 = [] := by
  rw [splitU, if_pos hv]
  rfl

/-! ## Registers (R53) -/

theorem regOf_fD (d : Reg) : regOf (fD d).1 (fD d).2.1 = d := by
  cases d with
  | priv n => revert n; decide
  | shared n => revert n; decide

theorem fD_ximm (d : Reg) : (fD d).2.2 = [] := by cases d <;> rfl

theorem fD_priv_bank (n : BitVec 5) : (fD (.priv n)).1.getLsbD 4 = false := by revert n; decide

/-- A register field that is written (R53, R64). -/
theorem dstOf_fD {m : DecMode} {d : Reg} (h : okDst m d = true) : dstOf m (fD d).1 (fD d).2.1 = some d := by
  have hbank : (m.maint && (fD d).1.getLsbD 4) = false := by
    cases d with
    | priv n => rw [fD_priv_bank, Bool.and_false]
    | shared n => rw [show m.maint = false by simpa [okDst] using h, Bool.false_and]
  rw [dstOf, hbank, regOf_fD]
  rfl

theorem pregOf_setWidth (p : PReg) : pregOf (p.setWidth 5) false = some p := by revert p; decide

/-! ## Sources (R53, R64) -/

/-- `e` is a field that `rd` reads as the source `b`; `lit` says that `b` is an inline literal, whose XIMM words `e` lists. -/
structure FieldOf {β : Type} (m : DecMode) (rd : BitVec 5 → Bool → BitVec 30 → Option β) (e : EField) (lit : Bool) (b : β) : Prop where
  read : ∀ x, (lit = true → x = ximmVal e.2.2) → rd e.1 e.2.1 x = some b
  maint : lit = true → m.maint = true
  tag : m.maint = true → (e.1.extractLsb' 3 2 = 3 ↔ lit = true)
  noXimm : lit = false → e.2.2 = []
  len : e.2.2.length ≤ 3

/-- The tag of a source in maintenance decode (R64). -/
theorem tag_append (t : BitVec 2) (x : BitVec 3) : (t ++ x : BitVec 5).extractLsb' 3 2 = t := BitVec.extractLsb'_append_eq_left

theorem index_append (t : BitVec 2) (x : BitVec 3) : (t ++ x : BitVec 5).extractLsb' 0 3 = x := BitVec.extractLsb'_append_eq_right

/-- A private register that a tagged source can name. -/
theorem tagIx_priv (t : BitVec 2) {n : BitVec 5} (hn : n.toNat < 16) :
    (tagIx (t ++ n.setWidth 3) (n.getLsbD 3)).setWidth 5 = n := by
  rw [tagIx, index_append]
  revert n
  decide

theorem tagIx_const (t : BitVec 2) (n : BitVec 4) : tagIx (t ++ n.setWidth 3) (n.getLsbD 3) = n := by
  rw [tagIx, index_append]
  revert n
  decide

theorem rdS_normal {m : DecMode} (hm : m.maint = false) (f : BitVec 5) (hi : Bool) (x : BitVec 30) :
    rdS m f hi x = some (.reg (regOf f hi)) := by
  rw [rdS, hm]; rfl

/-! The scalar source fields of maintenance decode, by tag (R64). -/

theorem rdS_tag_reg {m : DecMode} (hm : m.maint = true) (i : BitVec 3) (hi : Bool) (x : BitVec 30) :
    rdS m (1#2 ++ i) hi x = some (.reg (.priv ((tagIx (1#2 ++ i) hi).setWidth 5))) := by
  rw [rdS, hm, if_pos rfl, tag_append]; rfl

theorem rdS_tag_const {m : DecMode} (hm : m.maint = true) (i : BitVec 3) (hi : Bool) (x : BitVec 30) :
    rdS m (2#2 ++ i) hi x = some (.const (tagIx (2#2 ++ i) hi)) := by
  rw [rdS, hm, if_pos rfl, tag_append]; rfl

theorem rdS_tag_lit {m : DecMode} (hm : m.maint = true) (i : BitVec 3) (x : BitVec 30) :
    rdS m (3#2 ++ i) false x = some (.lit ((x ++ i).setWidth 64)) := by
  rw [rdS, hm, if_pos rfl, tag_append, index_append]; rfl

/-- A register, in either decode. -/
theorem FieldOf.reg {m : DecMode} {wide : Bool} {r : Reg} (h : okS m wide (.reg r) = true) : FieldOf m (rdS m) (fS m (.reg r)) false (.reg r) := by
  cases hm : m.maint with
  | false =>
    refine ⟨fun x _ => ?_, nofun, by simp [hm], fun _ => ?_, ?_⟩ <;>
    simp [fS, hm, rdS_normal, regOf_fD, fD_ximm]
  | true =>
    cases r with
    | shared n => simp [okS, hm] at h
    | priv n =>
      have hn : n.toNat < 16 := by simpa [okS, hm] using h
      have hf : fS m (.reg (.priv n)) = (1#2 ++ n.setWidth 3, n.getLsbD 3, []) := by rw [fS, hm]; rfl
      refine ⟨fun x _ => ?_, nofun, fun _ => ?_, fun _ => ?_, ?_⟩ <;> rw [hf]
      · rw [rdS_tag_reg hm, tagIx_priv _ hn]
      · rw [tag_append]; decide
      · exact Nat.zero_le _

theorem fieldOf_fS {m : DecMode} {wide : Bool} {a : SSrc} (h : okS m wide a = true) : FieldOf m (rdS m) (fS m a) (isLitS a) a := by
  cases a with
  | reg r => exact .reg h
  | const n =>
    have hm : m.maint = true := h
    refine ⟨fun x _ => ?_, nofun, fun _ => ?_, fun _ => rfl, Nat.zero_le _⟩
    · rw [fS, rdS_tag_const hm, tagIx_const]
    · simp [fS, tag_append, isLitS]
  | lit v =>
    simp only [okS, Bool.and_eq_true, decide_eq_true_eq] at h
    obtain ⟨hm, hv⟩ := h
    have hv : v.toNat < 2 ^ 33 := by split at hv <;> omega
    refine ⟨fun x hx => ?_, fun _ => hm, fun _ => ?_, nofun, splitU_length 3 v⟩
    · rw [fS, rdS_tag_lit hm, hx rfl, fS, lit_splitU v hv]
    · simp [fS, tag_append, isLitS]

/-- A literal that XIMM may not extend has no XIMM words. -/
theorem fS_narrow {m : DecMode} {a : SSrc} (h : okS m false a = true) : (fS m a).2.2 = [] := by
  cases a with
  | reg r => exact (FieldOf.reg h).noXimm rfl
  | const n => rfl
  | lit v =>
    simp only [okS, Bool.and_eq_true, decide_eq_true_eq] at h
    exact splitU_small v h.2

/-- A vector register, in either decode. -/
theorem FieldOf.vreg {m : DecMode} {wide : Bool} {r : Reg} (h : okV m wide (.reg r) = true) : FieldOf m (rdV m) (fV m (.reg r)) false (.reg r) := by
  cases hm : m.maint with
  | false =>
    refine ⟨fun x _ => ?_, nofun, by simp [hm], fun _ => ?_, ?_⟩ <;>
    simp [fV, hm, rdV, regOf_fD, fD_ximm]
  | true =>
    cases r with
    | shared n => simp [okV, hm] at h
    | priv n =>
      have hn : n.toNat < 16 := by simpa [okV, hm] using h
      have hf : fV m (.reg (.priv n)) = (0#2 ++ n.setWidth 3, n.getLsbD 3, []) := by rw [fV, hm]; rfl
      refine ⟨fun x _ => ?_, nofun, fun _ => ?_, fun _ => ?_, ?_⟩ <;> rw [hf]
      · rw [rdV, hm, if_pos rfl, tag_append, tagIx_priv _ hn]; rfl
      · rw [tag_append]; decide
      · exact Nat.zero_le _

/-- A scalar source broadcast (R64): its tag is not that of a vector register. -/
theorem rdV_bcast {m : DecMode} (hm : m.maint = true) {f : BitVec 5} {hi : Bool} {x : BitVec 30} {s : SSrc} (h : rdS m f hi x = some s) :
    rdV m f hi x = some (.bcast s) := by
  rw [rdV, hm, if_pos rfl]
  split
  next h0 => rw [rdS, hm, if_pos rfl, h0] at h; cases h
  · rw [h]; rfl

theorem fieldOf_fV {m : DecMode} {wide : Bool} {a : VSrc} (h : okV m wide a = true) : FieldOf m (rdV m) (fV m a) (isLitV a) a := by
  cases a with
  | reg r => exact .vreg h
  | bcast s =>
    simp only [okV, Bool.and_eq_true] at h
    obtain ⟨hm, hs⟩ := h
    have hlit : isLitV (.bcast s) = isLitS s := by cases s <;> rfl
    have f := fieldOf_fS hs
    rw [hlit]
    exact ⟨fun x hx => rdV_bcast hm (f.read x hx), f.maint, f.tag, f.noXimm, f.len⟩

theorem fV_narrow {m : DecMode} {a : VSrc} (h : okV m false a = true) : (fV m a).2.2 = [] := by
  cases a with
  | reg r => exact (FieldOf.vreg h).noXimm rfl
  | bcast s =>
    simp only [okV, Bool.and_eq_true] at h
    exact fS_narrow h.2

end Sys2Proof
end

section
/-! # Shapes: what the fields of an encoded chain read as (R55, R60, R61, R64) -/

namespace Sys2Proof

/-! ## The payload of XREG (R55) -/

theorem optXreg_getD (x : BitVec 10) : (optXreg x).getD 0 = x := by
  unfold optXreg
  split
  next h => exact h.symm
  · rfl

section Xreg

variable {r : Raw} {c : BitVec 5} {a4 b4 c4 : Bool} {m2 : BitVec 2}

theorem fc_of_xr (h : r.xr = xregOf c a4 b4 c4 m2) : r.fc = c := by
  rw [Raw.fc, h]
  exact BitVec.extractLsb'_append_eq_left

theorem m2_of_xr (h : r.xr = xregOf c a4 b4 c4 m2) : r.m2 = m2 := by
  rw [Raw.m2, h]
  refine BitVec.eq_of_getLsbD_eq fun i hi => ?_
  simp only [xregOf, BitVec.getLsbD_extractLsb', Nat.zero_add, BitVec.getLsbD_append]
  simp [hi, show i < 3 by omega, show i < 4 by omega, show i < 5 by omega]

theorem a4_of_xr (h : r.xr = xregOf c a4 b4 c4 m2) : r.a4 = a4 := by
  rw [Raw.a4, h]
  simp only [xregOf, BitVec.getLsbD_append]
  simp

theorem b4_of_xr (h : r.xr = xregOf c a4 b4 c4 m2) : r.b4 = b4 := by
  rw [Raw.b4, h]
  simp only [xregOf, BitVec.getLsbD_append]
  simp

theorem c4_of_xr (h : r.xr = xregOf c a4 b4 c4 m2) : r.c4 = c4 := by
  rw [Raw.c4, h]
  simp only [xregOf, BitVec.getLsbD_append]
  simp

end Xreg

/-! ## Predication (R61) -/

theorem encPred_low (g : Pred) (x : BitVec 10) (h : encPred g = some x) : x.extractLsb' 0 5 = 0 := by
  cases g with
  | always => cases h
  | whole p s => obtain rfl := Option.some.inj h; revert p s; decide
  | lanes p s => obtain rfl := Option.some.inj h; revert p s; decide

theorem predL_of_encPred {r : Raw} {g : Pred} (h : r.xpred = encPred g) : predL r = some g := by
  cases g with
  | always => rw [predL, h]; rfl
  | whole p s => rw [predL, h]; clear h; revert p s; decide
  | lanes p s => rw [predL, h]; clear h; revert p s; decide

theorem predW_of_encPred {r : Raw} {g : Pred} (h : r.xpred = encPred g) (hg : (!g.isLanes) = true) : predW r = some g := by
  cases g with
  | always => rw [predW, h]; rfl
  | whole p s => rw [predW, h]; clear h hg; revert p s; decide
  | lanes p s => cases hg

/-! ## Encoded chains -/

/-- The fields of a chain: its predication, fa, fb and fc with their number bits, m2, m6 and its XIMM words. -/
structure Shaped (r : Raw) (g : Pred) (a b c : EField) (m2 : BitVec 2) (m6 : BitVec 6) (xs : List (BitVec 10)) : Prop where
  pred : r.xpred = encPred g
  fa : r.fa = a.1
  a4 : r.a4 = a.2.1
  fb : r.fb = b.1
  b4 : r.b4 = b.2.1
  fc : r.fc = c.1
  c4 : r.c4 = c.2.1
  m2 : r.m2 = m2
  m6 : r.m6 = m6
  ximm : r.ximm = xs

/-- A field that holds a number and not a register. -/
abbrev plain (n : BitVec 5) : EField := (n, false, [])

theorem mkRaw_shaped (g : Pred) {x : Option (BitVec 10)} (xs : List (BitVec 10)) (a b c : EField) {m2 : BitVec 2} (m6 : BitVec 6) (p n : Nat)
    (hx : x.getD 0 = xregOf c.1 a.2.1 b.2.1 c.2.1 m2) : Shaped (mkRaw g x xs (a.1 ++ b.1) m6 p n) g a b c m2 m6 xs where
  pred := rfl
  fa := BitVec.extractLsb'_append_eq_left
  a4 := a4_of_xr hx
  fb := BitVec.extractLsb'_append_eq_right
  b4 := b4_of_xr hx
  fc := fc_of_xr hx
  c4 := c4_of_xr hx
  m2 := m2_of_xr hx
  m6 := rfl
  ximm := rfl

/-- A page and a code that words can carry; page 0 has no m6. -/
abbrev Listed (p n : Nat) (m6 : BitVec 6) : Prop := p ≤ 10 ∧ n < 0x3C ∧ (p = 0 → m6 = 0)

theorem mkRaw_carried {g : Pred} {x : Option (BitVec 10)} {xs : List (BitVec 10)} {f : BitVec 10} {m6 : BitVec 6} {p n : Nat}
    (hl : Listed p n m6) (hx : xs.length ≤ 3) : (mkRaw g x xs f m6 p n).Carried := by
  obtain ⟨hp, hn, h0⟩ := hl
  have hpage : (BitVec.ofNat 4 p).toNat = p := Nat.mod_eq_of_lt (by omega)
  refine ⟨fun h => ⟨fun e => ?_, hpage.trans_le hp⟩, fun h => ?_, encPred_low g, hx, ?_, ?_⟩
  · have : p = 0 := hpage.symm.trans (congrArg BitVec.toNat e)
    simp [mkRaw, this] at h
  · have : p = 0 := by simpa [mkRaw] using h
    exact ⟨by rw [mkRaw, this]; rfl, h0 this⟩
  · exact (Nat.mod_eq_of_lt (by omega : n < 2 ^ 6)).trans_lt hn
  · simp only [Raw.prefixes, mkRaw]
    cases p != 0 <;> cases x.isSome <;> cases (encPred g).isSome <;> simp <;> omega

/-- The chain of `o`, if any, can be carried by words, and decodes to `i`. -/
def Carries (m : DecMode) (i : Instr) : Option Raw → Prop
  | none => True
  | some r => r.Carried ∧ decodeRaw m r = some i

end Sys2Proof
end

section
/-! # The decoder's shapes on encoded chains (R51, R54, R60, R64, R124, R194) -/

namespace Sys2Proof

/-! ## The shapes of the encoder -/

/-- Without XREG every field of it is zero. -/
theorem xregOf_zero : (none : Option (BitVec 10)).getD 0 = xregOf 0 false false false 0 := by decide

section Encoder

variable (m : DecMode) (g : Pred) (d : Reg) (a b x : EField) (m2 : BitVec 2) (m6 : BitVec 6) (p n : Nat)

theorem eTwo_shaped : Shaped (eTwo g d b m2 m6 p n) g (fD d) b (plain 0) m2 m6 b.2.2 := mkRaw_shaped g _ _ _ _ _ p n (optXreg_getD _)

theorem eTwoI_shaped (i : List (BitVec 10) × BitVec 0) : Shaped (eTwoI g d b i p n) g (fD d) b (plain 0) 0 0 i.1 :=
  mkRaw_shaped g _ _ _ _ _ p n (optXreg_getD _)

theorem eReq3_shaped : Shaped (eReq3 g d a b m2 m6 p n) g a b (fD d) m2 m6 (litXimm a b) := mkRaw_shaped g _ _ _ _ _ p n rfl

theorem eSrc2_shaped : Shaped (eSrc2 g a b m2 m6 p n) g a b (plain 0) m2 m6 [] := mkRaw_shaped g _ _ _ _ _ p n (optXreg_getD _)

theorem eC3_shaped : Shaped (eC3 g x a b m6 p n) g a b x 0 m6 [] := mkRaw_shaped g _ _ _ _ _ p n rfl

theorem eCmp_shaped (q : PReg) : Shaped (eCmp g q a b p n) g a b (fP q) 0 0 (litXimm a b) := mkRaw_shaped g _ _ _ _ _ p n (optXreg_getD _)

theorem eCmpI_shaped (q : PReg) (i : List (BitVec 10) × BitVec 5) : Shaped (eCmpI g q a i p n) g a (plain i.2) (fP q) 0 0 i.1 :=
  mkRaw_shaped g _ _ (plain i.2) _ _ p n (optXreg_getD _)

theorem eFI_shaped (i : List (BitVec 10) × BitVec 5) : Shaped (eFI g d i p n) g (fD d) (plain i.2) (plain 0) 0 0 i.1 :=
  mkRaw_shaped g _ _ (plain i.2) _ _ p n (optXreg_getD _)

theorem eP3_shaped (q s t : PReg) : Shaped (eP3 g q s t p n) g (fP s) (fP t) (fP q) 0 0 [] := mkRaw_shaped g _ (fP s) (fP t) (fP q) _ p n rfl

theorem eP2_shaped (q s : PReg) : Shaped (eP2 g q s p n) g (fP q) (fP s) (plain 0) 0 0 [] := mkRaw_shaped g _ (fP q) (fP s) (plain 0) _ p n xregOf_zero

theorem ePset_shaped (q : PReg) (i : List (BitVec 10) × BitVec 5) : Shaped (ePset g q i p n) g (fP q) (plain i.2) (plain 0) 0 0 i.1 :=
  mkRaw_shaped g _ (fP q) (plain i.2) (plain 0) _ p n xregOf_zero

theorem ePmovp_shaped (q : PReg) : Shaped (ePmovp g q b p n) g (fP q) b (plain 0) 0 0 b.2.2 :=
  mkRaw_shaped g _ (fP q) _ (plain 0) _ p n (optXreg_getD _)

theorem eTbl_shaped (t : BitVec 2) : Shaped (eTbl g t b p n) g (plain (1#3 ++ t)) b (plain 0) 0 0 b.2.2 :=
  mkRaw_shaped g _ (plain (1#3 ++ t)) _ (plain 0) _ p n (optXreg_getD _)

theorem eFM_shaped (o : BitVec 30) : Shaped (eFM g a b o m2 m6 p n) g a b (plain 0) m2 m6 (splitS 0 o).1 :=
  mkRaw_shaped g _ _ _ _ _ p n (optXreg_getD _)

theorem eFMc_shaped (o : BitVec 30) : Shaped (eFMc g a b o x p n) g a b x 0 0 (splitS 0 o).1 := mkRaw_shaped g _ _ _ _ _ p n rfl

theorem eLoop_shaped (i : List (BitVec 10) × BitVec 5) : Shaped (eLoop a i p n) .always a (plain i.2) (plain 0) 0 0 i.1 :=
  mkRaw_shaped _ _ _ (plain i.2) _ _ p n (optXreg_getD _)

theorem eNX_shaped (s t : BitVec 5) : Shaped (eNX g s t p n) g (plain s) (plain t) (plain 0) 0 0 [] :=
  mkRaw_shaped g _ (plain s) (plain t) (plain 0) _ p n xregOf_zero

end Encoder

/-! ## XIMM above the literals of the sources (R64) -/

section Sources

variable {m : DecMode} {r : Raw} {α β : Type} {ra : BitVec 5 → Bool → BitVec 30 → Option α} {rb : BitVec 5 → Bool → BitVec 30 → Option β}
  {ea eb : EField} {la lb : Bool} {a : α} {b : β}

theorem litExt_nil (h : r.ximm = []) (s t : Bool) : litExt m r s t = some (0, 0) := by rw [litExt, h]; rfl

/-- XIMM extends the literal of fb. -/
theorem litExt_fb {xs : List (BitVec 10)} (h : r.ximm = xs) (hne : xs ≠ []) (hm : m.maint = true) (hf : r.fb.extractLsb' 3 2 = 3) (s : Bool) :
    litExt m r s true = some (0, ximmVal xs) := by
  subst h
  rw [litExt, if_neg (by simpa using hne), hm, hf]
  rfl

/-- XIMM extends the literal of fa where fb is none. -/
theorem litExt_fa {xs : List (BitVec 10)} (h : r.ximm = xs) (hne : xs ≠ []) (hm : m.maint = true) (hf : r.fb.extractLsb' 3 2 ≠ 3)
    (ha : r.fa.extractLsb' 3 2 = 3) : litExt m r true true = some (ximmVal xs, 0) := by
  subst h
  rw [litExt, if_neg (by simpa using hne), hm, ha]
  simp [show r.fb.extractLsb' 3 2 ≠ 3#2 from hf]

/-- What XIMM carries reaches fb, the only source. -/
theorem litExt_one (hfb : r.fb = eb.1) (hx : r.ximm = eb.2.2) (f : FieldOf m rb eb lb b) :
    ∃ x, litExt m r false true = some x ∧ rb eb.1 eb.2.1 x.2 = some b := by
  by_cases hnil : eb.2.2 = []
  · exact ⟨_, litExt_nil (hx.trans hnil) _ _, f.read _ fun _ => by rw [hnil]; rfl⟩
  · have hlit : lb = true := by cases lb with
      | false => exact absurd (f.noXimm rfl) hnil
      | true => rfl
    exact ⟨_, litExt_fb hx hnil (f.maint hlit) (by rw [hfb]; exact (f.tag (f.maint hlit)).2 hlit) _, f.read _ fun _ => rfl⟩

/-- The fields `ea` and `eb` are read as the sources `a` and `b`, of which at most one, the literal of fb or else that of fa, has XIMM words. -/
structure Sources (m : DecMode) (ra : BitVec 5 → Bool → BitVec 30 → Option α) (rb : BitVec 5 → Bool → BitVec 30 → Option β) (ea eb : EField)
    (a : α) (b : β) : Prop where
  fst : ∃ la, FieldOf m ra ea la a
  snd : ∃ lb, FieldOf m rb eb lb b ∧ (lb = true → ea.2.2 = [])

theorem litExt_pair (hfa : r.fa = ea.1) (hfb : r.fb = eb.1) (hx : r.ximm = litXimm ea eb) (h : Sources m ra rb ea eb a b) :
    ∃ x, litExt m r true true = some x ∧ ra ea.1 ea.2.1 x.1 = some a ∧ rb eb.1 eb.2.1 x.2 = some b := by
  obtain ⟨⟨la, fa⟩, lb, fb, apart⟩ := h
  cases lb with
  | true =>
    have hm := fb.maint rfl
    have ha := apart rfl
    by_cases hnil : eb.2.2 = []
    · exact ⟨_, litExt_nil (by rw [hx, litXimm, hnil, ha]; rfl) _ _, fa.read _ fun _ => by rw [ha]; rfl, fb.read _ fun _ => by rw [hnil]; rfl⟩
    · have hxb : r.ximm = eb.2.2 := by rw [hx, litXimm, if_neg (by simpa using hnil)]
      exact ⟨_, litExt_fb hxb hnil hm (by rw [hfb]; exact (fb.tag hm).2 rfl) _, fa.read _ fun _ => by rw [ha]; rfl, fb.read _ fun _ => rfl⟩
  | false =>
    have hxa : r.ximm = ea.2.2 := by rw [hx, litXimm, fb.noXimm rfl]; rfl
    by_cases hnil : ea.2.2 = []
    · exact ⟨_, litExt_nil (hxa.trans hnil) _ _, fa.read _ fun _ => by rw [hnil]; rfl, fb.read _ nofun⟩
    · have hlit : la = true := by cases la with
        | false => exact absurd (fa.noXimm rfl) hnil
        | true => rfl
      have hm := fa.maint hlit
      exact ⟨_, litExt_fa hxa hnil hm (fun h => by cases (fb.tag hm).1 (by rw [← hfb]; exact h)) (by rw [hfa]; exact (fa.tag hm).2 hlit),
        fa.read _ fun _ => rfl, fb.read _ nofun⟩

theorem Sources.len (h : Sources m ra rb ea eb a b) : (litXimm ea eb).length ≤ 3 := by
  obtain ⟨⟨_, fa⟩, _, fb, -⟩ := h
  rw [litXimm]
  split
  · exact fa.len
  · exact fb.len

theorem rdS_narrow {s : SSrc} (h : okS m false s = true) : rdS m (fS m s).1 (fS m s).2.1 0 = some s :=
  (fieldOf_fS h).read 0 fun _ => by rw [fS_narrow h]; rfl

theorem rdV_narrow {s : VSrc} (h : okV m false s = true) : rdV m (fV m s).1 (fV m s).2.1 0 = some s :=
  (fieldOf_fV h).read 0 fun _ => by rw [fV_narrow h]; rfl

theorem okS_of_narrow {s : SSrc} (h : okS m false s = true) (wide : Bool) : okS m wide s = true := by
  cases s with
  | reg r => cases r <;> exact h
  | const n => exact h
  | lit v =>
    simp only [okS, Bool.and_eq_true, decide_eq_true_eq] at h ⊢
    exact ⟨h.1, by have := h.2; split <;> simp at * <;> omega⟩

theorem sources_SS {s t : SSrc} (hs : okS m (!isLitS t) s = true) (ht : okS m true t = true) :
    Sources m (rdS m) (rdS m) (fS m s) (fS m t) s t :=
  ⟨⟨_, fieldOf_fS hs⟩, _, fieldOf_fS ht, fun h => fS_narrow (by rwa [h] at hs)⟩

theorem sources_VV {s t : VSrc} (hs : okV m (!isLitV t) s = true) (ht : okV m true t = true) :
    Sources m (rdV m) (rdV m) (fV m s) (fV m t) s t :=
  ⟨⟨_, fieldOf_fV hs⟩, _, fieldOf_fV ht, fun h => fV_narrow (by rwa [h] at hs)⟩

theorem sources_VS {s : VSrc} {t : SSrc} (hs : okV m (!isLitS t) s = true) (ht : okS m true t = true) :
    Sources m (rdV m) (rdS m) (fV m s) (fS m t) s t :=
  ⟨⟨_, fieldOf_fV hs⟩, _, fieldOf_fS ht, fun h => fV_narrow (by rwa [h] at hs)⟩

theorem okS_priv {wide : Bool} {q : Reg} (h : okS m wide (.reg q) = true) (hm : m.maint = true) : q.num.toNat < 16 := by
  cases q with
  | priv n => simpa [okS, hm, Reg.num] using h
  | shared n => simp [okS, hm] at h

theorem okV_priv {wide : Bool} {q : Reg} (h : okV m wide (.reg q) = true) (hm : m.maint = true) : q.num.toNat < 16 := by
  cases q with
  | priv n => simpa [okV, hm, Reg.num] using h
  | shared n => simp [okV, hm] at h

end Sources

/-! ## The shapes of the decoder -/

section Decoder

variable {m : DecMode} {r : Raw} {g : Pred} {d : Reg} {pd : Option Pred} {α β : Type} {ra : BitVec 5 → Bool → BitVec 30 → Option α}
  {rb : BitVec 5 → Bool → BitVec 30 → Option β} {ea eb ec : EField} {la lb : Bool} {a : α} {b : β} {m2 : BitVec 2} {m6 : BitVec 6}
  {xs : List (BitVec 10)}

theorem Shaped.noC (h : Shaped r g ea eb (plain 0) m2 m6 xs) : r.noC = true := by rw [Raw.noC, h.fc, h.c4]; rfl

theorem twoMM_shaped (h : Shaped r g (fD d) eb (plain 0) m2 m6 eb.2.2) (hg : pd = some g) (hd : okDst m d = true) (f : FieldOf m rb eb lb b)
    (k : Pred → Reg → β → Option Instr) : twoMM m r pd (rb r.fb r.b4) k = k g d b := by
  obtain ⟨x, hx, hb⟩ := litExt_one h.fb h.ximm f
  rw [twoMM, if_pos h.noC, hg, hx, h.fa, h.a4, dstOf_fD hd, h.fb, h.b4]
  simp [hb]

theorem req3M_shaped (h : Shaped r g ea eb (fD d) m2 m6 (litXimm ea eb)) (hr : r.xreg.isSome = true) (hg : pd = some g) (hd : okDst m d = true)
    (hs : Sources m ra rb ea eb a b) (k : Pred → Reg → α → β → Option Instr) : req3M m r pd (ra r.fa r.a4) (rb r.fb r.b4) k = k g d a b := by
  obtain ⟨x, hx, ha, hb⟩ := litExt_pair h.fa h.fb h.ximm hs
  obtain ⟨y, hy⟩ := Option.isSome_iff_exists.1 hr
  rw [req3M, hy, hg, hx, h.fa, h.a4, h.fb, h.b4, h.fc, h.c4, dstOf_fD hd]
  simp [ha, hb]

/-- The two forms of an instruction with an optional fc (R54): the short one where the destination is the first source and nothing needs XREG. -/
theorem opt3MM_eOpt3 {same : Bool} {p n : Nat} (hr : r = eOpt3 m g d same ea eb m2 m6 p n) (hg : pd = some g) (hd : okDst m d = true)
    (hs : Sources m ra rb ea eb a b) {own : Reg → α} (hown : same = true → own d = a)
    (hlow : same = true → m.maint = true → d.num.toNat < 16) (hl : Listed p n m6) (k : Pred → Reg → α → β → Option Instr) :
    opt3MM m r pd (ra r.fa r.a4) own (rb r.fb r.b4) k = k g d a b ∧ r.m2 = m2 ∧ r.m6 = m6 ∧ r.Carried := by
  obtain ⟨_, fb, -⟩ := hs.snd
  rw [eOpt3] at hr
  split at hr
  next hshort =>
    simp only [Bool.and_eq_true, Bool.not_eq_true', decide_eq_true_eq] at hshort
    obtain ⟨⟨⟨hsame, hdhi⟩, hbhi⟩, rfl⟩ := hshort
    have h : Shaped r g (fD d) eb (plain 0) 0 m6 eb.2.2 := by
      rw [hr]; exact mkRaw_shaped g _ _ _ _ _ p n (by rw [hdhi, hbhi]; exact xregOf_zero)
    obtain ⟨x, hx, hb⟩ := litExt_one h.fb h.ximm fb
    refine ⟨?_, h.m2, h.m6, by rw [hr]; exact mkRaw_carried hl fb.len⟩
    rw [opt3MM, show r.xreg = none by rw [hr]; rfl, hg, hx, h.fa, h.a4, h.fb, h.b4, dstOf_fD hd]
    simp [hb, hown hsame]
  split at hr
  next hlong =>
    simp only [Bool.and_eq_true, decide_eq_true_eq] at hlong
    exact absurd (hlow hlong.1.1 hlong.1.2) (Nat.not_lt.2 hlong.2)
  · have h : Shaped r g ea eb (fD d) m2 m6 (litXimm ea eb) := by rw [hr]; exact eReq3_shaped ..
    have hx : r.xreg.isSome = true := by rw [hr]; rfl
    refine ⟨?_, h.m2, h.m6, by rw [hr]; exact mkRaw_carried hl hs.len⟩
    obtain ⟨y, hy⟩ := Option.isSome_iff_exists.1 hx
    rw [← req3M_shaped h hx hg hd hs k, opt3MM, req3M, hy]

end Decoder

end Sys2Proof
end

section
/-! # Instructions on encoded chains: each family of instructions that share a form (R51, R54, R60, R111, R124, R194) -/

namespace Sys2Proof

/-! ## Checks that an encoded chain passes -/

theorem noImm_of {r : Raw} (h : r.ximm = []) (x : Option Instr) : noImm r x = x := by rw [noImm, h]; rfl

theorem noPred_of {r : Raw} (h : r.xpred = none) (x : Option Instr) : noPred r x = x := by rw [noPred, h]; rfl

theorem bare_of {r : Raw} (hx : r.xreg = none) (h6 : r.m6 = 0) (x : Option Instr) : bare r x = x := by rw [bare, hx, h6]; rfl

section Checks

variable {α β : Type} {m : DecMode} {r : Raw} {pd : Option Pred} {ra : BitVec 30 → Option α} {rb : BitVec 30 → Option β} {own : Reg → α}

theorem two_eq (h6 : r.m6 = 0) (h2 : r.m2 = 0) (k : Pred → Reg → β → Instr) :
    two m r pd rb k = twoMM m r pd rb fun g d b => some (k g d b) := by rw [two, h6, h2]; rfl

theorem twoM_eq (h6 : r.m6 = 0) (k : Pred → Reg → β → Option Instr) : twoM m r pd rb k = twoMM m r pd rb k := if_pos h6

theorem opt3_eq (h6 : r.m6 = 0) (h2 : r.m2 = 0) (k : Pred → Reg → α → β → Instr) :
    opt3 m r pd ra own rb k = opt3MM m r pd ra own rb fun g d a b => some (k g d a b) := by rw [opt3, h6, h2]; rfl

theorem opt3M_eq (h6 : r.m6 = 0) (k : Pred → Reg → α → β → Option Instr) : opt3M m r pd ra own rb k = opt3MM m r pd ra own rb k := if_pos h6

theorem req3_eq (h6 : r.m6 = 0) (k : Pred → Reg → α → β → Option Instr) : req3 m r pd ra rb k = req3M m r pd ra rb k := if_pos h6

end Checks

/-! ## Codes -/

theorem rndOf_rndCode (q : Rnd) : rndOf (rndCode q) = q := by cases q <;> rfl
theorem widthOf_widthCode (q : Width) : widthOf (widthCode q) = q := by cases q <;> rfl
theorem scopeOf_scopeCode (q : Scope) : scopeOf (scopeCode q).toNat = some q := by cases q <;> rfl
theorem dotOf_dotCode (q : DotMode) : dotOf (dotCode q) = some q := by cases q <;> rfl
theorem satOf_satCode (q : Sat) : satOf (satCode q) = some q := by cases q <;> rfl
theorem blkOf_blkCode (q : BlkTarget) : blkOf (blkCode q) = some q := by cases q <;> rfl
theorem flag1_bit2 (u : Bool) (k : Bool → Instr) : flag1 (bit2 u) k = some (k u) := by cases u <;> rfl
theorem sysOf_sysCode (n : SysReg) : sysOf (sysCode n).toNat = some n := by cases n <;> rfl

/-! ## Two operands -/

section Two

variable {β : Type} {m : DecMode} {r : Raw} {g : Pred} {d : Reg} {pd : Option Pred} {rb : BitVec 5 → Bool → BitVec 30 → Option β} {e : EField}
  {l : Bool} {b : β} {m2 : BitVec 2} {m6 : BitVec 6} {p n : Nat} {i : Instr}

theorem carries_twoMM (hr : r = eTwo g d e m2 m6 p n) (hl : Listed p n m6) (hg : pd = some g) (hd : okDst m d = true) (f : FieldOf m rb e l b)
    {k : Pred → Reg → β → Option Instr} (hdec : decodeRaw m r = twoMM m r pd (rb r.fb r.b4) k) (hk : k g d b = some i) :
    Carries m i (some r) := by
  subst hr
  exact ⟨mkRaw_carried hl f.len, by rw [hdec, twoMM_shaped (eTwo_shaped ..) hg hd f, hk]⟩

theorem eTwo_m2 : (eTwo g d e m2 m6 p n).m2 = m2 := (eTwo_shaped ..).m2

theorem eTwo_m6 : (eTwo g d e m2 m6 p n).m6 = m6 := rfl

theorem eTwo_predW (hg : (!g.isLanes) = true) : predW (eTwo g d e m2 m6 p n) = some g := predW_of_encPred rfl hg

theorem eTwo_predL : predL (eTwo g d e m2 m6 p n) = some g := predL_of_encPred rfl

theorem carries_twoS {b : SSrc} {k : Pred → Reg → SSrc → Instr} (h : (!g.isLanes && okDst m d && okS m true b) = true)
    (hr : r = eTwo g d (fS m b) 0 0 p n) (hdec : decodeRaw m r = two m r (predW r) (rdS m r.fb r.b4) k) (hl : Listed p n 0 := by decide) :
    Carries m (k g d b) (some r) := by
  simp only [Bool.and_eq_true] at h
  obtain ⟨⟨hg, hd⟩, hb⟩ := h
  subst hr
  exact carries_twoMM rfl hl (eTwo_predW hg) hd (fieldOf_fS hb) (hdec.trans (two_eq rfl eTwo_m2 k)) rfl

theorem carries_twoV {b : VSrc} {k : Pred → Reg → VSrc → Instr} (h : (okDst m d && okV m true b) = true)
    (hr : r = eTwo g d (fV m b) 0 0 p n) (hdec : decodeRaw m r = two m r (predL r) (rdV m r.fb r.b4) k) (hl : Listed p n 0 := by decide) :
    Carries m (k g d b) (some r) := by
  simp only [Bool.and_eq_true] at h
  obtain ⟨hd, hb⟩ := h
  subst hr
  exact carries_twoMM rfl hl eTwo_predL hd (fieldOf_fV hb) (hdec.trans (two_eq rfl eTwo_m2 k)) rfl

theorem carries_twoWidth {b : SSrc} {q : Width} {k : Pred → Reg → SSrc → Width → Instr} (h : (!g.isLanes && okDst m d && okS m true b) = true)
    (hr : r = eTwo g d (fS m b) (widthCode q) 0 p n)
    (hdec : decodeRaw m r = twoM m r (predW r) (rdS m r.fb r.b4) fun g d b => some (k g d b (widthOf r.m2))) (hl : Listed p n 0 := by decide) :
    Carries m (k g d b q) (some r) := by
  simp only [Bool.and_eq_true] at h
  obtain ⟨⟨hg, hd⟩, hb⟩ := h
  subst hr
  exact carries_twoMM rfl hl (eTwo_predW hg) hd (fieldOf_fS hb) (hdec.trans (twoM_eq rfl _)) (by rw [eTwo_m2, widthOf_widthCode])

theorem carries_twoRnd {b : VSrc} {q : Rnd} {k : Pred → Reg → VSrc → Rnd → Instr} (h : (okDst m d && okV m true b) = true)
    (hr : r = eTwo g d (fV m b) (rndCode q) 0 p n)
    (hdec : decodeRaw m r = twoM m r (predL r) (rdV m r.fb r.b4) fun g d b => some (k g d b (rndOf r.m2))) (hl : Listed p n 0 := by decide) :
    Carries m (k g d b q) (some r) := by
  simp only [Bool.and_eq_true] at h
  obtain ⟨hd, hb⟩ := h
  subst hr
  exact carries_twoMM rfl hl eTwo_predL hd (fieldOf_fV hb) (hdec.trans (twoM_eq rfl _)) (by rw [eTwo_m2, rndOf_rndCode])

/-- A conversion whose m6 is its part. -/
theorem carries_twoPart {b : VSrc} {w : Nat} {q : BitVec w} {k : Pred → Reg → VSrc → Option Instr} (h : (okDst m d && okV m true b) = true)
    (hr : r = eTwo g d (fV m b) m2 (q.setWidth 6) p n) (hdec : decodeRaw m r = twoP m r (rdV m r.fb r.b4) w k)
    (hk : k g d b = some i) (hl : Listed p n (q.setWidth 6)) : Carries m i (some r) := by
  simp only [Bool.and_eq_true] at h
  obtain ⟨hd, hb⟩ := h
  have hpart : r.m6.toNat < 2 ^ w := by
    subst hr
    rw [eTwo_m6, BitVec.toNat_setWidth]
    exact (Nat.mod_le ..).trans_lt q.isLt
  exact carries_twoMM hr hl (by subst hr; exact eTwo_predL) hd (fieldOf_fV hb) (hdec.trans (if_pos hpart)) hk

/-- The instructions with two operands and no XIMM. -/
theorem carries_twoN {b : SSrc} {k : Pred → Reg → SSrc → Instr} (h : (!g.isLanes && okDst m d && okS m false b) = true)
    (hr : r = eTwo g d (fS m b) 0 0 p n) (hdec : decodeRaw m r = twoN m r k) (hl : Listed p n 0 := by decide) :
    Carries m (k g d b) (some r) := by
  simp only [Bool.and_eq_true] at h
  obtain ⟨⟨hg, hd⟩, hb⟩ := h
  subst hr
  exact carries_twoMM rfl hl (eTwo_predW hg) hd (fieldOf_fS hb)
    (hdec.trans ((noImm_of (fS_narrow hb) _).trans (two_eq rfl eTwo_m2 k))) rfl

/-- The instructions with two operands, a field in m6 and no XIMM. -/
theorem carries_twoN6 {b : SSrc} {k : Pred → Reg → SSrc → Option Instr} (h : (!g.isLanes && okDst m d && okS m false b) = true)
    (hr : r = eTwo g d (fS m b) 0 m6 p n) (hdec : decodeRaw m r = noImm r (twoMM m r (predW r) (rdS m r.fb r.b4) k)) (hk : k g d b = some i)
    (hl : Listed p n m6) : Carries m i (some r) := by
  simp only [Bool.and_eq_true] at h
  obtain ⟨⟨hg, hd⟩, hb⟩ := h
  subst hr
  exact carries_twoMM rfl hl (eTwo_predW hg) hd (fieldOf_fS hb) (hdec.trans (noImm_of (fS_narrow hb) _)) hk

end Two

/-! ## Three operands -/

section Three

variable {α β : Type} {m : DecMode} {r : Raw} {g : Pred} {d : Reg} {pd : Option Pred} {ra : BitVec 5 → Bool → BitVec 30 → Option α}
  {rb : BitVec 5 → Bool → BitVec 30 → Option β} {ea eb : EField} {a : α} {b : β} {m2 : BitVec 2} {m6 : BitVec 6} {p n : Nat} {i : Instr}

/-- A chain on another page, with another code. -/
def Raw.at (r : Raw) (p n : Nat) : Raw := { r with page := BitVec.ofNat 4 p, op := BitVec.ofNat 6 n }

theorem eOpt3_at {same : Bool} (hr : r = eOpt3 m g d same ea eb m2 m6 p n) : r.at p n = r := by
  subst hr
  unfold eOpt3
  split
  · rfl
  split <;> rfl

theorem eOpt3_xpred (same : Bool) : (eOpt3 m g d same ea eb m2 m6 p n).xpred = encPred g := by
  unfold eOpt3
  split
  · rfl
  split <;> rfl

theorem eOpt3_predW {same : Bool} (hg : (!g.isLanes) = true) : predW (eOpt3 m g d same ea eb m2 m6 p n) = some g :=
  predW_of_encPred (eOpt3_xpred same) hg

theorem eOpt3_predL {same : Bool} : predL (eOpt3 m g d same ea eb m2 m6 p n) = some g := predL_of_encPred (eOpt3_xpred same)

/-- The instructions with an optional fc, whatever their sources. -/
theorem carries_opt3MM {same : Bool} {own : Reg → α} {k : Pred → Reg → α → β → Option Instr} (hr : r = eOpt3 m g d same ea eb m2 m6 p n)
    (hg : pd = some g) (hd : okDst m d = true) (hs : Sources m ra rb ea eb a b) (hown : same = true → own d = a)
    (hlow : same = true → m.maint = true → d.num.toNat < 16)
    (hdec : r.m2 = m2 → r.m6 = m6 → decodeRaw m r = opt3MM m r pd (ra r.fa r.a4) own (rb r.fb r.b4) k)
    (hk : r.m2 = m2 → r.m6 = m6 → k g d a b = some i) (hl : Listed p n m6) : Carries m i (some r) := by
  obtain ⟨he, h2, h6, hc⟩ := opt3MM_eOpt3 hr hg hd hs hown hlow hl k
  exact ⟨hc, (hdec h2 h6).trans (he.trans (hk h2 h6))⟩

theorem carries_opt3S {a b : SSrc} {k : Pred → Reg → SSrc → SSrc → Instr}
    (h : (!g.isLanes && okDst m d && okS m (!isLitS b) a && okS m true b) = true)
    (hr : r = eOpt3 m g d (a == .reg d) (fS m a) (fS m b) 0 0 p n)
    (hdec : ∀ x : Raw, decodeRaw m (x.at p n) = opt3 m (x.at p n) (predW (x.at p n)) (rdS m (x.at p n).fa (x.at p n).a4) SSrc.reg
      (rdS m (x.at p n).fb (x.at p n).b4) k) (hl : Listed p n 0 := by decide) : Carries m (k g d a b) (some r) := by
  simp only [Bool.and_eq_true] at h
  obtain ⟨⟨⟨hg, hd⟩, ha⟩, hb⟩ := h
  have hsame (e : (a == .reg d) = true) : .reg d = a := (eq_of_beq e).symm
  exact carries_opt3MM hr (by rw [hr]; exact eOpt3_predW hg) hd (sources_SS ha hb) hsame (fun e => okS_priv (by rw [hsame e]; exact ha))
    (fun h2 h6 => (eOpt3_at hr ▸ hdec r).trans (opt3_eq h6 h2 k)) (fun _ _ => rfl) hl

/-- Those whose first source is a vector; the second may be a scalar. -/
theorem carries_opt3MV {a : VSrc} {k : Pred → Reg → VSrc → β → Option Instr} (hd : okDst m d = true) {wide : Bool} (ha : okV m wide a = true)
    (hs : Sources m (rdV m) rb (fV m a) eb a b) (hr : r = eOpt3 m g d (a == .reg d) (fV m a) eb m2 m6 p n) (hg : pd = some g)
    (hdec : r.m2 = m2 → r.m6 = m6 → decodeRaw m r = opt3MM m r pd (rdV m r.fa r.a4) VSrc.reg (rb r.fb r.b4) k)
    (hk : r.m2 = m2 → r.m6 = m6 → k g d a b = some i) (hl : Listed p n m6) : Carries m i (some r) := by
  have hsame (e : (a == .reg d) = true) : .reg d = a := (eq_of_beq e).symm
  exact carries_opt3MM hr hg hd hs hsame (fun e => okV_priv (by rw [hsame e]; exact ha)) hdec hk hl

theorem carries_opt3V {a b : VSrc} {k : Pred → Reg → VSrc → VSrc → Instr} (h : (okDst m d && okV m (!isLitV b) a && okV m true b) = true)
    (hr : r = eOpt3 m g d (a == .reg d) (fV m a) (fV m b) 0 0 p n)
    (hdec : ∀ x : Raw, decodeRaw m (x.at p n) = opt3 m (x.at p n) (predL (x.at p n)) (rdV m (x.at p n).fa (x.at p n).a4) VSrc.reg (rdV m (x.at p n).fb (x.at p n).b4) k) (hl : Listed p n 0 := by decide) :
    Carries m (k g d a b) (some r) := by
  simp only [Bool.and_eq_true] at h
  obtain ⟨⟨hd, ha⟩, hb⟩ := h
  exact carries_opt3MV hd ha (sources_VV ha hb) hr (by rw [hr]; exact eOpt3_predL) (fun h2 h6 => (eOpt3_at hr ▸ hdec r).trans (opt3_eq h6 h2 k)) (fun _ _ => rfl) hl

theorem carries_opt3Rnd {a b : VSrc} {q : Rnd} {k : Pred → Reg → VSrc → VSrc → Rnd → Instr}
    (h : (okDst m d && okV m (!isLitV b) a && okV m true b) = true) (hr : r = eOpt3 m g d (a == .reg d) (fV m a) (fV m b) (rndCode q) 0 p n)
    (hdec : ∀ x : Raw, decodeRaw m (x.at p n) = opt3M m (x.at p n) (predL (x.at p n)) (rdV m (x.at p n).fa (x.at p n).a4) VSrc.reg (rdV m (x.at p n).fb (x.at p n).b4) fun g d a b => some (k g d a b (rndOf (x.at p n).m2)))
    (hl : Listed p n 0 := by decide) : Carries m (k g d a b q) (some r) := by
  simp only [Bool.and_eq_true] at h
  obtain ⟨⟨hd, ha⟩, hb⟩ := h
  exact carries_opt3MV hd ha (sources_VV ha hb) hr (by rw [hr]; exact eOpt3_predL) (fun _ h6 => (eOpt3_at hr ▸ hdec r).trans (opt3M_eq h6 _)) (fun h2 _ => by rw [h2, rndOf_rndCode]) hl

theorem carries_opt3Flag {a b : VSrc} {u : Bool} {k : Pred → Reg → VSrc → VSrc → Bool → Instr}
    (h : (okDst m d && okV m (!isLitV b) a && okV m true b) = true) (hr : r = eOpt3 m g d (a == .reg d) (fV m a) (fV m b) (bit2 u) 0 p n)
    (hdec : ∀ x : Raw, decodeRaw m (x.at p n) = opt3M m (x.at p n) (predL (x.at p n)) (rdV m (x.at p n).fa (x.at p n).a4) VSrc.reg (rdV m (x.at p n).fb (x.at p n).b4) fun g d a b => flag1 (x.at p n).m2 (k g d a b))
    (hl : Listed p n 0 := by decide) : Carries m (k g d a b u) (some r) := by
  simp only [Bool.and_eq_true] at h
  obtain ⟨⟨hd, ha⟩, hb⟩ := h
  exact carries_opt3MV hd ha (sources_VV ha hb) hr (by rw [hr]; exact eOpt3_predL) (fun _ h6 => (eOpt3_at hr ▸ hdec r).trans (opt3M_eq h6 _)) (fun h2 _ => by rw [h2, flag1_bit2]) hl

theorem carries_req3M (hr : r = eReq3 g d ea eb m2 m6 p n) (hl : Listed p n m6) (hg : pd = some g) (hd : okDst m d = true)
    (hs : Sources m ra rb ea eb a b) {k : Pred → Reg → α → β → Option Instr}
    (hdec : decodeRaw m r = req3M m r pd (ra r.fa r.a4) (rb r.fb r.b4) k) (hk : k g d a b = some i) : Carries m i (some r) := by
  subst hr
  exact ⟨mkRaw_carried hl hs.len, by rw [hdec, req3M_shaped (eReq3_shaped ..) rfl hg hd hs, hk]⟩

theorem eReq3_m2 : (eReq3 g d ea eb m2 m6 p n).m2 = m2 := (eReq3_shaped ..).m2

theorem eReq3_predW (hg : (!g.isLanes) = true) : predW (eReq3 g d ea eb m2 m6 p n) = some g := predW_of_encPred rfl hg

theorem eReq3_predL : predL (eReq3 g d ea eb m2 m6 p n) = some g := predL_of_encPred rfl

/-- The vector instructions with a required fc. -/
theorem carries_req3V {a b : VSrc} {k : Pred → Reg → VSrc → VSrc → Option Instr} (h : (okDst m d && okV m (!isLitV b) a && okV m true b) = true)
    (hr : r = eReq3 g d (fV m a) (fV m b) m2 m6 p n) (hdec : decodeRaw m r = req3M m r (predL r) (rdV m r.fa r.a4) (rdV m r.fb r.b4) k)
    (hk : k g d a b = some i) (hl : Listed p n m6) : Carries m i (some r) := by
  simp only [Bool.and_eq_true] at h
  obtain ⟨⟨hd, ha⟩, hb⟩ := h
  exact carries_req3M hr hl (by rw [hr]; exact eReq3_predL) hd (sources_VV ha hb) hdec hk

theorem carries_req3Rnd {a b : VSrc} {q : Rnd} {k : Pred → Reg → VSrc → VSrc → Rnd → Instr}
    (h : (okDst m d && okV m (!isLitV b) a && okV m true b) = true) (hr : r = eReq3 g d (fV m a) (fV m b) (rndCode q) 0 p n)
    (hdec : decodeRaw m r = req3 m r (predL r) (rdV m r.fa r.a4) (rdV m r.fb r.b4) fun g d a b => some (k g d a b (rndOf r.m2)))
    (hl : Listed p n 0 := by decide) : Carries m (k g d a b q) (some r) := by
  subst hr
  exact carries_req3V h rfl (hdec.trans (req3_eq rfl _)) (by rw [eReq3_m2, rndOf_rndCode]) hl

/-! ## Compares -/

theorem cmp3_eCmp {q : PReg} (hr : r = eCmp g q ea eb p n) (hg : pd = some g) (hs : Sources m ra rb ea eb a b) {k : Pred → PReg → α → β → Instr}
    (hdec : decodeRaw m r = cmp3 m r pd (ra r.fa r.a4) (rb r.fb r.b4) k) (hl : Listed p n 0) : Carries m (k g q a b) (some r) := by
  have h : Shaped r g ea eb (fP q) 0 0 (litXimm ea eb) := by rw [hr]; exact eCmp_shaped ..
  obtain ⟨x, hx, ha, hb⟩ := litExt_pair h.fa h.fb h.ximm hs
  refine ⟨by rw [hr]; exact mkRaw_carried hl hs.len, ?_⟩
  rw [hdec, cmp3, h.m6, h.m2, hg, hx, h.fa, h.a4, h.fb, h.b4, h.fc, h.c4, fP, pregOf_setWidth]
  simp [ha, hb]

theorem carries_cmpS {q : PReg} {a b : SSrc} {k : Pred → PReg → SSrc → SSrc → Instr}
    (h : (!g.isLanes && okS m (!isLitS b) a && okS m true b) = true) (hr : r = eCmp g q (fS m a) (fS m b) p n)
    (hdec : decodeRaw m r = cmp3 m r (predW r) (rdS m r.fa r.a4) (rdS m r.fb r.b4) k) (hl : Listed p n 0 := by decide) :
    Carries m (k g q a b) (some r) := by
  simp only [Bool.and_eq_true] at h
  obtain ⟨⟨hg, ha⟩, hb⟩ := h
  exact cmp3_eCmp hr (by rw [hr]; exact predW_of_encPred rfl hg) (sources_SS ha hb) hdec hl

theorem carries_cmpV {q : PReg} {a b : VSrc} {k : Pred → PReg → VSrc → VSrc → Instr} (h : (okV m (!isLitV b) a && okV m true b) = true)
    (hr : r = eCmp g q (fV m a) (fV m b) p n) (hdec : decodeRaw m r = cmp3 m r (predL r) (rdV m r.fa r.a4) (rdV m r.fb r.b4) k)
    (hl : Listed p n 0 := by decide) : Carries m (k g q a b) (some r) := by
  simp only [Bool.and_eq_true] at h
  exact cmp3_eCmp hr (by rw [hr]; exact predL_of_encPred rfl) (sources_VV h.1 h.2) hdec hl

end Three

/-! ## Immediates (R51, R52, R108) -/

section Immediates

variable {m : DecMode} {r : Raw} {g : Pred} {d : Reg} {pd : Option Pred} {p n : Nat} {i : Instr}

theorem immS_eFI (g : Pred) (d : Reg) (v : BitVec 35) (p n : Nat) : immS 35 (eFI g d (splitS 5 v) p n) = v := by
  rw [immS, (eFI_shaped ..).ximm, (eFI_shaped ..).fb, extS_splitS v rfl]

theorem immU_eFI (g : Pred) (d : Reg) (v : BitVec 35) (p n : Nat) : immU 35 (eFI g d (splitU 5 v) p n) = v := by
  rw [immU, (eFI_shaped ..).ximm, (eFI_shaped ..).fb, extU_splitU v v.isLt]

theorem fiP_eFI {x : List (BitVec 10) × BitVec 5} (hr : r = eFI g d x p n) (hg : pd = some g) (hd : okDst m d = true) {γ : Type} (v : γ)
    (k : Pred → Reg → γ → Option Instr) : fiP m r pd v k = k g d v := by
  have h : Shaped r g (fD d) (plain x.2) (plain 0) 0 0 x.1 := by rw [hr]; exact eFI_shaped ..
  rw [fiP, h.noC, h.m2, h.m6, h.b4, hg, h.fa, h.a4, dstOf_fD hd]
  rfl

theorem carries_fiS {v : BitVec 35} {k : Pred → Reg → BitVec 35 → Instr} (h : (!g.isLanes && okDst m d) = true)
    (hr : r = eFI g d (splitS 5 v) p n) (hdec : decodeRaw m r = fi m r (immS 35 r) fun g d i => some (k g d i))
    (hl : Listed p n 0 := by decide) : Carries m (k g d v) (some r) := by
  simp only [Bool.and_eq_true] at h
  subst hr
  refine ⟨mkRaw_carried hl (splitS_length 5 v), ?_⟩
  rw [hdec, fi, fiP_eFI rfl (predW_of_encPred rfl h.1) h.2, immS_eFI]

theorem carries_fiU {v : BitVec 35} {k : Pred → Reg → BitVec 35 → Option Instr} (h : (!g.isLanes && okDst m d) = true)
    (hr : r = eFI g d (splitU 5 v) p n) (hdec : decodeRaw m r = fi m r (immU 35 r) k) (hk : k g d v = some i)
    (hl : Listed p n 0 := by decide) : Carries m i (some r) := by
  simp only [Bool.and_eq_true] at h
  subst hr
  refine ⟨mkRaw_carried hl (splitU_length 5 v), ?_⟩
  rw [hdec, fi, fiP_eFI rfl (predW_of_encPred rfl h.1) h.2, immU_eFI, hk]

/-- A narrow field in a wider immediate passes its check and is cut to its width again. -/
theorem narrow_field {w v : Nat} {γ : Type} (hwv : w ≤ v) (q : BitVec w) (k : BitVec w → γ) :
    (if (q.setWidth v).toNat < 2 ^ w then some (k ((q.setWidth v).setWidth w)) else none) = some (k q) := by
  rw [BitVec.toNat_setWidth_of_le hwv, if_pos q.isLt, BitVec.setWidth_setWidth_of_le _ hwv, BitVec.setWidth_eq]

theorem carries_shift {w : Nat} {q : BitVec w} {k : Pred → Reg → BitVec w → Instr} (h : (!g.isLanes && okDst m d) = true) (hw : w ≤ 35)
    (hr : r = eFI g d (splitU 5 (q.setWidth 35)) p n)
    (hdec : decodeRaw m r = fi m r (immU 35 r) fun g d i => if i.toNat < 2 ^ w then some (k g d (i.setWidth w)) else none)
    (hl : Listed p n 0 := by decide) : Carries m (k g d q) (some r) :=
  carries_fiU h hr hdec (narrow_field hw q (k g d)) hl

theorem carries_vshift {w : Nat} {q : BitVec w} {k : Pred → Reg → BitVec w → Instr} (h : okDst m d = true) (hw : w ≤ 35)
    (hr : r = eFI g d (splitU 5 (q.setWidth 35)) p n)
    (hdec : decodeRaw m r = fiV m r (immU 35 r) fun g d i => if i.toNat < 2 ^ w then some (k g d (i.setWidth w)) else none)
    (hl : Listed p n 0 := by decide) : Carries m (k g d q) (some r) := by
  subst hr
  refine ⟨mkRaw_carried hl (splitU_length 5 _), ?_⟩
  rw [hdec, fiV, fiP_eFI rfl (predL_of_encPred rfl) h, immU_eFI, narrow_field hw q (k g d)]

theorem carries_vaddi {v : BitVec 32} (h : okDst m d = true) : Carries m (.vaddi g d v) (toRaw m (.vaddi g d v)) := by
  refine ⟨mkRaw_carried (by decide) (splitS_length 5 _), ?_⟩
  have hdec (r : Raw) (hr : r = eFI g d (splitS 5 (v.signExtend 35)) 2 0x09) : decodeRaw m r = fiV m r (immS 35 r) fun g d i =>
      if (i.setWidth 32).signExtend 35 = i then some (.vaddi g d (i.setWidth 32)) else none := by subst hr; rfl
  rw [hdec _ rfl, fiV, fiP_eFI rfl (predL_of_encPred rfl) h, immS_eFI]
  have hv : (v.signExtend 35).setWidth 32 = v := BitVec.eq_of_getLsbD_eq fun i hi => by
    rw [BitVec.getLsbD_setWidth, BitVec.getLsbD_signExtend]
    simp [hi, show i < 35 by omega]
  rw [hv, if_pos rfl]

theorem carries_cmpI {q : PReg} {a : SSrc} {x : List (BitVec 10) × BitVec 5} {γ : Type} {v imm : γ} {k : Pred → PReg → SSrc → γ → Instr}
    (h : (!g.isLanes && okS m false a) = true) (hr : r = eCmpI g q (fS m a) x p n) (hx : x.1.length ≤ 3)
    (hdec : decodeRaw m r = cmpI m r imm k) (hv : imm = v) (hl : Listed p n 0 := by decide) : Carries m (k g q a v) (some r) := by
  simp only [Bool.and_eq_true] at h
  have hs : Shaped r g (fS m a) (plain x.2) (fP q) 0 0 x.1 := by rw [hr]; exact eCmpI_shaped ..
  refine ⟨by rw [hr]; exact mkRaw_carried hl hx, ?_⟩
  rw [hdec, hv, cmpI, hs.m2, hs.m6, hs.b4, predW_of_encPred hs.pred h.1, hs.fc, hs.c4, fP, pregOf_setWidth, hs.fa, hs.a4, rdS_narrow h.2]
  rfl

theorem immS_eCmpI (g : Pred) (q : PReg) (a : EField) (v : BitVec 35) (p n : Nat) : immS 35 (eCmpI g q a (splitS 5 v) p n) = v := by
  rw [immS, (eCmpI_shaped ..).ximm, (eCmpI_shaped ..).fb, extS_splitS v rfl]

theorem immU_eCmpI (g : Pred) (q : PReg) (a : EField) (v : BitVec 35) (p n : Nat) : immU 35 (eCmpI g q a (splitU 5 v) p n) = v := by
  rw [immU, (eCmpI_shaped ..).ximm, (eCmpI_shaped ..).fb, extU_splitU v v.isLt]

end Immediates

/-! ## Loads and stores (R194) -/

section Memory

variable {α : Type} {m : DecMode} {r : Raw} {g : Pred} {d : Reg} {pd : Option Pred} {ra : BitVec 5 → Bool → BitVec 30 → Option α}
  {ea : EField} {a : α} {b : SSrc} {o : BitVec 30} {m2 : BitVec 2} {p n : Nat} {i : Instr}

/-- The offset of a load or store has no base field. -/
theorem offset_splitS (o : BitVec 30) : extS 0 30 (splitS 0 o).1 0 = o := by
  have h := extS_splitS (bw := 0) o rfl
  rwa [show (splitS 0 o).2 = 0 from Subsingleton.elim ..] at h

theorem fmD_shaped {xs : List (BitVec 10)} (h : Shaped r g (fD d) (fS m b) (plain 0) m2 0 xs) (hxs : xs = (splitS 0 o).1) (hg : pd = some g)
    (hd : okDst m d = true) (hb : okS m false b = true) (k : Pred → Reg → SSrc → BitVec 30 → Instr) : fmD m r pd m2 k = some (k g d b o) := by
  rw [fmD, h.noC, h.m2, h.m6, hg, h.fa, h.a4, dstOf_fD hd, h.fb, h.b4, h.ximm, hxs, offset_splitS, rdS_narrow hb]
  simp

theorem fmS_shaped (h : Shaped r g ea (fS m b) (plain 0) m2 0 (splitS 0 o).1) (hg : pd = some g) (ha : ra ea.1 ea.2.1 0 = some a)
    (hb : okS m false b = true) (k : Pred → α → SSrc → BitVec 30 → Instr) : fmS m r pd m2 (ra r.fa r.a4) k = some (k g a b o) := by
  rw [fmS, h.noC, h.m2, h.m6, hg, h.fa, h.a4, ha, h.fb, h.b4, h.ximm, offset_splitS, rdS_narrow hb]
  simp

theorem carries_load {k : Pred → Reg → SSrc → BitVec 30 → Instr} (h : (!g.isLanes && okDst m d && okS m false b) = true)
    (hr : r = eFM g (fD d) (fS m b) o 0 0 p n) (hdec : decodeRaw m r = fmD m r (predW r) 0 k) (hl : Listed p n 0 := by decide) :
    Carries m (k g d b o) (some r) := by
  simp only [Bool.and_eq_true] at h
  obtain ⟨⟨hg, hd⟩, hb⟩ := h
  subst hr
  exact ⟨mkRaw_carried hl (splitS_length 0 o), hdec.trans (fmD_shaped (eFM_shaped ..) rfl (predW_of_encPred rfl hg) hd hb k)⟩

theorem carries_vload {k : Pred → Reg → SSrc → BitVec 30 → Instr} (h : (okDst m d && okS m false b) = true)
    (hr : r = eFM g (fD d) (fS m b) o 0 0 p n) (hdec : decodeRaw m r = fmD m r (predL r) 0 k) (hl : Listed p n 0 := by decide) :
    Carries m (k g d b o) (some r) := by
  simp only [Bool.and_eq_true] at h
  subst hr
  exact ⟨mkRaw_carried hl (splitS_length 0 o), hdec.trans (fmD_shaped (eFM_shaped ..) rfl (predL_of_encPred rfl) h.1 h.2 k)⟩

theorem carries_store {a : SSrc} {k : Pred → SSrc → SSrc → BitVec 30 → Instr} (h : (!g.isLanes && okS m false a && okS m false b) = true)
    (hr : r = eFM g (fS m a) (fS m b) o m2 0 p n) (hdec : decodeRaw m r = fmS m r (predW r) m2 (rdS m r.fa r.a4) k)
    (hl : Listed p n 0 := by decide) : Carries m (k g a b o) (some r) := by
  simp only [Bool.and_eq_true] at h
  obtain ⟨⟨hg, ha⟩, hb⟩ := h
  subst hr
  exact ⟨mkRaw_carried hl (splitS_length 0 o), hdec.trans
    (fmS_shaped (eFM_shaped ..) (predW_of_encPred rfl hg) (rdS_narrow ha) hb k)⟩

theorem carries_vstore {a : VSrc} {k : Pred → VSrc → SSrc → BitVec 30 → Instr} (ha : okV m false a = true) (hb : okS m false b = true)
    (hr : r = eFM g (fV m a) (fS m b) o m2 0 p n) (hg : pd = some g) (hdec : decodeRaw m r = fmS m r pd m2 (rdV m r.fa r.a4) k)
    (hl : Listed p n 0 := by decide) : Carries m (k g a b o) (some r) := by
  subst hr
  exact ⟨mkRaw_carried hl (splitS_length 0 o), hdec.trans
    (fmS_shaped (eFM_shaped ..) hg (rdV_narrow ha) hb k)⟩

theorem carries_address {k : Pred → SSrc → BitVec 30 → Instr} (h : (!g.isLanes && okS m false b) = true)
    (hr : r = eFM g (0, false, []) (fS m b) o 0 0 p n) (hdec : decodeRaw m r = fmN m r k) (hl : Listed p n 0 := by decide) :
    Carries m (k g b o) (some r) := by
  simp only [Bool.and_eq_true] at h
  have hs : Shaped r g (plain 0) (fS m b) (plain 0) 0 0 (splitS 0 o).1 := by rw [hr]; exact eFM_shaped ..
  refine ⟨by rw [hr]; exact mkRaw_carried hl (splitS_length 0 o), ?_⟩
  rw [hdec, fmN, hs.noC, hs.m2, hs.m6, hs.fa, hs.a4, predW_of_encPred hs.pred h.1, hs.fb, hs.b4, hs.ximm, offset_splitS, rdS_narrow h.2]
  rfl

end Memory

end Sys2Proof
end

section
/-! # Instructions on encoded chains: those with a form of their own -/

namespace Sys2Proof

/-! ## Formats FS, FB and FP (R51, R60, R142) -/

section Single

variable {m : DecMode} {r : Raw} {g : Pred} {p n : Nat} {i : Instr} {f : BitVec 10} {o : BitVec 40}

theorem fsF_eF (h : (!g.isLanes) = true) (p n : Nat) (k : Pred → BitVec 10 → Option Instr) : fsF (eF g f p n) k = k g f := by
  rw [fsF, bare_of rfl rfl, noImm_of rfl, predW_of_encPred rfl h]
  rfl

theorem carries_fs (k : Pred → BitVec 10 → Option Instr) (h : (!g.isLanes) = true) (hr : r = eF g f p n) (hdec : decodeRaw m r = fsF r k)
    (hk : k g f = some i) (hl : Listed p n 0 := by decide) : Carries m i (some r) := by
  subst hr
  exact ⟨mkRaw_carried hl (Nat.zero_le 3), by rw [hdec, fsF_eF h, hk]⟩

theorem carries_noOps {k : Pred → Instr} (h : (!g.isLanes) = true) (hr : r = eF g 0 p n) (hdec : decodeRaw m r = noOps m r k)
    (hl : Listed p n 0 := by decide) : Carries m (k g) (some r) := carries_fs _ h hr hdec rfl hl

/-- An instruction of format FS on which XPRED is barred. -/
theorem carries_fsBarred (k : Pred → BitVec 10 → Option Instr) (hr : r = eF .always f p n) (hdec : decodeRaw m r = noPred r (fsF r k))
    (hk : k .always f = some i) (hl : Listed p n 0 := by decide) : Carries m i (some r) := by
  subst hr
  exact carries_fs k rfl rfl (hdec.trans (noPred_of rfl _)) hk hl

theorem carries_branch {k : Pred → BitVec 40 → Instr} (h : (!g.isLanes) = true) (hr : r = eFB g (splitS 10 o) p n)
    (hdec : decodeRaw m r = fbF r k) (hl : Listed p n 0 := by decide) : Carries m (k g o) (some r) := by
  subst hr
  refine ⟨mkRaw_carried hl (splitS_length 10 o), ?_⟩
  rw [hdec, fbF, bare_of rfl rfl, predW_of_encPred rfl h]
  exact congrArg (fun o => some (k g o)) (extS_splitS o rfl)

/-- An immediate of FS, extended by zeros. -/
theorem extU_eFB (g : Pred) (v : BitVec 40) (p n : Nat) : extU 10 40 (eFB g (splitU 10 v) p n).ximm (eFB g (splitU 10 v) p n).f10 = v :=
  extU_splitU v v.isLt

theorem carries_trap (h : (!g.isLanes) = true) : Carries m (.trap g o) (toRaw m (.trap g o)) := by
  refine ⟨mkRaw_carried (by decide) (splitU_length 10 o), ?_⟩
  have hdec (r : Raw) (hr : r = eFB g (splitU 10 o) 0 0x25) : decodeRaw m r = trapF r := by subst hr; rfl
  rw [hdec _ rfl, trapF, bare_of rfl rfl, predW_of_encPred rfl h, extU_eFB]
  rfl

theorem carries_sigchk (v : BitVec 16) : Carries m (.sigchk v) (toRaw m (.sigchk v)) := by
  refine ⟨mkRaw_carried (by decide) (splitU_length 10 _), ?_⟩
  have hdec (r : Raw) (hr : r = eFB .always (splitU 10 (v.setWidth 40)) 0 0x28) : decodeRaw m r = sigF r := by subst hr; rfl
  rw [hdec _ rfl, sigF, noPred_of rfl, bare_of rfl rfl, extU_eFB]
  exact narrow_field (by decide) v Instr.sigchk

theorem carries_pwrhint {l : BitVec 3} (h : (!g.isLanes && decide (l.toNat ≤ 4)) = true) :
    Carries m (.pwrhint g l) (toRaw m (.pwrhint g l)) := by
  simp only [Bool.and_eq_true, decide_eq_true_eq] at h
  refine ⟨mkRaw_carried (by decide) (Nat.zero_le 3), ?_⟩
  have hdec (r : Raw) (hr : r = eF g (l.setWidth 10) 10 0x02) : decodeRaw m r = pwrhintF r := by subst hr; rfl
  have hv : extU 10 40 (eF g (l.setWidth 10) 10 0x02).ximm (eF g (l.setWidth 10) 10 0x02).f10 = l.setWidth 40 := by
    show (l.setWidth 10).setWidth 40 = _
    exact BitVec.setWidth_setWidth (by decide)
  rw [hdec _ rfl, pwrhintF, bare_of rfl rfl, predW_of_encPred rfl h.1, hv, Option.bind_some, BitVec.toNat_setWidth_of_le (by decide),
    if_pos (by omega), BitVec.setWidth_setWidth_of_le _ (by decide), BitVec.setWidth_eq]

/-- The predicate, the sense and the base distance of BRP (R51). -/
theorem brp_fields (q : PReg) (s : Bool) (x : BitVec 6) : ((q ++ BitVec.ofBool s) ++ x : BitVec 10).extractLsb' 7 3 = q ∧
    ((q ++ BitVec.ofBool s) ++ x : BitVec 10).getLsbD 6 = s ∧ ((q ++ BitVec.ofBool s) ++ x : BitVec 10).extractLsb' 0 6 = x := by
  rw [BitVec.extractLsb'_append_eq_of_le (by decide), BitVec.getLsbD_append, if_neg (by decide)]
  refine ⟨?_, ?_, BitVec.extractLsb'_append_eq_right⟩
  · revert q s; decide
  · revert q s; decide

theorem carries_brp (q : PReg) (s : Bool) (v : BitVec 36) : Carries m (.brp q s v) (toRaw m (.brp q s v)) := by
  refine ⟨mkRaw_carried (by decide) (splitS_length 6 v), ?_⟩
  have hdec (r : Raw) (hr : r = eBrp q s (splitS 6 v) 0 0x1F) : decodeRaw m r = brpF r := by subst hr; rfl
  obtain ⟨hpred, hsense, hbase⟩ := brp_fields q s (splitS 6 v).2
  rw [hdec _ rfl, brpF, noPred_of rfl, bare_of rfl rfl]
  simp only [eBrp, mkRaw, hpred, hsense, hbase, extS_splitS v rfl]

/-! ## LOOP (R145) -/

/-- A source without a number bit, read from its field. -/
theorem fS_low {a : SSrc} (ha : okS m false a = true) (h : lowS m a = true) : (fS m a).2.1 = false := by
  cases a with
  | reg q =>
    cases hm : m.maint with
    | false =>
      simp only [lowS, hm, fS] at h ⊢
      cases q with
      | priv n => revert h; clear ha; revert n; decide
      | shared n => revert h; clear ha; revert n; decide
    | true =>
      simp only [lowS, hm, fS, if_true, decide_eq_true_eq] at h ⊢
      generalize q.num = n at h ⊢
      revert n; decide
  | const n =>
    simp only [lowS, fS, decide_eq_true_eq] at h ⊢
    revert h; clear ha; revert n; decide
  | lit v => rfl

/-- A small positive value needs no XIMM. -/
theorem splitS_small {v : BitVec 35} (h0 : 0 ≤ v.toInt) (h : v.toInt < 16) : (splitS 5 v).1 = [] := by
  have hv : v.toNat < 16 := by
    rw [BitVec.toInt_eq_toNat_cond] at h0 h
    split at h0 <;> omega
  have hw : (v.setWidth 5).toNat = v.toNat := by rw [BitVec.toNat_setWidth, Nat.mod_eq_of_lt (by omega)]
  have hmsb : (v.setWidth 5).msb = false := by rw [BitVec.msb_eq_decide, hw]; simpa using hv
  have he : (v.setWidth 5).signExtend 35 = v := by
    rw [BitVec.signExtend_eq_setWidth_of_msb_false hmsb]
    exact BitVec.eq_of_toNat_eq (by rw [BitVec.toNat_setWidth, hw, Nat.mod_eq_of_lt v.isLt])
  rw [splitS, if_pos he]
  rfl

/-- A LOOP of a distance that reaches past the shortest form of it reaches past its own words. -/
theorem loop_words {a : SSrc} {dist : BitVec 35} (ha : okS m false a = true) (hd : (if lowS m a then 1 else 2) ≤ dist.toInt) :
    ((eLoop (fS m a) (splitS 5 dist) 0 0x23).words : Int) ≤ dist.toInt := by
  have hlen := splitS_length 5 dist
  have hwords : (eLoop (fS m a) (splitS 5 dist) 0 0x23).words =
      1 + (splitS 5 dist).1.length + 0 + (if (optXreg (xregOf 0 (fS m a).2.1 false false 0)).isSome then 1 else 0) + 0 := rfl
  have hpos : 1 ≤ dist.toInt := by split at hd <;> omega
  rw [hwords]
  by_cases hbig : 16 ≤ dist.toInt
  · split <;> omega
  · rw [splitS_small (by omega) (by omega)]
    cases hlow : lowS m a with
    | true =>
      rw [fS_low ha hlow, ← xregOf_zero]
      exact hpos
    | false =>
      rw [hlow] at hd
      have : (2 : Int) ≤ dist.toInt := hd
      split <;> simp <;> omega

theorem carries_loop {a : SSrc} {dist : BitVec 35} (h : (okS m false a && decide ((if lowS m a then 1 else 2) ≤ dist.toInt)) = true) :
    Carries m (.loop a dist) (toRaw m (.loop a dist)) := by
  simp only [Bool.and_eq_true, decide_eq_true_eq] at h
  obtain ⟨ha, hd⟩ := h
  have hs : Shaped (eLoop (fS m a) (splitS 5 dist) 0 0x23) .always (fS m a) (plain (splitS 5 dist).2) (plain 0) 0 0 (splitS 5 dist).1 := eLoop_shaped ..
  have himm : immS 35 (eLoop (fS m a) (splitS 5 dist) 0 0x23) = dist := by rw [immS, hs.ximm, hs.fb, extS_splitS dist rfl]
  have hw := loop_words ha hd
  refine ⟨mkRaw_carried (by decide) (splitS_length 5 dist), ?_⟩
  have hdec (r : Raw) (hr : r = eLoop (fS m a) (splitS 5 dist) 0 0x23) : decodeRaw m r = loopF m r := by subst hr; rfl
  rw [hdec _ rfl, loopF, himm, hs.noC, hs.m2, hs.m6, hs.b4, decide_eq_true hw, noPred_of rfl, hs.fa, hs.a4, rdS_narrow ha]
  rfl

end Single

/-! ## Two sources and no destination (R124, R235, R271) -/

section NoDestination

variable {α β : Type} {m : DecMode} {r : Raw} {g : Pred} {ra : BitVec 5 → Bool → BitVec 30 → Option α}
  {rb : BitVec 5 → Bool → BitVec 30 → Option β} {ea eb : EField} {a : α} {b : β} {m6 : BitVec 6} {p n : Nat} {i : Instr}

theorem carries_srcs2 {k : Pred → α → β → Option Instr} (hg : (!g.isLanes) = true) (ha : ra ea.1 ea.2.1 0 = some a)
    (hb : rb eb.1 eb.2.1 0 = some b) (hr : r = eSrc2 g ea eb 0 m6 p n) (hdec : decodeRaw m r = srcs2 r (ra r.fa r.a4) (rb r.fb r.b4) k)
    (hk : k g a b = some i) (hl : Listed p n m6) : Carries m i (some r) := by
  have h : Shaped r g ea eb (plain 0) 0 m6 [] := by rw [hr]; exact eSrc2_shaped ..
  refine ⟨by rw [hr]; exact mkRaw_carried hl (Nat.zero_le 3), ?_⟩
  rw [hdec, srcs2, h.noC, h.m2, h.ximm, predW_of_encPred h.pred hg, h.fa, h.a4, ha, h.fb, h.b4, hb, ← hk]
  rfl

theorem carries_srcsS {a b : SSrc} {k : Pred → SSrc → SSrc → Option Instr} (h : (!g.isLanes && okS m false a && okS m false b) = true)
    (hr : r = eSrc2 g (fS m a) (fS m b) 0 m6 p n) (hdec : decodeRaw m r = srcs2 r (rdS m r.fa r.a4) (rdS m r.fb r.b4) k) (hk : k g a b = some i)
    (hl : Listed p n m6) : Carries m i (some r) := by
  simp only [Bool.and_eq_true] at h
  obtain ⟨⟨hg, ha⟩, hb⟩ := h
  exact carries_srcs2 hg (rdS_narrow ha) (rdS_narrow hb) hr hdec hk hl

theorem carries_srcsV {a : VSrc} {b : SSrc} {k : Pred → VSrc → SSrc → Option Instr}
    (h : (!g.isLanes && okV m false a && okS m false b) = true) (hr : r = eSrc2 g (fV m a) (fS m b) 0 m6 p n)
    (hdec : decodeRaw m r = srcs2 r (rdV m r.fa r.a4) (rdS m r.fb r.b4) k) (hk : k g a b = some i) (hl : Listed p n m6) :
    Carries m i (some r) := by
  simp only [Bool.and_eq_true] at h
  obtain ⟨⟨hg, ha⟩, hb⟩ := h
  exact carries_srcs2 hg (rdV_narrow ha) (rdS_narrow hb) hr hdec hk hl

theorem carries_oneB {b : SSrc} {k : Pred → SSrc → Instr} (h : (!g.isLanes && okS m false b) = true)
    (hr : r = eSrc2 g (0, false, []) (fS m b) 0 0 p n) (hdec : decodeRaw m r = oneB m r k) (hl : Listed p n 0 := by decide) :
    Carries m (k g b) (some r) := by
  simp only [Bool.and_eq_true] at h
  have hs : Shaped r g (plain 0) (fS m b) (plain 0) 0 0 [] := by rw [hr]; exact eSrc2_shaped ..
  refine ⟨by rw [hr]; exact mkRaw_carried hl (Nat.zero_le 3), ?_⟩
  rw [hdec, oneB, hs.noC, hs.m2, hs.m6, hs.ximm, hs.fa, hs.a4, predW_of_encPred hs.pred h.1, hs.fb, hs.b4, rdS_narrow h.2]
  rfl

theorem carries_mbw {b : SSrc} {q : BitVec 2} (h : (!g.isLanes && okS m false b) = true) : Carries m (.mbw g q b) (toRaw m (.mbw g q b)) := by
  simp only [Bool.and_eq_true] at h
  have hs : Shaped (eSrc2 g (plain (q.setWidth 5)) (fS m b) 0 0 8 0x06) g (plain (q.setWidth 5)) (fS m b) (plain 0) 0 0 [] := eSrc2_shaped ..
  have hdec (r : Raw) (hr : r = eSrc2 g (plain (q.setWidth 5)) (fS m b) 0 0 8 0x06) : decodeRaw m r = mbwF m r := by subst hr; rfl
  have hq : (q.setWidth 5).toNat < 4 := by rw [BitVec.toNat_setWidth_of_le (by decide)]; exact q.isLt
  refine ⟨mkRaw_carried (by decide) (Nat.zero_le 3), ?_⟩
  rw [hdec _ rfl, mbwF, hs.noC, hs.m2, hs.m6, hs.ximm, hs.fa, hs.a4, decide_eq_true hq, predW_of_encPred hs.pred h.1, hs.fb, hs.b4,
    rdS_narrow h.2, BitVec.setWidth_setWidth_of_le _ (by decide), BitVec.setWidth_eq]
  rfl

/-! ## A number in fb (R235, R323) -/

/-- The fields of an instruction whose fb is a small number. -/
theorem numbered_shaped (g : Pred) (d : Reg) (v : BitVec 5) (p n : Nat) :
    Shaped (eTwo g d (plain v) 0 0 p n) g (fD d) (plain v) (plain 0) 0 0 [] := eTwo_shaped ..

variable {d : Reg}

theorem carries_mbr {q : BitVec 2} (h : (!g.isLanes && okDst m d && !m.slot0) = true) : Carries m (.mbr g d q) (toRaw m (.mbr g d q)) := by
  simp only [Bool.and_eq_true, Bool.not_eq_true'] at h
  obtain ⟨⟨hg, hd⟩, h0⟩ := h
  have hs := numbered_shaped g d (q.setWidth 5) 8 0x07
  have hdec (r : Raw) (hr : r = eTwo g d (plain (q.setWidth 5)) 0 0 8 0x07) : decodeRaw m r = if m.slot0 then twoN m r .mbrMovement else mbrF m r := by
    subst hr; rfl
  have hq : (q.setWidth 5).toNat < 4 := by rw [BitVec.toNat_setWidth_of_le (by decide)]; exact q.isLt
  refine ⟨mkRaw_carried (by decide) (Nat.zero_le 3), ?_⟩
  rw [hdec _ rfl, h0, mbrF, hs.noC, hs.m2, hs.m6, hs.ximm, hs.b4, hs.fb, decide_eq_true hq, predW_of_encPred hs.pred (by rw [hg]; rfl), hs.fa,
    hs.a4, dstOf_fD hd, BitVec.setWidth_setWidth_of_le _ (by decide), BitVec.setWidth_eq]
  rfl

theorem carries_rdctr {q : BitVec 4} (h : (!g.isLanes && okDst m d && (decide (q ≠ 6) && decide (q ≠ 7))) = true) :
    Carries m (.rdctr g d q) (toRaw m (.rdctr g d q)) := by
  simp only [Bool.and_eq_true, decide_eq_true_eq] at h
  obtain ⟨⟨hg, hd⟩, h6, h7⟩ := h
  have hs := numbered_shaped g d (q.setWidth 5) 10 0x01
  have hdec (r : Raw) (hr : r = eTwo g d (plain (q.setWidth 5)) 0 0 10 0x01) : decodeRaw m r = rdctrF m r := by subst hr; rfl
  have hq : (q.setWidth 5).toNat < 16 ∧ q.setWidth 5 ≠ 6 ∧ q.setWidth 5 ≠ 7 := by revert h6 h7; clear * -; revert q; decide
  refine ⟨mkRaw_carried (by decide) (Nat.zero_le 3), ?_⟩
  rw [hdec _ rfl, rdctrF, hs.noC, hs.m2, hs.m6, hs.ximm, hs.b4, hs.fb, decide_eq_true hq.1, decide_eq_true hq.2.1, decide_eq_true hq.2.2,
    predW_of_encPred hs.pred hg, hs.fa, hs.a4, dstOf_fD hd, BitVec.setWidth_setWidth_of_le _ (by decide), BitVec.setWidth_eq]
  rfl

theorem carries_rdturn {q : BitVec 2} (h : (!g.isLanes && okDst m d) = true) : Carries m (.rdturn g d q) (toRaw m (.rdturn g d q)) := by
  simp only [Bool.and_eq_true] at h
  have hs := numbered_shaped g d (q.setWidth 5) 10 0x04
  have hdec (r : Raw) (hr : r = eTwo g d (plain (q.setWidth 5)) 0 0 10 0x04) : decodeRaw m r = rdturnF m r := by subst hr; rfl
  have hq : (q.setWidth 5).toNat < 4 := by rw [BitVec.toNat_setWidth_of_le (by decide)]; exact q.isLt
  refine ⟨mkRaw_carried (by decide) (Nat.zero_le 3), ?_⟩
  rw [hdec _ rfl, rdturnF, hs.noC, hs.m2, hs.m6, hs.ximm, hs.b4, hs.fb, decide_eq_true hq,
    predW_of_encPred hs.pred h.1, hs.fa, hs.a4, dstOf_fD h.2, BitVec.setWidth_setWidth_of_le _ (by decide), BitVec.setWidth_eq]
  rfl

/-- COPY and REDUCE: fa names a private register; `k` is what the decoder makes of m2 and the operands. -/
theorem carries_copy {d : BitVec 5} {a : VSrc} {m2 : BitVec 2} (k : BitVec 2 → Pred → BitVec 5 → VSrc → Option Instr)
    (h : (!g.isLanes && okV m false a) = true) (hr : r = eTwo g (.priv d) (fV m a) m2 0 p n) (hdec : decodeRaw m r = copyF m r (k r.m2))
    (hk : k m2 g d a = some i) (hl : Listed p n 0 := by decide) : Carries m i (some r) := by
  simp only [Bool.and_eq_true] at h
  have hs : Shaped r g (fD (.priv d)) (fV m a) (plain 0) m2 0 [] := by rw [hr, ← fV_narrow h.2]; exact eTwo_shaped ..
  refine ⟨by rw [hr]; exact mkRaw_carried hl (by rw [fV_narrow h.2]; exact Nat.zero_le 3), ?_⟩
  rw [hdec, copyF, hs.noC, hs.m6, hs.ximm, hs.fa, hs.a4, fD_priv_bank, predW_of_encPred hs.pred h.1, hs.fb, hs.b4, rdV_narrow h.2, regOf_fD,
    hs.m2, ← hk]
  rfl

end NoDestination

/-! ## The matrix instructions (R215) -/

section Matrix

variable {m : DecMode} {r : Raw} {g : Pred} {p n : Nat}

theorem fV_low {a : VSrc} (ha : okV m false a = true) (h : lowV m a = true) : (fV m a).2.1 = false := by
  cases a with
  | reg q =>
    cases hm : m.maint with
    | false =>
      simp only [lowV, hm, fV] at h ⊢
      cases q with
      | priv n => revert h; clear ha; revert n; decide
      | shared n => revert h; clear ha; revert n; decide
    | true =>
      simp only [lowV, hm, fV, if_true, decide_eq_true_eq] at h ⊢
      generalize q.num = n at h ⊢
      revert n; decide
  | bcast s =>
    simp only [okV, Bool.and_eq_true] at ha
    exact fS_low ha.2 h

theorem noXreg_eNX (s t : BitVec 5) (x : Option Instr) : noXreg (eNX g s t p n) x = x := (noImm_of rfl _).trans (bare_of rfl rfl _)

theorem carries_mxq {a : VSrc} (h : (!g.isLanes && okV m false a && lowV m a) = true) : Carries m (.mxq g a) (toRaw m (.mxq g a)) := by
  simp only [Bool.and_eq_true] at h
  obtain ⟨⟨hg, ha⟩, hlow⟩ := h
  have hs := eNX_shaped g 0 0x35 (fV m a).1 0
  have hread := rdV_narrow ha
  rw [fV_low ha hlow] at hread
  have hdec (r : Raw) (hr : r = eNX g (fV m a).1 0 0 0x35) : decodeRaw m r = mxqF m r := by subst hr; rfl
  refine ⟨mkRaw_carried (by decide) (Nat.zero_le 3), ?_⟩
  rw [hdec _ rfl, mxqF, noXreg_eNX, hs.fa, hs.fb, predW_of_encPred hs.pred hg, hread]
  rfl

theorem carries_bay {q : BitVec 4} {k : Pred → BitVec 4 → Instr} (h : (!g.isLanes) = true) (hr : r = eNX g (q.setWidth 5) 0 p n)
    (hdec : decodeRaw m r = bayF r k) (hl : Listed p n 0 := by decide) : Carries m (k g q) (some r) := by
  subst hr
  have hs := eNX_shaped g p n (q.setWidth 5) 0
  have hq : (q.setWidth 5).getLsbD 4 = false := by clear * -; revert q; decide
  refine ⟨mkRaw_carried hl (Nat.zero_le 3), ?_⟩
  rw [hdec, bayF, noXreg_eNX, hs.fa, hs.fb, hq, predW_of_encPred hs.pred h, BitVec.setWidth_setWidth_of_le _ (by decide), BitVec.setWidth_eq]
  rfl

theorem carries_mxstat {d : Reg} {q : BitVec 3} (h : (!g.isLanes && okDst m d && (decide (d.num.toNat < 16) && decide (q.toNat ≤ 4))) = true) :
    Carries m (.mxstat g d q) (toRaw m (.mxstat g d q)) := by
  simp only [Bool.and_eq_true, decide_eq_true_eq] at h
  obtain ⟨⟨hg, hd⟩, hlow, hq⟩ := h
  have hs := eNX_shaped g 9 0x02 (fD d).1 (q.setWidth 5)
  have hhi : (fD d).2.1 = false := by cases d with
    | priv n => revert hlow; clear * -; revert n; decide
    | shared n => revert hlow; clear * -; revert n; decide
  have hread := dstOf_fD hd
  rw [hhi] at hread
  have hdec (r : Raw) (hr : r = eNX g (fD d).1 (q.setWidth 5) 9 0x02) : decodeRaw m r = mxstatF m r := by subst hr; rfl
  refine ⟨mkRaw_carried (by decide) (Nat.zero_le 3), ?_⟩
  rw [hdec _ rfl, mxstatF, noXreg_eNX, hs.fa, hs.fb, BitVec.toNat_setWidth_of_le (by decide), if_pos (by omega), predW_of_encPred hs.pred hg, hread,
    BitVec.setWidth_setWidth_of_le _ (by decide), BitVec.setWidth_eq]
  rfl

theorem carries_mxdrain {q : BitVec 4} (h : (!g.isLanes && decide (q ≠ 0)) = true) : Carries m (.mxdrain g q) (toRaw m (.mxdrain g q)) := by
  simp only [Bool.and_eq_true, decide_eq_true_eq] at h
  have hs := eNX_shaped g 9 0x03 0 (q.setWidth 5)
  have hdec (r : Raw) (hr : r = eNX g 0 (q.setWidth 5) 9 0x03) : decodeRaw m r = mxdrainF r := by subst hr; rfl
  have hq : q.setWidth 5 ≠ 0 ∧ (q.setWidth 5).toNat < 16 := by have := h.2; revert this; clear * -; revert q; decide
  refine ⟨mkRaw_carried (by decide) (Nat.zero_le 3), ?_⟩
  rw [hdec _ rfl, mxdrainF, noXreg_eNX, hs.fa, hs.fb, decide_eq_true hq.1, decide_eq_true hq.2, predW_of_encPred hs.pred h.1,
    BitVec.setWidth_setWidth_of_le _ (by decide), BitVec.setWidth_eq]
  rfl

end Matrix

/-! ## System registers (R69) -/

section System

variable {m : DecMode} {g : Pred} {x : EField} {n : SysReg} {p c : Nat}

/-- The fields of MFS and MTS: fc, and the register's number in the base word. -/
theorem eSys_fields (g : Pred) (x : EField) (n : SysReg) (p c : Nat) : (eSys g x n p c).fc = x.1 ∧ (eSys g x n p c).c4 = x.2.1 ∧
    (eSys g x n p c).a4 = false ∧ (eSys g x n p c).b4 = false ∧ (eSys g x n p c).m2 = 0 :=
  have h : (eSys g x n p c).xr = xregOf x.1 false false x.2.1 0 := rfl
  ⟨fc_of_xr h, c4_of_xr h, a4_of_xr h, b4_of_xr h, m2_of_xr h⟩

theorem carries_mfs {d : Reg} (h : (!g.isLanes && okDst m d) = true) : Carries m (.mfs g d n) (toRaw m (.mfs g d n)) := by
  simp only [Bool.and_eq_true] at h
  obtain ⟨hc, hc4, ha4, hb4, hm2⟩ := eSys_fields g (fD d) n 0 0x38
  have hdec (r : Raw) (hr : r = eSys g (fD d) n 0 0x38) : decodeRaw m r = mfsF m r := by subst hr; rfl
  refine ⟨mkRaw_carried (by decide) (Nat.zero_le 3), ?_⟩
  rw [hdec _ rfl, mfsF, ha4, hb4, hm2, predW_of_encPred rfl h.1, hc, hc4, dstOf_fD h.2, show (eSys g (fD d) n 0 0x38).f10 = sysCode n from rfl,
    sysOf_sysCode]
  rfl

theorem carries_mts {a : SSrc} (h : (!g.isLanes && okS m false a && n.writable) = true) : Carries m (.mts g n a) (toRaw m (.mts g n a)) := by
  simp only [Bool.and_eq_true] at h
  obtain ⟨⟨hg, ha⟩, hw⟩ := h
  obtain ⟨hc, hc4, ha4, hb4, hm2⟩ := eSys_fields g (fS m a) n 0 0x39
  have hdec (r : Raw) (hr : r = eSys g (fS m a) n 0 0x39) : decodeRaw m r = mtsF m r := by subst hr; rfl
  refine ⟨mkRaw_carried (by decide) (Nat.zero_le 3), ?_⟩
  rw [hdec _ rfl, mtsF, ha4, hb4, hm2, predW_of_encPred rfl hg, hc, hc4, rdS_narrow ha, show (eSys g (fS m a) n 0 0x39).f10 = sysCode n from rfl,
    sysOf_sysCode]
  exact if_pos hw

end System

/-! ## Bit fields (R108, R116) -/

section BitFields

variable {m : DecMode} {r : Raw} {g : Pred} {d : Reg} {b : SSrc} {pos w1 : BitVec 6} {p n : Nat}

/-- The XIMM words of EXT, EXTU and INS carry pos and width. -/
theorem ximmVal_bitField (pos w1 : BitVec 6) : ximmVal (splitU 0 ((w1 ++ pos).setWidth 30)).1 = (w1 ++ pos).setWidth 30 := by
  apply BitVec.eq_of_toNat_eq
  rw [toNat_ximmVal_splitU _ (BitVec.isLt _), Nat.pow_zero, Nat.div_one]

theorem carries_ext {k : Pred → Reg → SSrc → BitVec 6 → BitVec 6 → Instr}
    (h : (!g.isLanes && okDst m d && okS m false b && decide (pos.toNat + w1.toNat + 1 ≤ 64)) = true)
    (hr : r = eTwoI g d (fS m b) (splitU 0 ((w1 ++ pos).setWidth 30)) p n) (hdec : decodeRaw m r = extF m r k) (hl : Listed p n 0 := by decide) :
    Carries m (k g d b pos w1) (some r) := by
  simp only [Bool.and_eq_true, decide_eq_true_eq] at h
  obtain ⟨⟨⟨hg, hd⟩, hb⟩, hsum⟩ := h
  have hs : Shaped r g (fD d) (fS m b) (plain 0) 0 0 (splitU 0 ((w1 ++ pos).setWidth 30)).1 := by rw [hr]; exact eTwoI_shaped ..
  have hpos : ((w1 ++ pos).setWidth 30).extractLsb' 0 6 = pos := by
    rw [BitVec.extractLsb'_setWidth_of_le (by decide), BitVec.extractLsb'_append_eq_right]
  have hwidth : ((w1 ++ pos).setWidth 30).extractLsb' 6 6 = w1 := by
    rw [BitVec.extractLsb'_setWidth_of_le (by decide), BitVec.extractLsb'_append_eq_left]
  have hlt : ((w1 ++ pos).setWidth 30).toNat < 4096 := by rw [BitVec.toNat_setWidth_of_le (by decide)]; exact (w1 ++ pos).isLt
  refine ⟨by rw [hr]; exact mkRaw_carried hl (splitU_length 0 _), ?_⟩
  rw [hdec, extF, hs.ximm, ximmVal_bitField, hpos, hwidth, hs.noC, hs.m2, hs.m6, predW_of_encPred hs.pred hg, hs.fa, hs.a4, dstOf_fD hd, hs.fb,
    hs.b4, rdS_narrow hb]
  exact if_pos (by rw [decide_eq_true hlt, decide_eq_true hsum]; rfl)

end BitFields

/-! ## Predicates (R111, R119) -/

section Predicates

variable {m : DecMode} {r : Raw} {g : Pred} {p n : Nat}

theorem carries_p3 {q a b : PReg} {k : Pred → PReg → PReg → PReg → Instr} (h : (!g.isLanes) = true) (hr : r = eP3 g q a b p n)
    (hdec : decodeRaw m r = p3 r k) (hl : Listed p n 0 := by decide) : Carries m (k g q a b) (some r) := by
  have hs : Shaped r g (fP a) (fP b) (fP q) 0 0 [] := by rw [hr]; exact eP3_shaped ..
  refine ⟨by rw [hr]; exact mkRaw_carried hl (Nat.zero_le 3), ?_⟩
  rw [hdec, p3, hs.m2, hs.m6, hs.ximm, predW_of_encPred hs.pred h, hs.fa, hs.a4, hs.fb, hs.b4, hs.fc, hs.c4, fP, fP, fP, pregOf_setWidth,
    pregOf_setWidth, pregOf_setWidth, show r.xreg.isSome = true by rw [hr]; rfl]
  rfl

theorem carries_pnot {q b : PReg} (h : (!g.isLanes) = true) : Carries m (.pnot g q b) (toRaw m (.pnot g q b)) := by
  have hs := eP2_shaped g 1 0x20 q b
  have hdec (r : Raw) (hr : r = eP2 g q b 1 0x20) : decodeRaw m r = p2 r .pnot := by subst hr; rfl
  refine ⟨mkRaw_carried (by decide) (Nat.zero_le 3), ?_⟩
  rw [hdec _ rfl, p2, hs.noC, hs.m2, hs.m6, hs.ximm, predW_of_encPred hs.pred h, hs.fa, hs.a4, hs.fb, hs.b4, fP, fP, pregOf_setWidth,
    pregOf_setWidth]
  rfl

theorem carries_pset {q : PReg} {v : BitVec 16} (h : (!g.isLanes) = true) : Carries m (.pset g q v) (toRaw m (.pset g q v)) := by
  have hs := ePset_shaped g 1 0x21 q (splitU 5 (v.setWidth 35))
  have hdec (r : Raw) (hr : r = ePset g q (splitU 5 (v.setWidth 35)) 1 0x21) : decodeRaw m r = psetF m r := by subst hr; rfl
  have himm : immU 35 (ePset g q (splitU 5 (v.setWidth 35)) 1 0x21) = v.setWidth 35 := by rw [immU, hs.ximm, hs.fb, extU_splitU _ (BitVec.isLt _)]
  have hv : (v.setWidth 35).toNat < 65536 := by rw [BitVec.toNat_setWidth_of_le (by decide)]; exact v.isLt
  refine ⟨mkRaw_carried (by decide) (splitU_length 5 _), ?_⟩
  rw [hdec _ rfl, psetF, himm, hs.noC, hs.m2, hs.m6, hs.b4, decide_eq_true hv, predW_of_encPred hs.pred h, hs.fa, hs.a4, fP, pregOf_setWidth,
    BitVec.setWidth_setWidth_of_le _ (by decide), BitVec.setWidth_eq]
  rfl

theorem carries_pmovs {d : Reg} {b : PReg} (h : (!g.isLanes && okDst m d) = true) : Carries m (.pmovs g d b) (toRaw m (.pmovs g d b)) := by
  simp only [Bool.and_eq_true] at h
  have hs := eTwo_shaped g d (fP b) 0 0 1 0x22
  have hdec (r : Raw) (hr : r = eTwo g d (fP b) 0 0 1 0x22) : decodeRaw m r = pmovsF m r := by subst hr; rfl
  refine ⟨mkRaw_carried (by decide) (Nat.zero_le 3), ?_⟩
  rw [hdec _ rfl, pmovsF, hs.noC, hs.m2, hs.m6, hs.ximm, predW_of_encPred hs.pred h.1, hs.fa, hs.a4, dstOf_fD h.2, hs.fb, hs.b4, fP, pregOf_setWidth]
  rfl

theorem carries_pmovp {q : PReg} {b : SSrc} (h : (!g.isLanes && okS m true b) = true) : Carries m (.pmovp g q b) (toRaw m (.pmovp g q b)) := by
  simp only [Bool.and_eq_true] at h
  have hs := ePmovp_shaped g (fS m b) 1 0x23 q
  have f := fieldOf_fS h.2
  obtain ⟨x, hx, hb⟩ := litExt_one hs.fb hs.ximm f
  have hdec (r : Raw) (hr : r = ePmovp g q (fS m b) 1 0x23) : decodeRaw m r = pmovpF m r := by subst hr; rfl
  refine ⟨mkRaw_carried (by decide) f.len, ?_⟩
  rw [hdec _ rfl, pmovpF, hs.noC, hs.m2, hs.m6, predW_of_encPred hs.pred h.1, hx, hs.fa, hs.a4, fP, pregOf_setWidth, hs.fb, hs.b4]
  simp [hb]

/-- TBLLD: the table's number beside the 1 of its type (R124, R136). -/
theorem carries_tblld {t : BitVec 2} {b : SSrc} (h : (!g.isLanes && okS m true b) = true) : Carries m (.tblld g t b) (toRaw m (.tblld g t b)) := by
  simp only [Bool.and_eq_true] at h
  have hs := eTbl_shaped g (fS m b) 4 0x0C t
  have f := fieldOf_fS h.2
  obtain ⟨x, hx, hb⟩ := litExt_one hs.fb hs.ximm f
  have hdec (r : Raw) (hr : r = eTbl g t (fS m b) 4 0x0C) : decodeRaw m r = tblldF m r := by subst hr; rfl
  have htype : (1#3 ++ t : BitVec 5).extractLsb' 2 3 = 1 := BitVec.extractLsb'_append_eq_left
  have htable : (1#3 ++ t : BitVec 5).extractLsb' 0 2 = t := BitVec.extractLsb'_append_eq_right
  refine ⟨mkRaw_carried (by decide) f.len, ?_⟩
  rw [hdec _ rfl, tblldF, hs.noC, hs.m2, hs.m6, hs.a4, hs.fa, htype, htable, predW_of_encPred hs.pred h.1, hx, hs.fb, hs.b4]
  simp [hb]

end Predicates

/-! ## Loads and stores with an index or a scope (R194) -/

section Scoped

variable {m : DecMode} {r : Raw} {g : Pred} {d : Reg} {b : SSrc} {o : BitVec 30}

theorem carries_vldg {v : VSrc} (h : (okDst m d && okS m false b && okV m false v) = true) :
    Carries m (.vldg g d b o v) (toRaw m (.vldg g d b o v)) := by
  simp only [Bool.and_eq_true] at h
  obtain ⟨⟨hd, hb⟩, hv⟩ := h
  have hs := eFMc_shaped g (fD d) (fS m b) (fV m v) 5 0x00 o
  have hdec (r : Raw) (hr : r = eFMc g (fD d) (fS m b) o (fV m v) 5 0x00) : decodeRaw m r = vldgF m r := by subst hr; rfl
  refine ⟨mkRaw_carried (by decide) (splitS_length 0 o), ?_⟩
  rw [hdec _ rfl, vldgF, hs.m2, hs.m6, predL_of_encPred hs.pred, hs.fa, hs.a4, dstOf_fD hd, hs.fb, hs.b4, rdS_narrow hb, hs.fc, hs.c4,
    rdV_narrow hv, hs.ximm, offset_splitS]
  rfl

theorem carries_vsts {a v : VSrc} (h : (okV m false a && okS m false b && okV m false v) = true) :
    Carries m (.vsts g a b o v) (toRaw m (.vsts g a b o v)) := by
  simp only [Bool.and_eq_true] at h
  obtain ⟨⟨ha, hb⟩, hv⟩ := h
  have hs := eFMc_shaped g (fV m a) (fS m b) (fV m v) 5 0x01 o
  have hdec (r : Raw) (hr : r = eFMc g (fV m a) (fS m b) o (fV m v) 5 0x01) : decodeRaw m r = vstsF m r := by subst hr; rfl
  refine ⟨mkRaw_carried (by decide) (splitS_length 0 o), ?_⟩
  rw [hdec _ rfl, vstsF, hs.m2, hs.m6, predL_of_encPred hs.pred, hs.fa, hs.a4, rdV_narrow ha, hs.fb, hs.b4, rdS_narrow hb, hs.fc, hs.c4,
    rdV_narrow hv, hs.ximm, offset_splitS]
  rfl

theorem carries_ldacq {q : Scope} (h : (!g.isLanes && okDst m d && okS m false b) = true) :
    Carries m (.ldacq g d b o q) (toRaw m (.ldacq g d b o q)) := by
  simp only [Bool.and_eq_true] at h
  obtain ⟨⟨hg, hd⟩, hb⟩ := h
  have hs := eFM_shaped g (fD d) (fS m b) 0 (scopeCode q) 5 0x06 o
  have hdec (r : Raw) (hr : r = eFM g (fD d) (fS m b) o 0 (scopeCode q) 5 0x06) : decodeRaw m r = ldacqF m r := by subst hr; rfl
  refine ⟨mkRaw_carried ⟨by decide, by decide, nofun⟩ (splitS_length 0 o), ?_⟩
  rw [hdec _ rfl, ldacqF, hs.noC, hs.m2, predW_of_encPred hs.pred hg, hs.m6, scopeOf_scopeCode, hs.fa, hs.a4, dstOf_fD hd, hs.fb, hs.b4,
    rdS_narrow hb, hs.ximm, offset_splitS]
  rfl

theorem carries_strel {a : SSrc} {q : Scope} (h : (!g.isLanes && okS m false a && okS m false b) = true) :
    Carries m (.strel g a b o q) (toRaw m (.strel g a b o q)) := by
  simp only [Bool.and_eq_true] at h
  obtain ⟨⟨hg, ha⟩, hb⟩ := h
  have hs := eFM_shaped g (fS m a) (fS m b) 0 (scopeCode q) 5 0x07 o
  have hdec (r : Raw) (hr : r = eFM g (fS m a) (fS m b) o 0 (scopeCode q) 5 0x07) : decodeRaw m r = strelF m r := by subst hr; rfl
  refine ⟨mkRaw_carried ⟨by decide, by decide, nofun⟩ (splitS_length 0 o), ?_⟩
  rw [hdec _ rfl, strelF, hs.noC, hs.m2, predW_of_encPred hs.pred hg, hs.m6, scopeOf_scopeCode, hs.fa, hs.a4, rdS_narrow ha, hs.fb, hs.b4,
    rdS_narrow hb, hs.ximm, offset_splitS]
  rfl

/-- The two bits of m2 of a remote store, FE and ORD. -/
theorem remoteBits (f q : Bool) : (bit2 f ||| (bit2 q <<< 1)).getLsbD 0 = f ∧ (bit2 f ||| (bit2 q <<< 1)).getLsbD 1 = q := by
  revert f q; decide

theorem carries_rst {a : SSrc} {f q : Bool} (h : (!g.isLanes && okS m false a && okS m false b) = true) :
    Carries m (.rst g a b o f q) (toRaw m (.rst g a b o f q)) := by
  have hs := eFM_shaped g (fS m a) (fS m b) (bit2 f ||| (bit2 q <<< 1)) 0 5 0x04 o
  obtain ⟨hf, hq⟩ := remoteBits f q
  have hdec (r : Raw) (hr : r = eFM g (fS m a) (fS m b) o (bit2 f ||| (bit2 q <<< 1)) 0 5 0x04) : decodeRaw m r =
      fmS m r (predW r) r.m2 (rdS m r.fa r.a4) fun g a b o => .rst g a b o (r.m2.getLsbD 0) (r.m2.getLsbD 1) := by subst hr; rfl
  have hdec := hdec _ rfl
  rw [hs.m2, hf, hq] at hdec
  exact carries_store h rfl hdec

theorem carries_rstv {a : VSrc} {f q : Bool} (h : (okV m false a && okS m false b && !(f && g.isLanes)) = true) :
    Carries m (.rstv g a b o f q) (toRaw m (.rstv g a b o f q)) := by
  simp only [Bool.and_eq_true] at h
  obtain ⟨⟨ha, hb⟩, hg⟩ := h
  have hs := eFM_shaped g (fV m a) (fS m b) (bit2 f ||| (bit2 q <<< 1)) 0 5 0x05 o
  obtain ⟨hf, hq⟩ := remoteBits f q
  have hdec (r : Raw) (hr : r = eFM g (fV m a) (fS m b) o (bit2 f ||| (bit2 q <<< 1)) 0 5 0x05) : decodeRaw m r =
      fmS m r (if r.m2.getLsbD 0 then predW r else predL r) r.m2 (rdV m r.fa r.a4) fun g a b o =>
        .rstv g a b o (r.m2.getLsbD 0) (r.m2.getLsbD 1) := by subst hr; rfl
  have hdec := hdec _ rfl
  rw [hs.m2, hf, hq] at hdec
  refine carries_vstore ha hb rfl ?_ hdec
  cases f with
  | true => exact predW_of_encPred hs.pred hg
  | false => exact predL_of_encPred hs.pred

end Scoped

/-! ## Sync slots, obligations and tuples (R271, R293) -/

section Sync

variable {m : DecMode} {r : Raw} {g : Pred} {d : Reg} {p n : Nat} {i : Instr}

/-- The type of a sync slot and the OWE bit beside it (R260). -/
theorem typeOf_typeCode (t : SlotType) (o : Bool) : typeOf ((typeCode t ||| (bit6 o <<< 2)).toNat % 4) = some t ∧
    (typeCode t ||| (bit6 o <<< 2)).getLsbD 2 = o ∧ (typeCode t ||| (bit6 o <<< 2)).toNat < 8 := by
  cases t <;> cases o <;> decide

theorem carries_syinit {a b c : SSrc} {t : SlotType} {o : Bool} (h : (!g.isLanes && okS m false a && okS m false b && okS m false c) = true) :
    Carries m (.syinit g a b c t o) (toRaw m (.syinit g a b c t o)) := by
  simp only [Bool.and_eq_true] at h
  obtain ⟨⟨⟨hg, ha⟩, hb⟩, hc⟩ := h
  have hs := eC3_shaped g (fS m a) (fS m b) (fS m c) (typeCode t ||| (bit6 o <<< 2)) 6 0x00
  obtain ⟨ht, ho, hlt⟩ := typeOf_typeCode t o
  have hdec (r : Raw) (hr : r = eC3 g (fS m c) (fS m a) (fS m b) (typeCode t ||| (bit6 o <<< 2)) 6 0x00) : decodeRaw m r = syinitF m r := by
    subst hr; rfl
  refine ⟨mkRaw_carried ⟨by decide, by decide, nofun⟩ (Nat.zero_le 3), ?_⟩
  rw [hdec _ rfl, syinitF, hs.m2, hs.ximm, hs.m6, ht, ho, decide_eq_true hlt, predW_of_encPred hs.pred hg, hs.fa, hs.a4, rdS_narrow ha, hs.fb,
    hs.b4, rdS_narrow hb, hs.fc, hs.c4, rdS_narrow hc]
  rfl

theorem carries_gbar : Carries m .gbar (toRaw m .gbar) := ⟨mkRaw_carried (by decide) (Nat.zero_le 3), rfl⟩

/-- The mode and the kind of OBGIVE (R281). -/
theorem giveOf_giveCode (q : GiveMode) (k : ObKind) : giveOf ((giveCode q ||| (kindCode k <<< 2)).toNat % 4) = some q ∧
    kindOf ((giveCode q ||| (kindCode k <<< 2)).toNat / 4) = some k ∧ (giveCode q ||| (kindCode k <<< 2)).toNat < 32 := by
  cases q <;> cases k <;> decide

/-- The registers of a pair are vector sources (R293). -/
theorem okV_of_okPair {vp : Reg} (h : okPair m vp = true) : okV m false (.reg vp) = true := by
  cases vp with
  | priv n => simp only [okPair, Bool.and_eq_true] at h; exact h.2
  | shared n => simp only [okPair, Bool.and_eq_true] at h; exact h.2

/-- The pattern instructions; `k` is what the decoder makes of m6 and the operands. -/
theorem carries_pair {vp : Reg} {b : SSrc} {m6 : BitVec 6} (k : BitVec 6 → Pred → Reg → Reg → SSrc → Option Instr)
    (h : (okDst m d && okPair m vp && okS m false b) = true) (hg : (!g.isLanes) = true) (hr : r = ePair m g d vp (fS m b) m6 p n)
    (hdec : decodeRaw m r = pairF m r (k r.m6)) (hk : k m6 g d vp b = some i) (hl : Listed p n m6) : Carries m i (some r) := by
  simp only [Bool.and_eq_true] at h
  obtain ⟨⟨hd, hp⟩, hb⟩ := h
  have hximm : litXimm (fV m (.reg vp)) (fS m b) = [] := by
    rw [litXimm, fS_narrow hb, fV_narrow (okV_of_okPair hp)]
    rfl
  have hs : Shaped r g (fV m (.reg vp)) (fS m b) (fD d) 0 m6 [] := by rw [hr, ← hximm]; exact eReq3_shaped ..
  refine ⟨by rw [hr]; exact mkRaw_carried hl (by rw [hximm]; exact Nat.zero_le 3), ?_⟩
  rw [hdec, pairF, show r.xreg.isSome = true by rw [hr]; rfl, hs.m2, hs.ximm, predW_of_encPred hs.pred hg, hs.fc, hs.c4, dstOf_fD hd, hs.fa,
    hs.a4, rdV_narrow (okV_of_okPair hp), hs.fb, hs.b4, rdS_narrow hb, hs.m6, ← hk]
  exact if_pos hp

/-- The pattern instructions on which XPRED is barred (R293). -/
theorem carries_pairBarred {vp : Reg} {b : SSrc} {m6 : BitVec 6} (k : BitVec 6 → Pred → Reg → Reg → SSrc → Option Instr)
    (h : (okDst m d && okPair m vp && okS m false b) = true) (hr : r = ePair m .always d vp (fS m b) m6 p n)
    (hdec : decodeRaw m r = noPred r (pairF m r (k r.m6))) (hk : k m6 .always d vp b = some i) (hl : Listed p n m6) : Carries m i (some r) := by
  subst hr
  exact carries_pair k h rfl rfl (hdec.trans (noPred_of rfl _)) hk hl

end Sync

end Sys2Proof
end

section
/-! # Every instruction on its encoded chain (O40) -/

namespace Sys2Proof

/-! ## Instructions that share their form with no other -/

section Odd

variable {m : DecMode} {r : Raw} {g : Pred} {d : Reg}

theorem carries_vbcast {b : SSrc} (h : (okDst m d && okS m true b) = true) : Carries m (.vbcast g d b) (toRaw m (.vbcast g d b)) := by
  simp only [Bool.and_eq_true] at h
  exact carries_twoMM rfl (by decide) eTwo_predL h.1 (fieldOf_fS h.2) (two_eq rfl eTwo_m2 _) rfl

/-- CVTFQ: OVF beside the part in m6 (R124). -/
theorem ovf_bits (q : BitVec 2) (o : Bool) : (q.setWidth 6 ||| (bit6 o <<< 4)) &&& 0b101100#6 = 0 ∧
    (q.setWidth 6 ||| (bit6 o <<< 4)).setWidth 2 = q ∧ (q.setWidth 6 ||| (bit6 o <<< 4)).getLsbD 4 = o := by revert q o; decide

theorem carries_cvtfq {b : VSrc} {q : BitVec 2} {o : Bool} (h : (okDst m d && okV m true b) = true) :
    Carries m (.cvtfq g d b q o) (toRaw m (.cvtfq g d b q o)) := by
  simp only [Bool.and_eq_true] at h
  obtain ⟨hzero, hpart, hovf⟩ := ovf_bits q o
  have hdec (r : Raw) (hr : r = eTwo g d (fV m b) 0 (q.setWidth 6 ||| (bit6 o <<< 4)) 4 0x06) : decodeRaw m r =
      twoO m r (rdV m r.fb r.b4) fun g d b => some (.cvtfq g d b (r.m6.setWidth 2) (r.m6.getLsbD 4)) := by subst hr; rfl
  refine carries_twoMM rfl ⟨by decide, by decide, nofun⟩ eTwo_predL h.1 (fieldOf_fV h.2) ((hdec _ rfl).trans (if_pos ?_)) ?_
  · rw [eTwo_m6, hzero, eTwo_m2]; rfl
  · rw [eTwo_m6, hpart, hovf]

/-- CVTFS and CVTSF: K beside the part in m6 (R124). -/
theorem fp6_bits (q : BitVec 2) (o : Bool) : (q.setWidth 6 ||| (bit6 o <<< 3)) &&& 0b110100#6 = 0 ∧
    (q.setWidth 6 ||| (bit6 o <<< 3)).setWidth 2 = q ∧ (q.setWidth 6 ||| (bit6 o <<< 3)).getLsbD 3 = o := by revert q o; decide

theorem carries_fp6 {b : VSrc} {q : BitVec 2} {o : Bool} {n : Nat} {k : Pred → Reg → VSrc → BitVec 2 → Bool → Instr}
    (h : (okDst m d && okV m true b) = true) (hr : r = eTwo g d (fV m b) 0 (q.setWidth 6 ||| (bit6 o <<< 3)) 4 n)
    (hdec : decodeRaw m r = twoK m r (rdV m r.fb r.b4) fun g d b => some (k g d b (r.m6.setWidth 2) (r.m6.getLsbD 3))) (hn : n < 0x3C) :
    Carries m (k g d b q o) (some r) := by
  simp only [Bool.and_eq_true] at h
  obtain ⟨hzero, hpart, hfmt⟩ := fp6_bits q o
  subst hr
  refine carries_twoMM rfl ⟨by decide, hn, nofun⟩ eTwo_predL h.1 (fieldOf_fV h.2) (hdec.trans (if_pos ?_)) ?_
  · rw [eTwo_m6, hzero, eTwo_m2]; rfl
  · rw [eTwo_m6, hpart, hfmt]

/-- VUNPK: mode and part in m6, S in m2 (R124, R139). -/
theorem unpk_bits (mo q : BitVec 2) : (mo.setWidth 6 ||| (q.setWidth 6 <<< 2)).extractLsb' 0 2 = mo ∧
    (mo.setWidth 6 ||| (q.setWidth 6 <<< 2)).extractLsb' 2 2 = q ∧ (mo.setWidth 6 ||| (q.setWidth 6 <<< 2)).toNat < 16 := by
  revert mo q; decide

theorem bit2_eq_one (u : Bool) : (bit2 u == 1) = u ∧ (bit2 u).toNat < 2 := by revert u; decide

theorem bit6_eq_one (u : Bool) : (bit6 u == 1) = u ∧ (bit6 u).toNat < 2 := by revert u; decide

theorem carries_vunpk {b : VSrc} {mo q : BitVec 2} {u : Bool}
    (h : (!g.isLanes && okDst m d && okV m true b && (mo = 0 && q.toNat < 2 || mo = 1 || mo = 2 && q = 0 && !u)) = true) :
    Carries m (.vunpk g d b mo q u) (toRaw m (.vunpk g d b mo q u)) := by
  rw [Bool.and_eq_true, Bool.and_eq_true, Bool.and_eq_true] at h
  obtain ⟨⟨⟨hg, hd⟩, hb⟩, hform⟩ := h
  obtain ⟨hmo, hq, hlt⟩ := unpk_bits mo q
  obtain ⟨hu, hu2⟩ := bit2_eq_one u
  have hdec (r : Raw) (hr : r = eTwo g d (fV m b) (bit2 u) (mo.setWidth 6 ||| (q.setWidth 6 <<< 2)) 4 0x13) : decodeRaw m r =
      twoMM m r (predW r) (rdV m r.fb r.b4) fun g d b => unpkOf r g d b := by subst hr; rfl
  refine carries_twoMM rfl ⟨by decide, by decide, nofun⟩ (eTwo_predW hg) hd (fieldOf_fV hb) (hdec _ rfl) ?_
  rw [unpkOf, eTwo_m6, eTwo_m2, hmo, hq, hu, hform, decide_eq_true hlt, decide_eq_true hu2]
  rfl

theorem carries_obq {b : SSrc} {q : BitVec 2} (h : (!g.isLanes && okDst m d && okS m false b && decide (q.toNat ≤ 2)) = true) :
    Carries m (.obq g d b q) (toRaw m (.obq g d b q)) := by
  rw [Bool.and_eq_true, decide_eq_true_eq] at h
  have hq : (q.setWidth 6).toNat < 3 := by rw [BitVec.toNat_setWidth_of_le (by decide)]; omega
  refine carries_twoN6 h.1 rfl rfl ?_ ⟨by decide, by decide, nofun⟩
  rw [eTwo_m2, eTwo_m6, decide_eq_true hq, BitVec.setWidth_setWidth_of_le _ (by decide), BitVec.setWidth_eq]
  rfl

theorem carries_obrank {b : SSrc} {q : BitVec 2} (h : (!g.isLanes && okDst m d && okS m false b) = true) :
    Carries m (.obrank g d b q) (toRaw m (.obrank g d b q)) := by
  have hq : (q.setWidth 6).toNat < 4 := by rw [BitVec.toNat_setWidth_of_le (by decide)]; exact q.isLt
  refine carries_twoN6 h rfl rfl ?_ ⟨by decide, by decide, nofun⟩
  rw [eTwo_m2, eTwo_m6, decide_eq_true hq, BitVec.setWidth_setWidth_of_le _ (by decide), BitVec.setWidth_eq]
  rfl

theorem carries_mbrMovement {b : SSrc} (h : (!g.isLanes && okDst m d && okS m false b && m.slot0) = true) :
    Carries m (.mbrMovement g d b) (toRaw m (.mbrMovement g d b)) := by
  rw [Bool.and_eq_true] at h
  have hdec (r : Raw) (hr : r = eTwo g d (fS m b) 0 0 8 0x07) : decodeRaw m r = if m.slot0 then twoN m r .mbrMovement else mbrF m r := by
    subst hr; rfl
  exact carries_twoN h.1 rfl ((hdec _ rfl).trans (if_pos h.2))

/-! ### Three operands -/

theorem eReq3_m6 {ea eb : EField} {m2 : BitVec 2} {m6 : BitVec 6} {p n : Nat} : (eReq3 g d ea eb m2 m6 p n).m6 = m6 := rfl

theorem carries_vmad {a b : VSrc} (h : (okDst m d && okV m (!isLitV b) a && okV m true b) = true) :
    Carries m (.vmad g d a b) (toRaw m (.vmad g d a b)) := by
  have hdec (r : Raw) (hr : r = eReq3 g d (fV m a) (fV m b) 0 0 2 0x0F) : decodeRaw m r =
      req3 m r (predL r) (rdV m r.fa r.a4) (rdV m r.fb r.b4) fun g d a b => if r.m2 = 0 then some (.vmad g d a b) else none := by subst hr; rfl
  exact carries_req3V h rfl ((hdec _ rfl).trans (req3_eq rfl _)) (if_pos eReq3_m2) (by decide)

theorem carries_vdot4 {a b : VSrc} {q : DotMode} (h : (okDst m d && okV m (!isLitV b) a && okV m true b) = true) :
    Carries m (.vdot4 g d a b q) (toRaw m (.vdot4 g d a b q)) := by
  have hdec (r : Raw) (hr : r = eReq3 g d (fV m a) (fV m b) (dotCode q) 0 2 0x1D) : decodeRaw m r =
      req3 m r (predL r) (rdV m r.fa r.a4) (rdV m r.fb r.b4) fun g d a b => (dotOf r.m2).map (.vdot4 g d a b) := by subst hr; rfl
  refine carries_req3V h rfl ((hdec _ rfl).trans (req3_eq rfl _)) ?_ (by decide)
  rw [eReq3_m2, dotOf_dotCode]
  rfl

theorem carries_vfdot2 {a b : VSrc} {q : Rnd} {f : Bool} (h : (okDst m d && okV m (!isLitV b) a && okV m true b) = true) :
    Carries m (.vfdot2 g d a b q f) (toRaw m (.vfdot2 g d a b q f)) := by
  obtain ⟨hf, hlt⟩ := bit6_eq_one f
  refine carries_req3V h rfl rfl ?_ ⟨by decide, by decide, nofun⟩
  rw [eReq3_m2, rndOf_rndCode, eReq3_m6, if_pos hlt, hf]

theorem carries_vblkmax {a b : VSrc} {t : BlkTarget} (h : (!g.isLanes && okDst m d && okV m (!isLitV b) a && okV m true b) = true) :
    Carries m (.vblkmax g d a b t) (toRaw m (.vblkmax g d a b t)) := by
  simp only [Bool.and_eq_true] at h
  obtain ⟨⟨⟨hg, hd⟩, ha⟩, hb⟩ := h
  refine carries_req3M rfl ⟨by decide, by decide, nofun⟩ (eReq3_predW hg) hd (sources_VV ha hb) rfl ?_
  rw [eReq3_m2, eReq3_m6, blkOf_blkCode]
  rfl

theorem carries_vextr {a : VSrc} {b : SSrc} {u : Bool} (h : (!g.isLanes && okDst m d && okV m (!isLitS b) a && okS m true b) = true) :
    Carries m (.vextr g d a b u) (toRaw m (.vextr g d a b u)) := by
  simp only [Bool.and_eq_true] at h
  obtain ⟨⟨⟨hg, hd⟩, ha⟩, hb⟩ := h
  have hdec (r : Raw) (hr : r = eReq3 g d (fV m a) (fS m b) (bit2 u) 0 4 0x10) : decodeRaw m r =
      req3 m r (predW r) (rdV m r.fa r.a4) (rdS m r.fb r.b4) fun g d a b => flag1 r.m2 (.vextr g d a b) := by subst hr; rfl
  refine carries_req3M rfl (by decide) (eReq3_predW hg) hd (sources_VS ha hb) ((hdec _ rfl).trans (req3_eq rfl _)) ?_
  rw [eReq3_m2, flag1_bit2]

theorem carries_vins {a b : SSrc} (h : (!g.isLanes && okDst m d && okS m (!isLitS b) a && okS m true b) = true) :
    Carries m (.vins g d a b) (toRaw m (.vins g d a b)) := by
  simp only [Bool.and_eq_true] at h
  obtain ⟨⟨⟨hg, hd⟩, ha⟩, hb⟩ := h
  have hdec (r : Raw) (hr : r = eReq3 g d (fS m a) (fS m b) 0 0 4 0x11) : decodeRaw m r =
      req3 m r (predW r) (rdS m r.fa r.a4) (rdS m r.fb r.b4) fun g d a b => if r.m2 = 0 then some (.vins g d a b) else none := by subst hr; rfl
  exact carries_req3M rfl (by decide) (eReq3_predW hg) hd (sources_SS ha hb) ((hdec _ rfl).trans (req3_eq rfl _)) (if_pos eReq3_m2)

/-- Two narrow sources have no XIMM words. -/
theorem litXimm_narrow {a b : SSrc} (ha : okS m false a = true) (hb : okS m false b = true) : litXimm (fS m a) (fS m b) = [] := by
  rw [litXimm, fS_narrow hb, fS_narrow ha]
  rfl

theorem carries_tsowe {a b : SSrc} (h : (!g.isLanes && okDst m d && okS m false a && okS m false b) = true) :
    Carries m (.tsowe g d a b) (toRaw m (.tsowe g d a b)) := by
  simp only [Bool.and_eq_true] at h
  obtain ⟨⟨⟨hg, hd⟩, ha⟩, hb⟩ := h
  have hdec (r : Raw) (hr : r = eReq3 g d (fS m a) (fS m b) 0 0 7 0x03) : decodeRaw m r =
      noImm r (req3 m r (predW r) (rdS m r.fa r.a4) (rdS m r.fb r.b4) fun g d a b => if r.m2 = 0 then some (.tsowe g d a b) else none) := by
    subst hr; rfl
  exact carries_req3M rfl (by decide) (eReq3_predW hg) hd (sources_SS (okS_of_narrow ha _) (okS_of_narrow hb _))
    ((hdec _ rfl).trans ((noImm_of (litXimm_narrow ha hb) _).trans (req3_eq rfl _))) (if_pos eReq3_m2)

theorem carries_obnew {a b : SSrc} {o : Bool} (h : (!g.isLanes && okDst m d && okS m false a && okS m false b) = true) :
    Carries m (.obnew g d a b o) (toRaw m (.obnew g d a b o)) := by
  simp only [Bool.and_eq_true] at h
  obtain ⟨⟨⟨hg, hd⟩, ha⟩, hb⟩ := h
  obtain ⟨ho, hlt⟩ := bit6_eq_one o
  have hdec (r : Raw) (hr : r = eReq3 g d (fS m a) (fS m b) 0 (bit6 o) 6 0x05) : decodeRaw m r =
      noImm r (req3M m r (predW r) (rdS m r.fa r.a4) (rdS m r.fb r.b4) fun g d a b =>
        if r.m2 = 0 && r.m6.toNat < 2 then some (.obnew g d a b (r.m6 == 1)) else none) := by subst hr; rfl
  refine carries_req3M rfl ⟨by decide, by decide, nofun⟩ (eReq3_predW hg) hd (sources_SS (okS_of_narrow ha _) (okS_of_narrow hb _))
    ((hdec _ rfl).trans (noImm_of (litXimm_narrow ha hb) _)) ?_
  rw [eReq3_m2, eReq3_m6, decide_eq_true hlt, ho]
  rfl

theorem eOpt3_ximm {same : Bool} {ea eb : EField} {m2 : BitVec 2} {m6 : BitVec 6} {p n : Nat} (hx : litXimm ea eb = []) (hb : eb.2.2 = []) :
    (eOpt3 m g d same ea eb m2 m6 p n).ximm = [] := by
  unfold eOpt3
  split
  · exact hb
  split
  · exact hb
  · exact hx

theorem carries_sywait {a b : SSrc} (h : (!g.isLanes && okDst m d && okS m false a && okS m false b) = true) :
    Carries m (.sywait g d a b) (toRaw m (.sywait g d a b)) := by
  simp only [Bool.and_eq_true] at h
  obtain ⟨⟨⟨hg, hd⟩, ha⟩, hb⟩ := h
  have hdec (x : Raw) : decodeRaw m (x.at 0 0x36) =
      noImm (x.at 0 0x36) (opt3 m (x.at 0 0x36) (predW (x.at 0 0x36)) (rdS m (x.at 0 0x36).fa (x.at 0 0x36).a4) SSrc.reg
        (rdS m (x.at 0 0x36).fb (x.at 0 0x36).b4) .sywait) := rfl
  have hsame (e : (a == .reg d) = true) : .reg d = a := (eq_of_beq e).symm
  exact carries_opt3MM rfl (eOpt3_predW hg) hd (sources_SS (okS_of_narrow ha _) (okS_of_narrow hb _)) hsame
    (fun e => okS_priv (by rw [hsame e]; exact ha))
    (fun h2 h6 => (eOpt3_at rfl ▸ hdec _).trans ((noImm_of (eOpt3_ximm (litXimm_narrow ha hb) (fS_narrow hb)) _).trans (opt3_eq h6 h2 _)))
    (fun _ _ => rfl) (by decide)

theorem carries_vperm {a b : VSrc} (h : (!g.isLanes && okDst m d && okV m (!isLitV b) a && okV m true b) = true) :
    Carries m (.vperm g d a b) (toRaw m (.vperm g d a b)) := by
  simp only [Bool.and_eq_true] at h
  obtain ⟨⟨⟨hg, hd⟩, ha⟩, hb⟩ := h
  have hdec (x : Raw) : decodeRaw m (x.at 4 0x0E) = opt3 m (x.at 4 0x0E) (predW (x.at 4 0x0E)) (rdV m (x.at 4 0x0E).fa (x.at 4 0x0E).a4) VSrc.reg
      (rdV m (x.at 4 0x0E).fb (x.at 4 0x0E).b4) .vperm := rfl
  exact carries_opt3MV hd ha (sources_VV ha hb) rfl (eOpt3_predW hg) (fun h2 h6 => (eOpt3_at rfl ▸ hdec _).trans (opt3_eq h6 h2 _))
    (fun _ _ => rfl) (by decide)

theorem carries_vrotl {a : VSrc} {b : SSrc} (h : (!g.isLanes && okDst m d && okV m (!isLitS b) a && okS m true b) = true) :
    Carries m (.vrotl g d a b) (toRaw m (.vrotl g d a b)) := by
  simp only [Bool.and_eq_true] at h
  obtain ⟨⟨⟨hg, hd⟩, ha⟩, hb⟩ := h
  have hdec (x : Raw) : decodeRaw m (x.at 4 0x0F) = opt3 m (x.at 4 0x0F) (predW (x.at 4 0x0F)) (rdV m (x.at 4 0x0F).fa (x.at 4 0x0F).a4) VSrc.reg
      (rdS m (x.at 4 0x0F).fb (x.at 4 0x0F).b4) .vrotl := rfl
  exact carries_opt3MV hd ha (sources_VS ha hb) rfl (eOpt3_predW hg) (fun h2 h6 => (eOpt3_at rfl ▸ hdec _).trans (opt3_eq h6 h2 _))
    (fun _ _ => rfl) (by decide)

theorem carries_vscale {a : VSrc} {b : SSrc} {q : Rnd} (h : (okDst m d && okV m (!isLitS b) a && okS m true b) = true) :
    Carries m (.vscale g d a b q) (toRaw m (.vscale g d a b q)) := by
  simp only [Bool.and_eq_true] at h
  obtain ⟨⟨hd, ha⟩, hb⟩ := h
  have hdec (x : Raw) : decodeRaw m (x.at 4 0x14) = opt3M m (x.at 4 0x14) (predL (x.at 4 0x14)) (rdV m (x.at 4 0x14).fa (x.at 4 0x14).a4) VSrc.reg
      (rdS m (x.at 4 0x14).fb (x.at 4 0x14).b4) fun g d a b => some (.vscale g d a b (rndOf (x.at 4 0x14).m2)) := rfl
  exact carries_opt3MV hd ha (sources_VS ha hb) rfl eOpt3_predL (fun _ h6 => (eOpt3_at rfl ▸ hdec _).trans (opt3M_eq h6 _))
    (fun h2 _ => by rw [h2, rndOf_rndCode]) (by decide)

theorem carries_vpack {a b : VSrc} {mo : BitVec 2} {q : Sat}
    (h : (!g.isLanes && okDst m d && okV m (!isLitV b) a && okV m true b && (mo.toNat < 2 || mo = 2 && q = .trunc)) = true) :
    Carries m (.vpack g d a b mo q) (toRaw m (.vpack g d a b mo q)) := by
  simp only [Bool.and_eq_true] at h
  obtain ⟨⟨⟨⟨hg, hd⟩, ha⟩, hb⟩, hform⟩ := h
  have hdec (x : Raw) : decodeRaw m (x.at 4 0x12) = opt3MM m (x.at 4 0x12) (predW (x.at 4 0x12)) (rdV m (x.at 4 0x12).fa (x.at 4 0x12).a4) VSrc.reg
      (rdV m (x.at 4 0x12).fb (x.at 4 0x12).b4) fun g d a b => packOf (x.at 4 0x12) g d a b := rfl
  have hmode : ((mo.setWidth 6).toNat < 2 || (mo.setWidth 6 = 2 && q = .trunc)) = true := by
    generalize decide (q = .trunc) = t at hform ⊢
    revert hform; clear * -; revert mo t; decide
  refine carries_opt3MV hd ha (sources_VV ha hb) rfl (eOpt3_predW hg) (fun _ _ => eOpt3_at rfl ▸ hdec _) (fun h2 h6 => ?_)
    ⟨by decide, by decide, nofun⟩
  rw [packOf, h2, h6, satOf_satCode, BitVec.setWidth_setWidth_of_le _ (by decide), BitVec.setWidth_eq]
  exact if_pos hmode

/-! ### Formats FS and FM -/

theorem carries_fence {q : Bool} {sc : Scope} (h : (!g.isLanes) = true) : Carries m (.fence g q sc) (toRaw m (.fence g q sc)) := by
  refine carries_fs (fun g f => if f.toNat < 16 then (scopeOf (f.toNat % 8)).map fun sc => .fence g (f.getLsbD 3) sc else none) h rfl rfl ?_
  cases q <;> cases sc <;> rfl

/-- What the decoder makes of the field of SETMODE. -/
def setmodeOf (_ : Pred) (f : BitVec 10) : Option Instr :=
  if f.toNat < 2 then some (.setmode (f == 1)) else if f.toNat / 16 = 1 then some (.setmodeConst (f.setWidth 4)) else none

theorem carries_setmode (b : Bool) : Carries m (.setmode b) (toRaw m (.setmode b)) := by
  refine carries_fsBarred setmodeOf rfl rfl ?_
  cases b <;> rfl

theorem carries_setmodeConst (v : BitVec 4) : Carries m (.setmodeConst v) (toRaw m (.setmodeConst v)) := by
  have hv : (16#10 ||| v.setWidth 10).toNat / 16 = 1 ∧ (16#10 ||| v.setWidth 10).setWidth 4 = v ∧ ¬ (16#10 ||| v.setWidth 10).toNat < 2 := by
    revert v; decide
  refine carries_fsBarred setmodeOf rfl rfl ?_
  rw [setmodeOf, if_neg hv.2.2, if_pos hv.1, hv.2.1]

/-- What the decoder makes of m2 of REDUCE. -/
def reduceOf (c : BitVec 2) (g : Pred) (d : BitVec 5) (a : VSrc) : Option Instr :=
  if c = 0 then some (.reduceExact g d a) else if c = 1 then some (.reduceTree g d a) else none

/-- What the decoder makes of m6 of TSCOPY. -/
def tscopyOf (c : BitVec 6) (_ : Pred) (d vp : Reg) (b : SSrc) : Option Instr :=
  if c = 0 then some (.tscopy d vp b) else if c = 1 then some (.tscopyNb d vp b) else none

/-- What the decoder makes of m6 of TSTAKE. -/
def tstakeOf (c : BitVec 6) (_ : Pred) (d vp : Reg) (b : SSrc) : Option Instr :=
  if c = 0 then some (.tstake d vp b) else if c = 1 then some (.tstakeNb d vp b) else none

theorem carries_tscount {vp : Reg} {b : SSrc} (h : (!g.isLanes && okDst m d && okPair m vp && okS m false b) = true) :
    Carries m (.tscount g d vp b) (toRaw m (.tscount g d vp b)) := by
  simp only [Bool.and_eq_true] at h
  obtain ⟨⟨⟨hg, hd⟩, hp⟩, hb⟩ := h
  exact carries_pair (fun c g d vp sr => if c = 0 then some (.tscount g d vp sr) else none) (by rw [hd, hp, hb]; rfl) hg rfl rfl rfl (by decide)

theorem eSrc2_m6 {ea eb : EField} {m2 : BitVec 2} {m6 : BitVec 6} {p n : Nat} : (eSrc2 g ea eb m2 m6 p n).m6 = m6 := rfl

theorem carries_tsput {a : VSrc} {b : SSrc} (h : (okV m false a && okS m false b) = true) : Carries m (.tsput a b) (toRaw m (.tsput a b)) := by
  simp only [Bool.and_eq_true] at h
  have hdec (r : Raw) (hr : r = eSrc2 .always (fV m a) (fS m b) 0 0 7 0x00) : decodeRaw m r =
      noPred r (srcs2 r (rdV m r.fa r.a4) (rdS m r.fb r.b4) fun _ a b => if r.m6 = 0 then some (.tsput a b) else none) := by subst hr; rfl
  exact carries_srcs2 rfl (rdV_narrow h.1) (rdS_narrow h.2) rfl ((hdec _ rfl).trans (noPred_of rfl _)) (if_pos rfl) (by decide)

theorem sendSys_field {a : VSrc} {b : SSrc} (ch : BitVec 2) (c : BitVec 6) (hc : c = 4#6 ||| ch.setWidth 6) :
    (if c = 0 then some (Instr.send g a b) else if c.toNat / 4 = 1 then some (Instr.sendSys g a b (c.setWidth 2)) else none) =
      some (Instr.sendSys g a b ch) := by
  subst hc
  have h : (4#6 ||| ch.setWidth 6) ≠ 0 ∧ (4#6 ||| ch.setWidth 6).toNat / 4 = 1 ∧ (4#6 ||| ch.setWidth 6).setWidth 2 = ch := by revert ch; decide
  rw [if_neg h.1, if_pos h.2.1, h.2.2]

end Odd



theorem carries_toRaw {m : DecMode} {i : Instr} (h : wf m i = true) : Carries m i (toRaw m i) := by
  cases i with
  | mov g d b | abs g d b | neg g d b | clz g d b | ctz g d b | popc g d b | brev g d b => exact carries_twoS h rfl rfl
  | vmov g d b | vabs g d b | vneg g d b | vpopc g d b | vclz g d b | vfabs g d b | vfneg g d b | vfrcp g d b | vfrsq g d b | vfexp2 g d b
  | vflog2 g d b | vftanh g d b | vfclass g d b | vfredmax g d b | tblsel g d b => exact carries_twoV h rfl rfl
  | sext g d b q | zext g d b q => exact carries_twoWidth h rfl rfl
  | vfsqrt g d b q | vfredsum g d b q | cvtfi g d b q | cvtif g d b q => exact carries_twoRnd h rfl rfl
  | cvtfh g d b q part | cvtfb g d b q part =>
    refine carries_twoPart h rfl rfl ?_ ⟨by decide, by decide, nofun⟩
    rw [eTwo_m2, rndOf_rndCode, eTwo_m6, BitVec.setWidth_setWidth_of_le _ (by decide), BitVec.setWidth_eq]
  | cvthf g d b part | cvtbf g d b part | cvtqf g d b part | cvtfn g d b part | cvtnf g d b part =>
    refine carries_twoPart h rfl rfl ?_ ⟨by decide, by decide, nofun⟩
    rw [eTwo_m2, eTwo_m6, BitVec.setWidth_setWidth_of_le _ (by decide), BitVec.setWidth_eq]
    rfl
  | add g d a b | sub g d a b | mul g d a b | and g d a b | or g d a b | xor g d a b | shl g d a b | shr g d a b | sar g d a b | sel g d a b
  | mulh g d a b | mulhu g d a b | div g d a b | divu g d a b | rem g d a b | remu g d a b | min g d a b | max g d a b | minu g d a b
  | maxu g d a b | rotl g d a b => exact carries_opt3S h rfl fun _ => rfl
  | vadd g d a b | vsub g d a b | vmul g d a b | vand g d a b | vor g d a b | vxor g d a b | vshl g d a b | vshr g d a b | vsar g d a b
  | vmin g d a b | vmax g d a b | vminu g d a b | vmaxu g d a b | vsel g d a b | vfmin g d a b | vfmax g d a b => exact carries_opt3V h rfl fun _ => rfl
  | vfadd g d a b q | vfmul g d a b q | vfsub g d a b q | vfdiv g d a b q | vfscale g d a b q => exact carries_opt3Rnd h rfl fun _ => rfl
  | vmulh g d a b u | vaddsat g d a b u | vsubsat g d a b u => exact carries_opt3Flag h rfl fun _ => rfl
  | vffma g d a b q | vffms g d a b q | vffnma g d a b q => exact carries_req3Rnd h rfl rfl
  | cmpeq g q a b | cmplt g q a b | cmpne g q a b | cmpge g q a b | cmpltu g q a b | cmpgeu g q a b => exact carries_cmpS h rfl rfl
  | vcmpeq g q a b | vcmpne g q a b | vcmplt g q a b | vcmpge g q a b | vcmpltu g q a b | vcmpgeu g q a b | vfcmpeq g q a b | vfcmplt g q a b
  | vfcmple g q a b | vfcmpun g q a b => exact carries_cmpV h rfl rfl
  | jmpr g d b | syarrive g d b => exact carries_twoN h rfl rfl
  | mbrMovement g d b => exact carries_mbrMovement h
  | vbcast g d b => exact carries_vbcast h
  | cvtfq g d b part o => exact carries_cvtfq h
  | cvtfs g d b part o => exact carries_fp6 (k := .cvtfs) h rfl rfl (by decide)
  | cvtsf g d b part o => exact carries_fp6 (k := .cvtsf) h rfl rfl (by decide)
  | vunpk g d b mode part u => exact carries_vunpk h
  | syread g d b w => refine carries_twoN6 h rfl rfl ?_ ⟨by decide, by decide, nofun⟩; rw [eTwo_m2, eTwo_m6]; cases w <;> rfl
  | obq g d b f => exact carries_obq h
  | obrank g d b f => exact carries_obrank h
  | vmad g d a b => exact carries_vmad h
  | vdot4 g d a b q => exact carries_vdot4 h
  | vfdot2 g d a b q f => exact carries_vfdot2 h
  | vblkmax g d a b t => exact carries_vblkmax h
  | vextr g d a b u => exact carries_vextr h
  | vins g d a b => exact carries_vins h
  | tsowe g d a b => exact carries_tsowe h
  | obnew g d a b o => exact carries_obnew h
  | sywait g d a b => exact carries_sywait h
  | vperm g d a b => exact carries_vperm h
  | vpack g d a b mode q => exact carries_vpack h
  | vrotl g d a b => exact carries_vrotl h
  | vscale g d a b q => exact carries_vscale h
  | movi g d v | addi g d v | andi g d v | lea g d v => exact carries_fiS h rfl rfl
  | ori g d v => exact carries_fiU h rfl rfl (by rfl)
  | shli g d v | shri g d v | sari g d v => exact carries_shift h (by decide) rfl rfl
  | vshli g d v | vshri g d v | vsari g d v => exact carries_vshift h (by decide) rfl rfl
  | vaddi g d v => exact carries_vaddi h
  | cmpeqi g q a v | cmplti g q a v => exact carries_cmpI h rfl (splitS_length 5 v) rfl (immS_eCmpI ..)
  | cmpltui g q a v => exact carries_cmpI h rfl (splitU_length 5 v) rfl (immU_eCmpI ..)
  | ldb g d b o | ldh g d b o | ldw g d b o | ldd g d b o | lds g d b o | take g d b o | rld g d b o | takenb g d b o | festat g d b o =>
    exact carries_load h rfl rfl
  | vld g d b o | vlds g d b o => exact carries_vload h rfl rfl
  | stb g a b o | sth g a b o | stw g a b o | std g a b o | put g a b o => exact carries_store h rfl rfl
  | vst g a b o =>
    simp only [wf, Bool.and_eq_true] at h
    exact carries_vstore h.1 h.2 rfl (predL_of_encPred rfl) rfl
  | fill g b o | empty g b o | pref g b o | flushl g b o => exact carries_address h rfl rfl
  | ext g d b pos w | extu g d b pos w | ins g d b pos w => exact carries_ext h rfl rfl
  | vldg g d b o v => exact carries_vldg h
  | vsts g a b o v => exact carries_vsts h
  | ldacq g d b o q => exact carries_ldacq h
  | strel g a b o q => exact carries_strel h
  | rst g a b o f q => exact carries_rst h
  | rstv g a b o f q => exact carries_rstv h
  | nop g | ret g | exit g | beat g | ypt g | taskend g | msgend g | turnend g | halt g => exact carries_noOps h rfl rfl
  | br g o | call g o | fork g o => exact carries_branch h rfl rfl
  | brp q s o => exact carries_brp q s o
  | loop a o => exact carries_loop h
  | trap g v => exact carries_trap h
  | sigchk v => exact carries_sigchk v
  | pwrhint g l => exact carries_pwrhint h
  | fence g q sc => exact carries_fence h
  | tlbinv g s => 
    refine carries_fs (fun g f => if f.toNat < 2 then some (.tlbinv g (f == 1)) else none) h rfl rfl ?_
    cases s <;> rfl
  | dbgbrk g v => exact carries_fs (fun g f => some (.dbgbrk g f)) h rfl rfl rfl
  | trapret => exact carries_fsBarred (fun _ f => if f = 0 then some .trapret else none) rfl rfl rfl
  | setmode b => exact carries_setmode b
  | setmodeConst v => exact carries_setmodeConst v
  | gbar => exact carries_gbar
  | mxq g a => exact carries_mxq h
  | claim g q | release g q => exact carries_bay h rfl rfl
  | mxstat g d q => exact carries_mxstat h
  | mxdrain g q => exact carries_mxdrain h
  | mfs g d v => exact carries_mfs h
  | mts g v a => exact carries_mts h
  | pand g q a b | por g q a b | pxor g q a b => exact carries_p3 h rfl rfl
  | pnot g q b => exact carries_pnot h
  | pset g q v => exact carries_pset h
  | pmovs g d b => exact carries_pmovs h
  | pmovp g q b => exact carries_pmovp h
  | tblld g t b => exact carries_tblld h
  | syadd g a b | reply g a b => exact carries_srcsS h rfl rfl (if_pos rfl) (by decide)
  | send g a b | sendr g a b => exact carries_srcsV h rfl rfl (if_pos rfl) (by decide)
  | sendSys g a b ch => refine carries_srcsV h rfl rfl ?_ ⟨by decide, by decide, nofun⟩; exact sendSys_field ch _ rfl
  | tsput a b => exact carries_tsput h
  | obgive g a b q k =>
    obtain ⟨hq, hk, hlt⟩ := giveOf_giveCode q k
    refine carries_srcsS h rfl rfl ?_ ⟨by decide, by decide, nofun⟩
    rw [eSrc2_m6, if_pos hlt, hq, hk]
    rfl
  | syret g b | obowe g b => exact carries_oneB h rfl rfl
  | syinit g a b c t o => exact carries_syinit h
  | mbw g q b => exact carries_mbw h
  | mbr g d q => exact carries_mbr h
  | rdctr g d q => exact carries_rdctr h
  | rdturn g d q => exact carries_rdturn h
  | copy g d a => exact carries_copy (fun c g d a => if c = 0 then some (.copy g d a) else none) h rfl rfl rfl
  | reduceExact g d a | reduceTree g d a => exact carries_copy reduceOf h rfl rfl rfl
  | tscopy d vp b | tscopyNb d vp b => exact carries_pairBarred tscopyOf h rfl rfl rfl (by decide)
  | tstake d vp b | tstakeNb d vp b => exact carries_pairBarred tstakeOf h rfl rfl rfl (by decide)
  | tscount g d vp b => exact carries_tscount h
  | _ => exact trivial

/-- Settles O40: the words of an encoded chain are walked back to that chain (`walk_assemble`), and its fields decode to the instruction
(`carries_toRaw`). -/
theorem decodeEncode : Obligations.DecodeEncode := by
  unfold Obligations.DecodeEncode
  intro m i ws rest hwf henc
  have hraw := carries_toRaw hwf
  rw [encode] at henc
  cases hr : toRaw m i with
  | none => rw [hr] at henc; cases henc
  | some r =>
    rw [hr] at henc hraw
    obtain ⟨hcarried, hdec⟩ := hraw
    obtain ⟨hwalk, hlen⟩ := walk_assemble hcarried henc rest
    rw [decode, hwalk, hlen]
    dsimp only
    rw [hdec]

end Sys2Proof
end

section
/-! # Faulty chains make no instruction (R55 to R60) -/
namespace Sys2Proof

open Sys2Proof.Safety

/-! ## What has been read of a chain's prefixes -/

/-- How many words of a list have a code. -/
def codes (c : BitVec 6) (p : List Half) : Nat := p.countP fun w => w.extractLsb' 10 6 == c

/-- What a list of prefix words that R56 finds no fault in leaves in the chain. -/
structure Raw.Reads (r : Raw) (p : List Half) : Prop where
  ximm : codes 0x3C p = r.ximm.length
  ximm_le : r.ximm.length ≤ 3
  xreg : codes 0x3D p = r.xreg.isSome.toNat
  xpage : codes 0x3E p = r.xpage.toNat
  xpred : codes 0x3F p = r.xpred.isSome.toNat
  page : r.page.toNat = pageOf p
  payload : ∀ w ∈ p, w.extractLsb' 10 6 = 0x3D → r.xreg = some (w.extractLsb' 0 10)
  goodPage : ∀ w ∈ p, w.extractLsb' 10 6 = 0x3E → w.extractLsb' 6 4 ≠ 0 ∧ (w.extractLsb' 6 4).toNat ≤ 10
  predLow : ∀ w ∈ p, w.extractLsb' 10 6 = 0x3F → w.extractLsb' 0 5 = 0

theorem reads_nil : ({} : Raw).Reads [] where
  ximm := rfl
  ximm_le := by decide
  xreg := rfl
  xpage := rfl
  xpred := rfl
  page := rfl
  payload := by simp
  goodPage := by simp
  predLow := by simp

theorem codes_concat (c : BitVec 6) (p : List Half) (w : Half) : codes c (p ++ [w]) = codes c p + (w.extractLsb' 10 6 == c).toNat := by
  rw [codes, codes, List.countP_append, List.countP_singleton]
  cases w.extractLsb' 10 6 == c <;> rfl

theorem pageOf_concat_of_ne {p : List Half} {w : Half} (h : w.extractLsb' 10 6 ≠ 0x3E) : pageOf (p ++ [w]) = pageOf p := by
  rw [pageOf, List.find?_append, List.find?_singleton, if_neg (by simpa using h), Option.or_none, pageOf]

theorem pageOf_concat {p : List Half} {w : Half} (h : w.extractLsb' 10 6 = 0x3E) (hp : codes 0x3E p = 0) :
    pageOf (p ++ [w]) = (w.extractLsb' 6 4).toNat := by
  have hnone : p.find? (fun x => x.extractLsb' 10 6 == 0x3E) = none := by
    simpa [codes, List.countP_eq_zero] using hp
  rw [pageOf, List.find?_append, hnone, List.find?_singleton, if_pos (by simpa using h)]
  rfl

/-- The four codes of prefixes (R50). -/
theorem prefix_code {c : BitVec 6} (h : 0x3C ≤ c.toNat) : c = 0x3C ∨ c = 0x3D ∨ c = 0x3E ∨ c = 0x3F := by
  have := c.isLt
  simp only [← BitVec.toNat_inj, BitVec.ofNat_eq_ofNat, BitVec.toNat_ofNat]
  omega

/-- One prefix more (R56 items 2 to 5 and 7). -/
theorem Raw.Reads.addPrefix {r r' : Raw} {p : List Half} {w : Half} (h : r.Reads p) (hw : 0x3C ≤ (w.extractLsb' 10 6).toNat)
    (ha : addPrefix r w = .ok r') : r'.Reads (p ++ [w]) := by
  obtain ⟨h1, h2, h3, h4, h5, h6, h7, h8, h9⟩ := h
  rcases prefix_code hw with hc | hc | hc | hc
  · rw [addPrefix_ximm r hc] at ha
    split at ha <;> cases ha
    constructor <;> simp_all [codes_concat, pageOf_concat_of_ne, or_imp, forall_and]
    · omega
    · exact h7
  · rw [addPrefix_xreg r hc] at ha
    split at ha <;> cases ha
    next hx =>
      have hnone : ∀ x ∈ p, x.extractLsb' 10 6 ≠ 0x3D := by simpa [codes, List.countP_eq_zero, hx] using h3
      constructor <;> simp_all [codes_concat, pageOf_concat_of_ne, or_imp, forall_and]
  · rw [addPrefix_xpage r hc] at ha
    split at ha
    · cases ha
    next hx =>
      split at ha <;> cases ha
      have hpage := pageOf_concat hc (by simpa [hx] using h4)
      constructor <;> simp_all [codes_concat, or_imp, forall_and]
      exact h7
  · rw [addPrefix_xpred r hc] at ha
    split at ha
    · cases ha
    next hx =>
      split at ha <;> cases ha
      constructor <;> simp_all [codes_concat, pageOf_concat_of_ne, or_imp, forall_and]
      exact h7

/-- A chain that R56 finds no fault in has read all the prefixes at its head, four at most. -/
theorem walk_reads {p ws : List Half} (hp : ∀ w ∈ p, 0x3C ≤ (w.extractLsb' 10 6).toNat) {p0 : List Half} {r0 r : Raw}
    (h0 : r0.Reads p0) (hlen : p0.length ≤ 4) (h : walk p0.length r0 (p ++ ws) = .ok r) :
    (p0 ++ p).length ≤ 4 ∧ ∃ r1, r1.Reads (p0 ++ p) ∧ walk (p0 ++ p).length r1 ws = .ok r := by
  induction p generalizing p0 r0 with
  | nil => rw [List.append_nil]; exact ⟨hlen, r0, h0, h⟩
  | cons w p ih =>
    obtain ⟨hw, hp⟩ := List.forall_mem_cons.1 hp
    rw [List.cons_append, walk, if_neg (Nat.not_lt.2 hw)] at h
    split at h
    · cases h
    next hne =>
      split at h
      · cases h
      next r1 hadd =>
        have := ih hp (h0.addPrefix hw hadd) (by rw [List.length_append, List.length_singleton]; omega)
          (by rwa [List.length_append, List.length_singleton])
        rwa [List.append_assoc, List.singleton_append] at this

/-- Words that decode begin with prefixes that R56 finds no fault in, which leave the chain that decodes. -/
theorem decode_reads {m : DecMode} {p ws : List Half} {o : Instr × Nat} (hp : ∀ w ∈ p, 0x3C ≤ (w.extractLsb' 10 6).toNat)
    (h : decode m (p ++ ws) = .ok o) :
    p.length ≤ 4 ∧ ∃ r1 r, r1.Reads p ∧ walk p.length r1 ws = .ok r ∧ decodeRaw m r = some o.1 := by
  rw [decode] at h
  split at h
  · cases h
  next r hr =>
    obtain ⟨hlen, r1, h1, hw⟩ := walk_reads hp reads_nil (by decide) hr
    split at h
    · cases h
    next i hi => cases h; exact ⟨hlen, r1, r, h1, hw, hi⟩

/-- What does not decode to an instruction decodes to an error. -/
theorem decode_error {m : DecMode} {ws : List Half} (h : ∀ o, decode m ws ≠ .ok o) : ∃ e, decode m ws = .error e := by
  cases hd : decode m ws with
  | error e => exact ⟨e, rfl⟩
  | ok o => exact absurd hd (h o)

end Sys2Proof
end

section
/-! # Ops that no page lists, and third operands where there is none (R56 items 6 and 8) -/
namespace Sys2Proof

open Sys2Proof.Safety

/-! ## Shapes without a third operand -/

/-- XREG names a third operand. -/
structure Raw.Third (r : Raw) : Prop where
  noC : r.noC = false
  xreg : r.xreg.isSome = true

section
variable {α β γ : Type} {m : DecMode} {r : Raw} {pd : Option Pred} {ra : BitVec 30 → Option α} {rb : BitVec 30 → Option β} {i : γ}
variable (h : r.Third)
include h

theorem twoMM_third (k : Pred → Reg → β → Option Instr) : twoMM m r pd rb k = none := by simp [twoMM, h.noC]
theorem twoM_third (k : Pred → Reg → β → Option Instr) : twoM m r pd rb k = none := by simp [twoM, twoMM, h.noC]
theorem two_third (k : Pred → Reg → β → Instr) : two m r pd rb k = none := by simp [two, twoMM, h.noC]
theorem twoN_third (k : Pred → Reg → SSrc → Instr) : twoN m r k = none := by simp [twoN, two, twoMM, noImm, h.noC]
theorem twoP_third (n : Nat) (k : Pred → Reg → β → Option Instr) : twoP m r rb n k = none := by simp [twoP, twoMM, h.noC]
theorem twoO_third (k : Pred → Reg → β → Option Instr) : twoO m r rb k = none := by simp [twoO, twoMM, h.noC]
theorem twoK_third (k : Pred → Reg → β → Option Instr) : twoK m r rb k = none := by simp [twoK, twoMM, h.noC]
theorem srcs2_third (k : Pred → α → β → Option Instr) : srcs2 r ra rb k = none := by simp [srcs2, h.noC]
theorem oneB_third (k : Pred → SSrc → Instr) : oneB m r k = none := by simp [oneB, h.noC]
theorem fiP_third (k : Pred → Reg → γ → Option Instr) : fiP m r pd i k = none := by simp [fiP, h.noC]
theorem fmN_third (k : Pred → SSrc → BitVec 30 → Instr) : fmN m r k = none := by simp [fmN, h.noC]
theorem fmD_third (m2 : BitVec 2) (k : Pred → Reg → SSrc → BitVec 30 → Instr) : fmD m r pd m2 k = none := by simp [fmD, h.noC]
theorem fmS_third (m2 : BitVec 2) (k : Pred → α → SSrc → BitVec 30 → Instr) : fmS m r pd m2 ra k = none := by simp [fmS, h.noC]
theorem extF_third (k : Pred → Reg → SSrc → BitVec 6 → BitVec 6 → Instr) : extF m r k = none := by simp [extF, h.noC]
theorem p2_third (k : Pred → PReg → PReg → Instr) : p2 r k = none := by simp [p2, h.noC]
theorem copyF_third (k : Pred → BitVec 5 → VSrc → Option Instr) : copyF m r k = none := by simp [copyF, h.noC]

theorem bare_third (x : Option Instr) : bare r x = none := by simp [bare, h.xreg]
theorem fsF_third (k : Pred → BitVec 10 → Option Instr) : fsF r k = none := by simp [fsF, bare, h.xreg]
theorem noOps_third (k : Pred → Instr) : noOps m r k = none := by simp [noOps, fsF, bare, h.xreg]
theorem fbF_third (k : Pred → BitVec 40 → Instr) : fbF r k = none := by simp [fbF, bare, h.xreg]
theorem noXreg_third (x : Option Instr) : noXreg r x = none := by simp [noXreg, bare, noImm, h.xreg]

end

/-! ## The pages -/

section
variable {m : DecMode} {r : Raw}

theorem page0_unlisted (h : opsListed 0 ≤ r.op.toNat) : page0 m r = none := by
  simp only [opsListed, page0] at *
  split <;> simp_all

theorem page1_unlisted (h : opsListed 1 ≤ r.op.toNat) : page1 m r = none := by
  simp only [opsListed, page1] at *
  split <;> simp_all

theorem page2_unlisted (h : opsListed 2 ≤ r.op.toNat) : page2 m r = none := by
  simp only [opsListed, page2] at *
  split <;> simp_all

theorem page3_unlisted (h : opsListed 3 ≤ r.op.toNat) : page3 m r = none := by
  simp only [opsListed, page3] at *
  split <;> simp_all

theorem page4_unlisted (h : opsListed 4 ≤ r.op.toNat) : page4 m r = none := by
  simp only [opsListed, page4] at *
  split <;> simp_all

theorem page5_unlisted (h : opsListed 5 ≤ r.op.toNat) : page5 m r = none := by
  simp only [opsListed, page5] at *
  split <;> simp_all

theorem page6_unlisted (h : opsListed 6 ≤ r.op.toNat) : page6 m r = none := by
  simp only [opsListed, page6] at *
  split <;> simp_all

theorem page7_unlisted (h : opsListed 7 ≤ r.op.toNat) : page7 m r = none := by
  simp only [opsListed, page7] at *
  split <;> simp_all

theorem page8_unlisted (h : opsListed 8 ≤ r.op.toNat) : page8 m r = none := by
  simp only [opsListed, page8] at *
  split <;> simp_all

theorem page9_unlisted (h : opsListed 9 ≤ r.op.toNat) : page9 m r = none := by
  simp only [opsListed, page9] at *
  split <;> simp_all

theorem page10_unlisted (h : opsListed 10 ≤ r.op.toNat) : page10 m r = none := by
  simp only [opsListed, page10] at *
  split <;> simp_all

theorem page0_third (h : r.Third) (hop : r.op.toNat ∉ thirdOps 0) : page0 m r = none := by
  have hC := h.noC
  unfold page0
  split
  rotate_right
  · rfl
  all_goals
    next hk =>
      rw [hk] at hop
      simp [thirdOps, hC, fi, fiP_third h, fmD_third h, fmS_third h, two_third h, twoN_third h, srcs2_third h, noOps_third h,
        fbF_third h, brpF, noPred, bare_third h, loopF, trapF, sigF, fenceF, fsF_third h, mxqF, noXreg_third h] at hop ⊢

theorem page1_third (h : r.Third) (hop : r.op.toNat ∉ thirdOps 1) : page1 m r = none := by
  have hC := h.noC
  unfold page1
  split <;> simp_all [thirdOps, two_third, twoM_third, extF_third, p2_third, psetF, pmovsF, pmovpF, h.noC]

theorem page2_third (h : r.Third) (hop : r.op.toNat ∉ thirdOps 2) : page2 m r = none := by
  have hC := h.noC
  unfold page2
  split <;> simp_all [thirdOps, two_third, fiV, fiP_third]

theorem page3_third (h : r.Third) (hop : r.op.toNat ∉ thirdOps 3) : page3 m r = none := by
  have hC := h.noC
  unfold page3
  split <;> simp_all [thirdOps, two_third, twoM_third]

theorem page4_third (h : r.Third) (hop : r.op.toNat ∉ thirdOps 4) : page4 m r = none := by
  have hC := h.noC
  unfold page4
  split <;> simp_all [thirdOps, two_third, twoM_third, twoMM_third, twoP_third, twoO_third, twoK_third, tblldF]

theorem page5_third (h : r.Third) (hop : r.op.toNat ∉ thirdOps 5) : page5 m r = none := by
  have hC := h.noC
  unfold page5
  split <;> simp_all [thirdOps, fmD_third, fmS_third, fmN_third, ldacqF, strelF]

theorem page6_third (h : r.Third) (hop : r.op.toNat ∉ thirdOps 6) : page6 m r = none := by
  have hC := h.noC
  unfold page6
  split <;> simp_all [thirdOps, twoN_third, twoMM_third, oneB_third, noImm, noPred, gbarF, srcs2_third, obgiveF]

theorem page7_third (h : r.Third) (hop : r.op.toNat ∉ thirdOps 7) : page7 m r = none := by
  have hC := h.noC
  unfold page7
  split <;> simp_all [thirdOps, noPred, srcs2_third]

theorem page8_third (h : r.Third) : page8 m r = none := by
  have hC := h.noC
  unfold page8
  split <;> simp_all [fbF_third, noOps_third, srcs2_third, mbwF, mbrF, twoN_third, copyF_third]

theorem page9_third (h : r.Third) : page9 m r = none := by
  have hC := h.noC
  unfold page9
  split <;> simp_all [bayF, mxstatF, mxdrainF, noXreg_third]

theorem page10_third (h : r.Third) : page10 m r = none := by
  have hC := h.noC
  unfold page10
  split <;> simp_all [noPred, noOps_third, rdctrF, rdturnF, fsF_third, pwrhintF, bare_third]

end

end Sys2Proof
end

section
/-! # The faults of R56 -/
namespace Sys2Proof

open Sys2Proof.Safety

/-- The base word of a chain whose ops R56 item 6 names reserved makes no instruction. -/
theorem decodeRaw_unlisted {m : DecMode} {r : Raw} (h : opsListed r.page.toNat ≤ r.op.toNat) :
    decodeRaw m r = none := by
  unfold decodeRaw
  split
  case h_1 hk => exact page0_unlisted (by rwa [hk] at h)
  case h_2 hk => exact page1_unlisted (by rwa [hk] at h)
  case h_3 hk => exact page2_unlisted (by rwa [hk] at h)
  case h_4 hk => exact page3_unlisted (by rwa [hk] at h)
  case h_5 hk => exact page4_unlisted (by rwa [hk] at h)
  case h_6 hk => exact page5_unlisted (by rwa [hk] at h)
  case h_7 hk => exact page6_unlisted (by rwa [hk] at h)
  case h_8 hk => exact page7_unlisted (by rwa [hk] at h)
  case h_9 hk => exact page8_unlisted (by rwa [hk] at h)
  case h_10 hk => exact page9_unlisted (by rwa [hk] at h)
  case h_11 hk => exact page10_unlisted (by rwa [hk] at h)
  case h_12 => rfl

/-- Nor does one with a third operand where the op has none (R56 item 8). -/
theorem decodeRaw_third {m : DecMode} {r : Raw} (h : r.Third) (hop : r.op.toNat ∉ thirdOps r.page.toNat) : decodeRaw m r = none := by
  unfold decodeRaw
  split
  case h_1 hk => exact page0_third h (by rwa [hk] at hop)
  case h_2 hk => exact page1_third h (by rwa [hk] at hop)
  case h_3 hk => exact page2_third h (by rwa [hk] at hop)
  case h_4 hk => exact page3_third h (by rwa [hk] at hop)
  case h_5 hk => exact page4_third h (by rwa [hk] at hop)
  case h_6 hk => exact page5_third h (by rwa [hk] at hop)
  case h_7 hk => exact page6_third h (by rwa [hk] at hop)
  case h_8 hk => exact page7_third h (by rwa [hk] at hop)
  case h_9 => exact page8_third h
  case h_10 => exact page9_third h
  case h_11 => exact page10_third h
  case h_12 => rfl

/-- A word with XREG's code and a third operand names one in the chain that reads it. -/
theorem third_of_word {r : Raw} {w : Half} (hx : r.xreg = some (w.extractLsb' 0 10))
    (h : w.extractLsb' 5 5 ≠ 0 ∨ w.getLsbD 2 = true) : r.Third where
  noC := by
    have hc : r.fc = w.extractLsb' 5 5 := by
      rw [Raw.fc, Raw.xr, hx, Option.getD_some]
      ext i hi; simp
    have h4 : r.c4 = w.getLsbD 2 := by
      rw [Raw.c4, Raw.xr, hx, Option.getD_some]; simp
    rw [Raw.noC, hc, h4]
    rcases h with h | h <;> simp_all
  xreg := by rw [hx]; rfl

/-- No code of a prefix but XIMM's stands twice in what R56 finds no fault in. -/
theorem Raw.Reads.codes_le_one {r : Raw} {p : List Half} (h : r.Reads p) {c : BitVec 6} (hc : 0x3D ≤ c.toNat) : codes c p ≤ 1 := by
  rcases prefix_code (Nat.le_of_succ_le hc) with rfl | rfl | rfl | rfl
  · exact absurd hc (by decide)
  · exact h.xreg ▸ Bool.toNat_le _
  · exact h.xpage ▸ Bool.toNat_le _
  · exact h.xpred ▸ Bool.toNat_le _

/-- The base word gives a chain its op and leaves what the prefixes have given it. -/
theorem walk_base_fields {n : Nat} {r1 r : Raw} {w : Half} {ws : List Half} (hw : (w.extractLsb' 10 6).toNat < 0x3C)
    (h : walk n r1 (w :: ws) = .ok r) : r.page = r1.page ∧ r.op = w.extractLsb' 10 6 ∧ r.xreg = r1.xreg := by
  rw [walk, if_pos hw] at h
  cases h
  exact ⟨rfl, rfl, rfl⟩

/-- Settles O39: words that decode begin with prefixes that R56 finds no fault in, and each of the faults contradicts what those have read, or the
page of the base word. -/
theorem reservedRefused : Obligations.ReservedRefused := by
  unfold Obligations.ReservedRefused
  refine ⟨fun m ws hws => decode_error fun o ho => ?_, fun m p ws hlt hp => decode_error fun o ho => ?_,
    fun m a b p q ws ha hab hpq => decode_error fun o ho => ?_, fun m w p ws hp hw hbad => decode_error fun o ho => ?_,
    fun m w p ws hp hw hbad => decode_error fun o ho => ?_, fun m p ws hp hlt => decode_error fun o ho => ?_,
    fun m w p ws hp hw => ⟨fun hun => decode_error fun o ho => ?_, fun hop hx => decode_error fun o ho => ?_⟩⟩
  · rw [← List.append_nil ws] at ho
    obtain ⟨-, r1, r, -, hr, -⟩ := decode_reads hws ho
    cases hr
  · exact absurd (decode_reads hp ho).1 (Nat.not_le.2 hlt)
  · have hall : ∀ w ∈ p ++ a :: q ++ [b], 0x3C ≤ (w.extractLsb' 10 6).toNat := by
      intro w hw
      have hor : w ∈ p ++ q ∨ w = a ∨ w = b := by simp at hw ⊢; tauto
      rcases hor with h | rfl | rfl
      · exact hpq w h
      · omega
      · rw [← hab]; omega
    rw [show p ++ a :: q ++ b :: ws = (p ++ a :: q ++ [b]) ++ ws by simp] at ho
    obtain ⟨-, r1, -, hr1, -, -⟩ := decode_reads hall ho
    have hone := hr1.codes_le_one ha
    rw [codes_concat, codes, List.countP_append, List.countP_cons] at hone
    simp [hab] at hone
  · rw [List.append_cons] at ho
    obtain ⟨-, r1, -, hr1, -, -⟩ := decode_reads (List.forall_mem_append.2 ⟨hp, List.forall_mem_singleton.2 (hw ▸ by decide)⟩) ho
    obtain ⟨hne, hle⟩ := hr1.goodPage w (by simp) hw
    rcases hbad with h | h
    · exact hne h
    · omega
  · rw [List.append_cons] at ho
    obtain ⟨-, r1, -, hr1, -, -⟩ := decode_reads (List.forall_mem_append.2 ⟨hp, List.forall_mem_singleton.2 (hw ▸ by decide)⟩) ho
    exact hbad (hr1.predLow w (by simp) hw)
  · obtain ⟨-, r1, -, hr1, -, -⟩ := decode_reads hp ho
    have h3 := hr1.ximm ▸ hr1.ximm_le
    rw [codes, List.countP_eq_length_filter] at h3
    omega
  · obtain ⟨-, r1, r, hr1, hr, hdec⟩ := decode_reads hp ho
    obtain ⟨hpage, hcode, -⟩ := walk_base_fields hw hr
    rw [decodeRaw_unlisted (by rwa [hpage, hcode, hr1.page])] at hdec
    cases hdec
  · obtain ⟨-, r1, r, hr1, hr, hdec⟩ := decode_reads hp ho
    obtain ⟨x, hxp, hcode, hthird⟩ := hx
    obtain ⟨hpage, hop', hxreg⟩ := walk_base_fields hw hr
    rw [decodeRaw_third (third_of_word (hxreg ▸ hr1.payload x hxp hcode) hthird) (by rwa [hpage, hop', hr1.page])] at hdec
    cases hdec

/-- Settles O38: the decoder run on the words of each sample. -/
theorem decodeSamples : Obligations.DecodeSamples := by
  unfold Obligations.DecodeSamples
  decide

end Sys2Proof
end

section
/-! # A step runs what the words at the pc decode to (R18, R59) -/
namespace Sys2Proof.Machine

open Sys2Proof.Safety

theorem bit_zero_of_even {x : Word} (h : x.toNat % 2 = 0) : bit x 0 = false := by
  simp [bit, Nat.testBit_zero, h]

/-- The words at an even pc that hold nothing back and decode are the instruction there. -/
theorem fetchInstr_of_decode {s u : State} {i : Instr} {ws : List Half} {len : Nat} (heven : s.cur.pc.toNat % 2 = 0)
    (hheld : s.fetchHeld s.cur.pc = none) (hw : s.fetchWords s.cur.pc = (u, .ok ws)) (hd : decode s.decMode ws = .ok (i, len)) :
    s.fetchInstr = (u, .instr i len (ws.take (len / 2))) := by
  simp only [State.fetchInstr, bit_zero_of_even heven, hheld, hw, hd, Bool.false_eq_true, if_false]

/-- A seat that nothing comes before is taken by its slot (R17, R18). -/
theorem pick_seat {s : State} {rest : List Move} {q : Seat} (ht : s.traceNow = none) (ha : s.agenda = .seat :: rest)
    (hn : s.nextSeat = some q) (hd : s.dueBefore q.tick true = none) (hb : (seated s q rest).cur.boundary q.core q.slot = none) :
    s.pick = (seated s q rest).issue (!q.donated) := by
  have hpick : s.pick = { s with agenda := rest }.takeSeat q.core q.slot q.cycle q.tick q.donated := by
    simp only [State.pick, ht, ha, State.seatMove, hn, hd]
  rw [hpick]
  simp only [State.takeSeat, seated] at hb ⊢
  rw [hb]

/-- What the state says of an instruction beside its tables leaves its condition. -/
@[simp] theorem foot_pred (s : State) (i : Instr) : (s.foot i).pred = (foot i).pred := by
  unfold State.foot
  split
  · split <;> rfl
  · rfl

/-- An instruction that neither the loop's end check, nor its slot or level, nor its condition stops executes, unless something holds it back. -/
theorem issue_runs {s u : State} {own : Bool} {i : Instr} {len : Nat} {ws : List Half} {f : Foot}
    (hf : (s.modCur fun x => { x with sigPrev := x.sigacc }).fetchInstr = (u, .instr i len ws))
    (hl : (u.setInstr len ws).cur.loopEnds i = false) (hb : (u.setInstr len ws).barred i = false)
    (ha : (u.setInstr len ws).acts (foot i).pred = true) (hfoot : f = (u.setInstr len ws).foot i)
    (hs : (u.setInstr len ws).stopped own f (fun v => v.begin i f ws) = none) :
    s.issue own = .instr i ((u.setInstr len ws).begin i f ws) := by
  subst hfoot
  simp only [State.issue, hf, hl, hb, foot_pred, ha, hs, Bool.false_eq_true, if_false, Bool.not_true]

theorem issue_barred {s u : State} {own : Bool} {i : Instr} {len : Nat} {ws : List Half}
    (hf : (s.modCur fun x => { x with sigPrev := x.sigacc }).fetchInstr = (u, .instr i len ws))
    (hl : (u.setInstr len ws).cur.loopEnds i = false) (hb : (u.setInstr len ws).barred i = true) :
    s.issue own = .instr i (((u.setInstr len ws).idleSeat own).begin i ((u.setInstr len ws).foot i) ws) := by
  simp only [State.issue, hf, hl, hb, Bool.false_eq_true, if_false, if_true]

theorem issue_inactive {s u : State} {own : Bool} {i : Instr} {len : Nat} {ws : List Half}
    (hf : (s.modCur fun x => { x with sigPrev := x.sigacc }).fetchInstr = (u, .instr i len ws))
    (hl : (u.setInstr len ws).cur.loopEnds i = false) (hb : (u.setInstr len ws).barred i = false)
    (ha : (u.setInstr len ws).acts (foot i).pred = false) :
    s.issue own = .instr i ((u.setInstr len ws).begin i { (u.setInstr len ws).foot i with writes := [] } ws) := by
  simp only [State.issue, hf, hl, hb, foot_pred, ha, Bool.false_eq_true, if_false, if_true, Bool.not_false]

/-- Settles O35: a seat that nothing comes before issues its slot, and what stops an instruction there is taken in the order of `State.issue`. -/
theorem stepRunsDecoded : Obligations.StepRunsDecoded := by
  unfold Obligations.StepRunsDecoded
  refine ⟨fun s u i ws len heven hheld hw hd => fetchInstr_of_decode heven hheld hw hd,
    fun s u rest q i len ws ht ha hn hd hb hf hl hbar hact f hfoot hstop => ?_,
    fun s u rest q i len ws ht ha hn hd hb hf hl => ⟨fun hbar => ?_, fun hbar hact => ?_⟩, fun s i rest ht ha hev => ?_⟩
  · rw [step, pick_seat ht ha hn hd hb, issue_runs hf hl hbar hact hfoot hstop]
  · rw [step, pick_seat ht ha hn hd hb, issue_barred hf hl hbar]
  · rw [step, pick_seat ht ha hn hd hb, issue_inactive hf hl hbar hact]
  · have hpick : s.pick = .instr i { s with agenda := rest } := by
      simp only [State.pick, ht, ha, State.eventMove, hev]
    rw [step, hpick]

end Sys2Proof.Machine
end

section
/-! # HALT at a level above F, under a condition that fails (R59, R61, R98) -/
namespace Sys2Proof.Machine

open Sys2Proof.Safety

/-- A state whose slot 1 of core 0 issues at level 3, which R98 does not name (0 U, 1 S, 2 F). -/
def atLevel3 : State := { cores := [(0, { slots := [(1, { status := .run, pl := 3 })] })], slot := 1 }

/-- Refutes O26: HALT raises PRIV at every level but 2 before it looks at its condition, and the checks of slot and level that the issue makes bar it
below level 2 alone; so at level 3 the condition fails, nothing bars it, and it traps. -/
theorem not_falsePredicate : ¬ Obligations.FalsePredicate := by
  unfold Obligations.FalsePredicate
  intro h
  have hretire := h atLevel3 (.halt (.whole 1 false)) (by decide) (by decide)
    ⟨by decide, by decide, fun v => ⟨List.not_mem_nil, List.not_mem_nil⟩⟩
  have htrap : exec (.halt (.whole 1 false)) atLevel3 = .next (atLevel3.decodeFault .priv) := rfl
  rw [htrap] at hretire
  have hih := congrArg (fun t : State => t.cur.ih) (Host.Outcome.next.inj hretire)
  exact absurd hih (by decide)

end Sys2Proof.Machine
end

section
/-! # A result in the empty handler slot (R61, R92) -/
namespace Sys2Proof.Machine

open Sys2Proof.Safety

/-- A state whose issuing slot is the handler slot of core 0, without a handler: its bank is the physical function's, 8. -/
def handlerless : State := { slot := 15 }

/-- Refutes O29: the bank of the handler slot is the physical function's while it is empty and its VF's while it runs, and a completing instruction
leaves its slot running; so a MOVI there changes what VFID reads, and which shared registers the slot sees. -/
theorem not_resultFrame : ¬ Obligations.ResultFrame := by
  unfold Obligations.ResultFrame
  intro h
  obtain ⟨-, hsys, -⟩ := h handlerless (.movi .always (.priv 1) 3) .always (.s (.priv 1))
    (handlerless.putS 2 (.priv 1) (simm 3)).retire rfl rfl
  exact absurd (hsys .vfid (by decide)) (by decide +kernel)

end Sys2Proof.Machine
end

section
/-! # A held LDS that joins at a full word behind a later write of its register (R94, R204) -/
namespace Sys2Proof.Machine

open Sys2Proof.Safety

/-- An LDS of slot 1 that its home holds in the network; its word is full and reads zero. -/
def heldLds : Waiter := { home := homeId 0x40000000, pa := 0x40000000, core := 0, slot := 1, req := .lds (.priv 1) 0x40000000 0x40000000 false 0, held := true }

/-- A state in which s1 of that slot holds 7, and a write of an earlier instruction of the slot to s1 lands in cycle 9. -/
def ldsBehindWrite : State :=
  { cores := [(0, { slots := [(1, { status := .wait (.deferred 0), s := [(1, 7)], busy := [{ reg := .s (.priv 1), cycle := 9 }] })] })],
    waiters := [heldLds], full := [0x40000000] }

/-- Refutes O59: of two writes to a register the later remains (R94), so an LDS whose reply comes before an earlier instruction's write lands leaves its
register as that write has it; the clause of the deferred entry that joins at a full word does not ask that no such write is on its way. -/
theorem not_boundaries : ¬ Obligations.Boundaries := by
  unfold Obligations.Boundaries
  rintro ⟨-, -, -, -, -, -, -, -, -, -, -, hjoin, -⟩
  obtain ⟨t, ht, -, -, hfull⟩ := hjoin ldsBehindWrite (homeId 0x40000000) heldLds (.priv 1) 0x40000000 0x40000000 false 0
    (by decide) (by decide) rfl
  obtain ⟨-, -, hreg⟩ := hfull (by decide) rfl (by decide) rfl
  have hexec : exec (.deferredEntryJoin (homeId 0x40000000)) ldsBehindWrite = .next (ldsBehindWrite.joinHeld heldLds) := rfl
  obtain rfl := Host.Outcome.next.inj (hexec.symm.trans ht)
  exact absurd (hreg 1 rfl) (by decide +kernel)

end Sys2Proof.Machine
end

section
/-! # Halts: what is done elsewhere while one cluster halts leaves its mark alone (R357, R358) -/
namespace Sys2Proof.Machine

/-- No cluster begins or ends a halt. -/
structure HaltsKept (s t : State) : Prop where
  halting : ∀ n, (t.clus n).halting = (s.clus n).halting

theorem Drains.haltsKept {s t : State} (h : Drains s t) : HaltsKept s t := by
  obtain ⟨_, _, _, _, _, _, rfl⟩ := h.outer
  exact ⟨fun _ => rfl⟩

theorem WritesOnly.haltsKept {s t : State} (h : WritesOnly s t) : HaltsKept s t := h.drains.haltsKept

theorem CachesOnly.haltsKept {s t : State} (h : CachesOnly s t) : HaltsKept s t := h.drains.haltsKept

namespace HaltsKept

theorem refl (s : State) : HaltsKept s s := ⟨fun _ => rfl⟩

theorem trans {s t u : State} (h : HaltsKept s t) (h' : HaltsKept t u) : HaltsKept s u := ⟨fun n => (h'.halting n).trans (h.halting n)⟩

/-- What leaves the clusters alone. -/
theorem same {s t : State} (h : t.clusters = s.clusters) : HaltsKept s t := ⟨fun n => by rw [State.clus, State.clus, h]⟩

/-- What comes after and leaves the clusters alone. -/
theorem carry {s t u : State} (h : HaltsKept s t) (hu : u.clusters = t.clusters) : HaltsKept s u := h.trans (.same hu)

theorem modClus (s : State) (n : Nat) (f : Cluster → Cluster) (h : ∀ x, (f x).halting = x.halting) : HaltsKept s (s.modClus n f) := by
  constructor
  intro m
  by_cases hm : m = n
  · subst hm; rw [State.clus_modClus, h]
  · rw [State.clus_modClus_ne s f hm]

theorem foldl {α : Type} (f : State → α → State) (step : ∀ s a, HaltsKept s (f s a)) (l : List α) (s : State) : HaltsKept s (l.foldl f s) :=
  foldl_relates refl trans f step l s

theorem asSlot {s : State} (c k : Nat) {f : State → State} (h : ∀ u, HaltsKept u (f u)) : HaltsKept s (s.asSlot c k f) := ⟨(h (s.at c k)).halting⟩

theorem modCore (s : State) (c : Nat) (f : Core → Core) : HaltsKept s (s.modCore c f) := .same rfl

theorem modSlot (s : State) (c k : Nat) (f : Slot → Slot) : HaltsKept s (s.modSlot c k f) := .same rfl

theorem modVf (s : State) (c v : Nat) (f : CoreVf → CoreVf) : HaltsKept s (s.modVf c v f) := .same rfl

theorem modBay (s : State) (c b : Nat) (f : Bay → Bay) : HaltsKept s (s.modBay c b f) := .same rfl

/-! ## The issuing slot's own writes -/

theorem putS (s : State) (lat : Nat) (d : Reg) (v : Word) : HaltsKept s (s.putS lat d v) := by
  unfold State.putS
  split
  · split
    · exact ⟨fun _ => rfl⟩
    · exact .refl s
  · exact ⟨fun _ => rfl⟩

theorem putV (s : State) (lat : Nat) (d : Reg) (m : BitVec 16) (v : Vec) : HaltsKept s (s.putV lat d m v) := by
  cases d <;> exact ⟨fun _ => rfl⟩

theorem putP (s : State) (d : PReg) (v : BitVec 16) : HaltsKept s (s.putP d v) := ⟨fun _ => rfl⟩

theorem retire (s : State) : HaltsKept s s.retire := ⟨fun _ => rfl⟩

/-! ## Records of events (R343) -/

theorem signal (s : State) (f n : Nat) : HaltsKept s (s.signal f n) := by
  unfold State.signal
  dsimp only
  split
  · split <;> exact ⟨fun _ => rfl⟩
  · exact ⟨fun _ => rfl⟩

theorem ringWrite (s : State) (v pa : Nat) (r : EventRec) : HaltsKept s (s.ringWrite v pa r) := by
  unfold State.ringWrite
  split
  · exact ⟨fun _ => rfl⟩
  · split
    · exact ⟨fun _ => rfl⟩
    · exact (WritesOnly.performIo ..).haltsKept

theorem event (s : State) (ring code cause core slot tenant : Nat) (detail : List Word) :
    HaltsKept s (s.event ring code cause core slot tenant detail) := by
  unfold State.event State.record
  by_cases hr : ring < 8
  all_goals
    simp only [hr, ↓reduceIte]
    split
    · exact ⟨fun _ => rfl⟩
    · refine .trans ?_ (.signal ..)
      split
      · exact ⟨(ringWrite s _ _ _).halting⟩
      · exact ⟨fun _ => rfl⟩

/-! ## Translation and spilled obligations (R169, R264, R265) -/

theorem translate (s : State) (c v pasid va : Nat) : HaltsKept s (s.translate c v pasid va).1 := by
  have found (u : State) (e : TlbEntry) : HaltsKept u
      ((u.modClus (clusterOf c) fun cl => { cl with tlb := clusterUse e cl.tlb }).modCore c fun co => { co with utlb := microUse e co.utlb }) :=
    (modClus u (clusterOf c) (fun cl => { cl with tlb := clusterUse e cl.tlb }) fun _ => rfl).carry rfl
  have counted (v code : Nat) (u : State) : HaltsKept u (u.count c v code) := (Drains.count ..).haltsKept
  unfold State.translate
  split
  · exact ⟨fun _ => rfl⟩
  · dsimp only
    split
    · exact .trans (counted ..) (found ..)
    · have walked := (counted v 8 s).trans ((counted v 9 _).trans
        (.foldl (fun s a => s.l2Access c v a false) (fun s a => (Drains.l2Access ..).haltsKept) ((s.count c v 8).walkPas v pasid va) _))
      split
      · exact walked
      · exact .trans walked (found ..)

theorem locate (s : State) (c k v pasid : Nat) (ea : Word) : HaltsKept s (s.locate c k v pasid ea).1 := by
  have h := translate s c v pasid ea.toNat
  unfold State.locate
  split
  · split
    · exact .refl s
    · split <;> exact .refl s
  · split
    · split <;> exact .refl s
    · split
      next heq => rwa [heq] at h
      next heq => rwa [heq] at h

theorem spillPlace (s : State) (c k i : Nat) (write : Bool) : HaltsKept s (s.spillPlace c k i write).1 := by
  have h := locate s c k (s.slotOf c k).vfid.toNat (s.pasid (s.slotOf c k).vfid.toNat (s.slotOf c k).tenant.toNat)
    (BitVec.ofNat 64 (field (s.slotOf c k).obspill 56 0 + 16 * i))
  unfold State.spillPlace
  dsimp only
  split
  next heq => rwa [heq] at h
  next heq => rwa [heq] at h

theorem spillAt {s : State} {c k i : Nat} {write : Bool} {r : State × Option Place} (h : s.spillAt c k i write = .ok r) : HaltsKept s r.1 := by
  have hplace := spillPlace s c k i write
  unfold State.spillAt at h
  dsimp only at h
  split at h
  · cases h
  · split at h
    next heq => cases h; rwa [heq] at hplace
    next heq =>
      split at h
      · cases h
      · cases h; rwa [heq] at hplace

theorem placeOb (s : State) (c k : Nat) (o : Oblig) (spill : Option Nat) : HaltsKept s (s.placeOb c k o spill) := by
  unfold State.placeOb
  dsimp only
  refine .trans ?_ (.modCore ..)
  split
  · exact .refl s
  · split
    · exact .refl s
    next heq => exact spillAt heq
    next heq =>
      dsimp only
      exact (spillAt heq).trans (Drains.performFor ..).haltsKept

theorem addOb (s : State) (c k : Nat) (o : Oblig) : HaltsKept s (s.addOb c k o) :=
  .trans (t := s.freeResv c k) ⟨fun _ => rfl⟩ (.placeOb ..)

theorem askReset (s : State) (v : Nat) : HaltsKept s (s.askReset v) := by
  unfold State.askReset
  split <;> exact ⟨fun _ => rfl⟩

theorem readSpill (s : State) (c k : Nat) (o : Oblig) (i : Nat) : HaltsKept s (s.readSpill c k o i).1 := by
  unfold State.readSpill
  split
  · exact .refl s
  next heq =>
    split at heq
    · cases heq
    · exact spillAt heq
  next heq =>
    split at heq
    · cases heq
    · have h := spillAt heq
      split
      · exact h
      · dsimp only
        split <;> exact h

theorem recallOb (s : State) (c k : Nat) (o : Oblig) : HaltsKept s (s.recallOb c k o).1 := by
  unfold State.recallOb
  split
  · exact .refl s
  next i _ =>
    have h := readSpill s c k o i
    split
    next heq => rw [heq] at h; exact .trans h (.askReset ..)
    next heq => rw [heq] at h; exact h.carry rfl

theorem recallObs (s : State) (c k : Nat) : HaltsKept s (s.recallObs c k) := .foldl _ (fun s o => .recallOb s c k o) _ s

theorem discharge (s : State) (c k : Nat) (kind : ObKind) (obj : Word) : HaltsKept s (s.discharge c k kind obj).1 := by
  unfold State.discharge
  split
  · exact .refl s
  next o _ => exact (recallOb s c k o).carry rfl

/-! ## Waiters and their service (R197 to R208) -/

theorem unreserve (s : State) (c k : Nat) : HaltsKept s (s.unreserve c k) := by
  unfold State.unreserve
  dsimp only
  split <;> split <;> exact .same rfl

/-- Where every cluster changes and none its mark. -/
theorem eachCluster {s t : State} (f : Nat → Cluster → Cluster) (h : ∀ n x, (f n x).halting = x.halting) (ht : t.clusters = s.clusters.over f) : HaltsKept s t := by
  constructor
  intro n
  rw [State.clus, State.clus, ht, SMap.look_over]
  cases s.clusters.look n with
  | none => rfl
  | some x => exact h n x

theorem unlist (s : State) (c k : Nat) : HaltsKept s (s.unlist c k) := by
  unfold State.unlist
  dsimp only
  refine .trans (.eachCluster ?_ ?_ ?_) ((unreserve _ c k).trans (.modCore ..))
  · exact fun _ cl => { cl with ingress := cl.ingress.filter fun p => !p.asks c k }
  all_goals intros; rfl

theorem replyS (s : State) (c k : Nat) (d : Reg) (v : Word) : HaltsKept s (s.replyS c k d v) :=
  .asSlot c k fun u => (putS u 0 d v).trans (.retire _)

theorem replyTrap (s : State) (c k : Nat) (cause : Cause) (tval : Word) : HaltsKept s (s.replyTrap c k cause tval) :=
  .asSlot c k fun _ => .same rfl

theorem readHome (s : State) (c pa : Nat) : HaltsKept s (s.readHome c pa) := (CachesOnly.readHome s c pa).haltsKept

theorem vldsGot (s : State) (c k : Nat) (w : VldsWord) (v : Word) (poisoned : Bool) : HaltsKept s (s.vldsGot c k w v poisoned) := by
  unfold State.vldsGot
  split
  · dsimp only
    split
    · split
      · exact .replyTrap ..
      · exact .asSlot c k fun u => (putV u ..).trans (.retire _)
    · exact .modSlot ..
  · exact .refl s

theorem serveOne (s : State) (w : Waiter) (v : Word) (poisoned : Bool) : HaltsKept s (s.serveOne w v poisoned) := by
  have read : HaltsKept s ((s.unjoin w).readHome w.core w.pa) := .trans (t := s.unjoin w) (.same rfl) (.readHome ..)
  have faulted (ea : Word) : HaltsKept s ((s.unjoin w).replyTrap w.core w.slot .poison ea) := .trans (t := s.unjoin w) (.same rfl) (.replyTrap ..)
  unfold State.serveOne
  dsimp only
  split
  · split
    · exact faulted _
    · exact read.trans (.replyS ..)
  · exact read.trans (.vldsGot ..)
  · split
    · exact faulted _
    · exact read.trans ((addOb ..).trans (.replyS ..))
  · exact .same rfl

theorem serveList (s : State) (pa : Nat) (v : Word) (poisoned : Bool) (ws : List Waiter) : HaltsKept s (s.serveList pa v poisoned ws) := by
  induction ws generalizing s with
  | nil => exact .same rfl
  | cons w ws ih =>
    unfold State.serveList
    dsimp only
    split
    · exact .serveOne ..
    · exact (serveOne ..).trans (ih _)

theorem serveWord (s : State) (pa : Nat) : HaltsKept s (s.serveWord pa) := .serveList ..

theorem serveSync (s : State) (pa : Nat) : HaltsKept s (s.serveSync pa) := by
  refine .foldl _ (fun u w => ?_) _ s
  split
  · split
    · exact .trans (t := u.unjoin w) (.same rfl) ((readHome ..).trans (.replyS ..))
    · exact .refl u
  · exact .refl u

theorem syncUpdate (s : State) (c k pa : Nat) (w : Word) : HaltsKept s (s.syncUpdate c k pa w) :=
  (WritesOnly.perform s c k _).haltsKept.trans (.serveSync ..)

theorem holdPacket (s : State) (pa : Nat) (p : Packet) : HaltsKept s (s.holdPacket pa p) := by
  unfold State.holdPacket
  split
  · exact .refl s
  · split
    · exact .refl s
    · exact .modClus s _ _ fun _ => rfl

/-! ## Contexts in memory, and results in flight (R311, R358) -/

theorem storeWords (s : State) (v pa : Nat) (ws : List Word) : HaltsKept s (s.storeWords v pa ws) := by
  unfold State.storeWords
  dsimp only
  refine .trans ?_ (.foldl _ (fun u i => ((CachesOnly.l2Touch u ..).trans (.sendInvals ..)).haltsKept) _ _)
  exact .same rfl

theorem patchCtx (s : State) (v tenant c k : Nat) (old new : List Word) : HaltsKept s (s.patchCtx v tenant c k old new) := by
  unfold State.patchCtx
  split
  · exact .refl s
  · refine .foldl _ (fun u p => ?_) _ s
    split
    · exact .refl u
    · exact .storeWords ..

theorem landAll (s : State) (c v : Nat) : HaltsKept s (s.landAll c v) := .same rfl

end HaltsKept

end Sys2Proof.Machine
end

section
/-! # What a kill or a halt does elsewhere keeps every cluster's halt mark (R338, R357, R358) -/
namespace Sys2Proof.Machine
namespace HaltsKept

/-! ## Replies to a saved activity (R311) -/

theorem inImage (s : State) (sv : Saved) (late : Option Wait) (f : State → State) (h : ∀ u, HaltsKept u (f u)) :
    HaltsKept s (s.inImage sv late f) := by
  unfold State.inImage
  extract_lets c k old oldObs oldVf oldLand tc swap s1 s2 y again sv' s2' cv' s3
  have h1 : HaltsKept s s1 := .same rfl
  have h2 : HaltsKept s s2 := h1.trans ((h s1).trans (.landAll ..))
  clear_value s2 s1
  have h2' : HaltsKept s s2' := by
    unfold s2'
    split
    · exact h2
    · exact h2.trans (.patchCtx ..)
  clear_value s2'
  exact h2'.carry rfl

theorem lateReply (s : State) (sv : Saved) (f : State → State) (h : ∀ u, HaltsKept u (f u)) : HaltsKept s (s.lateReply sv f) := by
  unfold State.lateReply
  dsimp only
  refine .inImage s sv none _ fun u => ?_
  refine .trans ?_ (.modSlot ..)
  refine .trans ?_ (.asSlot _ _ h)
  exact .same rfl

theorem tell (s : State) (e : TsEntry) (f : State → State) (h : ∀ u, HaltsKept u (f u)) : HaltsKept s (s.tell e f) := by
  unfold State.tell
  dsimp only
  split
  · exact .asSlot _ _ h
  · split
    · exact .lateReply s _ f h
    · exact .refl s

theorem tellTrap (s : State) (e : TsEntry) (cause : Cause) (tval : Word) : HaltsKept s (s.tellTrap e cause tval) :=
  .tell s e _ fun _ => .same rfl

/-! ## Tuple space (R286 to R300) -/

theorem sliceWrite (s : State) (n pa : Nat) (bs : List Byte) : HaltsKept s (s.sliceWrite n pa bs) :=
  (WritesOnly.perform ..).haltsKept.trans (CachesOnly.flushInvals ..).haltsKept

theorem bumpStored (s : State) (n j : Nat) (up : Bool) : HaltsKept s (s.bumpStored n j up) := by
  unfold State.bumpStored
  exact .sliceWrite ..

theorem storeAt (s : State) (n j i seq : Nat) (t : Vec) (poisoned : Bool) : HaltsKept s (s.storeAt n j i seq t poisoned) := by
  unfold State.storeAt
  refine .trans ?_ (.bumpStored ..)
  exact .sliceWrite s n _ _

theorem takeSeq (s : State) (n j : Nat) : HaltsKept s (s.takeSeq n j).1 := by
  unfold State.takeSeq
  dsimp only
  exact sliceWrite ..

theorem tsDrop (s : State) (e : TsEntry) : HaltsKept s (s.tsDrop e) := .same rfl

theorem tsPark (s : State) (e : TsEntry) (seq : Nat) (rank : BitVec 56) : HaltsKept s (s.tsPark e seq rank) := by
  unfold State.tsPark
  dsimp only
  split
  · exact .same rfl
  · split
    · exact .same rfl
    · refine .trans ?_ (.modSlot ..)
      refine .trans ?_ (Drains.count ..).haltsKept
      exact .same rfl

theorem tsGive (s : State) (e : TsEntry) (t : Vec) (poisoned : Bool) : HaltsKept s (s.tsGive e t poisoned) := by
  have answered (nb : Bool) (d : Reg) (u : State) : HaltsKept u ((if nb then u.putP 0 0xFFFF else u).putV 0 d 0xFFFF t).retire := by
    refine .trans ?_ ((putV ..).trans (.retire _))
    split
    · exact .putP ..
    · exact .refl u
  unfold State.tsGive
  dsimp only
  split
  all_goals refine .trans (.tsDrop s e) ?_
  · split
    · exact .tellTrap ..
    · exact .tell _ e _ fun u => answered ..
  · split
    · exact .tellTrap ..
    · exact .tell _ e _ fun u => answered ..
  · exact .refl _

theorem tsDone (s : State) (e : TsEntry) : HaltsKept s (s.tsDone e) := by
  unfold State.tsDone
  dsimp only
  refine .trans (.tsDrop s e) ?_
  split
  · exact .refl _
  · split
    · refine .tell _ e _ fun u => .trans ?_ (.retire _)
      split
      · exact .discharge ..
      · exact .refl u
    · exact .refl _

theorem tsOffer (s : State) (n j : Nat) (t : Vec) (poisoned : Bool) : HaltsKept s (s.tsOffer n j t poisoned).1 := by
  have copies := foldl (fun s e => s.tsGive e t poisoned) (fun u e => tsGive u e t poisoned) (s.ts.filter fun e => e.wants n j t poisoned false) s
  unfold State.tsOffer
  dsimp only
  split
  · exact copies.trans (.tsGive ..)
  · exact copies

theorem tsDeposit (s : State) (e : TsEntry) : HaltsKept s (s.tsDeposit e) := by
  have offered := (takeSeq s e.region e.slice).trans (.tsOffer (s.takeSeq e.region e.slice).1 e.region e.slice e.deposit.1 e.deposit.2)
  unfold State.tsDeposit
  dsimp only
  generalize s.takeSeq e.region e.slice = q at offered ⊢
  split
  next s' heq => rw [heq] at offered; exact offered.trans (.tsDone ..)
  next s' heq =>
    rw [heq] at offered
    refine offered.trans ?_
    split
    · exact (storeAt ..).trans (.tsDone ..)
    · split
      · exact (tsDrop ..).trans (.tellTrap ..)
      · exact .tsPark ..

theorem deviceDeposit (s : State) (v n : Nat) (tag : Lane) : HaltsKept s (s.deviceDeposit v n tag) := by
  unfold State.deviceDeposit
  split
  · dsimp only
    refine .trans ?_ (.tsDeposit ..)
    exact .same rfl
  · exact .refl s

/-! ## Obligations of an activity that is gone (R258, R266, R268, R338) -/

theorem passBay (s : State) (c v b : Nat) (poisoned : Bool) : HaltsKept s (s.passBay c v b poisoned) := by
  unfold State.passBay
  split
  · exact .refl s
  next p _ =>
    have marked : HaltsKept s (if poisoned then s.modBay c p fun x => { x with poison := true } else s) := by
      split
      · exact .modBay ..
      · exact .refl s
    generalize (if poisoned then s.modBay c p fun x => { x with poison := true } else s) = u at marked ⊢
    refine marked.trans ?_
    dsimp only
    split
    · exact .modBay ..
    · refine .trans ?_ (.asSlot _ _ retire)
      refine .trans ?_ (.addOb ..)
      exact .modBay ..

theorem syncBump (s : State) (v pa : Nat) (f : Nat → Nat) : HaltsKept s (s.syncBump v pa f) := .same rfl

theorem poisonOb (s : State) (c k v tenant : Nat) (o : Oblig) : HaltsKept s (s.poisonOb c k v tenant o) := by
  have counted (p : Nat) : HaltsKept s ((match poisonedSync o.kind (s.mem.word p) with
      | some w => s.syncUpdate c k p w
      | none => s).syncBump v p fun n => n - 1) := by
    refine .trans ?_ (.syncBump ..)
    split
    · exact .syncUpdate ..
    · exact .refl s
  unfold State.poisonOb
  split
  · split
    · exact .refl s
    · split
      · exact .holdPacket ..
      · split
        · exact .trans (t := s.setPoison _) (.same rfl) (.serveWord ..)
        · exact .refl s
  · split
    · exact .refl s
    · split
      · exact .holdPacket ..
      · exact counted _
  · split
    · exact .refl s
    · split
      · exact .holdPacket ..
      · exact counted _
  · exact .modSlot ..
  · exact .deviceDeposit ..
  · exact .passBay ..

theorem poisonObs (s : State) (c k v tenant : Nat) (obs : List Oblig) : HaltsKept s (obs.foldl (fun s o => s.poisonOb c k v tenant o) s) :=
  .foldl _ (fun u o => poisonOb u c k v tenant o) _ s

theorem handlerReport (s : State) (c v tenant : Nat) (cause : Byte) (addr : Word) : HaltsKept s (s.handlerReport c v tenant cause addr) := .event ..

theorem sendOrphans (s : State) (c v tenant target : Nat) (launch : Option Nat) (cause : Byte) (route : Bool) (gh kh : Word) (obs : List Oblig) :
    HaltsKept s (s.sendOrphans c v tenant target launch cause route gh kh obs) := by
  unfold State.sendOrphans State.deviceSend
  exact .foldl _ (fun _ _ => .modVf ..) _ s

theorem toSupervisor (s : State) (c v tenant : Nat) (launch : Option Nat) (cause : Byte) (kh : Word) (obs : List Oblig) :
    HaltsKept s (s.toSupervisor c v tenant launch cause kh obs) := by
  unfold State.toSupervisor
  split
  · exact .sendOrphans ..
  · unfold State.poisonLeft
    split
    · exact .refl s
    · exact (poisonObs ..).trans (.handlerReport ..)

theorem reclaim (s : State) (c k : Nat) (o : Oblig) : HaltsKept s (s.reclaim c k o) := by
  unfold State.reclaim
  split
  · dsimp only
    split
    · exact .modBay ..
    · exact .refl s
  · exact .refl s

theorem findRoom_ok {s s' : State} {c k : Nat} {i : Option Nat} (h : s.findRoom c k = .ok s' i) : HaltsKept s s' := by
  unfold State.findRoom at h
  dsimp only at h
  split at h
  · cases h; exact .refl s
  · split at h
    · cases h
    · split at h
      · cases h
      · cases h
      next heq => cases h; exact spillAt heq

theorem findRoom_busy {s s' : State} {c k : Nat} {i : Option Nat} {w : Wait} (h : s.findRoom c k = .busy s' i w) : HaltsKept s s' := by
  unfold State.findRoom at h
  dsimp only at h
  split at h
  · cases h
  · split at h
    · cases h
    · split at h
      · cases h; exact .refl s
      · cases h
      · cases h

theorem moveAll {s t : State} {c k : Nat} {l : List Oblig} (h : s.moveAll c k l = some t) : HaltsKept s t := by
  induction l generalizing s with
  | nil => cases h; exact .refl _
  | cons o l ih =>
    have reclaimed := reclaim s c k o
    unfold State.moveAll at h
    split at h
    · cases h
    · split at h
      next heq => exact reclaimed.trans ((findRoom_ok heq).trans ((placeOb ..).trans (ih h)))
      next heq => exact reclaimed.trans ((findRoom_busy heq).trans ((placeOb ..).trans (ih h)))
      · cases h

theorem passObs (s : State) (c k : Nat) (cause : Byte) : HaltsKept s (s.passObs c k cause).1 := by
  have emptied : HaltsKept s ((s.recallObs c k).modCore c fun co => { co with obs := co.obs.filter fun o => o.holder != k }) :=
    (recallObs ..).trans (.modCore ..)
  unfold State.passObs
  dsimp only
  split
  · exact emptied
  · refine emptied.trans ?_
    dsimp only
    split
    · exact .toSupervisor ..
    · split
      · exact .toSupervisor ..
      · split
        · exact .toSupervisor ..
        · split
          · exact .toSupervisor ..
          next heq => exact (moveAll heq).trans (.sendOrphans ..)

/-! ## Kills and halts of slots (R338, R358) -/

theorem endHandler (s : State) (c v : Nat) : HaltsKept s (s.endHandler c v) := .same rfl

theorem poisonAll (s : State) (c : Nat) : HaltsKept s (s.poisonAll c) := (recallObs ..).trans ((modCore ..).trans (.poisonObs ..))

theorem abandonHandler (s : State) (c : Nat) (cause : Byte) : HaltsKept s (s.abandonHandler c cause) := by
  unfold State.abandonHandler
  dsimp only
  refine (unlist s c 15).trans (.trans ?_ ((handlerReport ..).trans (.endHandler ..)))
  split
  · exact .poisonAll ..
  · exact (recallObs ..).trans ((modCore ..).trans (.toSupervisor ..))

theorem killAct (s : State) (c k : Nat) (r : KillRec) : HaltsKept s (s.killAct c k r) := by
  unfold State.killAct
  dsimp only
  refine .trans ?_ (.modSlot ..)
  exact (passObs s c k r.cause.code).trans (.event ..)

theorem killSlot (s : State) (c k : Nat) (r : KillRec) : HaltsKept s (s.killSlot c k r) := (unlist ..).trans (.killAct ..)

theorem withdraw (s : State) (c k : Nat) : HaltsKept s (s.withdraw c k) := by
  unfold State.withdraw
  split
  · exact (unlist ..).trans (.modSlot ..)
  · exact .refl s

theorem haltSlot (s : State) (c k : Nat) : HaltsKept s (s.haltSlot c k) := by
  unfold State.haltSlot
  split
  · split
    · exact .refl s
    · split
      · exact .abandonHandler ..
      · exact .killSlot ..
  · exact (withdraw ..).trans (.modSlot ..)

theorem landAllVfs (s : State) (c : Nat) : HaltsKept s (s.landAllVfs c) := .foldl _ (fun u v => landAll u c v) _ s

theorem closeTrace (s : State) (c : Nat) : HaltsKept s (s.closeTrace c) := by
  unfold State.closeTrace
  dsimp only
  split
  · exact .refl s
  · split
    · exact .modCore ..
    · exact (modCore ..).trans ((Drains.performFor ..).haltsKept.trans (.modClus _ _ _ fun _ => rfl))

end HaltsKept

/-! ## The halt of a cluster (R357, R358) -/

/-- Its cores' slots halt. -/
theorem HaltsKept.haltSlots (s : State) (c : Nat) :
    HaltsKept s (((s.coreOf c).slots.map fun p => p.1).foldl (fun s k => s.haltSlot c k) (s.landAllVfs c)) :=
  (landAllVfs s c).trans (.foldl _ (fun u k => haltSlot u c k) _ _)

/-- A cluster that halts stays so while another begins to. -/
theorem State.halting_haltCluster_of_halting {s : State} {m : Nat} (h : (s.clus m).halting = true) (n : Nat) (by' : BitVec 8) :
    ((s.haltCluster n by').clus m).halting = true := by
  unfold State.haltCluster
  split
  · exact h
  · dsimp only
    by_cases hm : m = n
    · subst hm; rw [State.clus_modClus]
    · rw [State.clus_modClus_ne _ _ hm]
      rw [(HaltsKept.foldl (fun s c => s.closeTrace c) HaltsKept.closeTrace _ _).halting,
        (HaltsKept.foldl _ HaltsKept.haltSlots (s.coresIn n) s).halting]
      exact h

theorem State.halting_haltCluster {s : State} {n : Nat} {by' : BitVec 8} (hing : (s.clus n).halting = false) (hed : (s.clus n).halted = false) :
    ((s.haltCluster n by').clus n).halting = true := by
  unfold State.haltCluster
  rw [if_neg (by rw [hing, hed]; decide)]
  exact congrArg Cluster.halting (State.clus_modClus ..)

theorem State.halting_crossTrigger {s : State} {m : Nat} (h : (s.clus m).halting = true) : (s.crossTrigger.clus m).halting = true := by
  have each (l : List (Nat × Cluster)) : ∀ u : State, (u.clus m).halting = true →
      ((l.foldl (fun s p => s.haltCluster p.1 0) u).clus m).halting = true := by
    induction l with
    | nil => exact fun _ hu => hu
    | cons p l ih => exact fun u hu => ih _ (halting_haltCluster_of_halting hu ..)
  exact each _ s h

/-- A kiosk halts a cluster that neither halts nor is halted. -/
theorem State.halting_kioskHalt {s : State} {n : Nat} {by' : BitVec 8} (hing : (s.clus n).halting = false) (hed : (s.clus n).halted = false) :
    ((s.kioskHalt n by').clus n).halting = true := by
  have own := halting_haltCluster (by' := by') hing hed
  unfold State.kioskHalt
  dsimp only
  split
  · exact halting_crossTrigger own
  · exact own

end Sys2Proof.Machine
end

section
/-! # Page 10 (O53): counters, hints, turns, translations, debug breaks, halts and modes -/
namespace Sys2Proof.Machine
open Sys2Proof.Safety

/-! ## The registers of a slot that only completes -/

theorem Slot.advance_registers (x : Slot) : x.advance.s = x.s ∧ x.advance.v = x.v ∧ x.advance.p = x.p ∧ x.advance.vfid = x.vfid := by
  unfold Slot.advance
  dsimp only
  split
  · split <;> exact ⟨rfl, rfl, rfl, rfl⟩
  · exact ⟨rfl, rfl, rfl, rfl⟩

/-- A general slot's completion keeps every register. -/
theorem regsKept_retire {s : State} (h0 : s.slot ≠ 0) (h15 : s.slot ≠ 15) : RegsKept s s.retire none := by
  obtain ⟨hs, hv, hp, hvfid⟩ := s.cur.advance_registers
  have hbank : s.retire.bankVf = s.bankVf := by
    have hslot : s.retire.slot = s.slot := rfl
    simp [State.bankVf, State.cur_retire, hslot, h0, h15, hvfid]
  have hcurVf : s.retire.curVf = s.curVf := by
    rw [State.curVf, hbank, State.vfOf_retire]
    rfl
  refine ⟨fun r _ => ?_, fun r _ => ?_, fun p _ => ?_⟩
  · cases r with
    | priv n => simp only [State.sreg, State.cur_retire, hs]
    | shared n => simp only [State.sreg, hcurVf]
  · cases r with
    | priv n => simp only [State.vreg, State.cur_retire, hv]
    | shared n => simp only [State.vreg, hcurVf]
  · simp only [State.preg, State.cur_retire, hp]

/-! ## Counters (R323, R361) -/

theorem exec_rdctr {g : Pred} {s : State} (h : s.acts g = true) (d : Reg) (k : BitVec 4) :
    exec (.rdctr g d k) s = .next (s.putS 3 d (s.counter k.toNat)).retire := guarded_acts _ h

theorem counter_time (s : State) : s.counter 0 = BitVec.ofNat 64 s.time := rfl

theorem counter_cycle (s : State) : s.counter 1 = BitVec.ofNat 64 (s.cycle s.core) := rfl

theorem counter_msgSent {s : State} (h0 : s.slot ≠ 0) : s.counter 4 = (s.vfOf s.core s.bankVf).msgSent := if_neg h0

theorem counter_msgRecv {s : State} (h0 : s.slot ≠ 0) : s.counter 5 = (s.vfOf s.core s.bankVf).msgRecv := if_neg h0

theorem counter_events {s : State} (h0 : s.slot ≠ 0) (j : Nat) : s.counter (8 + j) = ((s.vfOf s.core s.bankVf).pcnt.look j).getD 0 := by
  rw [Nat.add_comm]
  change (if s.slot = 0 then (0 : Word) else if j + 8 < 8 then 0 else (s.curVf.pcnt.look (j + 8 - 8)).getD 0) = _
  rw [if_neg h0, if_neg (by omega), Nat.add_sub_cancel]
  rfl

/-! ## Hints (R324) -/

@[simp] theorem isl_retire (s : State) (i : Nat) : s.retire.isl i = s.isl i := rfl

theorem exec_pwrhint {g : Pred} {s : State} (h : s.acts g = true) (h0 : s.slot ≠ 0) (h15 : s.slot ≠ 15) (level : BitVec 3) :
    exec (.pwrhint g level) s =
      .next (s.modIsl (islandOf s.core) fun x => { x with reqs := x.reqs.put s.bankVf (s.clipLevel s.bankVf level.toNat) }).retire := by
  change execPwrhint g level s = _
  rw [execPwrhint, generalOnly_of_ne h0 h15]
  exact guarded_acts _ h

/-! ## Turns (R310) -/

theorem exec_turnend {g : Pred} {s : State} (h : s.acts g = true) (h0 : s.slot ≠ 0) (h15 : s.slot ≠ 15) :
    exec (.turnend g) s = .next (s.turnEnd s.bankVf).retire := by
  change execTurnend g s = _
  rw [execTurnend, generalOnly_of_ne h0 h15]
  exact guarded_acts _ h

/-- The end of a turn changes the Bandstand alone. -/
theorem turnEnd_eq (s : State) (v : Nat) : ∃ b, s.turnEnd v = { s with band := b } := by
  unfold State.turnEnd
  split
  · exact ⟨s.band, rfl⟩
  · exact ⟨_, rfl⟩

theorem turnEnd_done {s : State} {v : Nat} (h : s.band.done.getLsbD v = true) : s.turnEnd v = s := if_pos h

theorem turnEnd_first {s : State} {v : Nat} (h : s.band.done.getLsbD v = false) :
    (s.turnEnd v).band = { s.band with done := s.band.done ||| BitVec.ofNat 8 (2 ^ v), donateAt := s.band.donateAt.put v s.nextUs } := by
  unfold State.turnEnd
  rw [h]
  rfl

/-- DONE gains the bit of one VF. -/
theorem getLsbD_setBit (x : BitVec 8) {v : Nat} (hv : v < 8) (w : Nat) :
    (x ||| BitVec.ofNat 8 (2 ^ v)).getLsbD w = (x.getLsbD w || decide (w = v)) := by
  rw [BitVec.getLsbD_or, BitVec.getLsbD_ofNat, Nat.testBit_two_pow]
  by_cases h : w = v
  · subst h; simp [hv]
  · simp [h, Ne.symm h]

theorem exec_rdturn {g : Pred} {s : State} (h : s.acts g = true) (d : Reg) (sel : BitVec 2) :
    exec (.rdturn g d sel) s = .next (s.putS 3 d (s.turnWord sel.toNat)).retire := guarded_acts _ h

theorem sum_turnNs (rows : List Row) (t : Nat) : ((List.range t).map (turnNs rows)).sum = ((rows.take t).map fun r => r.len * 1000).sum := by
  induction t with
  | zero => rfl
  | succ t ih =>
    rw [List.range_succ, List.map_append, List.sum_append, ih, List.take_add_one, List.map_append, List.sum_append]
    cases h : rows[t]? <;> simp [turnNs, h]

theorem turnWord_place (s : State) : s.turnWord 0 = BitVec.ofNat 64 (s.band.turn % 64 + (if s.band.done.getLsbD s.bankVf then 64 else 0) +
    s.band.rounds % 2 ^ 32 * 2 ^ 32) := rfl

theorem turnWord_start (s : State) : s.turnWord 1 = BitVec.ofNat 64 (s.band.epoch + s.band.round * (s.band.rows.map fun r => r.len * 1000).sum +
    ((s.band.rows.take s.band.turn).map fun r => r.len * 1000).sum) := by
  rw [← sum_turnNs]
  rfl

theorem turnWord_capacity (s : State) : s.turnWord 3 = s.vfReg s.bankVf 0x10 := rfl

/-! ## Translations dropped (R170) -/

/-- Whether a TLBINV of VF `v` drops a translation: of every address space, or of one. -/
def TlbEntry.dropped (e : TlbEntry) (v : Nat) (pasid : Option Nat) : Bool := e.vf == v && pasid.all fun p => e.pasid.toNat == p

theorem TlbEntry.dropped_iff (e : TlbEntry) (v : Nat) (vfScope : Bool) (p : Nat) :
    e.dropped v (if vfScope then none else some p) = true ↔ e.vf = v ∧ (vfScope = true ∨ e.pasid.toNat = p) := by
  cases vfScope <;> simp [TlbEntry.dropped]

theorem TlbEntry.not_dropped_of_mem {l : List TlbEntry} {e : TlbEntry} {v p : Nat} {vfScope : Bool}
    (h : e ∈ l.filter fun e => !e.dropped v (if vfScope then none else some p)) : ¬ (e.vf = v ∧ (vfScope = true ∨ e.pasid.toNat = p)) := by
  rw [List.mem_filter, Bool.not_eq_true'] at h
  rw [← TlbEntry.dropped_iff, h.2]
  exact Bool.false_ne_true

theorem dropTlb_eq (s : State) (v : Nat) (pasid : Option Nat) :
    s.dropTlb v pasid =
      { s with cores := s.cores.over fun _ co => { co with utlb := co.utlb.filter fun e => !e.dropped v pasid },
               clusters := s.clusters.over fun _ cl => { cl with tlb := cl.tlb.filter fun e => !e.dropped v pasid } } := by
  cases pasid <;> rfl

theorem coreOf_dropTlb (s : State) (v : Nat) (pasid : Option Nat) (c : Nat) :
    (s.dropTlb v pasid).coreOf c = { s.coreOf c with utlb := (s.coreOf c).utlb.filter fun e => !e.dropped v pasid } := by
  rw [dropTlb_eq, State.coreOf, State.coreOf, SMap.look_over]
  cases s.cores.look c <;> rfl

theorem clus_dropTlb (s : State) (v : Nat) (pasid : Option Nat) (n : Nat) :
    (s.dropTlb v pasid).clus n = { s.clus n with tlb := (s.clus n).tlb.filter fun e => !e.dropped v pasid } := by
  rw [dropTlb_eq, State.clus, State.clus, SMap.look_over]
  cases s.clusters.look n <;> rfl

theorem slotOf_dropTlb (s : State) (v : Nat) (pasid : Option Nat) (c k : Nat) : (s.dropTlb v pasid).slotOf c k = s.slotOf c k := by
  rw [State.slotOf, coreOf_dropTlb]
  rfl

theorem cur_dropTlb (s : State) (v : Nat) (pasid : Option Nat) : (s.dropTlb v pasid).cur = s.cur := slotOf_dropTlb s v pasid s.core s.slot

theorem slotsOf_dropTlb (s : State) (v : Nat) (pasid : Option Nat) (u : Nat) (tenant : Option Nat) :
    (s.dropTlb v pasid).slotsOf u tenant = s.slotsOf u tenant := by
  rw [dropTlb_eq]
  exact List.flatMap_map ..

theorem coreOf_retire (s : State) (c : Nat) : ∃ l, s.retire.coreOf c = { s.coreOf c with slots := l } := by
  by_cases h : c = s.core
  · subst h; exact ⟨_, State.coreOf_modCore ..⟩
  · exact ⟨_, State.coreOf_modCore_ne s _ h⟩

/-- An empty buffer has nothing to drain. -/
theorem drainAll_of_empty {s : State} {c k : Nat} (h : (s.slotOf c k).storeBuf = []) (stop : Bool) (n : Nat) : s.drainAll stop c k n = s := by
  cases n with
  | zero => rfl
  | succ n => simp [State.drainAll, State.drain1, h]

theorem storeBuf_of_idle {x : Slot} (h : x.inFlight = false) : x.storeBuf = [] := by
  unfold Slot.inFlight at h
  simp only [Bool.or_eq_false_iff, Bool.not_eq_false', List.isEmpty_iff] at h
  exact h.1

/-- Slots with nothing in flight drain to nothing new. -/
theorem drainSlots_of_idle {s : State} {l : List (Nat × Nat)} (h : ∀ q ∈ l, (s.slotOf q.1 q.2).inFlight = false) :
    l.foldl (fun s q => s.drainAll false q.1 q.2 8) s = s := by
  induction l with
  | nil => rfl
  | cons q l ih =>
    rw [List.foldl_cons, drainAll_of_empty (storeBuf_of_idle (h q (.head l)))]
    exact ih fun p hp => h p (.tail q hp)

/-- A TLBINV whose scope has nothing in flight drops the scope's translations after its release. -/
theorem exec_tlbinv {g : Pred} {s s2 : State} (vfScope : Bool) (hg : s.acts g = true) (h0 : s.slot ≠ 0) (hpl : s.cur.pl ≠ 0)
    (hrel : s.release .module = some s2)
    (hidle : ∀ q ∈ s2.slotsOf s.bankVf (if vfScope then none else some s.cur.tenant.toNat), (s2.slotOf q.1 q.2).inFlight = false) :
    exec (.tlbinv g vfScope) s =
      .next (s2.dropTlb s.bankVf (if vfScope then none else some (s.pasid s.bankVf s.cur.tenant.toNat))).retire := by
  have hdrains := Drains.release hrel
  obtain ⟨b, hb⟩ := hdrains.cur_eq
  have hpasid (v i : Nat) : s2.pasid v i = s.pasid v i := by
    obtain ⟨_, _, _, _, _, _, rfl⟩ := hdrains.outer
    rfl
  change execTlbinv g vfScope s = _
  rw [execTlbinv, notMovement_of_ne h0, if_neg hpl, guarded_acts _ hg, State.afterRelease, hrel]
  dsimp only
  rw [hdrains.bankVf_eq, hb, hpasid, slotsOf_dropTlb, drainSlots_of_idle (by simpa only [slotOf_dropTlb] using hidle), if_neg]
  simpa only [slotOf_dropTlb, List.any_eq_true, not_exists, not_and, Bool.not_eq_true] using hidle

/-! ## Debug breaks and halts (R357, R358, R361, R362) -/

theorem exec_dbgbrk {g : Pred} {s : State} (hg : s.acts g = true) (code : BitVec 10) :
    exec (.dbgbrk g code) s =
      if s.slot ≠ 0 ∧ (s.clus (clusterOf s.core)).kcfg.getLsbD 0 = true ∧ (s.clus (clusterOf s.core)).kcfg.getLsbD (8 + s.bankVf) = true then
        .next ((s.kioskHalt (clusterOf s.core) s.halter).wait .halted)
      else .next (s.trap .brk (code.setWidth 64)) := by
  change guarded g s _ = _
  rw [guarded_acts _ hg]
  simp only [bit, BitVec.testBit_toNat, Bool.and_eq_true, decide_eq_true_eq, and_assoc]
  rfl

theorem exec_halt {g : Pred} {s : State} (hg : s.acts g = true) (hpl : s.cur.pl = 2) :
    exec (.halt g) s = .next (s.retire.kioskHalt (clusterOf s.core) s.halter) :=
  (if_neg (not_not.2 hpl)).trans (guarded_acts _ hg)

theorem exec_halt_priv {s : State} (g : Pred) (hpl : s.cur.pl ≠ 2) : exec (.halt g) s = .next (s.decodeFault .priv) := if_pos hpl

/-! ## Modes (R363) -/

theorem exec_setmode {s : State} (maint : Bool) (hpl : s.cur.pl = 2) :
    exec (.setmode maint) s = .next (s.modCur fun x => { x with md := maint }).retire := if_neg (not_not.2 hpl)

theorem exec_setmodeConst {s : State} (n : BitVec 4) (hpl : s.cur.pl = 2) :
    exec (.setmodeConst n) s = .next (s.modCore s.core fun co => { co with constBank := co.constBank.put n.toNat (s.sreg (.priv 1)) }).retire :=
  if_neg (not_not.2 hpl)

theorem exec_setmode_priv {s : State} (maint : Bool) (hpl : s.cur.pl ≠ 2) : exec (.setmode maint) s = .next (s.decodeFault .priv) := if_pos hpl

theorem exec_setmodeConst_priv {s : State} (n : BitVec 4) (hpl : s.cur.pl ≠ 2) :
    exec (.setmodeConst n) s = .next (s.decodeFault .priv) := if_pos hpl

/-! ## The statement -/

/-- Settles O53, clause by clause from what page 10's instructions do; a halt's mark stands through the halts that it triggers (`HaltsKept`). -/
theorem countersModes : Obligations.CountersModes := by
  unfold Obligations.CountersModes
  refine ⟨?counters, ?hints, ?ends, ?turns, ?selectors, ?translations, ?breaks, ?halts, ?modes, ?constants, ?levels⟩
  case counters =>
    intro s g d hg
    refine ⟨exec_rdctr hg d 0, exec_rdctr hg d 1, fun h0 => ⟨?_, ?_, fun j hj => ?_⟩, fun k => ⟨_, exec_rdctr hg d k⟩⟩
    · rw [← counter_msgSent h0]; exact exec_rdctr hg d 4
    · rw [← counter_msgRecv h0]; exact exec_rdctr hg d 5
    · have hk : (BitVec.ofNat 4 (8 + j)).toNat = 8 + j := by simp; omega
      have h := exec_rdctr hg d (BitVec.ofNat 4 (8 + j))
      rwa [hk, counter_events h0] at h
  case hints =>
    intro s g level hg h0 h15
    refine ⟨_, exec_pwrhint hg h0 h15 level, past_retire rfl, regsKept_retire (s := s.modIsl _ _) h0 h15, fun _ => rfl, ?_⟩
    rw [isl_retire, State.isl_modIsl, SMap.look_put_self]
    rfl
  case ends =>
    intro s g hg h0 h15
    obtain ⟨b, hb⟩ := turnEnd_eq s s.bankVf
    have hband : (s.turnEnd s.bankVf).retire.band = (s.turnEnd s.bankVf).band := rfl
    refine ⟨_, exec_turnend hg h0 h15, past_retire ?_, ?_, ?_, fun hdone => ?_, fun hv hdone => ⟨?_, fun v hne => ?_, ?_⟩⟩
    · rw [hb]; rfl
    · rw [hb]; exact regsKept_retire (s := { s with band := b }) h0 h15
    · rw [hb]; exact fun _ => rfl
    · rw [turnEnd_done hdone]; rfl
    · rw [hband, turnEnd_first hdone, getLsbD_setBit _ hv]; simp
    · rw [hband, turnEnd_first hdone, getLsbD_setBit _ hv]; simp [hne]
    · rw [hband, turnEnd_first hdone]; exact SMap.look_put_self ..
  case turns =>
    intro s g d hg
    rw [← turnWord_place, ← turnWord_start]
    exact ⟨exec_rdturn hg d 0, exec_rdturn hg d 1⟩
  case selectors =>
    intro s g d sel hg
    refine ⟨_, exec_rdturn hg d sel, ?_⟩
    rintro rfl
    exact turnWord_capacity s
  case translations =>
    intro s g vfScope s2 hg h0 hpl hrel hidle
    have hdrains := Drains.release hrel
    obtain ⟨b, hb⟩ := hdrains.cur_eq
    refine ⟨_, exec_tlbinv vfScope hg h0 hpl hrel hidle, past_retire ?_, ?_, fun c e he => ?_, fun n e he => ?_⟩
    · rw [cur_dropTlb, hb, Slot.advance_pc, Slot.advance_pc]
    · rw [dropTlb_eq]; rfl
    · obtain ⟨l, hl⟩ := coreOf_retire (s2.dropTlb s.bankVf (if vfScope then none else some (s.pasid s.bankVf s.cur.tenant.toNat))) c
      rw [hl, coreOf_dropTlb] at he
      exact (TlbEntry.not_dropped_of_mem he)
    · change e ∈ ((s2.dropTlb _ _).clus n).tlb at he
      rw [clus_dropTlb] at he
      exact TlbEntry.not_dropped_of_mem he
  case breaks =>
    intro s g code hg
    refine ⟨fun h => ?_, fun h0 hk hv hing hed => ?_⟩
    · refine (exec_dbgbrk hg code).trans (if_neg ?_)
      rintro ⟨h0, hk, hv⟩
      rw [hk, hv] at h
      simp [h0] at h
    · refine ⟨_, (exec_dbgbrk hg code).trans (if_pos ⟨h0, hk, hv⟩), ?_, State.halting_kioskHalt hing hed⟩
      rw [State.cur_wait]
  case halts =>
    intro s g hg hpl hing hed
    exact ⟨_, exec_halt hg hpl, State.halting_kioskHalt (s := s.retire) hing hed⟩
  case modes => exact fun s maint hpl => exec_setmode maint hpl
  case constants => exact fun s n hpl => exec_setmodeConst n hpl
  case levels => exact fun s g maint n hpl => ⟨exec_halt_priv g hpl, exec_setmode_priv maint hpl, exec_setmodeConst_priv n hpl⟩

end Sys2Proof.Machine
end

section
/-! # Matrix commands (O52)

The statement fails at the start of a command that moves words (R186). It says that every word listed as read once the command has started was
read then, and asks nothing of the words that the command lists before it starts. The model appends the words read at the start to that list;
no step lists a word for a command that has not started, but the statement speaks of every state. -/

namespace Sys2Proof.Machine

open Sys2Proof.Safety

/-! ## A command that moves words starts (R186) -/

theorem exec_tload (c v st : Nat) (s : State) : exec (.tload c v st) s = s.mxStart c v st (· == 1) := rfl

/-- The command that goes on in a stream starts, where it moves words, passes its checks and has not started. -/
theorem mxStart_begins {s : State} {c v st : Nat} {q : MxCmd} {ofType : Nat → Bool} (hready : s.mxReady c v st = some q)
    (hnext : s.mxNext c = some v) (htype : ofType (cmdType q.cmd) = true) (hbegun : q.begun = false) (hmoves : cmdMoves q.cmd = true)
    (hchecks : s.mxChecks c v q.cmd = none) : s.mxStart c v st ofType = .next (s.mxBegin c v q) := by
  simp [State.mxStart, hready, hnext, htype, hbegun, hmoves, hchecks]

/-- The start of a command that reads marks it in its share, and appends the words read to those that it lists already. -/
theorem mxq_mxBegin {s : State} {c v : Nat} {q : MxCmd} (hreads : cmdType q.cmd ≠ 2) : ∃ words, ((s.mxBegin c v q).vfOf c v).mxq =
    (s.vfOf c v).mxq.map fun x => if x = q then { x with begun := true, early := q.early ++ words } else x := by
  simp only [State.mxBegin, if_neg hreads, State.vfOf_modVf]
  exact ⟨_, rfl⟩

/-! ## A command that lists a word before it starts -/

/-- A TLOAD of one block in every row, that lists the word at window address 0x200000 as read. -/
def listedLoad : MxCmd :=
  { cmd := ofLanes fun i => BitVec.ofNat 32 ([1, 0x100C, 0x80].getD i 0), seq := 3, early := [(0x40000, (1, false))] }

/-- VF 0 in its turn on core 0, with `listedLoad` alone in its share, and its bay claimed. -/
def listedState : State :=
  { pf := [(0x100, 1), (0x110, 0xFFFF), (0x118, 0x100), (0x120, 0x50FFFFF)],
    band := { rows := [{ len := 65535, vfs := [(0, { idle := false })] }], started := true },
    cores := [(0, { vfs := [(0, { mxq := [listedLoad], mxSeq := 4 })], bays := [(0, { claim := some 1 })] })] }

theorem mxq_listedState : (listedState.vfOf 0 0).mxq = [listedLoad] := rfl

theorem listedState_ready : listedState.mxReady 0 0 0 = some listedLoad := by decide +kernel

theorem listedState_next : listedState.mxNext 0 = some 0 := by decide +kernel

theorem listedState_checks : listedState.mxChecks 0 0 listedLoad.cmd = none := by decide +kernel

theorem cmdType_listedLoad : cmdType listedLoad.cmd = 1 := by decide +kernel

/-- No window holds the word that `listedLoad` lists (R160, R161). -/
theorem listedState_windowPlace : listedState.windowPlace 0 0 (8 * 0x40000) = none := by decide +kernel

theorem exec_tload_listedState : exec (.tload 0 0 0) listedState = .next (listedState.mxBegin 0 0 listedLoad) :=
  (exec_tload ..).trans <| mxStart_begins listedState_ready listedState_next (by decide +kernel) rfl (by decide +kernel) listedState_checks

/-- Once `listedLoad` has started, it still lists the word. -/
theorem mxq_started_listedLoad : ∃ words, ((listedState.mxBegin 0 0 listedLoad).vfOf 0 0).mxq =
    [{ listedLoad with begun := true, early := listedLoad.early ++ words }] := by
  obtain ⟨words, hwords⟩ := mxq_mxBegin (s := listedState) (c := 0) (v := 0) (q := listedLoad) (by rw [cmdType_listedLoad]; decide)
  exact ⟨words, by rw [hwords, mxq_listedState, List.map_singleton, if_pos rfl]⟩

/-- Refutes O52: a TLOAD that lists a word outside every window before it starts lists that word afterwards too, so it is not a word of a
window that the start has read. -/
theorem not_matrixCommands : ¬ Obligations.MatrixCommands := by
  unfold Obligations.MatrixCommands
  intro h
  obtain ⟨hplain, -⟩ := h listedState 0 0 0 listedLoad listedState_ready listedState_next
  obtain ⟨-, hpasses⟩ := hplain (by decide +kernel)
  obtain ⟨hstart, -⟩ := hpasses listedState_checks
  obtain ⟨t, e, hexec, hmxq, -, hread⟩ := hstart rfl (.inl cmdType_listedLoad)
  rw [cmdType_listedLoad] at hexec hread
  obtain rfl : listedState.mxBegin 0 0 listedLoad = t := by injection exec_tload_listedState.symm.trans hexec
  obtain ⟨words, hwords⟩ := mxq_started_listedLoad
  rw [hwords, mxq_listedState, List.map_singleton, if_pos rfl] at hmxq
  have he : listedLoad.early ++ words = e := by injection hmxq with hq; injection hq
  have hlook : e.look 0x40000 = some (1, false) := by rw [← he]; rfl
  obtain ⟨-, hwindow⟩ := hread (by decide)
  obtain ⟨p, hp, -⟩ := hwindow _ _ hlook
  exact absurd (listedState_windowPlace.symm.trans hp) (by simp)

end Sys2Proof.Machine
end

section
/-! # What register writes change (R92 to R94): the issuing slot's private registers, and the writes on their way to the shared ones -/
namespace Sys2Proof.Machine

open Sys2Proof.Safety

/-! ## Frames of the issuing slot's writes -/

theorem elsewhere_modCur (s : State) (f : Slot → Slot) : Elsewhere s (s.modCur f) := by
  refine ⟨rfl, fun c hc => State.coreOf_modCore_ne s _ hc, fun k hk => State.slotOf_modCur_ne s f (.inr hk), ?_⟩
  have hcore : (s.modCur f).coreOf s.core = { s.coreOf s.core with slots := (s.coreOf s.core).slots.put s.slot (f s.cur) } :=
    State.coreOf_modCore ..
  rw [hcore]

theorem elsewhere_land (s : State) (lat : Nat) (w : Landing) : Elsewhere s (s.land lat w) := by
  refine ⟨rfl, fun c hc => State.coreOf_modCore_ne s _ hc, fun k _ => State.slotOf_land .., ?_⟩
  rw [State.land, State.coreOf_modCore]

theorem curVf_of_elsewhere {s t : State} (helse : Elsewhere s t) (hbank : t.bankVf = s.bankVf) : t.curVf = s.curVf := by
  obtain ⟨hstate, -, -, hcore⟩ := helse
  have hhere : t.core = s.core := by rw [hstate]
  rw [State.curVf, State.curVf, hhere, hbank, State.vfOf, hcore]
  rfl

theorem obsOf_of_elsewhere {s t : State} (helse : Elsewhere s t) (k : Nat) : t.obsOf s.core k = s.obsOf s.core k := by
  obtain ⟨-, -, -, hcore⟩ := helse
  rw [State.obsOf, hcore]
  rfl

/-- Only the private registers of a slot differ, and the marks of errors in them. -/
def OnlyRegisters (x y : Slot) : Prop := y = { x with s := y.s, v := y.v, p := y.p, regErr := y.regErr }

/-- Every private register of a slot but `d` holds what it held. -/
structure PrivateKept (x y : Slot) (d : Option RegName) : Prop where
  scalar : ∀ n, d ≠ some (.s (.priv n)) → y.s.look n.toNat = x.s.look n.toNat
  vector : ∀ n, d ≠ some (.v (.priv n)) → y.v.look n.toNat = x.v.look n.toNat
  predicate : ∀ n, d ≠ some (.p n) → y.p.look n.toNat = x.p.look n.toNat

theorem bankVf_of_registers {s t : State} (helse : Elsewhere s t) (hregs : OnlyRegisters s.cur t.cur) : t.bankVf = s.bankVf := by
  have hslot : t.slot = s.slot := by rw [helse.1]
  rw [State.bankVf, State.bankVf, hslot, hregs]

theorem sysKept_of_registers {s t : State} (helse : Elsewhere s t) (hregs : OnlyRegisters s.cur t.cur) : SysKept s t [] := by
  have hcore : t.core = s.core := by rw [helse.1]
  have hslot : t.slot = s.slot := by rw [helse.1]
  have hbank := bankVf_of_registers helse hregs
  have hobs := obsOf_of_elsewhere helse s.slot
  intro n _
  cases n with
  | dqspill => exact congrArg CoreVf.dqspill (curVf_of_elsewhere helse hbank)
  | vfid => exact congrArg (BitVec.ofNat 64) hbank
  | coreid => exact congrArg (BitVec.ofNat 64) hcore
  | slotno => exact congrArg (BitVec.ofNat 64) hslot
  | obmin => simp only [State.readSys, State.obmin, hcore, hslot, hobs]
  | obcnt => simp only [State.readSys, State.obcnt, hcore, hslot, hobs]
  | tstat => rw [State.readSys, hregs]; rfl
  | _ => simp only [State.readSys]; rw [hregs]

/-- A write that touches nothing but private registers of the issuing slot and what is on its way to the shared ones has the frame of the
registers it keeps. -/
theorem frame_of_registers {s t : State} {d : Option RegName} (helse : Elsewhere s t) (hregs : OnlyRegisters s.cur t.cur)
    (hkept : PrivateKept s.cur t.cur d) : Frame s t d [] := by
  have hcurVf := curVf_of_elsewhere helse (bankVf_of_registers helse hregs)
  have hmem : t.mem = s.mem := by rw [helse.1]
  refine ⟨⟨fun r hr => ?_, fun r hr => ?_, fun p hp => ?_⟩, sysKept_of_registers helse hregs, ?_, fun a => by rw [hmem], helse⟩
  · cases r with
    | priv n => rw [State.sreg, State.sreg, hkept.scalar n hr]
    | shared n => rw [State.sreg, State.sreg, hcurVf]
  · cases r with
    | priv n => rw [State.vreg, State.vreg, hkept.vector n hr]
    | shared n => rw [State.vreg, State.vreg, hcurVf]
  · rw [State.preg, State.preg, hkept.predicate p hp]
  · rw [SlotKept, hregs]

/-- The frame of a change of the issuing slot alone. -/
theorem frame_modCur {s : State} {f : Slot → Slot} {d : Option RegName} (hregs : OnlyRegisters s.cur (f s.cur))
    (hkept : PrivateKept s.cur (f s.cur) d) : Frame s (s.modCur f) d [] := by
  have hcur := State.cur_modCur s f
  exact frame_of_registers (elsewhere_modCur s f) (hcur ▸ hregs) (hcur ▸ hkept)

theorem frame_refl (s : State) (d : Option RegName) : Frame s s d [] :=
  ⟨⟨fun _ _ => rfl, fun _ _ => rfl, fun _ _ => rfl⟩, fun _ _ => rfl, rfl, fun _ => rfl, rfl, fun _ _ => rfl, fun _ _ => rfl, rfl⟩

/-! ## The slot's own setters -/

theorem look_put_toNat {α : Type} {w : Nat} (m : SMap α) {n k : BitVec w} (x : α) (h : n ≠ k) :
    (m.put n.toNat x).look k.toNat = m.look k.toNat :=
  SMap.look_put_ne m x fun e => h (BitVec.eq_of_toNat_eq e).symm

theorem privateKept_setS (x : Slot) (n : BitVec 5) (v : Word) : PrivateKept x (x.setS n.toNat v) (some (.s (.priv n))) where
  scalar _ hk := look_put_toNat _ _ fun e => hk (e ▸ rfl)
  vector _ _ := rfl
  predicate _ _ := rfl

theorem privateKept_setV (x : Slot) (n : BitVec 5) (v : Vec) : PrivateKept x (x.setV n.toNat v) (some (.v (.priv n))) where
  scalar _ _ := rfl
  vector _ hk := look_put_toNat _ _ fun e => hk (e ▸ rfl)
  predicate _ _ := rfl

theorem privateKept_soundV_setV (x : Slot) (n : BitVec 5) (v : Vec) :
    PrivateKept x ((x.setV n.toNat v).soundV n) (some (.v (.priv n))) where
  scalar _ _ := rfl
  vector _ hk := look_put_toNat _ _ fun e => hk (e ▸ rfl)
  predicate _ _ := rfl

theorem privateKept_setP (x : Slot) (d : PReg) (v : BitVec 16) : PrivateKept x (x.setP d.toNat v) (some (.p d)) where
  scalar _ _ := rfl
  vector _ _ := rfl
  predicate _ hk := look_put_toNat _ _ fun e => hk (e ▸ rfl)

/-! ## Private registers (R94) -/

/-- A write that lands no earlier than every write of its register by an earlier instruction leaves no bit to these. -/
theorem older_eq_zero {s : State} {r : RegName} {n : Nat}
    (hlands : (s.cur.busyNow.find? fun b => b.reg == r).map (fun b => b.cycle) = some n)
    (hlast : ∀ b ∈ s.cur.busy, b.reg = r → b.cycle ≤ n) : s.older r = 0 := by
  have hnone : (s.cur.busy.filter fun b => b.reg == r && n < b.cycle) = [] := by
    rw [List.filter_eq_nil_iff]
    intro b hb hlater
    obtain ⟨hreg, hcycle⟩ : b.reg = r ∧ n < b.cycle := by simpa using hlater
    exact absurd (hlast b hb hreg) (by omega)
  simp only [State.older, Slot.older, hlands, Option.getD_some, hnone, List.foldl_nil]

theorem sreg_putS_same (s : State) (lat : Nat) (n : BitVec 5) (v : Word) :
    (s.putS lat (.priv n) v).sreg (.priv n) = if s.older (.s (.priv n)) = 0 then v else s.sreg (.priv n) := by
  split
  next h => exact State.sreg_putS_priv s lat n v h
  next h => rw [State.putS_priv_older s lat n v h]

theorem frame_putS_priv (s : State) (lat : Nat) (n : BitVec 5) (v : Word) :
    Frame s (s.putS lat (.priv n) v) (some (.s (.priv n))) [] := by
  by_cases h : s.older (.s (.priv n)) = 0
  · rw [State.putS, if_pos h]
    exact frame_modCur rfl (privateKept_setS ..)
  · rw [State.putS_priv_older s lat n v h]
    exact frame_refl ..

theorem vreg_putV_same (s : State) (lat : Nat) (n : BitVec 5) (m : BitVec 16) (v : Vec) :
    (s.putV lat (.priv n) m v).vreg (.priv n) =
      (mergeLanes m (s.vreg (.priv n)) v &&& ~~~ s.older (.v (.priv n))) ||| (s.vreg (.priv n) &&& s.older (.v (.priv n))) := by
  simp only [State.putV, State.vreg, State.cur_modCur]
  split <;> simp only [Slot.soundV, Slot.setV, SMap.look_put_self, Option.getD_some]

theorem frame_putV_priv (s : State) (lat : Nat) (n : BitVec 5) (m : BitVec 16) (v : Vec) :
    Frame s (s.putV lat (.priv n) m v) (some (.v (.priv n))) [] := by
  by_cases hwhole : m = 0xFFFF
  · simp only [State.putV, if_pos hwhole]
    exact frame_modCur rfl (privateKept_soundV_setV ..)
  · simp only [State.putV, if_neg hwhole]
    exact frame_modCur rfl (privateKept_setV ..)

theorem preg_putP_same (s : State) (n : PReg) (v : BitVec 16) : (s.putP n v).preg n =
    (v &&& ~~~ (s.older (.p n)).setWidth 16) ||| (s.preg n &&& (s.older (.p n)).setWidth 16) := by
  simp only [State.putP, State.preg, State.cur_modCur, Slot.setP, SMap.look_put_self, Option.getD_some]

theorem frame_putP (s : State) (n : PReg) (v : BitVec 16) : Frame s (s.putP n v) (some (.p n)) [] :=
  frame_modCur rfl (privateKept_setP ..)

/-! ## Shared registers (R94): a write that has not landed -/

theorem frame_land (s : State) (lat : Nat) (w : Landing) : Frame s (s.land lat w) none [] := by
  have hcur : (s.land lat w).cur = s.cur := State.slotOf_land ..
  refine frame_of_registers (elsewhere_land s lat w) ?_ ?_ <;> rw [hcur]
  · exact rfl
  · exact ⟨fun _ _ => rfl, fun _ _ => rfl, fun _ _ => rfl⟩

/-! ## Shared registers (R94): the writes that land -/

theorem vfOf_settle (s : State) (c u : Nat) : (s.settle c).vfOf c u =
    (((landed (s.coreOf c).landing (s.cycle c)).foldl Core.settle1 (s.coreOf c)).vfs.look u).getD {} := by
  rw [State.vfOf, State.settle, State.coreOf_modCore]

theorem landed_single_due {w : Landing} {n : Nat} (h : w.cycle ≤ n) : landed [w] n = [w] := by
  simp [landed, h, landInsert]

theorem landed_single_early {w : Landing} {n : Nat} (h : n < w.cycle) : landed [w] n = [] := by
  simp [landed, h]

theorem landed_pair {a b : Landing} {n : Nat} (ha : a.cycle ≤ n) (hb : b.cycle ≤ n) :
    landed [a, b] n = if b.before a then [b, a] else [a, b] := by
  simp [landed, ha, hb, landInsert]

theorem before_iff (a b : Landing) : b.before a = true ↔ b.cycle < a.cycle ∨ (a.cycle = b.cycle ∧ a.slot < b.slot) := by
  simp [Landing.before, @eq_comm _ a.cycle]

/-- A scalar write that lands is what its register holds. -/
theorem look_settle1_scalar (co : Core) {w : Landing} {v : Word} (hv : w.scalar = some v) (hdq : w.dq = false) :
    (((co.settle1 w).vfs.look w.vf).getD {}).c.look w.reg.toNat = some v := by
  simp [Core.settle1, hv, hdq]

/-- The lane of a pair put into a vector. -/
def withLane (v : Vec) (p : Nat × Lane) : Vec := ofLanes fun i => if i = p.1 then p.2 else lane v i

theorem lane_withLane (v : Vec) (p : Nat × Lane) {i : Nat} (hi : i < 16) :
    lane (withLane v p) i = if i = p.1 then p.2 else lane v i := lane_ofLanes _ hi

/-- A vector write that lands puts in its lanes one by one. -/
theorem look_settle1_vector (co : Core) {w : Landing} (h : w.scalar = none) :
    (((co.settle1 w).vfs.look w.vf).getD {}).w.look w.reg.toNat =
      some (w.lanes.foldl withLane ((((co.vfs.look w.vf).getD {}).w.look w.reg.toNat).getD 0)) := by
  simp only [Core.settle1, h, SMap.look_put_self, Option.getD_some]
  rfl

/-- Lanes named once each have the value named for them, and the others what they had. -/
theorem lane_foldl_withLane (l : List (Nat × Lane)) (v : Vec) {i : Nat} (hi : i < 16)
    (honce : ∀ p ∈ l, ∀ q ∈ l, p.1 = q.1 → p = q) :
    lane (l.foldl withLane v) i = ((l.find? fun p => p.1 == i).map fun p => p.2).getD (lane v i) := by
  induction l generalizing v with
  | nil => rfl
  | cons p l ih =>
    rw [List.foldl_cons, ih _ fun a ha b hb => honce a (.tail p ha) b (.tail p hb), lane_withLane v p hi]
    by_cases hp : p.1 = i
    · rw [List.find?_cons_of_pos (by simpa using hp), if_pos hp.symm]
      cases hl : l.find? fun q => q.1 == i with
      | none => rfl
      | some q =>
        have hq : q.1 = i := by simpa using List.find?_some hl
        rw [honce p (.head l) q (.tail p (List.mem_of_find?_eq_some hl)) (hp.trans hq.symm)]
        rfl
    · rw [List.find?_cons_of_neg (by simpa using hp), if_neg (Ne.symm hp)]

/-- Settles O28, clause by clause: the private registers by what their setters leave alone, the shared ones by the order in which writes land. -/
theorem registerWrites : Obligations.RegisterWrites := by
  unfold Obligations.RegisterWrites
  refine ⟨fun s r n hlands hlast => older_eq_zero hlands hlast,
    fun s lat n v => ⟨sreg_putS_same s lat n v, frame_putS_priv s lat n v⟩,
    fun s lat n m v => ⟨vreg_putV_same s lat n m v, frame_putV_priv s lat n m v⟩,
    fun s n v => ⟨preg_putP_same s n v, frame_putP s n v⟩,
    fun s lat n v => frame_land .., fun s lat n m v => frame_land ..,
    fun s c w v hl hv hdq => ⟨fun hdue => ?_, fun hearly u => ?_⟩,
    fun s c w l hl hnone hlanes hdue _ honce _ i hi => ?_,
    fun s c a b x y hl hvf hreg hx hy hadq hbdq ha hb => ?_⟩
  · rw [vfOf_settle, hl, landed_single_due hdue]
    exact look_settle1_scalar _ hv hdq
  · rw [vfOf_settle, hl, landed_single_early hearly]
    rfl
  · subst hlanes
    rw [vfOf_settle, hl, landed_single_due hdue, List.foldl_cons, List.foldl_nil, look_settle1_vector _ hnone]
    exact lane_foldl_withLane _ _ hi honce
  · rw [vfOf_settle, hl, landed_pair ha hb]
    simp only [← before_iff]
    split
    next => exact look_settle1_scalar ((s.coreOf c).settle1 b) hx hadq
    next =>
      rw [hvf, hreg]
      exact look_settle1_scalar ((s.coreOf c).settle1 a) hy hbdq

end Sys2Proof.Machine
end

section
/-! # The state after reset (R96, R162, R315, R317, R353) -/
namespace Sys2Proof.Machine

/-- Every slot holds what the slot record's defaults give (log 1). -/
theorem slotOf_reset (c k : Nat) : State.reset.slotOf c k = {} := rfl

theorem vfOf_reset (c v : Nat) : State.reset.vfOf c v = {} := rfl

theorem sreg_reset (c k : Nat) (r : Reg) : (State.reset.at c k).sreg r = 0 := by
  cases r with
  | priv n => rw [State.sreg, State.cur_at, slotOf_reset]; rfl
  | shared n => rw [State.sreg, State.curVf, State.vfOf_at, vfOf_reset]; rfl

theorem vreg_reset (c k : Nat) (r : Reg) : (State.reset.at c k).vreg r = 0 := by
  cases r with
  | priv n => rw [State.vreg, State.cur_at, slotOf_reset]; rfl
  | shared n => rw [State.vreg, State.curVf, State.vfOf_at, vfOf_reset]; rfl

theorem preg_reset (c k : Nat) (p : PReg) : (State.reset.at c k).preg p = 0 := by
  rw [State.preg, State.cur_at, slotOf_reset]; rfl

/-- No VF's control register has a reset value of its own (R315), so its bit UP is 0. -/
theorem vfIsUp_reset : ∀ v < 8, State.reset.vfIsUp v = false := by decide

/-- Settles O36: what the reset state lists is nothing, and what is not listed reads as its reset value. -/
theorem resetState : Obligations.ResetState := by
  unfold Obligations.ResetState
  exact ⟨by decide, by decide, vfIsUp_reset, fun _ => rfl, fun _ _ => ⟨rfl, rfl, rfl⟩,
    fun c k r => ⟨sreg_reset c k r, vreg_reset c k r⟩, preg_reset, fun _ => ⟨rfl, rfl, rfl⟩, rfl⟩

end Sys2Proof.Machine
end

section
/-! # Scalar moves and integer arithmetic (R112, R113) -/
namespace Sys2Proof.Machine

open Sys2Proof.Safety

/-! ## What the shapes of a result answer when their instruction acts (R61) -/

theorem scalarResult_acts {g : Pred} {s : State} (h : s.acts g = true) (lat : Nat) (d : Reg) (v : Word) :
    scalarResult g s lat d v = .next (s.putS lat d v).retire := guarded_acts _ h

theorem predResult_acts {g : Pred} {s : State} (h : s.acts g = true) (d : PReg) (v : BitVec 16) :
    predResult g s d v = .next (s.putP d v).retire := guarded_acts _ h

theorem divideResult_acts {g : Pred} {s : State} (h : s.acts g = true) (d : Reg) (v : Word) :
    divideResult g s d v = .next (s.wait (.divide d v)) := guarded_acts _ h

/-! ## Values wrapped at 64 bits (R87) -/

theorem sub_value (a b : Word) : a - b = BitVec.ofInt 64 (a.toInt - b.toInt) := by
  rw [Int.sub_eq_add_neg, BitVec.ofInt_add, BitVec.ofInt_neg, BitVec.ofInt_toInt, BitVec.ofInt_toInt, BitVec.sub_eq_add_neg]

theorem lea_value (pc : Word) {n : Nat} (imm : BitVec n) : pc + simm imm = BitVec.ofInt 64 (pc.toNat + imm.toInt) := by
  rw [BitVec.ofInt_add, BitVec.ofInt_natCast, BitVec.ofNat_toNat, BitVec.setWidth_eq]
  rfl

theorem addi_value (a : Word) {n : Nat} (imm : BitVec n) : a + simm imm = BitVec.ofInt 64 (a.toInt + imm.toInt) := by
  rw [BitVec.ofInt_add, BitVec.ofInt_toInt]
  rfl

theorem mul_value (a b : Word) : a * b = BitVec.ofInt 64 (a.toInt * b.toInt) := by
  rw [BitVec.ofInt_mul, BitVec.ofInt_toInt, BitVec.ofInt_toInt]

/-- A quotient by a power of two, rounded down over the rationals, is the integers' own. -/
theorem floor_div_two_pow (n : Int) (k : Nat) : ⌊(n : ℚ) / 2 ^ k⌋ = n / 2 ^ k := by
  exact_mod_cast Rat.floor_intCast_div_natCast n (2 ^ k)

theorem mulHigh_value (a b : Word) : mulHigh a b = BitVec.ofInt 64 ⌊((a.toInt * b.toInt : Int) : ℚ) / 2 ^ 64⌋ := by
  rw [floor_div_two_pow, mulHigh]

theorem mulHighU_value (a b : Word) : mulHighU a b = BitVec.ofInt 64 ⌊((a.toNat * b.toNat : Nat) : ℚ) / 2 ^ 64⌋ := by
  rw [← Int.cast_natCast, floor_div_two_pow, mulHighU, ← BitVec.ofInt_natCast, Int.natCast_ediv]
  rfl

theorem min_value (a b : Word) : (if a.toInt ≤ b.toInt then a else b) = BitVec.ofInt 64 (min a.toInt b.toInt) := by
  rw [min_def, apply_ite (BitVec.ofInt 64), BitVec.ofInt_toInt, BitVec.ofInt_toInt]

theorem max_value (a b : Word) : (if a.toInt ≤ b.toInt then b else a) = BitVec.ofInt 64 (max a.toInt b.toInt) := by
  rw [max_def, apply_ite (BitVec.ofInt 64), BitVec.ofInt_toInt, BitVec.ofInt_toInt]

theorem minu_value (a b : Word) : (if a.toNat ≤ b.toNat then a else b) = BitVec.ofNat 64 (min a.toNat b.toNat) := by
  rw [min_def, apply_ite (BitVec.ofNat 64), BitVec.ofNat_toNat, BitVec.ofNat_toNat, BitVec.setWidth_eq, BitVec.setWidth_eq]

theorem maxu_value (a b : Word) : (if a.toNat ≤ b.toNat then b else a) = BitVec.ofNat 64 (max a.toNat b.toNat) := by
  rw [max_def, apply_ite (BitVec.ofNat 64), BitVec.ofNat_toNat, BitVec.ofNat_toNat, BitVec.setWidth_eq, BitVec.setWidth_eq]

theorem abs_value (b : Word) : BitVec.ofNat 64 b.toInt.natAbs = BitVec.ofInt 64 |b.toInt| := by
  rw [← Int.natCast_natAbs, BitVec.ofInt_natCast]

theorem neg_value (b : Word) : -b = BitVec.ofInt 64 (-b.toInt) := by
  rw [BitVec.ofInt_neg, BitVec.ofInt_toInt]

/-! ## The moves and the integer arithmetic, one value each -/

theorem exec_moveResult {s : State} {i : Instr} {g : Pred} {lat : Nat} {d : Reg} {v : Word}
    (h : moveResult s i = some (g, lat, d, v)) : exec i s = scalarResult g s lat d v := by
  unfold moveResult at h
  split at h <;> cases h
  · rfl
  · rfl
  · exact congrArg (scalarResult g s 2 d) (lea_value ..)

theorem exec_arithResult {s : State} {i : Instr} {g : Pred} {lat : Nat} {d : Reg} {v : Word}
    (h : arithResult s i = some (g, lat, d, v)) : exec i s = scalarResult g s lat d v := by
  unfold arithResult at h
  split at h <;> cases h
  · rfl
  · exact congrArg (scalarResult g s 2 d) (addi_value ..)
  · exact congrArg (scalarResult g s 2 d) (sub_value ..)
  · exact congrArg (scalarResult g s 5 d) (mul_value ..)
  · exact congrArg (scalarResult g s 5 d) (mulHigh_value ..)
  · exact congrArg (scalarResult g s 5 d) (mulHighU_value ..)
  · exact congrArg (scalarResult g s 2 d) (min_value ..)
  · exact congrArg (scalarResult g s 2 d) (max_value ..)
  · exact congrArg (scalarResult g s 2 d) (minu_value ..)
  · exact congrArg (scalarResult g s 2 d) (maxu_value ..)
  · exact congrArg (scalarResult g s 2 d) (abs_value ..)
  · exact congrArg (scalarResult g s 2 d) (neg_value ..)

/-- Settles O1: NOP's guarded outcome is its completion, and each instruction of the two tables is a scalar result whose value the wrapped integers
of R112 and R113 give. -/
theorem scalarMovesArithmetic : Obligations.ScalarMovesArithmetic := by
  unfold Obligations.ScalarMovesArithmetic
  refine ⟨fun s g hacts => guarded_acts _ hacts, fun s i g lat d v hresult hacts => ?_⟩
  rw [hresult.elim exec_moveResult exec_arithResult, scalarResult_acts hacts]

end Sys2Proof.Machine
end

section
/-! # Bits, shifts, fields and SEL (R115 to R117) -/
namespace Sys2Proof.Machine

open Sys2Proof.Safety

/-! ## Immediates and shifts (R108, R115) -/

theorem uimm_eq_ofNat {n : Nat} (x : BitVec n) : uimm x = BitVec.ofNat 64 x.toNat := (BitVec.ofNat_toNat ..).symm

theorem shiftLeft_value (a : Word) (n : Nat) : a <<< n = BitVec.ofNat 64 (a.toNat * 2 ^ n) := by
  apply BitVec.eq_of_toNat_eq
  rw [BitVec.toNat_shiftLeft, Nat.shiftLeft_eq, BitVec.toNat_ofNat]

theorem shiftRight_value (a : Word) (n : Nat) : a >>> n = BitVec.ofNat 64 (a.toNat / 2 ^ n) := by
  apply BitVec.eq_of_toNat_eq
  rw [BitVec.toNat_ushiftRight, Nat.shiftRight_eq_div_pow, BitVec.toNat_ofNat,
    Nat.mod_eq_of_lt (Nat.lt_of_le_of_lt (Nat.div_le_self ..) a.isLt)]

theorem sshiftRight_value (a : Word) (n : Nat) : a.sshiftRight n = BitVec.ofInt 64 (a.toInt / 2 ^ n) := by
  rw [BitVec.sshiftRight_eq, Int.shiftRight_eq_div_pow]
  push_cast
  rfl

theorem rotateLeft_value (a : Word) (n : Nat) :
    a.rotateLeft (n % 64) = BitVec.ofNat 64 (a.toNat * 2 ^ (n % 64)) ||| BitVec.ofNat 64 (a.toNat / 2 ^ (64 - n % 64)) := by
  rw [BitVec.rotateLeft_def, Nat.mod_mod, shiftLeft_value, shiftRight_value]

/-! ## Counting bits (R115) -/

/-- The zeros above the highest one of the low `n + 1` bits, and those that lie above these, are what the library's scan from bit `n` counts. -/
theorem clzAuxRec_eq_leadZeros {w : Nat} (v : BitVec w) {n : Nat} (hn : n < w) :
    v.clzAuxRec n = BitVec.ofNat w (w - (n + 1) + leadZeros v (n + 1)) := by
  induction n with
  | zero =>
    rw [BitVec.clzAuxRec_zero, leadZeros, leadZeros]
    split
    · rfl
    · rw [Nat.sub_add_cancel hn]
  | succ n ih =>
    rw [BitVec.clzAuxRec_succ, leadZeros]
    split
    · congr 1; omega
    · rw [ih (by omega)]; congr 1; omega

theorem leadZeros_value {w : Nat} (v : BitVec w) (hw : 0 < w) : BitVec.ofNat w (leadZeros v w) = v.clz := by
  rw [BitVec.clz, clzAuxRec_eq_leadZeros v (Nat.sub_one_lt_of_lt hw), Nat.sub_add_cancel hw, Nat.sub_self, Nat.zero_add]

theorem trailZeros_zero : trailZeros 0 = 64 := by
  rw [trailZeros, List.find?_eq_none.2 fun i _ => by simp]
  rfl

/-- The first one bit from below is the one after the trailing zeros. -/
theorem trailZeros_value (v : Word) : BitVec.ofNat 64 (trailZeros v) = v.ctz := by
  by_cases hv : v = 0
  · rw [hv, trailZeros_zero, BitVec.ctz_eq_reverse_clz]
    exact (BitVec.clz_eq_iff_eq_zero.2 (BitVec.reverse_eq_zero_iff.2 rfl)).symm
  · have hlt : v.ctz.toNat < 64 := BitVec.ctz_lt_iff_ne_zero.2 hv
    have hfirst : (List.range 64).find? (fun i => v.getLsbD i) = some v.ctz.toNat :=
      List.find?_range_eq_some.2 ⟨BitVec.getLsbD_true_ctz_of_ne_zero hv, List.mem_range.2 hlt,
        fun j hj => by rw [BitVec.getLsbD_false_of_lt_ctz hj]; rfl⟩
    rw [trailZeros, hfirst, Option.getD_some, BitVec.ofNat_toNat, BitVec.setWidth_eq]

theorem length_filter_range_eq_cpopNatRec {w : Nat} (v : BitVec w) (n : Nat) :
    ((List.range n).filter fun i => v.getLsbD i).length = v.cpopNatRec n 0 := by
  induction n with
  | zero => rfl
  | succ n ih =>
    rw [List.range_succ, List.filter_append, List.length_append, ih, BitVec.cpopNatRec_succ, Nat.zero_add,
      BitVec.cpopNatRec_eq (v.getLsbD n).toNat, List.filter_singleton]
    cases v.getLsbD n <;> rfl

theorem onesIn_value {w : Nat} (v : BitVec w) : BitVec.ofNat w (onesIn v) = v.cpop :=
  congrArg (BitVec.ofNat w) (length_filter_range_eq_cpopNatRec v w)

/-- A number built by setting, for each `i` below `n`, bit `i` where `f i` holds. -/
theorem testBit_foldl_setBit (f : Nat → Bool) (n j : Nat) :
    ((List.range n).foldl (fun m i => if f i then m ||| 2 ^ i else m) 0).testBit j = (decide (j < n) && f j) := by
  induction n with
  | zero => simp
  | succ n ih =>
    rw [List.range_succ, List.foldl_append, List.foldl_cons, List.foldl_nil]
    by_cases hj : j = n
    · subst hj
      cases hf : f j <;> simp [ih, hf]
    · have hlt : j < n + 1 ↔ j < n := by omega
      cases f n <;> simp [ih, Ne.symm hj, hlt]

theorem reversed_value (v : Word) : reversed v = v.reverse := by
  apply BitVec.eq_of_getLsbD_eq
  intro j hj
  rw [reversed, BitVec.getLsbD_ofNat, testBit_foldl_setBit, BitVec.getLsbD_reverse, BitVec.getMsbD_eq_getLsbD]
  simp [hj]

/-! ## Bit fields (R116) -/

theorem fieldAt_eq_toNat (b : Word) (pos w1 : BitVec 6) : fieldAt b pos w1 = (b.extractLsb' pos.toNat (w1.toNat + 1)).toNat := by
  rw [fieldAt, BitVec.extractLsb'_toNat, Nat.shiftRight_eq_div_pow]

theorem signedOf_toNat {w : Nat} (x : BitVec (w + 1)) : signedOf (w + 1) x.toNat = x.toInt := by
  rw [signedOf, BitVec.toInt_eq_toNat_cond, Nat.add_sub_cancel, Nat.pow_succ]
  have hhalf : x.toNat < 2 ^ w ↔ 2 * x.toNat < 2 ^ w * 2 := by omega
  simp only [hhalf]
  push_cast
  rw [pow_succ]

theorem widthBits_eq (wd : Width) : Width.bits wd = widthBits wd := by cases wd <;> rfl

theorem ext_value (b : Word) (pos w1 : BitVec 6) : BitVec.ofInt 64 (signedOf (w1.toNat + 1) (fieldAt b pos w1)) =
    (b.extractLsb' pos.toNat (w1.toNat + 1)).signExtend 64 := by
  rw [fieldAt_eq_toNat, signedOf_toNat, BitVec.signExtend]

theorem extu_value (b : Word) (pos w1 : BitVec 6) :
    BitVec.ofNat 64 (fieldAt b pos w1) = (b.extractLsb' pos.toNat (w1.toNat + 1)).setWidth 64 := by
  rw [fieldAt_eq_toNat, BitVec.ofNat_toNat]

theorem sext_value (b : Word) (wd : Width) : BitVec.ofInt 64 (signedOf (Width.bits wd) (b.toNat % 2 ^ Width.bits wd)) =
    (b.setWidth (widthBits wd)).signExtend 64 := by
  rw [widthBits_eq, ← BitVec.toNat_setWidth]
  cases wd <;> exact congrArg (BitVec.ofInt 64) (signedOf_toNat _)

theorem zext_value (b : Word) (wd : Width) :
    BitVec.ofNat 64 (b.toNat % 2 ^ Width.bits wd) = (b.setWidth (widthBits wd)).setWidth 64 := by
  rw [widthBits_eq, ← BitVec.toNat_setWidth, BitVec.ofNat_toNat]

/-- A field of `w` bits at `p` replaced by the low bits of another number: the bits above it, the new field, the bits below it. -/
theorem sub_field_add (a b p w : Nat) :
    a - a / 2 ^ p % 2 ^ w * 2 ^ p + b % 2 ^ w * 2 ^ p = 2 ^ p * (2 ^ w * (a / 2 ^ p / 2 ^ w) + b % 2 ^ w) + a % 2 ^ p := by
  have hlow := Nat.div_add_mod a (2 ^ p)
  have hhigh := Nat.div_add_mod (a / 2 ^ p) (2 ^ w)
  have hsplit : a = 2 ^ p * (2 ^ w * (a / 2 ^ p / 2 ^ w)) + a / 2 ^ p % 2 ^ w * 2 ^ p + a % 2 ^ p := by
    conv_lhs => rw [← hlow, ← hhigh]
    ring
  have hkept : a - a / 2 ^ p % 2 ^ w * 2 ^ p = 2 ^ p * (2 ^ w * (a / 2 ^ p / 2 ^ w)) + a % 2 ^ p := by omega
  rw [hkept]
  ring

theorem getLsbD_inserted (a b : Word) (pos w1 : BitVec 6) {i : Nat} (hi : i < 64) : (inserted a b pos w1).getLsbD i =
    if pos.toNat ≤ i ∧ i - pos.toNat < w1.toNat + 1 then b.getLsbD (i - pos.toNat) else a.getLsbD i := by
  rw [inserted, fieldAt, sub_field_add, BitVec.getLsbD_ofNat,
    Nat.testBit_two_pow_mul_add _ (Nat.mod_lt _ (Nat.two_pow_pos _)), Nat.testBit_two_pow_mul_add _ (Nat.mod_lt _ (Nat.two_pow_pos _))]
  by_cases hbelow : i < pos.toNat
  · simp [hi, hbelow, BitVec.getLsbD]
  · by_cases hin : i - pos.toNat < w1.toNat + 1
    · simp [hi, hbelow, hin, Nat.le_of_not_lt hbelow, BitVec.getLsbD]
    · have hplace : i - pos.toNat - (w1.toNat + 1) + (w1.toNat + 1) + pos.toNat = i := by omega
      simp [hi, hbelow, hin, BitVec.getLsbD, Nat.testBit_div_two_pow, hplace]

/-- The mask of a field has its bits from the field's position on, as many as it is wide. -/
theorem getLsbD_fieldMask (pos w1 : BitVec 6) {i : Nat} (hi : i < 64) :
    ((BitVec.ofNat 64 (2 ^ (w1.toNat + 1) - 1) : Word) <<< pos.toNat).getLsbD i =
      decide (pos.toNat ≤ i ∧ i - pos.toNat < w1.toNat + 1) := by
  rw [BitVec.getLsbD_shiftLeft, BitVec.getLsbD_ofNat, Nat.testBit_two_pow_sub_one]
  by_cases hbelow : i < pos.toNat
  · simp [hbelow]
  · have hlt : i - pos.toNat < 64 := by omega
    simp [hi, hbelow, hlt, Nat.le_of_not_lt hbelow]

theorem inserted_value (a b : Word) (pos w1 : BitVec 6) : inserted a b pos w1 =
    ((b <<< pos.toNat) &&& (BitVec.ofNat 64 (2 ^ (w1.toNat + 1) - 1) <<< pos.toNat)) |||
      (a &&& ~~~ (BitVec.ofNat 64 (2 ^ (w1.toNat + 1) - 1) <<< pos.toNat)) := by
  apply BitVec.eq_of_getLsbD_eq
  intro i hi
  rw [getLsbD_inserted a b pos w1 hi, BitVec.getLsbD_or, BitVec.getLsbD_and, BitVec.getLsbD_and, BitVec.getLsbD_not,
    getLsbD_fieldMask pos w1 hi, BitVec.getLsbD_shiftLeft]
  by_cases hin : pos.toNat ≤ i ∧ i - pos.toNat < w1.toNat + 1
  · have habove : ¬ i < pos.toNat := by omega
    simp [hin, hi, habove]
  · rw [if_neg hin, decide_eq_false hin]
    simp [hi]

/-! ## SEL (R117) -/

/-- A predicate's bit 0, as the machine and as R117 read it. -/
theorem getLsbD_zero_iff (p : BitVec 16) : p.getLsbD 0 = true ↔ p &&& 1 = 1 := by
  have hand : p &&& 1 = BitVec.setWidth 16 (BitVec.ofBool (p.getLsbD 0)) := BitVec.and_one_eq_setWidth_ofBool_getLsbD
  rw [hand]
  cases p.getLsbD 0 <;> decide

theorem exec_bitResult {s : State} {i : Instr} {g : Pred} {lat : Nat} {d : Reg} {v : Word}
    (h : bitResult s i = some (g, lat, d, v)) : exec i s = scalarResult g s lat d v := by
  unfold bitResult at h
  split at h <;> cases h
  · rfl
  · rfl
  · rfl
  · rfl
  · exact congrArg (fun u => scalarResult g s 2 d (s.sreg d ||| u)) (uimm_eq_ofNat ..)
  · exact congrArg (scalarResult g s 2 d) (shiftLeft_value ..)
  · exact congrArg (scalarResult g s 2 d) (shiftLeft_value ..)
  · exact congrArg (scalarResult g s 2 d) (shiftRight_value ..)
  · exact congrArg (scalarResult g s 2 d) (shiftRight_value ..)
  · exact congrArg (scalarResult g s 2 d) (sshiftRight_value ..)
  · exact congrArg (scalarResult g s 2 d) (sshiftRight_value ..)
  · exact congrArg (scalarResult g s 2 d) (rotateLeft_value ..)
  · exact congrArg (scalarResult g s 3 d) (leadZeros_value _ (by decide))
  · exact congrArg (scalarResult g s 3 d) (trailZeros_value _)
  · exact congrArg (scalarResult g s 3 d) (onesIn_value _)
  · exact congrArg (scalarResult g s 3 d) (reversed_value _)

theorem exec_fieldResult {s : State} {i : Instr} {g : Pred} {lat : Nat} {d : Reg} {v : Word}
    (h : fieldResult s i = some (g, lat, d, v)) : exec i s = scalarResult g s lat d v := by
  unfold fieldResult at h
  split at h <;> cases h
  · exact congrArg (scalarResult g s 2 d) (ext_value ..)
  · exact congrArg (scalarResult g s 2 d) (extu_value ..)
  · exact congrArg (scalarResult g s 2 d) (inserted_value ..)
  · exact congrArg (scalarResult g s 2 d) (sext_value ..)
  · exact congrArg (scalarResult g s 2 d) (zext_value ..)
  · exact congrArg (scalarResult g s 2 d) (if_congr (getLsbD_zero_iff _) rfl rfl)

/-- Settles O2: each instruction of the two tables is a scalar result whose value the arithmetic of R115, or the bit vectors of R116, give. -/
theorem scalarBitsFields : Obligations.ScalarBitsFields := by
  unfold Obligations.ScalarBitsFields
  intro s i g lat d v hresult hacts
  rw [hresult.elim exec_bitResult exec_fieldResult, scalarResult_acts hacts]

end Sys2Proof.Machine
end

section
/-! # Compares and predicate instructions (R118, R119) -/
namespace Sys2Proof.Machine

open Sys2Proof.Safety

/-! ## Conditions (R108, R118) -/

/-- A compare's sixteen bits, as the machine and as R118 write them. -/
theorem allBits_eq_alike {b : Bool} {p : Prop} [Decidable p] (h : b = true ↔ p) : allBits b = alike p := by
  rw [allBits, alike]
  exact if_congr h rfl rfl

theorem toInt_simm (imm : BitVec 35) : (simm imm).toInt = imm.toInt := BitVec.toInt_signExtend_of_le (by decide)

theorem toNat_uimm (imm : BitVec 35) : (uimm imm).toNat = imm.toNat := BitVec.toNat_setWidth_of_le (by decide)

theorem eq_simm_iff (a : Word) (imm : BitVec 35) : a = simm imm ↔ a.toInt = imm.toInt := by
  rw [← BitVec.toInt_inj, toInt_simm]

theorem exec_compareResult {s : State} {i : Instr} {g : Pred} {d : PReg} {v : BitVec 16}
    (h : compareResult s i = some (g, d, v)) : exec i s = predResult g s d v := by
  unfold compareResult at h
  split at h <;> cases h
  · exact congrArg (predResult g s d) (allBits_eq_alike beq_iff_eq)
  · exact congrArg (predResult g s d) (allBits_eq_alike (beq_iff_eq.trans (eq_simm_iff ..)))
  · exact congrArg (predResult g s d) (allBits_eq_alike bne_iff_ne)
  · exact congrArg (predResult g s d) (allBits_eq_alike decide_eq_true_iff)
  · exact congrArg (predResult g s d) (allBits_eq_alike (by rw [toInt_simm, decide_eq_true_iff]))
  · exact congrArg (predResult g s d) (allBits_eq_alike decide_eq_true_iff)
  · exact congrArg (predResult g s d) (allBits_eq_alike decide_eq_true_iff)
  · exact congrArg (predResult g s d) (allBits_eq_alike (by rw [toNat_uimm, decide_eq_true_iff]))
  · exact congrArg (predResult g s d) (allBits_eq_alike decide_eq_true_iff)

/-! ## Predicates bit by bit (R119) -/

theorem eq_ofFnLE {n : Nat} {x : BitVec n} {f : Fin n → Bool} (h : ∀ i : Fin n, x.getLsbD i = f i) : x = BitVec.ofFnLE f := by
  apply BitVec.eq_of_getLsbD_eq
  intro i hi
  rw [BitVec.getLsbD_ofFnLE, dif_pos hi]
  exact h ⟨i, hi⟩

theorem exec_predicateResult {s : State} {i : Instr} {g : Pred} {d : PReg} {v : BitVec 16}
    (h : predicateResult s i = some (g, d, v)) : exec i s = predResult g s d v := by
  unfold predicateResult at h
  split at h <;> cases h
  · exact congrArg (predResult g s d) (eq_ofFnLE fun _ => BitVec.getLsbD_and)
  · exact congrArg (predResult g s d) (eq_ofFnLE fun _ => BitVec.getLsbD_or)
  · exact congrArg (predResult g s d) (eq_ofFnLE fun _ => BitVec.getLsbD_xor)
  · exact congrArg (predResult g s d) (eq_ofFnLE fun i => by simp)
  · rfl
  · exact congrArg (predResult g s d) (BitVec.ofNat_toNat ..).symm

/-- Settles O3: each compare and each predicate instruction is a predicate result, the compares' by their conditions and the others' bit by bit;
PMOVS is a scalar result. -/
theorem comparesPredicates : Obligations.ComparesPredicates := by
  unfold Obligations.ComparesPredicates
  refine ⟨fun s i g d v hresult hacts => ?_, fun s g d b hacts => ?_⟩
  · rw [hresult.elim exec_compareResult exec_predicateResult, predResult_acts hacts]
  · rw [BitVec.ofNat_toNat]
    exact scalarResult_acts hacts 2 d (uimm (s.preg b))

end Sys2Proof.Machine
end

section
/-! # Divides (R110, R114, R123) -/
namespace Sys2Proof.Machine

open Sys2Proof.Safety

/-! ## Quotients and remainders (R114) -/

theorem divideOf_zero (signed : Bool) (a : Word) : divideOf signed a 0 = (0xFFFFFFFFFFFFFFFF, a.toInt) := rfl

theorem divideOf_unsigned (a : Word) {b : Word} (hb : b ≠ 0) :
    divideOf false a b = (((a.toNat / b.toNat : Nat) : Int), a.toNat - (a.toNat / b.toNat : Nat) * (b.toNat : Int)) :=
  if_neg fun h => hb (BitVec.eq_of_toNat_eq h)

theorem divideOf_overflow {a b : Word} (ha : a.toInt = -2 ^ 63) (hb : b.toInt = -1) : divideOf true a b = (a.toInt, 0) := by
  have hne : ¬ b.toNat = 0 := fun h => by
    rw [BitVec.eq_of_toNat_eq (y := 0) h] at hb
    exact absurd hb (by decide)
  rw [divideOf, if_neg hne, if_pos (by rw [decide_eq_true ha, decide_eq_true hb]; rfl)]

theorem divideOf_signed {a b : Word} (hb : b ≠ 0) (hover : ¬ (a.toInt = -2 ^ 63 ∧ b.toInt = -1)) :
    divideOf true a b = (Int.tdiv a.toInt b.toInt, a.toInt - Int.tdiv a.toInt b.toInt * b.toInt) := by
  have hne : ¬ b.toNat = 0 := fun h => hb (BitVec.eq_of_toNat_eq h)
  rw [divideOf, if_neg hne, if_neg (by simpa using hover), if_pos rfl]

theorem divS_value (a b : Word) : divS a b = BitVec.ofInt 64 (divideOf true a b).1 := by
  by_cases hb : b = 0
  · subst hb
    rw [divideOf_zero, divS, if_pos rfl]
    rfl
  · rw [divS, if_neg hb]
    by_cases hover : a.toInt = -2 ^ 63 ∧ b.toInt = -1
    · obtain ⟨hmin, hone⟩ := hover
      rw [divideOf_overflow hmin hone, hmin, hone]
      decide
    · rw [divideOf_signed hb hover]

theorem remS_value (a b : Word) : remS a b = BitVec.ofInt 64 (divideOf true a b).2 := by
  by_cases hb : b = 0
  · subst hb
    rw [divideOf_zero, remS, if_pos rfl, BitVec.ofInt_toInt]
  · rw [remS, if_neg hb]
    by_cases hover : a.toInt = -2 ^ 63 ∧ b.toInt = -1
    · obtain ⟨hmin, hone⟩ := hover
      rw [divideOf_overflow hmin hone, hmin, hone]
      decide
    · rw [divideOf_signed hb hover, Int.tmod_def, Int.mul_comm]

theorem divU_value (a b : Word) : divU a b = BitVec.ofInt 64 (divideOf false a b).1 := by
  by_cases hb : b = 0
  · subst hb
    rw [divideOf_zero, divU, if_pos rfl]
    rfl
  · rw [divU, if_neg hb, divideOf_unsigned a hb, BitVec.ofInt_natCast]

theorem remU_value (a b : Word) : remU a b = BitVec.ofInt 64 (divideOf false a b).2 := by
  by_cases hb : b = 0
  · subst hb
    rw [divideOf_zero, remU, if_pos rfl, BitVec.ofInt_toInt]
  · have hrem : (a.toNat : Int) - (a.toNat / b.toNat : Nat) * (b.toNat : Int) = (a.toNat % b.toNat : Nat) := by
      rw [Int.natCast_emod, Int.emod_def, Int.natCast_ediv, Int.mul_comm]
    rw [remU, if_neg hb, divideOf_unsigned a hb, hrem, BitVec.ofInt_natCast]

theorem exec_divResult {s : State} {i : Instr} {g : Pred} {d : Reg} {v : Word}
    (h : divResult s i = some (g, d, v)) : exec i s = divideResult g s d v := by
  unfold divResult at h
  split at h <;> cases h
  · exact congrArg (divideResult g s d) (divS_value ..)
  · exact congrArg (divideResult g s d) (divU_value ..)
  · exact congrArg (divideResult g s d) (remS_value ..)
  · exact congrArg (divideResult g s d) (remU_value ..)

/-! ## The divider replies (R110, R123) -/

theorem exec_divideComplete_divide {s : State} {c k : Nat} {d : Reg} {v : Word} (h : (s.slotOf c k).status = .wait (.divide d v)) :
    exec (.divideComplete c k) s = .next ((((s.at c k).putS 0 d v).retire).at s.core s.slot) := by
  change execDivideComplete c k s = _
  rw [execDivideComplete, h]
  rfl

theorem exec_divideComplete_vdivide {s : State} {c k : Nat} {d : Reg} {m : BitVec 16} {v : Vec} {fl : FFlags}
    (h : (s.slotOf c k).status = .wait (.vdivide d m v fl)) :
    exec (.divideComplete c k) s = .next (((((s.at c k).putV 0 d m v).addFlags fl).retire).at s.core s.slot) := by
  change execDivideComplete c k s = _
  rw [execDivideComplete, h]
  rfl

/-- Settles O4: a divide is the wait for its quotient or remainder, and the divider's reply lands what the slot waits for. -/
theorem divides : Obligations.Divides := by
  unfold Obligations.Divides
  refine ⟨fun s i g d v hresult hacts => ?_, fun s c k d v hwait => exec_divideComplete_divide hwait,
    fun s c k d m v fl hwait => exec_divideComplete_vdivide hwait⟩
  rw [exec_divResult hresult, divideResult_acts hacts]

end Sys2Proof.Machine
end

section
/-! # MTS in the empty handler slot (R93, R120) -/
namespace Sys2Proof.Machine

open Sys2Proof.Safety

/-- A state whose issuing slot is the handler slot of core 0, without a handler, and whose physical function has 1 in c0 there. -/
def handlerlessShared : State := { handlerless with cores := [(0, { vfs := [(8, { c := [(0, 1)] })] })] }

/-- Refutes O25: MTS leaves its slot running, and the handler slot sees the physical function's shared registers while it is empty and its VF's while
it runs; so c0 reads 1 before an MTS of TEPC there and 0 after it. The clause of the RW bits does not ask that the handler slot run. -/
theorem not_systemRegisters : ¬ Obligations.SystemRegisters := by
  unfold Obligations.SystemRegisters
  rintro ⟨-, -, hmts, -⟩
  obtain ⟨t, ht, -, -, ⟨hsreg, -⟩, -⟩ := hmts handlerlessShared .always .tepc (.reg (.priv 1)) _ rfl (by decide) rfl nofun
  have hexec : exec (.mts .always .tepc (.reg (.priv 1))) handlerlessShared =
      .next (handlerlessShared.retire.writeSys .tepc (handlerlessShared.sreg (.priv 1))) := rfl
  obtain rfl := Host.Outcome.next.inj (hexec.symm.trans ht)
  exact absurd (hsreg (.shared 0) nofun) (by decide)

end Sys2Proof.Machine
end

section
/-! # Vector results: what each shape of a result answers when its instruction acts, and vectors given lane by lane (R61, R121, R122) -/
namespace Sys2Proof.Machine

open Sys2Proof.Safety

/-! ## What the shapes of a vector result answer when their instruction acts (R61) -/

theorem vectorResult_acts {g : Pred} {s : State} (h : s.acts g = true) (lat : Nat) (d : Reg) (v : Vec) :
    vectorResult g s lat d v = .next (s.putV lat d (s.mask g) v).retire := guarded_acts _ h

theorem maskResult_acts {g : Pred} {s : State} (h : s.acts g = true) (d : PReg) (f : Nat → Bool) :
    maskResult g s d f = .next (s.putP d (mergeBits (s.mask g) (s.preg d) (predOf f))).retire := guarded_acts _ h

theorem floatResult_acts {g : Pred} {s : State} (h : s.acts g = true) (lat : Nat) (d : Reg) (f : Nat → Lane × FFlags) :
    floatResult g s lat d f = .next ((s.putV lat d (s.mask g) (ofLanes fun i => (f i).1)).addFlags
      (unionFlags (s.mask g) fun i => (f i).2)).retire := guarded_acts _ h

theorem floatMask_acts {g : Pred} {s : State} (h : s.acts g = true) (d : PReg) (f : Nat → Bool) (fl : Nat → FFlags) :
    floatMask g s d f fl = .next ((s.putP d (mergeBits (s.mask g) (s.preg d) (predOf f))).addFlags (unionFlags (s.mask g) fl)).retire :=
  guarded_acts _ h

theorem floatDivide_acts {g : Pred} {s : State} (h : s.acts g = true) (d : Reg) (f : Nat → Lane × FFlags) :
    floatDivide g s d f = .next (s.wait (.vdivide d (s.mask g) (ofLanes fun i => (f i).1) (unionFlags (s.mask g) fun i => (f i).2))) :=
  guarded_acts _ h

/-! ## Vectors and predicates given lane by lane -/

theorem packLanes_congr {f g : Nat → Lane} (n : Nat) (h : ∀ i < n, f i = g i) : packLanes f n = packLanes g n := by
  induction n with
  | zero => rfl
  | succ n ih => rw [packLanes, packLanes, ih fun i hi => h i (by omega), h n (by omega)]

/-- A vector depends on its sixteen lanes alone. -/
theorem ofLanes_congr {f g : Nat → Lane} (h : ∀ i < 16, f i = g i) : ofLanes f = ofLanes g :=
  congrArg (BitVec.ofNat 512) (packLanes_congr 16 h)

theorem ofLanes_lane (v : Vec) : ofLanes (lane v) = v := by
  apply BitVec.eq_of_getLsbD_eq
  intro j hj
  have hlane : lane (ofLanes (lane v)) (j / 32) = lane v (j / 32) := lane_ofLanes _ (by omega)
  have hbit := congrArg (fun x : Lane => x.getLsbD (j % 32)) hlane
  simpa [lane, BitVec.getLsbD_extractLsb', Nat.mod_lt, Nat.div_add_mod] using hbit

/-- Bit `i` of the predicate a compare makes (R127). -/
theorem getLsbD_predOf (f : Nat → Bool) (i : Nat) : (predOf f).getLsbD i = (decide (i < 16) && f i) := by
  rw [predOf, BitVec.getLsbD_ofNat, testBit_foldl_setBit]
  cases decide (i < 16) <;> rfl

/-- The acting bits of a predicate taken from a compare, as R122 says it bit by bit. -/
theorem mergeBits_predOf (m old : BitVec 16) (f : Nat → Bool) : mergeBits m old (predOf f) = maskedBits m old f := by
  refine eq_ofFnLE fun i => ?_
  rw [mergeBits, BitVec.getLsbD_or, BitVec.getLsbD_and, BitVec.getLsbD_and, BitVec.getLsbD_not, getLsbD_predOf,
    decide_eq_true i.isLt]
  cases m.getLsbD i <;> simp

theorem maskedBits_congr {m old : BitVec 16} {f g : Nat → Bool} (h : ∀ i < 16, f i = g i) : maskedBits m old f = maskedBits m old g :=
  congrArg BitVec.ofFnLE (funext fun i => by rw [h i i.isLt])

end Sys2Proof.Machine
end

section
/-! # Integer lanes (R125, R126) -/
namespace Sys2Proof.Machine

open Sys2Proof.Safety

/-! ## Values of a lane, wrapped at 32 bits (R87) -/

theorem laneAddI_value (a imm : Lane) : a + imm = BitVec.ofInt 32 (a.toInt + imm.toInt) := by
  rw [BitVec.ofInt_add, BitVec.ofInt_toInt, BitVec.ofInt_toInt]

theorem laneSub_value (a b : Lane) : a - b = BitVec.ofInt 32 (a.toInt - b.toInt) := by
  rw [Int.sub_eq_add_neg, BitVec.ofInt_add, BitVec.ofInt_neg, BitVec.ofInt_toInt, BitVec.ofInt_toInt, BitVec.sub_eq_add_neg]

theorem laneMul_value (a b : Lane) : a * b = BitVec.ofNat 32 (a.toNat * b.toNat) := by
  rw [BitVec.ofNat_mul, BitVec.ofNat_toNat, BitVec.ofNat_toNat]; simp

theorem laneMulHigh_value (u : Bool) (a b : Lane) :
    laneMulHigh u a b = BitVec.ofInt 32 ⌊((laneInt u a * laneInt u b : Int) : ℚ) / 2 ^ 32⌋ := by
  rw [floor_div_two_pow]
  cases u
  · rfl
  · exact (BitVec.ofInt_natCast 32 (a.toNat * b.toNat / 2 ^ 32)).symm.trans (congrArg (BitVec.ofInt 32) (by push_cast; rfl))

theorem laneMin_value (a b : Lane) : laneMin a b = BitVec.ofInt 32 (min a.toInt b.toInt) := by
  rw [laneMin, min_def]; split <;> simp

theorem laneMax_value (a b : Lane) : laneMax a b = BitVec.ofInt 32 (max a.toInt b.toInt) := by
  rw [laneMax, max_def]; split <;> simp

theorem laneMinU_value (a b : Lane) : laneMinU a b = BitVec.ofNat 32 (min a.toNat b.toNat) := by
  rw [laneMinU, min_def]; split <;> simp

theorem laneMaxU_value (a b : Lane) : laneMaxU a b = BitVec.ofNat 32 (max a.toNat b.toNat) := by
  rw [laneMaxU, max_def]; split <;> simp

theorem laneAbs_value (b : Lane) : BitVec.ofNat 32 b.toInt.natAbs = BitVec.ofInt 32 |b.toInt| := by
  rw [Int.abs_eq_natAbs, BitVec.ofInt_natCast]

theorem laneNeg_value (b : Lane) : -b = BitVec.ofInt 32 (-b.toInt) := by rw [BitVec.ofInt_neg, BitVec.ofInt_toInt]

theorem laneShl_value (a : Lane) (n : Nat) : a <<< n = BitVec.ofNat 32 (a.toNat * 2 ^ n) := by
  apply BitVec.eq_of_toNat_eq
  rw [BitVec.toNat_shiftLeft, BitVec.toNat_ofNat, Nat.shiftLeft_eq]

theorem laneShr_value (a : Lane) (n : Nat) : a >>> n = BitVec.ofNat 32 (a.toNat / 2 ^ n) := by
  rw [← Nat.shiftRight_eq_div_pow, ← BitVec.toNat_ushiftRight, BitVec.ofNat_toNat, BitVec.setWidth_eq]

theorem laneSar_value (a : Lane) (n : Nat) : a.sshiftRight n = BitVec.ofInt 32 (a.toInt / 2 ^ n) := by
  rw [BitVec.sshiftRight, Int.shiftRight_eq_div_pow]; norm_cast

/-! ## Saturation, bytes and dot products (R126) -/

theorem laneAddSat_value (u : Bool) (a b : Lane) : laneAddSat u a b = BitVec.ofInt 32
    (if u then min (laneInt u a + laneInt u b) (2 ^ 32 - 1) else max (-2 ^ 31) (min (laneInt u a + laneInt u b) (2 ^ 31 - 1))) := by
  cases u
  · rw [laneAddSat, clampInt, if_neg (by decide), if_neg (by decide), min_comm]; rfl
  · rw [laneAddSat, if_pos rfl, if_pos rfl, ← BitVec.ofInt_natCast]
    congr 1
    simp only [laneInt, if_true]
    omega

theorem laneSubSat_value (u : Bool) (a b : Lane) : laneSubSat u a b = BitVec.ofInt 32
    (if u then max (laneInt u a - laneInt u b) 0 else max (-2 ^ 31) (min (laneInt u a - laneInt u b) (2 ^ 31 - 1))) := by
  cases u
  · rw [laneSubSat, clampInt, if_neg (by decide), if_neg (by decide), min_comm]; rfl
  · rw [laneSubSat, if_pos rfl, if_pos rfl, ← BitVec.ofInt_natCast]
    congr 1
    simp only [laneInt, if_true]
    omega

theorem laneByte_value (u : Bool) (a : Lane) (j : Nat) : laneByte (!u) a j = byteInt u a j := by
  have hbyte : (a.extractLsb' (8 * j) 8).toNat = a.toNat / 2 ^ (8 * j) % 256 := by
    rw [BitVec.extractLsb'_toNat, Nat.shiftRight_eq_div_pow]
  cases u
  · exact (congrArg (signedOf 8) hbyte.symm).trans (signedOf_toNat _)
  · exact congrArg Nat.cast hbyte.symm

theorem laneDot4_value (mode : DotMode) (d a b : Lane) :
    laneDot4 mode d a b = BitVec.ofInt 32 (d.toInt +
      (byteInt (mode = .uu) a 0 * byteInt (mode ≠ .ss) b 0 + byteInt (mode = .uu) a 1 * byteInt (mode ≠ .ss) b 1 +
        byteInt (mode = .uu) a 2 * byteInt (mode ≠ .ss) b 2 + byteInt (mode = .uu) a 3 * byteInt (mode ≠ .ss) b 3)) := by
  have hx : ∀ j, laneByte (mode != .uu) a j = byteInt (mode = .uu) a j := fun j => by
    rw [← laneByte_value]; cases mode <;> rfl
  have hy : ∀ j, laneByte (mode == .ss) b j = byteInt (mode ≠ .ss) b j := fun j => by
    rw [← laneByte_value]; cases mode <;> rfl
  simp only [laneDot4, hx, hy]
  congr 2
  simp [List.range_succ]
  ring

/-! ## The tables of R125 and R126 -/

theorem exec_laneResult {s : State} {i : Instr} {g : Pred} {lat : Nat} {d : Reg} {f : Nat → Lane}
    (h : laneResult s i = some (g, lat, d, f)) : exec i s = vectorResult g s lat d (ofLanes f) := by
  unfold laneResult at h
  split at h <;> cases h
  · exact congrArg (vectorResult g s 2 d) (ofLanes_lane _).symm
  · exact congrArg (vectorResult g s 2 d) (ofLanes_congr fun j _ => (BitVec.ofNat_toNat ..).symm)
  · exact congrArg (vectorResult g s 2 d) (ofLanes_congr fun j _ => BitVec.add_def ..)
  · exact congrArg (vectorResult g s 2 d) (ofLanes_congr fun j _ => laneAddI_value ..)
  · exact congrArg (vectorResult g s 2 d) (ofLanes_congr fun j _ => laneSub_value ..)
  · exact congrArg (vectorResult g s 5 d) (ofLanes_congr fun j _ => laneMul_value ..)
  · exact congrArg (vectorResult g s 5 d) (ofLanes_congr fun j _ => laneMulHigh_value ..)
  · exact congrArg (vectorResult g s 2 d) (ofLanes_congr fun j _ => laneMin_value ..)
  · exact congrArg (vectorResult g s 2 d) (ofLanes_congr fun j _ => laneMax_value ..)
  · exact congrArg (vectorResult g s 2 d) (ofLanes_congr fun j _ => laneMinU_value ..)
  · exact congrArg (vectorResult g s 2 d) (ofLanes_congr fun j _ => laneMaxU_value ..)
  · exact congrArg (vectorResult g s 2 d) (ofLanes_congr fun j _ => laneAbs_value _)
  · exact congrArg (vectorResult g s 2 d) (ofLanes_congr fun j _ => laneNeg_value _)
  · rfl
  · rfl
  · rfl
  · exact congrArg (vectorResult g s 2 d) (ofLanes_congr fun j _ => laneShl_value ..)
  · exact congrArg (vectorResult g s 2 d) (ofLanes_congr fun j _ => laneShl_value ..)
  · exact congrArg (vectorResult g s 2 d) (ofLanes_congr fun j _ => laneShr_value ..)
  · exact congrArg (vectorResult g s 2 d) (ofLanes_congr fun j _ => laneShr_value ..)
  · exact congrArg (vectorResult g s 2 d) (ofLanes_congr fun j _ => laneSar_value ..)
  · exact congrArg (vectorResult g s 2 d) (ofLanes_congr fun j _ => laneSar_value ..)
  · exact congrArg (vectorResult g s 3 d) (ofLanes_congr fun j _ => onesIn_value _)
  · exact congrArg (vectorResult g s 3 d) (ofLanes_congr fun j _ => leadZeros_value _ (by decide))

theorem exec_laneResult2 {s : State} {i : Instr} {g : Pred} {lat : Nat} {d : Reg} {f : Nat → Lane}
    (h : laneResult2 s i = some (g, lat, d, f)) : exec i s = vectorResult g s lat d (ofLanes f) := by
  unfold laneResult2 at h
  split at h <;> cases h
  · exact congrArg (vectorResult g s 2 d) (ofLanes_congr fun j _ => laneAddSat_value ..)
  · exact congrArg (vectorResult g s 2 d) (ofLanes_congr fun j _ => laneSubSat_value ..)
  · refine congrArg (vectorResult g s 5 d) (ofLanes_congr fun j _ => ?_)
    rw [BitVec.ofNat_add, ← laneMul_value, BitVec.ofNat_toNat, BitVec.setWidth_eq]
  · exact congrArg (vectorResult g s 5 d) (ofLanes_congr fun j _ => laneDot4_value ..)

/-- Settles O5: each instruction of the two tables is a vector result, lane by lane the wrapped integer that R125 and R126 give. -/
theorem vectorIntegers : Obligations.VectorIntegers := by
  unfold Obligations.VectorIntegers
  intro s i g lat d f hresult hacts
  rw [hresult.elim exec_laneResult exec_laneResult2, vectorResult_acts hacts]

end Sys2Proof.Machine
end

section
/-! # Vector compares and VSEL (R127) -/
namespace Sys2Proof.Machine

open Sys2Proof.Safety

theorem exec_laneCompare {s : State} {i : Instr} {g : Pred} {d : PReg} {f : Nat → Bool} (h : laneCompare s i = some (g, d, f)) :
    exec i s = maskResult g s d f := by
  unfold laneCompare at h
  split at h <;> cases h
  · rfl
  · exact congrArg (maskResult g s d) (funext fun j => by rw [decide_not]; rfl)
  all_goals rfl

/-- Settles O6: a vector compare is a mask result of its condition, whose bits R122 merges; VSEL is its lanes' choice as it stands. -/
theorem vectorComparesSelect : Obligations.VectorComparesSelect := by
  unfold Obligations.VectorComparesSelect
  refine ⟨fun s i g d f hresult hacts => ?_, fun s g d a b hacts => vectorResult_acts hacts ..⟩
  rw [exec_laneCompare hresult, maskResult_acts hacts, mergeBits_predOf]

end Sys2Proof.Machine
end

section
/-! # TBLLD (R77, R78, R136) -/
namespace Sys2Proof.Machine

open Sys2Proof.Safety

/-- A map listed from an index on, one value after the other. -/
theorem look_zip_range' {α : Type} (l : List α) (a n i : Nat) (h : i < n) : SMap.look ((List.range' a n).zip l) (a + i) = l[i]? := by
  induction l generalizing a n i with
  | nil => simp [SMap.look]
  | cons x l ih =>
    cases n with
    | zero => omega
    | succ n =>
      rw [List.range'_succ, List.zip_cons_cons, SMap.look]
      cases i with
      | zero => simp
      | succ i =>
        rw [if_neg (by omega), List.getElem?_cons_succ, ← ih (a + 1) n i (by omega)]
        congr 1
        omega

/-- The entry of a code below 256 in a table listed whole. -/
theorem look_table (l : List Entry) {code : Nat} (h : code < 256) : SMap.look ((List.range 256).zip l) code = l[code]? := by
  rw [List.range_eq_range', ← look_zip_range' l 0 256 code h, Nat.zero_add]

/-- A decode table of the VF's own reads as it was written. -/
theorem entry_of_tables {s : State} {c v : Nat} (n : Nat) {m : SMap Entry} (code : Nat) (h : (s.vfOf c v).tables.look (4 + n) = some m) :
    s.entry c v (4 + n) code = (m.look code).getD unusedEntry := by
  rw [State.entry, if_neg (by omega), h, Option.bind_some]

/-- A table whose words are sound is installed from them, and memory stays (R77). -/
theorem tblInstall_sound {s : State} {t : BitVec 2} {addr : Word} {pas : List Nat} (hplaces : s.tablePlaces addr = some pas)
    (hsound : ∀ pa ∈ pas, wordsHit s.poison pa 4 = false) :
    (s.tblInstall t addr).mem = s.mem ∧ ((s.tblInstall t addr).vfOf s.core s.bankVf).tables.look (4 + t.toNat) =
      some ((List.range 256).zip (pas.map fun pa => (loadEntry (BitVec.ofNat 32 (leNat (s.mem.bytes pa 4)))).1)) := by
  have hfind : (List.range 256).find? (fun i => ((pas[i]?).map fun pa => wordsHit s.poison pa 4).getD false) = none := by
    refine List.find?_eq_none.2 fun i _ => ?_
    cases hi : pas[i]? with
    | none => simp
    | some pa => simp [hsound pa (List.mem_of_getElem? hi)]
  unfold State.tblInstall
  simp only [hplaces, hfind, List.map_map, State.vfOf_retire, State.mem_retire]
  split
  · simp only [State.addFlags, State.vfOf_modCur, State.vfOf_modVf, SMap.look_put_self, Function.comp_def]
    exact ⟨rfl, trivial⟩
  · simp only [State.vfOf_modVf, SMap.look_put_self, Function.comp_def]
    exact ⟨rfl, trivial⟩

theorem exec_tblld_goes {s s1 : State} {g : Pred} {t : BitVec 2} {b : SSrc} {pas : List Nat} (hg : s.acts g = true)
    (halign : (s.ssrc b).toNat % 64 = 0) (h0 : s.slot ≠ 0) (hplaces : s.tablePlaces (s.ssrc b) = some pas)
    (hdrained : s.drained s.core s.slot = some s1)
    (hfree : ∀ c ∈ s1.mxPushed s.core s.bankVf, c.seq < s.curVf.mxSeq → c.usesTable (4 + t.toNat) = false) :
    exec (.tblld g t b) s = .next (s1.tblInstall t (s.ssrc b)) := by
  have hwaits : s1.tblWaits s.core s.bankVf t s.curVf.mxSeq = false := by
    rw [State.tblWaits, List.any_eq_false]
    intro c hc hboth
    obtain ⟨hseq, huses⟩ := (Bool.and_eq_true ..).mp hboth
    exact absurd huses (by simp [hfree c hc (of_decide_eq_true hseq)])
  have hexec : exec (.tblld g t b) s = execTblld g t b s := rfl
  rw [hexec, execTblld, guarded_acts _ hg]
  simp [halign, h0, hplaces, hdrained, hwaits]

/-- Settles O21: with its slot's stores performed and no command in its way, a TBLLD installs, and the table reads as its words say. -/
theorem tableLoad : Obligations.TableLoad := by
  unfold Obligations.TableLoad
  intro s g t b pas s1 hg halign h0 hplaces hdrained hfree hplaces1 hsound
  obtain ⟨hmem, htable⟩ := tblInstall_sound (t := t) hplaces1 hsound
  have hdrains := Drains.drained hdrained
  rw [hdrains.core_eq, hdrains.bankVf_eq] at htable
  refine ⟨_, exec_tblld_goes hg halign h0 hplaces hdrained hfree, hmem, fun code hcode pa hpa => ?_⟩
  rw [entry_of_tables _ _ htable, look_table _ hcode, List.getElem?_map, hpa]
  rfl

end Sys2Proof.Machine
end

section
/-! # Rounding an exact dyadic number once (R82, R83): the model's integers give what R82 says of rationals -/
namespace Sys2Proof.Machine

open Sys2Proof.Safety

/-! ## Dyadic numbers -/

/-- The number (-1)^neg * m * 2^e. -/
def dyadic (neg : Bool) (m : Nat) (e : Int) : ℚ := (if neg then -1 else 1) * m * (2 : ℚ) ^ e

theorem exactOf_fin (neg : Bool) (m : Nat) (e : Int) : Exact.of (.fin neg m e) = .val (dyadic neg m e) neg := rfl

theorem dyadic_true (m : Nat) (e : Int) : dyadic true m e = -dyadic false m e := by simp [dyadic]

theorem dyadic_false (m : Nat) (e : Int) : dyadic false m e = m * (2 : ℚ) ^ e := by simp [dyadic]

theorem dyadic_eq_zero_iff {neg : Bool} {m : Nat} {e : Int} : dyadic neg m e = 0 ↔ m = 0 := by
  have htwo : (2 : ℚ) ^ e ≠ 0 := zpow_ne_zero e two_ne_zero
  cases neg <;> simp [dyadic, htwo]

theorem dyadic_false_pos {m : Nat} (e : Int) (h : m ≠ 0) : 0 < dyadic false m e := by
  rw [dyadic_false]
  have : 0 < m := Nat.pos_of_ne_zero h
  positivity

theorem abs_dyadic (neg : Bool) (m : Nat) (e : Int) : |dyadic neg m e| = dyadic false m e := by
  have hnonneg : 0 ≤ dyadic false m e := by rw [dyadic_false]; positivity
  cases neg
  · exact abs_of_nonneg hnonneg
  · rw [dyadic_true, abs_neg, abs_of_nonneg hnonneg]

theorem dyadic_neg_iff {neg : Bool} {m : Nat} (e : Int) (h : m ≠ 0) : dyadic neg m e < 0 ↔ neg = true := by
  have hpos := dyadic_false_pos e h
  cases neg
  · simp [hpos.le]
  · simpa [dyadic_true] using hpos

/-- Magnitudes in one unit compare as their counts of it. -/
theorem dyadic_le_iff {a b : Nat} {q : Int} : dyadic false a q ≤ dyadic false b q ↔ a ≤ b := by
  have htwo : (0 : ℚ) < (2 : ℚ) ^ q := by positivity
  rw [dyadic_false, dyadic_false, mul_le_mul_iff_left₀ htwo, Nat.cast_le]

theorem dyadic_lt_iff {a b : Nat} {q : Int} : dyadic false a q < dyadic false b q ↔ a < b := by
  rw [← not_le, dyadic_le_iff, not_le]

/-- The same number in a smaller unit. -/
theorem dyadic_shift (neg : Bool) (m k : Nat) (e : Int) : dyadic neg (m * 2 ^ k) (e - k) = dyadic neg m e := by
  rw [dyadic, dyadic, zpow_sub₀ two_ne_zero, zpow_natCast]
  push_cast
  field_simp

theorem dyadic_div_zpow (neg : Bool) (m : Nat) (e q : Int) : dyadic neg m e / (2 : ℚ) ^ q = dyadic neg m (e - q) := by
  rw [dyadic, dyadic, zpow_sub₀ two_ne_zero, mul_div_assoc]

/-- The exponent of the leading digit (R82). -/
theorem log_dyadic {m : Nat} (e : Int) (h : m ≠ 0) : Int.log 2 (dyadic false m e) = (Nat.log2 m : Int) + e := by
  have hpos := dyadic_false_pos e h
  have hlow : (2 : ℚ) ^ (Nat.log2 m) ≤ m := by exact_mod_cast Nat.log2_self_le h
  have hhigh : (m : ℚ) < 2 ^ (Nat.log2 m + 1) := by exact_mod_cast Nat.lt_log2_self
  have htwo : (0 : ℚ) < 2 ^ e := by positivity
  apply le_antisymm
  · rw [← Int.lt_add_one_iff, ← Int.lt_zpow_iff_log_lt one_lt_two hpos, dyadic_false,
      show (Nat.log2 m : Int) + e + 1 = ((Nat.log2 m + 1 : Nat) : Int) + e by push_cast; ring, Nat.cast_ofNat, zpow_add₀ two_ne_zero, zpow_natCast]
    exact mul_lt_mul_of_pos_right hhigh htwo
  · rw [← Int.zpow_le_iff_le_log one_lt_two hpos, dyadic_false, Nat.cast_ofNat, zpow_add₀ two_ne_zero, zpow_natCast]
    exact mul_le_mul_of_nonneg_right hlow htwo.le

/-! ## Rounding to whole units (R82) -/

/-- What is left over beside the whole units of a nonnegative number: none, below half, half, above half. -/
def Leftover (x : ℚ) (d r : Nat) : Prop :=
  (r = 0 ∧ x = d) ∨ (r = 1 ∧ (d : ℚ) < x ∧ x < d + 1 / 2) ∨ (r = 2 ∧ x = d + 1 / 2) ∨ (r = 3 ∧ (d : ℚ) + 1 / 2 < x ∧ x < d + 1)

theorem leftover_quantise (m : Nat) (e q : Int) : Leftover (dyadic false m (e - q)) (quantise m e q).1 (quantise m e q).2 := by
  rw [quantise]
  by_cases hle : q ≤ e
  · rw [if_pos hle]
    refine .inl ⟨rfl, ?_⟩
    rw [dyadic_false]
    obtain ⟨k, hk⟩ := Int.eq_ofNat_of_zero_le (sub_nonneg.2 hle)
    simp [hk]
  · rw [if_neg hle]
    obtain ⟨k, hk⟩ := Int.eq_ofNat_of_zero_le (sub_nonneg.2 (le_of_not_ge hle))
    have hk' : e - q = -(k : Int) := by omega
    have hpow : (0 : ℚ) < 2 ^ k := by positivity
    have hdiv : (m : ℚ) = 2 ^ k * (m / 2 ^ k : Nat) + (m % 2 ^ k : Nat) := by exact_mod_cast (Nat.div_add_mod m (2 ^ k)).symm
    have hmod : ((m % 2 ^ k : Nat) : ℚ) < 2 ^ k := by exact_mod_cast Nat.mod_lt m (Nat.two_pow_pos k)
    have hx : dyadic false m (e - q) = (m / 2 ^ k : Nat) + (m % 2 ^ k : Nat) / (2 : ℚ) ^ k := by
      rw [dyadic_false, hk', zpow_neg, zpow_natCast]
      field_simp
      linarith
    rw [hx]
    simp only [hk, Int.toNat_natCast]
    generalize m / 2 ^ k = d at *
    generalize m % 2 ^ k = r at *
    have hnonneg : (0 : ℚ) ≤ r := Nat.cast_nonneg r
    by_cases h0 : r = 0
    · exact .inl (by simp [h0])
    have hpos : (0 : ℚ) < r := by exact_mod_cast Nat.pos_of_ne_zero h0
    have hone : (r : ℚ) / 2 ^ k < 1 := (div_lt_one hpow).2 hmod
    have hgt : 0 < (r : ℚ) / 2 ^ k := by positivity
    by_cases h1 : 2 * r < 2 ^ k
    · have : (2 : ℚ) * r < 2 ^ k := by exact_mod_cast h1
      have hhalf : (r : ℚ) / 2 ^ k < 1 / 2 := by rw [div_lt_iff₀ hpow]; linarith
      exact .inr (.inl ⟨by simp [h0, h1], by linarith, by linarith⟩)
    by_cases h2 : 2 * r = 2 ^ k
    · have : (2 : ℚ) * r = 2 ^ k := by exact_mod_cast h2
      have hhalf : (r : ℚ) / 2 ^ k = 1 / 2 := by rw [div_eq_iff hpow.ne']; linarith
      exact .inr (.inr (.inl ⟨by simp [h0, h2], by rw [hhalf]⟩))
    · have : (2 : ℚ) ^ k < 2 * r := by exact_mod_cast (by omega : 2 ^ k < 2 * r)
      have hhalf : 1 / 2 < (r : ℚ) / 2 ^ k := by rw [lt_div_iff₀ hpow]; linarith
      exact .inr (.inr (.inr ⟨by simp [h0, h1, h2], by linarith, by linarith⟩))

theorem roundInt_intCast (mode : Rnd) (n : Int) : roundInt mode (n : ℚ) = n := by
  cases mode <;> simp [roundInt]

/-- What a number strictly between two integers rounds to. -/
theorem roundInt_between {y : ℚ} {n : Int} (hlow : (n : ℚ) < y) (hhigh : y < n + 1) (mode : Rnd) :
    roundInt mode y = match mode with
      | .rne => if y - n < 1 / 2 then n else if 1 / 2 < y - n then n + 1 else if n % 2 = 0 then n else n + 1
      | .rtz => if 0 ≤ y then n else n + 1
      | .rup => n + 1
      | .rdn => n := by
  have hfloor : ⌊y⌋ = n := Int.floor_eq_iff.2 ⟨hlow.le, hhigh⟩
  have hceil : ⌈y⌉ = n + 1 := Int.ceil_eq_iff.2 ⟨by push_cast; linarith, by push_cast; linarith⟩
  cases mode <;> simp only [roundInt, hfloor, hceil]

/-- A magnitude between two whole numbers of units rounds away where `roundsUp` says, whatever its sign. -/
theorem roundInt_inexact {x : ℚ} {d r : Nat} (h : Leftover x d r) (hr : r ≠ 0) (mode : Rnd) (neg : Bool) :
    roundInt mode ((if neg then -1 else 1) * x) = (if neg then -1 else 1) * ((if roundsUp mode neg d r then d + 1 else d : Nat) : Int) := by
  have hlow : (d : ℚ) < x := by obtain h | h | h | h := h <;> [exact absurd h.1 hr; skip; skip; skip] <;> linarith
  have hhigh : x < d + 1 := by obtain h | h | h | h := h <;> [exact absurd h.1 hr; skip; skip; skip] <;> linarith
  have hd : (0 : ℚ) ≤ d := Nat.cast_nonneg d
  cases neg
  · simp only [Bool.false_eq_true, if_false, one_mul]
    rw [roundInt_between (n := d) (by exact_mod_cast hlow) (by exact_mod_cast hhigh)]
    cases mode
    case rtz => simp [roundsUp]; linarith
    case rup => simp [roundsUp, hr]
    case rdn => simp [roundsUp]
    case rne =>
      obtain ⟨rfl, -⟩ | ⟨rfl, -, hx⟩ | ⟨rfl, hx⟩ | ⟨rfl, hx, -⟩ := h
      · exact absurd rfl hr
      · have : x - (d : Int) < 1 / 2 := by push_cast; linarith
        simp only [roundsUp, if_pos this]; rfl
      · have hhalf : x - (d : Int) = 1 / 2 := by push_cast; linarith
        simp only [roundsUp, hhalf, lt_irrefl, if_false]
        obtain hpar | hpar := Nat.mod_two_eq_zero_or_one d
        · simp [hpar, show (d : Int) % 2 = 0 by omega]
        · simp [hpar, show (d : Int) % 2 = 1 by omega]
      · have hgt : 1 / 2 < x - (d : Int) := by push_cast; linarith
        simp only [roundsUp, if_neg (not_lt.2 hgt.le), if_pos hgt]; rfl
  · simp only [if_true, neg_one_mul]
    rw [roundInt_between (n := -(d : Int) - 1) (by push_cast; linarith) (by push_cast; linarith)]
    cases mode
    case rtz => simp [roundsUp, show ¬ x ≤ 0 by linarith]
    case rup => simp [roundsUp]
    case rdn => simp [roundsUp, hr]; ring
    case rne =>
      obtain ⟨rfl, -⟩ | ⟨rfl, -, hx⟩ | ⟨rfl, hx⟩ | ⟨rfl, hx, -⟩ := h
      · exact absurd rfl hr
      · have hgt : 1 / 2 < -x - (-(d : Int) - 1 : Int) := by push_cast; linarith
        simp only [roundsUp, if_neg (not_lt.2 hgt.le), if_pos hgt]
        simp
      · have hhalf : -x - (-(d : Int) - 1 : Int) = 1 / 2 := by push_cast; linarith
        simp only [roundsUp, hhalf, lt_irrefl, if_false]
        obtain hpar | hpar := Nat.mod_two_eq_zero_or_one d
        · simp [hpar, show (-(d : Int) - 1) % 2 = 1 by omega]
        · simp [hpar, show (-(d : Int) - 1) % 2 = 0 by omega]; ring
      · have : -x - (-(d : Int) - 1 : Int) < 1 / 2 := by push_cast; linarith
        simp only [roundsUp, if_pos this]
        simp; ring

/-- The rounding of a magnitude with its sign is the rounding of R82. -/
theorem roundInt_leftover {x : ℚ} {d r : Nat} (h : Leftover x d r) (mode : Rnd) (neg : Bool) :
    roundInt mode ((if neg then -1 else 1) * x) = (if neg then -1 else 1) * ((if roundsUp mode neg d r then d + 1 else d : Nat) : Int) := by
  by_cases hr : r = 0
  · obtain ⟨-, rfl⟩ | h | h | h := h <;> [skip; omega; omega; omega]
    have hup : roundsUp mode neg d r = false := by cases mode <;> cases neg <;> simp [roundsUp, hr]
    have hcast : (if neg then -1 else 1 : ℚ) * d = (((if neg then -1 else 1) * d : Int) : ℚ) := by cases neg <;> simp
    rw [hup, hcast, roundInt_intCast]
    rfl
  · exact roundInt_inexact h hr mode neg

end Sys2Proof.Machine
end

section
/-! # Rounding into an IEEE-style format (R71, R82, R83) -/
namespace Sys2Proof.Machine

open Sys2Proof.Safety

/-- A format whose greatest exponent is for infinities and NaNs, and whose bias is its middle (R71). -/
structure Fmt.Ieee (f : Fmt) : Prop where
  fbits_pos : 1 ≤ f.fbits
  bias_pos : 1 ≤ f.bias
  exponents : 2 ^ f.ebits = 2 * f.bias + 2

theorem ieee_fp32 : fp32.Ieee := ⟨by decide, by decide, by decide⟩
theorem ieee_fp16 : fp16.Ieee := ⟨by decide, by decide, by decide⟩
theorem ieee_bf16 : bf16.Ieee := ⟨by decide, by decide, by decide⟩

/-! ## Magnitudes in whole units -/

theorem dyadic_eq_sign_mul (neg : Bool) (m : Nat) (e : Int) : dyadic neg m e = (if neg then -1 else 1) * dyadic false m e := by
  cases neg <;> simp [dyadic]

theorem roundInt_units (mode : Rnd) (neg : Bool) (m : Nat) (e q : Int) :
    roundInt mode (dyadic neg m e / (2 : ℚ) ^ q) = (if neg then -1 else 1) * ((roundUnits mode neg m e q).1 : Int) := by
  rw [dyadic_div_zpow, dyadic_eq_sign_mul]
  exact roundInt_leftover (leftover_quantise m e q) mode neg

/-- The rounded number, with its sign and unit. -/
theorem roundInt_units_mul (mode : Rnd) (neg : Bool) (m : Nat) (e q : Int) :
    roundInt mode (dyadic neg m e / (2 : ℚ) ^ q) * (2 : ℚ) ^ q = dyadic neg (roundUnits mode neg m e q).1 q := by
  rw [roundInt_units, dyadic]
  cases neg <;> push_cast <;> simp

/-- NX is set where the rounded number is another one (R83). -/
theorem roundUnits_snd (mode : Rnd) (neg : Bool) (m : Nat) (e q : Int) :
    (roundUnits mode neg m e q).2 = true ↔ dyadic neg (roundUnits mode neg m e q).1 q ≠ dyadic neg m e := by
  have htwo : (2 : ℚ) ^ q ≠ 0 := zpow_ne_zero q two_ne_zero
  have hback : dyadic neg m e = dyadic neg m (e - q) * (2 : ℚ) ^ q := by rw [← dyadic_div_zpow, div_mul_cancel₀ _ htwo]
  have hunits : dyadic neg (roundUnits mode neg m e q).1 q ≠ dyadic neg m e ↔ ((roundUnits mode neg m e q).1 : ℚ) ≠ dyadic false m (e - q) := by
    rw [hback, dyadic, dyadic_eq_sign_mul neg m, ne_eq, ne_eq, mul_left_inj' htwo]
    cases neg <;> simp
  have hleft := leftover_quantise m e q
  have hsnd : (roundUnits mode neg m e q).2 = ((quantise m e q).2 != 0) := rfl
  rw [hunits, hsnd, bne_iff_ne]
  simp only [roundUnits]
  generalize (quantise m e q).1 = d at *
  generalize (quantise m e q).2 = r at *
  generalize dyadic false m (e - q) = x at *
  obtain ⟨rfl, rfl⟩ | ⟨rfl, hlow, hhigh⟩ | ⟨rfl, hx⟩ | ⟨rfl, hlow, hhigh⟩ := hleft
  · have hup : roundsUp mode neg d 0 = false := by cases mode <;> cases neg <;> simp [roundsUp]
    simp [hup]
  all_goals
    refine ⟨fun _ => ?_, fun _ => by decide⟩
    split <;> push_cast <;> intro heq <;> linarith

/-- Rounding never passes a whole number of units above. -/
theorem roundUnits_le {mode : Rnd} {neg : Bool} {m : Nat} {e q : Int} {n : Nat} (h : dyadic false m e < dyadic false n q) :
    (roundUnits mode neg m e q).1 ≤ n := by
  have htwo : (0 : ℚ) < (2 : ℚ) ^ q := by positivity
  have hlt : dyadic false m (e - q) < n := by
    rw [← dyadic_div_zpow, div_lt_iff₀ htwo]; rwa [dyadic_false n] at h
  have hd : (quantise m e q).1 < n := by
    have : ((quantise m e q).1 : ℚ) < n := by
      obtain h | h | h | h := leftover_quantise m e q <;> linarith
    exact_mod_cast this
  simp only [roundUnits]
  split <;> omega

/-- Rounding never passes a whole number of units below. -/
theorem le_roundUnits {mode : Rnd} {neg : Bool} {m : Nat} {e q : Int} {n : Nat} (h : dyadic false n q ≤ dyadic false m e) :
    n ≤ (roundUnits mode neg m e q).1 := by
  have htwo : (0 : ℚ) < (2 : ℚ) ^ q := by positivity
  have hle : (n : ℚ) ≤ dyadic false m (e - q) := by
    rw [← dyadic_div_zpow, le_div_iff₀ htwo]; rwa [dyadic_false n] at h
  have hd : n ≤ (quantise m e q).1 := by
    have : (n : ℚ) < (quantise m e q).1 + 1 := by
      obtain h | h | h | h := leftover_quantise m e q <;> linarith
    exact Nat.lt_succ_iff.1 (by exact_mod_cast this)
  simp only [roundUnits]
  split <;> omega

theorem dyadic_two_pow (k : Nat) (q : Int) : dyadic false (2 ^ k) q = (2 : ℚ) ^ ((k : Int) + q) := by
  rw [dyadic_false, zpow_add₀ two_ne_zero, zpow_natCast]; push_cast; rfl

theorem dyadic_lt_two_zpow {m : Nat} {e : Int} (h : m ≠ 0) : dyadic false m e < (2 : ℚ) ^ ((Nat.log2 m : Int) + e + 1) := by
  have := Int.lt_zpow_succ_log_self (b := 2) one_lt_two (dyadic false m e)
  rwa [log_dyadic e h] at this

theorem two_zpow_le_dyadic {m : Nat} {e : Int} (h : m ≠ 0) : (2 : ℚ) ^ ((Nat.log2 m : Int) + e) ≤ dyadic false m e := by
  have := Int.zpow_log_le_self (b := 2) one_lt_two (dyadic_false_pos e h)
  rwa [log_dyadic e h] at this

/-- A number rounded to `n + 1` digits or fewer stays within them, or becomes the next power of two. -/
theorem roundUnits_le_two_pow {mode : Rnd} {neg : Bool} {m : Nat} {e q : Int} {n : Nat} (h : m ≠ 0) (hq : (Nat.log2 m : Int) + e - n ≤ q) :
    (roundUnits mode neg m e q).1 ≤ 2 ^ (n + 1) := by
  refine roundUnits_le ((dyadic_lt_two_zpow h).trans_le ?_)
  rw [dyadic_two_pow]
  exact zpow_le_zpow_right₀ one_le_two (by push_cast; omega)

theorem two_pow_le_roundUnits {mode : Rnd} {neg : Bool} {m : Nat} {e q : Int} {n : Nat} (h : m ≠ 0) (hq : q ≤ (Nat.log2 m : Int) + e - n) :
    2 ^ n ≤ (roundUnits mode neg m e q).1 := by
  refine le_roundUnits (le_trans ?_ (two_zpow_le_dyadic h))
  rw [dyadic_two_pow]
  exact zpow_le_zpow_right₀ one_le_two (by omega)

/-! ## The codes of a format (R71) -/

theorem signBit_eq (f : Fmt) (neg : Bool) : f.signBit neg = neg.toNat * 2 ^ f.ebits * 2 ^ f.fbits := by
  cases neg <;> simp [Fmt.signBit, pow_add]

/-- The three fields of a code. -/
theorem code_fields (f : Fmt) (neg : Bool) {x fr : Nat} (hx : x < 2 ^ f.ebits) (hfr : fr < 2 ^ f.fbits) :
    (f.signBit neg + x * 2 ^ f.fbits + fr).testBit (f.ebits + f.fbits) = neg ∧
      (f.signBit neg + x * 2 ^ f.fbits + fr) / 2 ^ f.fbits % 2 ^ f.ebits = x ∧
      (f.signBit neg + x * 2 ^ f.fbits + fr) % 2 ^ f.fbits = fr := by
  have hcode : f.signBit neg + x * 2 ^ f.fbits + fr = 2 ^ f.fbits * (2 ^ f.ebits * neg.toNat + x) + fr := by rw [signBit_eq]; ring
  have hdiv : (2 ^ f.fbits * (2 ^ f.ebits * neg.toNat + x) + fr) / 2 ^ f.fbits = 2 ^ f.ebits * neg.toNat + x := by
    rw [Nat.mul_add_div (Nat.two_pow_pos _), Nat.div_eq_of_lt hfr, Nat.add_zero]
  rw [hcode]
  refine ⟨?_, ?_, ?_⟩
  · rw [Nat.testBit_eq_decide_div_mod_eq, Nat.add_comm f.ebits, pow_add, ← Nat.div_div_eq_div_mul, hdiv,
      Nat.mul_add_div (Nat.two_pow_pos _), Nat.div_eq_of_lt hx]
    cases neg <;> rfl
  · rw [hdiv, Nat.mul_add_mod, Nat.mod_eq_of_lt hx]
  · rw [Nat.mul_add_mod, Nat.mod_eq_of_lt hfr]

/-- The number of a code, by its three fields (R71). -/
theorem read_fields {f : Fmt} (neg : Bool) {x fr : Nat} (hx : x < 2 ^ f.ebits) (hfr : fr < 2 ^ f.fbits) :
    f.read (f.signBit neg + x * 2 ^ f.fbits + fr) =
      if x = 2 ^ f.ebits - 1 then (if fr = 0 then .inf neg else .nan (!fr.testBit (f.fbits - 1)))
      else if x = 0 then .fin neg fr (1 - (f.bias : Int) - f.fbits)
      else .fin neg (2 ^ f.fbits + fr) ((x : Int) - f.bias - f.fbits) := by
  obtain ⟨hneg, hexp, hfrac⟩ := code_fields f neg hx hfr
  simp only [Fmt.read, hneg, hexp, hfrac]

/-- The code of `d` units, `k` binades above the least ones, has these fields. -/
theorem code_eq_fields (f : Fmt) (neg : Bool) (d k : Nat) :
    f.signBit neg + d + k * 2 ^ f.fbits = f.signBit neg + (k + d / 2 ^ f.fbits) * 2 ^ f.fbits + d % 2 ^ f.fbits := by
  have := Nat.div_add_mod d (2 ^ f.fbits)
  conv_lhs => rw [← this]
  ring

/-- The code of `d` units, `k` binades above the least ones, reads as that number. -/
theorem read_code {f : Fmt} (neg : Bool) {d k : Nat} (hd : d < 2 ^ (f.fbits + 1)) (hk : k = 0 ∨ 2 ^ f.fbits ≤ d)
    (htop : k + d / 2 ^ f.fbits < 2 ^ f.ebits - 1) :
    f.read (f.signBit neg + d + k * 2 ^ f.fbits) = .fin neg d (1 - (f.bias : Int) - f.fbits + k) := by
  have hmod := Nat.div_add_mod d (2 ^ f.fbits)
  rw [code_eq_fields, read_fields neg (htop.trans_le (Nat.sub_le ..)) (Nat.mod_lt _ (Nat.two_pow_pos _)), if_neg htop.ne]
  by_cases hsmall : d < 2 ^ f.fbits
  · have hdiv := Nat.div_eq_of_lt hsmall
    obtain rfl : k = 0 := by omega
    rw [if_pos (by omega), Nat.mod_eq_of_lt hsmall]
    simp
  · have hdiv : d / 2 ^ f.fbits = 1 := Nat.div_eq_of_lt_le (by omega) (by rw [pow_succ] at hd; omega)
    rw [hdiv] at hmod ⊢
    rw [if_neg (by omega)]
    congr 1
    · omega
    · push_cast; ring

/-- Codes with an exponent of the format's width have the format's width. -/
theorem code_lt (f : Fmt) (neg : Bool) {d k : Nat} (htop : k + d / 2 ^ f.fbits < 2 ^ f.ebits) :
    f.signBit neg + d + k * 2 ^ f.fbits < 2 ^ (f.ebits + f.fbits + 1) := by
  have hmod : d % 2 ^ f.fbits < 2 ^ f.fbits := Nat.mod_lt _ (Nat.two_pow_pos _)
  have hsign : neg.toNat ≤ 1 := Bool.toNat_le neg
  rw [code_eq_fields, signBit_eq, pow_succ, pow_add]
  generalize k + d / 2 ^ f.fbits = x at *
  generalize d % 2 ^ f.fbits = r at *
  generalize 2 ^ f.fbits = F at *
  generalize 2 ^ f.ebits = E at *
  have hx : (x + 1) * F ≤ E * F := Nat.mul_le_mul_right F htop
  have hneg : neg.toNat * (E * F) ≤ 1 * (E * F) := Nat.mul_le_mul_right _ hsign
  nlinarith

theorem read_infCode {f : Fmt} (neg : Bool) : f.read (f.infCode neg) = .inf neg := by
  have hE : 0 < 2 ^ f.ebits := Nat.two_pow_pos _
  have h := read_fields (f := f) neg (x := 2 ^ f.ebits - 1) (fr := 0) (by omega) (Nat.two_pow_pos _)
  rwa [if_pos rfl, if_pos rfl, Nat.add_zero] at h

end Sys2Proof.Machine
end

section
/-! # One rounding gives what R82 and R83 say -/
namespace Sys2Proof.Machine

open Sys2Proof.Safety

/-- The exponent of a unit in the last place of a number in a format (R82). -/
def Fmt.unitExp (f : Fmt) (m : Nat) (e : Int) : Int := max ((Nat.log2 m : Int) + e) (1 - (f.bias : Int)) - f.fbits

/-- A nonzero number in whole units of a format, rounded (R82). -/
theorem roundRat_dyadic (f : Fmt) (mode : Rnd) (neg : Bool) {m : Nat} (e : Int) (h : m ≠ 0) :
    roundRat f mode (dyadic neg m e) = dyadic neg (roundUnits mode neg m e (f.unitExp m e)).1 (f.unitExp m e) := by
  rw [← roundInt_units_mul, Fmt.unitExp, ← log_dyadic e h, ← abs_dyadic neg]
  rfl

/-- A nonzero number rounded to the digits of a format, whatever its exponent. -/
theorem roundWide_dyadic (f : Fmt) (mode : Rnd) (neg : Bool) {m : Nat} (e : Int) (h : m ≠ 0) :
    roundWide f mode (dyadic neg m e) =
      dyadic neg (roundUnits mode neg m e ((Nat.log2 m : Int) + e - f.fbits)).1 ((Nat.log2 m : Int) + e - f.fbits) := by
  rw [← roundInt_units_mul, ← log_dyadic e h, ← abs_dyadic neg]
  rfl

/-- What is tiny after rounding (R83): a number below the least exponent, unless it is carried up to it. -/
theorem tiny_iff (f : Fmt) (mode : Rnd) (neg : Bool) {m : Nat} {e : Int} (h : m ≠ 0) :
    |roundWide f mode (dyadic neg m e)| < (2 : ℚ) ^ (1 - (f.bias : Int)) ↔
      (Nat.log2 m : Int) + e < 1 - (f.bias : Int) ∧ ¬ ((Nat.log2 m : Int) + e + 1 = 1 - (f.bias : Int) ∧
        2 ^ (f.fbits + 1) ≤ (roundUnits mode neg m e ((Nat.log2 m : Int) + e - f.fbits)).1) := by
  have hlow : 2 ^ f.fbits ≤ _ := two_pow_le_roundUnits (mode := mode) (neg := neg) (e := e) (n := f.fbits) h le_rfl
  have hhigh : _ ≤ 2 ^ (f.fbits + 1) := roundUnits_le_two_pow (mode := mode) (neg := neg) (e := e) (n := f.fbits) h le_rfl
  rw [roundWide_dyadic f mode neg e h, abs_dyadic]
  generalize (roundUnits mode neg m e ((Nat.log2 m : Int) + e - f.fbits)).1 = d at *
  generalize (Nat.log2 m : Int) + e = top at *
  have hge : (2 : ℚ) ^ top ≤ dyadic false d (top - f.fbits) := by
    refine le_trans (le_of_eq ?_) (dyadic_le_iff.2 hlow)
    rw [dyadic_two_pow]; congr 1; omega
  have hle : dyadic false d (top - f.fbits) ≤ (2 : ℚ) ^ (top + 1) := by
    refine (dyadic_le_iff.2 hhigh).trans (le_of_eq ?_)
    rw [dyadic_two_pow]; congr 1; push_cast; omega
  constructor
  · intro hlt
    have htop : top < 1 - (f.bias : Int) := (zpow_lt_zpow_iff_right₀ one_lt_two).1 (hge.trans_lt hlt)
    refine ⟨htop, fun ⟨hnext, hfull⟩ => absurd hlt (not_lt.2 ?_)⟩
    refine le_trans (le_of_eq ?_) (dyadic_le_iff.2 hfull)
    rw [dyadic_two_pow]; congr 1; push_cast; omega
  · rintro ⟨htop, hcarry⟩
    by_cases hnext : top + 1 = 1 - (f.bias : Int)
    · have hd : d < 2 ^ (f.fbits + 1) := by by_contra hd; exact hcarry ⟨hnext, not_lt.1 hd⟩
      rw [← hnext, show top + 1 = ((f.fbits + 1 : Nat) : Int) + (top - f.fbits) by push_cast; ring, ← dyadic_two_pow]
      exact dyadic_lt_iff.2 hd
    · exact hle.trans_lt ((zpow_lt_zpow_iff_right₀ one_lt_two).2 (by omega))

/-- Overflow (R82, R83), by the digits and the unit of the rounded number. -/
theorem overflow_iff {f : Fmt} {d : Nat} {q : Int} (hd : d < 2 ^ (f.fbits + 1)) (hf : f.Ieee) (hunit : 2 ^ f.fbits ≤ d ∨ q = 1 - (f.bias : Int) - f.fbits) :
    (2 : ℚ) ^ (f.bias + 1) ≤ dyadic false d q ↔ (f.bias : Int) < q + f.fbits ∧ 2 ^ f.fbits ≤ d := by
  have hcast : (2 : ℚ) ^ (f.bias + 1) = (2 : ℚ) ^ ((f.bias : Int) + 1) := by rw [← zpow_natCast]; push_cast; rfl
  have hlt : dyadic false d q < (2 : ℚ) ^ (((f.fbits + 1 : Nat) : Int) + q) := by
    rw [← dyadic_two_pow]
    exact dyadic_lt_iff.2 hd
  rw [hcast]
  constructor
  · intro hle
    have hexp := (zpow_lt_zpow_iff_right₀ (one_lt_two (α := ℚ))).1 (hle.trans_lt hlt)
    have hbias := hf.bias_pos
    push_cast at hexp
    exact ⟨by omega, hunit.resolve_right (by omega)⟩
  · rintro ⟨hq, hfull⟩
    refine le_trans ?_ (dyadic_le_iff.2 hfull)
    rw [dyadic_two_pow]
    exact zpow_le_zpow_right₀ one_le_two (by omega)

/-- The code and the flags of `d` units 2^q, where something was left over (`nx`) and the number was tiny. -/
def Fmt.codeOf (f : Fmt) (mode : Rnd) (neg : Bool) (d : Nat) (q : Int) (nx tiny : Bool) : Nat × FFlags :=
  if (f.bias : Int) < q + f.fbits && 2 ^ f.fbits ≤ d then
    (if (match mode with | .rne => true | .rtz => false | .rup => !neg | .rdn => neg) then f.infCode neg else f.infCode neg - 1,
      flagOF ||| flagNX)
  else (f.signBit neg + d + (q - (1 - (f.bias : Int) - f.fbits)).toNat * 2 ^ f.fbits, flagIf nx flagNX ||| flagIf (tiny && nx) flagUF)

/-- Whether a number is tiny after rounding, as the model finds it (R83). -/
def Fmt.tiny (f : Fmt) (mode : Rnd) (neg : Bool) (m : Nat) (e : Int) : Bool :=
  decide ((Nat.log2 m : Int) + e < 1 - (f.bias : Int)) && !((Nat.log2 m : Int) + e + 1 = 1 - (f.bias : Int) &&
    2 ^ (f.fbits + 1) ≤ (roundUnits mode neg m e ((Nat.log2 m : Int) + e - f.fbits)).1)

/-- Rounding: the digits in units of the format, and one binade up where they are carried there. -/
theorem round_eq_codeOf (f : Fmt) (mode : Rnd) (neg : Bool) {m : Nat} (e : Int) (h : m ≠ 0) :
    f.round mode neg m e =
      if 2 ^ (f.fbits + 1) ≤ (roundUnits mode neg m e (f.unitExp m e)).1 then
        f.codeOf mode neg ((roundUnits mode neg m e (f.unitExp m e)).1 / 2) (f.unitExp m e + 1)
          (roundUnits mode neg m e (f.unitExp m e)).2 (f.tiny mode neg m e)
      else f.codeOf mode neg (roundUnits mode neg m e (f.unitExp m e)).1 (f.unitExp m e)
          (roundUnits mode neg m e (f.unitExp m e)).2 (f.tiny mode neg m e) := by
  unfold Fmt.round
  rw [if_neg h]
  simp only [Fmt.unitExp]
  split
  · next hcarry => exact (if_pos hcarry).symm
  · next hcarry => exact (if_neg hcarry).symm

/-- A rounded number below overflow has an exponent below that of the infinities. -/
theorem exponent_lt {f : Fmt} (hf : f.Ieee) {d k : Nat} {q : Int} (hd : d < 2 ^ (f.fbits + 1)) (hk : q = 1 - (f.bias : Int) - f.fbits + k)
    (hunit : 2 ^ f.fbits ≤ d ∨ k = 0) (hbig : ¬ ((f.bias : Int) < q + f.fbits ∧ 2 ^ f.fbits ≤ d)) :
    k + d / 2 ^ f.fbits < 2 ^ f.ebits - 1 := by
  have hexp := hf.exponents
  have hbias := hf.bias_pos
  have hdiv : d / 2 ^ f.fbits ≤ 1 := Nat.lt_succ_iff.1 (Nat.div_lt_of_lt_mul (by rwa [pow_succ] at hd))
  by_cases h : d < 2 ^ f.fbits
  · have := Nat.div_eq_of_lt h
    omega
  · omega

/-- The code of a rounded number gives what the exact number gives. -/
theorem codeOf_gives {f : Fmt} (hf : f.Ieee) (mode : Rnd) {neg : Bool} {m d : Nat} {e q : Int} {nx : Bool} (hm : m ≠ 0)
    (hd : d < 2 ^ (f.fbits + 1)) (hq : 1 - (f.bias : Int) - f.fbits ≤ q) (hunit : 2 ^ f.fbits ≤ d ∨ q = 1 - (f.bias : Int) - f.fbits)
    (hround : roundRat f mode (dyadic neg m e) = dyadic neg d q) (hnx : nx = true ↔ dyadic neg d q ≠ dyadic neg m e) :
    (Exact.val (dyadic neg m e) neg).Gives f mode (f.codeOf mode neg d q nx (f.tiny mode neg m e)).1
      (f.codeOf mode neg d q nx (f.tiny mode neg m e)).2 := by
  have hover := overflow_iff hd hf hunit
  have hneg : decide (dyadic neg m e < 0) = neg := by rw [Bool.eq_iff_iff, decide_eq_true_iff]; exact dyadic_neg_iff e hm
  have hsign : (if dyadic neg m e < 0 then -1 else 1 : ℚ) = if neg then -1 else 1 := if_congr (dyadic_neg_iff e hm) rfl rfl
  simp only [Exact.Gives, if_neg (mt dyadic_eq_zero_iff.1 hm), hround, abs_dyadic, hneg, hsign]
  by_cases hbig : (f.bias : Int) < q + f.fbits ∧ 2 ^ f.fbits ≤ d
  · have hcode : ((f.bias : Int) < q + f.fbits && 2 ^ f.fbits ≤ d) = true := by simpa using hbig
    rw [if_neg (not_lt.2 (hover.2 hbig))]
    simp only [Fmt.codeOf, hcode, if_true]
    refine ⟨?_, trivial⟩
    have hpos : 0 < dyadic neg m e ↔ neg = false := by
      have := dyadic_neg_iff (neg := neg) e hm
      have hne := mt (dyadic_eq_zero_iff (neg := neg) (e := e)).1 hm
      cases neg
      · simpa using lt_of_le_of_ne (not_lt.1 (by simpa using this)) (Ne.symm hne)
      · simpa using (this.2 rfl).le
    have hlt : dyadic neg m e < 0 ↔ neg = true := dyadic_neg_iff e hm
    cases mode <;> cases neg <;> simp [hpos, hlt]
  · have hcode : ((f.bias : Int) < q + f.fbits && 2 ^ f.fbits ≤ d) = false := by simpa using hbig
    rw [if_pos (not_le.1 (mt hover.1 hbig))]
    simp only [Fmt.codeOf, hcode, Bool.false_eq_true, if_false]
    refine ⟨⟨d, q, ?_, rfl⟩, ?_⟩
    · obtain ⟨k, hk⟩ := Int.eq_ofNat_of_zero_le (sub_nonneg.2 hq)
      have hk' : q = 1 - (f.bias : Int) - f.fbits + k := by omega
      have hk0 : 2 ^ f.fbits ≤ d ∨ k = 0 := hunit.imp_right fun h => by omega
      rw [hk, Int.toNat_natCast, read_code neg hd hk0.symm (exponent_lt hf hd hk' hk0 hbig), ← hk']
    · have hnx' : nx = decide (dyadic neg d q ≠ dyadic neg m e) := by rw [Bool.eq_iff_iff, hnx, decide_eq_true_iff]
      have htiny := tiny_iff f mode neg (e := e) hm
      have htiny' : f.tiny mode neg m e = decide (|roundWide f mode (dyadic neg m e)| < (2 : ℚ) ^ (1 - (f.bias : Int))) := by
        rw [Bool.eq_iff_iff, decide_eq_true_iff, htiny]
        simp [Fmt.tiny, imp_iff_not_or]
      rw [htiny', hnx', Bool.decide_and]

/-- What Round gives, and the bounds of the code: the digits and the unit it settles on. -/
theorem exists_codeOf (f : Fmt) (mode : Rnd) (neg : Bool) {m : Nat} (e : Int) (hm : m ≠ 0) :
    ∃ d q nx, f.round mode neg m e = f.codeOf mode neg d q nx (f.tiny mode neg m e) ∧ d < 2 ^ (f.fbits + 1) ∧
      1 - (f.bias : Int) - f.fbits ≤ q ∧ (2 ^ f.fbits ≤ d ∨ q = 1 - (f.bias : Int) - f.fbits) ∧
      roundRat f mode (dyadic neg m e) = dyadic neg d q ∧ (nx = true ↔ dyadic neg d q ≠ dyadic neg m e) := by
  have hunits := roundUnits_le_two_pow (mode := mode) (neg := neg) (e := e) (q := f.unitExp m e) (n := f.fbits) hm (by
    rw [Fmt.unitExp]; omega)
  have hround := roundRat_dyadic f mode neg e hm
  have hnx := roundUnits_snd mode neg m e (f.unitExp m e)
  have hq : 1 - (f.bias : Int) - f.fbits ≤ f.unitExp m e := by rw [Fmt.unitExp]; omega
  rw [round_eq_codeOf f mode neg e hm]
  by_cases hcarry : 2 ^ (f.fbits + 1) ≤ (roundUnits mode neg m e (f.unitExp m e)).1
  · have hfull := le_antisymm hunits hcarry
    have hhalf : (roundUnits mode neg m e (f.unitExp m e)).1 / 2 = 2 ^ f.fbits := by rw [hfull, pow_succ, Nat.mul_div_cancel _ two_pos]
    have hsame : dyadic neg (2 ^ f.fbits) (f.unitExp m e + 1) = dyadic neg (roundUnits mode neg m e (f.unitExp m e)).1 (f.unitExp m e) := by
      rw [hfull, ← dyadic_shift neg (2 ^ f.fbits) 1, pow_one, pow_succ]; congr 1; push_cast; ring
    rw [if_pos hcarry, hhalf]
    exact ⟨_, _, _, rfl, Nat.pow_lt_pow_right one_lt_two (by omega), by omega, .inl le_rfl, hround.trans hsame.symm, by rw [hsame]; exact hnx⟩
  · rw [if_neg hcarry]
    refine ⟨_, _, _, rfl, not_le.1 hcarry, hq, ?_, hround, hnx⟩
    by_cases htop : 1 - (f.bias : Int) ≤ (Nat.log2 m : Int) + e
    · exact .inl (two_pow_le_roundUnits hm (by rw [Fmt.unitExp]; omega))
    · exact .inr (by rw [Fmt.unitExp]; omega)

/-- Round (R82, R83): the code and the flags of an exact number rounded once. -/
theorem round_gives {f : Fmt} (hf : f.Ieee) (mode : Rnd) (neg : Bool) (m : Nat) (e : Int) :
    (Exact.val (dyadic neg m e) neg).Gives f mode (f.round mode neg m e).1 (f.round mode neg m e).2 := by
  by_cases hm : m = 0
  · subst hm
    simp [Fmt.round, Exact.Gives, dyadic]
  · obtain ⟨d, q, nx, hcode, hd, hq, hunit, hround, hnx⟩ := exists_codeOf f mode neg e hm
    rw [hcode]
    exact codeOf_gives hf mode hm hd hq hunit hround hnx

theorem infCode_lt (f : Fmt) (neg : Bool) : f.infCode neg < 2 ^ (f.ebits + f.fbits + 1) := by
  have hE : 0 < 2 ^ f.ebits := Nat.two_pow_pos _
  have h := code_lt f neg (d := 0) (k := 2 ^ f.ebits - 1) (by rw [Nat.zero_div]; omega)
  rwa [Nat.add_zero] at h

/-- A rounded code has the format's width. -/
theorem round_lt {f : Fmt} (hf : f.Ieee) (mode : Rnd) (neg : Bool) (m : Nat) (e : Int) :
    (f.round mode neg m e).1 < 2 ^ (f.ebits + f.fbits + 1) := by
  by_cases hm : m = 0
  · have h := code_lt f neg (d := 0) (k := 0) (by rw [Nat.zero_div]; exact Nat.two_pow_pos _)
    simpa [Fmt.round, hm] using h
  · obtain ⟨d, q, nx, hcode, hd, hq, hunit, -, -⟩ := exists_codeOf f mode neg e hm
    have hinf (away : Bool) : (if away then f.infCode neg else f.infCode neg - 1) < 2 ^ (f.ebits + f.fbits + 1) := by
      have := infCode_lt f neg
      split <;> omega
    rw [hcode]
    unfold Fmt.codeOf
    split
    · exact hinf _
    · rename_i hbig
      obtain ⟨k, hk⟩ := Int.eq_ofNat_of_zero_le (sub_nonneg.2 hq)
      have hk' : q = 1 - (f.bias : Int) - f.fbits + k := by omega
      rw [hk, Int.toNat_natCast]
      exact code_lt f neg ((exponent_lt hf hd hk' (hunit.imp_right fun h => by omega) (by simpa using hbig)).trans_le (Nat.sub_le ..))

end Sys2Proof.Machine
end

section
/-! # Float operands and their exact results (R72, R82, R83): sums, products and negations, and one rounding of each -/
namespace Sys2Proof.Machine

open Sys2Proof.Safety

/-! ## Flags -/

@[simp] theorem flagIf_true (f : FFlags) : flagIf true f = f := rfl
@[simp] theorem flagIf_false (f : FFlags) : flagIf false f = 0 := rfl

@[simp] theorem flags_zero_or (f : FFlags) : 0 ||| f = f := BitVec.zero_or
@[simp] theorem flags_or_zero (f : FFlags) : f ||| 0 = f := BitVec.or_zero

@[simp] theorem flagIf_or (a b : Bool) (f : FFlags) : flagIf a f ||| flagIf b f = flagIf (a || b) f := by cases a <;> cases b <;> simp

/-! ## A number of the machine and the exact value it stands for -/

/-- The machine's number `z` and flags `fl` stand for an exact result: a NaN has NV where the result is invalid; otherwise no flag is set, and the sign of a
zero is the result's. -/
def Stands (t : Exact) (z : FNum) (fl : FFlags) : Prop :=
  match t with
  | .nan nv => z.isNan = true ∧ fl = flagIf nv flagNV
  | .inf n dz => z = .inf n ∧ dz = false ∧ fl = 0
  | .val q n => (∃ m e, z = .fin (Exact.val q n).sign m e ∧ q = dyadic (Exact.val q n).sign m e) ∧ fl = 0

theorem sign_val_dyadic (neg : Bool) (m : Nat) (e : Int) : (Exact.val (dyadic neg m e) neg).sign = neg := by
  by_cases hm : m = 0
  · simp [Exact.sign, dyadic_eq_zero_iff, hm]
  · rw [Exact.sign, if_neg (mt dyadic_eq_zero_iff.1 hm), Bool.eq_iff_iff, decide_eq_true_iff]
    exact dyadic_neg_iff e hm

theorem stands_val {neg n : Bool} {m : Nat} {e : Int} (hsign : (Exact.val (dyadic neg m e) n).sign = neg) :
    Stands (.val (dyadic neg m e) n) (.fin neg m e) 0 := ⟨⟨m, e, by rw [hsign], by rw [hsign]⟩, rfl⟩

theorem stands_of (x : FNum) : Stands (.of x) x x.snan := by
  cases x with
  | nan sig => exact ⟨rfl, by cases sig <;> rfl⟩
  | inf n => exact ⟨rfl, rfl, rfl⟩
  | fin n m e => exact stands_val (sign_val_dyadic n m e)

theorem stands_neg {t : Exact} {z : FNum} {fl : FFlags} (h : Stands t z fl) : Stands t.neg z.neg fl := by
  match t, h with
  | .nan nv, ⟨hz, hfl⟩ => exact ⟨by cases z <;> simp_all [FNum.neg, FNum.isNan], hfl⟩
  | .inf n dz, ⟨hz, hdz, hfl⟩ => exact ⟨by rw [hz]; rfl, hdz, hfl⟩
  | .val q n, ⟨⟨m, e, hz, hq⟩, hfl⟩ =>
    generalize hs : (Exact.val q n).sign = s at hz hq
    have hneg : -q = dyadic (!s) m e := by rw [hq]; cases s <;> simp [dyadic]
    have hsign : (Exact.val (-q) (!n)).sign = !s := by
      rw [← hs]
      by_cases h0 : q = 0
      · simp [Exact.sign, h0]
      · simp only [Exact.sign, h0, neg_eq_zero, if_false, Left.neg_neg_iff]
        obtain h | h := lt_or_gt_of_ne h0 <;> simp [h, h.not_gt]
    exact ⟨⟨m, e, by rw [hz, hsign]; rfl, by rw [hsign, hneg]⟩, hfl⟩

/-! ## Products -/

theorem dyadic_mul (a b : Bool) (m k : Nat) (e f : Int) : dyadic a m e * dyadic b k f = dyadic (a != b) (m * k) (e + f) := by
  simp only [dyadic, zpow_add₀ (two_ne_zero (α := ℚ))]
  cases a <;> cases b <;> push_cast <;> simp <;> ring

/-- The sign of a product. -/
theorem sign_mul (p q : ℚ) (a b : Bool) :
    (Exact.val (p * q) ((Exact.val p a).sign ^^ (Exact.val q b).sign)).sign = ((Exact.val p a).sign ^^ (Exact.val q b).sign) := by
  by_cases hp : p = 0
  · simp [Exact.sign, hp]
  by_cases hq : q = 0
  · simp [Exact.sign, hq]
  obtain hp | hp := lt_or_gt_of_ne hp <;> obtain hq | hq := lt_or_gt_of_ne hq
  · simp [Exact.sign, hp.ne, hq.ne, hp, hq, (mul_pos_of_neg_of_neg hp hq).le]
  · simp [Exact.sign, hp.ne, hq.ne', hp, hq.le, mul_neg_of_neg_of_pos hp hq]
  · simp [Exact.sign, hp.ne', hq.ne, hp.le, hq, mul_neg_of_pos_of_neg hp hq]
  · simp [Exact.sign, hp.ne', hq.ne', hp.not_gt, hq.not_gt, (mul_pos hp hq).not_gt]

theorem mulNum_nan_left {z : FNum} (w : FNum) (h : z.isNan = true) : mulNum z w = (.nan false, 0) := by
  cases z <;> simp_all [FNum.isNan, mulNum]

theorem mulNum_nan_right (z : FNum) {w : FNum} (h : w.isNan = true) : mulNum z w = (.nan false, 0) := by
  cases z <;> cases w <;> simp_all [FNum.isNan, mulNum]

theorem stands_mul {t u : Exact} {z w : FNum} {fl gl : FFlags} (h : Stands t z fl) (h' : Stands u w gl) :
    Stands (t.mul u) (mulNum z w).1 (fl ||| gl ||| (mulNum z w).2) := by
  match t, u, h, h' with
  | .nan a, .nan b, ⟨hz, hfl⟩, ⟨hw, hgl⟩ =>
    rw [mulNum_nan_left w hz, hfl, hgl]
    exact ⟨rfl, by simp⟩
  | .nan a, .inf n dz, ⟨hz, hfl⟩, ⟨hw, hdz, hgl⟩ =>
    rw [mulNum_nan_left w hz, hfl, hgl]
    exact ⟨rfl, by simp⟩
  | .nan a, .val q n, ⟨hz, hfl⟩, ⟨hw, hgl⟩ =>
    rw [mulNum_nan_left w hz, hfl, hgl]
    exact ⟨rfl, by simp⟩
  | .inf n dz, .nan b, ⟨hz, hdz, hfl⟩, ⟨hw, hgl⟩ =>
    rw [mulNum_nan_right z hw, hfl, hgl]
    exact ⟨rfl, by simp⟩
  | .val q n, .nan b, ⟨hz, hfl⟩, ⟨hw, hgl⟩ =>
    rw [mulNum_nan_right z hw, hfl, hgl]
    exact ⟨rfl, by simp⟩
  | .inf n dz, .inf n' dz', ⟨hz, hdz, hfl⟩, ⟨hw, hdz', hgl⟩ =>
    subst hz hfl hw hgl
    exact ⟨by cases n <;> cases n' <;> rfl, rfl, by simp [mulNum]⟩
  | .inf n dz, .val q b, ⟨hz, hdz, hfl⟩, ⟨⟨m, e, hw, hq⟩, hgl⟩ =>
    subst hz hfl hw hgl
    have hzero : q = 0 ↔ m = 0 := by rw [hq]; exact dyadic_eq_zero_iff
    by_cases hm : m = 0
    · simp [Exact.mul, hzero, hm, mulNum, Stands, FNum.isNan]
    · simp [Exact.mul, hzero, hm, mulNum, Stands]
  | .val q b, .inf n dz, ⟨⟨m, e, hz, hq⟩, hfl⟩, ⟨hw, hdz, hgl⟩ =>
    subst hz hfl hw hgl
    have hzero : q = 0 ↔ m = 0 := by rw [hq]; exact dyadic_eq_zero_iff
    by_cases hm : m = 0
    · simp [Exact.mul, hzero, hm, mulNum, Stands, FNum.isNan]
    · simp [Exact.mul, hzero, hm, mulNum, Stands]
  | .val p a, .val q b, ⟨⟨m, e, hz, hp⟩, hfl⟩, ⟨⟨k, f, hw, hq⟩, hgl⟩ =>
    subst hz hfl hw hgl
    refine ⟨⟨m * k, e + f, ?_, ?_⟩, by simp [mulNum]⟩
    · rw [sign_mul]; simp [mulNum]
    · rw [sign_mul]
      conv_lhs => rw [hp, hq, dyadic_mul]

/-! ## Sums -/

/-- A finite sum: the exact value, and the sign of a zero (R82). -/
theorem addFin_eq (mode : Rnd) (a b : Bool) (m k : Nat) (e f : Int) : ∃ s n g, addFin mode a m e b k f = .fin s n g ∧
    dyadic a m e + dyadic b k f = dyadic s n g ∧ s = (Exact.val (dyadic a m e + dyadic b k f) (if a = b then a else decide (mode = .rdn))).sign := by
  have hunit (s : Bool) (m : Nat) {e g : Int} (h : g ≤ e) :
      dyadic s m e = (((if s then -1 else 1) * (m * 2 ^ (e - g).toNat : Nat) : Int) : ℚ) * (2 : ℚ) ^ g := by
    obtain ⟨j, hj⟩ := Int.eq_ofNat_of_zero_le (sub_nonneg.2 h)
    rw [hj, Int.toNat_natCast, ← dyadic_shift s m j, show e - (j : Int) = g by omega, dyadic]
    cases s <;> push_cast <;> simp
  have hsum := congrArg₂ (· + ·) (hunit a m (min_le_left e f)) (hunit b k (min_le_right e f))
  simp only [← add_mul, ← Int.cast_add] at hsum
  simp only [addFin]
  rw [hsum]
  generalize (if a then -1 else 1) * ((m * 2 ^ (e - min e f).toNat : Nat) : Int) + (if b then -1 else 1) * ((k * 2 ^ (f - min e f).toNat : Nat) : Int) = t
  have htwo : (0 : ℚ) < (2 : ℚ) ^ min e f := by positivity
  by_cases ht : t = 0
  · refine ⟨_, 0, 0, if_pos ht, by simp [ht, dyadic], ?_⟩
    simp only [ht, Exact.sign, Int.cast_zero, zero_mul, if_true]
    cases a <;> cases b <;> cases mode <;> rfl
  · refine ⟨_, t.natAbs, min e f, if_neg ht, ?_, ?_⟩
    · rw [dyadic]
      by_cases hneg : t < 0
      · have : ((t.natAbs : Nat) : ℚ) = -(t : ℚ) := by rw [← Int.cast_natCast, Int.ofNat_natAbs_of_nonpos hneg.le]; push_cast; rfl
        simp [hneg, this]
      · have : ((t.natAbs : Nat) : ℚ) = (t : ℚ) := by rw [← Int.cast_natCast, Int.natAbs_of_nonneg (not_lt.1 hneg)]
        simp [hneg, this]
    · have hne : (t : ℚ) * (2 : ℚ) ^ min e f ≠ 0 := mul_ne_zero (Int.cast_ne_zero.2 ht) htwo.ne'
      have hlt : (t : ℚ) * (2 : ℚ) ^ min e f < 0 ↔ t < 0 := by
        rw [← Int.cast_lt_zero (R := ℚ)]
        exact ⟨fun h => by_contra fun hn => absurd h (not_lt.2 (mul_nonneg (not_lt.1 hn) htwo.le)), fun h => mul_neg_of_neg_of_pos h htwo⟩
      simp [Exact.sign, hne, hlt]

theorem addNum_nan_left (mode : Rnd) {z : FNum} (w : FNum) (h : z.isNan = true) : addNum mode z w = (.nan false, 0) := by
  cases z <;> simp_all [FNum.isNan, addNum]

theorem addNum_nan_right (mode : Rnd) (z : FNum) {w : FNum} (h : w.isNan = true) : addNum mode z w = (.nan false, 0) := by
  cases z <;> cases w <;> simp_all [FNum.isNan, addNum]

theorem stands_add (mode : Rnd) {t u : Exact} {z w : FNum} {fl gl : FFlags} (h : Stands t z fl) (h' : Stands u w gl) :
    Stands (t.add mode u) (addNum mode z w).1 (fl ||| gl ||| (addNum mode z w).2) := by
  match t, u, h, h' with
  | .nan a, .nan b, ⟨hz, hfl⟩, ⟨hw, hgl⟩ =>
    rw [addNum_nan_left mode w hz, hfl, hgl]
    exact ⟨rfl, by simp⟩
  | .nan a, .inf n dz, ⟨hz, hfl⟩, ⟨hw, hdz, hgl⟩ =>
    rw [addNum_nan_left mode w hz, hfl, hgl]
    exact ⟨rfl, by simp⟩
  | .nan a, .val q n, ⟨hz, hfl⟩, ⟨hw, hgl⟩ =>
    rw [addNum_nan_left mode w hz, hfl, hgl]
    exact ⟨rfl, by simp⟩
  | .inf n dz, .nan b, ⟨hz, hdz, hfl⟩, ⟨hw, hgl⟩ =>
    rw [addNum_nan_right mode z hw, hfl, hgl]
    exact ⟨rfl, by simp⟩
  | .val q n, .nan b, ⟨hz, hfl⟩, ⟨hw, hgl⟩ =>
    rw [addNum_nan_right mode z hw, hfl, hgl]
    exact ⟨rfl, by simp⟩
  | .inf n dz, .inf n' dz', ⟨hz, hdz, hfl⟩, ⟨hw, hdz', hgl⟩ =>
    subst hz hfl hw hgl
    cases n <;> cases n' <;> simp [Exact.add, addNum, Stands, FNum.isNan]
  | .inf n dz, .val q b, ⟨hz, hdz, hfl⟩, ⟨⟨m, e, hw, hq⟩, hgl⟩ =>
    subst hz hfl hw hgl
    exact ⟨rfl, rfl, by simp [addNum]⟩
  | .val q b, .inf n dz, ⟨⟨m, e, hz, hq⟩, hfl⟩, ⟨hw, hdz, hgl⟩ =>
    subst hz hfl hw hgl
    exact ⟨rfl, rfl, by simp [addNum]⟩
  | .val p a, .val q b, ⟨⟨m, e, hz, hp⟩, hfl⟩, ⟨⟨k, f, hw, hq⟩, hgl⟩ =>
    subst hz hfl hw hgl
    rw [Exact.add]
    generalize (Exact.val p a).sign = s at *
    generalize (Exact.val q b).sign = s' at *
    obtain ⟨r, n, g, hadd, hsum, hsign⟩ := addFin_eq mode s s' m k e f
    rw [← hp, ← hq] at hsum hsign
    exact ⟨⟨n, g, by rw [← hsign]; exact hadd, by rw [← hsign]; exact hsum⟩, by simp [addNum]⟩

/-! ## One rounding -/

/-- The sign given beside a value matters where it is zero. -/
theorem gives_sign {f : Fmt} {mode : Rnd} {q : ℚ} {n : Bool} {code : Nat} {fl : FFlags}
    (h : (Exact.val q (Exact.val q n).sign).Gives f mode code fl) : (Exact.val q n).Gives f mode code fl := by
  by_cases hq : q = 0
  · simpa [Exact.Gives, Exact.sign, hq] using h
  · simpa only [Exact.Gives, if_neg hq] using h

/-- What an exact result gives when the number that stands for it is written into a format. -/
theorem gives_write {f : Fmt} (hf : f.Ieee) (mode : Rnd) {t : Exact} {z : FNum} {fl : FFlags} (h : Stands t z fl) :
    t.Gives f mode (f.write mode z).1 (fl ||| (f.write mode z).2) := by
  match t, h with
  | .nan nv, ⟨hz, hfl⟩ =>
    cases z <;> simp [FNum.isNan] at hz
    exact ⟨rfl, by simp [hfl, Fmt.write]⟩
  | .inf n dz, ⟨hz, hdz, hfl⟩ =>
    subst hz hdz hfl
    exact ⟨rfl, by simp [Fmt.write]⟩
  | .val q n, ⟨⟨m, e, hz, hq⟩, hfl⟩ =>
    subst hz hfl
    rw [flags_zero_or]
    refine gives_sign ?_
    generalize (Exact.val q n).sign = s at *
    subst hq
    exact round_gives hf mode s m e

theorem write_lt {f : Fmt} (hf : f.Ieee) (mode : Rnd) (z : FNum) : (f.write mode z).1 < 2 ^ (f.ebits + f.fbits + 1) := by
  cases z with
  | nan q =>
    have hE : 0 < 2 ^ f.ebits := Nat.two_pow_pos _
    have hF : 2 ^ (f.fbits - 1) < 2 ^ f.fbits := Nat.pow_lt_pow_right one_lt_two (by have := hf.fbits_pos; omega)
    have h := code_lt f false (d := 2 ^ (f.fbits - 1)) (k := 2 ^ f.ebits - 1) (by rw [Nat.div_eq_of_lt hF]; omega)
    simpa [Fmt.signBit, Nat.add_comm, Fmt.write, Fmt.nanCode] using h
  | inf n => exact infCode_lt f n
  | fin n m e => exact round_lt hf mode n m e

theorem toNat_roundLane (mode : Rnd) (z : FNum) : (roundLane mode z).1.toNat = (fp32.write mode z).1 :=
  Nat.mod_eq_of_lt (write_lt ieee_fp32 mode z)

/-- What an exact result gives in an FP32 lane. -/
theorem gives_roundLane (mode : Rnd) {t : Exact} {z : FNum} {fl : FFlags} (h : Stands t z fl) :
    t.Gives fp32 mode (roundLane mode z).1.toNat (fl ||| (roundLane mode z).2) := by
  rw [toNat_roundLane]
  exact gives_write ieee_fp32 mode h

/-- A finite number rounded into an FP32 lane. -/
theorem gives_roundLane_fin (mode : Rnd) (neg : Bool) (m : Nat) (e : Int) :
    (Exact.val (dyadic neg m e) neg).Gives fp32 mode (roundLane mode (.fin neg m e)).1.toNat (roundLane mode (.fin neg m e)).2 := by
  rw [toNat_roundLane]
  exact round_gives ieee_fp32 mode neg m e

end Sys2Proof.Machine
end

section
/-! # VFADD, VFSUB, VFMUL and the fused forms (R128) -/
namespace Sys2Proof.Machine

open Sys2Proof.Safety

theorem fadd_gives (mode : Rnd) (a b : Lane) :
    ((Exact.lane a).add mode (.lane b)).Gives fp32 mode (fadd mode a b).1.toNat (fadd mode a b).2 :=
  gives_roundLane mode (stands_add mode (stands_of (readLane a)) (stands_of (readLane b)))

theorem fsub_gives (mode : Rnd) (a b : Lane) :
    ((Exact.lane a).add mode (Exact.lane b).neg).Gives fp32 mode (fsub mode a b).1.toNat (fsub mode a b).2 :=
  gives_roundLane mode (stands_add mode (stands_of (readLane a)) (stands_neg (stands_of (readLane b))))

theorem fmul_gives (mode : Rnd) (a b : Lane) :
    ((Exact.lane a).mul (.lane b)).Gives fp32 mode (fmul mode a b).1.toNat (fmul mode a b).2 :=
  gives_roundLane mode (stands_mul (stands_of (readLane a)) (stands_of (readLane b)))

/-- A product and an addend, each with its sign, rounded once. -/
theorem fused_gives (mode : Rnd) {p z : Exact} {u w : FNum} {fx fy fz fp : FFlags} (hp : Stands p u (fx ||| fy ||| fp)) (hz : Stands z w fz) :
    (p.add mode z).Gives fp32 mode (roundLane mode (addNum mode u w).1).1.toNat
      (fx ||| fy ||| fz ||| fp ||| (addNum mode u w).2 ||| (roundLane mode (addNum mode u w).1).2) := by
  have h := gives_roundLane mode (stands_add mode hp hz)
  have hflags : fx ||| fy ||| fp ||| fz = fx ||| fy ||| fz ||| fp := by ac_rfl
  rwa [hflags] at h

theorem ffma_gives (mode : Rnd) (a b d : Lane) :
    (((Exact.lane a).mul (.lane b)).add mode (.lane d)).Gives fp32 mode (ffma mode false false a b d).1.toNat (ffma mode false false a b d).2 :=
  fused_gives mode (stands_mul (stands_of (readLane a)) (stands_of (readLane b))) (stands_of (readLane d))

theorem ffms_gives (mode : Rnd) (a b d : Lane) :
    (((Exact.lane a).mul (.lane b)).add mode (Exact.lane d).neg).Gives fp32 mode (ffma mode false true a b d).1.toNat (ffma mode false true a b d).2 :=
  fused_gives mode (stands_mul (stands_of (readLane a)) (stands_of (readLane b))) (stands_neg (stands_of (readLane d)))

theorem ffnma_gives (mode : Rnd) (a b d : Lane) :
    (((Exact.lane a).mul (.lane b)).neg.add mode (.lane d)).Gives fp32 mode (ffma mode true false a b d).1.toNat (ffma mode true false a b d).2 :=
  fused_gives mode (stands_neg (stands_mul (stands_of (readLane a)) (stands_of (readLane b)))) (stands_of (readLane d))

/-- Each instruction of the table is a float result whose lanes give the table's exact results. -/
theorem exec_floatResultOf {s : State} {i : Instr} {g : Pred} {lat : Nat} {d : Reg} {r : Rnd} {x : Nat → Exact}
    (h : floatResultOf s i = some (g, lat, d, r, x)) :
    ∃ f, exec i s = floatResult g s lat d f ∧ ∀ j, (x j).Gives fp32 r (f j).1.toNat (f j).2 := by
  unfold floatResultOf at h
  split at h <;> cases h
  · exact ⟨_, rfl, fun j => fadd_gives ..⟩
  · exact ⟨_, rfl, fun j => fsub_gives ..⟩
  · exact ⟨_, rfl, fun j => fmul_gives ..⟩
  · exact ⟨_, rfl, fun j => ffma_gives ..⟩
  · exact ⟨_, rfl, fun j => ffms_gives ..⟩
  · exact ⟨_, rfl, fun j => ffnma_gives ..⟩

/-- Settles O7: the number each instruction rounds stands for the exact result of R128, and one rounding gives what R82 and R83 say of it. -/
theorem floatArithmetic : Obligations.FloatArithmetic := by
  unfold Obligations.FloatArithmetic
  intro s i g lat d r x hresult hacts
  obtain ⟨f, hexec, hgives⟩ := exec_floatResultOf hresult
  exact ⟨_, _, hexec.trans (floatResult_acts hacts ..), fun j _ => hgives j⟩

end Sys2Proof.Machine
end

section
/-! # The codes of FP32 and their order (R71, R129) -/
namespace Sys2Proof.Machine

open Sys2Proof.Safety

/-- The magnitude bits of a lane. -/
def magBits (x : Lane) : Nat := x.toNat % 2 ^ 31

/-- The value of magnitude bits, read as if no exponent were that of the infinities. -/
def magVal (n : Nat) : ℚ := if n < 2 ^ 23 then n * (2 : ℚ) ^ (-149 : Int) else (2 ^ 23 + n % 2 ^ 23 : Nat) * (2 : ℚ) ^ ((n / 2 ^ 23 : Nat) - 150 : Int)

/-- Greater magnitude bits have the greater value. -/
theorem magVal_lt_succ (n : Nat) : magVal n < magVal (n + 1) := by
  have hstep (E : Nat) {a b : Nat} (h : a < b) : (a : ℚ) * (2 : ℚ) ^ ((E : Int) - 150) < b * (2 : ℚ) ^ ((E : Int) - 150) := by
    have : (a : ℚ) < b := by exact_mod_cast h
    gcongr
  unfold magVal
  by_cases hsmall : n + 1 < 2 ^ 23
  · rw [if_pos (by omega), if_pos hsmall]
    exact hstep 1 (Nat.lt_succ_self n)
  by_cases hfirst : n + 1 = 2 ^ 23
  · rw [if_pos (by omega), if_neg hsmall, hfirst, Nat.mod_self, Nat.div_self (by decide)]
    exact hstep 1 (by omega)
  rw [if_neg (by omega), if_neg hsmall]
  by_cases hcarry : n % 2 ^ 23 + 1 < 2 ^ 23
  · rw [show (n + 1) / 2 ^ 23 = n / 2 ^ 23 by omega, show (n + 1) % 2 ^ 23 = n % 2 ^ 23 + 1 by omega]
    exact hstep _ (by omega)
  · rw [show (n + 1) / 2 ^ 23 = n / 2 ^ 23 + 1 by omega, show (n + 1) % 2 ^ 23 = 0 by omega,
      show ((n / 2 ^ 23 + 1 : Nat) : Int) - 150 = ((n / 2 ^ 23 : Nat) : Int) - 150 + 1 by push_cast; ring, zpow_add_one₀ two_ne_zero]
    refine (hstep (n / 2 ^ 23) (b := 2 ^ 24) (by omega)).trans_eq ?_
    push_cast
    ring

theorem magVal_strictMono : StrictMono magVal := strictMono_nat_of_lt_succ magVal_lt_succ

theorem magVal_zero : magVal 0 = 0 := by simp [magVal]

theorem magVal_nonneg (n : Nat) : 0 ≤ magVal n := magVal_zero ▸ magVal_strictMono.monotone (Nat.zero_le n)

theorem magVal_inf : magVal 0x7F800000 = 2 ^ 128 := by norm_num [magVal]

/-- A lane by its sign bit and its magnitude bits. -/
theorem toNat_eq_sign_mag (x : Lane) : x.toNat = (if x.getLsbD 31 then 2 ^ 31 else 0) + magBits x := by
  have hbit : x.getLsbD 31 = decide (x.toNat / 2 ^ 31 % 2 = 1) := by
    rw [BitVec.getLsbD, Nat.testBit_eq_decide_div_mod_eq]
  have := x.isLt
  rw [hbit, magBits]
  split <;> simp_all <;> omega

theorem read_fields_fp32 (neg : Bool) {ex fr : Nat} (hex : ex < 2 ^ 8) (hfr : fr < 2 ^ 23) :
    fp32.read ((if neg then 2 ^ 31 else 0) + ex * 2 ^ 23 + fr) =
      if ex = 255 then (if fr = 0 then .inf neg else .nan (!fr.testBit 22))
      else if ex = 0 then .fin neg fr (-149)
      else .fin neg (2 ^ 23 + fr) ((ex : Int) - 127 - 23) := read_fields (f := fp32) neg hex hfr

/-- What a lane reads as, by its magnitude bits: a finite number, an infinity or a NaN (R71). -/
theorem readLane_cases (x : Lane) :
    (magBits x < 0x7F800000 ∧ ∃ m e, readLane x = .fin (x.getLsbD 31) m e ∧ dyadic false m e = magVal (magBits x) ∧
        m < 2 ^ 24 ∧ -149 ≤ e ∧ e ≤ 104) ∨
      (magBits x = 0x7F800000 ∧ readLane x = .inf (x.getLsbD 31)) ∨
      (0x7F800000 < magBits x ∧ readLane x = .nan (!(magBits x % 2 ^ 23).testBit 22)) := by
  have hmag : magBits x < 2 ^ 31 := Nat.mod_lt _ (by decide)
  have hcode : x.toNat = (if x.getLsbD 31 then 2 ^ 31 else 0) + magBits x / 2 ^ 23 * 2 ^ 23 + magBits x % 2 ^ 23 := by
    rw [Nat.add_assoc, Nat.div_add_mod', ← toNat_eq_sign_mag]
  rw [readLane, hcode, read_fields_fp32 _ (by omega) (by omega), magVal]
  obtain hlt | heq | hgt := lt_trichotomy (magBits x) 0x7F800000
  · refine .inl ⟨hlt, ?_⟩
    by_cases hsmall : magBits x < 2 ^ 23
    · rw [if_neg (by omega), if_pos (by omega), if_pos hsmall, Nat.mod_eq_of_lt hsmall]
      exact ⟨_, _, rfl, dyadic_false .., by omega, by omega, by omega⟩
    · rw [if_neg (by omega), if_neg (by omega), if_neg hsmall]
      refine ⟨_, _, rfl, ?_, by omega, by omega, by omega⟩
      rw [dyadic_false]
      congr 2
      ring
  · rw [if_pos (by omega), if_pos (by omega)]
    exact .inr (.inl ⟨heq, rfl⟩)
  · rw [if_pos (by omega), if_neg (by omega)]
    exact .inr (.inr ⟨hgt, rfl⟩)

/-- The order of VFMIN and VFMAX by sign and magnitude bits (R129). -/
theorem orderKey_eq (x : Lane) : orderKey x = if x.getLsbD 31 then -(magBits x : Int) - 1 else magBits x := by
  have h := toNat_eq_sign_mag x
  rw [orderKey]
  split
  · rfl
  · rename_i hsign
    rw [if_neg hsign] at h
    omega

theorem isNan_of_magBits {x : Lane} (h : magBits x ≤ 0x7F800000) : (readLane x).isNan = false := by
  obtain ⟨-, m, e, hx, -⟩ | ⟨-, hx⟩ | ⟨hgt, -⟩ := readLane_cases x
  · rw [hx]; rfl
  · rw [hx]; rfl
  · omega

theorem magBits_le_of_isNan {x : Lane} (h : (readLane x).isNan = false) : magBits x ≤ 0x7F800000 := by
  obtain ⟨hlt, -⟩ | ⟨heq, -⟩ | ⟨-, hx⟩ := readLane_cases x
  · omega
  · omega
  · rw [hx] at h; simp [FNum.isNan] at h

/-- A finite lane: its number, by its sign bit and its magnitude bits. -/
theorem readLane_fin {x : Lane} {n : Bool} {m : Nat} {e : Int} (h : readLane x = .fin n m e) :
    n = x.getLsbD 31 ∧ dyadic false m e = magVal (magBits x) ∧ magBits x < 0x7F800000 := by
  obtain ⟨hlt, m', e', hx, hval, -⟩ | ⟨-, hx⟩ | ⟨-, hx⟩ := readLane_cases x
  · rw [hx] at h
    cases h
    exact ⟨rfl, hval, hlt⟩
  · rw [hx] at h; cases h
  · rw [hx] at h; cases h

/-- The digits and the unit of a finite lane. -/
theorem readLane_fin_bounds {x : Lane} {n : Bool} {m : Nat} {e : Int} (h : readLane x = .fin n m e) :
    m < 2 ^ 24 ∧ -149 ≤ e ∧ e ≤ 104 := by
  obtain ⟨hlt, m', e', hx, -, hbounds⟩ | ⟨-, hx⟩ | ⟨-, hx⟩ := readLane_cases x
  · rw [hx] at h
    cases h
    exact hbounds
  · rw [hx] at h; cases h
  · rw [hx] at h; cases h

theorem readLane_inf {x : Lane} {n : Bool} (h : readLane x = .inf n) : n = x.getLsbD 31 ∧ magBits x = 0x7F800000 := by
  obtain ⟨hlt, m', e', hx, hval⟩ | ⟨heq, hx⟩ | ⟨-, hx⟩ := readLane_cases x
  · rw [hx] at h; cases h
  · rw [hx] at h
    cases h
    exact ⟨rfl, heq⟩
  · rw [hx] at h; cases h

/-- Two lanes with the same sign and magnitude bits are one. -/
theorem lane_ext {x y : Lane} (hs : x.getLsbD 31 = y.getLsbD 31) (hm : magBits x = magBits y) : x = y :=
  BitVec.eq_of_toNat_eq (by rw [toNat_eq_sign_mag x, toNat_eq_sign_mag y, hs, hm])

end Sys2Proof.Machine
end

section
/-! # Numbers that round alike: a number and one with enough of its digits, the last of them sticky (R82) -/
namespace Sys2Proof.Machine

open Sys2Proof.Safety

/-- No multiple of 2^q lies between two numbers, nor at one of them alone. -/
def Alike {K : Type} [Field K] [LinearOrder K] (x z : K) (q : Int) : Prop :=
  ∀ n : Int, ((n : K) * 2 ^ q ≤ x ↔ (n : K) * 2 ^ q ≤ z) ∧ (x ≤ (n : K) * 2 ^ q ↔ z ≤ (n : K) * 2 ^ q)

section Field
variable {K : Type} [Field K] [LinearOrder K] [IsStrictOrderedRing K] {x z : K} {q : Int}

theorem Alike.coarser (h : Alike x z q) {p : Int} (hp : q ≤ p) : Alike x z p := by
  obtain ⟨k, hk⟩ := Int.eq_ofNat_of_zero_le (sub_nonneg.2 hp)
  intro n
  have hn : (n : K) * 2 ^ p = ((n * 2 ^ k : Int) : K) * 2 ^ q := by
    rw [show p = (k : Int) + q by omega, zpow_add₀ two_ne_zero, zpow_natCast]
    push_cast
    ring
  rw [hn]
  exact h _

theorem Alike.neg (h : Alike x z q) : Alike (-x) (-z) q := by
  intro n
  obtain ⟨hlow, hhigh⟩ := h (-n)
  have hn : ((-n : Int) : K) * 2 ^ q = -((n : K) * 2 ^ q) := by push_cast; ring
  rw [hn] at hlow hhigh
  exact ⟨by rw [le_neg, le_neg (b := z)]; exact hhigh, by rw [neg_le, neg_le (a := z)]; exact hlow⟩

omit [IsStrictOrderedRing K] in
theorem Alike.lt_iff (h : Alike x z q) (n : Int) : (x < (n : K) * 2 ^ q ↔ z < (n : K) * 2 ^ q) ∧ ((n : K) * 2 ^ q < x ↔ (n : K) * 2 ^ q < z) := by
  obtain ⟨hlow, hhigh⟩ := h n
  exact ⟨by rw [← not_le, ← not_le, hlow], by rw [← not_le, ← not_le, hhigh]⟩

omit [IsStrictOrderedRing K] in
theorem Alike.eq_iff (h : Alike x z q) (n : Int) : x = (n : K) * 2 ^ q ↔ z = (n : K) * 2 ^ q := by
  obtain ⟨hlow, hhigh⟩ := h n
  rw [le_antisymm_iff, le_antisymm_iff, hlow, hhigh]

theorem Alike.div (h : Alike x z q) (p : Int) : Alike (x / 2 ^ p) (z / 2 ^ p) (q - p) := by
  have htwo : (0 : K) < 2 ^ p := by positivity
  intro n
  have hn : (n : K) * 2 ^ (q - p) = (n : K) * 2 ^ q / 2 ^ p := by rw [zpow_sub₀ two_ne_zero, mul_div_assoc]
  rw [hn, div_le_div_iff_of_pos_right htwo, div_le_div_iff_of_pos_right htwo, div_le_div_iff_of_pos_right htwo,
    div_le_div_iff_of_pos_right htwo]
  exact h n

/-- A number `t` in units 2^q is alike to its whole part doubled, with a sticky last digit, in units half as great. -/
theorem alike_sticky {t : K} {N : Nat} {exact : Prop} [Decidable exact] (hN : (N : K) ≤ t) (hN' : t < N + 1) (hexact : exact ↔ t = N) (q : Int) :
    Alike (t * 2 ^ q) (((2 * N + if exact then 0 else 1 : Nat) : K) * 2 ^ (q - 1)) q := by
  have htwo : (0 : K) < 2 ^ q := by positivity
  have hhalf : (((2 * N + if exact then 0 else 1 : Nat) : K) * 2 ^ (q - 1)) = ((N : K) + if exact then 0 else 1 / 2) * 2 ^ q := by
    rw [zpow_sub_one₀ two_ne_zero]
    split
    · push_cast; field_simp; ring
    · push_cast; field_simp
  intro n
  rw [hhalf, mul_le_mul_iff_left₀ htwo, mul_le_mul_iff_left₀ htwo, mul_le_mul_iff_left₀ htwo, mul_le_mul_iff_left₀ htwo]
  by_cases he : exact
  · rw [if_pos he, hexact.1 he, add_zero]
    exact ⟨Iff.rfl, Iff.rfl⟩
  · have hlt : (N : K) < t := lt_of_le_of_ne hN (Ne.symm (mt hexact.2 he))
    rw [if_neg he]
    obtain hn | hn := le_or_gt n N
    · have : (n : K) ≤ (N : K) := by exact_mod_cast hn
      exact ⟨iff_of_true (by linarith) (by linarith), iff_of_false (by linarith) (by linarith)⟩
    · have : (N : K) + 1 ≤ (n : K) := by exact_mod_cast hn
      exact ⟨iff_of_false (by linarith) (by linarith), iff_of_true (by linarith) (by linarith)⟩

end Field

/-! ## Rationals that round alike -/

/-- Numbers alike in halves round to the same integer. -/
theorem Alike.roundInt_eq {x z : ℚ} (h : Alike x z (-1)) (mode : Rnd) : roundInt mode x = roundInt mode z := by
  have hwhole := h.coarser (p := 0) (by decide)
  have hfloor : ⌊x⌋ = ⌊z⌋ := by
    refine le_antisymm (Int.le_floor.2 ?_) (Int.le_floor.2 ?_)
    · simpa using (hwhole ⌊x⌋).1.1 (by simpa using Int.floor_le x)
    · simpa using (hwhole ⌊z⌋).1.2 (by simpa using Int.floor_le z)
  have hceil : ⌈x⌉ = ⌈z⌉ := by
    refine le_antisymm (Int.ceil_le.2 ?_) (Int.ceil_le.2 ?_)
    · simpa using (hwhole ⌈z⌉).2.2 (by simpa using Int.le_ceil z)
    · simpa using (hwhole ⌈x⌉).2.1 (by simpa using Int.le_ceil x)
  have hhalf := h.lt_iff (2 * ⌊z⌋ + 1)
  have hmid : ((2 * ⌊z⌋ + 1 : Int) : ℚ) * 2 ^ (-1 : Int) = ⌊z⌋ + 1 / 2 := by push_cast; ring
  rw [hmid] at hhalf
  have hbelow : x - ⌊z⌋ < 1 / 2 ↔ z - ⌊z⌋ < 1 / 2 := by rw [sub_lt_iff_lt_add', sub_lt_iff_lt_add']; exact hhalf.1
  have habove : 1 / 2 < x - ⌊z⌋ ↔ 1 / 2 < z - ⌊z⌋ := by rw [lt_sub_iff_add_lt', lt_sub_iff_add_lt']; exact hhalf.2
  have hnonneg : 0 ≤ x ↔ 0 ≤ z := by simpa using (hwhole 0).1
  cases mode <;> simp only [roundInt, hfloor, hceil, hbelow, habove, hnonneg]

/-- Alike positive numbers have one exponent. -/
theorem Alike.log_eq {x z : ℚ} {q : Int} (h : Alike x z q) (hx : 0 < x) (hz : 0 < z) (hq : q ≤ Int.log 2 z) : Int.log 2 x = Int.log 2 z := by
  have hpow (p : Int) (hp : q ≤ p) : (2 : ℚ) ^ p ≤ x ↔ (2 : ℚ) ^ p ≤ z := by simpa using (h.coarser hp 1).1
  refine le_antisymm ?_ ?_
  · by_contra hlt
    have := (hpow (Int.log 2 x) (by omega)).1 (by simpa using Int.zpow_log_le_self (b := 2) one_lt_two hx)
    exact hlt ((Int.zpow_le_iff_le_log (b := 2) one_lt_two hz).1 (by simpa using this))
  · have := (hpow _ hq).2 (by simpa using Int.zpow_log_le_self (b := 2) one_lt_two hz)
    exact (Int.zpow_le_iff_le_log (b := 2) one_lt_two hx).1 (by simpa using this)

/-- What is given of a number holds of one that rounds to the same, exactly or not, and is tiny alike. -/
theorem gives_congr {f : Fmt} {mode : Rnd} {x z : ℚ} {n : Bool} {code : Nat} {fl : FFlags} (hx : x ≠ 0) (hz : z ≠ 0) (hsign : x < 0 ↔ z < 0)
    (hrat : roundRat f mode x = roundRat f mode z) (hexact : roundRat f mode z ≠ x ↔ roundRat f mode z ≠ z)
    (htiny : |roundWide f mode x| < (2 : ℚ) ^ (1 - (f.bias : Int)) ↔ |roundWide f mode z| < (2 : ℚ) ^ (1 - (f.bias : Int)))
    (hg : (Exact.val z n).Gives f mode code fl) : (Exact.val x n).Gives f mode code fl := by
  have hpos : 0 < x ↔ 0 < z := by
    rw [← not_le, ← not_le, le_iff_lt_or_eq, le_iff_lt_or_eq, or_iff_left hx, or_iff_left hz, hsign]
  simp only [Exact.Gives, if_neg hx, if_neg hz, hrat, htiny, hexact, hsign, hpos] at hg ⊢
  exact hg

/-- What is given of a number that overflows holds of every one of its sign that does. -/
theorem gives_congr_overflow {f : Fmt} {mode : Rnd} {x z : ℚ} {n : Bool} {code : Nat} {fl : FFlags} (hx : x ≠ 0) (hz : z ≠ 0) (hsign : x < 0 ↔ z < 0)
    (hox : (2 : ℚ) ^ (f.bias + 1) ≤ |roundRat f mode x|) (hoz : (2 : ℚ) ^ (f.bias + 1) ≤ |roundRat f mode z|)
    (hg : (Exact.val z n).Gives f mode code fl) : (Exact.val x n).Gives f mode code fl := by
  have hpos : 0 < x ↔ 0 < z := by
    rw [← not_le, ← not_le, le_iff_lt_or_eq, le_iff_lt_or_eq, or_iff_left hx, or_iff_left hz, hsign]
  simp only [Exact.Gives, if_neg hx, if_neg hz, if_neg (not_lt.2 hox), if_neg (not_lt.2 hoz), hsign, hpos] at hg ⊢
  exact hg

/-- What is given of a number holds of one that is alike to it in every unit half as great as those it is rounded to. -/
theorem gives_of_alike {f : Fmt} {mode : Rnd} {x z : ℚ} {q : Int} {n : Bool} {code : Nat} {fl : FFlags} (h : Alike x z q) (hx : 0 < x) (hz : 0 < z)
    (hq : q ≤ Int.log 2 z - f.fbits - 1) {neg : Bool}
    (hg : (Exact.val ((if neg then -1 else 1) * z) n).Gives f mode code fl) : (Exact.val ((if neg then -1 else 1) * x) n).Gives f mode code fl := by
  have hlog := h.log_eq hx hz (by omega)
  have habs (y : ℚ) (hy : 0 < y) : |(if neg then -1 else 1) * y| = y := by cases neg <;> simp [abs_of_pos hy]
  have hsigned : Alike ((if neg then -1 else 1) * x) ((if neg then -1 else 1) * z) q := by
    cases neg
    · simpa using h
    · simpa using h.neg
  have hround (p : Int) (hp : q + 1 ≤ p) : roundInt mode ((if neg then -1 else 1) * x / 2 ^ p) = roundInt mode ((if neg then -1 else 1) * z / 2 ^ p) :=
    ((hsigned.div p).coarser (by omega)).roundInt_eq mode
  have hrat : roundRat f mode ((if neg then -1 else 1) * x) = roundRat f mode ((if neg then -1 else 1) * z) := by
    simp only [roundRat, habs x hx, habs z hz, hlog]
    rw [hround _ (by omega)]
  have hwide : roundWide f mode ((if neg then -1 else 1) * x) = roundWide f mode ((if neg then -1 else 1) * z) := by
    simp only [roundWide, habs x hx, habs z hz, hlog]
    rw [hround _ (by omega)]
  have hsame : roundRat f mode ((if neg then -1 else 1) * z) ≠ (if neg then -1 else 1) * x ↔
      roundRat f mode ((if neg then -1 else 1) * z) ≠ (if neg then -1 else 1) * z := by
    simp only [roundRat, habs z hz]
    have := (hsigned.coarser (p := max (Int.log 2 z) (1 - (f.bias : Int)) - f.fbits) (by omega)).eq_iff
      (roundInt mode ((if neg then -1 else 1) * z / 2 ^ (max (Int.log 2 z) (1 - (f.bias : Int)) - (f.fbits : Int))))
    rw [ne_eq, ne_eq, eq_comm, this, eq_comm]
  have hzero (y : ℚ) (hy : 0 < y) : (if neg then -1 else 1) * y ≠ 0 := by cases neg <;> simp [hy.ne']
  have hlt (y : ℚ) (hy : 0 < y) : (if neg then -1 else 1) * y < 0 ↔ neg = true := by cases neg <;> simp [hy, hy.le]
  refine gives_congr (hzero x hx) (hzero z hz) ((hlt x hx).trans (hlt z hz).symm) hrat hsame (by rw [hwide]) hg

end Sys2Proof.Machine
end

section
/-! # How far rounding goes (R82) -/
namespace Sys2Proof.Machine

open Sys2Proof.Safety

theorem roundInt_mem (mode : Rnd) (x : ℚ) : roundInt mode x = ⌊x⌋ ∨ roundInt mode x = ⌈x⌉ := by
  by_cases hx : (⌊x⌋ : ℚ) = x
  · left
    conv_lhs => rw [← hx, roundInt_intCast]
  · have hlow : (⌊x⌋ : ℚ) < x := lt_of_le_of_ne (Int.floor_le x) hx
    have hhigh := Int.lt_floor_add_one x
    have hceil : ⌈x⌉ = ⌊x⌋ + 1 := Int.ceil_eq_iff.2 ⟨by push_cast; linarith, by push_cast; linarith⟩
    rw [roundInt_between hlow hhigh, hceil]
    cases mode <;> dsimp only
    case rne => split_ifs <;> simp
    case rtz => split_ifs <;> simp
    case rup => exact .inr rfl
    case rdn => exact .inl rfl

theorem le_roundInt {mode : Rnd} {x : ℚ} {n : Int} (h : (n : ℚ) ≤ x) : n ≤ roundInt mode x := by
  have hfloor := Int.le_floor.2 h
  have hle : ⌊x⌋ ≤ ⌈x⌉ := Int.floor_le_ceil x
  obtain h | h := roundInt_mem mode x <;> omega

theorem roundInt_le {mode : Rnd} {x : ℚ} {n : Int} (h : x ≤ n) : roundInt mode x ≤ n := by
  have hceil := Int.ceil_le.2 h
  have hle : ⌊x⌋ ≤ ⌈x⌉ := Int.floor_le_ceil x
  obtain h | h := roundInt_mem mode x <;> omega

theorem abs_roundInt_le {mode : Rnd} {x : ℚ} {n : Int} (h : |x| ≤ n) : |roundInt mode x| ≤ n := by
  obtain ⟨hlow, hhigh⟩ := abs_le.1 h
  exact abs_le.2 ⟨le_roundInt (by push_cast; exact hlow), roundInt_le hhigh⟩

theorem le_abs_roundInt {mode : Rnd} {x : ℚ} {n : Int} (h : (n : ℚ) ≤ |x|) : n ≤ |roundInt mode x| := by
  obtain h | h := le_abs.1 h
  · exact (le_roundInt h).trans (le_abs_self _)
  · exact (le_neg.2 (roundInt_le (by push_cast; linarith))).trans (neg_le_abs _)

theorem abs_roundInt_sub_lt (mode : Rnd) (x : ℚ) : |roundInt mode x - x| < 1 := by
  have h1 := Int.floor_le x
  have h2 := Int.lt_floor_add_one x
  have h3 := Int.le_ceil x
  have h4 := Int.ceil_lt_add_one x
  obtain h | h := roundInt_mem mode x <;> rw [h, abs_lt] <;> constructor <;> linarith

/-- Where each mode puts the integer it gives for a number that is not negative. -/
theorem roundInt_near (mode : Rnd) {x : ℚ} (hx : 0 ≤ x) :
    match mode with
    | .rne => (roundInt mode x : ℚ) - 1 / 2 ≤ x ∧ x ≤ roundInt mode x + 1 / 2
    | .rup => (roundInt mode x : ℚ) - 1 < x ∧ x ≤ roundInt mode x
    | _ => (roundInt mode x : ℚ) ≤ x ∧ x < roundInt mode x + 1 := by
  have h1 := Int.floor_le x
  have h2 := Int.lt_floor_add_one x
  have h3 := Int.le_ceil x
  have h4 := Int.ceil_lt_add_one x
  cases mode
  case rne =>
    simp only [roundInt]
    split_ifs <;> push_cast <;> constructor <;> linarith
  case rtz =>
    simp only [roundInt, if_pos hx]
    exact ⟨h1, h2⟩
  case rup => exact ⟨by simp only [roundInt]; linarith, h3⟩
  case rdn => exact ⟨h1, h2⟩

/-- A number is at least the power of two of its exponent, in any unit. -/
theorem abs_div_bounds {x : ℚ} (hx : x ≠ 0) (n : Nat) :
    ((2 ^ n : Int) : ℚ) ≤ |x / 2 ^ (Int.log 2 |x| - (n : Int))| ∧ |x / 2 ^ (Int.log 2 |x| - (n : Int))| ≤ ((2 ^ (n + 1) : Int) : ℚ) := by
  have hpos : 0 < |x| := abs_pos.2 hx
  have hlow := Int.zpow_log_le_self (b := 2) one_lt_two hpos
  have hhigh := Int.lt_zpow_succ_log_self (b := 2) one_lt_two |x|
  have htwo : (0 : ℚ) < 2 ^ (Int.log 2 |x| - (n : Int)) := by positivity
  rw [abs_div, abs_of_pos htwo, le_div_iff₀ htwo, div_le_iff₀ htwo]
  push_cast at hlow hhigh ⊢
  rw [← zpow_natCast, ← zpow_natCast, ← zpow_add₀ two_ne_zero, ← zpow_add₀ two_ne_zero]
  exact ⟨by convert hlow using 2; ring, by convert hhigh.le using 2; push_cast; ring⟩

/-- Rounding in whole units of a number's own last digit keeps its exponent, or makes it the next power of two. -/
theorem abs_roundWide_bounds (f : Fmt) (mode : Rnd) {x : ℚ} (hx : x ≠ 0) :
    (2 : ℚ) ^ Int.log 2 |x| ≤ |roundWide f mode x| ∧ |roundWide f mode x| ≤ (2 : ℚ) ^ (Int.log 2 |x| + 1) := by
  obtain ⟨hlow, hhigh⟩ := abs_div_bounds hx f.fbits
  have htwo : (0 : ℚ) < 2 ^ (Int.log 2 |x| - (f.fbits : Int)) := by positivity
  have hlow' : ((2 ^ f.fbits : Int) : ℚ) ≤ |(roundInt mode (x / 2 ^ (Int.log 2 |x| - (f.fbits : Int))) : ℚ)| := by
    exact_mod_cast le_abs_roundInt hlow
  have hhigh' : |(roundInt mode (x / 2 ^ (Int.log 2 |x| - (f.fbits : Int))) : ℚ)| ≤ ((2 ^ (f.fbits + 1) : Int) : ℚ) := by
    exact_mod_cast abs_roundInt_le hhigh
  have hscale (k : Nat) : ((2 ^ k : Int) : ℚ) * 2 ^ (Int.log 2 |x| - (f.fbits : Int)) = (2 : ℚ) ^ (Int.log 2 |x| - (f.fbits : Int) + k) := by
    rw [zpow_add₀ two_ne_zero, zpow_natCast]; push_cast; ring
  rw [roundWide, abs_mul, abs_of_pos htwo]
  constructor
  · refine le_trans (le_of_eq ?_) (mul_le_mul_of_nonneg_right hlow' htwo.le)
    rw [hscale]; congr 1; ring
  · refine (mul_le_mul_of_nonneg_right hhigh' htwo.le).trans (le_of_eq ?_)
    rw [hscale]; congr 1; push_cast; ring

/-- A number of the format's normal range rounds to the digits of the format. -/
theorem roundRat_eq_roundWide {f : Fmt} {mode : Rnd} {x : ℚ} (h : 1 - (f.bias : Int) ≤ Int.log 2 |x|) : roundRat f mode x = roundWide f mode x := by
  rw [roundRat, roundWide, max_eq_left h]

theorem abs_roundRat_sub_lt (f : Fmt) (mode : Rnd) (x : ℚ) :
    |roundRat f mode x - x| < 2 ^ (max (Int.log 2 |x|) (1 - (f.bias : Int)) - (f.fbits : Int)) := by
  have htwo : (0 : ℚ) < 2 ^ (max (Int.log 2 |x|) (1 - (f.bias : Int)) - (f.fbits : Int)) := by positivity
  have h := mul_lt_mul_of_pos_right (abs_roundInt_sub_lt mode (x / 2 ^ (max (Int.log 2 |x|) (1 - (f.bias : Int)) - (f.fbits : Int)))) htwo
  rwa [one_mul, ← abs_of_pos htwo, ← abs_mul, abs_of_pos htwo, sub_mul, div_mul_cancel₀ _ htwo.ne'] at h

end Sys2Proof.Machine
end

section
/-! # VFDIV and VFSCALE (R129): a quotient with a sticky digit, and exponents beyond every format -/
namespace Sys2Proof.Machine

open Sys2Proof.Safety

/-! ## Quotients -/

theorem dyadic_div (a b : Bool) {m k : Nat} (e f : Int) (sh : Nat) :
    dyadic a m e / dyadic b k f = (if (a != b) then -1 else 1) * (((m * 2 ^ sh : Nat) : ℚ) / k * 2 ^ (e - f - sh)) := by
  simp only [dyadic, zpow_sub₀ (two_ne_zero (α := ℚ)), zpow_natCast]
  have : ((if b then -1 else 1 : ℚ)) ≠ 0 := by cases b <;> simp
  by_cases hk : (k : ℚ) = 0
  · simp [hk]
  · cases a <;> cases b <;> push_cast <;> simp <;> field_simp

/-- The digits of a quotient are enough for FP32. -/
theorem two_pow_le_quotient {m k : Nat} (hm : m ≠ 0) (hk : k ≠ 0) : 2 ^ 63 ≤ m * 2 ^ (64 + Nat.log2 k) / k := by
  rw [Nat.le_div_iff_mul_le (Nat.pos_of_ne_zero hk)]
  have hk' : k < 2 ^ (Nat.log2 k + 1) := Nat.lt_log2_self
  have hm' : 1 ≤ m := Nat.one_le_iff_ne_zero.2 hm
  calc 2 ^ 63 * k ≤ 2 ^ 63 * 2 ^ (Nat.log2 k + 1) := Nat.mul_le_mul_left _ hk'.le
    _ = 1 * 2 ^ (64 + Nat.log2 k) := by rw [← pow_add, one_mul]; congr 1; omega
    _ ≤ m * 2 ^ (64 + Nat.log2 k) := Nat.mul_le_mul_right _ hm'

/-- The quotient of the model, in its last unit but one. -/
theorem quotient_eq (neg : Bool) (m : Nat) (e : Int) (k : Nat) (f : Int) : quotient neg m e k f =
    .fin neg (2 * (m * 2 ^ (64 + Nat.log2 k) / k) + if m * 2 ^ (64 + Nat.log2 k) % k = 0 then 0 else 1) (e - f - (64 + Nat.log2 k : Nat) - 1) := rfl

theorem div_nat_bounds (n : Nat) {k : Nat} (hk : k ≠ 0) : ((n / k : Nat) : ℚ) ≤ n / k ∧ (n : ℚ) / k < (n / k : Nat) + 1 ∧
    (n % k = 0 ↔ (n : ℚ) / k = (n / k : Nat)) := by
  have hpos : (0 : ℚ) < k := by exact_mod_cast Nat.pos_of_ne_zero hk
  have hdiv : (n : ℚ) = k * (n / k : Nat) + (n % k : Nat) := by exact_mod_cast (Nat.div_add_mod n k).symm
  have hmod : ((n % k : Nat) : ℚ) < k := by exact_mod_cast Nat.mod_lt n (Nat.pos_of_ne_zero hk)
  have hnonneg : (0 : ℚ) ≤ (n % k : Nat) := Nat.cast_nonneg _
  refine ⟨Nat.cast_div_le, by rw [div_lt_iff₀ hpos]; linarith, ?_⟩
  rw [div_eq_iff hpos.ne', ← Nat.cast_eq_zero (R := ℚ)]
  constructor <;> intro h <;> linarith

/-- The digits of a quotient, the last of them sticky. -/
theorem quotient_alike (a b : Bool) {m k : Nat} (e f : Int) (hm : m ≠ 0) (hk : k ≠ 0) :
    ∃ M E p, ∃ x : ℚ, quotient (a != b) m e k f = .fin (a != b) M E ∧ M ≠ 0 ∧ 0 < x ∧
      dyadic a m e / dyadic b k f = (if (a != b) then -1 else 1) * x ∧ Alike x (dyadic false M E) p ∧ p ≤ (Nat.log2 M : Int) + E - 24 := by
  have hN := two_pow_le_quotient hm hk
  obtain ⟨hlow, hhigh, hexact⟩ := div_nat_bounds (m * 2 ^ (64 + Nat.log2 k)) hk
  have halike := alike_sticky hlow hhigh hexact (e - f - (64 + Nat.log2 k : Nat))
  refine ⟨_, _, _, _, quotient_eq .., ?_, ?_, dyadic_div a b e f (64 + Nat.log2 k), by rw [dyadic_false]; exact halike, ?_⟩
  · omega
  · have : (0 : ℚ) < (m * 2 ^ (64 + Nat.log2 k) / k : Nat) := by exact_mod_cast (by omega)
    have := this.trans_le hlow
    positivity
  · generalize hM : 2 * (m * 2 ^ (64 + Nat.log2 k) / k) + (if m * 2 ^ (64 + Nat.log2 k) % k = 0 then 0 else 1) = M
    have hlog2 : 64 ≤ Nat.log2 M := (Nat.le_log2 (by omega)).2 (by omega)
    omega

/-- A quotient rounds as its digits with the sticky one do. -/
theorem quotient_gives (mode : Rnd) (a b : Bool) {m k : Nat} (e f : Int) (n : Bool) (hm : m ≠ 0) (hk : k ≠ 0) :
    (Exact.val (dyadic a m e / dyadic b k f) n).Gives fp32 mode (roundLane mode (quotient (a != b) m e k f)).1.toNat
      (roundLane mode (quotient (a != b) m e k f)).2 := by
  obtain ⟨M, E, p, x, hquot, hM, hx, hdiv, halike, hp⟩ := quotient_alike a b e f hm hk
  rw [hquot, hdiv]
  refine gives_of_alike halike hx (dyadic_false_pos _ hM) (by rw [log_dyadic E hM]; simp only [fp32]; omega) ?_
  rw [← dyadic_eq_sign_mul]
  refine gives_sign ?_
  have hsign : (Exact.val (dyadic (a != b) M E) n).sign = (a != b) := by
    rw [Exact.sign, if_neg (mt dyadic_eq_zero_iff.1 hM), Bool.eq_iff_iff, decide_eq_true_iff]
    exact dyadic_neg_iff _ hM
  rw [hsign]
  exact gives_roundLane_fin mode ..

theorem toNat_infLane (n : Bool) : (BitVec.ofNat 32 (fp32.infCode n) : Lane).toNat = fp32.infCode n := by cases n <;> rfl
theorem toNat_zeroLane (n : Bool) : (BitVec.ofNat 32 (fp32.signBit n) : Lane).toNat = fp32.signBit n := by cases n <;> rfl

theorem snan_nan (q : Bool) : (FNum.nan q).snan = flagIf q flagNV := by cases q <;> rfl
theorem snan_inf (n : Bool) : (FNum.inf n).snan = 0 := rfl
theorem snan_fin (n : Bool) (m : Nat) (e : Int) : (FNum.fin n m e).snan = 0 := rfl

theorem gives_nanLane (f : FFlags) (nv : Bool) (mode : Rnd) (h : f = flagIf nv flagNV) : (Exact.nan nv).Gives fp32 mode nanLane.toNat f :=
  ⟨rfl, h⟩

theorem bne_eq_xor (a b : Bool) : (a != b) = (a ^^ b) := by cases a <;> cases b <;> rfl

theorem fdiv_gives (mode : Rnd) (a b : Lane) : ((Exact.lane a).div (.lane b)).Gives fp32 mode (fdiv mode a b).1.toNat (fdiv mode a b).2 := by
  simp only [Exact.lane, fdiv]
  cases readLane a with
  | nan p =>
    cases readLane b with
    | nan q => exact gives_nanLane _ _ _ (by rw [snan_nan, snan_nan, flagIf_or])
    | inf n => exact gives_nanLane _ _ _ (by rw [snan_nan, snan_inf, flags_or_zero])
    | fin n m e => exact gives_nanLane _ _ _ (by rw [snan_nan, snan_fin, flags_or_zero])
  | inf n =>
    cases readLane b with
    | nan q => exact gives_nanLane _ _ _ (by rw [snan_nan, snan_inf, flags_zero_or])
    | inf k => exact gives_nanLane _ _ _ rfl
    | fin k m e =>
      rw [exactOf_fin, Exact.of, Exact.div, sign_val_dyadic, ← bne_eq_xor]
      exact ⟨toNat_infLane _, rfl⟩
  | fin n m e =>
    cases readLane b with
    | nan q => exact gives_nanLane _ _ _ (by rw [snan_nan, snan_fin, flags_zero_or])
    | inf k =>
      rw [exactOf_fin, Exact.of, Exact.div, sign_val_dyadic, ← bne_eq_xor]
      exact ⟨toNat_zeroLane _, rfl⟩
    | fin k l f =>
      rw [exactOf_fin, exactOf_fin, Exact.div, sign_val_dyadic, sign_val_dyadic, ← bne_eq_xor]
      simp only [dyadic_eq_zero_iff]
      by_cases hl : l = 0
      · by_cases hm : m = 0
        · rw [if_pos hl, if_pos hl, if_pos hm, if_pos hm]
          exact gives_nanLane _ _ _ rfl
        · rw [if_pos hl, if_pos hl, if_neg hm, if_neg hm]
          exact ⟨toNat_infLane _, rfl⟩
      · rw [if_neg hl, if_neg hl]
        by_cases hm : m = 0
        · have hzero : dyadic n m e / dyadic k l f = 0 := by rw [dyadic_eq_zero_iff.2 hm, zero_div]
          have hquot : quotient (n != k) m e l f = .fin (n != k) 0 (e - f - (64 + Nat.log2 l : Nat) - 1) := by
            rw [quotient_eq, hm]; simp
          have hg := gives_roundLane_fin mode (n != k) 0 (e - f - (64 + Nat.log2 l : Nat) - 1)
          rw [dyadic_eq_zero_iff.2 rfl] at hg
          rwa [hzero, hquot]
        · exact quotient_gives mode n k e f _ hm hl

/-! ## Scaling by a power of two -/

theorem log_abs_dyadic (neg : Bool) {m : Nat} (e : Int) (h : m ≠ 0) : Int.log 2 |dyadic neg m e| = (Nat.log2 m : Int) + e := by
  rw [abs_dyadic, log_dyadic e h]

/-- A number of 2^128 and beyond overflows (R82). -/
theorem overflow_of_log {f : Fmt} (hf : f.Ieee) (mode : Rnd) {x : ℚ} (hx : x ≠ 0) (h : (f.bias : Int) + 1 ≤ Int.log 2 |x|) :
    (2 : ℚ) ^ (f.bias + 1) ≤ |roundRat f mode x| := by
  have hbias := hf.bias_pos
  rw [roundRat_eq_roundWide (by omega), ← zpow_natCast]
  exact (zpow_le_zpow_right₀ one_le_two (by push_cast; exact h)).trans (abs_roundWide_bounds f mode hx).1

/-- Numbers far below the least unit of a format round alike: they differ from every number of the format, and only their sign counts. -/
theorem gives_of_small {f : Fmt} {mode : Rnd} {x z : ℚ} {n : Bool} {code : Nat} {fl : FFlags} (hx : x ≠ 0) (hz : z ≠ 0) (hsign : x < 0 ↔ z < 0)
    (hlx : Int.log 2 |x| + 1 < 1 - (f.bias : Int) - f.fbits) (hlz : Int.log 2 |z| + 1 < 1 - (f.bias : Int) - f.fbits)
    (hg : (Exact.val z n).Gives f mode code fl) : (Exact.val x n).Gives f mode code fl := by
  have hsmall (y : ℚ) (hl : Int.log 2 |y| + 1 < 1 - (f.bias : Int) - f.fbits) : |y| < (2 : ℚ) ^ (1 - (f.bias : Int) - f.fbits - 1) := by
    have := Int.lt_zpow_succ_log_self (b := 2) one_lt_two |y|
    exact this.trans_le (zpow_le_zpow_right₀ one_le_two (by omega))
  have halike : Alike x z (1 - (f.bias : Int) - f.fbits - 1) := by
    have hux := abs_lt.1 (hsmall x hlx)
    have huz := abs_lt.1 (hsmall z hlz)
    have htwo : (0 : ℚ) < 2 ^ (1 - (f.bias : Int) - f.fbits - 1) := by positivity
    have hle : x ≤ 0 ↔ z ≤ 0 := by rw [le_iff_lt_or_eq, le_iff_lt_or_eq, or_iff_left hx, or_iff_left hz, hsign]
    intro k
    obtain hk | rfl | hk := lt_trichotomy k 0
    · have : (k : ℚ) * 2 ^ (1 - (f.bias : Int) - f.fbits - 1) ≤ -2 ^ (1 - (f.bias : Int) - f.fbits - 1) := by
        have : (k : ℚ) ≤ -1 := by exact_mod_cast Int.le_sub_one_of_lt hk
        nlinarith
      exact ⟨iff_of_true (by linarith) (by linarith), iff_of_false (by linarith) (by linarith)⟩
    · rw [Int.cast_zero, zero_mul]
      exact ⟨by rw [← not_lt, ← not_lt, hsign], hle⟩
    · have : (2 : ℚ) ^ (1 - (f.bias : Int) - f.fbits - 1) ≤ (k : ℚ) * 2 ^ (1 - (f.bias : Int) - f.fbits - 1) := by
        have : (1 : ℚ) ≤ k := by exact_mod_cast hk
        nlinarith
      exact ⟨iff_of_false (by linarith) (by linarith), iff_of_true (by linarith) (by linarith)⟩
  have hmax (y : ℚ) (hl : Int.log 2 |y| + 1 < 1 - (f.bias : Int) - f.fbits) : max (Int.log 2 |y|) (1 - (f.bias : Int)) = 1 - (f.bias : Int) :=
    max_eq_right (by omega)
  have hint : roundInt mode (x / 2 ^ (1 - (f.bias : Int) - (f.fbits : Int))) = roundInt mode (z / 2 ^ (1 - (f.bias : Int) - (f.fbits : Int))) :=
    ((halike.div _).coarser (by omega)).roundInt_eq mode
  have hrat : roundRat f mode x = roundRat f mode z := by simp only [roundRat, hmax x hlx, hmax z hlz, hint]
  have htiny (y : ℚ) (hy : y ≠ 0) (hl : Int.log 2 |y| + 1 < 1 - (f.bias : Int) - f.fbits) : |roundWide f mode y| < (2 : ℚ) ^ (1 - (f.bias : Int)) :=
    (abs_roundWide_bounds f mode hy).2.trans_lt ((zpow_lt_zpow_iff_right₀ one_lt_two).2 (by omega))
  refine gives_congr hx hz hsign hrat ?_ (iff_of_true (htiny x hx hlx) (htiny z hz hlz)) hg
  simp only [roundRat, hmax z hlz]
  rw [ne_comm, ne_comm (b := z)]
  exact not_congr ((halike.coarser (by omega)).eq_iff _)

theorem fscale_gives (mode : Rnd) (a : Lane) (n : Int) : ((Exact.lane a).scale n).Gives fp32 mode (fscale mode a n).1.toNat (fscale mode a n).2 := by
  simp only [Exact.lane, fscale]
  cases ha : readLane a with
  | nan p => exact gives_nanLane _ _ _ (snan_nan p)
  | inf s =>
    obtain ⟨hs, hmag⟩ := readLane_inf ha
    refine ⟨?_, rfl⟩
    rw [toNat_eq_sign_mag, hmag, ← hs]
    rfl
  | fin s m e =>
    obtain ⟨hs, hval, -⟩ := readLane_fin ha
    obtain ⟨hmlt, hlow, hhigh⟩ := readLane_fin_bounds ha
    have hscaled (k : Int) : dyadic s m e * 2 ^ k = dyadic s m (e + k) := by rw [dyadic, dyadic, zpow_add₀ two_ne_zero]; ring
    rw [exactOf_fin, Exact.scale, hscaled]
    dsimp only
    by_cases hm : m = 0
    · have hmag : magBits a = 0 := by
        by_contra hne
        have hlt := magVal_strictMono (Nat.pos_of_ne_zero hne)
        rw [magVal_zero, ← hval, dyadic_eq_zero_iff.2 hm] at hlt
        exact lt_irrefl _ hlt
      rw [if_pos hm, dyadic_eq_zero_iff.2 hm]
      simp only [Exact.Gives, if_true]
      refine ⟨?_, trivial⟩
      rw [toNat_eq_sign_mag, hmag, ← hs]
      rfl
    · rw [if_neg hm]
      have hg := gives_roundLane_fin mode s m (e + max (-600) (min 600 n))
      have hlog (k : Int) := log_abs_dyadic s (e + k) hm
      have hne (k : Int) : dyadic s m (e + k) ≠ 0 := mt dyadic_eq_zero_iff.1 hm
      have hsign : dyadic s m (e + n) < 0 ↔ dyadic s m (e + max (-600) (min 600 n)) < 0 := by rw [dyadic_neg_iff _ hm, dyadic_neg_iff _ hm]
      have hlog2 : Nat.log2 m < 24 := (Nat.log2_lt hm).2 hmlt
      by_cases hbig : 600 < n
      · refine gives_congr_overflow (hne n) (hne _) hsign (overflow_of_log ieee_fp32 mode (hne n) ?_) (overflow_of_log ieee_fp32 mode (hne _) ?_) hg
        · rw [hlog]; simp only [fp32]; omega
        · rw [hlog]; simp only [fp32]; omega
      by_cases hsmall : n < -600
      · refine gives_of_small (hne n) (hne _) hsign ?_ ?_ hg
        · rw [hlog]; simp only [fp32]; omega
        · rw [hlog]; simp only [fp32]; omega
      · rw [max_eq_right (by omega), min_eq_right (by omega)] at hg ⊢
        exact hg

end Sys2Proof.Machine
end

section
/-! # Roots (R129, R130): digits of a real number that round as it does -/
namespace Sys2Proof.Machine

open Sys2Proof.Safety

/-! ## The integer square root -/

theorem isqrtFrom_spec (n b acc : Nat) (hlow : acc * acc ≤ n) (hhigh : n < (acc + 2 ^ b) * (acc + 2 ^ b)) :
    isqrtFrom n b acc * isqrtFrom n b acc ≤ n ∧ n < (isqrtFrom n b acc + 1) * (isqrtFrom n b acc + 1) := by
  induction b generalizing acc with
  | zero => exact ⟨hlow, hhigh⟩
  | succ b ih =>
    rw [isqrtFrom]
    split
    next hle => exact ih _ hle (by rw [Nat.add_assoc, ← Nat.two_mul, ← pow_succ']; exact hhigh)
    next hgt => exact ih _ hlow (by omega)

theorem isqrt_eq_sqrt (n : Nat) : isqrt n = Nat.sqrt n := by
  have hn : n < 2 ^ (Nat.log2 n + 1) := Nat.lt_log2_self
  have hhigh : n < (0 + 2 ^ (Nat.log2 n / 2 + 1)) * (0 + 2 ^ (Nat.log2 n / 2 + 1)) := by
    rw [Nat.zero_add, ← pow_add]
    exact hn.trans_le (Nat.pow_le_pow_right two_pos (by omega))
  obtain ⟨h1, h2⟩ := isqrtFrom_spec n (Nat.log2 n / 2 + 1) 0 (by simp) hhigh
  exact (Nat.eq_sqrt.2 ⟨h1, h2⟩)

theorem real_sqrt_bounds (n : Nat) : ((Nat.sqrt n : Nat) : ℝ) ≤ √(n : ℝ) ∧ √(n : ℝ) < Nat.sqrt n + 1 ∧
    (Nat.sqrt n * Nat.sqrt n = n ↔ √(n : ℝ) = Nat.sqrt n) := by
  refine ⟨?_, ?_, ?_⟩
  · exact Real.nat_sqrt_le_real_sqrt
  · exact Real.real_sqrt_lt_nat_sqrt_succ
  · rw [Real.sqrt_eq_iff_mul_self_eq (Nat.cast_nonneg _) (Nat.cast_nonneg _)]
    norm_cast
    exact eq_comm

/-! ## A positive real number of the normal range, rounded by its digits -/

/-- A number `y` with unit `u` is the real number `w` rounded in a mode. -/
def RealNear (mode : Rnd) (y u : ℚ) (w : ℝ) : Prop :=
  match mode with
  | .rne => ((y - u / 2 : ℚ) : ℝ) ≤ w ∧ w ≤ ((y + u / 2 : ℚ) : ℝ)
  | .rup => ((y - u : ℚ) : ℝ) < w ∧ w ≤ y
  | _ => (y : ℝ) ≤ w ∧ w < ((y + u : ℚ) : ℝ)

/-- A number that lies alike a real number among the half units rounds to what the real number rounds to. -/
theorem realNear_roundInt (mode : Rnd) {w : ℝ} {z : ℚ} {p : Int} (hz : 0 ≤ z) (halike : Alike w (z : ℝ) (p - 1)) :
    RealNear mode (roundInt mode (z / 2 ^ p) * 2 ^ p) (2 ^ p) w := by
  have hu : (0 : ℚ) < 2 ^ p := by positivity
  have hnear := roundInt_near mode (div_nonneg hz hu.le)
  have hback : z / 2 ^ p * 2 ^ p = z := div_mul_cancel₀ _ hu.ne'
  have hu' : (2 : ℚ) ^ p = 2 * 2 ^ (p - 1) := by rw [zpow_sub_one₀ two_ne_zero]; ring
  generalize roundInt mode (z / 2 ^ p) = R at *
  have hmul (k : Int) : ((k * 2 ^ (p - 1) : ℚ) : ℝ) = (k : ℝ) * 2 ^ (p - 1) := by push_cast; rfl
  have hle (k : Int) : (k * 2 ^ (p - 1) : ℚ) ≤ z → ((k * 2 ^ (p - 1) : ℚ) : ℝ) ≤ w := fun h => by
    rw [hmul]; exact (halike k).1.2 (by rw [← hmul]; exact_mod_cast h)
  have hge (k : Int) : z ≤ (k * 2 ^ (p - 1) : ℚ) → w ≤ ((k * 2 ^ (p - 1) : ℚ) : ℝ) := fun h => by
    rw [hmul]; exact (halike k).2.2 (by rw [← hmul]; exact_mod_cast h)
  have hlt (k : Int) : (k * 2 ^ (p - 1) : ℚ) < z → ((k * 2 ^ (p - 1) : ℚ) : ℝ) < w := fun h => by
    rw [hmul]; exact (halike.lt_iff k).2.2 (by rw [← hmul]; exact_mod_cast h)
  have hgt (k : Int) : z < (k * 2 ^ (p - 1) : ℚ) → w < ((k * 2 ^ (p - 1) : ℚ) : ℝ) := fun h => by
    rw [hmul]; exact (halike.lt_iff k).1.2 (by rw [← hmul]; exact_mod_cast h)
  generalize hv : (2 : ℚ) ^ (p - 1) = v at *
  have hv0 : (0 : ℚ) < 2 * v := hu' ▸ hu
  rw [hu'] at hnear hback
  rw [hu']
  generalize z / (2 * v) = t at *
  subst hback
  unfold RealNear
  cases mode <;> dsimp only at hnear ⊢
  case rne =>
    obtain ⟨h1, h2⟩ := hnear
    have e1 : (R : ℚ) * (2 * v) - 2 * v / 2 = ((2 * R - 1 : Int) : ℚ) * v := by push_cast; ring
    have e2 : (R : ℚ) * (2 * v) + 2 * v / 2 = ((2 * R + 1 : Int) : ℚ) * v := by push_cast; ring
    rw [e1, e2]
    exact ⟨hle _ (by rw [← e1]; nlinarith), hge _ (by rw [← e2]; nlinarith)⟩
  case rup =>
    obtain ⟨h1, h2⟩ := hnear
    have e1 : (R : ℚ) * (2 * v) - 2 * v = ((2 * R - 2 : Int) : ℚ) * v := by push_cast; ring
    have e2 : (R : ℚ) * (2 * v) = ((2 * R : Int) : ℚ) * v := by push_cast; ring
    rw [e1, e2]
    exact ⟨hlt _ (by rw [← e1]; nlinarith), hge _ (by rw [← e2]; nlinarith)⟩
  all_goals
    obtain ⟨h1, h2⟩ := hnear
    have e1 : (R : ℚ) * (2 * v) = ((2 * R : Int) : ℚ) * v := by push_cast; ring
    have e2 : (R : ℚ) * (2 * v) + 2 * v = ((2 * R + 2 : Int) : ℚ) * v := by push_cast; ring
    rw [e2, e1]
    exact ⟨hle _ (by rw [← e1]; nlinarith), hgt _ (by rw [← e2]; nlinarith)⟩

/-- The lane that the digits of a real number round to, its flags, and how far it is from the number: `u` is its unit, or the unit of the binade
below where the number was carried up. -/
theorem normal_rounds (mode : Rnd) {w : ℝ} {M : Nat} {E q : Int} (hM : M ≠ 0) (halike : Alike w ((dyadic false M E : ℚ) : ℝ) q)
    (hq : q ≤ (Nat.log2 M : Int) + E - 24) (hlow : -126 ≤ (Nat.log2 M : Int) + E) (hhigh : (Nat.log2 M : Int) + E < 127) :
    ∃ y u : ℚ, Exact.lane (roundLane mode (.fin false M E)).1 = .val y false ∧ 0 < u ∧ u ≤ 2 ^ (Int.log 2 y - 23) ∧ 2 ^ 23 * u ≤ y ∧
      (((roundLane mode (.fin false M E)).2 = 0 ∧ (y : ℝ) = w) ∨ ((roundLane mode (.fin false M E)).2 = flagNX ∧ (y : ℝ) ≠ w)) ∧
      RealNear mode y u w := by
  have hg := gives_roundLane_fin mode false M E
  have hlog := log_dyadic E hM
  have habs := abs_dyadic false M E
  have hz := dyadic_false_pos E hM
  generalize hzdef : dyadic false M E = z at *
  generalize hL : (Nat.log2 M : Int) + E = L at *
  have hne : z ≠ 0 := hz.ne'
  have hloga : Int.log 2 |z| = L := by rw [habs, hlog]
  have hwide := abs_roundWide_bounds fp32 mode hne
  have hrat : roundRat fp32 mode z = roundWide fp32 mode z := roundRat_eq_roundWide (by rw [hloga]; simp only [fp32]; omega)
  rw [hloga] at hwide
  have hfin : |roundRat fp32 mode z| < 2 ^ (fp32.bias + 1) := by
    rw [hrat, ← zpow_natCast]
    exact hwide.2.trans_lt ((zpow_lt_zpow_iff_right₀ one_lt_two).2 (by simp only [fp32]; omega))
  have hnottiny : ¬ |roundWide fp32 mode z| < (2 : ℚ) ^ (1 - (fp32.bias : Int)) :=
    not_lt.2 (le_trans (zpow_le_zpow_right₀ one_le_two (by simp only [fp32]; omega)) hwide.1)
  simp only [Exact.Gives, if_neg hne, if_pos hfin, if_neg (not_lt.2 hz.le), hnottiny, false_and, decide_false, flagIf_false, flags_or_zero,
    decide_eq_false (not_lt.2 hz.le), one_mul] at hg
  obtain ⟨⟨m, e, hread, hval⟩, hflags⟩ := hg
  have hu : (0 : ℚ) < 2 ^ (L - 23) := by positivity
  have hy : roundRat fp32 mode z = roundInt mode (z / 2 ^ (L - 23)) * 2 ^ (L - 23) := by
    rw [hrat, roundWide, hloga]; rfl
  have hypos : 0 < roundRat fp32 mode z := by
    rw [hy]
    have : (1 : Int) ≤ roundInt mode (z / 2 ^ (L - 23)) := by
      refine le_roundInt ?_
      rw [Int.cast_one, one_le_div hu]
      refine le_trans (zpow_le_zpow_right₀ one_le_two (by omega)) (?_ : (2 : ℚ) ^ L ≤ z)
      rw [← hlog]
      exact_mod_cast Int.zpow_log_le_self (b := 2) one_lt_two hz
    have : (0 : ℚ) < roundInt mode (z / 2 ^ (L - 23)) := by exact_mod_cast this
    positivity
  rw [abs_of_pos (hrat ▸ hypos)] at hwide
  rw [← hrat] at hwide
  have hlane : Exact.lane (roundLane mode (.fin false M E)).1 = .val (roundRat fp32 mode z) false := by
    rw [Exact.lane, readLane, hread, exactOf_fin, dyadic_false, hval]
  refine ⟨roundRat fp32 mode z, 2 ^ (L - 23), hlane, hu, ?_, ?_, ?_, ?_⟩
  · refine zpow_le_zpow_right₀ one_le_two ?_
    have := (Int.zpow_le_iff_le_log (b := 2) one_lt_two hypos).1 (by exact_mod_cast hwide.1)
    omega
  · refine le_trans (le_of_eq ?_) hwide.1
    rw [← zpow_natCast, ← zpow_add₀ two_ne_zero]; congr 1; push_cast; ring
  · have heq := (halike.coarser (p := L - 23) (by omega)).eq_iff (roundInt mode (z / 2 ^ (L - 23)))
    have hcast : ((roundRat fp32 mode z : ℚ) : ℝ) = (roundInt mode (z / 2 ^ (L - 23)) : ℝ) * 2 ^ (L - 23) := by rw [hy]; push_cast; rfl
    rw [← hcast, Rat.cast_inj] at heq
    by_cases hexact : roundRat fp32 mode z = z
    · exact .inl ⟨by rw [hflags]; simp [hexact], (heq.2 hexact.symm).symm⟩
    · exact .inr ⟨by rw [hflags]; simp [hexact], fun h => hexact (heq.1 h.symm).symm⟩
  · rw [hy]
    exact realNear_roundInt mode hz.le (halike.coarser (by omega))

/-! ## The digits of a square root -/

/-- A number with its exponent made even. -/
def evenExp (m : Nat) (e : Int) : Nat × Int := if e % 2 = 0 then (m, e) else (2 * m, e - 1)

theorem dyadic_evenExp (m : Nat) (e : Int) : dyadic false (evenExp m e).1 (evenExp m e).2 = dyadic false m e := by
  rw [evenExp]
  split
  · rfl
  · rw [mul_comm]; exact dyadic_shift false m 1 e

theorem cast_dyadic (m : Nat) (e : Int) : ((dyadic false m e : ℚ) : ℝ) = (m : ℝ) * 2 ^ e := by rw [dyadic_false]; push_cast; rfl

theorem evenExp_bounds (m : Nat) (e : Int) :
    (evenExp m e).2 % 2 = 0 ∧ m ≤ (evenExp m e).1 ∧ (evenExp m e).1 ≤ 2 * m ∧ e - 1 ≤ (evenExp m e).2 ∧ (evenExp m e).2 ≤ e := by
  rw [evenExp]
  split <;> dsimp only <;> omega

theorem sqrt_dyadic {k : Nat} {g : Int} (hg : g % 2 = 0) (j : Nat) :
    √((dyadic false k g : ℚ) : ℝ) = √((k * 2 ^ (2 * j) : Nat) : ℝ) * (2 : ℝ) ^ (g / 2 - j) := by
  have hpos : (0 : ℝ) ≤ 2 ^ (g / 2 - j) := by positivity
  rw [← Real.sqrt_sq hpos, ← Real.sqrt_mul (Nat.cast_nonneg _), dyadic_false]
  congr 1
  push_cast
  have hexp : (2 : ℝ) ^ g = 2 ^ (2 * j) * (2 ^ (g / 2 - (j : Int))) ^ 2 := by
    rw [← zpow_natCast _ (2 * j), ← zpow_natCast _ 2, ← zpow_mul, ← zpow_add₀ two_ne_zero]
    congr 1
    push_cast
    omega
  rw [hexp]
  ring

theorem root_eq (m : Nat) (e : Int) : root m e =
    .fin false (2 * Nat.sqrt ((evenExp m e).1 * 2 ^ (2 * 40)) + if Nat.sqrt ((evenExp m e).1 * 2 ^ (2 * 40)) * Nat.sqrt ((evenExp m e).1 * 2 ^ (2 * 40)) =
      (evenExp m e).1 * 2 ^ (2 * 40) then 0 else 1) ((evenExp m e).2 / 2 - 41) := by
  rw [← isqrt_eq_sqrt]
  rfl

/-- The digits of the root of a lane's number are those of the real root, and have the normal range's exponent. -/
theorem root_alike {m : Nat} {e : Int} (hm : m ≠ 0) (hmlt : m < 2 ^ 24) (he : -149 ≤ e) (he' : e ≤ 104) :
    ∃ M E q, root m e = .fin false M E ∧ M ≠ 0 ∧ Alike (√((dyadic false m e : ℚ) : ℝ)) ((dyadic false M E : ℚ) : ℝ) q ∧
      q ≤ (Nat.log2 M : Int) + E - 24 ∧ -126 ≤ (Nat.log2 M : Int) + E ∧ (Nat.log2 M : Int) + E < 127 := by
  obtain ⟨hg, hk, hk', hg1, hg2⟩ := evenExp_bounds m e
  rw [root_eq, ← dyadic_evenExp m e, sqrt_dyadic hg 40]
  generalize (evenExp m e).1 = k at *
  generalize (evenExp m e).2 = g at *
  obtain ⟨hlow, hhigh, hexact⟩ := real_sqrt_bounds (k * 2 ^ (2 * 40))
  have halike := alike_sticky hlow hhigh hexact (g / 2 - 40)
  have hr : 2 ^ 40 ≤ Nat.sqrt (k * 2 ^ (2 * 40)) := Nat.le_sqrt.2 (by omega)
  have hr' : Nat.sqrt (k * 2 ^ (2 * 40)) < 2 ^ 53 := Nat.sqrt_lt.2 (by omega)
  have hmod : ∀ b : Nat, (b = 0 ∨ b = 1) → ∀ M, 2 * Nat.sqrt (k * 2 ^ (2 * 40)) + b = M → M ≠ 0 ∧ 41 ≤ Nat.log2 M ∧ Nat.log2 M < 54 := by
    intro b hb M hM
    have hM0 : M ≠ 0 := by omega
    exact ⟨hM0, (Nat.le_log2 hM0).2 (by omega), (Nat.log2_lt hM0).2 (by omega)⟩
  obtain ⟨hM0, hl1, hl2⟩ := hmod (if Nat.sqrt (k * 2 ^ (2 * 40)) * Nat.sqrt (k * 2 ^ (2 * 40)) = k * 2 ^ (2 * 40) then 0 else 1)
    (by split <;> simp) _ rfl
  refine ⟨_, _, g / 2 - 40, rfl, hM0, ?_, by omega, by omega, by omega⟩
  rw [cast_dyadic, show g / 2 - 41 = g / 2 - 40 - 1 by ring]
  exact halike

/-- A root `y` with unit `u` in the last place is the root of `q` rounded in a mode, by squares (R129). -/
def SquareNear (mode : Rnd) (y u q : ℚ) : Prop :=
  match mode with
  | .rne => (y - u / 2) ^ 2 ≤ q ∧ q ≤ (y + u / 2) ^ 2
  | .rup => q ≤ y ^ 2 ∧ (y - u) ^ 2 < q
  | _ => y ^ 2 ≤ q ∧ q < (y + u) ^ 2

/-- A root rounded once: how far its square, and the squares of its neighbours, are from the number (R129). -/
theorem fsqrt_near (mode : Rnd) {m : Nat} {e : Int} (hm : m ≠ 0) (hmlt : m < 2 ^ 24) (he : -149 ≤ e) (he' : e ≤ 104) {q : ℚ} (hq : q = dyadic false m e) :
    ∃ y u : ℚ, Exact.lane (roundLane mode (root m e)).1 = .val y false ∧ u = 2 ^ (Int.log 2 y - 23) ∧ 0 < y ∧
      (roundLane mode (root m e)).2 = flagIf (decide (y * y ≠ q)) flagNX ∧ SquareNear mode y u q := by
  subst hq
  obtain ⟨M, E, p, hroot, hM, halike, hp, hlow, hhigh⟩ := root_alike hm hmlt he he'
  obtain ⟨y, u, hlane, hu, hule, huy, hfl, hnear⟩ := normal_rounds mode hM halike hp hlow hhigh
  have hy : 0 < y := lt_of_lt_of_le (by positivity) huy
  have hpos := dyadic_false_pos e hm
  generalize dyadic false m e = x at *
  have hw : √(x : ℝ) ^ 2 = x := Real.sq_sqrt (by exact_mod_cast hpos.le)
  have hw0 : 0 ≤ √(x : ℝ) := Real.sqrt_nonneg _
  have hulp : (2 : ℚ) ^ (Int.log 2 y - 23) ≤ y := by
    have := Int.zpow_log_le_self (b := 2) one_lt_two hy
    exact (zpow_le_zpow_right₀ one_le_two (by omega : Int.log 2 y - 23 ≤ Int.log 2 y)).trans (by exact_mod_cast this)
  rw [hroot]
  generalize √(x : ℝ) = w at *
  refine ⟨y, _, hlane, rfl, hy, ?_, ?_⟩
  · have hsq : y * y = x ↔ (y : ℝ) = w := by
      rw [← Rat.cast_inj (α := ℝ), ← hw]
      push_cast
      rw [← sq, sq_eq_sq₀ (by exact_mod_cast hy.le) hw0]
    obtain ⟨hfl, heq⟩ | ⟨hfl, heq⟩ := hfl
    · rw [hfl, decide_eq_false (by rw [not_not]; exact hsq.2 heq)]; rfl
    · rw [hfl, decide_eq_true (mt hsq.1 heq)]; rfl
  · generalize (2 : ℚ) ^ (Int.log 2 y - 23) = v at *
    have hle (a : ℚ) (ha : 0 ≤ a) (h : (a : ℝ) ≤ w) : a ^ 2 ≤ x := by
      have h2 : (a : ℝ) ^ 2 ≤ x := hw ▸ pow_le_pow_left₀ (by exact_mod_cast ha) h 2
      exact_mod_cast h2
    have hge (a : ℚ) (h : w ≤ (a : ℝ)) : x ≤ a ^ 2 := by
      have h2 : (x : ℝ) ≤ (a : ℝ) ^ 2 := hw ▸ pow_le_pow_left₀ hw0 h 2
      exact_mod_cast h2
    have hlt (a : ℚ) (ha : 0 ≤ a) (h : (a : ℝ) < w) : a ^ 2 < x := by
      have h2 : (a : ℝ) ^ 2 < x := hw ▸ pow_lt_pow_left₀ h (by exact_mod_cast ha) two_ne_zero
      exact_mod_cast h2
    have hgt (a : ℚ) (h : w < (a : ℝ)) : x < a ^ 2 := by
      have h2 : (x : ℝ) < (a : ℝ) ^ 2 := hw ▸ pow_lt_pow_left₀ h hw0 two_ne_zero
      exact_mod_cast h2
    have hcast {a b : ℚ} (h : a ≤ b) : (a : ℝ) ≤ b := by exact_mod_cast h
    unfold RealNear at hnear
    cases mode <;> dsimp only at hnear
    case rne => exact ⟨hle _ (by linarith) ((hcast (by linarith)).trans hnear.1), hge _ (hnear.2.trans (hcast (by linarith)))⟩
    case rup => exact ⟨hge _ hnear.2, hlt _ (by linarith) ((hcast (by linarith)).trans_lt hnear.1)⟩
    all_goals exact ⟨hle _ hy.le hnear.1, hgt _ (hnear.2.trans_le (hcast (by linarith)))⟩

end Sys2Proof.Machine
end

section
/-! # VFMIN, VFMAX, VFABS, VFNEG and VFSQRT (R129) -/
namespace Sys2Proof.Machine

open Sys2Proof.Safety

/-! ## Flags of NaN operands (R83) -/

theorem snan_eq (x : FNum) : x.snan = flagIf (decide (x = .nan true)) flagNV := by
  cases x with
  | nan q => cases q <;> rfl
  | inf n => rfl
  | fin n m e => rfl

theorem decide_or_eq (p q : Prop) [Decidable p] [Decidable q] : decide (p ∨ q) = (decide p || decide q) := Bool.decide_or ..

/-! ## The order of VFMIN and VFMAX -/

/-- The order of R129 is that of the keys. -/
theorem orderKey_lt_of_floatBelow {x y : Lane} (h : floatBelow x y) : orderKey x < orderKey y := by
  have hzero (n : Nat) : (0 : Int) ≤ n := Int.natCast_nonneg n
  rw [orderKey_eq, orderKey_eq]
  simp only [floatBelow] at h
  cases hx : readLane x with
  | nan q => simp [hx] at h
  | inf a =>
    obtain ⟨ha, hmx⟩ := readLane_inf hx
    cases hy : readLane y with
    | nan q => simp [hx, hy] at h
    | inf b =>
      obtain ⟨hb, hmy⟩ := readLane_inf hy
      simp only [hx, hy] at h
      rw [← ha, ← hb, h.1, h.2, hmx, hmy]
      decide
    | fin b n f =>
      obtain ⟨hb, -, hmy⟩ := readLane_fin hy
      simp only [hx, hy] at h
      rw [← ha, ← hb, h, hmx]
      cases b
      · simp; omega
      · simp; omega
  | fin a m e =>
    obtain ⟨ha, hvx, hmx⟩ := readLane_fin hx
    cases hy : readLane y with
    | nan q => simp [hx, hy] at h
    | inf b =>
      obtain ⟨hb, hmy⟩ := readLane_inf hy
      simp only [hx, hy] at h
      rw [← ha, ← hb, h, hmy]
      cases a
      · simp; omega
      · simp
    | fin b n f =>
      obtain ⟨hb, hvy, hmy⟩ := readLane_fin hy
      simp only [hx, hy] at h
      rw [← ha, ← hb]
      change dyadic a m e < dyadic b n f ∨ _ at h
      have hnx := magVal_nonneg (magBits x)
      have hny := magVal_nonneg (magBits y)
      cases a <;> cases b
      · have h' := h.resolve_right (by simp)
        rw [hvx, hvy, magVal_strictMono.lt_iff_lt] at h'
        simpa using h'
      · exfalso
        have h' := h.resolve_right (by simp)
        rw [dyadic_true, hvx, hvy] at h'
        linarith
      · have hkey : (-(magBits x : Int) - 1) < magBits y := by omega
        simp [hkey]
      · have h' := h.resolve_right (by simp)
        rw [dyadic_true, dyadic_true, hvx, hvy, neg_lt_neg_iff, magVal_strictMono.lt_iff_lt] at h'
        simpa using h'

theorem fpick_flags (up : Bool) (x y : Lane) :
    (fpick up x y).2 = flagIf (decide (readLane x = .nan true ∨ readLane y = .nan true)) flagNV := by
  have : (fpick up x y).2 = (readLane x).snan ||| (readLane y).snan := by unfold fpick; dsimp only; split_ifs <;> rfl
  rw [this, snan_eq, snan_eq, flagIf_or, decide_or_eq]

/-- Between two numbers, the pick is the one whose key is on the asked side. -/
theorem fpick_numbers {up : Bool} {x y : Lane} (hx : (readLane x).isNan = false) (hy : (readLane y).isNan = false) :
    (fpick up x y).1 = if (orderKey x < orderKey y) == up then y else x := by
  simp [fpick, hx, hy]

theorem not_isNan_of_floatBelow {x y : Lane} (h : floatBelow x y) : (readLane x).isNan = false ∧ (readLane y).isNan = false := by
  simp only [floatBelow] at h
  cases hx : readLane x <;> cases hy : readLane y <;> simp_all [FNum.isNan]

/-- VFMIN and VFMAX in one lane, as R129 says. -/
theorem fpick_lane (up : Bool) (x y : Lane) :
    (fpick up x y).2 = flagIf (decide (readLane x = .nan true ∨ readLane y = .nan true)) flagNV ∧
      ((readLane x).isNan = true → (readLane y).isNan = true → (fpick up x y).1 = 0x7FC00000) ∧
      ((readLane x).isNan = true → (readLane y).isNan = false → (fpick up x y).1 = y) ∧
      ((readLane x).isNan = false → (readLane y).isNan = true → (fpick up x y).1 = x) ∧
      (floatBelow x y → (fpick up x y).1 = if up then y else x) ∧ (floatBelow y x → (fpick up x y).1 = if up then x else y) ∧
      ((readLane x).isNan = false → (readLane y).isNan = false → (fpick up x y).1 = x ∨ (fpick up x y).1 = y) := by
  refine ⟨fpick_flags up x y, fun hx hy => by simp [fpick, hx, hy]; rfl, fun hx hy => by simp [fpick, hx, hy],
    fun hx hy => by simp [fpick, hx, hy], fun h => ?_, fun h => ?_, fun hx hy => ?_⟩
  · obtain ⟨hx, hy⟩ := not_isNan_of_floatBelow h
    rw [fpick_numbers hx hy, decide_eq_true (orderKey_lt_of_floatBelow h)]
    cases up <;> rfl
  · obtain ⟨hy, hx⟩ := not_isNan_of_floatBelow h
    rw [fpick_numbers hx hy, decide_eq_false (orderKey_lt_of_floatBelow h).not_gt]
    cases up <;> rfl
  · rw [fpick_numbers hx hy]
    split
    · exact .inr rfl
    · exact .inl rfl

/-! ## Signs -/

theorem fsign_lane (x v : Lane) :
    (fsign x v).2 = flagIf (decide (readLane x = .nan true)) flagNV ∧ (fsign x v).1 = if (readLane x).isNan then 0x7FC00000 else v := by
  rw [← snan_eq, fsign]
  cases readLane x <;> exact ⟨rfl, rfl⟩

theorem clearSign_value (x : Lane) : x &&& 0x7FFFFFFF = BitVec.ofNat 32 (x.toNat % 2 ^ 31 + 0) := by
  apply BitVec.eq_of_toNat_eq
  have : (x &&& 0x7FFFFFFF).toNat = x.toNat % 2 ^ 31 := Nat.and_two_pow_sub_one_eq_mod x.toNat 31
  rw [this, BitVec.toNat_ofNat]
  omega

/-- The other sign on a lane (R129). -/
theorem flipSign_bits (x : Lane) : (x ^^^ 0x80000000).getLsbD 31 = !x.getLsbD 31 ∧ magBits (x ^^^ 0x80000000) = magBits x := by
  refine ⟨by rw [BitVec.getLsbD_xor]; simp, ?_⟩
  rw [magBits, magBits, BitVec.toNat_xor]
  apply Nat.eq_of_testBit_eq
  intro i
  rw [Nat.testBit_mod_two_pow, Nat.testBit_mod_two_pow, Nat.testBit_xor]
  have hconst : (0x80000000 : Lane).toNat = 2 ^ 31 := rfl
  rw [hconst, Nat.testBit_two_pow]
  by_cases hi : i < 31
  · simp [hi, show ¬ 31 = i by omega]
  · simp [hi]

theorem flipSign_value (x : Lane) : x ^^^ 0x80000000 = BitVec.ofNat 32 (x.toNat % 2 ^ 31 + if !x.getLsbD 31 then 2 ^ 31 else 0) := by
  obtain ⟨hsign, hmag⟩ := flipSign_bits x
  apply BitVec.eq_of_toNat_eq
  rw [toNat_eq_sign_mag, hsign, hmag, BitVec.toNat_ofNat, magBits]
  split <;> omega

/-- VFABS and VFNEG in one lane. -/
theorem fsign_signed (inv : Bool) (x : Lane) :
    (fsign x (if inv then x ^^^ 0x80000000 else x &&& 0x7FFFFFFF)).1 = if (readLane x).isNan then 0x7FC00000
      else BitVec.ofNat 32 (x.toNat % 2 ^ 31 + if inv && !x.getLsbD 31 then 2 ^ 31 else 0) := by
  rw [(fsign_lane x _).2]
  cases inv
  · simp only [Bool.false_eq_true, if_false, clearSign_value, Bool.false_and]
  · simp only [if_true, flipSign_value, Bool.true_and]

/-! ## Square roots -/

/-- VFSQRT in one lane. -/
theorem fsqrt_lane (mode : Rnd) (b : Lane) :
    match Exact.lane b with
    | .nan sig => (fsqrt mode b).1 = 0x7FC00000 ∧ (fsqrt mode b).2 = flagIf sig flagNV
    | .inf n _ => if n then (fsqrt mode b).1 = 0x7FC00000 ∧ (fsqrt mode b).2 = flagNV else (fsqrt mode b).1 = 0x7F800000 ∧ (fsqrt mode b).2 = 0
    | .val q _ =>
      if q = 0 then (fsqrt mode b).1 = b ∧ (fsqrt mode b).2 = 0
      else if q < 0 then (fsqrt mode b).1 = 0x7FC00000 ∧ (fsqrt mode b).2 = flagNV
      else ∃ y u : ℚ, Exact.lane (fsqrt mode b).1 = .val y false ∧ u = 2 ^ (Int.log 2 y - 23) ∧ 0 < y ∧
        (fsqrt mode b).2 = flagIf (decide (y * y ≠ q)) flagNX ∧ SquareNear mode y u q := by
  unfold fsqrt Exact.lane
  cases hb : readLane b with
  | nan q => exact ⟨rfl, snan_nan q⟩
  | inf n =>
    obtain ⟨hn, hmag⟩ := readLane_inf hb
    cases n
    · have hinf : b = 0x7F800000 := lane_ext (hn.symm.trans (by decide)) (hmag.trans (by decide))
      exact ⟨hinf, rfl⟩
    · exact ⟨rfl, rfl⟩
  | fin n m e =>
    obtain ⟨hmlt, he, he'⟩ := readLane_fin_bounds hb
    rw [exactOf_fin]
    dsimp only
    by_cases hm : m = 0
    · rw [if_pos (dyadic_eq_zero_iff.2 hm), if_pos hm]
      exact ⟨rfl, rfl⟩
    rw [if_neg (mt dyadic_eq_zero_iff.1 hm), if_neg hm]
    cases n
    · rw [if_neg (dyadic_false_pos e hm).le.not_gt, if_neg Bool.false_ne_true]
      exact fsqrt_near mode hm hmlt he he' rfl
    · rw [if_pos ((dyadic_neg_iff e hm).2 rfl), if_pos rfl]
      exact ⟨rfl, rfl⟩

/-- Settles O8: lane by lane, from the keys' order, the signs, one rounding of an exact number, and the digits of quotients and roots. -/
theorem floatElementwise : Obligations.FloatElementwise := by
  unfold Obligations.FloatElementwise
  refine ⟨fun s g d a b up hacts => ?_, fun s g d b inv hacts => ?_, fun s g d a b r hacts => ?_, fun s g d a b r hacts => ?_,
    fun s g d b r hacts => ?_⟩
  · refine ⟨fun i => (fpick up (lane (s.vsrc a) i) (lane (s.vsrc b) i)).1, fun i => (fpick up (lane (s.vsrc a) i) (lane (s.vsrc b) i)).2, ?_,
      fun j _ => ⟨_, _, rfl, rfl, fpick_lane ..⟩⟩
    cases up <;> exact floatResult_acts hacts ..
  · refine ⟨fun i => (fsign (lane (s.vsrc b) i) (if inv then lane (s.vsrc b) i ^^^ 0x80000000 else lane (s.vsrc b) i &&& 0x7FFFFFFF)).1,
      fun i => (fsign (lane (s.vsrc b) i) (if inv then lane (s.vsrc b) i ^^^ 0x80000000 else lane (s.vsrc b) i &&& 0x7FFFFFFF)).2, ?_,
      fun j _ => ⟨_, rfl, (fsign_lane ..).1, fsign_signed ..⟩⟩
    cases inv <;> exact floatResult_acts hacts ..
  · exact ⟨_, _, floatResult_acts hacts 4 d fun i => fscale r (lane (s.vsrc a) i) (lane (s.vsrc b) i).toInt, fun j _ => fscale_gives ..⟩
  · exact ⟨_, _, floatDivide_acts hacts d fun i => fdiv r (lane (s.vsrc a) i) (lane (s.vsrc b) i), fun j _ => fdiv_gives ..⟩
  · exact ⟨_, _, floatDivide_acts hacts d fun i => fsqrt r (lane (s.vsrc b) i), fun j _ => fsqrt_lane ..⟩

end Sys2Proof.Machine
end

section
/-! # Float compares and VFCLASS (R131) -/
namespace Sys2Proof.Machine

open Sys2Proof.Safety

theorem floatMaskNan_eq (x : Lane) : floatCompare.nan x = (readLane x).isNan := by
  rw [floatCompare.nan]
  cases readLane x <;> rfl

theorem floatMaskSig_eq (x : Lane) : flagIf (floatCompare.sig x) flagNV = (readLane x).snan := by rw [snan_eq]; rfl

/-! ## The numbers that the compares order -/

/-- The value of magnitude bits, an infinity's beyond every finite one. -/
def extVal (n : Nat) : ℚ := if n = 0x7F800000 then 2 ^ 200 else magVal n

theorem extVal_lt_iff {a b : Nat} (ha : a ≤ 0x7F800000) (hb : b ≤ 0x7F800000) : extVal a < extVal b ↔ a < b := by
  have hfin {n : Nat} (hn : n < 0x7F800000) : magVal n < 2 ^ 200 :=
    (magVal_strictMono hn).trans (by rw [magVal_inf]; exact pow_lt_pow_right₀ one_lt_two (by decide))
  unfold extVal
  obtain ha | rfl := ha.lt_or_eq
  · obtain hb | rfl := hb.lt_or_eq
    · rw [if_neg ha.ne, if_neg hb.ne, magVal_strictMono.lt_iff_lt]
    · rw [if_neg ha.ne, if_pos rfl]
      exact iff_of_true (hfin ha) ha
  · obtain hb | rfl := hb.lt_or_eq
    · rw [if_pos rfl, if_neg hb.ne]
      exact iff_of_false (hfin hb).not_gt hb.not_gt
    · simp

theorem extVal_nonneg (n : Nat) : 0 ≤ extVal n := by
  unfold extVal
  split
  · positivity
  · exact magVal_nonneg n

theorem extVal_eq_iff {a b : Nat} (ha : a ≤ 0x7F800000) (hb : b ≤ 0x7F800000) : extVal a = extVal b ↔ a = b := by
  have h1 := extVal_lt_iff ha hb
  have h2 := extVal_lt_iff hb ha
  rw [eq_iff_le_not_lt, ← not_lt, h1, h2]
  omega

theorem extVal_eq_zero_iff {a : Nat} (ha : a ≤ 0x7F800000) : extVal a = 0 ↔ a = 0 := by
  have hzero : extVal 0 = 0 := by rw [extVal, if_neg (by decide), magVal_zero]
  rw [← hzero, extVal_eq_iff ha (by decide)]

/-- The number of a lane that is no NaN, by its sign and magnitude bits. -/
theorem num_eq {x : Lane} (h : (readLane x).isNan = false) : floatCompare.num x = (if x.getLsbD 31 then -1 else 1) * extVal (magBits x) := by
  rw [floatCompare.num]
  cases hx : readLane x with
  | nan q => rw [hx] at h; simp [FNum.isNan] at h
  | inf n =>
    obtain ⟨hn, hmag⟩ := readLane_inf hx
    rw [← hn, hmag, extVal, if_pos rfl]
    cases n <;> simp
  | fin n m e =>
    obtain ⟨hn, hval, hlt⟩ := readLane_fin hx
    rw [← hn, extVal, if_neg hlt.ne, ← hval, ← dyadic_eq_sign_mul]
    rfl

/-- Two numbers are equal where the lanes are one, or both are zeros. -/
theorem num_eq_iff {x y : Lane} (hx : (readLane x).isNan = false) (hy : (readLane y).isNan = false) :
    floatCompare.num x = floatCompare.num y ↔ x = y ∨ (magBits x = 0 ∧ magBits y = 0) := by
  have hmx := magBits_le_of_isNan hx
  have hmy := magBits_le_of_isNan hy
  have h0x := extVal_nonneg (magBits x)
  have h0y := extVal_nonneg (magBits y)
  have hzx := extVal_eq_zero_iff hmx
  have hzy := extVal_eq_zero_iff hmy
  have hsame (hs : x.getLsbD 31 = y.getLsbD 31) : (extVal (magBits x) = extVal (magBits y) ↔ x = y ∨ (magBits x = 0 ∧ magBits y = 0)) := by
    rw [extVal_eq_iff hmx hmy]
    exact ⟨fun h => .inl (lane_ext hs h), fun h => h.elim (fun h => by rw [h]) fun h => by rw [h.1, h.2]⟩
  have hdiff (hs : x.getLsbD 31 ≠ y.getLsbD 31) : (extVal (magBits x) = -extVal (magBits y) ↔ x = y ∨ (magBits x = 0 ∧ magBits y = 0)) := by
    rw [or_iff_right (fun h => hs (by rw [h])), ← hzx, ← hzy]
    exact ⟨fun h => ⟨by linarith, by linarith⟩, fun h => by rw [h.1, h.2, neg_zero]⟩
  rw [num_eq hx, num_eq hy]
  cases hsx : x.getLsbD 31 <;> cases hsy : y.getLsbD 31
  · simpa using hsame (hsx.trans hsy.symm)
  · simpa using hdiff (by rw [hsx, hsy]; decide)
  · simpa [neg_eq_iff_eq_neg] using hdiff (by rw [hsx, hsy]; decide)
  · simpa using hsame (hsx.trans hsy.symm)

/-- One number is less where its key is, and they are not both zeros. -/
theorem num_lt_iff {x y : Lane} (hx : (readLane x).isNan = false) (hy : (readLane y).isNan = false) :
    floatCompare.num x < floatCompare.num y ↔ orderKey x < orderKey y ∧ ¬ (magBits x = 0 ∧ magBits y = 0) := by
  have hmx := magBits_le_of_isNan hx
  have hmy := magBits_le_of_isNan hy
  have h0x := extVal_nonneg (magBits x)
  have h0y := extVal_nonneg (magBits y)
  have hzx := extVal_eq_zero_iff hmx
  have hzy := extVal_eq_zero_iff hmy
  have hlt := extVal_lt_iff hmx hmy
  have hgt := extVal_lt_iff hmy hmx
  rw [num_eq hx, num_eq hy, orderKey_eq, orderKey_eq]
  cases x.getLsbD 31 <;> cases y.getLsbD 31 <;> simp only [Bool.false_eq_true, if_true, if_false, one_mul, neg_one_mul, neg_lt_neg_iff, hlt, hgt]
  · omega
  · exact iff_of_false (by linarith) (by omega)
  · rw [← hzx, ← hzy]
    constructor
    · intro h
      exact ⟨by omega, fun ⟨h1, h2⟩ => by linarith⟩
    · rintro ⟨-, h⟩
      by_contra hle
      exact h ⟨by linarith, by linarith⟩
  · omega

/-! ## The compares of the machine -/

theorem fcompare_eq (x y : Lane) : fcompare x y =
    if (readLane x).isNan || (readLane y).isNan then (false, false, false)
    else (true, decide (x = y ∨ (magBits x = 0 ∧ magBits y = 0)), decide (orderKey x < orderKey y ∧ ¬ (magBits x = 0 ∧ magBits y = 0))) := by
  rw [fcompare]
  split
  · rfl
  · have heq : (x == y || (magBits x == 0 && magBits y == 0)) = decide (x = y ∨ (magBits x = 0 ∧ magBits y = 0)) := by
      rw [Bool.eq_iff_iff]; simp
    have hlt : (!(x == y || (magBits x == 0 && magBits y == 0)) && decide (orderKey x < orderKey y)) =
        decide (orderKey x < orderKey y ∧ ¬ (magBits x = 0 ∧ magBits y = 0)) := by
      rw [heq, ← decide_not, ← Bool.decide_and, decide_eq_decide]
      constructor
      · exact fun ⟨hne, h⟩ => ⟨h, fun hz => hne (.inr hz)⟩
      · exact fun ⟨h, hz⟩ => ⟨fun he => he.elim (fun he => by rw [he] at h; exact lt_irrefl _ h) hz, h⟩
    rw [← hlt, ← heq]
    rfl

/-- The three answers of a compare are those of R131's table. -/
theorem fcompare_table (x y : Lane) : (fcompare x y).2.1 = floatCompare.feq x y ∧ (fcompare x y).2.2 = floatCompare.flt x y ∧
    (!(fcompare x y).1) = (floatCompare.nan x || floatCompare.nan y) := by
  rw [fcompare_eq, floatCompare.feq, floatCompare.flt, floatMaskNan_eq, floatMaskNan_eq]
  cases hx : (readLane x).isNan <;> cases hy : (readLane y).isNan
  case false.false =>
    simp only [num_eq_iff hx hy, num_lt_iff hx hy]
    simp
  all_goals simp

theorem fcmpFlags_any (x y : Lane) : fcmpFlags true x y = flagIf (floatCompare.nan x || floatCompare.nan y) flagNV := by
  rw [floatMaskNan_eq, floatMaskNan_eq]
  rfl

theorem fcmpFlags_signalling (x y : Lane) : fcmpFlags false x y = flagIf (floatCompare.sig x || floatCompare.sig y) flagNV := by
  rw [← flagIf_or, floatMaskSig_eq, floatMaskSig_eq]
  rfl

/-- Each float compare is a float mask of the bits and NV of R131's table. -/
theorem exec_floatCompare {s : State} {i : Instr} {g : Pred} {d : PReg} {f nv : Nat → Bool} (h : floatCompare s i = some (g, d, f, nv)) :
    exec i s = floatMask g s d f fun j => flagIf (nv j) flagNV := by
  unfold floatCompare at h
  split at h <;> cases h
  · exact congrArg₂ (floatMask g s d) (funext fun j => by simp [fcompare_table]) (funext fun j => fcmpFlags_signalling ..)
  · exact congrArg₂ (floatMask g s d) (funext fun j => by simp [fcompare_table]) (funext fun j => fcmpFlags_any ..)
  · exact congrArg₂ (floatMask g s d) (funext fun j => by simp [fcompare_table, Bool.or_comm]) (funext fun j => fcmpFlags_any ..)
  · exact congrArg₂ (floatMask g s d) (funext fun j => by simp [fcompare_table]) (funext fun j => fcmpFlags_signalling ..)

/-! ## Classes -/

/-- A finite number has the hidden digit where its exponent field is not zero (R71). -/
theorem readLane_digits {x : Lane} {n : Bool} {m : Nat} {e : Int} (h : readLane x = .fin n m e) : m < 2 ^ 23 ↔ x.extractLsb' 23 8 = 0#8 := by
  have hfield : (x.extractLsb' 23 8).toNat = x.toNat / 2 ^ 23 % 2 ^ 8 := by rw [BitVec.extractLsb'_toNat, Nat.shiftRight_eq_div_pow]
  have hzero : x.extractLsb' 23 8 = 0#8 ↔ x.toNat / 2 ^ 23 % 2 ^ 8 = 0 := by rw [← hfield, ← BitVec.toNat_inj]; rfl
  have hfrac : x.toNat % 2 ^ 23 < 2 ^ 23 := Nat.mod_lt _ (by decide)
  rw [hzero]
  have hread : readLane x = if x.toNat / 2 ^ 23 % 2 ^ 8 = 255 then
      (if x.toNat % 2 ^ 23 = 0 then .inf (x.toNat.testBit 31) else .nan (!(x.toNat % 2 ^ 23).testBit 22))
    else if x.toNat / 2 ^ 23 % 2 ^ 8 = 0 then .fin (x.toNat.testBit 31) (x.toNat % 2 ^ 23) (-149)
    else .fin (x.toNat.testBit 31) (2 ^ 23 + x.toNat % 2 ^ 23) ((x.toNat / 2 ^ 23 % 2 ^ 8 : Nat) - 127 - 23) := rfl
  rw [h] at hread
  split_ifs at hread with h1 h2 h3
  · obtain ⟨-, rfl, -⟩ := FNum.fin.inj hread
    exact iff_of_true hfrac h3
  · obtain ⟨-, rfl, -⟩ := FNum.fin.inj hread
    exact iff_of_false (by omega) h3

/-- VFCLASS in one lane. -/
theorem fclass_lane (x : Lane) : fclass x = match readLane x with
    | .inf true => 1
    | .fin true m _ => if m = 0 then 8 else if x.extractLsb' 23 8 = 0#8 then 4 else 2
    | .fin false m _ => if m = 0 then 16 else if x.extractLsb' 23 8 = 0#8 then 32 else 64
    | .inf false => 128
    | .nan true => 256
    | .nan false => 512 := by
  unfold fclass
  cases hx : readLane x with
  | nan q => cases q <;> rfl
  | inf n => cases n <;> rfl
  | fin n m e =>
    simp only [← readLane_digits hx]
    cases n <;> rfl

/-- Settles O10: the compares by the order of the lanes' keys, NV by their NaNs, and the class of a lane by its fields. -/
theorem floatCompares : Obligations.FloatCompares := by
  unfold Obligations.FloatCompares
  refine ⟨fun s i g d f nv hresult hacts => ⟨_, ?_, fun j _ => rfl⟩, fun s g d b hacts => ⟨_, vectorResult_acts hacts 3 d _, fun j _ => fclass_lane _⟩⟩
  rw [exec_floatCompare hresult, floatMask_acts hacts, mergeBits_predOf]

end Sys2Proof.Machine
end

section
/-! # Reductions over a tree of pairs (R84, R132) -/
namespace Sys2Proof.Machine

open Sys2Proof.Safety

/-- A pair of a tree (R84): with a member absent the other passes up unchanged. -/
def pairOf (f : Lane → Lane → Lane × FFlags) (a b : Option Lane) : Option Lane × FFlags :=
  match a, b with
  | some p, some q => (some (f p q).1, (f p q).2)
  | some p, none => (some p, 0)
  | none, q => (q, 0)

theorem pairUp_cons (f : Lane → Lane → Lane × FFlags) (a b : Option Lane) (l : List (Option Lane)) :
    pairUp f (a :: b :: l) = ((pairOf f a b).1 :: (pairUp f l).1, (pairOf f a b).2 ||| (pairUp f l).2) := by
  cases a <;> cases b <;> simp [pairUp, pairOf]

theorem pairUp_nil (f : Lane → Lane → Lane × FFlags) : pairUp f [] = ([], 0) := rfl

/-- A pair whose members come with the flags of the pairs below. -/
def pairFlags (f : Lane → Lane → Lane × FFlags) (a b : Option Lane × FFlags) : Option Lane × FFlags :=
  ((pairOf f a.1 b.1).1, a.2 ||| b.2 ||| (pairOf f a.1 b.1).2)

/-- PairwiseSum, level by level (R84). -/
theorem pairwise_eq (f : Lane → Lane → Lane × FFlags) (x : Nat → Option Lane) :
    pairwise f x = (fun l1 : Nat → Option Lane × FFlags => (fun l2 : Nat → Option Lane × FFlags =>
      (fun l3 : Nat → Option Lane × FFlags => pairFlags f (l3 0) (l3 1)) fun i => pairFlags f (l2 (2 * i)) (l2 (2 * i + 1)))
        fun i => pairFlags f (l1 (2 * i)) (l1 (2 * i + 1))) fun i => pairFlags f (x (2 * i), 0) (x (2 * i + 1), 0) := by
  have htwo : (fun a b : Option Lane × FFlags => match a.1, b.1 with
      | some p, some q => (some (f p q).1, a.2 ||| b.2 ||| (f p q).2)
      | some p, none => (some p, a.2 ||| b.2)
      | none, q => (q, a.2 ||| b.2)) = pairFlags f := by
    funext ⟨a, fa⟩ ⟨b, fb⟩
    cases a <;> cases b <;> simp [pairFlags, pairOf]
  rw [← htwo]
  rfl

/-- The tree of the machine is that of R84. -/
theorem treeOf_eq_pairwise (f : Lane → Lane → Lane × FFlags) (x : Nat → Option Lane) :
    treeOf f 4 ((List.range 16).map x) = pairwise f x := by
  have hlist : (List.range 16).map x = [x 0, x 1, x 2, x 3, x 4, x 5, x 6, x 7, x 8, x 9, x 10, x 11, x 12, x 13, x 14, x 15] := rfl
  rw [hlist, pairwise_eq]
  simp only [treeOf, pairUp_cons, pairUp_nil, pairFlags, List.head?_cons, Option.join_some, Nat.reduceMul, Nat.reduceAdd]
  refine Prod.ext rfl ?_
  simp only [flags_or_zero, flags_zero_or]
  ac_rfl

theorem reduceResult_acts {s : State} {g : Pred} (h : s.acts g = true) (lat : Nat) (d : Reg) (r : Option Lane × FFlags) (empty : Lane) :
    reduceResult g s lat d r empty =
      .next ((s.putV lat d 0xFFFF (ofLanes fun i => if i = 0 then r.1.getD empty else 0)).addFlags r.2).retire :=
  guarded_acts _ h

theorem exec_vfredsum (s : State) (g : Pred) (d : Reg) (b : VSrc) (r : Rnd) :
    exec (.vfredsum g d b r) s = reduceResult g s 12 d
      (pairwise (fadd r) fun j => if (s.mask g).getLsbD j then some (lane (s.vsrc b) j) else none) 0 := by
  rw [← treeOf_eq_pairwise]; rfl

theorem exec_vfredmax (s : State) (g : Pred) (d : Reg) (b : VSrc) :
    exec (.vfredmax g d b) s = reduceResult g s 8 d
      (pairwise (fpick true) fun j => if (s.mask g).getLsbD j then some (lane (s.vsrc b) j) else none) 0xFF800000 := by
  rw [← treeOf_eq_pairwise]; rfl

/-! ## The sum of two products and a lane (R133) -/

/-- A NaN result that sets NV. -/
def isInvalid : Exact → Bool
  | .nan nv => nv
  | _ => false

theorem stands_flags {t : Exact} {z : FNum} {fl : FFlags} (h : Stands t z fl) : fl = flagIf (isInvalid t) flagNV := by
  match t, h with
  | .nan nv, ⟨_, hfl⟩ => exact hfl
  | .inf n dz, ⟨_, _, hfl⟩ => exact hfl
  | .val q n, ⟨_, hfl⟩ => exact hfl

theorem stands_inf_iff {t : Exact} {z : FNum} {fl : FFlags} (h : Stands t z fl) (n : Bool) : .inf n false = t ↔ .inf n = z := by
  match t, h with
  | .nan nv, ⟨hz, _⟩ => cases z <;> simp_all [FNum.isNan]
  | .inf m dz, ⟨hz, hdz, _⟩ => simp [hz, hdz]
  | .val q m, ⟨⟨k, e, hz, _⟩, _⟩ => simp [hz]

theorem stands_ne_dz {t : Exact} {z : FNum} {fl : FFlags} (h : Stands t z fl) (n : Bool) : t ≠ .inf n true := by
  rintro rfl
  obtain ⟨_, hdz, _⟩ := h
  cases hdz

/-- Infinities of both signs among three numbers (R133). -/
def Opposed (p q z : Exact) : Prop := .inf false false ∈ [p, q, z] ∧ .inf true false ∈ [p, q, z]

theorem bothInfs_iff {p q t : Exact} {u w z : FNum} {fp fq ft : FFlags} (hp : Stands p u fp) (hq : Stands q w fq) (ht : Stands t z ft) :
    bothInfs [u, w, z] = true ↔ Opposed p q t := by
  simp [bothInfs, Opposed, stands_inf_iff hp, stands_inf_iff hq, stands_inf_iff ht]

theorem eq_false_of_ne_dz {n dz : Bool} (h : ∀ k, Exact.inf n dz ≠ .inf k true) : dz = false := by
  cases dz
  · rfl
  · exact absurd rfl (h n)

/-- A sum that is a NaN is invalid where an addend was, or where infinities of both signs met. -/
theorem dot_invalid_iff {mode : Rnd} {p q z : Exact} {sig : Bool} (hp : ∀ n, p ≠ .inf n true) (hq : ∀ n, q ≠ .inf n true)
    (hz : ∀ n, z ≠ .inf n true) (h : (p.add mode q).add mode z = .nan sig) :
    (isInvalid p = true ∨ isInvalid q = true ∨ isInvalid z = true ∨ Opposed p q z) ↔ (sig = true ∨ Opposed p q z) := by
  cases p with
  | nan a => cases q <;> cases z <;> grind [Exact.add, isInvalid, Opposed]
  | val x m =>
    cases q with
    | inf b d =>
      obtain rfl := eq_false_of_ne_dz hq
      cases z with
      | inf c d =>
        obtain rfl := eq_false_of_ne_dz hz
        revert h
        cases b <;> cases c <;> simp [Exact.add, isInvalid, Opposed]
      | nan c => grind [Exact.add, isInvalid, Opposed]
      | val y n => grind [Exact.add, isInvalid, Opposed]
    | nan b => cases z <;> grind [Exact.add, isInvalid, Opposed]
    | val y n => cases z <;> grind [Exact.add, isInvalid, Opposed]
  | inf a d =>
    obtain rfl := eq_false_of_ne_dz hp
    cases q with
    | inf b d =>
      obtain rfl := eq_false_of_ne_dz hq
      cases z with
      | inf c d =>
        obtain rfl := eq_false_of_ne_dz hz
        revert h
        cases a <;> cases b <;> cases c <;> simp [Exact.add, isInvalid, Opposed]
      | nan c =>
        revert h
        cases a <;> cases b <;> simp [Exact.add, isInvalid, Opposed, eq_comm]
      | val y n =>
        revert h
        cases a <;> cases b <;> simp [Exact.add, isInvalid, Opposed, eq_comm]
    | nan b => cases z <;> grind [Exact.add, isInvalid, Opposed]
    | val y n =>
      cases z with
      | inf c d =>
        obtain rfl := eq_false_of_ne_dz hz
        revert h
        cases a <;> cases c <;> simp [Exact.add, isInvalid, Opposed]
      | nan c => grind [Exact.add, isInvalid, Opposed]
      | val y n => grind [Exact.add, isInvalid, Opposed]

theorem dotAdd_eq (mode : Rnd) (x y : FNum × FFlags) :
    dotAdd mode x y = ((addNum mode x.1 y.1).1, x.2 ||| y.2 ||| (addNum mode x.1 y.1).2) := rfl

/-- The sum of VFDOT2 with the sign of a zero: the addends' where they are zeros of one sign, else that of the mode (R133). -/
def zeroSum (mode : Rnd) (p q z r : FNum) : FNum :=
  match r with
  | .fin _ 0 e =>
    let signs := [p, q, z].map fun x => match x with
      | .fin s 0 _ => some s
      | _ => none
    .fin (if signs.all (· == some true) then true else if signs.all (· == some false) then false else mode == .rdn) 0 e
  | _ => r

/-- VFDOT2 on the numbers of its halves: `a` and `b` element 0, `a'` and `b'` element 1. -/
def dotOf (mode : Rnd) (a a' b b' z : FNum) : Lane × FFlags :=
  let fl := a.snan ||| a'.snan ||| b.snan ||| b'.snan ||| z.snan
  let p := mulNum a b
  let q := mulNum a' b'
  if a.isNan || a'.isNan || b.isNan || b'.isNan || z.isNan then
    (nanLane, fl ||| p.2 ||| q.2 ||| flagIf (bothInfs [p.1, q.1, z]) flagNV)
  else
    let r := dotAdd mode (dotAdd mode p q) (z, 0)
    let y := roundLane mode (zeroSum mode p.1 q.1 z r.1)
    (y.1, fl ||| r.2 ||| y.2)

theorem fdot2_eq (mode : Rnd) (bf : Bool) (a b d : Lane) :
    fdot2 mode bf a b d = dotOf mode ((if bf then bf16 else fp16).read (a.toNat % 2 ^ 16)) ((if bf then bf16 else fp16).read (a.toNat / 2 ^ 16))
      ((if bf then bf16 else fp16).read (b.toNat % 2 ^ 16)) ((if bf then bf16 else fp16).read (b.toNat / 2 ^ 16)) (readLane d) := by
  unfold fdot2 dotOf
  generalize (if bf then bf16 else fp16) = f
  simp only
  generalize dotAdd mode (dotAdd mode _ _) _ = r
  obtain ⟨y, fl⟩ := r
  match y with
  | .nan _ => rfl
  | .inf _ => rfl
  | .fin _ 0 _ => rfl
  | .fin _ (_ + 1) _ => rfl

theorem zeroSum_zero (mode : Rnd) (p q z : FNum) (s : Bool) (e : Int) : ∃ n, zeroSum mode p q z (.fin s 0 e) = .fin n 0 e := ⟨_, rfl⟩

theorem zeroSum_of_ne {mode : Rnd} {p q z r : FNum} (h : ∀ s e, r ≠ .fin s 0 e) : zeroSum mode p q z r = r := by
  unfold zeroSum
  split
  · exact absurd rfl (h _ _)
  · rfl

/-- What R133 says of a lane of VFDOT2 whose exact sum is `t`, a sum of `p`, `q` and `z`. -/
def DotGives (mode : Rnd) (p q z t : Exact) (v : Lane) (fl : FFlags) : Prop :=
  (∀ w n, t = .val w n → w ≠ 0 → t.Gives fp32 mode v.toNat fl) ∧
    ((∀ w n, t ≠ .val w n) → (∀ sig, t ≠ .nan sig) → t.Gives fp32 mode v.toNat fl) ∧
    (∀ w n, t = .val w n → w = 0 → v = 0 ∨ v = 0x80000000) ∧
    ∀ sig, t = .nan sig → v = 0x7FC00000 ∧ (fl = 0 ∨ fl = flagNV) ∧ (fl = flagNV ↔ sig = true ∨ Opposed p q z)

theorem nan_of_stands {t : Exact} {z : FNum} {fl : FFlags} (h : Stands t z fl) (hz : z.isNan = true) : ∃ nv, t = .nan nv := by
  match t, h with
  | .nan nv, _ => exact ⟨nv, rfl⟩
  | .inf n dz, ⟨hz', _⟩ => subst hz'; cases hz
  | .val q n, ⟨⟨m, e, hz', _⟩, _⟩ => subst hz'; cases hz

/-- A NaN among the halves or in the lane leaves a NaN, and NV as R133 says. -/
theorem dotGives_nan {mode : Rnd} {p q z : Exact} {u w x : FNum} {fp fq fz fl : FFlags} {nv : Bool} (hp : Stands p u fp) (hq : Stands q w fq)
    (hz : Stands z x fz) (ht : (p.add mode q).add mode z = .nan nv) (hfl : fl = fp ||| fq ||| fz ||| flagIf (bothInfs [u, w, x]) flagNV) :
    DotGives mode p q z ((p.add mode q).add mode z) nanLane fl := by
  have hiff := dot_invalid_iff (stands_ne_dz hp) (stands_ne_dz hq) (stands_ne_dz hz) ht
  rw [stands_flags hp, stands_flags hq, stands_flags hz, flagIf_or, flagIf_or, flagIf_or] at hfl
  have hnv : fl = flagNV ↔ nv = true ∨ Opposed p q z := by
    rw [← hiff, ← bothInfs_iff hp hq hz, hfl]
    generalize isInvalid p = b1, isInvalid q = b2, isInvalid z = b3, bothInfs [u, w, x] = b4
    revert b1 b2 b3 b4
    decide
  rw [ht]
  refine ⟨by simp, by simp, by simp, ?_⟩
  rintro sig ⟨⟩
  refine ⟨rfl, ?_, hnv⟩
  rw [hfl]
  cases isInvalid p || isInvalid q || isInvalid z || bothInfs [u, w, x]
  · exact .inl rfl
  · exact .inr rfl

/-- A rounded sum gives what R133 says, whatever the sign of a zero. -/
theorem dotGives_round (mode : Rnd) {p q z t : Exact} (u w x : FNum) {r : FNum} {fl : FFlags} (ht : Stands t r fl)
    (hnan : t ≠ .nan false) :
    DotGives mode p q z t (roundLane mode (zeroSum mode u w x r)).1 (fl ||| (roundLane mode (zeroSum mode u w x r)).2) := by
  match t, ht with
  | .nan sig, ht =>
    have hsig : sig = true := by
      cases sig
      · exact absurd rfl hnan
      · rfl
    obtain ⟨hr, -⟩ := id ht
    rw [zeroSum_of_ne fun s e he => by rw [he] at hr; cases hr]
    obtain ⟨hv, hfl⟩ := gives_roundLane mode ht
    rw [hsig] at hfl
    refine ⟨by simp, by simp, by simp, ?_⟩
    rintro sig' ⟨⟩
    exact ⟨BitVec.eq_of_toNat_eq hv, .inr hfl, iff_of_true hfl (.inl hsig)⟩
  | .inf n dz, ht =>
    obtain ⟨hr, -⟩ := id ht
    rw [zeroSum_of_ne fun s e he => by rw [he] at hr; cases hr]
    exact ⟨by simp, fun _ _ => gives_roundLane mode ht, by simp, by simp⟩
  | .val y n, ht =>
    obtain ⟨⟨m, e, hr, hy⟩, -⟩ := id ht
    by_cases h0 : y = 0
    · refine ⟨fun _ _ hw hne => ?_, by simp, fun _ _ hw _ => ?_, by simp⟩
      · cases hw; exact absurd h0 hne
      · have hm : m = 0 := dyadic_eq_zero_iff.1 (hy ▸ h0)
        subst hm
        obtain ⟨s, hs⟩ := zeroSum_zero mode u w x (Exact.val y n).sign e
        rw [hr, hs]
        cases s
        · exact .inl rfl
        · exact .inr rfl
    · have hm : m ≠ 0 := fun hm => h0 (by rw [hy, hm]; exact dyadic_eq_zero_iff.2 rfl)
      rw [zeroSum_of_ne fun s f he => by rw [hr] at he; cases he; exact hm rfl]
      refine ⟨fun _ _ hw _ => ?_, by simp, fun _ _ hw hz => ?_, by simp⟩
      · cases hw; exact gives_roundLane mode ht
      · cases hw; exact absurd hz h0

/-- A product of numbers that are not NaNs is a NaN only where it is invalid. -/
theorem mul_of_not_nan {a b : FNum} (ha : a.isNan = false) (hb : b.isNan = false) : (Exact.of a).mul (.of b) ≠ .nan false := by
  cases a <;> cases b <;> simp [FNum.isNan] at ha hb <;> grind [Exact.of, Exact.mul]

theorem of_ne_nan {a : FNum} (ha : a.isNan = false) : Exact.of a ≠ .nan false := by
  cases a <;> simp_all [FNum.isNan, Exact.of]

theorem add_ne_nan_false {mode : Rnd} {t u : Exact} (ht : t ≠ .nan false) (hu : u ≠ .nan false) : t.add mode u ≠ .nan false := by
  cases t <;> cases u <;> grind [Exact.add]

/-- A NaN among the numbers makes the sum one. -/
theorem isNan_dot (mode : Rnd) {a a' b b' z : FNum} (h : (a.isNan || a'.isNan || b.isNan || b'.isNan || z.isNan) = true) :
    (addNum mode (addNum mode (mulNum a b).1 (mulNum a' b').1).1 z).1.isNan = true := by
  simp only [Bool.or_eq_true] at h
  have hp {a b : FNum} (h : a.isNan = true ∨ b.isNan = true) : (mulNum a b).1.isNan = true := by
    rcases h with h | h
    · rw [mulNum_nan_left b h]; rfl
    · rw [mulNum_nan_right a h]; rfl
  have hs {a b : FNum} (h : a.isNan = true ∨ b.isNan = true) : (addNum mode a b).1.isNan = true := by
    rcases h with h | h
    · rw [addNum_nan_left mode b h]; rfl
    · rw [addNum_nan_right mode a h]; rfl
  rcases h with (((h | h) | h) | h) | h
  · exact hs (.inl (hs (.inl (hp (.inl h)))))
  · exact hs (.inl (hs (.inr (hp (.inl h)))))
  · exact hs (.inl (hs (.inl (hp (.inr h)))))
  · exact hs (.inl (hs (.inr (hp (.inr h)))))
  · exact hs (.inr h)

/-- VFDOT2 on numbers. -/
theorem dotOf_gives (mode : Rnd) (a a' b b' z : FNum) :
    DotGives mode ((Exact.of a).mul (.of b)) ((Exact.of a').mul (.of b')) (.of z)
      ((((Exact.of a).mul (.of b)).add mode ((Exact.of a').mul (.of b'))).add mode (.of z)) (dotOf mode a a' b b' z).1 (dotOf mode a a' b b' z).2 := by
  have hp := stands_mul (stands_of a) (stands_of b)
  have hq := stands_mul (stands_of a') (stands_of b')
  have hz := stands_of z
  have ht := stands_add mode (stands_add mode hp hq) hz
  unfold dotOf
  split
  next hnan =>
    obtain ⟨nv, hnv⟩ := nan_of_stands ht (isNan_dot mode hnan)
    exact dotGives_nan hp hq hz hnv (by dsimp only; ac_rfl)
  next hnum =>
    simp only [Bool.or_eq_true, not_or, Bool.not_eq_true] at hnum
    obtain ⟨⟨⟨⟨ha, ha'⟩, hb⟩, hb'⟩, hz'⟩ := hnum
    have hnan : (((Exact.of a).mul (.of b)).add mode ((Exact.of a').mul (.of b'))).add mode (.of z) ≠ .nan false :=
      add_ne_nan_false (add_ne_nan_false (mul_of_not_nan ha hb) (mul_of_not_nan ha' hb')) (of_ne_nan hz')
    have h := dotGives_round mode (p := (Exact.of a).mul (.of b)) (q := (Exact.of a').mul (.of b')) (z := .of z) (mulNum a b).1 (mulNum a' b').1 z
      ht hnan
    convert h using 1
    · rfl
    · dsimp only
      simp only [dotAdd_eq, flags_or_zero]
      ac_rfl

theorem halfOf_zero (bf : Bool) (x : Lane) : halfOf bf x 0 = .of ((if bf then bf16 else fp16).read (x.toNat % 2 ^ 16)) := by
  simp [halfOf]

theorem halfOf_one (bf : Bool) (x : Lane) : halfOf bf x 1 = .of ((if bf then bf16 else fp16).read (x.toNat / 2 ^ 16)) := by
  have : x.toNat / 2 ^ 16 % 2 ^ 16 = x.toNat / 2 ^ 16 := Nat.mod_eq_of_lt (by have := x.isLt; omega)
  simp only [halfOf, BitVec.extractLsb'_toNat, Nat.shiftRight_eq_div_pow, mul_one, this]

/-- A lane of VFDOT2. -/
theorem fdot2_gives (mode : Rnd) (bf : Bool) (a b d : Lane) :
    DotGives mode ((halfOf bf a 0).mul (halfOf bf b 0)) ((halfOf bf a 1).mul (halfOf bf b 1)) (Exact.lane d)
      ((((halfOf bf a 0).mul (halfOf bf b 0)).add mode ((halfOf bf a 1).mul (halfOf bf b 1))).add mode (Exact.lane d))
      (fdot2 mode bf a b d).1 (fdot2 mode bf a b d).2 := by
  rw [halfOf_zero, halfOf_zero, halfOf_one, halfOf_one]
  rw [fdot2_eq]
  exact dotOf_gives ..

/-- Settles O11: the machine's tree is the tree of pairs, and VFDOT2's exact sum is rounded once. -/
theorem floatReductionsDot : Obligations.FloatReductionsDot := by
  unfold Obligations.FloatReductionsDot
  refine ⟨fun s g d b r x hacts hx => ?_, fun s g d b x hacts hx => ?_, fun s g d a b r bf hacts =>
    ⟨_, _, floatResult_acts hacts .., fun j _ => ?_⟩⟩
  · rw [exec_vfredsum, ← hx, reduceResult_acts hacts]
  · rw [exec_vfredmax, ← hx, reduceResult_acts hacts]
  · rintro _ _ _ _ t rfl
    exact fdot2_gives ..

end Sys2Proof.Machine
end

section
/-! # Moves of lanes and of elements (R138, R139) -/
namespace Sys2Proof.Machine

open Sys2Proof.Safety

/-! ## Elements put together (R121) -/

theorem packElems_lt (w : Nat) (f : Nat → Nat) (n : Nat) : packElems w f n < 2 ^ (w * n) := by
  induction n with
  | zero => simp [packElems]
  | succ n ih =>
    have hlt : f n % 2 ^ w < 2 ^ w := Nat.mod_lt _ (Nat.two_pow_pos w)
    calc packElems w f n + f n % 2 ^ w * 2 ^ (w * n) < (f n % 2 ^ w + 1) * 2 ^ (w * n) := by rw [Nat.add_one_mul]; omega
      _ ≤ 2 ^ w * 2 ^ (w * n) := Nat.mul_le_mul_right _ hlt
      _ = 2 ^ (w * (n + 1)) := by rw [← Nat.pow_add]; congr 1; ring

theorem packElems_field (w : Nat) (f : Nat → Nat) {n i : Nat} (h : i < n) : packElems w f n / 2 ^ (w * i) % 2 ^ w = f i % 2 ^ w := by
  induction n with
  | zero => omega
  | succ n ih =>
    simp only [packElems]
    obtain rfl | hlt : i = n ∨ i < n := by omega
    · rw [Nat.add_mul_div_right _ _ (Nat.two_pow_pos _), Nat.div_eq_of_lt (packElems_lt w f i), Nat.zero_add, Nat.mod_mod]
    · obtain ⟨k, rfl⟩ := Nat.exists_eq_add_of_lt hlt
      have e : f (i + k + 1) % 2 ^ w * 2 ^ (w * (i + k + 1)) = f (i + k + 1) % 2 ^ w * 2 ^ (w * k) * 2 ^ w * 2 ^ (w * i) := by
        rw [Nat.mul_assoc, Nat.mul_assoc, ← Nat.pow_add, ← Nat.pow_add]; congr 2; ring
      rw [e, Nat.add_mul_div_right _ _ (Nat.two_pow_pos _), Nat.add_mul_mod_self_right, ih hlt]

theorem packElems_append (w : Nat) (f g : Nat → Nat) (m n : Nat) :
    packElems w f m + packElems w g n * 2 ^ (w * m) = packElems w (fun j => if j < m then f j else g (j - m)) (m + n) := by
  induction n with
  | zero =>
    have hcongr (k : Nat) (hk : k ≤ m) : packElems w f k = packElems w (fun j => if j < m then f j else g (j - m)) k := by
      induction k with
      | zero => rfl
      | succ k ih => simp [packElems, ih (by omega), show k < m by omega]
    simpa [packElems] using hcongr m le_rfl
  | succ n ih =>
    rw [← Nat.add_assoc, packElems, packElems, ← ih, Nat.add_mul, Nat.mul_assoc, ← Nat.pow_add, Nat.add_assoc]
    congr 3
    · simp
    · congr 1; ring

/-- Part `k` of a vector as a number. -/
theorem toNat_part (w : Nat) (v : Vec) (k : Nat) : (Safety.part w v k).toNat = elem v w k := by
  rw [Safety.part, BitVec.extractLsb'_toNat, Nat.shiftRight_eq_div_pow, elem]

/-- Part `k` of a vector of `n` elements. -/
theorem part_packElems {w n : Nat} (f : Nat → Nat) (h : w * n ≤ 512) (k : Nat) :
    Safety.part w (BitVec.ofNat 512 (packElems w f n)) k = if k < n then BitVec.ofNat w (f k) else 0 := by
  have hlt : packElems w f n < 2 ^ 512 := (packElems_lt w f n).trans_le (Nat.pow_le_pow_right two_pos h)
  refine BitVec.eq_of_toNat_eq ?_
  rw [Safety.part, ofNat_field _ _ _ _ hlt]
  by_cases hk : k < n
  · rw [if_pos hk, packElems_field w f hk, BitVec.toNat_ofNat]
  · rw [if_neg hk, Nat.div_eq_of_lt ((packElems_lt w f n).trans_le (Nat.pow_le_pow_right two_pos (Nat.mul_le_mul_left w (not_lt.1 hk))))]
    simp

/-! ## Saturation and extension -/

theorem ofNat_saturate (sat : Sat) (w : Nat) (a : Lane) : BitVec.ofNat w (saturate sat w a) = satTo sat w a := by
  cases sat with
  | trunc => exact BitVec.eq_of_toNat_eq (by simp [saturate, satTo])
  | signed =>
    have hpos : (0 : Int) ≤ max (-2 ^ (w - 1)) (min a.toInt (2 ^ (w - 1) - 1)) % 2 ^ w := Int.emod_nonneg _ (by positivity)
    rw [saturate, satTo, clampInt, min_comm, ← BitVec.ofInt_natCast, Int.toNat_of_nonneg hpos]
    exact BitVec.eq_of_toNat_eq (by simp)
  | unsigned =>
    rw [saturate, satTo, clampInt, min_comm, ← BitVec.ofInt_natCast, Int.toNat_of_nonneg (le_max_left 0 _)]

theorem extended_toNat (sg : Bool) {w : Nat} (x : BitVec (w + 1)) : extended sg (w + 1) x.toNat = extTo sg x := by
  cases sg
  · exact BitVec.ofNat_toNat 32 x
  · simp [extended, extTo, signedOf_toNat, BitVec.signExtend]

/-! ## The planes of FP6 codes (R74) -/

/-- A byte put together of low bits and the bits above them. -/
theorem or_shiftLeft (x y : BitVec 8) {n i : Nat} (hn : x.toNat = n) (hx : n < 2 ^ i) : x ||| (y <<< i) = BitVec.ofNat 8 (n + y.toNat * 2 ^ i) := by
  subst hn
  refine BitVec.eq_of_toNat_eq ?_
  have hlow : x.toNat % 2 ^ 8 = x.toNat := Nat.mod_eq_of_lt x.isLt
  rw [BitVec.toNat_or, BitVec.toNat_shiftLeft, BitVec.toNat_ofNat, ← hlow, ← Nat.or_mod_two_pow, hlow, Nat.or_comm,
    ← Nat.shiftLeft_add_eq_or_of_lt hx, Nat.shiftLeft_eq, Nat.add_comm]

theorem toNat_and_three (x : BitVec 8) : (x &&& 3).toNat = x.toNat % 4 := Nat.and_two_pow_sub_one_eq_mod _ 2

theorem code_toNat (v : Vec) (k : Nat) : (Safety.part 8 v k &&& 0x3F).toNat = elem v 8 k % 64 := by
  rw [← toNat_part]
  exact Nat.and_two_pow_sub_one_eq_mod _ 6

theorem plane1_part (x y : BitVec 8) {a b : Nat} (hx : x.toNat = a % 64) (hy : y.toNat = b % 64) :
    BitVec.ofNat 8 (a % 64 / 4 + b % 64 / 4 * 2 ^ 4) = (x >>> 2) ||| (y >>> 2 <<< 4) := by
  have hshift (z : BitVec 8) : (z >>> 2).toNat = z.toNat / 4 := by rw [BitVec.toNat_ushiftRight, Nat.shiftRight_eq_div_pow]
  rw [or_shiftLeft _ _ (hshift x) (by omega), hshift, hx, hy]

theorem plane2_part (x y z w : BitVec 8) {a b c d : Nat} (hx : x.toNat = a % 64) (hy : y.toNat = b % 64) (hz : z.toNat = c % 64)
    (hw : w.toNat = d % 64) :
    BitVec.ofNat 8 (a % 64 % 4 + b % 64 % 4 * 2 ^ 2 + c % 64 % 4 * 2 ^ 4 + d % 64 % 4 * 2 ^ 6) =
      (x &&& (3 : BitVec 8)) ||| ((y &&& 3) <<< 2) ||| ((z &&& 3) <<< 4) ||| ((w &&& 3) <<< 6) := by
  have htoNat {n : Nat} (h : n < 256) : (BitVec.ofNat 8 n).toNat = n := Nat.mod_eq_of_lt h
  rw [or_shiftLeft _ _ (toNat_and_three x) (by omega), or_shiftLeft _ _ (htoNat ?_) ?_, or_shiftLeft _ _ (htoNat ?_) ?_]
  · rw [toNat_and_three, toNat_and_three, toNat_and_three, hx, hy, hz, hw]
  all_goals simp only [toNat_and_three]; omega

theorem unplane_part (x : BitVec 4) (y : BitVec 8) (n : Nat) :
    BitVec.ofNat 8 (x.toNat * 2 ^ 2 + y.toNat / 2 ^ n % 4) = (x.setWidth 8 <<< 2) ||| ((y >>> n) &&& 3) := by
  have hlow : ((y >>> n) &&& 3).toNat = y.toNat / 2 ^ n % 4 := by
    rw [toNat_and_three, BitVec.toNat_ushiftRight, Nat.shiftRight_eq_div_pow]
  have hhigh : (x.setWidth 8).toNat = x.toNat := BitVec.toNat_setWidth_of_le (by norm_num)
  rw [BitVec.or_comm, or_shiftLeft _ _ hlow (by omega), hhigh, Nat.add_comm]

/-! ## The instructions -/

theorem vperm_part (v u : Vec) {k : Nat} (h : k < 16) :
    Safety.part 32 (ofLanes fun i => lane v ((lane u i).toNat % 16)) k = lane v (lane u k &&& 15).toNat := by
  have hand : (lane u k &&& 15).toNat = (lane u k).toNat % 16 := Nat.and_two_pow_sub_one_eq_mod _ 4
  rw [hand]
  exact lane_ofLanes _ h

theorem packed_part (sat : Sat) {w : Nat} (h : w * 32 ≤ 512) (a b : Vec) (k : Nat) :
    Safety.part w (packed sat w a b) k = if k < 32 then satTo sat w (if k < 16 then lane a k else lane b (k - 16)) else 0 := by
  rw [packed, part_packElems _ h]
  simp only [ofNat_saturate]

theorem packFp6_part (a : Vec) (j : Nat) :
    let c (k : Nat) : BitVec 8 := Safety.part 8 a k &&& 0x3F
    Safety.part 8 (packFp6 a) j =
      if j < 32 then (c (2 * j) >>> 2) ||| (c (2 * j + 1) >>> 2 <<< 4)
      else if j < 48 then
        (c (4 * (j - 32)) &&& 3) ||| ((c (4 * (j - 32) + 1) &&& 3) <<< 2) ||| ((c (4 * (j - 32) + 2) &&& 3) <<< 4) |||
          ((c (4 * (j - 32) + 3) &&& 3) <<< 6)
      else 0 := by
  intro c
  rw [packFp6]
  simp only
  rw [show 2 ^ 256 = 2 ^ (8 * 32) from rfl, packElems_append, part_packElems _ (by norm_num)]
  by_cases h : j < 32
  · rw [if_pos h, if_pos h, if_pos (by omega)]
    exact plane1_part _ _ (code_toNat ..) (code_toNat ..)
  · rw [if_neg h, if_neg h]
    by_cases h' : j < 48
    · rw [if_pos h', if_pos h']
      exact plane2_part _ _ _ _ (code_toNat ..) (code_toNat ..) (code_toNat ..) (code_toNat ..)
    · rw [if_neg h', if_neg h']

theorem unpackFp6_part (b : Vec) {k : Nat} (h : k < 64) :
    Safety.part 8 (unpackFp6 b) k =
      ((Safety.part 4 b k).setWidth 8 <<< 2) ||| ((Safety.part 8 b (32 + k / 4) >>> (2 * (k % 4))) &&& 3) := by
  rw [unpackFp6, part_packElems _ (by norm_num), if_pos h, ← toNat_part, ← toNat_part]
  exact unplane_part ..

theorem exec_movedPart {s : State} {i : Instr} {g : Pred} {d : Reg} {x : (w : Nat) × (Nat → BitVec w)} (h : movedPart s i = some (g, d, x)) :
    ∃ v, exec i s = vectorResult g s 3 d v ∧ ∀ k < 512 / x.1, Safety.part x.1 v k = x.2 k := by
  unfold movedPart at h
  split at h
  next => cases h; exact ⟨_, rfl, fun k hk => vperm_part _ _ (by simpa using hk)⟩
  next g' d' a b mode sat =>
    have hexec : exec (.vpack g' d' a b mode sat) s = vectorResult g' s 3 d' (if mode = 0 then packed sat 16 (s.vsrc a) (s.vsrc b)
      else if mode = 1 then packed sat 8 (s.vsrc a) (s.vsrc b) else packFp6 (s.vsrc a)) := rfl
    rw [hexec]
    split_ifs at h ⊢ <;> cases h
    · exact ⟨_, rfl, fun k hk => (packed_part sat le_rfl _ _ k).trans (if_pos (by simpa using hk))⟩
    · exact ⟨_, rfl, fun k hk => packed_part _ (by norm_num) _ _ k⟩
    · exact ⟨_, rfl, fun k hk => packFp6_part ..⟩
  next g' d' b mode p sg =>
    have hexec : exec (.vunpk g' d' b mode p sg) s = vectorResult g' s 3 d'
      (if mode = 0 then ofLanes fun i => extended sg 16 (elem (s.vsrc b) 16 (16 * p.toNat + i))
       else if mode = 1 then ofLanes fun i => extended sg 8 (elem (s.vsrc b) 8 (16 * p.toNat + i))
       else unpackFp6 (s.vsrc b)) := rfl
    rw [hexec]
    split_ifs at h ⊢ <;> cases h
    · exact ⟨_, rfl, fun k hk => (lane_ofLanes _ (by simpa using hk)).trans (by rw [← toNat_part, extended_toNat])⟩
    · exact ⟨_, rfl, fun k hk => (lane_ofLanes _ (by simpa using hk)).trans (by rw [← toNat_part, extended_toNat])⟩
    · exact ⟨_, rfl, fun k hk => unpackFp6_part _ (by simpa using hk)⟩
  next => cases h

theorem vrotl_lane (v : Vec) (n : Nat) {i : Nat} (h : i < 16) :
    lane (ofLanes fun i => lane v ((i + 16 - n % 16) % 16)) ((i + n % 16) % 16) = lane v i := by
  rw [lane_ofLanes _ (Nat.mod_lt _ (by norm_num))]
  congr 1
  omega

theorem vins_lane (old : Vec) (n : Nat) (w : Word) {i : Nat} (h : i < 16) :
    lane (mergeLanes (BitVec.ofNat 16 (2 ^ (n % 16))) old (ofLanes fun _ => w.setWidth 32)) i =
      if i = n % 16 then BitVec.ofNat 32 w.toNat else lane old i := by
  have hbit : (BitVec.ofNat 16 (2 ^ (n % 16))).getLsbD i = decide (i = n % 16) := by
    rw [BitVec.getLsbD_ofNat, decide_eq_true h, Bool.true_and, Nat.testBit_two_pow]
    exact decide_eq_decide.2 eq_comm
  rw [lane_mergeLanes _ _ _ h, hbit, lane_ofLanes _ h]
  simp only [decide_eq_true_eq]
  rfl

end Sys2Proof.Machine
end

section
/-! # Scales of lanes and of blocks (R140, R141), and the family of R138 to R141 -/
namespace Sys2Proof.Machine

open Sys2Proof.Safety

/-! ## The greatest of a list -/

theorem le_foldl_max (l : List Nat) (n : Nat) : n ≤ l.foldl max n ∧ ∀ a ∈ l, a ≤ l.foldl max n := by
  induction l generalizing n with
  | nil => simp
  | cons b l ih =>
    obtain ⟨h1, h2⟩ := ih (max n b)
    exact ⟨(le_max_left n b).trans h1, List.forall_mem_cons.2 ⟨(le_max_right n b).trans h1, h2⟩⟩

theorem foldl_max_mem (l : List Nat) (n : Nat) : l.foldl max n = n ∨ l.foldl max n ∈ l := by
  induction l generalizing n with
  | nil => exact .inl rfl
  | cons b l ih =>
    obtain h | h := ih (max n b)
    · obtain hn | hb := max_choice n b
      · exact .inl (h.trans hn)
      · exact .inr (List.mem_cons.2 (.inl (h.trans hb)))
    · exact .inr (List.mem_cons_of_mem b h)

/-- The greatest magnitude bits of a block are those of one of its lanes. -/
theorem exists_max_magBits (x : Nat → Lane) :
    ∃ i < 32, magBits (x i) = (((List.range 32).map x).map magBits).foldl max 0 ∧
      ∀ j < 32, magBits (x j) ≤ magBits (x i) := by
  generalize hm : (((List.range 32).map x).map magBits).foldl max 0 = m
  have hle : ∀ j < 32, magBits (x j) ≤ m := fun j hj =>
    hm ▸ (le_foldl_max _ 0).2 _ (List.mem_map_of_mem (List.mem_map_of_mem (List.mem_range.2 hj)))
  suffices ∃ i < 32, magBits (x i) = m by
    obtain ⟨i, hi, he⟩ := this
    exact ⟨i, hi, he, he ▸ hle⟩
  obtain h | h := foldl_max_mem (((List.range 32).map x).map magBits) 0
  · exact ⟨0, by norm_num, le_antisymm (hle 0 (by norm_num)) (by omega)⟩
  · obtain ⟨y, hy, hym⟩ := List.mem_map.1 h
    obtain ⟨i, hi, rfl⟩ := List.mem_map.1 hy
    exact ⟨i, List.mem_range.1 hi, hym.trans hm⟩

/-- The magnitude of a finite lane. -/
theorem exactLane_finite {x : Lane} (h : magBits x < 0x7F800000) : ∃ q z, Exact.lane x = .val q z ∧ |q| = magVal (magBits x) := by
  obtain ⟨-, m, e, hx, hval, -⟩ | ⟨heq, -⟩ | ⟨hgt, -⟩ := readLane_cases x
  · exact ⟨_, _, by rw [Exact.lane, hx, exactOf_fin], by rw [abs_dyadic, hval]⟩
  · omega
  · omega

theorem exactLane_not_finite {x : Lane} (h : 0x7F800000 ≤ magBits x) (q : ℚ) (z : Bool) : Exact.lane x ≠ .val q z := by
  obtain ⟨hlt, -⟩ | ⟨-, hx⟩ | ⟨-, hx⟩ := readLane_cases x
  · omega
  · rw [Exact.lane, hx]; nofun
  · rw [Exact.lane, hx]; nofun

/-- The code of a magnitude reads as its value. -/
theorem read_magBits {m : Nat} (h : m < 0x7F800000) : ∃ k e, fp32.read m = .fin false k e ∧ dyadic false k e = magVal m := by
  have hm : (BitVec.ofNat 32 m : Lane).toNat = m := Nat.mod_eq_of_lt (by omega)
  have hmag : magBits (BitVec.ofNat 32 m) = m := by rw [magBits, hm]; omega
  have hsign : (BitVec.ofNat 32 m : Lane).getLsbD 31 = false := by
    by_contra hs
    have := toNat_eq_sign_mag (BitVec.ofNat 32 m)
    rw [if_pos (by simpa using hs), hm, hmag] at this
    omega
  obtain ⟨-, k, e, hx, hval, -⟩ | ⟨heq, -⟩ | ⟨hgt, -⟩ := readLane_cases (BitVec.ofNat 32 m)
  · rw [readLane, hm, hsign] at hx
    exact ⟨k, e, hx, hmag ▸ hval⟩
  · omega
  · omega

theorem blockScale_eq (t : BlkTarget) (l : List Lane) {m : Nat} (hm : (l.map magBits).foldl max 0 = m) (h : m < 0x7F800000) :
    (blockScale t l : Int) = if magVal m = 0 then 0x7F else max 0 (min (Int.log 2 (magVal m) - emaxOf t + 127) 254) := by
  have hzero : magVal m = 0 ↔ m = 0 := by rw [← magVal_zero]; exact magVal_strictMono.injective.eq_iff
  unfold magBits at hm
  rw [blockScale, hm, if_neg (not_le.2 h)]
  simp only [hzero]
  by_cases h0 : m = 0
  · simp [h0]
  · rw [if_neg h0, if_neg h0]
    obtain ⟨k, e, hread, hval⟩ := read_magBits h
    have hk : k ≠ 0 := fun hk => h0 (hzero.1 (by rw [← hval, hk]; exact dyadic_eq_zero_iff.2 rfl))
    have hemax : blkEmax t = emaxOf t := by cases t <;> rfl
    rw [hread, ← hval, log_dyadic e hk, hemax]
    simp only
    rw [clampInt, Int.toNat_of_nonneg (le_max_left 0 _), min_comm]

/-- The scale of a block of 32 lanes is that of its greatest magnitude. -/
theorem blockScale_spec (t : BlkTarget) (x : Nat → Lane) : BlockScale t x (blockScale t ((List.range 32).map x)) := by
  obtain ⟨i, hi, hmax, hle⟩ := exists_max_magBits x
  obtain hge | hlt := le_or_gt 0x7F800000 (magBits (x i))
  · refine .inl ⟨⟨i, hi, exactLane_not_finite hge⟩, ?_⟩
    unfold magBits at hmax hge
    rw [blockScale, ← hmax, if_pos hge]
  · refine .inr ⟨magVal (magBits (x i)), ⟨i, hi, exactLane_finite hlt⟩, fun j hj => ?_, blockScale_eq t _ hmax.symm hlt⟩
    obtain ⟨q, z, hq, habs⟩ := exactLane_finite ((hle j hj).trans_lt hlt)
    exact ⟨q, z, hq, habs.trans_le (magVal_strictMono.monotone (hle j hj))⟩

/-- The lanes of two vectors as a block. -/
theorem block_eq (a b : Vec) :
    (List.range 16).map (lane a) ++ (List.range 16).map (lane b) = (List.range 32).map fun i => if i < 16 then lane a i else lane b (i - 16) := rfl

/-- Settles O13: each part of what a lane move writes is the part it names, a scaled lane is rounded once, and a block's scale is that of its
greatest magnitude bits. -/
theorem laneMovesScales : Obligations.LaneMovesScales := by
  unfold Obligations.LaneMovesScales
  refine ⟨⟨fun s i g d x hmoved hacts => ?_, fun s g d a b hacts => ⟨_, vectorResult_acts hacts .., fun i hi => vrotl_lane _ _ hi⟩,
    fun s g d a b sg hacts => scalarResult_acts hacts .., fun s g d a b hacts => ⟨_, _, guarded_acts _ hacts, fun i hi => vins_lane _ _ _ hi⟩⟩,
    fun s g d a b r hacts => ⟨_, _, floatResult_acts hacts .., fun j _ => ⟨fun h => ?_, fun h => ?_⟩⟩, fun s g d a b t hacts =>
      ⟨_, scalarResult_acts hacts .., by rw [block_eq]; exact blockScale_spec t _⟩⟩
  · obtain ⟨v, hexec, hpart⟩ := exec_movedPart hmoved
    exact ⟨v, hexec.trans (vectorResult_acts hacts ..), hpart⟩
  · rw [if_pos h]
    exact ⟨rfl, rfl⟩
  · rw [if_neg h]
    exact fscale_gives ..

end Sys2Proof.Machine
end

section
/-! # The conversions (R134, R135, R80) -/
namespace Sys2Proof.Machine

open Sys2Proof.Safety

/-! ## The flags after a vector result -/

theorem fpflags_advance (x : Slot) : x.advance.fpflags = x.fpflags := by
  unfold Slot.advance
  dsimp only
  split_ifs <;> rfl

theorem fpflags_putV (s : State) (lat : Nat) (n : BitVec 5) (m : BitVec 16) (v : Vec) : (s.putV lat (.priv n) m v).cur.fpflags = s.cur.fpflags := by
  rw [State.putV, State.cur_modCur]
  split <;> rfl

/-- A vector result in a register below 32 adds the flags of its lanes, and no other. -/
theorem fpflags_vector_result (s : State) (lat : Nat) (n : BitVec 5) (m : BitVec 16) (v : Vec) (fl : FFlags) :
    ((s.putV lat (.priv n) m v).addFlags fl).retire.cur.fpflags = s.cur.fpflags ||| fl := by
  rw [State.cur_retire, fpflags_advance, State.addFlags, State.cur_modCur, fpflags_putV]

/-- The state of a slot that converts with table 4 of its VF, in which the entry of code 0 is of class 0 with the exponent 0xFF: a NaN's code, which
no load installs (R77). -/
def nanTableState : State := (({} : State).modCur fun x => { x with qtab := 4 }).modVf 0 8 fun f => { f with tables := [(4, [(0, 0x3FE00)])] }

def fpflagsOf : Out → Option FFlags
  | .next s => some s.cur.fpflags
  | _ => none

theorem nanTable_flags : fpflagsOf (exec (.cvtfq .always (.priv 1) (.bcast (.lit 0x7FC00000)) 0 false) nanTableState) = some flagNV := by
  decide +kernel

theorem lane_nan {j : Nat} (h : j < 16) : Exact.lane (lane (nanTableState.vsrc (.bcast (.lit 0x7FC00000))) j) = .nan false := by
  rw [State.vsrc, lane_ofLanes _ h]
  rfl

theorem nanTable_num : (tableCodes nanTableState).num 0 = some (.nan false) := by
  have hcls : Entry.cls (nanTableState.entry nanTableState.core nanTableState.bankVf nanTableState.cur.qtab.toNat 0) ≠ 3 := by decide +kernel
  have hnum : Entry.num (nanTableState.entry nanTableState.core nanTableState.bankVf nanTableState.cur.qtab.toNat 0) = .nan false := by decide +kernel
  simp only [tableCodes, if_neg hcls, hnum]
  rfl

theorem nanTable_lowest : (tableCodes nanTableState).Lowest Exact.IsNan 0 :=
  ⟨⟨by decide, .nan false, nanTable_num, trivial⟩, fun _ _ h => absurd h (Nat.not_lt_zero _)⟩

theorem unionFlags_eq_zero {m : BitVec 16} {fl : Nat → FFlags} (h : ∀ j < 16, m.getLsbD j = true → fl j = 0) : unionFlags m fl = 0 := by
  have hfold (l : List Nat) (hl : ∀ j ∈ l, fl j = 0) : l.foldl (fun a i => a ||| fl i) 0 = 0 := by
    induction l with
    | nil => rfl
    | cons j l ih =>
      rw [List.foldl_cons, hl j List.mem_cons_self, flags_or_zero]
      exact ih fun k hk => hl k (List.mem_cons_of_mem j hk)
  refine hfold _ fun j hj => ?_
  obtain ⟨hrange, hbit⟩ := List.mem_filter.1 hj
  exact h j (List.mem_range.1 hrange) hbit

/-- Refutes O12: a table may hold an entry of class 0 with the exponent 0xFF, which decodes to a NaN. By R80 as the statement has it, a NaN converts to the
code of that entry without a flag; the model's target has no NaN code, so that CVTFQ of 16 NaN lanes sets NV. -/
theorem not_conversions : ¬ Obligations.Conversions := by
  unfold Obligations.Conversions
  intro h
  obtain ⟨-, -, hnarrow, -⟩ := h
  obtain ⟨m, v, fl, hexec, hcodes, -⟩ := hnarrow nanTableState (.cvtfq .always (.priv 1) (.bcast (.lit 0x7FC00000)) 0 false) _ _ _ _ _ _ rfl rfl
  have hflags : unionFlags (nanTableState.mask .always) fl = 0 := by
    refine unionFlags_eq_zero fun j hj hact => ?_
    have hcode := hcodes j hj hact
    simp only [lane_nan hj] at hcode
    obtain ⟨-, hfl⟩ | ⟨hnone, -⟩ := hcode
    · exact hfl
    · exact absurd ⟨0, nanTable_lowest⟩ hnone
  have hmodel := nanTable_flags
  rw [hexec, fpflagsOf, fpflags_vector_result, hflags] at hmodel
  exact absurd hmodel (by decide)

end Sys2Proof.Machine
end

section
/-! # The series of the exponential function and the logarithm of 2 (R130) -/
namespace Sys2Proof.Machine

open Sys2Proof.Safety

/-! ## The series in units of 2^-p -/

/-- The terms of e^y from term `k` on over term `k`, `n` of them. -/
noncomputable def expSum (y : ℝ) : Nat → Nat → ℝ
  | 0, _ => 0
  | n + 1, k => 1 + y / (k + 1) * expSum y n (k + 1)

theorem expSum_nonneg {y : ℝ} (hy : 0 ≤ y) (n k : Nat) : 0 ≤ expSum y n k := by
  induction n generalizing k with
  | zero => exact le_rfl
  | succ n ih =>
    have := ih (k + 1)
    rw [expSum]
    positivity

theorem expSum_succ_le {y : ℝ} (hy : 0 ≤ y) (n k : Nat) : expSum y n (k + 1) ≤ expSum y n k := by
  induction n generalizing k with
  | zero => exact le_rfl
  | succ n ih =>
    have hterm : y / ((k + 1 : Nat) + 1) ≤ y / (k + 1) := by
      push_cast
      gcongr
      linarith
    rw [expSum, expSum]
    exact add_le_add le_rfl (mul_le_mul hterm (ih (k + 1)) (expSum_nonneg hy _ _) (by positivity))

theorem factorial_mul_expSum (y : ℝ) (n k : Nat) : expSum y n k = ∑ i ∈ Finset.range n, y ^ i * k.factorial / (k + i).factorial := by
  induction n generalizing k with
  | zero => rfl
  | succ n ih =>
    have hk : (k.factorial : ℝ) ≠ 0 := by positivity
    rw [expSum, ih, Finset.sum_range_succ', Finset.mul_sum, add_comm]
    congr 1
    · refine Finset.sum_congr rfl fun i _ => ?_
      rw [Nat.factorial_succ, show k + 1 + i = k + (i + 1) by ring]
      push_cast
      field_simp
      exact (pow_succ' y i).symm
    · simp [hk]

theorem expSum_zero (y : ℝ) (n : Nat) : expSum y n 0 = ∑ i ∈ Finset.range n, y ^ i / i.factorial := by
  simp [factorial_mul_expSum]

theorem expSum_le_exp {y : ℝ} (hy : 0 ≤ y) (n k : Nat) : expSum y n k ≤ Real.exp y := by
  have hzero : expSum y n k ≤ expSum y n 0 := by
    induction k with
    | zero => exact le_rfl
    | succ k ih => exact (expSum_succ_le hy n k).trans ih
  exact hzero.trans ((expSum_zero y n).trans_le (Real.sum_le_exp_of_nonneg hy n))

/-- What is left of the series. -/
theorem exp_sub_expSum_le {y : ℝ} (hy : 0 ≤ y) {n : Nat} (hn : y / (n + 1) ≤ 1 / 2) : Real.exp y - expSum y n 0 ≤ y ^ n / n.factorial * 2 := by
  have h := Complex.exp_bound' (x := (y : ℂ)) (n := n) (by rw [Complex.norm_of_nonneg hy]; exact_mod_cast hn)
  rw [Complex.norm_of_nonneg hy] at h
  have hcast : Complex.exp (y : ℂ) - ∑ m ∈ Finset.range n, (y : ℂ) ^ m / m.factorial = ((Real.exp y - expSum y n 0 : ℝ) : ℂ) := by
    rw [expSum_zero]; push_cast; rfl
  rw [hcast, Complex.norm_real] at h
  exact (le_abs_self _).trans h

/-- A term that rounds down loses less than two units. -/
theorem term_bounds (p y t k : Nat) :
    ((t * y / 2 ^ p / (k + 1) : Nat) : ℝ) ≤ t * (((y : ℝ) / 2 ^ p) / (k + 1)) ∧
      t * (((y : ℝ) / 2 ^ p) / (k + 1)) ≤ ((t * y / 2 ^ p / (k + 1) : Nat) : ℝ) + 2 := by
  have hp : (0 : ℝ) < 2 ^ p := by positivity
  rw [Nat.div_div_eq_div_mul]
  have heq : t * (((y : ℝ) / 2 ^ p) / (k + 1)) = ((t * y : Nat) : ℝ) / ((2 ^ p * (k + 1) : Nat) : ℝ) := by
    push_cast; field_simp
  rw [heq]
  refine ⟨Nat.cast_div_le, ?_⟩
  have hpos : (0 : ℝ) < ((2 ^ p * (k + 1) : Nat) : ℝ) := by positivity
  rw [div_le_iff₀ hpos]
  have hmod := Nat.div_add_mod (t * y) (2 ^ p * (k + 1))
  have hlt := Nat.mod_lt (t * y) (show 0 < 2 ^ p * (k + 1) by positivity)
  have hle : t * y ≤ (t * y / (2 ^ p * (k + 1)) + 2) * (2 ^ p * (k + 1)) := by
    rw [Nat.add_mul, Nat.mul_comm _ (2 ^ p * (k + 1))]
    omega
  exact_mod_cast hle

theorem expSeries_le (p y n k t : Nat) : (expSeries p y n k t : ℝ) ≤ t * expSum ((y : ℝ) / 2 ^ p) n k := by
  induction n generalizing k t with
  | zero => simp [expSeries, expSum]
  | succ n ih =>
    have hsum := expSum_nonneg (y := (y : ℝ) / 2 ^ p) (by positivity) n (k + 1)
    rw [expSeries, expSum, Nat.cast_add, mul_add, mul_one, ← mul_assoc]
    exact add_le_add le_rfl ((ih _ _).trans (mul_le_mul_of_nonneg_right (term_bounds p y t k).1 hsum))

theorem le_expSeries (p y n k t : Nat) : t * expSum ((y : ℝ) / 2 ^ p) n k ≤ expSeries p y n k t + 2 * n * Real.exp ((y : ℝ) / 2 ^ p) := by
  have hy : (0 : ℝ) ≤ (y : ℝ) / 2 ^ p := by positivity
  induction n generalizing k t with
  | zero => simp [expSeries, expSum]
  | succ n ih =>
    have hsum := expSum_nonneg hy n (k + 1)
    have hexp := expSum_le_exp hy n (k + 1)
    have hterm := mul_le_mul_of_nonneg_right (term_bounds p y t k).2 hsum
    have hrest := ih (k + 1) (t * y / 2 ^ p / (k + 1))
    rw [expSeries, expSum, Nat.cast_add, mul_add, mul_one, ← mul_assoc]
    push_cast
    linarith

/-- The series gives e^y from below, with less than two units lost a term and what is left of the series. -/
theorem expSeries_bounds {p y n : Nat} (hn : (y : ℝ) / 2 ^ p / (n + 1) ≤ 1 / 2) (htail : 2 ^ p * (((y : ℝ) / 2 ^ p) ^ n / n.factorial * 2) ≤ 1) :
    (expSeries p y n 0 (2 ^ p) : ℝ) ≤ 2 ^ p * Real.exp ((y : ℝ) / 2 ^ p) ∧
      2 ^ p * Real.exp ((y : ℝ) / 2 ^ p) ≤ expSeries p y n 0 (2 ^ p) + 2 * n * Real.exp ((y : ℝ) / 2 ^ p) + 1 := by
  have hy : (0 : ℝ) ≤ (y : ℝ) / 2 ^ p := by positivity
  have hp : (0 : ℝ) < 2 ^ p := by positivity
  have hlow := expSeries_le p y n 0 (2 ^ p)
  have hhigh := le_expSeries p y n 0 (2 ^ p)
  have hsum := mul_le_mul_of_nonneg_left (expSum_le_exp hy n 0) hp.le
  have hleft := mul_le_mul_of_nonneg_left (exp_sub_expSum_le hy hn) hp.le
  push_cast at hlow hhigh
  exact ⟨hlow.trans hsum, by linarith⟩

theorem le_expSeries_first (p y n k t : Nat) : t ≤ expSeries p y (n + 1) k t := Nat.le_add_right t _

/-! ## The logarithm of 2 -/

/-- The constant of the model is the logarithm of 2 in units of 2^-100, rounded down. -/
theorem ln2_bounds : (ln2 : ℝ) / 2 ^ 100 ≤ Real.log 2 ∧ Real.log 2 ≤ (ln2 + 1 : ℝ) / 2 ^ 100 := by
  have hseries (y : Nat) (hy : y ≤ 2 ^ 120) : (expSeries 120 y 40 0 (2 ^ 120) : ℝ) ≤ 2 ^ 120 * Real.exp ((y : ℝ) / 2 ^ 120) ∧
      (2 ^ 120 - 81) * Real.exp ((y : ℝ) / 2 ^ 120) ≤ expSeries 120 y 40 0 (2 ^ 120) := by
    have hY : (y : ℝ) / 2 ^ 120 ≤ 1 := by rw [div_le_one (by positivity)]; exact_mod_cast hy
    have hpow : ((y : ℝ) / 2 ^ 120) ^ 40 ≤ 1 := pow_le_one₀ (by positivity) hY
    have hfact : (2 : ℝ) ^ 121 ≤ (Nat.factorial 40 : Nat) := by norm_num [Nat.factorial]
    have hone : 1 ≤ Real.exp ((y : ℝ) / 2 ^ 120) := Real.one_le_exp (by positivity)
    obtain ⟨h1, h2⟩ := expSeries_bounds (p := 120) (y := y) (n := 40) (by norm_num; linarith) (by
      rw [div_mul_eq_mul_div, ← mul_div_assoc, div_le_one (by positivity)]
      linarith)
    push_cast at h2
    exact ⟨h1, by linarith⟩
  have hcast (n : Nat) : ((n * 2 ^ 20 : Nat) : ℝ) / 2 ^ 120 = n / 2 ^ 100 := by push_cast; field_simp; norm_num
  constructor
  · have hval : expSeries 120 (ln2 * 2 ^ 20) 40 0 (2 ^ 120) ≤ 2 * (2 ^ 120 - 81) := by decide +kernel
    obtain ⟨-, h⟩ := hseries (ln2 * 2 ^ 20) (by decide)
    have hval' : (expSeries 120 (ln2 * 2 ^ 20) 40 0 (2 ^ 120) : ℝ) ≤ 2 * (2 ^ 120 - 81) := by
      have : ((2 * (2 ^ 120 - 81) : Nat) : ℝ) = 2 * (2 ^ 120 - 81) := by norm_num
      rw [← this]
      exact_mod_cast hval
    rw [hcast] at h
    rw [Real.le_log_iff_exp_le two_pos]
    exact le_of_mul_le_mul_left ((h.trans hval').trans_eq (mul_comm ..)) (by norm_num : (0 : ℝ) < 2 ^ 120 - 81)
  · have hval : 2 ^ 121 ≤ expSeries 120 ((ln2 + 1) * 2 ^ 20) 40 0 (2 ^ 120) := by decide +kernel
    obtain ⟨h, -⟩ := hseries ((ln2 + 1) * 2 ^ 20) (by decide)
    have hval' : (2 : ℝ) ^ 121 ≤ expSeries 120 ((ln2 + 1) * 2 ^ 20) 40 0 (2 ^ 120) := by exact_mod_cast hval
    rw [hcast] at h
    rw [Real.log_le_iff_le_exp two_pos]
    rw [Nat.cast_add_one] at h
    exact le_of_mul_le_mul_left ((show (2 : ℝ) ^ 120 * 2 = 2 ^ 121 by norm_num).trans_le (hval'.trans h)) (by positivity)

end Sys2Proof.Machine
end

section
/-! # A value free within a limit (R130) -/
namespace Sys2Proof.Machine

open Sys2Proof.Safety

/-- A number in whole units of a power of two no greater than its own. -/
theorem dyadic_units (s : Bool) (m : Nat) {e u : Int} (h : u ≤ e) :
    dyadic s m e = (((if s then -1 else 1) * ((m * 2 ^ (e - u).toNat : Nat) : Int) : Int) : ℚ) * (2 : ℚ) ^ u := by
  obtain ⟨j, hj⟩ := Int.eq_ofNat_of_zero_le (sub_nonneg.2 h)
  rw [hj, Int.toNat_natCast, ← dyadic_shift s m j, show e - (j : Int) = u by omega, dyadic]
  cases s <;> push_cast <;> simp

/-- A free value stands where it is within the limit of both ends; elsewhere stands the nearer end rounded toward zero. -/
theorem limited_cases (free : Lane) (neg : Bool) (lo hi : Nat) (e : Int) (k : Nat) (q : Int) :
    (∀ w n, Exact.lane (limited free neg lo hi e k q) = .val w n → |w - dyadic neg lo e| ≤ k * 2 ^ q ∧ |w - dyadic neg hi e| ≤ k * 2 ^ q) ∨
      limited free neg lo hi e k q = (roundLane .rtz (.fin neg lo e)).1 := by
  cases hfree : readLane free with
  | nan s => exact .inr (by simp [limited, hfree])
  | inf s => exact .inr (by simp [limited, hfree])
  | fin b d f =>
    unfold limited
    rw [hfree]
    dsimp only
    generalize hu : min (min e f) q = u
    generalize hnear : [lo, hi].all _ = near
    cases near with
    | false => exact .inr rfl
    | true =>
      refine .inl fun w n hw => ?_
      rw [if_pos rfl, Exact.lane, hfree, exactOf_fin] at hw
      cases hw
      simp only [List.all_cons, List.all_nil, Bool.and_true, Bool.and_eq_true, decide_eq_true_eq] at hnear
      have hlimit : (k * 2 ^ q : ℚ) = ((k * 2 ^ (q - u).toNat : Nat) : ℚ) * 2 ^ u := by
        have h := dyadic_units false k (e := q) (u := u) (by omega)
        rw [dyadic_false] at h
        rw [h]
        push_cast
        simp
      have hnatAbs {a b : Int} {c : Nat} (h : (a - b).natAbs ≤ c) : |((b : Int) : ℚ) * 2 ^ u - (a : ℚ) * 2 ^ u| ≤ c * 2 ^ u := by
        have hpos : (0 : ℚ) < 2 ^ u := by positivity
        have hle : |((a - b : Int) : ℚ)| ≤ c := by
          rw [← Int.cast_abs, Int.abs_eq_natAbs]
          exact_mod_cast h
        rw [← sub_mul, abs_mul, abs_of_pos hpos, abs_sub_comm]
        push_cast at hle
        exact mul_le_mul_of_nonneg_right hle hpos.le
      rw [dyadic_units b d (e := f) (u := u) (by omega), dyadic_units neg lo (e := e) (u := u) (by omega),
        dyadic_units neg hi (e := e) (u := u) (by omega), hlimit]
      exact ⟨hnatAbs hnear.1, hnatAbs hnear.2⟩

/-- The value of a lane that is given of a number below the overflow limit. -/
theorem value_of_gives {mode : Rnd} {q w : ℚ} {n n' : Bool} {v : Lane} {fl : FFlags} (hq : q ≠ 0) (hfin : |roundRat fp32 mode q| < 2 ^ 128)
    (hg : (Exact.val q n).Gives fp32 mode v.toNat fl) (hw : Exact.lane v = .val w n') : w = roundRat fp32 mode q := by
  simp only [Exact.Gives, if_neg hq] at hg
  rw [if_pos (by exact_mod_cast hfin)] at hg
  obtain ⟨⟨m, e, hread, hval⟩, -⟩ := hg
  rw [Exact.lane, readLane, hread, Exact.of] at hw
  cases hw
  rw [← hval]
  simp

theorem abs_roundInt_rtz_le (x : ℚ) : |(roundInt .rtz x : ℚ)| ≤ |x| := by
  simp only [roundInt]
  split
  next h =>
    rw [abs_of_nonneg h, abs_of_nonneg (by exact_mod_cast Int.floor_nonneg.2 h)]
    exact Int.floor_le x
  next h =>
    have h' : x < 0 := not_le.1 h
    rw [abs_of_neg h', abs_of_nonpos (by exact_mod_cast Int.ceil_nonpos.2 h'.le)]
    exact neg_le_neg (Int.le_ceil x)

/-- Rounding toward zero does not go away from zero. -/
theorem abs_roundRat_rtz_le (f : Fmt) (x : ℚ) : |roundRat f .rtz x| ≤ |x| := by
  have htwo : (0 : ℚ) < 2 ^ (max (Int.log 2 |x|) (1 - (f.bias : Int)) - (f.fbits : Int)) := by positivity
  have h := mul_le_mul_of_nonneg_right (abs_roundInt_rtz_le (x / 2 ^ (max (Int.log 2 |x|) (1 - (f.bias : Int)) - (f.fbits : Int)))) htwo.le
  rwa [abs_div, abs_of_pos htwo, div_mul_cancel₀ _ htwo.ne', ← abs_of_pos htwo, ← abs_mul, abs_of_pos htwo] at h

/-- A number rounded toward zero is less than a unit in its last place away. -/
theorem rtz_near (neg : Bool) {m : Nat} {e : Int} (hm : m ≠ 0) (hlt : dyadic false m e < 2 ^ 128) {w : ℚ} {n : Bool}
    (hw : Exact.lane (roundLane .rtz (.fin neg m e)).1 = .val w n) : |w - dyadic neg m e| < 2 ^ ulpExp m e := by
  have hne : dyadic neg m e ≠ 0 := mt dyadic_eq_zero_iff.1 hm
  have hfin : |roundRat fp32 .rtz (dyadic neg m e)| < 2 ^ 128 := (abs_roundRat_rtz_le _ _).trans_lt (by rwa [abs_dyadic])
  rw [value_of_gives hne hfin (gives_roundLane_fin .rtz neg m e) hw]
  have h := abs_roundRat_sub_lt fp32 .rtz (dyadic neg m e)
  rw [abs_dyadic, log_dyadic e hm] at h
  exact h

/-- A limited value is as near as its limit to every number between the two ends. -/
theorem limited_near (free : Lane) (neg : Bool) {lo hi : Nat} {e : Int} {k : Nat} {q : Int} (hlo : lo ≠ 0) (hfin : dyadic false lo e < 2 ^ 128)
    (hsep : 2 ^ ulpExp lo e + (dyadic false hi e - dyadic false lo e) ≤ k * 2 ^ q) {x : ℝ} (hx : ((dyadic false lo e : ℚ) : ℝ) ≤ x)
    (hx' : x ≤ ((dyadic false hi e : ℚ) : ℝ)) {w : ℚ} {n : Bool} (hw : Exact.lane (limited free neg lo hi e k q) = .val w n) :
    |(w : ℝ) - (if neg then -1 else 1) * x| ≤ k * 2 ^ q := by
  have hcast {a b : ℚ} (h : a ≤ b) : (a : ℝ) ≤ (b : ℝ) := by exact_mod_cast h
  have hle : dyadic false lo e ≤ dyadic false hi e := by exact_mod_cast hx.trans hx'
  have hpos : (0 : ℚ) < 2 ^ ulpExp lo e := by positivity
  obtain ⟨h1, h2, h3, h4⟩ : -(k * 2 ^ q : ℚ) ≤ w - dyadic neg lo e ∧ w - dyadic neg lo e ≤ k * 2 ^ q ∧ -(k * 2 ^ q : ℚ) ≤ w - dyadic neg hi e ∧
      w - dyadic neg hi e ≤ k * 2 ^ q := by
    obtain h | h := limited_cases free neg lo hi e k q
    · obtain ⟨h1, h2⟩ := h w n hw
      exact ⟨(abs_le.1 h1).1, (abs_le.1 h1).2, (abs_le.1 h2).1, (abs_le.1 h2).2⟩
    · rw [h] at hw
      obtain ⟨h1, h2⟩ := abs_lt.1 (rtz_near neg hlo hfin hw)
      rw [dyadic_eq_sign_mul] at h1 h2 ⊢
      rw [dyadic_eq_sign_mul neg hi]
      cases neg <;> simp only [Bool.false_eq_true, if_false, if_true] at h1 h2 ⊢ <;> refine ⟨?_, ?_, ?_, ?_⟩ <;> linarith
  replace h1 := hcast h1
  replace h2 := hcast h2
  replace h3 := hcast h3
  replace h4 := hcast h4
  rw [dyadic_eq_sign_mul] at h1 h2 h3 h4
  rw [abs_le]
  cases neg <;> simp only [Bool.false_eq_true, if_false, if_true] at h1 h2 h3 h4 ⊢ <;> push_cast at h1 h2 h3 h4 <;> constructor <;> linarith

/-- A unit in the last place of the lower end is at most one of a number not below it. -/
theorem ulp_le_ulpAt {m : Nat} {e : Int} (hm : m ≠ 0) {x : ℝ} (hx : ((dyadic false m e : ℚ) : ℝ) ≤ |x|) : (2 : ℝ) ^ ulpExp m e ≤ ulpAt x := by
  have hpos : (0 : ℝ) < ((dyadic false m e : ℚ) : ℝ) := by exact_mod_cast dyadic_false_pos e hm
  have hlow : ((2 : Nat) : ℝ) ^ ((Nat.log2 m : Int) + e) ≤ |x| := by
    refine le_trans ?_ hx
    have h := (Rat.cast_le (K := ℝ)).2 (two_zpow_le_dyadic (e := e) hm)
    push_cast at h
    exact_mod_cast h
  have hlog := (Int.zpow_le_iff_le_log one_lt_two (hpos.trans_le hx)).1 hlow
  exact zpow_le_zpow_right₀ one_le_two (by simp only [ulpExp]; omega)

end Sys2Proof.Machine
end

section
/-! # VFEXP2 (R130) -/
namespace Sys2Proof.Machine

open Sys2Proof.Safety

theorem nearFlags_nx (v : Lane) : nearFlags v &&& flagNX = flagNX := by
  unfold nearFlags
  generalize decide (v.toNat % 2 ^ 31 < 2 ^ 23) = b
  revert b
  decide

/-- The whole units of a magnitude, and whether it is a whole number of them. -/
theorem quantise_bounds (m : Nat) (e q : Int) : ((quantise m e q).1 : ℚ) ≤ dyadic false m (e - q) ∧ dyadic false m (e - q) < (quantise m e q).1 + 1 ∧
    ((quantise m e q).2 = 0 ↔ dyadic false m (e - q) = (quantise m e q).1) := by
  obtain ⟨h0, h⟩ | ⟨h0, h1, h2⟩ | ⟨h0, h⟩ | ⟨h0, h1, h2⟩ := leftover_quantise m e q
  · exact ⟨h.ge, by linarith, iff_of_true h0 h⟩
  all_goals exact ⟨by linarith, by linarith, iff_of_false (by omega) (by linarith)⟩

/-! ## The series of 2^x -/

theorem exp_le_one_add_two_mul {z : ℝ} (h0 : 0 ≤ z) (h1 : z ≤ 1) : Real.exp z ≤ 1 + 2 * z := by
  have h := Real.abs_exp_sub_one_le (x := z) (by rwa [abs_of_nonneg h0])
  rw [abs_of_nonneg h0] at h
  linarith [(abs_le.1 h).2]

theorem nat_div_bounds (a b : Nat) : ((a / b : Nat) : ℝ) ≤ a / b ∧ (a : ℝ) / b < ((a / b : Nat) : ℝ) + 1 := by
  rw [← Nat.floor_div_eq_div (K := ℝ) a b]
  exact ⟨Nat.floor_le (by positivity), Nat.lt_floor_add_one _⟩

/-- The argument of the series for a fraction `r * 2^-100`: less than three units below that of any number to the next fraction. -/
theorem exp2_argument {r : Nat} (hr : r < 2 ^ 100) {z : ℝ} (hz : r / 2 ^ 100 ≤ z) (hz' : z ≤ (r + 1) / 2 ^ 100) :
    ((r * ln2 / 2 ^ 100 : Nat) : ℝ) / 2 ^ 100 ≤ z * Real.log 2 ∧ z * Real.log 2 ≤ ((r * ln2 / 2 ^ 100 : Nat) : ℝ) / 2 ^ 100 + 3 / 2 ^ 100 ∧
      ((r * ln2 / 2 ^ 100 : Nat) : ℝ) / 2 ^ 100 ≤ 1 := by
  obtain ⟨hln, hln'⟩ := ln2_bounds
  have hlog1 : Real.log 2 ≤ 1 := by linarith [Real.log_two_lt_d9]
  have hlog0 : 0 < Real.log 2 := Real.log_pos one_lt_two
  have hp : (0 : ℝ) < 2 ^ 100 := by positivity
  have hr' : (r : ℝ) ≤ 2 ^ 100 := by exact_mod_cast hr.le
  obtain ⟨hfloor, hfloor'⟩ := nat_div_bounds (r * ln2) (2 ^ 100)
  simp only [Nat.cast_pow, Nat.cast_ofNat, Nat.cast_mul] at hfloor hfloor'
  generalize ((r * ln2 / 2 ^ 100 : Nat) : ℝ) = y at *
  have hr0 : (0 : ℝ) ≤ r := Nat.cast_nonneg r
  have hscaled : (r : ℝ) * ln2 / 2 ^ 100 = r * (ln2 / 2 ^ 100) := mul_div_assoc ..
  have hlow : y ≤ r * Real.log 2 := hfloor.trans (hscaled.trans_le (mul_le_mul_of_nonneg_left hln hr0))
  have hhigh : r * Real.log 2 ≤ y + 2 := by
    have h1 := mul_le_mul_of_nonneg_left hln' hr0
    have h2 : (r : ℝ) * ((ln2 + 1) / 2 ^ 100) = r * ln2 / 2 ^ 100 + r / 2 ^ 100 := by ring
    have h3 : (r : ℝ) / 2 ^ 100 ≤ 1 := (div_le_one hp).2 hr'
    linarith
  rw [div_le_iff₀ hp] at hz
  rw [le_div_iff₀ hp] at hz'
  refine ⟨?_, ?_, ?_⟩
  · rw [div_le_iff₀ hp]
    linarith [mul_le_mul_of_nonneg_right hz hlog0.le]
  · rw [← add_div, le_div_iff₀ hp]
    linarith [mul_le_mul_of_nonneg_right hz' hlog0.le]
  · rw [div_le_one hp]
    linarith [mul_le_mul_of_nonneg_left hlog1 hr0]

/-- The series gives 2^x from below, and less than 2^10 units below. -/
theorem exp2_bounds {x : ℝ} {i : Int} (hi : i ≤ x * 2 ^ 100) (hi' : x * 2 ^ 100 ≤ i + 1) :
    (expSeries 100 ((i % 2 ^ 100).toNat * ln2 / 2 ^ 100) 40 0 (2 ^ 100) : ℝ) * 2 ^ (i / 2 ^ 100 - 100) ≤ 2 ^ x ∧
      (2 : ℝ) ^ x ≤ (expSeries 100 ((i % 2 ^ 100).toNat * ln2 / 2 ^ 100) 40 0 (2 ^ 100) + 2 ^ 10 : ℝ) * 2 ^ (i / 2 ^ 100 - 100) := by
  have hdiv := Int.mul_ediv_add_emod i (2 ^ 100)
  have hmod0 := Int.emod_nonneg i (show (2 ^ 100 : Int) ≠ 0 by positivity)
  have hmod1 := Int.emod_lt_of_pos i (show (0 : Int) < 2 ^ 100 by positivity)
  obtain ⟨r, hr⟩ := Int.eq_ofNat_of_zero_le hmod0
  generalize hk : i / 2 ^ 100 = k at *
  rw [hr, Int.toNat_natCast]
  have hiq : (i : ℝ) = 2 ^ 100 * k + r := by
    have : i = 2 ^ 100 * k + (r : Int) := by omega
    rw [this, Int.cast_add, Int.cast_mul, Int.cast_pow, Int.cast_ofNat, Int.cast_natCast]
  have hp : (0 : ℝ) < 2 ^ 100 := by positivity
  have hz : (r : ℝ) / 2 ^ 100 ≤ x - k := by rw [div_le_iff₀ hp]; linarith
  have hz' : x - k ≤ ((r : ℝ) + 1) / 2 ^ 100 := by rw [le_div_iff₀ hp]; linarith
  obtain ⟨h1, h2, h3⟩ := exp2_argument (by omega) hz hz'
  have htwo : (2 : ℝ) ^ x = 2 ^ 100 * Real.exp ((x - k) * Real.log 2) * 2 ^ (k - 100) := by
    have hx : x = (x - k) + (k : ℝ) := by ring
    conv_lhs => rw [hx]
    rw [Real.rpow_add two_pos, Real.rpow_intCast, Real.rpow_def_of_pos two_pos, zpow_sub₀ two_ne_zero, mul_comm (Real.log 2)]
    field_simp
  have hunit : (0 : ℝ) < 2 ^ (k - 100) := by positivity
  rw [htwo, mul_le_mul_iff_left₀ hunit, mul_le_mul_iff_left₀ hunit]
  generalize (r * ln2 / 2 ^ 100) = y at *
  generalize (x - k) * Real.log 2 = z at *
  have hy : (0 : ℝ) ≤ (y : ℝ) / 2 ^ 100 := by positivity
  have hpow : ((y : ℝ) / 2 ^ 100) ^ 40 ≤ 1 := pow_le_one₀ hy h3
  have hfact : (2 : ℝ) ^ 101 ≤ (Nat.factorial 40 : Nat) := by norm_num [Nat.factorial]
  obtain ⟨hlow, hhigh⟩ := expSeries_bounds (p := 100) (y := y) (n := 40) (by norm_num; linarith) (by
    rw [div_mul_eq_mul_div, ← mul_div_assoc, div_le_one (by positivity)]
    linarith)
  have hE : Real.exp ((y : ℝ) / 2 ^ 100) ≤ 3 := (Real.exp_le_exp.2 h3).trans (by linarith [Real.exp_one_lt_d9])
  have hstep : Real.exp z ≤ Real.exp ((y : ℝ) / 2 ^ 100) * (1 + 2 * (3 / 2 ^ 100)) := by
    refine (Real.exp_le_exp.2 h2).trans ?_
    rw [Real.exp_add]
    exact mul_le_mul_of_nonneg_left (exp_le_one_add_two_mul (by positivity) (by norm_num)) (Real.exp_pos _).le
  have hmono := Real.exp_le_exp.2 h1
  generalize Real.exp ((y : ℝ) / 2 ^ 100) = E at *
  have hstep' : 2 ^ 100 * Real.exp z ≤ 2 ^ 100 * E + 6 * E := by
    refine (mul_le_mul_of_nonneg_left hstep hp.le).trans_eq ?_
    ring
  rw [Nat.cast_ofNat] at hhigh
  exact ⟨hlow.trans (mul_le_mul_of_nonneg_left hmono hp.le), by linarith⟩

end Sys2Proof.Machine
end

section
/-! # VFEXP2: the lanes (R130) -/
namespace Sys2Proof.Machine

open Sys2Proof.Safety

/-- The bounds of the model on 2^x. -/
theorem exp2Near_bounds (neg : Bool) (m : Nat) (e : Int) : ∃ lo q, exp2Near neg m e = (lo, lo + 2 ^ 10, q) ∧ 2 ^ 100 ≤ lo ∧
    ((dyadic false lo q : ℚ) : ℝ) ≤ 2 ^ ((dyadic neg m e : ℚ) : ℝ) ∧ (2 : ℝ) ^ ((dyadic neg m e : ℚ) : ℝ) ≤ ((dyadic false (lo + 2 ^ 10) q : ℚ) : ℝ) := by
  obtain ⟨hd, hd', hexact⟩ := quantise_bounds m e (-100)
  have hx : dyadic neg m e * 2 ^ 100 = (if neg then -1 else 1) * dyadic false m (e - -100) := by
    rw [dyadic_eq_sign_mul, dyadic_false, dyadic_false, sub_neg_eq_add, zpow_add₀ two_ne_zero, show ((100 : Int)) = ((100 : Nat) : Int) from rfl,
      zpow_natCast]
    ring
  generalize dyadic false m (e - -100) = y at *
  have hi : ((if neg then -(((quantise m e (-100)).1 : Int) + if (quantise m e (-100)).2 = 0 then 0 else 1) else (quantise m e (-100)).1 : Int) : ℚ) ≤
      dyadic neg m e * 2 ^ 100 ∧ dyadic neg m e * 2 ^ 100 ≤
      ((if neg then -(((quantise m e (-100)).1 : Int) + if (quantise m e (-100)).2 = 0 then 0 else 1) else (quantise m e (-100)).1 : Int) : ℚ) + 1 := by
    rw [hx]
    generalize (quantise m e (-100)).1 = d at *
    generalize (quantise m e (-100)).2 = r at *
    cases neg
    · simp only [Bool.false_eq_true, if_false]
      push_cast
      constructor <;> linarith
    · simp only [if_true]
      by_cases hr : r = 0
      · rw [if_pos hr, hexact.1 hr]
        push_cast
        constructor <;> linarith
      · have hne : y ≠ d := mt hexact.2 hr
        rw [if_neg hr]
        push_cast
        constructor <;> linarith
  have hnear : exp2Near neg m e = (_, _, _) := rfl
  generalize (if neg then -(((quantise m e (-100)).1 : Int) + if (quantise m e (-100)).2 = 0 then 0 else 1) else (quantise m e (-100)).1 : Int) = i at *
  obtain ⟨hlow, hhigh⟩ := hi
  obtain ⟨h1, h2⟩ := exp2_bounds (x := ((dyadic neg m e : ℚ) : ℝ)) (i := i) (by exact_mod_cast hlow) (by exact_mod_cast hhigh)
  refine ⟨_, _, hnear, le_expSeries_first .., ?_, ?_⟩
  · rw [cast_dyadic]; exact h1
  · rw [cast_dyadic, Nat.cast_add, Nat.cast_pow, Nat.cast_ofNat]; exact h2

theorem NearReal.of_le {v : Lane} {k : Nat} {x l : ℝ} (h : ∀ w n, Exact.lane v = .val w n → |(w : ℝ) - x| ≤ k * l) (hl : l ≤ ulpAt x) :
    NearReal v k x := fun w n hw => (h w n hw).trans (mul_le_mul_of_nonneg_left hl (Nat.cast_nonneg k))

/-- A limited value of a positive number that lies in a narrow span is near it. -/
theorem nearReal_limited (free : Lane) {lo hi : Nat} {e : Int} (hlo : lo ≠ 0) (hfin : dyadic false lo e < 2 ^ 128)
    (hsep : dyadic false hi e - dyadic false lo e ≤ 2 ^ ulpExp lo e) {x : ℝ} (hx : ((dyadic false lo e : ℚ) : ℝ) ≤ x)
    (hx' : x ≤ ((dyadic false hi e : ℚ) : ℝ)) : NearReal (limited free false lo hi e 2 (ulpExp lo e)) 2 x := by
  refine NearReal.of_le (l := 2 ^ ulpExp lo e) (fun w n hw => ?_) (ulp_le_ulpAt hlo (hx.trans (le_abs_self x)))
  simpa using limited_near free false hlo hfin (by push_cast; linarith) hx hx' hw

/-- A span of 2^n units is less than a unit in the last place of a number of n + 24 digits. -/
theorem span_le_ulp {lo n : Nat} (e : Int) (hlo : 2 ^ (n + 23) ≤ lo) : dyadic false (lo + 2 ^ n) e - dyadic false lo e ≤ 2 ^ ulpExp lo e := by
  have hne : lo ≠ 0 := (lt_of_lt_of_le (Nat.two_pow_pos _) hlo).ne'
  have hlog := (Nat.le_log2 hne).2 hlo
  have hspan : dyadic false (lo + 2 ^ n) e - dyadic false lo e = (2 : ℚ) ^ ((n : Int) + e) := by
    rw [dyadic_false, dyadic_false, zpow_add₀ two_ne_zero, zpow_natCast]; push_cast; ring
  rw [hspan]
  exact zpow_le_zpow_right₀ one_le_two (by rw [ulpExp]; omega)

theorem wholeOf_some {neg : Bool} {m : Nat} {e k : Int} (h : wholeOf neg m e = some k) : dyadic neg m e = k := by
  obtain ⟨-, -, hexact⟩ := quantise_bounds m e 0
  rw [sub_zero] at hexact
  simp only [wholeOf] at h
  split at h
  next hr =>
    cases h
    rw [dyadic_eq_sign_mul, hexact.1 hr]
    cases neg <;> simp
  next => cases h

theorem wholeOf_none {neg : Bool} {m : Nat} {e : Int} (h : wholeOf neg m e = none) :
    ((quantise m e 0).1 : ℚ) < dyadic false m e ∧ dyadic false m e < (quantise m e 0).1 + 1 := by
  obtain ⟨hlow, hhigh, hexact⟩ := quantise_bounds m e 0
  rw [sub_zero] at *
  simp only [wholeOf] at h
  split at h
  next => cases h
  next hr => exact ⟨lt_of_le_of_ne hlow (Ne.symm (mt hexact.2 hr)), hhigh⟩

theorem fexp2_whole {b : Lane} {n : Bool} {m : Nat} {e k : Int} (hb : readLane b = .fin n m e) (hk : wholeOf n m e = some k) :
    fexp2 b = if 128 ≤ k then (BitVec.ofNat 32 (fp32.infCode false), flagOF ||| flagNX)
      else if -149 ≤ k then roundLane .rne (.fin false 1 k)
      else if k < -150 then (0, flagUF ||| flagNX)
      else (limited (Config.exp2 b) false 1 1 k 2 (-149), nearFlags (limited (Config.exp2 b) false 1 1 k 2 (-149))) := by
  simp only [fexp2, hb, hk]

theorem fexp2_part {b : Lane} {n : Bool} {m : Nat} {e : Int} (hb : readLane b = .fin n m e) (hk : wholeOf n m e = none) :
    fexp2 b = if !n && 128 ≤ (quantise m e 0).1 then (BitVec.ofNat 32 (fp32.infCode false), flagOF ||| flagNX)
      else if n && -((quantise m e 0).1 : Int) ≤ -150 then (0, flagUF ||| flagNX)
      else
        (limited (Config.exp2 b) false (exp2Near n m e).1 (exp2Near n m e).2.1 (exp2Near n m e).2.2 2 (ulpExp (exp2Near n m e).1 (exp2Near n m e).2.2),
          nearFlags (limited (Config.exp2 b) false (exp2Near n m e).1 (exp2Near n m e).2.1 (exp2Near n m e).2.2 2
            (ulpExp (exp2Near n m e).1 (exp2Near n m e).2.2))) := by
  simp only [fexp2, hb, hk]

/-! ## The exact and special cases (R130) -/

/-- A number of 24 digits whose unit is one of the format's rounds to itself. -/
theorem roundRat_of_digits (mode : Rnd) (s : Bool) {m : Nat} {e : Int} (hm : m ≠ 0) (hlt : m < 2 ^ 24) (he : -149 ≤ e) :
    roundRat fp32 mode (dyadic s m e) = dyadic s m e := by
  have hlog : Nat.log2 m < 24 := (Nat.log2_lt hm).2 hlt
  have htwo : (2 : ℚ) ^ fp32.unitExp m e ≠ 0 := zpow_ne_zero _ two_ne_zero
  have hunit : fp32.unitExp m e ≤ e := by simp only [Fmt.unitExp, fp32]; omega
  have hround : roundRat fp32 mode (dyadic s m e) = roundInt mode (dyadic s m e / 2 ^ fp32.unitExp m e) * 2 ^ fp32.unitExp m e := by
    rw [Fmt.unitExp, ← log_dyadic e hm, ← abs_dyadic s]; rfl
  rw [hround, dyadic_units s m hunit, mul_div_cancel_right₀ _ htwo, roundInt_intCast]

/-- A value of the format rounds to itself, in every mode. -/
theorem roundRat_lane {y : Lane} {q : ℚ} {n : Bool} (hy : Exact.lane y = .val q n) (hq : q ≠ 0) (mode : Rnd) : roundRat fp32 mode q = q := by
  cases hr : readLane y with
  | nan s => rw [Exact.lane, hr] at hy; cases hy
  | inf s => rw [Exact.lane, hr] at hy; cases hy
  | fin s m e =>
    rw [Exact.lane, hr, exactOf_fin] at hy
    cases hy
    obtain ⟨hlt, he, -⟩ := readLane_fin_bounds hr
    exact roundRat_of_digits mode n (fun h => hq (dyadic_eq_zero_iff.2 h)) hlt he

/-- The value of a lane is below the overflow limit. -/
theorem abs_lane_lt {y : Lane} {q : ℚ} {n : Bool} (hy : Exact.lane y = .val q n) : |q| < 2 ^ 128 := by
  cases hr : readLane y with
  | nan s => rw [Exact.lane, hr] at hy; cases hy
  | inf s => rw [Exact.lane, hr] at hy; cases hy
  | fin s m e =>
    rw [Exact.lane, hr, exactOf_fin] at hy
    cases hy
    obtain ⟨-, hmag, hlt⟩ := readLane_fin hr
    rw [abs_dyadic, hmag, ← magVal_inf]
    exact magVal_strictMono hlt

theorem sign_mag_of_value {x : Lane} {q : ℚ} {n : Bool} (hx : Exact.lane x = .val q n) (hq : q ≠ 0) :
    (x.getLsbD 31 = true ↔ q < 0) ∧ magVal (magBits x) = |q| := by
  cases hr : readLane x with
  | nan s => rw [Exact.lane, hr] at hx; cases hx
  | inf s => rw [Exact.lane, hr] at hx; cases hx
  | fin s m e =>
    rw [Exact.lane, hr, exactOf_fin] at hx
    cases hx
    obtain ⟨hs, hmag, -⟩ := readLane_fin hr
    rw [← hs, abs_dyadic, hmag]
    exact ⟨(dyadic_neg_iff e (mt dyadic_eq_zero_iff.2 hq)).symm, rfl⟩

/-- Lanes of one value that is not zero are one lane. -/
theorem lane_eq_of_value {x y : Lane} {q : ℚ} {n n' : Bool} (hx : Exact.lane x = .val q n) (hy : Exact.lane y = .val q n') (hq : q ≠ 0) : x = y := by
  obtain ⟨hsx, hmx⟩ := sign_mag_of_value hx hq
  obtain ⟨hsy, hmy⟩ := sign_mag_of_value hy hq
  exact lane_ext (Bool.eq_iff_iff.2 (hsx.trans hsy.symm)) (magVal_strictMono.injective (hmx.trans hmy.symm))

/-- What is given of a number that rounds to itself is its value, and no flag. -/
theorem value_of_gives_exact {mode : Rnd} {q : ℚ} {n : Bool} {v : Lane} {fl : FFlags} (hq : q ≠ 0) (hround : roundRat fp32 mode q = q)
    (hlt : |q| < 2 ^ 128) (hg : (Exact.val q n).Gives fp32 mode v.toNat fl) : Exact.lane v = .val q (decide (q < 0)) ∧ fl = 0 := by
  have hfin : |roundRat fp32 mode q| < 2 ^ (fp32.bias + 1) := by rw [hround]; exact hlt
  simp only [Exact.Gives, if_neg hq, if_pos hfin] at hg
  obtain ⟨⟨m, e, hread, hval⟩, hfl⟩ := hg
  refine ⟨?_, by simpa [hround] using hfl⟩
  rw [Exact.lane, readLane, hread, Exact.of]
  have hval' : (if decide (q < 0) = true then -1 else 1) * (m : ℚ) * 2 ^ e = q := by
    simp only [decide_eq_true_eq]
    exact hval.trans hround
  rw [hval']

/-- What is given of a value of the format is its lane, and no flag. -/
theorem eq_of_gives_lane {mode : Rnd} {q : ℚ} {n n' : Bool} {v y : Lane} {fl : FFlags} (hy : Exact.lane y = .val q n') (hq : q ≠ 0)
    (hg : (Exact.val q n).Gives fp32 mode v.toNat fl) : v = y ∧ fl = 0 := by
  obtain ⟨hv, hfl⟩ := value_of_gives_exact hq (roundRat_lane hy hq mode) (abs_lane_lt hy) hg
  exact ⟨lane_eq_of_value hv hy hq, hfl⟩

end Sys2Proof.Machine
end

section
/-! # VFEXP2: each case of R130 -/
namespace Sys2Proof.Machine

open Sys2Proof.Safety

/-! ## Powers of two -/

theorem exactLane_two_pow_normal {k : Int} (hk : -126 ≤ k) (hk' : k < 128) :
    Exact.lane (BitVec.ofNat 32 ((k + 127).toNat * 2 ^ 23)) = .val (2 ^ k) false := by
  obtain ⟨i, hi⟩ := Int.eq_ofNat_of_zero_le (show 0 ≤ k + 127 by omega)
  rw [hi, Int.toNat_natCast]
  have hcode : (BitVec.ofNat 32 (i * 2 ^ 23) : Lane).toNat = (if false then 2 ^ 31 else 0) + i * 2 ^ 23 + 0 := by
    rw [BitVec.toNat_ofNat, Nat.mod_eq_of_lt (by omega)]; simp
  rw [Exact.lane, readLane, hcode, read_fields_fp32 false (by omega) (by norm_num), if_neg (by omega), if_neg (by omega), exactOf_fin,
    Nat.add_zero, dyadic_two_pow]
  congr 2
  push_cast
  omega

theorem exactLane_two_pow_subnormal {k : Int} (hk : -149 ≤ k) (hk' : k < -126) :
    Exact.lane (BitVec.ofNat 32 (2 ^ (k + 149).toNat)) = .val (2 ^ k) false := by
  obtain ⟨i, hi⟩ := Int.eq_ofNat_of_zero_le (show 0 ≤ k + 149 by omega)
  rw [hi, Int.toNat_natCast]
  have hlt : 2 ^ i < 2 ^ 23 := Nat.pow_lt_pow_right one_lt_two (by omega)
  have hcode : (BitVec.ofNat 32 (2 ^ i) : Lane).toNat = (if false then 2 ^ 31 else 0) + 0 * 2 ^ 23 + 2 ^ i := by
    rw [BitVec.toNat_ofNat, Nat.mod_eq_of_lt (by omega)]; simp
  rw [Exact.lane, readLane, hcode, read_fields_fp32 false (by norm_num) hlt, if_neg (by norm_num), if_pos rfl, exactOf_fin, dyadic_two_pow]
  congr 2
  omega

/-- A power of two of the format's range, rounded. -/
theorem roundLane_two_pow {k : Int} {y : Lane} {n : Bool} (hy : Exact.lane y = .val (2 ^ k) n) (mode : Rnd) : roundLane mode (.fin false 1 k) = (y, 0) := by
  have hg := gives_roundLane_fin mode false 1 k
  have hone : dyadic false 1 k = 2 ^ k := by rw [dyadic_false]; simp
  rw [hone] at hg
  exact Prod.ext_iff.2 (eq_of_gives_lane hy (zpow_ne_zero k two_ne_zero) hg)

/-! ## Where the rule fixes the result -/

theorem fexp2_nan {b : Lane} {s : Bool} (hb : readLane b = .nan s) : fexp2 b = (0x7FC00000, flagIf s flagNV) := by
  simp only [fexp2, hb, snan_nan]; rfl

theorem fexp2_inf {b : Lane} {n : Bool} (hb : readLane b = .inf n) : fexp2 b = (if n then 0 else 0x7F800000, 0) := by
  have hpos : n = false → b = 0x7F800000 := fun hn => by
    obtain ⟨hs, hm⟩ := readLane_inf hb
    exact lane_ext (by rw [← hs, hn]; rfl) hm
  cases n
  · rw [hpos rfl]; rfl
  · simp only [fexp2, hb]; rfl

section Finite
variable {b : Lane} {n : Bool} {m : Nat} {e : Int} (hb : readLane b = .fin n m e)
include hb

theorem fexp2_over (h : 128 ≤ dyadic n m e) : fexp2 b = (0x7F800000, flagOF ||| flagNX) := by
  cases hk : wholeOf n m e with
  | some k =>
    rw [wholeOf_some hk] at h
    rw [fexp2_whole hb hk, if_pos (by exact_mod_cast h)]
    rfl
  | none =>
    obtain ⟨-, hlt⟩ := wholeOf_none hk
    have hn : n = false := by
      by_contra hn
      rw [Bool.not_eq_false] at hn
      have hpos : 0 ≤ dyadic false m e := by rw [dyadic_false]; positivity
      rw [hn, dyadic_true] at h
      linarith
    subst hn
    have hd : 128 ≤ (quantise m e 0).1 := by
      have : (128 : ℚ) < (quantise m e 0).1 + 1 := h.trans_lt hlt
      exact Nat.lt_succ_iff.1 (by exact_mod_cast this)
    rw [fexp2_part hb hk, if_pos (by simp [hd])]
    rfl

theorem fexp2_under (h : dyadic n m e < -150) : fexp2 b = (0, flagUF ||| flagNX) := by
  cases hk : wholeOf n m e with
  | some k =>
    rw [wholeOf_some hk] at h
    have hlt : k < -150 := by exact_mod_cast h
    rw [fexp2_whole hb hk, if_neg (by omega), if_neg (by omega), if_pos hlt]
  | none =>
    obtain ⟨-, hlt⟩ := wholeOf_none hk
    have hn : n = true := by
      by_contra hn
      rw [Bool.not_eq_true] at hn
      have hpos : 0 ≤ dyadic false m e := by rw [dyadic_false]; positivity
      rw [hn] at h
      linarith
    subst hn
    rw [dyadic_true] at h
    have hd : 150 ≤ (quantise m e 0).1 := by
      have : (150 : ℚ) < (quantise m e 0).1 + 1 := by linarith
      exact Nat.lt_succ_iff.1 (by exact_mod_cast this)
    rw [fexp2_part hb hk, if_neg (by simp), if_pos (by simpa using hd)]

/-- A whole number of the format's range. -/
theorem fexp2_of_whole {k : Int} (hx : dyadic n m e = k) (hk : -149 ≤ k) (hk' : k < 128) : fexp2 b = roundLane .rne (.fin false 1 k) := by
  cases hw : wholeOf n m e with
  | some j =>
    have hj : j = k := by rw [wholeOf_some hw] at hx; exact_mod_cast hx
    rw [hj] at hw
    rw [fexp2_whole hb hw, if_neg (by omega), if_pos hk]
  | none =>
    obtain ⟨hlow, hhigh⟩ := wholeOf_none hw
    exfalso
    have habs : dyadic false m e = (|k| : Int) := by rw [← abs_dyadic n, hx]; push_cast; rfl
    rw [habs] at hlow hhigh
    have h1 : ((quantise m e 0).1 : Int) < |k| := by exact_mod_cast hlow
    have h2 : |k| < ((quantise m e 0).1 : Int) + 1 := by exact_mod_cast hhigh
    omega

/-- Everywhere else the result is near 2^x, and inexact. -/
theorem fexp2_near (h1 : dyadic n m e < 128) (h2 : -150 ≤ dyadic n m e) (h3 : ∀ k : Int, dyadic n m e = k → k < -149) :
    (fexp2 b).2 &&& flagNX = flagNX ∧ NearReal (fexp2 b).1 2 ((2 : ℝ) ^ ((dyadic n m e : ℚ) : ℝ)) := by
  cases hk : wholeOf n m e with
  | some k =>
    have hx := wholeOf_some hk
    have hk1 := h3 k hx
    have hk2 : -150 ≤ k := by rw [hx] at h2; exact_mod_cast h2
    obtain rfl : k = -150 := by omega
    rw [fexp2_whole hb hk, if_neg (by norm_num), if_neg (by norm_num), if_neg (by norm_num), hx]
    refine ⟨nearFlags_nx _, ?_⟩
    have hone : dyadic false 1 (-150) = 2 ^ (-150 : Int) := by rw [dyadic_false]; simp
    have hreal : (2 : ℝ) ^ (((-150 : Int) : ℚ) : ℝ) = ((dyadic false 1 (-150) : ℚ) : ℝ) := by
      rw [hone, Rat.cast_intCast, Real.rpow_intCast]; push_cast; rfl
    rw [hreal]
    exact nearReal_limited _ one_ne_zero (by rw [hone]; norm_num) (by rw [sub_self]; positivity) le_rfl le_rfl
  | none =>
    obtain ⟨hlow, hhigh⟩ := wholeOf_none hk
    have hbig : ¬ (!n && decide (128 ≤ (quantise m e 0).1)) = true := by
      simp only [Bool.and_eq_true, Bool.not_eq_true', decide_eq_true_eq]
      rintro ⟨rfl, hd⟩
      have hd' : (128 : ℚ) ≤ (quantise m e 0).1 := by exact_mod_cast hd
      linarith
    have hsmall : ¬ (n && decide (-((quantise m e 0).1 : Int) ≤ -150)) = true := by
      simp only [Bool.and_eq_true, decide_eq_true_eq]
      rintro ⟨rfl, hd⟩
      have hd' : (150 : ℚ) ≤ (quantise m e 0).1 := by exact_mod_cast (by omega : 150 ≤ (quantise m e 0).1)
      rw [dyadic_true] at h2
      linarith
    obtain ⟨lo, q, hnear, hlo, hx, hx'⟩ := exp2Near_bounds n m e
    rw [fexp2_part hb hk, if_neg hbig, if_neg hsmall, hnear]
    refine ⟨nearFlags_nx _, nearReal_limited _ (by omega) ?_ (span_le_ulp q (n := 10) (by omega)) hx hx'⟩
    have hx128 : ((dyadic n m e : ℚ) : ℝ) < ((128 : Nat) : ℝ) := by exact_mod_cast h1
    have hpow := hx.trans_lt (Real.rpow_lt_rpow_of_exponent_lt one_lt_two hx128)
    rw [Real.rpow_natCast] at hpow
    exact_mod_cast hpow

end Finite

end Sys2Proof.Machine
end

section
/-! # VFLOG2 (R130) -/
namespace Sys2Proof.Machine

open Sys2Proof.Safety

/-! ## The digits of a logarithm -/

theorem logb_succ_le {z : Nat} (hz : z ≠ 0) : Real.logb 2 (z + 1) ≤ Real.logb 2 z + 2 / z := by
  have hpos : (0 : ℝ) < z := by exact_mod_cast Nat.pos_of_ne_zero hz
  have hlog : 1 / 2 ≤ Real.log 2 := by linarith [Real.log_two_gt_d9]
  have hfrac : (z + 1 : ℝ) = z * (1 + 1 / z) := by field_simp
  have hle := Real.log_le_sub_one_of_pos (show (0 : ℝ) < 1 + 1 / z by positivity)
  rw [hfrac, Real.logb_mul hpos.ne' (by positivity), add_le_add_iff_left, Real.logb, div_le_iff₀ (by linarith)]
  calc Real.log (1 + 1 / z) ≤ 2 / z * (1 / 2) := by rw [show 2 / (z : ℝ) * (1 / 2) = 1 / z by ring]; linarith
    _ ≤ 2 / z * Real.log 2 := mul_le_mul_of_nonneg_left hlog (by positivity)

/-- A square that rounds down, halved where it has one digit more: the logarithm doubles but for a part of the last digit. -/
theorem logb_square {z w : Nat} {c : Nat} (hw : 2 ^ 160 ≤ w) (hlow : (w : ℝ) * 2 ^ (160 + c) ≤ (z : ℝ) ^ 2) (hhigh : (z : ℝ) ^ 2 ≤ (w + 1 : ℝ) * 2 ^ (160 + c)) :
    Real.logb 2 w - 160 + c ≤ 2 * (Real.logb 2 z - 160) ∧ 2 * (Real.logb 2 z - 160) ≤ Real.logb 2 w - 160 + c + 1 / 2 ^ 159 := by
  have hwpos : (0 : ℝ) < w := by exact_mod_cast (by omega : 0 < w)
  have hscale (x : ℝ) (hx : 0 < x) : Real.logb 2 (x * 2 ^ (160 + c)) = Real.logb 2 x + (160 + c) := by
    rw [Real.logb_mul hx.ne' (by positivity), Real.logb_pow, Real.logb_self_eq_one one_lt_two]
    push_cast; ring
  have hsq : Real.logb 2 ((z : ℝ) ^ 2) = 2 * Real.logb 2 z := by rw [Real.logb_pow]; push_cast; ring
  have hzpos : (0 : ℝ) < (z : ℝ) ^ 2 := lt_of_lt_of_le (by positivity) hlow
  have h1 := Real.logb_le_logb_of_le one_lt_two (by positivity) hlow
  have h2 := Real.logb_le_logb_of_le one_lt_two hzpos hhigh
  rw [hscale _ hwpos, hsq] at h1
  rw [hscale _ (by positivity), hsq] at h2
  have hstep := logb_succ_le (z := w) (by omega)
  have hsmall : (2 : ℝ) / w ≤ 1 / 2 ^ 159 := by
    have : (2 : ℝ) ^ 160 ≤ w := by exact_mod_cast hw
    rw [div_le_div_iff₀ hwpos (by positivity)]
    linarith
  constructor <;> linarith

/-- The digits of the logarithm of a number from 1 to 2, given in units of 2^-160. -/
theorem log2Digits_bounds (n z acc : Nat) (hz : 2 ^ 160 ≤ z) (hz' : z < 2 ^ 161) :
    (log2Digits n z acc : ℝ) ≤ 2 ^ n * (acc + (Real.logb 2 z - 160)) ∧
      2 ^ n * (acc + (Real.logb 2 z - 160)) ≤ log2Digits n z acc + 1 + 2 ^ n / 2 ^ 159 := by
  induction n generalizing z acc with
  | zero =>
    have hpos : (0 : ℝ) < z := by exact_mod_cast (by omega : 0 < z)
    have h1 : (160 : ℝ) ≤ Real.logb 2 z := by
      rw [Real.le_logb_iff_rpow_le one_lt_two hpos]
      exact_mod_cast hz
    have h2 : Real.logb 2 z ≤ 161 := by
      rw [Real.logb_le_iff_le_rpow one_lt_two hpos]
      exact_mod_cast hz'.le
    have h3 : (0 : ℝ) ≤ 2 ^ 0 / 2 ^ 159 := by positivity
    simp only [log2Digits, pow_zero, one_mul] at h3 ⊢
    constructor <;> linarith
  | succ n ih =>
    have hp : (0 : ℝ) < 2 ^ n := by positivity
    have hrec (z' acc' c : Nat) (hacc : (acc' : ℝ) = 2 * acc + c) (h1 : 2 ^ 160 ≤ z') (h2 : z' < 2 ^ 161)
        (hlow : z' * 2 ^ (160 + c) ≤ z * z) (hhigh : z * z ≤ (z' + 1) * 2 ^ (160 + c)) :
        (log2Digits n z' acc' : ℝ) ≤ 2 ^ (n + 1) * (acc + (Real.logb 2 z - 160)) ∧
          2 ^ (n + 1) * (acc + (Real.logb 2 z - 160)) ≤ log2Digits n z' acc' + 1 + 2 ^ (n + 1) / 2 ^ 159 := by
      obtain ⟨h3, h4⟩ := logb_square (z := z) h1 (by rw [sq]; exact_mod_cast hlow) (by rw [sq]; exact_mod_cast hhigh)
      obtain ⟨h5, h6⟩ := ih z' acc' h1 h2
      rw [hacc] at h5 h6
      have h7 := mul_le_mul_of_nonneg_left h3 hp.le
      have h8 := mul_le_mul_of_nonneg_left h4 hp.le
      rw [pow_succ]
      constructor
      · linarith
      · have : (2 : ℝ) ^ n * 2 / 2 ^ 159 = 2 ^ n / 2 ^ 159 + 2 ^ n * (1 / 2 ^ 159) := by ring
        linarith
    have hlow : z * z / 2 ^ 160 * 2 ^ 160 ≤ z * z := Nat.div_mul_le_self ..
    have hhigh : z * z ≤ (z * z / 2 ^ 160 + 1) * 2 ^ 160 :=
      (Nat.lt_mul_div_succ (z * z) (Nat.two_pow_pos 160)).le.trans_eq (Nat.mul_comm ..)
    have hw : 2 ^ 160 ≤ z * z / 2 ^ 160 := (Nat.le_div_iff_mul_le (Nat.two_pow_pos 160)).2 (Nat.mul_le_mul hz hz)
    have hw' : z * z / 2 ^ 160 < 2 ^ 162 := (Nat.div_lt_iff_lt_mul (Nat.two_pow_pos 160)).2 ((Nat.mul_lt_mul'' hz' hz').trans_eq (by norm_num))
    rw [log2Digits]
    generalize z * z / 2 ^ 160 = w at *
    have htwo : 2 ^ (160 + 1) = 2 * 2 ^ 160 := rfl
    split
    next hbig =>
      refine hrec (w / 2) (2 * acc + 1) 1 (by push_cast; ring) (by omega) (by omega) ?_ ?_
      · calc w / 2 * 2 ^ (160 + 1) = w / 2 * 2 * 2 ^ 160 := by rw [htwo, Nat.mul_assoc]
          _ ≤ w * 2 ^ 160 := Nat.mul_le_mul_right _ (by omega)
          _ ≤ z * z := hlow
      · calc z * z ≤ (w + 1) * 2 ^ 160 := hhigh
          _ ≤ (w / 2 + 1) * 2 * 2 ^ 160 := Nat.mul_le_mul_right _ (by omega)
          _ = (w / 2 + 1) * 2 ^ (160 + 1) := by rw [htwo, Nat.mul_assoc]
    next hsmall => exact hrec w (2 * acc) 0 (by push_cast; ring) (by omega) (by omega) hlow hhigh

end Sys2Proof.Machine
end

section
/-! # VFLOG2: the lanes (R130) -/
namespace Sys2Proof.Machine

open Sys2Proof.Safety

/-- The logarithm to base 2 of a number of the machine. -/
theorem logb_dyadic {m : Nat} (e : Int) (hm : m ≠ 0) : Real.logb 2 ((dyadic false m e : ℚ) : ℝ) = Real.logb 2 m + e := by
  have hpos : (0 : ℝ) < m := by exact_mod_cast Nat.pos_of_ne_zero hm
  rw [cast_dyadic, Real.logb_mul hpos.ne' (by positivity), ← Real.rpow_intCast, Real.logb_rpow two_pos (by norm_num)]

/-- The model's number is the logarithm rounded down to units of 2^-80, or one unit below it. -/
theorem log2Near_bounds {m : Nat} (e : Int) (hm : m ≠ 0) (hlt : m < 2 ^ 24) :
    (log2Near m e : ℝ) ≤ 2 ^ 80 * Real.logb 2 ((dyadic false m e : ℚ) : ℝ) ∧
      2 ^ 80 * Real.logb 2 ((dyadic false m e : ℚ) : ℝ) ≤ log2Near m e + 2 := by
  have hL : Nat.log2 m < 24 := (Nat.log2_lt hm).2 hlt
  have hlow := Nat.log2_self_le hm
  have hhigh : m < 2 ^ (Nat.log2 m + 1) := Nat.lt_log2_self
  rw [logb_dyadic e hm, log2Near]
  generalize Nat.log2 m = L at *
  have hmpos : (0 : ℝ) < m := by exact_mod_cast Nat.pos_of_ne_zero hm
  have hz : m * 2 ^ 160 / 2 ^ L = m * 2 ^ (160 - L) := by
    rw [Nat.mul_div_assoc _ (Nat.pow_dvd_pow 2 (by omega)), Nat.pow_div (by omega) two_pos]
  have hz1 : 2 ^ 160 ≤ m * 2 ^ (160 - L) := by
    calc 2 ^ 160 = 2 ^ L * 2 ^ (160 - L) := by rw [← pow_add]; congr 1; omega
      _ ≤ _ := Nat.mul_le_mul_right _ hlow
  have hz2 : m * 2 ^ (160 - L) < 2 ^ 161 := by
    calc m * 2 ^ (160 - L) < 2 ^ (L + 1) * 2 ^ (160 - L) := Nat.mul_lt_mul_of_pos_right hhigh (Nat.two_pow_pos _)
      _ = 2 ^ 161 := by rw [← pow_add]; congr 1; omega
  obtain ⟨h1, h2⟩ := log2Digits_bounds 80 _ 0 hz1 hz2
  have hlog : Real.logb 2 ((m * 2 ^ (160 - L) : Nat) : ℝ) = Real.logb 2 m + (160 - L) := by
    rw [Nat.cast_mul, Nat.cast_pow, Nat.cast_ofNat, Real.logb_mul hmpos.ne' (by positivity), Real.logb_pow, Real.logb_self_eq_one one_lt_two,
      Nat.cast_sub (by omega)]
    norm_num
  rw [hz]
  rw [hlog] at h1 h2
  have hsmall : (2 : ℝ) ^ 80 / 2 ^ 159 ≤ 1 := by norm_num
  have hsplit : (2 : ℝ) ^ 80 * (Real.logb 2 m + e) = ((L : ℝ) + e) * 2 ^ 80 + 2 ^ 80 * ((0 : Nat) + (Real.logb 2 m + (160 - L) - 160)) := by
    push_cast; ring
  rw [hsplit, Int.cast_add, Int.cast_mul, Int.cast_add, Int.cast_pow, Int.cast_ofNat, Int.cast_natCast, Int.cast_natCast]
  constructor <;> linarith

/-! ## Numbers that are not powers of two -/

theorem exponent_bounds {m : Nat} (e : Int) (hm : m ≠ 0) :
    ((Nat.log2 m : Int) + e : ℝ) ≤ Real.logb 2 ((dyadic false m e : ℚ) : ℝ) ∧ Real.logb 2 ((dyadic false m e : ℚ) : ℝ) ≤ ((Nat.log2 m : Int) + e : ℝ) + 1 := by
  have hmpos : (0 : ℝ) < m := by exact_mod_cast Nat.pos_of_ne_zero hm
  have hlow : (2 : ℝ) ^ ((Nat.log2 m : Nat) : ℝ) ≤ m := by rw [Real.rpow_natCast]; exact_mod_cast Nat.log2_self_le hm
  have hhigh : (m : ℝ) ≤ 2 ^ ((Nat.log2 m + 1 : Nat) : ℝ) := by rw [Real.rpow_natCast]; exact_mod_cast (Nat.lt_log2_self (n := m)).le
  have h1 := (Real.le_logb_iff_rpow_le one_lt_two hmpos).2 hlow
  have h2 := (Real.logb_le_iff_le_rpow one_lt_two hmpos).2 hhigh
  rw [logb_dyadic e hm]
  push_cast at h1 h2 ⊢
  constructor <;> linarith

/-- The logarithm of a number that is not a power of two is not too near zero. -/
theorem logb_far {m : Nat} (e : Int) (hm : m ≠ 0) (hlt : m < 2 ^ 24) (hpow : m ≠ 2 ^ Nat.log2 m) :
    (0 ≤ (Nat.log2 m : Int) + e ∧ 1 / 2 ^ 24 ≤ Real.logb 2 ((dyadic false m e : ℚ) : ℝ)) ∨
      ((Nat.log2 m : Int) + e < 0 ∧ Real.logb 2 ((dyadic false m e : ℚ) : ℝ) ≤ -(1 / 2 ^ 24)) := by
  have hmpos : (0 : ℝ) < m := by exact_mod_cast Nat.pos_of_ne_zero hm
  have hlog2 : 0 < Real.log 2 := Real.log_pos one_lt_two
  have hlog2' : Real.log 2 ≤ 1 := by linarith [Real.log_two_lt_d9]
  have hL : Nat.log2 m < 24 := (Nat.log2_lt hm).2 hlt
  have hdiv (k : Nat) : Real.logb 2 (m / 2 ^ k) = Real.logb 2 m - k := by
    rw [Real.logb_div hmpos.ne' (by positivity), Real.logb_pow, Real.logb_self_eq_one one_lt_two, mul_one]
  rw [logb_dyadic e hm]
  obtain he | he := le_or_gt 0 ((Nat.log2 m : Int) + e)
  · refine .inl ⟨he, ?_⟩
    have hgap : (2 : ℝ) ^ Nat.log2 m + 1 ≤ m := by
      exact_mod_cast Nat.succ_le_of_lt (lt_of_le_of_ne (Nat.log2_self_le hm) hpow.symm)
    have hlt' : (m : ℝ) ≤ 2 ^ 24 := by exact_mod_cast hlt.le
    have hlog := Real.one_sub_inv_le_log_of_pos (show (0 : ℝ) < m / 2 ^ Nat.log2 m by positivity)
    have hone : (1 : ℝ) / 2 ^ 24 ≤ 1 - (m / 2 ^ Nat.log2 m : ℝ)⁻¹ := by
      rw [inv_div, one_sub_div hmpos.ne', div_le_div_iff₀ (by positivity) hmpos]
      linarith
    have hlogb : (1 : ℝ) / 2 ^ 24 ≤ Real.logb 2 (m / 2 ^ Nat.log2 m) := by
      rw [Real.logb, le_div_iff₀ hlog2]
      linarith [mul_le_mul_of_nonneg_left hlog2' (show (0 : ℝ) ≤ 1 / 2 ^ 24 by positivity)]
    have he' : (0 : ℝ) ≤ (Nat.log2 m : ℝ) + e := by exact_mod_cast he
    rw [hdiv] at hlogb
    linarith
  · refine .inr ⟨he, ?_⟩
    have hgap : (m : ℝ) + 1 ≤ 2 ^ (Nat.log2 m + 1) := by exact_mod_cast Nat.lt_log2_self (n := m)
    have hpow' : (2 : ℝ) ^ (Nat.log2 m + 1) ≤ 2 ^ 24 := pow_le_pow_right₀ one_le_two (by omega)
    have hlog := Real.log_le_sub_one_of_pos (show (0 : ℝ) < m / 2 ^ (Nat.log2 m + 1) by positivity)
    have hone : (m / 2 ^ (Nat.log2 m + 1) : ℝ) - 1 ≤ -(1 / 2 ^ 24) := by
      rw [div_sub_one (by positivity), ← neg_div, div_le_div_iff₀ (by positivity) (by positivity)]
      linarith
    have hlogb : Real.logb 2 (m / 2 ^ (Nat.log2 m + 1)) ≤ -(1 / 2 ^ 24) := by
      rw [Real.logb, div_le_iff₀ hlog2]
      linarith [mul_le_mul_of_nonneg_left hlog2' (show (0 : ℝ) ≤ 1 / 2 ^ 24 by positivity)]
    have he' : (Nat.log2 m : ℝ) + e + 1 ≤ 0 := by exact_mod_cast he
    rw [hdiv] at hlogb
    push_cast at hlogb
    linarith

end Sys2Proof.Machine
end

section
/-! # VFLOG2: each case of R130 -/
namespace Sys2Proof.Machine

open Sys2Proof.Safety

/-- The model's bounds on the magnitude of a logarithm, and its sign. -/
theorem log2_span {m : Nat} (e : Int) (hm : m ≠ 0) (hlt : m < 2 ^ 24) (hpow : m ≠ 2 ^ Nat.log2 m) :
    ∃ lo, 2 ^ 55 ≤ lo ∧ (if log2Near m e < 0 then ((log2Near m e + 2).natAbs, (log2Near m e).natAbs)
        else ((log2Near m e).natAbs, (log2Near m e + 2).natAbs)) = (lo, lo + 2 ^ 1) ∧
      ((dyadic false lo (-80) : ℚ) : ℝ) ≤ |Real.logb 2 ((dyadic false m e : ℚ) : ℝ)| ∧
      |Real.logb 2 ((dyadic false m e : ℚ) : ℝ)| ≤ ((dyadic false (lo + 2 ^ 1) (-80) : ℚ) : ℝ) ∧
      Real.logb 2 ((dyadic false m e : ℚ) : ℝ) =
        (if decide (log2Near m e < 0) then -1 else 1) * |Real.logb 2 ((dyadic false m e : ℚ) : ℝ)| := by
  obtain ⟨h1, h2⟩ := log2Near_bounds e hm hlt
  have hfar := logb_far e hm hlt hpow
  generalize Real.logb 2 ((dyadic false m e : ℚ) : ℝ) = v at *
  generalize log2Near m e = r at *
  have hunit (k : Nat) : ((dyadic false k (-80) : ℚ) : ℝ) = k / 2 ^ 80 := by rw [cast_dyadic]; norm_num [div_eq_mul_inv]
  simp only [hunit]
  obtain ⟨-, hv⟩ | ⟨-, hv⟩ := hfar
  · have hr : (2 ^ 55 : Int) ≤ r := by
      have : (2 : ℝ) ^ 55 ≤ r := by linarith
      exact_mod_cast this
    obtain ⟨k, rfl⟩ := Int.eq_ofNat_of_zero_le (show 0 ≤ r by linarith)
    refine ⟨k, by exact_mod_cast hr, ?_, ?_, ?_, ?_⟩
    · rw [if_neg (by omega)]; rfl
    all_goals rw [abs_of_nonneg (show 0 ≤ v from le_trans (by positivity) hv)]
    · rw [div_le_iff₀ (by positivity)]
      rw [Int.cast_natCast] at h1
      linarith
    · rw [le_div_iff₀ (by positivity)]
      rw [Int.cast_natCast] at h2
      push_cast
      linarith
    · simp
  · have hr : r + 2 ≤ -(2 ^ 55 : Int) := by
      have : (r : ℝ) + 2 ≤ -2 ^ 55 := by linarith
      exact_mod_cast this
    obtain ⟨k, hk⟩ := Int.eq_ofNat_of_zero_le (show 0 ≤ -(r + 2) by linarith)
    obtain rfl : r = -(k : Int) - 2 := by omega
    refine ⟨k, by omega, ?_, ?_, ?_, ?_⟩
    · rw [if_pos (by omega)]
      exact Prod.ext_iff.2 ⟨by dsimp only; omega, by dsimp only; omega⟩
    all_goals rw [abs_of_nonpos (show v ≤ 0 by linarith)]
    · rw [div_le_iff₀ (by positivity)]
      push_cast at h2
      linarith
    · rw [le_div_iff₀ (by positivity)]
      push_cast at h1 ⊢
      linarith
    · rw [if_pos (by rw [decide_eq_true_eq]; omega)]
      ring

/-- A number that is a power of two has one digit. -/
theorem pow_of_dyadic {m : Nat} {e k : Int} (hm : m ≠ 0) (h : dyadic false m e = 2 ^ k) : (Nat.log2 m : Int) + e = k ∧ m = 2 ^ Nat.log2 m := by
  have hlog : (Nat.log2 m : Int) + e = k := by
    rw [← log_dyadic e hm, h]
    exact Int.log_zpow (R := ℚ) one_lt_two k
  refine ⟨hlog, ?_⟩
  rw [← hlog, ← dyadic_two_pow] at h
  exact le_antisymm (dyadic_le_iff.1 h.le) (dyadic_le_iff.1 h.ge)

/-- A logarithm of a lane's number is below the overflow limit. -/
theorem abs_logb_lt {m : Nat} {e : Int} (hm : m ≠ 0) (hlt : m < 2 ^ 24) (he : -149 ≤ e) (he' : e ≤ 104) :
    |Real.logb 2 ((dyadic false m e : ℚ) : ℝ)| < 2 ^ 128 := by
  obtain ⟨h1, h2⟩ := exponent_bounds e hm
  have hL : ((Nat.log2 m : Nat) : ℝ) ≤ 24 := by exact_mod_cast ((Nat.log2_lt hm).2 hlt).le
  have hL' : (0 : ℝ) ≤ (Nat.log2 m : Nat) := Nat.cast_nonneg _
  have he1 : (-149 : ℝ) ≤ e := by exact_mod_cast he
  have he2 : (e : ℝ) ≤ 104 := by exact_mod_cast he'
  push_cast at h1 h2
  rw [abs_lt]
  constructor <;> linarith

theorem flog2_nan {b : Lane} {s : Bool} (hb : readLane b = .nan s) : flog2 b = (0x7FC00000, flagIf s flagNV) := by
  simp only [flog2, hb, snan_nan]; rfl

theorem flog2_inf {b : Lane} {n : Bool} (hb : readLane b = .inf n) : flog2 b = if n then (0x7FC00000, flagNV) else (0x7F800000, 0) := by
  have hpos : n = false → b = 0x7F800000 := fun hn => by
    obtain ⟨hs, hm⟩ := readLane_inf hb
    exact lane_ext (by rw [← hs, hn]; rfl) hm
  cases n
  · rw [hpos rfl]; rfl
  · simp only [flog2, hb]; rfl

theorem flog2_zero {b : Lane} {n : Bool} {e : Int} (hb : readLane b = .fin n 0 e) : flog2 b = (0xFF800000, flagDZ) := by
  simp only [flog2, hb]; rfl

theorem flog2_neg {b : Lane} {m : Nat} {e : Int} (hb : readLane b = .fin true m e) (hm : m ≠ 0) : flog2 b = (0x7FC00000, flagNV) := by
  simp only [flog2, hb, if_neg hm]; rfl

/-- A whole number of few digits is written exactly. -/
theorem roundLane_int {k : Int} (hk : k.natAbs < 2 ^ 24) :
    Exact.lane (roundLane .rne (.fin (decide (k < 0)) k.natAbs 0)).1 = .val k (decide (k < 0)) ∧
      (roundLane .rne (.fin (decide (k < 0)) k.natAbs 0)).2 = 0 := by
  by_cases h0 : k = 0
  · subst h0
    have hlane : roundLane .rne (.fin (decide ((0 : Int) < 0)) (0 : Int).natAbs 0) = (0, 0) := rfl
    have hread : readLane 0 = .fin false 0 (-149) := rfl
    rw [hlane, Exact.lane, hread, exactOf_fin, dyadic_eq_zero_iff.2 rfl]
    exact ⟨by simp, rfl⟩
  · have hval : dyadic (decide (k < 0)) k.natAbs 0 = k := by
      rw [dyadic, zpow_zero, mul_one, Nat.cast_natAbs]
      by_cases hneg : k < 0
      · simp [hneg, abs_of_neg hneg]
      · simp [hneg, abs_of_nonneg (not_lt.1 hneg)]
    have hround := roundRat_of_digits .rne (decide (k < 0)) (e := 0) (Int.natAbs_ne_zero.2 h0) hk (by norm_num)
    have hg := gives_roundLane_fin .rne (decide (k < 0)) k.natAbs 0
    rw [hval] at hround hg
    have hlt : |(k : ℚ)| < 2 ^ 128 := by
      have : |(k : ℚ)| < 2 ^ 24 := by rw [← Int.cast_abs, Int.abs_eq_natAbs]; exact_mod_cast hk
      linarith
    obtain ⟨hv, hfl⟩ := value_of_gives_exact (Int.cast_ne_zero.2 h0) hround hlt hg
    exact ⟨by rw [hv]; simp, hfl⟩

section Positive
variable {b : Lane} {m : Nat} {e : Int} (hb : readLane b = .fin false m e) (hm : m ≠ 0)
include hb hm

theorem flog2_pow (hpow : m = 2 ^ Nat.log2 m) :
    flog2 b = roundLane .rne (.fin (decide (e + Nat.log2 m < 0)) (e + Nat.log2 m).natAbs 0) := by
  simp only [flog2, hb, if_neg hm, if_pos hpow]; rfl

/-- Between the powers of two the result is near the logarithm, and inexact. -/
theorem flog2_near (hpow : m ≠ 2 ^ Nat.log2 m) : (flog2 b).2 &&& flagNX = flagNX ∧ ∀ w n, Exact.lane (flog2 b).1 = .val w n →
    |(w : ℝ) - Real.logb 2 ((dyadic false m e : ℚ) : ℝ)| ≤
      if 1 / 2 ≤ dyadic false m e ∧ dyadic false m e ≤ 2 then 2 ^ (-21 : ℤ) else 2 * ulpAt (Real.logb 2 ((dyadic false m e : ℚ) : ℝ)) := by
  obtain ⟨hmlt, he, he'⟩ := readLane_fin_bounds hb
  obtain ⟨lo, hlo, hspan, hx, hx', hsign⟩ := log2_span e hm hmlt hpow
  have hfin : dyadic false lo (-80) < 2 ^ 128 := by
    have := hx.trans_lt (abs_logb_lt hm hmlt he he')
    exact_mod_cast this
  have hlo0 : lo ≠ 0 := by omega
  have hsep := span_le_ulp (n := 1) (lo := lo) (-80) (by omega)
  have hexp := exponent_bounds e hm
  simp only [flog2, hb, if_neg hm, if_neg hpow, Bool.false_eq_true, if_false]
  rw [hspan]
  simp only
  refine ⟨nearFlags_nx _, fun w n hw => ?_⟩
  generalize hv : Real.logb 2 ((dyadic false m e : ℚ) : ℝ) = v at *
  generalize lo + 2 ^ 1 = hi at *
  have hlow := two_zpow_le_dyadic (e := e) hm
  have hhigh := dyadic_lt_two_zpow (e := e) hm
  obtain ⟨h1, h2⟩ := hexp
  by_cases htop : (Nat.log2 m : Int) + e = -1 ∨ (Nat.log2 m : Int) + e = 0
  · rw [if_pos (by simpa using htop)] at hw
    have hrange : 1 / 2 ≤ dyadic false m e ∧ dyadic false m e ≤ 2 := by
      obtain h | h := htop <;> rw [h] at hlow hhigh <;> norm_num at hlow hhigh <;> constructor <;> linarith
    have hv1 : |v| ≤ 1 := by
      obtain h | h := htop
      · have h' : ((Nat.log2 m : Int) : ℝ) + e = -1 := by exact_mod_cast h
        rw [abs_le]; constructor <;> linarith
      · have h' : ((Nat.log2 m : Int) : ℝ) + e = 0 := by exact_mod_cast h
        rw [abs_le]; constructor <;> linarith
    have hlo2 : lo < 2 ^ 81 := by
      have h := hx.trans hv1
      rw [cast_dyadic] at h
      norm_num at h
      have : (lo : ℝ) < 2 ^ 81 := by linarith
      exact_mod_cast this
    have hulp : (2 : ℚ) ^ ulpExp lo (-80) ≤ 2 ^ (-23 : Int) :=
      zpow_le_zpow_right₀ one_le_two (by have := (Nat.log2_lt hlo0).2 hlo2; rw [ulpExp]; omega)
    have hnear := limited_near _ _ hlo0 hfin (by norm_num at hulp ⊢; linarith) hx hx' hw
    rw [if_pos hrange]
    rw [← hsign] at hnear
    simpa using hnear
  · rw [if_neg (by simpa using htop)] at hw
    have hrange : ¬ (1 / 2 ≤ dyadic false m e ∧ dyadic false m e ≤ 2) := by
      rintro ⟨hr1, hr2⟩
      have ha : (-1 : Int) < (Nat.log2 m : Int) + e + 1 :=
        (zpow_lt_zpow_iff_right₀ (one_lt_two (α := ℚ))).1 (lt_of_le_of_lt (by norm_num at hr1 ⊢; exact hr1) hhigh)
      have hb : (Nat.log2 m : Int) + e ≤ 1 := (zpow_le_zpow_iff_right₀ (one_lt_two (α := ℚ))).1 (hlow.trans (by norm_num; exact hr2))
      have htop1 : (Nat.log2 m : Int) + e = 1 := by omega
      rw [htop1] at hlow
      exact hpow (pow_of_dyadic hm (le_antisymm (by norm_num; exact hr2) hlow)).2
    have hnear := limited_near _ _ hlo0 hfin (by push_cast; linarith) hx hx' hw
    rw [if_neg hrange]
    rw [← hsign] at hnear
    exact hnear.trans (mul_le_mul_of_nonneg_left (ulp_le_ulpAt hlo0 hx) (by norm_num))

end Positive

end Sys2Proof.Machine
end

section
/-! # The hyperbolic tangent (R130) -/
namespace Sys2Proof.Machine

open Sys2Proof.Safety

theorem hasDerivAt_tanh (x : ℝ) : HasDerivAt Real.tanh (1 - Real.tanh x ^ 2) x := by
  have hcosh := (Real.cosh_pos x).ne'
  have h := (Real.hasDerivAt_sinh x).div (Real.hasDerivAt_cosh x) hcosh
  have hfun : Real.tanh = Real.sinh / Real.cosh := by funext y; exact Real.tanh_eq_sinh_div_cosh y
  rw [hfun]
  refine h.congr_deriv ?_
  rw [Pi.div_apply]
  field_simp

/-- A function that vanishes at 0 and does not fall is not negative. -/
theorem nonneg_of_deriv {f f' : ℝ → ℝ} (hf : ∀ x, HasDerivAt f (f' x) x) (h0 : f 0 = 0) {b : ℝ} (hpos : ∀ x, 0 ≤ x → x ≤ b → 0 ≤ f' x) {x : ℝ}
    (hx : 0 ≤ x) (hxb : x ≤ b) : 0 ≤ f x := by
  have hmono : MonotoneOn f (Set.Icc 0 b) := monotoneOn_of_deriv_nonneg (convex_Icc 0 b) (fun y _ => (hf y).continuousAt.continuousWithinAt)
    (fun y _ => (hf y).differentiableAt.differentiableWithinAt) fun y hy => by
      rw [interior_Icc] at hy
      rw [(hf y).deriv]
      exact hpos y hy.1.le hy.2.le
  rw [← h0]
  exact hmono ⟨le_rfl, hx.trans hxb⟩ ⟨hx, hxb⟩ hx

theorem tanh_nonneg {x : ℝ} (hx : 0 ≤ x) : 0 ≤ Real.tanh x :=
  nonneg_of_deriv hasDerivAt_tanh Real.tanh_zero (b := x) (fun y _ _ => by linarith [Real.tanh_sq_lt_one y]) hx le_rfl

theorem tanh_le_self {x : ℝ} (hx : 0 ≤ x) : Real.tanh x ≤ x := by
  have h := nonneg_of_deriv (f := fun y => y - Real.tanh y) (f' := fun y => 1 - (1 - Real.tanh y ^ 2)) (b := x)
    (fun y => (hasDerivAt_id y).sub (hasDerivAt_tanh y)) (by simp) (fun y _ _ => by linarith [sq_nonneg (Real.tanh y)]) hx le_rfl
  linarith

theorem hasDerivAt_cube (x : ℝ) : HasDerivAt (fun y => y ^ 3 / 3) (x ^ 2) x :=
  ((hasDerivAt_pow 3 x).div_const 3).congr_deriv (by push_cast; ring)

theorem hasDerivAt_fifth (x : ℝ) : HasDerivAt (fun y => 2 * y ^ 5 / 15) (2 * x ^ 4 / 3) x :=
  (((hasDerivAt_pow 5 x).const_mul 2).div_const 15).congr_deriv (by push_cast; ring)

/-- The series of the hyperbolic tangent to its second term is below it. -/
theorem tanh_ge_series {x : ℝ} (hx : 0 ≤ x) : x - x ^ 3 / 3 ≤ Real.tanh x := by
  have h := nonneg_of_deriv (f := fun y => Real.tanh y - (y - y ^ 3 / 3)) (f' := fun y => 1 - Real.tanh y ^ 2 - (1 - y ^ 2)) (b := x)
    (fun y => (hasDerivAt_tanh y).sub ((hasDerivAt_id y).sub (hasDerivAt_cube y)))
    (by simp) (fun y hy _ => by linarith [pow_le_pow_left₀ (tanh_nonneg hy) (tanh_le_self hy) 2]) hx le_rfl
  linarith

/-- The series to its third term is above it. -/
theorem tanh_le_series {x : ℝ} (hx : 0 ≤ x) (hx1 : x ≤ 1) : Real.tanh x ≤ x - x ^ 3 / 3 + 2 * x ^ 5 / 15 := by
  have h := nonneg_of_deriv (f := fun y => y - y ^ 3 / 3 + 2 * y ^ 5 / 15 - Real.tanh y)
    (f' := fun y => 1 - y ^ 2 + 2 * y ^ 4 / 3 - (1 - Real.tanh y ^ 2)) (b := 1)
    (fun y => (((hasDerivAt_id y).sub (hasDerivAt_cube y)).add
      (hasDerivAt_fifth y)).sub (hasDerivAt_tanh y))
    (by simp) (fun y hy hy1 => ?_) hx hx1
  · linarith
  · have hcube : y ^ 3 ≤ y := by nlinarith [mul_nonneg hy hy]
    have hsq := pow_le_pow_left₀ (show 0 ≤ y - y ^ 3 / 3 by linarith) (tanh_ge_series hy) 2
    have hsix : 0 ≤ y ^ 6 := by positivity
    have hexpand : (y - y ^ 3 / 3) ^ 2 = y ^ 2 - 2 * y ^ 4 / 3 + y ^ 6 / 9 := by ring
    linarith

end Sys2Proof.Machine
end

section
/-! # The bounds of VFTANH on its exact value (R130) -/
namespace Sys2Proof.Machine

open Sys2Proof.Safety

/-- The hyperbolic tangent by the exponential of twice its argument. -/
theorem tanh_eq_exp (x : ℝ) : Real.tanh x = (Real.exp (2 * x) - 1) / (Real.exp (2 * x) + 1) := by
  have hpos := Real.exp_pos x
  have hsq : Real.exp (2 * x) = Real.exp x * Real.exp x := by rw [← Real.exp_add]; congr 1; ring
  rw [Real.tanh_eq, Real.exp_neg, hsq]
  field_simp

/-- A quotient (X - A) / (X + A) for X a little below A * E. -/
theorem tanh_quotient {A E X : ℝ} (hA : 0 < A) (hE : 1 ≤ E) (hX : A ≤ X) (hlow : X ≤ A * E) (hhigh : A * E ≤ X + 243 * E) :
    (X - A) / (X + A) ≤ (E - 1) / (E + 1) ∧ (E - 1) / (E + 1) ≤ (X - A) / (X + A) + 243 / A := by
  have hXA : 0 < X + A := by linarith
  have hE1 : 0 < E + 1 := by linarith
  constructor
  · rw [div_le_div_iff₀ hXA hE1]
    nlinarith
  · rw [div_add_div _ _ hXA.ne' hA.ne', div_le_div_iff₀ hE1 (by positivity)]
    have h1 : 0 ≤ A * (X + 243 * E - A * E) := mul_nonneg hA.le (by linarith)
    have h2 : 0 ≤ (X - A) * (E + 1) := mul_nonneg (by linarith) hE1.le
    have h3 : 0 ≤ A * (E + 1) := mul_nonneg hA.le hE1.le
    linarith [h1, h2, h3]

/-- The series of the model bounds the hyperbolic tangent. -/
theorem tanh_series_bounds {y : Nat} {x : ℝ} (hx10 : x ≤ 10) (hy : (y : ℝ) ≤ 2 * x * 2 ^ 120) (hy' : 2 * x * 2 ^ 120 ≤ y + 1) :
    (((expSeries 120 y 120 0 (2 ^ 120) - 2 ^ 120) * 2 ^ 100 / (expSeries 120 y 120 0 (2 ^ 120) + 2 ^ 120) : Nat) : ℝ) ≤ 2 ^ 100 * Real.tanh x ∧
      2 ^ 100 * Real.tanh x ≤
        (((expSeries 120 y 120 0 (2 ^ 120) - 2 ^ 120) * 2 ^ 100 / (expSeries 120 y 120 0 (2 ^ 120) + 2 ^ 120) : Nat) : ℝ) + 2 ^ 10 := by
  have hp : (0 : ℝ) < 2 ^ 120 := by positivity
  have hY : (y : ℝ) / 2 ^ 120 ≤ 2 * x := by rwa [div_le_iff₀ hp]
  have hY' : 2 * x ≤ (y : ℝ) / 2 ^ 120 + 1 / 2 ^ 120 := by rwa [← add_div, le_div_iff₀ hp]
  have hY20 : (y : ℝ) / 2 ^ 120 ≤ 20 := by linarith
  have hpow : ((y : ℝ) / 2 ^ 120) ^ 120 ≤ 20 ^ 120 := pow_le_pow_left₀ (by positivity) hY20 _
  have hfact : (2 : ℝ) ^ 121 * 20 ^ 120 ≤ (Nat.factorial 120 : Nat) := by
    have : 2 ^ 121 * 20 ^ 120 ≤ Nat.factorial 120 := by norm_num [Nat.factorial]
    exact_mod_cast this
  obtain ⟨hlow, hhigh⟩ := expSeries_bounds (p := 120) (y := y) (n := 120) (by norm_num; linarith) (by
    rw [div_mul_eq_mul_div, ← mul_div_assoc, div_le_one (by positivity)]
    calc (2 : ℝ) ^ 120 * (((y : ℝ) / 2 ^ 120) ^ 120 * 2) ≤ 2 ^ 120 * (20 ^ 120 * 2) := by gcongr
      _ = 2 ^ 121 * 20 ^ 120 := by ring
      _ ≤ _ := hfact)
  have hmono := Real.exp_le_exp.2 hY
  have hone : 1 ≤ Real.exp ((y : ℝ) / 2 ^ 120) := Real.one_le_exp (by positivity)
  have hstep : Real.exp (2 * x) ≤ Real.exp ((y : ℝ) / 2 ^ 120) * (1 + 2 * (1 / 2 ^ 120)) := by
    refine (Real.exp_le_exp.2 hY').trans ?_
    rw [Real.exp_add]
    exact mul_le_mul_of_nonneg_left (exp_le_one_add_two_mul (by positivity) (by norm_num)) (Real.exp_pos _).le
  rw [Nat.cast_ofNat] at hhigh
  rw [tanh_eq_exp]
  have hfirst : 2 ^ 120 ≤ expSeries 120 y 120 0 (2 ^ 120) := le_expSeries_first ..
  generalize expSeries 120 y 120 0 (2 ^ 120) = X at *
  generalize Real.exp ((y : ℝ) / 2 ^ 120) = F at *
  generalize Real.exp (2 * x) = E at *
  have hstep' : 2 ^ 120 * E ≤ 2 ^ 120 * F + 2 * F := by
    refine (mul_le_mul_of_nonneg_left hstep hp.le).trans_eq ?_
    ring
  have hXcast : (2 : ℝ) ^ 120 ≤ X := by exact_mod_cast hfirst
  obtain ⟨h1, h2⟩ := tanh_quotient (A := 2 ^ 120) (E := E) (X := X) hp (hone.trans hmono) hXcast
    (hlow.trans (mul_le_mul_of_nonneg_left hmono hp.le)) (by linarith)
  obtain ⟨h3, h4⟩ := nat_div_bounds ((X - 2 ^ 120) * 2 ^ 100) (X + 2 ^ 120)
  have hquot : (((X - 2 ^ 120) * 2 ^ 100 : Nat) : ℝ) / ((X + 2 ^ 120 : Nat) : ℝ) = 2 ^ 100 * ((X - 2 ^ 120 : ℝ) / (X + 2 ^ 120)) := by
    rw [Nat.cast_mul, Nat.cast_sub hfirst, Nat.cast_add, Nat.cast_pow, Nat.cast_pow, Nat.cast_ofNat, mul_comm, mul_div_assoc]
  rw [hquot] at h3 h4
  have hp' : (0 : ℝ) < 2 ^ 100 := by positivity
  have h5 := mul_le_mul_of_nonneg_left h1 hp'.le
  have h6 := mul_le_mul_of_nonneg_left h2 hp'.le
  have h7 : (2 : ℝ) ^ 100 * (243 / 2 ^ 120) ≤ 1 := by norm_num
  rw [mul_add] at h6
  constructor <;> linarith

/-- What the model says of the hyperbolic tangent of a positive number: two ends less than a unit in the last place apart. -/
def TanhSpan (m : Nat) (e : Int) (lo hi : Nat) (q : Int) : Prop :=
  lo ≠ 0 ∧ dyadic false hi q - dyadic false lo q ≤ 2 ^ ulpExp lo q ∧ ((dyadic false lo q : ℚ) : ℝ) ≤ Real.tanh ((dyadic false m e : ℚ) : ℝ) ∧
    Real.tanh ((dyadic false m e : ℚ) : ℝ) ≤ ((dyadic false hi q : ℚ) : ℝ)

/-- From 2^-12 on, by the series of the exponential. -/
theorem tanhSpan_large {m : Nat} {e : Int} (hlow : 1 / 2 ^ 12 ≤ dyadic false m e) (hhigh : dyadic false m e ≤ 10) {lo : Nat}
    (hlo : (expSeries 120 (quantise (2 * m) e (-120)).1 120 0 (2 ^ 120) - 2 ^ 120) * 2 ^ 100 /
      (expSeries 120 (quantise (2 * m) e (-120)).1 120 0 (2 ^ 120) + 2 ^ 120) = lo) :
    TanhSpan m e lo (lo + 2 ^ 10) (-100) := by
  obtain ⟨hd, hd', -⟩ := quantise_bounds (2 * m) e (-120)
  have hdouble : dyadic false (2 * m) (e - -120) = 2 * dyadic false m e * 2 ^ 120 := by
    rw [dyadic_false, dyadic_false, sub_neg_eq_add, zpow_add₀ two_ne_zero, show ((120 : Int)) = ((120 : Nat) : Int) from rfl, zpow_natCast]
    push_cast; ring
  rw [hdouble] at hd hd'
  have hlowR : (1 : ℝ) / 2 ^ 12 ≤ ((dyadic false m e : ℚ) : ℝ) := by
    have := (Rat.cast_le (K := ℝ)).2 hlow
    push_cast at this
    exact this
  have hhighR : ((dyadic false m e : ℚ) : ℝ) ≤ 10 := by exact_mod_cast hhigh
  obtain ⟨h1, h2⟩ := tanh_series_bounds (y := (quantise (2 * m) e (-120)).1) (x := ((dyadic false m e : ℚ) : ℝ)) hhighR
    (by exact_mod_cast hd) (by exact_mod_cast hd'.le)
  rw [hlo] at h1 h2
  have hunit (k : Nat) : ((dyadic false k (-100) : ℚ) : ℝ) = k / 2 ^ 100 := by rw [cast_dyadic]; norm_num [div_eq_mul_inv]
  unfold TanhSpan
  generalize ((dyadic false m e : ℚ) : ℝ) = x at *
  have htanh : 1 / 2 ^ 16 ≤ Real.tanh x := by
    have hexp := Real.add_one_le_exp (2 * x)
    rw [tanh_eq_exp, div_le_div_iff₀ (by positivity) (by positivity)]
    linarith
  have hbig : 2 ^ 33 ≤ lo := by
    have : (2 : ℝ) ^ 33 ≤ lo := by linarith
    exact_mod_cast this
  refine ⟨by omega, span_le_ulp (n := 10) (-100) hbig, ?_, ?_⟩
  · rw [hunit, div_le_iff₀ (by positivity)]; linarith
  · rw [hunit, le_div_iff₀ (by positivity), Nat.cast_add, Nat.cast_pow, Nat.cast_ofNat]; linarith

theorem exponent_neg_of_lt_one {m : Nat} {e : Int} (hm : m ≠ 0) (hx : dyadic false m e < 1) : e < 0 := by
  by_contra hneg
  have hone : (1 : ℚ) ≤ 2 ^ e := one_le_zpow₀ one_le_two (not_lt.1 hneg)
  have hm1 : (1 : ℚ) ≤ m := by exact_mod_cast Nat.one_le_iff_ne_zero.2 hm
  exact (one_le_mul_of_one_le_of_one_le hm1 hone).not_gt (dyadic_false m e ▸ hx)

/-- A third of the square of a number below 1, in units of 2^-60. -/
theorem square_div_three (m : Nat) {e : Int} {j : Nat} (hj : -2 * e = j) :
    ((m * m * 2 ^ 60 : Nat) : ℝ) / ((3 * 2 ^ j : Nat) : ℝ) = ((dyadic false m e : ℚ) : ℝ) ^ 2 / 3 * 2 ^ 60 := by
  have hzpow : ((2 : ℝ) ^ e) ^ 2 * 2 ^ j = 1 := by
    rw [← zpow_natCast, ← zpow_natCast, ← zpow_mul, ← zpow_add₀ two_ne_zero, show e * (2 : Nat) + (j : Int) = 0 by push_cast; omega, zpow_zero]
  rw [cast_dyadic, Nat.cast_mul, Nat.cast_mul, Nat.cast_mul, Nat.cast_pow, Nat.cast_pow, Nat.cast_ofNat, div_eq_iff (by positivity)]
  linear_combination -(m : ℝ) ^ 2 * 2 ^ 60 * hzpow

/-- A multiple with a large factor and that with the factor a little larger are within a unit in the last place. -/
theorem span_le_ulp_mul {m k : Nat} (hm : m ≠ 0) (hk : 2 ^ 59 ≤ k) (q : Int) :
    dyadic false (m * (k + 1 + 2 ^ 10)) q - dyadic false (m * k) q ≤ 2 ^ ulpExp (m * k) q := by
  have hspan : dyadic false (m * (k + 1 + 2 ^ 10)) q - dyadic false (m * k) q = dyadic false (m * 1025) q := by
    rw [dyadic_false, dyadic_false, dyadic_false]; push_cast; ring
  have hlog : Nat.log2 m + 59 ≤ Nat.log2 (m * k) := by
    rw [Nat.le_log2 (Nat.mul_ne_zero hm (by omega)), pow_add]
    exact Nat.mul_le_mul (Nat.log2_self_le hm) hk
  have hle : m * 1025 ≤ 2 ^ (Nat.log2 m + 12) := by
    have := Nat.lt_log2_self (n := m)
    rw [show Nat.log2 m + 12 = Nat.log2 m + 1 + 11 by ring, pow_add]
    omega
  rw [hspan]
  refine (dyadic_le_iff.2 hle).trans ?_
  rw [dyadic_two_pow]
  exact zpow_le_zpow_right₀ one_le_two (by rw [ulpExp]; push_cast; omega)

/-- Below 2^-12, by the series of the hyperbolic tangent. -/
theorem tanhSpan_small {m : Nat} {e : Int} (hm : m ≠ 0) (hx : dyadic false m e < 1 / 2 ^ 12) {r : Nat}
    (hr : 2 ^ 60 - m * m * 2 ^ 60 / (3 * 2 ^ (-2 * e).toNat) = r) : TanhSpan m e (m * (r - 1)) (m * (r + 2 ^ 10)) (e - 60) := by
  have hmpos : (0 : ℚ) < m := by exact_mod_cast Nat.pos_of_ne_zero hm
  have hxpos := dyadic_false_pos e hm
  have he := exponent_neg_of_lt_one hm (hx.trans (by norm_num))
  obtain ⟨j, hj⟩ := Int.eq_ofNat_of_zero_le (show 0 ≤ -2 * e by omega)
  rw [hj, Int.toNat_natCast] at hr
  generalize hf : m * m * 2 ^ 60 / (3 * 2 ^ j) = f at hr
  obtain ⟨hf1, hf2⟩ := nat_div_bounds (m * m * 2 ^ 60) (3 * 2 ^ j)
  rw [hf] at hf1 hf2
  have hxR : ((dyadic false m e : ℚ) : ℝ) < 1 / 2 ^ 12 := by
    have := (Rat.cast_lt (K := ℝ)).2 hx
    push_cast at this
    exact this
  have hxR0 : 0 < ((dyadic false m e : ℚ) : ℝ) := by exact_mod_cast hxpos
  have hunit (k : Nat) : ((dyadic false (m * k) (e - 60) : ℚ) : ℝ) = ((dyadic false m e : ℚ) : ℝ) * (k / 2 ^ 60) := by
    rw [cast_dyadic, cast_dyadic, zpow_sub₀ two_ne_zero, show ((60 : Int)) = ((60 : Nat) : Int) from rfl, zpow_natCast]
    push_cast; ring
  rw [square_div_three m (e := e) (j := j) (by omega)] at hf1 hf2
  unfold TanhSpan
  have hlower := tanh_ge_series hxR0.le
  have hupper := tanh_le_series hxR0.le (by norm_num at hxR; linarith)
  rw [hunit, hunit]
  generalize ((dyadic false m e : ℚ) : ℝ) = x at *
  have hx2 : x ^ 2 ≤ 1 / 2 ^ 24 := (pow_le_pow_left₀ hxR0.le hxR.le 2).trans_eq (by norm_num)
  have hx4 : x ^ 4 ≤ 1 / 2 ^ 48 := (pow_le_pow_left₀ hxR0.le hxR.le 4).trans_eq (by norm_num)
  have hfsmall : f < 2 ^ 36 := by
    have : (f : ℝ) < 2 ^ 36 := by linarith
    exact_mod_cast this
  obtain ⟨k, rfl⟩ : ∃ k, r = k + 1 := ⟨2 ^ 60 - f - 1, by omega⟩
  have hk : 2 ^ 59 ≤ k := by omega
  have hkf : (k : ℝ) + 1 + f = 2 ^ 60 := by
    have : k + 1 + f = 2 ^ 60 := by omega
    exact_mod_cast this
  rw [Nat.add_sub_cancel]
  refine ⟨Nat.mul_ne_zero hm (by omega), span_le_ulp_mul hm hk _, ?_, ?_⟩
  · refine le_trans ?_ hlower
    have hfrac : (k : ℝ) / 2 ^ 60 ≤ 1 - x ^ 2 / 3 := by rw [div_le_iff₀ (by positivity)]; linarith
    calc x * (k / 2 ^ 60) ≤ x * (1 - x ^ 2 / 3) := mul_le_mul_of_nonneg_left hfrac hxR0.le
      _ = x - x ^ 3 / 3 := by ring
  · refine hupper.trans ?_
    have hfrac : 1 - x ^ 2 / 3 + 2 * x ^ 4 / 15 ≤ ((k + 1 + 2 ^ 10 : Nat) : ℝ) / 2 ^ 60 := by
      rw [le_div_iff₀ (by positivity)]
      push_cast
      linarith
    calc x - x ^ 3 / 3 + 2 * x ^ 5 / 15 = x * (1 - x ^ 2 / 3 + 2 * x ^ 4 / 15) := by ring
      _ ≤ _ := mul_le_mul_of_nonneg_left hfrac hxR0.le

theorem tanhNear_span {m : Nat} {e : Int} (hm : m ≠ 0) (hx : dyadic false m e ≤ 10) :
    ∃ lo hi q, tanhNear m e = (lo, hi, q) ∧ TanhSpan m e lo hi q := by
  obtain ⟨hd, hd', -⟩ := quantise_bounds m e (-12)
  have hscale : dyadic false m (e - -12) = dyadic false m e * 2 ^ 12 := by
    rw [dyadic_false, dyadic_false, sub_neg_eq_add, zpow_add₀ two_ne_zero, show ((12 : Int)) = ((12 : Nat) : Int) from rfl, zpow_natCast]
    ring
  rw [hscale] at hd hd'
  unfold tanhNear
  by_cases h0 : (quantise m e (-12)).1 = 0
  · rw [if_pos h0]
    rw [h0] at hd'
    exact ⟨_, _, _, rfl, tanhSpan_small hm (by rw [lt_div_iff₀ (by positivity)]; push_cast at hd'; linarith) rfl⟩
  · rw [if_neg h0]
    have hone : (1 : ℚ) ≤ (quantise m e (-12)).1 := by exact_mod_cast Nat.one_le_iff_ne_zero.2 h0
    exact ⟨_, _, _, rfl, tanhSpan_large (by rw [div_le_iff₀ (by positivity)]; linarith) hx rfl⟩

end Sys2Proof.Machine
end

section
/-! # VFTANH: the lanes (R130) -/
namespace Sys2Proof.Machine

open Sys2Proof.Safety

/-! ## Signs -/

/-- The other sign on a lane is the other sign on its number. -/
theorem readLane_flip (x : Lane) : readLane (x ^^^ 0x80000000) = (readLane x).neg := by
  obtain ⟨hs, hm⟩ := flipSign_bits x
  have hcode (y : Lane) : y.toNat = (if y.getLsbD 31 then 2 ^ 31 else 0) + magBits y / 2 ^ 23 * 2 ^ 23 + magBits y % 2 ^ 23 := by
    rw [Nat.add_assoc, Nat.div_add_mod', ← toNat_eq_sign_mag]
  have hmag : magBits x < 2 ^ 31 := Nat.mod_lt _ (by decide)
  rw [readLane, readLane, hcode, hcode x, hs, hm, read_fields_fp32 _ (by omega) (by omega), read_fields_fp32 _ (by omega) (by omega)]
  split_ifs <;> rfl

theorem exactLane_flip (x : Lane) : Exact.lane (x ^^^ 0x80000000) = (Exact.lane x).neg := by
  rw [Exact.lane, Exact.lane, readLane_flip]
  cases readLane x with
  | nan s => rfl
  | inf n => rfl
  | fin n m e =>
    have hneg : dyadic (!n) m e = -dyadic n m e := by cases n <;> simp [dyadic]
    rw [FNum.neg, exactOf_fin, exactOf_fin, Exact.neg, hneg]

theorem flip_flip (x : Lane) : x ^^^ 0x80000000 ^^^ 0x80000000 = x := by rw [BitVec.xor_assoc, BitVec.xor_self, BitVec.xor_zero]

theorem ulpAt_neg (x : ℝ) : ulpAt (-x) = ulpAt x := by rw [ulpAt, ulpAt, abs_neg]

/-- A lane of the other sign is near the negation of a number. -/
theorem nearReal_flip {v : Lane} {k : Nat} {x : ℝ} (h : NearReal v k x) : NearReal (v ^^^ 0x80000000) k (-x) := by
  intro w n hw
  have hv : Exact.lane v = .val (-w) (!n) := by
    rw [← flip_flip v, exactLane_flip, hw]
    rfl
  have hnear := h _ _ hv
  rw [ulpAt_neg, ← abs_neg]
  push_cast at hnear
  rwa [show -((w : ℝ) - -x) = -w - x by ring]

/-! ## The cases of R130 -/

theorem ftanh_nan {b : Lane} {s : Bool} (hb : readLane b = .nan s) : ftanh b = (0x7FC00000, flagIf s flagNV) := by
  simp only [ftanh, hb, snan_nan]; rfl

theorem ftanh_inf {b : Lane} {n : Bool} (hb : readLane b = .inf n) : ftanh b = (if n then 0xBF800000 else 0x3F800000, 0) := by
  simp only [ftanh, hb]
  cases n <;> rfl

theorem lane_of_zero {b : Lane} {n : Bool} {e : Int} (hb : readLane b = .fin n 0 e) : b = if n then 0x80000000 else 0 := by
  obtain ⟨hs, hm, -⟩ := readLane_fin hb
  have hzero : magBits b = 0 := magVal_strictMono.injective (by rw [← hm, magVal_zero]; exact dyadic_eq_zero_iff.2 rfl)
  refine lane_ext (by rw [← hs]; cases n <;> rfl) ?_
  rw [hzero]
  cases n <;> rfl

theorem ftanh_zero {b : Lane} {n : Bool} {e : Int} (hb : readLane b = .fin n 0 e) : ftanh b = (if n then 0x80000000 else 0, 0) := by
  simp only [ftanh, hb, if_true]
  rw [← lane_of_zero hb]

section Finite
variable {b : Lane} {n : Bool} {m : Nat} {e : Int} (hb : readLane b = .fin n m e) (hm : m ≠ 0)
include hb hm

theorem ftanh_large (h : 10 ≤ dyadic false m e) : ftanh b = (if n then 0xBF800000 else 0x3F800000, flagNX) := by
  obtain ⟨-, hlt, -⟩ := quantise_bounds m e 0
  rw [sub_zero] at hlt
  have hd : 10 ≤ (quantise m e 0).1 := by
    have : (10 : ℚ) < (quantise m e 0).1 + 1 := h.trans_lt hlt
    exact Nat.lt_succ_iff.1 (by exact_mod_cast this)
  simp only [ftanh, hb, if_neg hm, if_pos hd]
  cases n <;> rfl

/-- The lane of a positive argument below 10. -/
theorem ftanh_small (h : dyadic false m e < 10) :
    ftanh b = (if n then limited (Config.tanh (BitVec.ofNat 32 (b.toNat % 2 ^ 31))) false (tanhNear m e).1 (tanhNear m e).2.1 (tanhNear m e).2.2 2
          (ulpExp (tanhNear m e).1 (tanhNear m e).2.2) ^^^ 0x80000000
        else limited (Config.tanh (BitVec.ofNat 32 (b.toNat % 2 ^ 31))) false (tanhNear m e).1 (tanhNear m e).2.1 (tanhNear m e).2.2 2
          (ulpExp (tanhNear m e).1 (tanhNear m e).2.2),
      nearFlags (limited (Config.tanh (BitVec.ofNat 32 (b.toNat % 2 ^ 31))) false (tanhNear m e).1 (tanhNear m e).2.1 (tanhNear m e).2.2 2
          (ulpExp (tanhNear m e).1 (tanhNear m e).2.2))) := by
  obtain ⟨hle, -, -⟩ := quantise_bounds m e 0
  rw [sub_zero] at hle
  have hd : ¬ 10 ≤ (quantise m e 0).1 := by
    intro hd
    have : (10 : ℚ) ≤ (quantise m e 0).1 := by exact_mod_cast hd
    linarith
  simp only [ftanh, hb, if_neg hm, if_neg hd]

theorem ftanh_near (h : dyadic false m e < 10) : (ftanh b).2 &&& flagNX = flagNX ∧ NearReal (ftanh b).1 2 (Real.tanh ((dyadic n m e : ℚ) : ℝ)) := by
  obtain ⟨lo, hi, q, hnear, hlo, hsep, hx, hx'⟩ := tanhNear_span hm h.le
  rw [ftanh_small hb hm h, hnear]
  refine ⟨nearFlags_nx _, ?_⟩
  have hfin : dyadic false lo q < 2 ^ 128 := by
    have : ((dyadic false lo q : ℚ) : ℝ) < 2 ^ 128 := hx.trans_lt ((Real.tanh_lt_one _).trans (by norm_num))
    exact_mod_cast this
  have hlim := nearReal_limited (Config.tanh (BitVec.ofNat 32 (b.toNat % 2 ^ 31))) hlo hfin hsep hx hx'
  cases n
  · exact hlim
  · rw [dyadic_true, Rat.cast_neg, Real.tanh_neg]
    exact nearReal_flip hlim

end Finite

/-- The hyperbolic tangent of the machine is odd. -/
theorem ftanh_odd (b : Lane) (hb : (readLane b).isNan = false) : (ftanh (b ^^^ 0x80000000)).1 = (ftanh b).1 ^^^ 0x80000000 := by
  have hflip := readLane_flip b
  cases hr : readLane b with
  | nan s => rw [hr] at hb; cases hb
  | inf n =>
    rw [hr] at hflip
    rw [ftanh_inf hr, ftanh_inf hflip]
    cases n <;> rfl
  | fin n m e =>
    rw [hr] at hflip
    by_cases hm : m = 0
    · subst hm
      rw [ftanh_zero hr, ftanh_zero hflip]
      cases n <;> rfl
    obtain h | h := le_or_gt 10 (dyadic false m e)
    · rw [ftanh_large hr hm h, ftanh_large hflip hm h]
      cases n <;> rfl
    · have hmag : (b ^^^ 0x80000000).toNat % 2 ^ 31 = b.toNat % 2 ^ 31 := (flipSign_bits b).2
      rw [ftanh_small hr hm h, ftanh_small hflip hm h, hmag]
      cases n
      · rfl
      · exact (flip_flip _).symm

end Sys2Proof.Machine
end

section
/-! # VFRCP (R130) -/
namespace Sys2Proof.Machine

open Sys2Proof.Safety

/-- The mode that `nearLane` rounds in. -/
def nearMode (away n : Bool) (m : Nat) (e : Int) : Rnd :=
  if 128 ≤ (Nat.log2 m : Int) + e then .rne else if away then (if n then .rdn else .rup) else .rtz

theorem nearLane_fin (away n : Bool) (m : Nat) (e : Int) : nearLane away (.fin n m e) = roundLane (nearMode away n m e) (.fin n m e) := rfl

theorem flagNX_or (fl : FFlags) : (flagNX ||| fl) &&& flagNX = flagNX := by
  revert fl
  decide

/-- A number that the format does not hold is given with NX; where it is not carried to an infinity, less than a unit in the last place away. -/
theorem gives_inexact {mode : Rnd} {x : ℚ} {n : Bool} {v : Lane} {fl : FFlags} (hx : x ≠ 0) (hg : (Exact.val x n).Gives fp32 mode v.toNat fl)
    (hinexact : ¬ ∃ y n', Exact.lane y = .val x n')
    (hover : 2 ^ 128 ≤ |roundRat fp32 mode x| → mode = .rne ∨ (mode = .rup ∧ 0 < x) ∨ (mode = .rdn ∧ x < 0)) :
    fl &&& flagNX = flagNX ∧ ∀ w n', Exact.lane v = .val w n' → |w - x| ≤ 2 ^ (max (Int.log 2 |x|) (-126) - 23) := by
  have hg' := hg
  simp only [Exact.Gives, if_neg hx] at hg
  by_cases hfin : |roundRat fp32 mode x| < 2 ^ 128
  · rw [if_pos (by exact_mod_cast hfin)] at hg
    obtain ⟨⟨m, e, hread, hval⟩, hfl⟩ := hg
    have hne : roundRat fp32 mode x ≠ x := by
      intro h
      exact hinexact ⟨v, _, (value_of_gives_exact hx h (h ▸ hfin) hg').1⟩
    refine ⟨by rw [hfl, decide_eq_true hne, flagIf_true, flagNX_or], fun w n' hw => ?_⟩
    rw [value_of_gives hx hfin hg' hw]
    exact (abs_roundRat_sub_lt fp32 mode x).le
  · rw [if_neg (by exact_mod_cast hfin), if_pos (hover (not_lt.1 hfin))] at hg
    obtain ⟨hcode, hfl⟩ := hg
    refine ⟨by rw [hfl]; rfl, fun w n' hw => ?_⟩
    rw [Exact.lane, readLane, hcode, read_infCode] at hw
    cases hw

/-- In the mode of `nearLane`, only a number carried to an infinity overflows. -/
theorem nearMode_over {away n : Bool} {M : Nat} {E p : Int} {x : ℚ} (hM : M ≠ 0) (hx : 0 < x) (halike : Alike x (dyadic false M E) p)
    (hp : p ≤ (Nat.log2 M : Int) + E - 24) (hover : 2 ^ 128 ≤ |roundRat fp32 (nearMode away n M E) ((if n then -1 else 1) * x)|) :
    nearMode away n M E = .rne ∨ (nearMode away n M E = .rup ∧ 0 < (if n then -1 else 1) * x) ∨
      (nearMode away n M E = .rdn ∧ (if n then -1 else 1) * x < 0) := by
  unfold nearMode at *
  by_cases hbig : 128 ≤ (Nat.log2 M : Int) + E
  · exact .inl (if_pos hbig)
  · rw [if_neg hbig] at hover ⊢
    cases away
    · exfalso
      simp only [Bool.false_eq_true, if_false] at hover
      have hle := hover.trans (abs_roundRat_rtz_le fp32 _)
      have habs : |(if n then -1 else 1) * x| = x := by cases n <;> simp [abs_of_pos hx]
      rw [habs] at hle
      have hlog : Int.log 2 x = (Nat.log2 M : Int) + E := by
        rw [← log_dyadic E hM]
        exact halike.log_eq hx (dyadic_false_pos E hM) (by rw [log_dyadic E hM]; omega)
      have : (128 : Int) ≤ Int.log 2 x := (Int.zpow_le_iff_le_log (b := 2) one_lt_two hx).1 (by exact_mod_cast hle)
      omega
    · cases n <;> simp [hx]

theorem frcp_nan {b : Lane} {s : Bool} (hb : readLane b = .nan s) : frcp b = (0x7FC00000, flagIf s flagNV) := by
  simp only [frcp, hb, snan_nan]; rfl

theorem frcp_inf {b : Lane} {n : Bool} (hb : readLane b = .inf n) : frcp b = (if n then 0x80000000 else 0, 0) := by
  simp only [frcp, hb]
  cases n <;> rfl

theorem frcp_zero {b : Lane} {n : Bool} {e : Int} (hb : readLane b = .fin n 0 e) : frcp b = (if n then 0xFF800000 else 0x7F800000, flagDZ) := by
  simp only [frcp, hb, if_true]
  cases n <;> rfl

/-- The reciprocal of a lane's number that is not zero. -/
theorem frcp_fin {b : Lane} {n : Bool} {m : Nat} {e : Int} (hb : readLane b = .fin n m e) (hm : m ≠ 0) :
    (∀ y n', Exact.lane y = .val (1 / dyadic n m e) n' → frcp b = (y, 0)) ∧
      ((¬ ∃ y n', Exact.lane y = .val (1 / dyadic n m e) n') → (frcp b).2 &&& flagNX = flagNX ∧
        ∀ w n', Exact.lane (frcp b).1 = .val w n' → |w - 1 / dyadic n m e| ≤ 2 ^ (max (Int.log 2 |1 / dyadic n m e|) (-126) - 23)) := by
  obtain ⟨M, E, p, x, hquot, hM, hx, hdiv, halike, hp⟩ := quotient_alike false n (m := 1) (k := m) 0 e one_ne_zero hm
  have hone : dyadic false 1 0 = 1 := by rw [dyadic_false]; simp
  have hne : 1 / dyadic n m e ≠ 0 := one_div_ne_zero (mt dyadic_eq_zero_iff.1 hm)
  have hneg : (false != n) = n := by cases n <;> rfl
  rw [hone, hneg] at hdiv
  rw [hneg] at hquot
  have hlane : frcp b = roundLane (nearMode (Config.rcpAway b) n M E) (.fin n M E) := by
    simp only [frcp, hb, if_neg hm, hquot, nearLane_fin]
  have hg := quotient_gives (nearMode (Config.rcpAway b) n M E) false n (m := 1) (k := m) 0 e n one_ne_zero hm
  rw [hone, hneg, hquot] at hg
  rw [hlane]
  refine ⟨fun y n' hy => Prod.ext_iff.2 (eq_of_gives_lane hy hne hg), fun hinexact => gives_inexact hne hg hinexact fun hover => ?_⟩
  rw [hdiv] at hover ⊢
  exact nearMode_over hM hx halike hp hover

end Sys2Proof.Machine
end

section
/-! # VFRSQ (R130) -/
namespace Sys2Proof.Machine

open Sys2Proof.Safety

theorem frsq_nan {b : Lane} {s : Bool} (hb : readLane b = .nan s) : frsq b = (0x7FC00000, flagIf s flagNV) := by
  simp only [frsq, hb, snan_nan]; rfl

theorem frsq_inf {b : Lane} {n : Bool} (hb : readLane b = .inf n) : frsq b = if n then (0x7FC00000, flagNV) else (0, 0) := by
  simp only [frsq, hb]; rfl

theorem frsq_zero {b : Lane} {n : Bool} {e : Int} (hb : readLane b = .fin n 0 e) : frsq b = (if n then 0xFF800000 else 0x7F800000, flagDZ) := by
  simp only [frsq, hb, if_true]
  cases n <;> rfl

theorem frsq_neg {b : Lane} {m : Nat} {e : Int} (hb : readLane b = .fin true m e) (hm : m ≠ 0) : frsq b = (0x7FC00000, flagNV) := by
  simp only [frsq, hb, if_neg hm]; rfl

/-- The whole part of the root of 4^j / m. -/
def rsqPart (m j : Nat) : Nat := Nat.sqrt (2 ^ (2 * j) / m)

/-- Whether that root is whole. -/
def RsqExact (m j : Nat) : Prop := 2 ^ (2 * j) / m * m = 2 ^ (2 * j) ∧ rsqPart m j * rsqPart m j = 2 ^ (2 * j) / m

theorem rsqPart_bounds {m : Nat} (hm : m ≠ 0) (j : Nat) : (rsqPart m j : ℝ) ≤ √(((2 ^ (2 * j) : Nat) : ℝ) / m) ∧
    √(((2 ^ (2 * j) : Nat) : ℝ) / m) < rsqPart m j + 1 ∧ (RsqExact m j ↔ √(((2 ^ (2 * j) : Nat) : ℝ) / m) = rsqPart m j) := by
  have hmpos : (0 : ℝ) < m := by exact_mod_cast Nat.pos_of_ne_zero hm
  obtain ⟨h1, h2⟩ := nat_div_bounds (2 ^ (2 * j)) m
  unfold RsqExact rsqPart
  generalize hP : 2 ^ (2 * j) = P at *
  generalize hk : P / m = k at *
  have hle := Nat.sqrt_le k
  have hlt := Nat.lt_succ_sqrt k
  generalize Nat.sqrt k = r at *
  have hle' : (r : ℝ) ^ 2 ≤ k := by rw [sq]; exact_mod_cast hle
  have hlt' : (k : ℝ) + 1 ≤ (r + 1) ^ 2 := by rw [sq]; exact_mod_cast hlt
  refine ⟨Real.le_sqrt_of_sq_le (hle'.trans h1), (Real.sqrt_lt' (by positivity)).2 (h2.trans_le hlt'), ?_⟩
  rw [Real.sqrt_eq_iff_mul_self_eq (by positivity) (Nat.cast_nonneg _), div_eq_iff hmpos.ne']
  norm_cast
  constructor
  · rintro ⟨ha, hb⟩
    rw [hb, ha]
  · intro h
    have hkr : k = r * r := by rw [← hk, h, Nat.mul_div_cancel _ (Nat.pos_of_ne_zero hm)]
    exact ⟨by rw [hkr, ← h], hkr.symm⟩

/-- The number of the machine for the reciprocal root of `p.1 * 2^p.2`, an even power. -/
def rsqNum (p : Nat × Int) : FNum :=
  .fin false (2 * isqrt (2 ^ (2 * (64 + Nat.log2 p.1)) / p.1) +
    if decide (2 ^ (2 * (64 + Nat.log2 p.1)) / p.1 * p.1 = 2 ^ (2 * (64 + Nat.log2 p.1))) && isqrt (2 ^ (2 * (64 + Nat.log2 p.1)) / p.1) *
      isqrt (2 ^ (2 * (64 + Nat.log2 p.1)) / p.1) = 2 ^ (2 * (64 + Nat.log2 p.1)) / p.1 then 0 else 1) (-(p.2 / 2) - 65 - Nat.log2 p.1)

theorem frsq_pos {b : Lane} {m : Nat} {e : Int} (hb : readLane b = .fin false m e) (hm : m ≠ 0) :
    frsq b = nearLane (Config.rsqAway b) (rsqNum (evenExp m e)) := by
  simp only [frsq, hb, if_neg hm]
  rfl

theorem rsqNum_eq (k : Nat) (g : Int) {j : Nat} (hj : 64 + Nat.log2 k = j) [Decidable (RsqExact k j)] :
    rsqNum (k, g) = .fin false (2 * rsqPart k j + if RsqExact k j then 0 else 1) (-(g / 2) - j - 1) := by
  have hexp : -(g / 2) - 65 - (Nat.log2 k : Int) = -(g / 2) - j - 1 := by omega
  rw [rsqNum, isqrt_eq_sqrt, hj, hexp]
  unfold RsqExact rsqPart
  simp only [Bool.and_eq_true, decide_eq_true_eq]
  congr

/-- Twice a whole part and a sticky digit. -/
theorem sticky_log {N s : Nat} (hs : s ≤ 1) {a b : Nat} (ha : 2 ^ a ≤ N) (hb : N < 2 ^ b) :
    2 * N + s ≠ 0 ∧ a + 1 ≤ Nat.log2 (2 * N + s) ∧ Nat.log2 (2 * N + s) ≤ b := by
  have hpos := Nat.two_pow_pos a
  have hne : 2 * N + s ≠ 0 := by omega
  refine ⟨hne, (Nat.le_log2 hne).2 (by rw [pow_succ]; omega), Nat.lt_succ_iff.1 ((Nat.log2_lt hne).2 (by rw [pow_succ]; omega))⟩

theorem rsqPart_range {k : Nat} (hk : k ≠ 0) (hlt : k < 2 ^ 25) : 2 ^ 63 ≤ rsqPart k (64 + Nat.log2 k) ∧ rsqPart k (64 + Nat.log2 k) < 2 ^ 77 := by
  have hlow := Nat.log2_self_le hk
  have hhigh := Nat.lt_log2_self (n := k)
  have hL : Nat.log2 k < 25 := (Nat.log2_lt hk).2 hlt
  constructor
  · rw [rsqPart, Nat.le_sqrt, Nat.le_div_iff_mul_le (Nat.pos_of_ne_zero hk)]
    calc 2 ^ 63 * 2 ^ 63 * k ≤ 2 ^ 63 * 2 ^ 63 * 2 ^ (Nat.log2 k + 1) := Nat.mul_le_mul_left _ hhigh.le
      _ = 2 ^ (127 + Nat.log2 k) := by rw [← pow_add, ← pow_add]; congr 1; omega
      _ ≤ 2 ^ (2 * (64 + Nat.log2 k)) := Nat.pow_le_pow_right two_pos (by omega)
  · rw [rsqPart, Nat.sqrt_lt, Nat.div_lt_iff_lt_mul (Nat.pos_of_ne_zero hk)]
    calc 2 ^ (2 * (64 + Nat.log2 k)) = 2 ^ (128 + Nat.log2 k) * 2 ^ Nat.log2 k := by rw [← pow_add]; congr 1; omega
      _ < 2 ^ (77 + 77) * 2 ^ Nat.log2 k := Nat.mul_lt_mul_of_pos_right (Nat.pow_lt_pow_right one_lt_two (by omega)) (Nat.two_pow_pos _)
      _ ≤ 2 ^ 77 * 2 ^ 77 * k := by rw [← pow_add 2 77 77]; exact Nat.mul_le_mul_left _ hlow

/-- The reciprocal root of `k * 2^g` for an even `g`, by the root of 4^j / k. -/
theorem inv_sqrt_dyadic {k : Nat} (hk : k ≠ 0) {g : Int} (hg : g % 2 = 0) (j : Nat) :
    (√((dyadic false k g : ℚ) : ℝ))⁻¹ = √(((2 ^ (2 * j) : Nat) : ℝ) / k) * 2 ^ (-(g / 2) - j) := by
  have hkpos : (0 : ℝ) < k := by exact_mod_cast Nat.pos_of_ne_zero hk
  have hpos : (0 : ℝ) ≤ 2 ^ (-(g / 2) - (j : Int)) := by positivity
  rw [← Real.sqrt_inv, ← Real.sqrt_sq hpos, ← Real.sqrt_mul (by positivity), cast_dyadic]
  congr 1
  have hexp : (2 : ℝ) ^ g * (2 ^ (2 * j) * (2 ^ (-(g / 2) - (j : Int))) ^ 2) = 1 := by
    rw [← zpow_natCast _ (2 * j), ← zpow_natCast _ 2, ← zpow_mul, ← zpow_add₀ two_ne_zero, ← zpow_add₀ two_ne_zero]
    rw [show g + (((2 * j : Nat) : Int) + (-(g / 2) - (j : Int)) * ((2 : Nat) : Int)) = 0 by push_cast; omega, zpow_zero]
  rw [Nat.cast_pow, Nat.cast_ofNat, inv_eq_iff_eq_inv, ← one_div, eq_div_iff (by positivity)]
  rw [← hexp]
  field_simp

/-- The digits of a reciprocal root are those of the real one, and have the normal range's exponent. -/
theorem rsq_alike {m : Nat} {e : Int} (hm : m ≠ 0) (hmlt : m < 2 ^ 24) (he : -149 ≤ e) (he' : e ≤ 104) :
    ∃ M E p, rsqNum (evenExp m e) = .fin false M E ∧ M ≠ 0 ∧ Alike (√((dyadic false m e : ℚ) : ℝ))⁻¹ ((dyadic false M E : ℚ) : ℝ) p ∧
      p ≤ (Nat.log2 M : Int) + E - 24 ∧ -126 ≤ (Nat.log2 M : Int) + E ∧ (Nat.log2 M : Int) + E < 127 := by
  classical
  obtain ⟨hg, hk, hk', hg1, hg2⟩ := evenExp_bounds m e
  rw [← dyadic_evenExp m e]
  generalize evenExp m e = kg at *
  obtain ⟨k, g⟩ := kg
  dsimp only at *
  have hk0 : k ≠ 0 := by omega
  have hL : Nat.log2 k < 25 := (Nat.log2_lt hk0).2 (by omega)
  obtain ⟨hr1, hr2⟩ := rsqPart_range hk0 (by omega)
  generalize hj : 64 + Nat.log2 k = j at *
  obtain ⟨hlow, hhigh, hexact⟩ := rsqPart_bounds hk0 j
  have halike := alike_sticky hlow hhigh hexact (-(g / 2) - j)
  obtain ⟨hM0, hl1, hl2⟩ := sticky_log (s := if RsqExact k j then 0 else 1) (by split <;> omega) hr1 hr2
  refine ⟨_, _, -(g / 2) - j, rsqNum_eq k g hj, hM0, ?_, by omega, by omega, by omega⟩
  rw [inv_sqrt_dyadic hk0 hg j, cast_dyadic]
  exact halike

/-! ## The lanes -/

/-- A power of two no smaller than the unit lies alike to both. -/
theorem Alike.two_zpow {x z : ℝ} {p r : Int} (h : Alike x z p) (hr : p ≤ r) : ((2 : ℝ) ^ r ≤ x ↔ (2 : ℝ) ^ r ≤ z) ∧ (x = 2 ^ r ↔ z = 2 ^ r) :=
  ⟨by simpa using (h.coarser hr 1).1, by simpa using (h.coarser hr).eq_iff 1⟩

/-- A dyadic number whose product with the square of another is 1 is a power of four. -/
theorem four_zpow_of_square {s : Bool} {a m : Nat} {b e : Int} (h : dyadic s a b * dyadic s a b * dyadic false m e = 1) :
    ∃ k : Int, dyadic false m e = 4 ^ k := by
  have hprod : dyadic s a b * dyadic s a b * dyadic false m e = ((a * a * m : Nat) : ℚ) * 2 ^ (b + b + e) := by
    rw [dyadic_mul, dyadic_mul, dyadic]
    cases s <;> simp
  rw [hprod] at h
  have htwo : ((a * a * m : Nat) : ℚ) = 2 ^ (-(b + b + e)) := by
    rw [zpow_neg]; exact eq_inv_of_mul_eq_one_left h
  obtain ⟨i, ha⟩ : ∃ i, a = 2 ^ i := by
    have hne : a * a * m ≠ 0 := by rintro h0; rw [h0] at h; simp at h
    have hone : (1 : ℚ) ≤ ((a * a * m : Nat) : ℚ) := by exact_mod_cast Nat.one_le_iff_ne_zero.2 hne
    rw [htwo] at hone
    have hexp : 0 ≤ -(b + b + e) := (zpow_le_zpow_iff_right₀ (one_lt_two (α := ℚ))).1 (by rw [zpow_zero]; exact hone)
    obtain ⟨j, hj⟩ := Int.eq_ofNat_of_zero_le hexp
    rw [hj, zpow_natCast] at htwo
    have hpow : a * a * m = 2 ^ j := by exact_mod_cast htwo
    obtain ⟨i, -, ha⟩ := (Nat.dvd_prime_pow Nat.prime_two).1 (hpow ▸ Dvd.intro (a * m) (by ring) : a ∣ 2 ^ j)
    exact ⟨i, ha⟩
  refine ⟨-(i + b), ?_⟩
  have hy : dyadic s a b * dyadic s a b = 4 ^ ((i : Int) + b) := by
    have hfour : (4 : ℚ) ^ ((i : Int) + b) = 2 ^ (i + i) * 2 ^ (b + b) := by
      rw [show (4 : ℚ) = 2 ^ (2 : Int) by norm_num, ← zpow_mul, show 2 * ((i : Int) + b) = ((i + i : Nat) : Int) + (b + b) by push_cast; ring,
        zpow_add₀ two_ne_zero, zpow_natCast]
    rw [dyadic_mul, ha, ← pow_add, dyadic, hfour]
    cases s <;> simp
  rw [hprod.symm, hy] at h
  rw [zpow_neg]
  exact eq_inv_of_mul_eq_one_right h

section Positive
variable {b : Lane} {m : Nat} {e : Int} (hb : readLane b = .fin false m e) (hm : m ≠ 0)
include hb hm

theorem frsq_four_zpow {k : Int} (hq : dyadic false m e = 4 ^ k) : Exact.lane (frsq b).1 = .val (2 ^ (-k)) false ∧ (frsq b).2 = 0 := by
  obtain ⟨hmlt, he, he'⟩ := readLane_fin_bounds hb
  obtain ⟨M, E, p, hnum, hM, halike, hp, hlow, hhigh⟩ := rsq_alike hm hmlt he he'
  rw [frsq_pos hb hm, hnum, nearLane_fin]
  have hroot : (√((dyadic false m e : ℚ) : ℝ))⁻¹ = 2 ^ (-k) := by
    have hsq : ((dyadic false m e : ℚ) : ℝ) = (2 ^ k) ^ 2 := by
      rw [hq, ← zpow_natCast, ← zpow_mul, mul_comm, zpow_mul]; norm_num
    rw [hsq, Real.sqrt_sq (by positivity), zpow_neg]
  have hL : (Nat.log2 M : Int) + E ≤ -k := by
    have h := (halike.two_zpow (r := (Nat.log2 M : Int) + E) (by omega)).1.2 (by
      have := (Rat.cast_le (K := ℝ)).2 (two_zpow_le_dyadic (e := E) hM)
      push_cast at this
      exact this)
    rw [hroot] at h
    exact (zpow_le_zpow_iff_right₀ one_lt_two).1 h
  have hval : dyadic false M E = 2 ^ (-k) := by
    have h := (halike.two_zpow (r := -k) (by omega)).2.1 hroot
    refine Rat.cast_injective (α := ℝ) (h.trans ?_)
    push_cast
    rfl
  have hL' : (Nat.log2 M : Int) + E = -k := (pow_of_dyadic hM hval).1
  have hg := gives_roundLane_fin (nearMode (Config.rsqAway b) false M E) false M E
  rw [hval] at hg
  have hone : dyadic false 1 (-k) = 2 ^ (-k) := by rw [dyadic_false]; simp
  have hround := roundRat_of_digits (nearMode (Config.rsqAway b) false M E) false (m := 1) (e := -k) one_ne_zero (by norm_num) (by omega)
  rw [hone] at hround
  have hpos : (0 : ℚ) < 2 ^ (-k) := by positivity
  obtain ⟨hv, hfl⟩ := value_of_gives_exact hpos.ne' hround (by
    rw [abs_of_pos hpos, ← zpow_natCast]
    exact zpow_lt_zpow_right₀ one_lt_two (by push_cast; omega)) hg
  exact ⟨by rw [hv, decide_eq_false (not_lt.2 hpos.le)], hfl⟩

theorem frsq_near (hq : ¬ ∃ k : Int, dyadic false m e = 4 ^ k) : (frsq b).2 &&& flagNX = flagNX ∧
    ∃ w u : ℚ, Exact.lane (frsq b).1 = .val w false ∧ 0 < w ∧ u = 2 ^ (Int.log 2 w - 23) ∧ (w - u) ^ 2 * dyadic false m e ≤ 1 ∧
      1 ≤ (w + u) ^ 2 * dyadic false m e := by
  obtain ⟨hmlt, he, he'⟩ := readLane_fin_bounds hb
  obtain ⟨M, E, p, hnum, hM, halike, hp, hlow, hhigh⟩ := rsq_alike hm hmlt he he'
  rw [frsq_pos hb hm, hnum, nearLane_fin]
  obtain ⟨y, u, hlane, hu, hule, huy, hfl, hnear⟩ := normal_rounds (nearMode (Config.rsqAway b) false M E) hM halike hp hlow hhigh
  have hy : 0 < y := lt_of_lt_of_le (by positivity) huy
  have hq0 := dyadic_false_pos e hm
  have hroot : (√((dyadic false m e : ℚ) : ℝ))⁻¹ ^ 2 * ((dyadic false m e : ℚ) : ℝ) = 1 := by
    rw [inv_pow, Real.sq_sqrt (by exact_mod_cast hq0.le)]
    exact inv_mul_cancel₀ (by exact_mod_cast hq0.ne')
  have hroot0 : 0 ≤ (√((dyadic false m e : ℚ) : ℝ))⁻¹ := by positivity
  have hinexact : ((y : ℚ) : ℝ) ≠ (√((dyadic false m e : ℚ) : ℝ))⁻¹ := by
    intro h
    rw [← h] at hroot
    have hone : y * y * dyadic false m e = 1 := by rw [← sq]; exact_mod_cast hroot
    cases hr : readLane (roundLane (nearMode (Config.rsqAway b) false M E) (.fin false M E)).1 with
    | nan s => rw [Exact.lane, hr] at hlane; cases hlane
    | inf s => rw [Exact.lane, hr] at hlane; cases hlane
    | fin s a c =>
      rw [Exact.lane, hr, exactOf_fin] at hlane
      injection hlane with hval
      rw [← hval] at hone
      exact hq (four_zpow_of_square hone)
  have hulp : (2 : ℚ) ^ (Int.log 2 y - 23) ≤ y := by
    have := Int.zpow_log_le_self (b := 2) one_lt_two hy
    exact (zpow_le_zpow_right₀ one_le_two (by omega : Int.log 2 y - 23 ≤ Int.log 2 y)).trans (by exact_mod_cast this)
  have hspan : ((y - u : ℚ) : ℝ) ≤ (√((dyadic false m e : ℚ) : ℝ))⁻¹ ∧ (√((dyadic false m e : ℚ) : ℝ))⁻¹ ≤ ((y + u : ℚ) : ℝ) := by
    have hu' : (0 : ℝ) < u := by exact_mod_cast hu
    have hmode : nearMode (Config.rsqAway b) false M E = .rup ∨ nearMode (Config.rsqAway b) false M E = .rtz := by
      unfold nearMode
      rw [if_neg (by omega)]
      cases Config.rsqAway b
      · exact .inr rfl
      · exact .inl rfl
    unfold RealNear at hnear
    obtain hmode | hmode := hmode <;> rw [hmode] at hnear <;> dsimp only at hnear <;> push_cast at hnear ⊢ <;> constructor <;> linarith
  generalize (√((dyadic false m e : ℚ) : ℝ))⁻¹ = w at *
  generalize hv : (2 : ℚ) ^ (Int.log 2 y - 23) = v at *
  have hcast {a b : ℚ} (h : a ≤ b) : (a : ℝ) ≤ b := by exact_mod_cast h
  have hq0R : (0 : ℝ) ≤ ((dyadic false m e : ℚ) : ℝ) := by exact_mod_cast hq0.le
  refine ⟨?_, y, v, hlane, hy, hv.symm, ?_, ?_⟩
  · obtain ⟨-, h⟩ | ⟨h, -⟩ := hfl
    · exact absurd h hinexact
    · rw [h]; rfl
  · have hle : ((y - v : ℚ) : ℝ) ^ 2 ≤ w ^ 2 :=
      pow_le_pow_left₀ (by exact_mod_cast sub_nonneg.2 hulp) ((hcast (by linarith)).trans hspan.1) 2
    have h := (mul_le_mul_of_nonneg_right hle hq0R).trans_eq hroot
    exact_mod_cast h
  · have hle : w ^ 2 ≤ ((y + v : ℚ) : ℝ) ^ 2 := pow_le_pow_left₀ hroot0 (hspan.2.trans (hcast (by linarith))) 2
    have h := hroot.symm.trans_le (mul_le_mul_of_nonneg_right hle hq0R)
    exact_mod_cast h

end Positive

end Sys2Proof.Machine
end

section
/-! # The approximations of a vector (R130) -/
namespace Sys2Proof.Machine

open Sys2Proof.Safety

/-! ## The listed cases -/

/-- The value that R130 gives for 2^x, with its flags, where it gives one: the table of VFEXP2 on a finite lane. -/
def exp2Listed (x : ℚ) : Option (Lane × FFlags) :=
  if 128 ≤ x then some (0x7F800000, flagOF ||| flagNX)
  else if x < -150 then some (0, flagUF ||| flagNX)
  else if x = ⌊x⌋ ∧ -126 ≤ x then some (BitVec.ofNat 32 ((⌊x⌋ + 127).toNat * 2 ^ 23), 0)
  else if x = ⌊x⌋ ∧ -149 ≤ x then some (BitVec.ofNat 32 (2 ^ (⌊x⌋ + 149).toNat), 0)
  else none

/-- The value of R130 for a lane of VFEXP2 holds, where it gives one. -/
theorem fexp2_listed {b : Lane} {n : Bool} {m : Nat} {e : Int} (hb : readLane b = .fin n m e) {r : Lane × FFlags}
    (h : exp2Listed (dyadic n m e) = some r) : fexp2 b = r := by
  unfold exp2Listed at h
  by_cases hover : 128 ≤ dyadic n m e
  · rw [if_pos hover] at h
    exact (fexp2_over hb hover).trans (Option.some.inj h)
  rw [if_neg hover] at h
  by_cases hunder : dyadic n m e < -150
  · rw [if_pos hunder] at h
    exact (fexp2_under hb hunder).trans (Option.some.inj h)
  rw [if_neg hunder] at h
  have hwhole {k : Int} (hx : dyadic n m e = k) : k < 128 := by
    rw [hx] at hover
    exact_mod_cast not_le.1 hover
  generalize hk : ⌊dyadic n m e⌋ = k at h
  by_cases hnormal : dyadic n m e = k ∧ -126 ≤ dyadic n m e
  · rw [if_pos hnormal] at h
    obtain ⟨hx, hlow⟩ := hnormal
    have hlow' : -126 ≤ k := by rw [hx] at hlow; exact_mod_cast hlow
    rw [fexp2_of_whole hb hx (by omega) (hwhole hx)]
    exact (roundLane_two_pow (exactLane_two_pow_normal hlow' (hwhole hx)) _).trans (Option.some.inj h)
  rw [if_neg hnormal] at h
  by_cases hsub : dyadic n m e = k ∧ -149 ≤ dyadic n m e
  · rw [if_pos hsub] at h
    obtain ⟨hx, hlow⟩ := hsub
    have hlow' : -149 ≤ k := by rw [hx] at hlow; exact_mod_cast hlow
    have hhigh : k < -126 := by
      by_contra hge
      exact hnormal ⟨hx, by rw [hx]; exact_mod_cast not_lt.1 hge⟩
    rw [fexp2_of_whole hb hx hlow' (hwhole hx)]
    exact (roundLane_two_pow (exactLane_two_pow_subnormal hlow' hhigh) _).trans (Option.some.inj h)
  · rw [if_neg hsub] at h
    cases h

/-- Where R130 gives no value for a lane of VFEXP2, it is near the power. -/
theorem fexp2_unlisted {b : Lane} {n : Bool} {m : Nat} {e : Int} (hb : readLane b = .fin n m e)
    (h : exp2Listed (dyadic n m e) = none) :
    (fexp2 b).2 &&& flagNX = flagNX ∧ NearReal (fexp2 b).1 2 ((2 : ℝ) ^ ((dyadic n m e : ℚ) : ℝ)) := by
  unfold exp2Listed at h
  split at h
  · cases h
  next hover =>
  split at h
  · cases h
  next hunder =>
  split at h
  · cases h
  split at h
  · cases h
  next hsub =>
  refine fexp2_near hb (not_le.1 hover) (not_lt.1 hunder) fun k hk => ?_
  by_contra hge
  have hge' : -149 ≤ k := not_lt.1 hge
  exact hsub ⟨by rw [hk, Int.floor_intCast], by rw [hk]; exact_mod_cast hge'⟩

section
variable {s : State} {g g' : Pred} {d d' : Reg} {b : VSrc} {x : Nat → Option (Lane × FFlags)} {j : Nat} {r : Lane × FFlags}

theorem frcp_of_case (h : approxCase s (.vfrcp g d b) = some (g', d', x)) (hj : x j = some r) : frcp (lane (s.vsrc b) j) = r := by
  cases h
  cases hb : readLane (lane (s.vsrc b) j) with
  | nan sig => simp only [hb, Option.some.injEq] at hj; exact (frcp_nan hb).trans hj
  | inf n => simp only [hb, Option.some.injEq] at hj; exact (frcp_inf hb).trans hj
  | fin n m e =>
    cases m with
    | zero => simp only [hb, Option.some.injEq] at hj; exact (frcp_zero hb).trans hj
    | succ m => simp only [hb] at hj; cases hj

theorem frsq_of_case (h : approxCase s (.vfrsq g d b) = some (g', d', x)) (hj : x j = some r) : frsq (lane (s.vsrc b) j) = r := by
  cases h
  cases hb : readLane (lane (s.vsrc b) j) with
  | nan sig => simp only [hb, Option.some.injEq] at hj; exact (frsq_nan hb).trans hj
  | inf n => simp only [hb, Option.some.injEq] at hj; exact (frsq_inf hb).trans hj
  | fin n m e =>
    cases m with
    | zero => simp only [hb, Option.some.injEq] at hj; exact (frsq_zero hb).trans hj
    | succ m =>
      cases n
      · simp only [hb] at hj; cases hj
      · simp only [hb, Option.some.injEq] at hj; exact (frsq_neg hb (Nat.succ_ne_zero m)).trans hj

theorem fexp2_of_case (h : approxCase s (.vfexp2 g d b) = some (g', d', x)) (hj : x j = some r) : fexp2 (lane (s.vsrc b) j) = r := by
  cases h
  cases hb : readLane (lane (s.vsrc b) j) with
  | nan sig => simp only [hb, Option.some.injEq] at hj; exact (fexp2_nan hb).trans hj
  | inf n => simp only [hb, Option.some.injEq] at hj; exact (fexp2_inf hb).trans hj
  | fin n m e => simp only [hb] at hj; exact fexp2_listed hb hj

theorem flog2_of_case (h : approxCase s (.vflog2 g d b) = some (g', d', x)) (hj : x j = some r) : flog2 (lane (s.vsrc b) j) = r := by
  cases h
  cases hb : readLane (lane (s.vsrc b) j) with
  | nan sig => simp only [hb, Option.some.injEq] at hj; exact (flog2_nan hb).trans hj
  | inf n => simp only [hb, Option.some.injEq] at hj; exact (flog2_inf hb).trans hj
  | fin n m e =>
    cases m with
    | zero => simp only [hb, Option.some.injEq] at hj; exact (flog2_zero hb).trans hj
    | succ m =>
      cases n
      · simp only [hb] at hj; cases hj
      · simp only [hb, Option.some.injEq] at hj; exact (flog2_neg hb (Nat.succ_ne_zero m)).trans hj

/-- The condition of R130 for the limits of VFTANH, for the lane's digits. -/
theorem ten_le_iff (m : Nat) (e : Int) : 10 ≤ (m : ℚ) * 2 ^ e ↔ 10 ≤ dyadic false m e := by rw [dyadic_false]

theorem ftanh_of_case (h : approxCase s (.vftanh g d b) = some (g', d', x)) (hj : x j = some r) : ftanh (lane (s.vsrc b) j) = r := by
  cases h
  cases hb : readLane (lane (s.vsrc b) j) with
  | nan sig => simp only [hb, Option.some.injEq] at hj; exact (ftanh_nan hb).trans hj
  | inf n => simp only [hb, Option.some.injEq] at hj; exact (ftanh_inf hb).trans hj
  | fin n m e =>
    cases m with
    | zero => simp only [hb, Option.some.injEq] at hj; exact (ftanh_zero hb).trans hj
    | succ m =>
      simp only [hb, ten_le_iff] at hj
      split at hj
      next hten => exact (ftanh_large hb (Nat.succ_ne_zero m) hten).trans (Option.some.inj hj)
      next => cases hj

theorem fexp2_of_no_case (h : approxCase s (.vfexp2 g d b) = some (g', d', x)) (hj : x j = none) :
    (fexp2 (lane (s.vsrc b) j)).2 &&& flagNX = flagNX ∧
      ∀ q n, Exact.lane (lane (s.vsrc b) j) = .val q n → NearReal (fexp2 (lane (s.vsrc b) j)).1 2 ((2 : ℝ) ^ (q : ℝ)) := by
  cases h
  cases hb : readLane (lane (s.vsrc b) j) with
  | nan sig => simp only [hb] at hj; cases hj
  | inf n => simp only [hb] at hj; cases hj
  | fin n m e =>
    simp only [hb] at hj
    obtain ⟨hnx, hnear⟩ := fexp2_unlisted hb hj
    refine ⟨hnx, fun q n' hq => ?_⟩
    rw [Exact.lane, hb, exactOf_fin] at hq
    cases hq
    exact hnear

theorem ftanh_of_no_case (h : approxCase s (.vftanh g d b) = some (g', d', x)) (hj : x j = none) :
    (ftanh (lane (s.vsrc b) j)).2 &&& flagNX = flagNX ∧
      ∀ q n, Exact.lane (lane (s.vsrc b) j) = .val q n → NearReal (ftanh (lane (s.vsrc b) j)).1 2 (Real.tanh (q : ℝ)) := by
  cases h
  cases hb : readLane (lane (s.vsrc b) j) with
  | nan sig => simp only [hb] at hj; cases hj
  | inf n => simp only [hb] at hj; cases hj
  | fin n m e =>
    cases m with
    | zero => simp only [hb] at hj; cases hj
    | succ m =>
      simp only [hb, ten_le_iff] at hj
      split at hj
      next => cases hj
      next hten =>
      obtain ⟨hnx, hnear⟩ := ftanh_near hb (Nat.succ_ne_zero m) (not_le.1 hten)
      refine ⟨hnx, fun q n' hq => ?_⟩
      rw [Exact.lane, hb, exactOf_fin] at hq
      cases hq
      exact hnear

end

/-! ## The instructions -/

/-- An approximation's function of a lane gives the value of R130 wherever it gives one. -/
theorem exec_approxCase {s : State} {i : Instr} {g : Pred} {d : Reg} {x : Nat → Option (Lane × FFlags)} (h : approxCase s i = some (g, d, x)) :
    ∃ f : Nat → Lane × FFlags, exec i s = floatResult g s 10 d f ∧ ∀ j r, x j = some r → f j = r := by
  have hcase := h
  unfold approxCase at h
  split at h
  next b => cases h; exact ⟨fun j => frcp (lane (s.vsrc b) j), rfl, fun j r hj => frcp_of_case hcase hj⟩
  next b => cases h; exact ⟨fun j => frsq (lane (s.vsrc b) j), rfl, fun j r hj => frsq_of_case hcase hj⟩
  next b => cases h; exact ⟨fun j => fexp2 (lane (s.vsrc b) j), rfl, fun j r hj => fexp2_of_case hcase hj⟩
  next b => cases h; exact ⟨fun j => flog2 (lane (s.vsrc b) j), rfl, fun j r hj => flog2_of_case hcase hj⟩
  next b => cases h; exact ⟨fun j => ftanh (lane (s.vsrc b) j), rfl, fun j r hj => ftanh_of_case hcase hj⟩
  next => cases h

/-! ## Lanes that hold a number -/

/-- A lane that holds a number has that number's sign and digits. -/
theorem readLane_of_value {b : Lane} {q : ℚ} {n : Bool} (h : Exact.lane b = .val q n) : ∃ m e, readLane b = .fin n m e ∧ q = dyadic n m e := by
  cases hb : readLane b with
  | nan s => rw [Exact.lane, hb] at h; cases h
  | inf s => rw [Exact.lane, hb] at h; cases h
  | fin s m e =>
    rw [Exact.lane, hb, exactOf_fin] at h
    cases h
    exact ⟨m, e, rfl, rfl⟩

/-- A lane that holds a positive number has a clear sign and digits that are not zero. -/
theorem readLane_of_pos {b : Lane} {q : ℚ} {n : Bool} (h : Exact.lane b = .val q n) (hq : 0 < q) :
    ∃ m e, readLane b = .fin false m e ∧ m ≠ 0 ∧ q = dyadic false m e := by
  obtain ⟨m, e, hb, rfl⟩ := readLane_of_value h
  have hm : m ≠ 0 := mt dyadic_eq_zero_iff.2 hq.ne'
  cases n
  · exact ⟨m, e, hb, hm, rfl⟩
  · exact absurd ((dyadic_neg_iff e hm).2 rfl) hq.le.not_gt

/-- VFRCP in a lane that holds a number other than zero. -/
theorem frcp_value {b : Lane} {q : ℚ} {n : Bool} (h : Exact.lane b = .val q n) (hq : q ≠ 0) :
    (∀ y n', Exact.lane y = .val (1 / q) n' → (frcp b).1 = y ∧ (frcp b).2 = 0) ∧
      ((¬ ∃ y n', Exact.lane y = .val (1 / q) n') → (frcp b).2 &&& flagNX = flagNX ∧
        ∀ w n', Exact.lane (frcp b).1 = .val w n' → |w - 1 / q| ≤ 2 ^ (max (Int.log 2 |1 / q|) (-126) - 23)) := by
  obtain ⟨m, e, hb, rfl⟩ := readLane_of_value h
  obtain ⟨hexact, hnear⟩ := frcp_fin hb (mt dyadic_eq_zero_iff.2 hq)
  exact ⟨fun y n' hy => by simp only [hexact y n' hy, and_self], hnear⟩

/-- VFRSQ in a lane that holds a positive number. -/
theorem frsq_value {b : Lane} {q : ℚ} {n : Bool} (h : Exact.lane b = .val q n) (hq : 0 < q) :
    (∀ k : Int, q = 4 ^ k → Exact.lane (frsq b).1 = .val (2 ^ (-k)) false ∧ (frsq b).2 = 0) ∧
      ((¬ ∃ k : Int, q = 4 ^ k) → (frsq b).2 &&& flagNX = flagNX ∧
        ∃ w u : ℚ, Exact.lane (frsq b).1 = .val w false ∧ 0 < w ∧ u = 2 ^ (Int.log 2 w - 23) ∧ (w - u) ^ 2 * q ≤ 1 ∧ 1 ≤ (w + u) ^ 2 * q) := by
  obtain ⟨m, e, hb, hm, rfl⟩ := readLane_of_pos h hq
  exact ⟨fun k hk => frsq_four_zpow hb hm hk, frsq_near hb hm⟩

/-- VFLOG2 in a lane that holds a positive number. -/
theorem flog2_value {b : Lane} {q : ℚ} {n : Bool} (h : Exact.lane b = .val q n) (hq : 0 < q) :
    (∀ k : Int, q = 2 ^ k → Exact.lane (flog2 b).1 = .val k (decide (k < 0)) ∧ (flog2 b).2 = 0) ∧
      ((¬ ∃ k : Int, q = 2 ^ k) → (flog2 b).2 &&& flagNX = flagNX ∧
        ∀ w n', Exact.lane (flog2 b).1 = .val w n' → |(w : ℝ) - Real.logb 2 (q : ℝ)| ≤
          if 1 / 2 ≤ q ∧ q ≤ 2 then 2 ^ (-21 : ℤ) else 2 * ulpAt (Real.logb 2 (q : ℝ))) := by
  obtain ⟨m, e, hb, hm, rfl⟩ := readLane_of_pos h hq
  obtain ⟨hmlt, he, he'⟩ := readLane_fin_bounds hb
  refine ⟨fun k hk => ?_, fun hnot => flog2_near hb hm fun hpow => hnot ⟨(Nat.log2 m : Int) + e, ?_⟩⟩
  · obtain ⟨hlog, hpow⟩ := pow_of_dyadic hm hk
    have hL : Nat.log2 m < 24 := (Nat.log2_lt hm).2 hmlt
    rw [flog2_pow hb hm hpow, show e + (Nat.log2 m : Int) = k by omega]
    exact roundLane_int (by omega)
  · rw [← dyadic_two_pow, ← hpow]

/-- Settles O9: the listed cases lane by lane, and bounds on the power, the logarithm, the root and the hyperbolic tangent that hold whatever value
within its limit a lane has. -/
theorem floatApproximations : Obligations.FloatApproximations := by
  unfold Obligations.FloatApproximations
  refine ⟨fun s i g d x hx hacts => ?_, fun s g d b hacts => ?_, fun s g d b hacts => ?_, fun s g d b hacts => ?_, fun s g d b hacts => ?_,
    fun s g d b hacts => ?_⟩
  · obtain ⟨f, hexec, hf⟩ := exec_approxCase hx
    exact ⟨_, _, hexec.trans (floatResult_acts hacts ..), fun j _ y fl hj => by simp only [hf j _ hj, and_self]⟩
  · exact ⟨_, _, floatResult_acts hacts 10 d fun i => frcp (lane (s.vsrc b) i), fun j _ q n hq hq0 => frcp_value hq hq0⟩
  · exact ⟨_, _, floatResult_acts hacts 10 d fun i => frsq (lane (s.vsrc b) i), fun j _ q n hq hq0 => frsq_value hq hq0⟩
  · exact ⟨_, _, floatResult_acts hacts 10 d fun i => fexp2 (lane (s.vsrc b) i), fun j _ g' d' x hx hj => fexp2_of_no_case hx hj⟩
  · exact ⟨_, _, floatResult_acts hacts 10 d fun i => flog2 (lane (s.vsrc b) i), fun j _ q n hq hq0 => flog2_value hq hq0⟩
  · refine ⟨_, _, floatResult_acts hacts 10 d fun i => ftanh (lane (s.vsrc b) i), fun j _ => ⟨fun g' d' x hx hj => ftanh_of_no_case hx hj,
      fun k _ hflip hnan => ?_⟩⟩
    have hk : (readLane (lane (s.vsrc b) k)).isNan = false := by
      rw [hflip, readLane_flip] at hnan
      cases hr : readLane (lane (s.vsrc b) k) with
      | nan sig => rw [hr] at hnan; cases hnan
      | inf n => rfl
      | fin n m e => rfl
    rw [hflip]
    exact ftanh_odd _ hk

end Sys2Proof.Machine
end

section
/-! # A completion in the empty handler slot (R93, R146) -/
namespace Sys2Proof.Machine

open Sys2Proof.Safety

/-- Refutes O27: a completion leaves its slot running, and the bank of the handler slot is the physical function's while it is empty and its VF's while
it runs; so VFID there reads 8 before a completion and 0 after it. The statement does not ask that the slot run, and its frame leaves out LC alone. -/
theorem not_completion : ¬ Obligations.Completion := by
  unfold Obligations.Completion
  intro h
  obtain ⟨⟨-, hsys, -⟩, -⟩ := h handlerless
  have hbefore : handlerless.readSys .vfid = 8 := by decide
  have hafter : handlerless.retire.readSys .vfid = 0 := by decide
  have hvfid := hsys .vfid (by decide)
  rw [hbefore, hafter] at hvfid
  exact absurd hvfid (by decide)

end Sys2Proof.Machine
end

section
/-! # Control transfers and the hardware loop (R144 to R146) -/
namespace Sys2Proof.Machine

open Sys2Proof.Safety

/-! ## The pc and the loop's count -/

/-- Only the pc and the loop's count differ. -/
def OnlyCounter (x y : Slot) : Prop := y = { x with pc := y.pc, lc := y.lc }

/-- The frame of a change of the issuing slot's pc and loop count alone. -/
theorem frame_modCur_counter {s : State} {f : Slot → Slot} (hf : OnlyCounter s.cur (f s.cur)) : Frame s (s.modCur f) none [.lc] := by
  have helse := elsewhere_modCur s f
  have hcur : (s.modCur f).cur = _ := (State.cur_modCur s f).trans hf
  have hbank : (s.modCur f).bankVf = s.bankVf := by
    rw [State.bankVf, hcur]
    rfl
  have hcurVf := curVf_of_elsewhere helse hbank
  have hobs := obsOf_of_elsewhere helse s.slot
  refine ⟨⟨fun r _ => ?_, fun r _ => ?_, fun p _ => ?_⟩, fun n hn => ?_, ?_, fun _ => rfl, helse⟩
  · cases r with
    | priv n => rw [State.sreg, hcur]; rfl
    | shared n => rw [State.sreg, State.sreg, hcurVf]
  · cases r with
    | priv n => rw [State.vreg, hcur]; rfl
    | shared n => rw [State.vreg, State.vreg, hcurVf]
  · rw [State.preg, hcur]; rfl
  · cases n with
    | lc => exact absurd List.mem_cons_self hn
    | dqspill => exact congrArg CoreVf.dqspill hcurVf
    | vfid => exact congrArg (BitVec.ofNat 64) hbank
    | coreid => rfl
    | slotno => rfl
    | obmin => exact congrArg (fun l => (leastRank l).setWidth 64) hobs
    | obcnt => exact congrArg (fun l => BitVec.ofNat 64 l.length) hobs
    | _ => rw [State.readSys, hcur]; rfl
  · rw [SlotKept, hcur]

theorem Slot.jump_eq (x : Slot) (t : Word) : x.jump t = { x with pc := t, lc :=
    if x.ih = false ∧ x.lc ≠ 0 ∧ (t.toNat < x.ls.toNat ∨ x.le.toNat < t.toNat) then 0 else x.lc } := by
  have hiff : (!x.ih && x.lc != 0 && (t.toNat < x.ls.toNat || x.le.toNat < t.toNat)) = true ↔
      x.ih = false ∧ x.lc ≠ 0 ∧ (t.toNat < x.ls.toNat ∨ x.le.toNat < t.toNat) := by simp [and_assoc]
  simp only [Slot.jump, hiff]
  split <;> rfl

theorem cur_jumpTo (s : State) (t : Word) : (s.jumpTo t).cur = { s.cur with pc := t, lc :=
    if s.cur.ih = false ∧ s.cur.lc ≠ 0 ∧ (t.toNat < s.cur.ls.toNat ∨ s.cur.le.toNat < t.toNat) then 0 else s.cur.lc } :=
  (State.cur_modCur ..).trans (Slot.jump_eq ..)

theorem frame_jumpTo (s : State) (t : Word) : Frame s (s.jumpTo t) none [.lc] := by
  refine frame_modCur_counter ?_
  rw [OnlyCounter, Slot.jump_eq]

/-! ## Branches, calls and returns (R142, R144) -/

/-- A distance counts units of two bytes from the instruction's own address. -/
theorem target2_eq (s : State) {n : Nat} (dist : BitVec n) : s.target2 dist = BitVec.ofInt 64 (s.cur.pc.toNat + 2 * dist.toInt) := by
  rw [BitVec.ofInt_add, BitVec.ofInt_mul, BitVec.ofInt_natCast, BitVec.ofNat_toNat, BitVec.setWidth_eq]
  rfl

theorem odd_iff (t : Word) : bit t 0 = true ↔ t.toNat % 2 = 1 := by simp [bit]

theorem exec_br {g : Pred} {s : State} (h : s.acts g = true) (dist : BitVec 40) :
    exec (.br g dist) s = .next (s.jumpTo (s.target2 dist)) := guarded_acts _ h

theorem exec_brp (p : PReg) (sense : Bool) (dist : BitVec 36) (s : State) :
    exec (.brp p sense dist) s = .next (if (s.preg p).getLsbD 0 = !sense then s.jumpTo (s.target2 dist) else s.retire) := by
  have htaken : ((s.preg p).getLsbD 0 != sense) = true ↔ (s.preg p).getLsbD 0 = !sense := by rw [bne_iff_ne, Bool.eq_not_iff]
  change execBrp p sense dist s = _
  rw [execBrp, apply_ite Host.Outcome.next]
  simp only [htaken]

theorem exec_call {g : Pred} {s : State} (h : s.acts g = true) (dist : BitVec 40) :
    exec (.call g dist) s = .next ((s.putS 2 (.priv 31) s.cur.next).jumpTo (s.target2 dist)) := guarded_acts _ h

theorem exec_ret {g : Pred} {s : State} (h : s.acts g = true) :
    exec (.ret g) s = .next (if (s.sreg (.priv 31)).toNat % 2 = 1 then s.trap .align (s.sreg (.priv 31)) else s.jumpTo (s.sreg (.priv 31))) := by
  refine (guarded_acts _ h).trans ?_
  rw [apply_ite Host.Outcome.next]
  simp only [odd_iff]

theorem exec_jmpr {g : Pred} {s : State} (h : s.acts g = true) (d : Reg) (a : SSrc) :
    exec (.jmpr g d a) s = .next (if (s.ssrc a).toNat % 2 = 1 then s.trap .align (s.ssrc a)
      else (s.putS 2 d s.cur.next).jumpTo (s.ssrc a)) := by
  refine (guarded_acts _ h).trans ?_
  rw [apply_ite Host.Outcome.next]
  simp only [odd_iff]

/-! ## LOOP (R145) -/

/-- The state with the loop registers as a LOOP of `n` passes that ends at `le` writes them. -/
def State.armLoop (s : State) (le n : Word) : State := s.modCur fun x => { x with ls := addrBits x.next, le := le, lc := n }

section Loop
variable {s u : State} {a : SSrc} {dist : BitVec 35} {ws : List Half}

/-- A count other than zero: the loop's first instruction is next. -/
theorem exec_loop_enters (hn : s.ssrc a ≠ 0) :
    exec (.loop a dist) s = .next ((s.armLoop (addrBits (s.target2 dist)) (s.ssrc a)).modCur fun x => { x with pc := s.cur.next }) := by
  change execLoop a dist s = _
  rw [execLoop, if_pos hn, State.armLoop, State.modCur_modCur, State.modCur_modCur]
  rfl

/-- A count of zero skips the instruction at LE. -/
theorem exec_loop_skips (hn : s.ssrc a = 0) (hheld : s.fetchHeld (addrBits (s.target2 dist)) = none) {k : Nat}
    (hfetch : (s.armLoop (addrBits (s.target2 dist)) (s.ssrc a)).fetchWords (addrBits (s.target2 dist)) = (u, .ok ws))
    (hlen : chainLength ws = some k) :
    exec (.loop a dist) s = .next (u.modCur fun x => { x with pc := addrBits (s.target2 dist) + BitVec.ofNat 64 k }) := by
  unfold State.armLoop at hfetch
  change execLoop a dist s = _
  simp only [execLoop, if_neg (not_not.2 hn), hheld, hfetch, hlen]

/-- A count of zero, and no chain at LE. -/
theorem exec_loop_illegal (hn : s.ssrc a = 0) (hheld : s.fetchHeld (addrBits (s.target2 dist)) = none)
    (hfetch : (s.armLoop (addrBits (s.target2 dist)) (s.ssrc a)).fetchWords (addrBits (s.target2 dist)) = (u, .ok ws))
    (hlen : chainLength ws = none) :
    exec (.loop a dist) s = .next (u.trapAt .illegal (addrBits (s.target2 dist)) ((ws.head?.getD 0).setWidth 64)) := by
  unfold State.armLoop at hfetch
  change execLoop a dist s = _
  simp only [execLoop, if_neg (not_not.2 hn), hheld, hfetch, hlen]

/-- A count of zero, and a failed fetch at LE. -/
theorem exec_loop_fetchFault (hn : s.ssrc a = 0) (hheld : s.fetchHeld (addrBits (s.target2 dist)) = none) {c : Cause}
    (hfetch : (s.armLoop (addrBits (s.target2 dist)) (s.ssrc a)).fetchWords (addrBits (s.target2 dist)) = (u, .error c)) :
    exec (.loop a dist) s = .next (u.trapAt c (addrBits (s.target2 dist)) (addrBits (s.target2 dist))) := by
  unfold State.armLoop at hfetch
  change execLoop a dist s = _
  simp only [execLoop, if_neg (not_not.2 hn), hheld, hfetch]

end Loop

/-! ## The statement -/

/-- Settles O30: the transfers by what a jump changes, LOOP by its count and by what stands at LE. -/
theorem controlTransfers : Obligations.ControlTransfers := by
  unfold Obligations.ControlTransfers
  simp only [← target2_eq]
  refine ⟨⟨fun s t => ⟨cur_jumpTo s t, frame_jumpTo s t⟩, fun s g dist h => exec_br h dist, fun s p sense dist => exec_brp p sense dist s,
    fun s g dist h => exec_call h dist, fun s g h => exec_ret h, fun s g d a h => exec_jmpr h d a⟩, ?_⟩
  rintro s a dist s' le rfl hs'
  have harm : s' = s.armLoop (addrBits (s.target2 dist)) (s.ssrc a) := hs'
  subst harm
  exact ⟨exec_loop_enters, fun hn hheld u ws k => exec_loop_skips hn hheld, fun hn hheld u ws => exec_loop_illegal hn hheld,
    fun hn hheld u c => exec_loop_fetchFault hn hheld⟩

end Sys2Proof.Machine
end

section
/-! # Traps on purpose, heartbeat, pre-emption points and signature checks (R150 to R156) -/
namespace Sys2Proof.Machine

open Sys2Proof.Safety

/-! ## TRAP and TRAPRET (R150, R151) -/

theorem cur_trapAt {s : State} (hk : s.slot ≠ 15) (hi : s.cur.ih = false) (cause : Cause) (a v : Word) :
    (s.trapAt cause a v).cur = s.cur.deliver (s.cycle s.core) cause a v := by
  simp [State.trapAt, Slot.trap, hk, hi]

theorem exec_trap {g : Pred} {s : State} (hg : s.acts g = true) (hk : s.slot ≠ 15) (hi : s.cur.ih = false) (code : BitVec 40) :
    exec (.trap g code) s = .next (s.trapAt .trapi s.cur.next (uimm code)) := by
  have hnext : (s.cur.ih || decide (s.slot = 15)) ≠ true := by simp [hk, hi]
  refine (guarded_acts _ hg).trans ?_
  rw [if_neg hnext]

theorem exec_trapret_returns {s : State} (hi : s.cur.ih = true) (hl : s.cur.ppl ≠ 3) : exec .trapret s = .next (s.modCur Slot.trapret) :=
  if_neg (by simpa [hi] using hl)

theorem exec_trapret_illegal {s : State} (h : s.cur.ih = false ∨ s.cur.ppl = 3) : exec .trapret s = .next (s.decodeFault .illegal) :=
  if_pos (by simpa using h)

/-! ## BEAT and SIGCHK (R153, R156) -/

theorem exec_beat {g : Pred} {s : State} (hg : s.acts g = true) :
    exec (.beat g) s = .next (s.modCur fun x => { x with hbc := 0, missed := false }).retire := guarded_acts _ hg

theorem exec_sigchk_agrees {s : State} {imm : BitVec 16} (h : s.cur.sigPrev = imm) :
    exec (.sigchk imm) s = .next (s.modCur fun x => { x with sigacc := 0xFFFF }).retire := if_pos h

theorem exec_sigchk_differs {s : State} {imm : BitVec 16} (h : s.cur.sigPrev ≠ imm) :
    exec (.sigchk imm) s =
      .next (s.modCur fun x => { x with sigacc := 0xFFFF }.mark .sigfail x.pc (s.cur.sigPrev.setWidth 64)) := by
  refine (if_neg h).trans ?_
  rw [State.modCur_modCur]

theorem Slot.mark_first {x : Slot} (h : x.kill = none) (cause : Cause) (a v : Word) :
    x.mark cause a v = { x with status := .run, kill := some ⟨cause, a, v⟩ } := by simp [Slot.mark, h]

/-! ## YPT (R154) -/

theorem Slot.advance_pending (x : Slot) : x.advance.storeBuf = x.storeBuf ∧ x.advance.posted = x.posted ∧ x.advance.regErr = x.regErr := by
  unfold Slot.advance
  dsimp only
  split
  · split <;> exact ⟨rfl, rfl, rfl⟩
  · exact ⟨rfl, rfl, rfl⟩

/-- A slot with no store on its way has all of them performed. -/
theorem settledSlot_of_idle {s : State} {c k : Nat} (hbuf : (s.slotOf c k).storeBuf = []) (hposted : (s.slotOf c k).posted = []) :
    s.settledSlot c k = some s := by
  have hdrained : s.drained c k = some s := by
    rw [State.drained, drainAll_of_empty hbuf]
    exact if_pos (List.isEmpty_iff.2 hbuf)
  have hflush : s.flushPosted c k (postedWords (s.slotOf c k).posted).length = s := by rw [hposted]; rfl
  have hdone : s.postedDone c k = some s := by
    rw [State.postedDone, hflush]
    exact if_pos (List.isEmpty_iff.2 hposted)
  rw [State.settledSlot, hdrained]
  exact hdone

theorem saveError_of_sound {s : State} {c k : Nat} (h : (s.slotOf c k).regErr = []) : s.saveError c k = none := by simp [State.saveError, h]

theorem exec_ypt_goes {g : Pred} {s : State} (hg : s.acts g = true) (h : (s.cur.preLead = false ∧ s.cur.prePreempt = false) ∨ s.slot = 15) :
    exec (.ypt g) s = .next (s.modCur fun x => { x with ptc := 0 }).retire := by
  refine (guarded_acts _ hg).trans (if_neg ?_)
  rcases h with ⟨hlead, hpre⟩ | hk
  · simp [hlead, hpre]
  · simp [hk]

theorem exec_ypt_parks {g : Pred} {s : State} (hg : s.acts g = true) (h : s.cur.preLead = true ∨ s.cur.prePreempt = true) (h15 : s.slot ≠ 15)
    (h0 : s.slot ≠ 0) (hbuf : s.cur.storeBuf = []) (hposted : s.cur.posted = []) (herr : s.cur.regErr = []) :
    exec (.ypt g) s = .next ((s.modCur fun x => { x with ptc := 0 }).retire.park s.core s.slot) := by
  obtain ⟨hb, hp, he⟩ := Slot.advance_pending { s.cur with ptc := 0 }
  have hslot : (s.modCur fun x => { x with ptc := 0 }).retire.slotOf s.core s.slot = { { s.cur with ptc := 0 }.advance with status := .run } :=
    (State.cur_retire _).trans (by rw [State.cur_modCur])
  refine (guarded_acts _ hg).trans ((if_pos (by simp [h, h15, h0])).trans ?_)
  rw [settledSlot_of_idle (by rw [hslot]; exact hb.trans hbuf) (by rw [hslot]; exact hp.trans hposted)]
  dsimp only
  rw [saveError_of_sound (by rw [hslot]; exact he.trans herr)]

/-! ## The statement -/

/-- Settles O33, clause by clause. -/
theorem checksAndTraps : Obligations.ChecksAndTraps := by
  unfold Obligations.ChecksAndTraps
  refine ⟨fun s g code hg hk hi => ⟨_, exec_trap hg hk hi code, cur_trapAt hk hi .trapi _ _, fun _ => rfl, elsewhere_modCur ..⟩,
    fun s hi hl => ⟨_, exec_trapret_returns hi hl, State.cur_modCur .., fun _ => rfl, elsewhere_modCur ..⟩,
    fun s h => exec_trapret_illegal h, fun s g hg => exec_beat hg, fun s g hg h => exec_ypt_goes hg h,
    fun s g hg h h15 h0 hbuf hposted herr => exec_ypt_parks hg h h15 h0 hbuf hposted herr, fun s imm h => exec_sigchk_agrees h,
    fun s imm h hkill => ⟨_, exec_sigchk_differs h, ?_⟩⟩
  exact (State.cur_modCur ..).trans (Slot.mark_first (x := { s.cur with sigacc := 0xFFFF }) hkill ..)

end Sys2Proof.Machine
end

section
/-! # The end of an activity (R149, R269) -/
namespace Sys2Proof.Machine

open Sys2Proof.Safety

/-! ## Statuses of copies that are awaited (R149, R252) -/

theorem statusLanded_iff {l : List (BitVec 5 × Bool)} : ¬ (l.any fun p => !p.2) = true ↔ ∀ p ∈ l, p.2 = true := by simp

theorem finish_ends {s : State} {c k : Nat} (h : ∀ p ∈ (s.slotOf c k).pendRegs, p.2 = true) : s.finish c k = s.endActivity c k :=
  if_neg (statusLanded_iff.2 h)

theorem finish_waits {s : State} {c k : Nat} (h : ∃ p ∈ (s.slotOf c k).pendRegs, p.2 = false) :
    s.finish c k = s.modSlot c k fun x => { x with status := .wait .exiting } := if_pos (by simpa using h)

theorem emptied_endActivity (s : State) (c k : Nat) : Emptied s (s.endActivity c k) c k := emptied_of_cleared (State.slotOf_modSlot ..)

/-! ## EXIT -/

theorem exec_exit_owing {g : Pred} {s : State} (hg : s.acts g = true) (h15 : s.slot ≠ 15) (h : s.obsOf s.core s.slot ≠ []) :
    exec (.exit g) s = .next (s.trap .obexit (BitVec.ofNat 64 (s.obsOf s.core s.slot).length)) :=
  (if_neg h15).trans ((guarded_acts _ hg).trans (if_pos (List.length_eq_zero_iff.not.2 h)))

theorem exec_exit_finishes {g : Pred} {s : State} (hg : s.acts g = true) (h15 : s.slot ≠ 15) (h : s.obsOf s.core s.slot = []) :
    exec (.exit g) s = .next (s.finish s.core s.slot) :=
  (if_neg h15).trans ((guarded_acts _ hg).trans (if_neg (not_not.2 (List.length_eq_zero_iff.2 h))))

/-- An activity that waited for the statuses of its copies ends once they have landed. -/
theorem exec_memoryReply_exiting {s : State} {c k : Nat} (hwait : (s.slotOf c k).status = .wait .exiting) (hclock : s.relocks c = false)
    (h : ∀ p ∈ (s.slotOf c k).pendRegs, p.2 = true) : exec (.memoryReply c k) s = .next (s.endActivity c k) := by
  have hserved : s.served c k .exiting = some (s.endActivity c k) := if_neg (statusLanded_iff.2 h)
  change execMemoryReply c k s = _
  rw [execMemoryReply, hwait]
  dsimp only
  rw [hclock, hserved]
  rfl

/-! ## The statement -/

/-- Settles O34: an activity ends by clearing its slot, at its EXIT or when the last status lands. -/
theorem activityEnd : Obligations.ActivityEnd := by
  unfold Obligations.ActivityEnd
  refine ⟨fun s g hg h15 hobs hpend => ?_, fun s g hg h15 hobs hpend => ?_, fun s c k hwait hclock hpend => ?_,
    fun s g hg h15 hobs => exec_exit_owing hg h15 hobs⟩
  · refine ⟨_, (exec_exit_finishes hg h15 hobs).trans (congrArg _ (finish_ends hpend)), emptied_endActivity .., fun _ => rfl, ?_⟩
    exact elsewhere_modCur ..
  · exact (exec_exit_finishes hg h15 hobs).trans (congrArg _ (finish_waits hpend))
  · exact ⟨_, exec_memoryReply_exiting hwait hclock hpend, emptied_endActivity .., fun _ => rfl⟩

end Sys2Proof.Machine
end

section
/-! # Every step keeps the canonical form of memory (R158, R162) -/
namespace Sys2Proof.Machine

/-- Memory lists rising addresses and no zero byte (R162). -/
structure State.Formed (s : State) : Prop where
  wf : Memory.wf s.mem = true

/-- A next state, if there is one, has canonical memory. -/
structure FormedOut (o : Out) : Prop where
  next : ∀ t, o = .next t → t.Formed

theorem FormedOut.fault (f : Fault) : FormedOut (.fault f) := ⟨fun _ e => by cases e⟩

theorem FormedOut.refused (r : Refusal) : FormedOut (.refused r) := ⟨fun _ e => by cases e⟩

theorem FormedOut.ite {a b : Out} {p : Prop} {_ : Decidable p} (ha : FormedOut a) (hb : FormedOut b) : FormedOut (if p then a else b) := by
  split
  · exact ha
  · exact hb

/-- The state that a request for room leaves has canonical memory. -/
def Room.Formed : Room → Prop
  | .ok s _ => s.Formed
  | .busy s _ _ => s.Formed
  | .full s => s.Formed

theorem Room.Formed.of_eq {r q : Room} (h : r.Formed) (e : r = q) : q.Formed := e ▸ h

/-- The state that a word of a copy leaves has canonical memory. -/
def CopyRun.Formed : CopyRun → Prop
  | .moved s _ => s.Formed
  | .failed s _ _ _ => s.Formed
  | .held => True

theorem CopyRun.Formed.of_eq {r q : CopyRun} (h : r.Formed) (e : r = q) : q.Formed := e ▸ h

/-- The state that the pick of the next move leaves has canonical memory. -/
def Pick.Formed : Pick → Prop
  | .done s => s.Formed
  | .instr _ s => s.Formed
  | .act _ s => s.Formed

theorem Pick.Formed.of_eq {r q : Pick} (h : r.Formed) (e : r = q) : q.Formed := e ▸ h

namespace State.Formed

theorem next {s : State} (h : s.Formed) : FormedOut (.next s) := ⟨fun _ e => by cases e; exact h⟩

/-- A state with the same memory. -/
theorem same {s t : State} (h : s.Formed) (e : t.mem = s.mem) : t.Formed := ⟨by rw [e]; exact h.wf⟩

theorem fst {α : Type} {r : State × α} {t : State} {x : α} (h : r.1.Formed) (e : r = (t, x)) : t.Formed := by
  rw [e] at h
  exact h

theorem foldl {α : Type} {s : State} {f : State → α → State} {l : List α} (h : s.Formed)
    (step : ∀ {u : State} {a : α}, u.Formed → (f u a).Formed) : (l.foldl f s).Formed := by
  induction l generalizing s with
  | nil => exact h
  | cons a l ih => exact ih (step h)

theorem ite {s t : State} {p : Prop} {_ : Decidable p} (hs : s.Formed) (ht : t.Formed) : (if p then s else t).Formed := by
  split
  · exact hs
  · exact ht

theorem getD {s : State} {o : Option State} (h : s.Formed) (ho : ∀ {t}, o = some t → t.Formed) : (o.getD s).Formed := by
  cases o with
  | none => exact h
  | some t => exact ho rfl

end State.Formed

end Sys2Proof.Machine
end

section
/-! # Reads, writes and translation keep the form of memory (R92 to R94, R163 to R199) -/
namespace Sys2Proof.Machine
namespace State.Formed

variable {s t : State} {c code core die k lat n pa slot v : Nat} {write : Bool} {cells : List (Nat × Byte)} {w : Wait} {ea : Word}

/-! ## Records and turns of a core (R53, R92, R94, R304) -/

theorem setCore {x : Core} (h : s.Formed) : (s.setCore c x).Formed := h.same rfl

theorem modCore {f : Core → Core} (h : s.Formed) : (s.modCore c f).Formed := h.setCore

theorem setSlot {x : Slot} (h : s.Formed) : (s.setSlot c k x).Formed := h.modCore

theorem modSlot {f : Slot → Slot} (h : s.Formed) : (s.modSlot c k f).Formed := h.setSlot

theorem modCur {f : Slot → Slot} (h : s.Formed) : (s.modCur f).Formed := h.modSlot

theorem atSlot (h : s.Formed) : (s.at c k).Formed := h.same rfl

theorem modVf {f : CoreVf → CoreVf} (h : s.Formed) : (s.modVf c v f).Formed := h.modCore

theorem modDie {d : Nat} {f : Die → Die} (h : s.Formed) : (s.modDie d f).Formed := h.same rfl

theorem modClus {f : Cluster → Cluster} (h : s.Formed) : (s.modClus c f).Formed := h.same rfl

theorem modIsl {i : Nat} {f : Island → Island} (h : s.Formed) : (s.modIsl i f).Formed := h.same rfl

theorem modBay {b : Nat} {f : Bay → Bay} (h : s.Formed) : (s.modBay c b f).Formed := h.modCore

theorem modAcc {a : Nat} {f : Acc → Acc} (h : s.Formed) : (s.modAcc c a f).Formed := h.modCore

theorem setPf {off : Nat} {v : Word} (h : s.Formed) : (s.setPf off v).Formed := h.same rfl

theorem setVfReg {off : Nat} {w : Word} (h : s.Formed) : (s.setVfReg v off w).Formed := h.same rfl

theorem land {w : Landing} (h : s.Formed) : (s.land lat w).Formed := h.modCore

theorem putS {d : Reg} {v : Word} (h : s.Formed) : (s.putS lat d v).Formed := by
  unfold State.putS
  split
  · exact h.modCur.ite h
  · exact h.land

theorem putV {d : Reg} {m : BitVec 16} {v : Vec} (h : s.Formed) : (s.putV lat d m v).Formed := by
  unfold State.putV
  split
  · exact h.modCur
  · exact h.land

theorem putP {d : PReg} {v : BitVec 16} (h : s.Formed) : (s.putP d v).Formed := h.modCur

theorem settle (h : s.Formed) : (s.settle c).Formed := h.modCore

theorem retire (h : s.Formed) : s.retire.Formed := h.modCur

theorem guarded {g : Pred} {x : Out} (h : s.Formed) (hf : FormedOut x) : FormedOut (guarded g s x) := .ite hf h.retire.next

/-! ## Counts, the L2, walks and places (R163, R166 to R169, R322) -/

theorem count (h : s.Formed) : (s.count c v code).Formed := h.ite (h.foldl fun h1 => h1.modVf)

theorem l2Pass (h : s.Formed) : (s.l2Pass v pa write).1.Formed := by
  unfold State.l2Pass
  dsimp only
  split
  · split
    · exact h
    · split
      · dsimp only
        exact h.modDie
      · exact h.same rfl
  · exact h

theorem l2Touch (h : s.Formed) : (s.l2Touch v pa write).Formed := h.l2Pass

theorem l2Access (h : s.Formed) : (s.l2Access c v pa write).Formed := h.l2Pass.count

theorem translate {pasid va : Nat} (h : s.Formed) : (s.translate c v pasid va).1.Formed := by
  unfold State.translate
  dsimp only
  split
  · dsimp only
    exact h.modCore
  · split
    · dsimp only
      exact h.count.modClus.modCore
    · split
      · exact h.count.count.foldl fun h1 => h1.l2Access
      · dsimp only
        exact (h.count.count.foldl fun h1 => h1.l2Access).modClus.modCore

theorem locate {pasid : Nat} (h : s.Formed) : (s.locate c k v pasid ea).1.Formed := by
  unfold State.locate
  split
  · split
    · exact h
    · split
      · exact h
      · exact h
  · split
    · split
      · exact h
      · exact h
    · split
      next heq => exact h.translate.fst heq
      next heq => exact h.translate.fst heq

theorem resolve {w : Want} (h : s.Formed) : (s.resolve ea w).1.Formed := by
  unfold State.resolve
  split
  · exact h
  · split
    next heq => exact h.locate.fst heq
    next heq =>
      split
      · exact h.locate.fst heq
      · exact h.locate.fst heq

/-! ## Traps, homes, the store buffer and event records (R164, R178 to R199, R331, R343) -/

theorem trap {cause : Cause} {tval : Word} (h : s.Formed) : (s.trap cause tval).Formed := h.modCur

theorem decodeFault {cause : Cause} (h : s.Formed) : (s.decodeFault cause).Formed := h.modCur

theorem hwait (h : s.Formed) : s.hwait.Formed := h.modCur

theorem wait (h : s.Formed) : (s.wait w).Formed := h.modCur

theorem hold (h : s.Formed) : (s.hold w).Formed := h.modCur

theorem rdcFetch {line : Nat} (h : s.Formed) : (s.rdcFetch die v line).Formed := by
  unfold State.rdcFetch
  exact (h.same (by rfl)).modDie.modDie

theorem readHome (h : s.Formed) : (s.readHome c pa).Formed := h.modDie.ite h

theorem readMem {home : Bool} (h : s.Formed) : (s.readMem c v home pa n).1.Formed := by
  unfold State.readMem
  dsimp only
  split
  · exact h.l2Access
  · split
    · exact h.l2Access.readHome
    · split
      · exact h.l2Access
      · split
        · exact h.count
        · exact h.count.l2Access.rdcFetch

theorem sendInvals {line : Nat} (h : s.Formed) : (s.sendInvals core slot die line).Formed := h.foldl fun h1 => h1.modDie

theorem performAt (h : s.Formed) : (s.performAt die core slot cells).Formed := by
  have written : ({ s with mem := s.mem.patch cells, poison := s.poison.filter fun a => !(wholeWords cells).elem a } : State).Formed :=
    ⟨Memory.wf_patch cells h.wf⟩
  refine written.foldl fun {u line} h1 => ?_
  have near {t : State} (ht : t.Formed) : (match rangeOf line with
      | .near _ | .far _ => t.sendInvals core slot die line
      | _ => t).Formed := by
    split
    · exact ht.sendInvals
    · exact ht.sendInvals
    · exact ht
  refine near ?_
  split
  · exact h1.modDie
  · exact h1

theorem perform (h : s.Formed) : (s.perform core slot cells).Formed := h.performAt

theorem performFor (h : s.Formed) : (s.performFor core slot v cells).Formed := (h.foldl fun h1 => h1.l2Access).perform

theorem performIo (h : s.Formed) : (s.performIo slot v cells).Formed := (h.foldl fun h1 => h1.l2Touch).performAt

theorem storeWords {a : Nat} {ws : List Word} (h : s.Formed) : (s.storeWords v a ws).Formed := by
  have written : ({ s with mem := s.mem.store a (ws.flatMap fun w => leBytes 8 w.toNat),
                           poison := s.poison.filter fun x => x < a || a + 8 * ws.length ≤ x } : State).Formed :=
    ⟨Memory.wf_store a _ h.wf⟩
  exact written.foldl fun h1 => h1.l2Touch.sendInvals

theorem poisonFrom (h : s.Formed) : (s.poisonFrom core pa).Formed := (h.same (by rfl)).modDie

theorem invalArrive {v : Inval} (h : s.Formed) : (s.invalArrive v).Formed := by
  unfold State.invalArrive
  exact h.modDie.modDie

theorem ackArrive {v : Inval} (h : s.Formed) : (s.ackArrive v).Formed := by
  unfold State.ackArrive
  exact h.modDie

theorem flushInvals (h : s.Formed) : (s.flushInvals core slot).Formed :=
  (h.foldl fun h1 => h1.foldl fun h2 => h2.invalArrive).foldl fun h1 => h1.foldl fun h2 => h2.ackArrive

theorem parkAt {b : ParkedBy} (h : s.Formed) : (s.parkAt pa core slot b).Formed := h.ite (h.same rfl)

theorem joinFetch (h : s.Formed) : (s.joinFetch w).Formed := by
  unfold State.joinFetch
  split
  · exact h.parkAt
  · exact h

theorem holdFor (h : s.Formed) : (s.holdFor w).Formed := h.hold.joinFetch

theorem holdWalk (h : s.Formed) : (s.holdWalk ea).Formed := by
  unfold State.holdWalk
  split
  · exact h.holdFor
  · exact h

theorem performEntry {e : StoreEntry} (h : s.Formed) : (s.performEntry c k e).Formed := (h.foldl fun h1 => h1.performFor).ite h.performFor

theorem keepPushed {words : List Nat} (h : s.Formed) : (s.keepPushed c k words).Formed := h.ite (h.foldl fun h1 => h1.ite h1.modVf).modDie.modSlot

theorem drain1 {stop : Bool} (h : s.Formed) (e : s.drain1 stop c k = some t) : t.Formed := by
  unfold State.drain1 at e
  split at e
  · cases e
  · split at e
    · cases e
    · dsimp only at e
      cases e
      refine modSlot ?_
      refine performEntry ?_
      split
      · exact (h.keepPushed.ite h).flushInvals
      · exact (h.keepPushed.ite h).flushInvals
      · exact h.keepPushed.ite h

theorem drainWord {idx : Nat} (h : s.Formed) (e : s.drainWord c k idx = some t) : t.Formed := by
  unfold State.drainWord at e
  dsimp only at e
  split at e
  · cases e
  · split at e
    · cases e
    · cases e
      refine modSlot ?_
      refine performFor ?_
      split
      · exact h.flushInvals
      · exact h.flushInvals
      · exact h

theorem drainAll {stop : Bool} (h : s.Formed) : (s.drainAll stop c k n).Formed := by
  induction n generalizing s with
  | zero => exact h
  | succ n ih =>
    rw [State.drainAll]
    split
    · exact h
    next heq => exact ih (h.drain1 heq)

theorem drained (h : s.Formed) (e : s.drained c k = some t) : t.Formed := by
  unfold State.drained at e
  dsimp only at e
  split at e
  · cases e
    exact h.drainAll
  · cases e

theorem release {sc : Scope} (h : s.Formed) (e : s.release sc = some t) : t.Formed := by
  unfold State.release at e
  split at e
  · cases e
  next heq =>
    have drained := h.drained heq
    split at e
    · exact Option.some.inj e ▸ drained.flushInvals
    · exact Option.some.inj e ▸ drained.flushInvals
    · exact Option.some.inj e ▸ drained
    · exact Option.some.inj e ▸ drained

theorem bufferStore {e : StoreEntry} (h : s.Formed) : (s.bufferStore e).Formed := h.modCur.retire.ite h.wait

theorem loadBytes {home pr : Bool} (h : s.Formed) : (s.loadBytes home pr pa n).1.Formed := by
  unfold State.loadBytes
  dsimp only
  split
  · exact h
  · exact h.readMem

theorem signal {f : Nat} (h : s.Formed) : (s.signal f n).Formed := by
  unfold State.signal
  dsimp only
  split
  · exact (h.same (by rfl)).ite (h.same rfl)
  · exact h.same rfl

theorem ringWrite {r : EventRec} (h : s.Formed) : (s.ringWrite v pa r).Formed := (h.same (by rfl)).ite ((h.same (by rfl)).ite h.performIo)

theorem record {ring cause tenant : Nat} {detail : List Word} (h : s.Formed) : (s.record ring v code cause core slot tenant detail).Formed := by
  unfold State.record
  dsimp only
  split
  · split
    · exact h.setVfReg
    · refine signal ?_
      split
      · exact h.ringWrite.same rfl
      · exact h.same rfl
  · split
    · exact h.setPf
    · refine signal ?_
      split
      · exact h.ringWrite.same rfl
      · exact h.same rfl

theorem event {ring cause tenant : Nat} {detail : List Word} (h : s.Formed) : (s.event ring code cause core slot tenant detail).Formed := h.record

end State.Formed
end Sys2Proof.Machine
end

section
/-! # Obligations, full/empty words and activities keep the form of memory (R204 to R209, R237 to R268) -/
namespace Sys2Proof.Machine
namespace State.Formed

variable {s : State} {c i k lat pa v : Nat} {rank : BitVec 56} {poisoned pr write : Bool} {o : Oblig} {g : Pred} {d : Reg} {f : State → State}
  {r : TaskRec} {ea obj sa : Word}

/-! ## Obligations and their spill area (R264 to R268) -/

theorem spillPlace (h : s.Formed) : (s.spillPlace c k i write).1.Formed := by
  unfold State.spillPlace
  dsimp only
  split
  next heq => exact h.locate.fst heq
  next heq => exact h.locate.fst heq

theorem spillAt {t : State} (h : s.Formed) {r : Option Place} (e : s.spillAt c k i write = .ok (t, r)) : t.Formed := by
  unfold State.spillAt at e
  dsimp only at e
  split at e
  · cases e
  · split at e
    next heq' =>
      cases e
      exact h.spillPlace.fst heq'
    next heq' =>
      split at e
      · cases e
      · cases e
        exact h.spillPlace.fst heq'

theorem findRoom (h : s.Formed) : (s.findRoom c k).Formed := by
  unfold State.findRoom
  dsimp only
  split
  · exact h
  · split
    · exact h
    · split
      · exact h
      next heq => exact (h.spillAt heq).modSlot
      next heq => exact h.spillAt heq

theorem reserveOb (h : s.Formed) : (s.reserveOb c k).Formed := by
  unfold State.reserveOb
  dsimp only
  split
  · exact h
  · split
    next heq => exact (h.findRoom.of_eq heq).modCore
    next heq => exact (h.findRoom.of_eq heq).modCore
    · exact h.findRoom

theorem freeResv (h : s.Formed) : (s.freeResv c k).Formed := h.modCore

theorem unreserve (h : s.Formed) : (s.unreserve c k).Formed := (h.freeResv.ite h).modVf.ite (h.freeResv.ite h)

theorem placeOb {spill : Option Nat} (h : s.Formed) : (s.placeOb c k o spill).Formed := by
  unfold State.placeOb
  dsimp only
  refine modCore ?_
  split
  · exact h
  · split
    · exact h
    next heq => exact h.spillAt heq
    next heq =>
      dsimp only
      exact (h.spillAt heq).performFor

theorem addOb (h : s.Formed) : (s.addOb c k o).Formed := h.freeResv.placeOb

theorem askReset (h : s.Formed) : (s.askReset v).Formed := h.setPf.ite h

theorem readSpill (h : s.Formed) : (s.readSpill c k o i).1.Formed := by
  have placed {u : State} {p : Option Place} (e : (if o.unwritten then .error .drain else s.spillAt c k i false) = .ok (u, p)) : u.Formed := by
    split at e
    · cases e
    · exact h.spillAt e
  unfold State.readSpill
  split
  · exact h
  next heq => exact placed heq
  next heq =>
    split
    · exact placed heq
    · dsimp only
      split
      · exact placed heq
      · exact placed heq

theorem recallOb (h : s.Formed) : (s.recallOb c k o).1.Formed := by
  unfold State.recallOb
  split
  · exact h
  · split
    next heq' => exact (h.readSpill.fst heq').askReset
    next heq' =>
      dsimp only
      exact (h.readSpill.fst heq').modCore

theorem afterRecall {o : Option Oblig} {f : State → Out} (h : s.Formed) (hf : ∀ {u}, u.Formed → FormedOut (f u)) :
    FormedOut (s.afterRecall o f) := by
  unfold State.afterRecall
  split
  · exact h.holdFor.next
  · exact hf h

theorem writeSpill (h : s.Formed) : (s.writeSpill c o).Formed := by
  unfold State.writeSpill
  split
  · exact h
  · split
    · exact h
    next heq' =>
      dsimp only
      refine modCore ?_
      split
      · exact (h.spillAt heq').performFor
      · exact h.spillAt heq'

theorem writeSpills (h : s.Formed) : s.writeSpills.Formed := h.foldl fun h1 => h1.foldl fun h2 => h2.writeSpill

theorem recallObs (h : s.Formed) : (s.recallObs c k).Formed := h.foldl fun h1 => h1.recallOb

theorem dropOb (h : s.Formed) : (s.dropOb c o).Formed := h.modCore

theorem syncBump {f : Nat → Nat} (h : s.Formed) : (s.syncBump v pa f).Formed := h.same rfl

theorem discharge {kind : ObKind} (h : s.Formed) : (s.discharge c k kind obj).1.Formed := by
  unfold State.discharge
  split
  · exact h
  · split
    next heq' => exact (h.recallOb.fst heq').dropOb

/-! ## Deferred lists and sync slots (R204 to R209, R276) -/

theorem asSlot (h : s.Formed) (hf : ∀ {u}, u.Formed → (f u).Formed) : (s.asSlot c k f).Formed := (hf h.atSlot).atSlot

theorem replyS {v : Word} (h : s.Formed) : (s.replyS c k d v).Formed := h.asSlot fun h1 => h1.putS.retire

theorem replyTrap {cause : Cause} {tval : Word} (h : s.Formed) : (s.replyTrap c k cause tval).Formed := h.asSlot fun h1 => h1.freeResv.trap

theorem setFull {b : Bool} (h : s.Formed) : (s.setFull pa b).Formed := h.same rfl

theorem setPoison (h : s.Formed) : (s.setPoison pa).Formed := h.same rfl

theorem countJoin {r : Req} (h : s.Formed) : (s.countJoin c k r).Formed := by
  unfold State.countJoin
  split
  · exact h
  · exact h.count

theorem join {r : Req} (h : s.Formed) : (s.join c k pa r).Formed := (h.ite h.countJoin).same rfl

theorem unjoin {w : Waiter} (h : s.Formed) : (s.unjoin w).Formed := h.same rfl

theorem vldsGot {w : VldsWord} {v : Word} (h : s.Formed) : (s.vldsGot c k w v poisoned).Formed := by
  unfold State.vldsGot
  split
  · dsimp only
    split
    · split
      · exact h.replyTrap
      · exact h.asSlot fun h1 => h1.putV.retire
    · exact h.modSlot
  · exact h

theorem serveOne {w : Waiter} {v : Word} (h : s.Formed) : (s.serveOne w v poisoned).Formed := by
  unfold State.serveOne
  dsimp only
  split
  · exact h.unjoin.replyTrap.ite h.unjoin.readHome.replyS
  · exact h.unjoin.readHome.vldsGot
  · exact h.unjoin.replyTrap.ite h.unjoin.readHome.addOb.replyS
  · exact h.unjoin

theorem serveList {v : Word} {ws : List Waiter} (h : s.Formed) : (s.serveList pa v poisoned ws).Formed := by
  induction ws generalizing s with
  | nil => exact h.setFull
  | cons w ws ih => exact h.serveOne.ite (ih h.serveOne)

theorem serveWord (h : s.Formed) : (s.serveWord pa).Formed := h.serveList

theorem actLds (h : s.Formed) : (s.actLds d ea pa pr rank).Formed := (h.trap.ite h.readHome.putS.retire).ite h.join.wait

theorem actVldsWord {w : VldsWord} (h : s.Formed) : (s.actVldsWord w).Formed := h.readHome.vldsGot.ite h.join

theorem actTake (h : s.Formed) : (s.actTake d ea pa pr obj rank).Formed := by
  unfold State.actTake
  split
  · exact h.freeResv.trap.ite h.readHome.setFull.addOb.putS.retire
  · exact h.join.wait

theorem actTakenb (h : s.Formed) : (s.actTakenb d ea pa pr obj rank).Formed := by
  unfold State.actTakenb
  split
  · exact h.freeResv.trap.ite h.readHome.setFull.addOb.putS.putP.retire
  · exact h.freeResv.putP.retire

theorem serveSync (h : s.Formed) : (s.serveSync pa).Formed := by
  unfold State.serveSync
  refine foldl h fun h1 => ?_
  split
  · exact h1.unjoin.readHome.replyS.ite h1
  · exact h1

theorem writeWord {v : Word} (h : s.Formed) : (s.writeWord c k pa v).Formed := h.perform

theorem syncUpdate {w0 : Word} (h : s.Formed) : (s.syncUpdate c k pa w0).Formed := h.writeWord.serveSync

theorem actSyinit {w0 : Word} {owe : Option ObKind} {d : Option Reg} (h : s.Formed) : (s.actSyinit sa pa obj rank w0 owe d).Formed := by
  unfold State.actSyinit
  dsimp only
  split
  · exact h.modVf.freeResv.trap
  · split
    · refine retire ?_
      refine putS ?_
      split
      · exact h.modVf.writeWord.writeWord.modVf.addOb
      · exact h.modVf.writeWord.writeWord.modVf
    · refine retire ?_
      split
      · exact h.modVf.writeWord.writeWord.modVf.addOb
      · exact h.modVf.writeWord.writeWord.modVf

theorem syncPaid {kind : ObKind} (h : s.Formed) : (s.syncPaid kind obj pa).Formed := by
  unfold State.syncPaid
  split
  next heq => exact (h.discharge.fst heq).syncBump
  next heq => exact h.discharge.fst heq

theorem actSyadd {v : Word} (h : s.Formed) : (s.actSyadd sa pa obj v).Formed := by
  unfold State.actSyadd
  dsimp only
  split
  · exact h.syncUpdate.syncPaid.retire
  · exact h.trap

theorem actSyarrive (h : s.Formed) : (s.actSyarrive d sa pa obj).Formed := by
  unfold State.actSyarrive
  dsimp only
  split
  · exact h.syncUpdate.syncPaid.putS.retire
  · exact h.trap

theorem actObowe (h : s.Formed) : (s.actObowe sa pa obj).Formed := by
  unfold State.actObowe
  dsimp only
  split
  · exact h.addOb.syncBump.retire
  · exact h.addOb.syncBump.retire
  · exact h.freeResv.trap

theorem holdPacket {p : Packet} (h : s.Formed) : (s.holdPacket pa p).Formed := by
  unfold State.holdPacket
  split
  · exact h
  · exact h.ite h.modClus

theorem unlist (h : s.Formed) : (s.unlist c k).Formed := by
  unfold State.unlist
  exact (h.same (by rfl)).unreserve.modCore

/-! ## Tasks and the end of an activity (R149, R237 to R242) -/

theorem reclaim (h : s.Formed) : (s.reclaim c k o).Formed := by
  unfold State.reclaim
  split
  · dsimp only
    split
    · exact h.modBay
    · exact h
  · exact h

theorem giveOb (h : s.Formed) : (s.giveOb c k o).Formed := by
  unfold State.giveOb
  dsimp only
  split
  next heq => exact (h.reclaim.findRoom.of_eq heq).placeOb
  next heq => exact (h.reclaim.findRoom.of_eq heq).placeOb
  next heq => exact (h.reclaim.findRoom.of_eq heq).modCore

theorem dispatchRec (h : s.Formed) : (s.dispatchRec c k v r).Formed := by
  unfold State.dispatchRec
  dsimp only
  split
  · exact h.setSlot.foldl fun h1 => h1.giveOb
  · exact (h.setSlot.foldl fun h1 => h1.giveOb).giveOb

theorem dqPlace (h : s.Formed) : (s.dqPlace c v i write).1.Formed := by
  unfold State.dqPlace
  dsimp only
  split
  next heq => exact h.locate.fst heq
  next heq => exact h.locate.fst heq

theorem spillFault {refill : Bool} (h : s.Formed) : (s.spillFault c v ea refill).Formed := h.ite h.modVf.event

theorem spillOldest (h : s.Formed) : (s.spillOldest c v).Formed := by
  unfold State.spillOldest
  dsimp only
  split
  · exact h
  · split
    · exact h
    · split
      · exact h
      next heq'' => exact (h.dqPlace.fst heq'').modVf.spillFault
      next heq'' =>
        split
        · exact h.dqPlace.fst heq''
        · exact (h.dqPlace.fst heq'').performFor.modVf

theorem readRec (h : s.Formed) : (s.readRec c v i r).1.Formed := by
  unfold State.readRec
  split
  · exact h
  next heq' => exact (h.dqPlace.fst heq').spillFault
  next heq' =>
    split
    · exact h.dqPlace.fst heq'
    · split
      · exact (h.dqPlace.fst heq').askReset
      · exact h.dqPlace.fst heq'

theorem refill (h : s.Formed) : (s.refill c v).Formed := by
  unfold State.refill
  dsimp only
  split
  · exact h
  · split
    · exact h
    · split
      next heq' => exact h.readRec.fst heq'
      next heq' => exact (h.readRec.fst heq').modVf

theorem roomDq (h : s.Formed) : (s.roomDq c v).Formed := by
  unfold State.roomDq
  dsimp only
  split
  · exact h
  · exact h.spillOldest

theorem reserveDq (h : s.Formed) : (s.reserveDq c v k).Formed := by
  unfold State.reserveDq
  split
  · exact h
  · split
    next heq => exact (h.roomDq.of_eq heq).modVf
    · exact h.roomDq

theorem pushRec (h : s.Formed) : (s.pushRec c v r).Formed := h.modVf

theorem popRec {t : State} (h : s.Formed) {r : TaskRec} (e : s.popRec c v = some (t, r)) : t.Formed := by
  unfold State.popRec at e
  dsimp only at e
  split at e
  · cases e
  · cases e
    exact h.modVf

theorem stealRec {victim thief : Nat} (h : s.Formed) : (s.stealRec victim v thief).1.Formed := by
  unfold State.stealRec
  dsimp only
  split
  · split
    · exact h
    · split
      · dsimp only
        exact h.modVf
      · exact h
  · split
    next heq' =>
      split
      · exact h.readRec.fst heq'
      · split
        · dsimp only
          exact (h.readRec.fst heq').modVf
        · exact h.readRec.fst heq'
    next heq' => exact h.readRec.fst heq'
    next heq' =>
      split
      · dsimp only
        exact (h.readRec.fst heq').modVf
      · exact h

theorem endActivity (h : s.Formed) : (s.endActivity c k).Formed := h.modSlot

theorem finish (h : s.Formed) : (s.finish c k).Formed := h.modSlot.ite h.endActivity

theorem forkPush (h : s.Formed) : (s.forkPush r).Formed := h.modCore.modVf.pushRec.putP.retire

theorem actForkJoin (h : s.Formed) : (s.actForkJoin sa pa r).Formed := by
  unfold State.actForkJoin
  dsimp only
  split
  · exact h.syncUpdate.syncBump.forkPush
  · exact h.modVf.trap

theorem actTaskArrive (h : s.Formed) : (s.actTaskArrive sa pa).Formed := by
  unfold State.actTaskArrive
  dsimp only
  split
  · refine .finish ?_
    split
    · exact h.syncUpdate.syncBump.recallOb.dropOb
    · exact h.syncUpdate.syncBump
  · exact h.trap

theorem actHome {x1 : Req} (h : s.Formed) : (s.actHome x1).Formed := by
  unfold State.actHome
  split
  · exact h.actLds
  · exact h.wait.foldl fun h1 => h1.actVldsWord
  · exact h.actVldsWord
  · exact h.actTake
  · exact h.actTakenb
  · exact h.trap.ite h.perform.serveWord.discharge.retire
  · exact (h.ite h.serveWord).discharge.retire
  · exact h.setFull.retire
  · exact h.putS.retire
  · exact h.actSyinit
  · exact h.actSyadd
  · exact h.actSyarrive
  · exact h.trap.ite (h.trap.ite (h.readHome.putS.retire.ite h.join.wait))
  · exact h.trap.ite h.readHome.putS.retire
  · exact h.trap.ite h.writeWord.writeWord.modVf.retire
  · exact h.actObowe
  · exact h.trap.ite h.putS.retire
  · exact h.actForkJoin
  · exact h.actTaskArrive
  · exact h
  · exact h
  · exact h
  · exact h
  · exact h
  · exact h
  · exact h

/-! ## System registers (R96) -/

theorem writeSys {n : SysReg} {v : Word} (h : s.Formed) : (s.writeSys n v).Formed := by
  unfold State.writeSys
  split
  · exact h.land
  · exact h.ite h.modCur
  · exact h.modCur

/-! ## Shapes of a result (R61) -/

theorem addFlags {f : FFlags} (h : s.Formed) : (s.addFlags f).Formed := h.modCur

theorem scalarResult {v : Word} (h : s.Formed) : FormedOut (scalarResult g s lat d v) := h.guarded h.putS.retire.next

theorem predResult {d : PReg} {v : BitVec 16} (h : s.Formed) : FormedOut (predResult g s d v) := h.guarded h.putP.retire.next

theorem divideResult {v : Word} (h : s.Formed) : FormedOut (divideResult g s d v) := h.guarded h.wait.next

theorem vectorResult {v : Vec} (h : s.Formed) : FormedOut (vectorResult g s lat d v) := h.guarded h.putV.retire.next

theorem maskResult {d : PReg} {f : Nat → Bool} (h : s.Formed) : FormedOut (maskResult g s d f) := h.guarded h.putP.retire.next

theorem floatResult {f : Nat → Lane × FFlags} (h : s.Formed) : FormedOut (floatResult g s lat d f) := h.guarded h.putV.addFlags.retire.next

theorem floatMask {d : PReg} {f : Nat → Bool} {fl : Nat → FFlags} (h : s.Formed) : FormedOut (floatMask g s d f fl) :=
  h.guarded h.putP.addFlags.retire.next

theorem floatDivide {f : Nat → Lane × FFlags} (h : s.Formed) : FormedOut (floatDivide g s d f) := h.guarded h.wait.next

theorem narrowResult {w p : Nat} {f : Nat → Nat × FFlags} (h : s.Formed) : FormedOut (narrowResult g s lat d w p f) :=
  h.guarded h.putV.addFlags.retire.next

/-! ## Saved images (R338) -/

theorem patchCtx {tenant : Nat} {old new : List Word} (h : s.Formed) : (s.patchCtx v tenant c k old new).Formed := by
  unfold State.patchCtx
  split
  · exact h
  · exact h.foldl fun h1 => h1.ite h1.storeWords

theorem landAll (h : s.Formed) : (s.landAll c v).Formed := h.modCore

theorem inImage {sv : Saved} {late : Option Wait} (h : s.Formed) (hf : ∀ {u}, u.Formed → (f u).Formed) : (s.inImage sv late f).Formed := by
  unfold State.inImage
  dsimp only
  split
  all_goals
    constructor
    simp only [State.modCore_mem, State.modVf_mem, State.setSlot_mem]
  · exact (hf h.setSlot.modVf.modCore).landAll.wf
  · exact (hf h.setSlot.modVf.modCore).landAll.patchCtx.wf

theorem lateReply {sv : Saved} (h : s.Formed) (hf : ∀ {u}, u.Formed → (f u).Formed) : (s.lateReply sv f).Formed := by
  unfold State.lateReply
  exact h.inImage fun h1 => (h1.setSlot.asSlot hf).modSlot

theorem tell {e : TsEntry} (h : s.Formed) (hf : ∀ {u}, u.Formed → (f u).Formed) : (s.tell e f).Formed := by
  unfold State.tell
  dsimp only
  split
  · exact h.asSlot hf
  · split
    · exact h.lateReply hf
    · exact h

theorem dropTs {gen : BitVec 32} (h : s.Formed) : (s.dropTs c k gen).Formed := h.same rfl

theorem lateOver {gen : BitVec 32} (h : s.Formed) : (s.lateOver c k gen).Formed := h.same rfl

end State.Formed
end Sys2Proof.Machine
end

section
/-! # Tuple slices and containment keep the form of memory (R263 to R300, R336, R337, R342) -/
namespace Sys2Proof.Machine
namespace State.Formed

variable {s : State} {c j k n tenant v : Nat} {poisoned : Bool} {cause : Byte} {obs : List Oblig} {launch : Option Nat} {e : TsEntry} {t : Vec}

/-! ## Tuple regions (R286 to R300) -/

theorem sliceWrite {pa : Nat} {bs : List Byte} (h : s.Formed) : (s.sliceWrite n pa bs).Formed := h.perform.flushInvals

theorem takeSeq (h : s.Formed) : (s.takeSeq n j).1.Formed := by
  unfold State.takeSeq
  dsimp only
  exact h.sliceWrite

theorem bumpStored {up : Bool} (h : s.Formed) : (s.bumpStored n j up).Formed := h.sliceWrite

theorem storeAt {i seq : Nat} (h : s.Formed) : (s.storeAt n j i seq t poisoned).Formed := h.sliceWrite.bumpStored

theorem tsDrop (h : s.Formed) : (s.tsDrop e).Formed := h.same rfl

theorem tellTrap {cause : Cause} {tval : Word} (h : s.Formed) : (s.tellTrap e cause tval).Formed := h.tell fun h1 => h1.freeResv.trap

theorem tsPark {seq : Nat} {rank : BitVec 56} (h : s.Formed) : (s.tsPark e seq rank).Formed :=
  (h.same (by rfl)).ite (h.tsDrop.ite (h.same (by rfl)).count.modSlot)

theorem tsGive (h : s.Formed) : (s.tsGive e t poisoned).Formed := by
  unfold State.tsGive
  dsimp only
  split
  · split
    · exact h.tsDrop.tellTrap
    · exact h.tsDrop.tell fun h1 => (h1.putP.ite h1).putV.retire
  · split
    · exact h.tsDrop.tellTrap
    · exact h.tsDrop.tell fun h1 => (h1.putP.ite h1).putV.retire
  · exact h.tsDrop

theorem tsDone (h : s.Formed) : (s.tsDone e).Formed := by
  unfold State.tsDone
  dsimp only
  split
  · exact h.tsDrop
  · split
    · exact h.tsDrop.tell fun h1 => (h1.discharge.ite h1).retire
    · exact h.tsDrop

theorem tsOffer (h : s.Formed) : (s.tsOffer n j t poisoned).1.Formed := by
  unfold State.tsOffer
  dsimp only
  split
  · exact (h.foldl fun h1 => h1.tsGive).tsGive
  · exact h.foldl fun h1 => h1.tsGive

theorem tsAdmit {fuel : Nat} (h : s.Formed) : (s.tsAdmit n j fuel).Formed := by
  induction fuel generalizing s with
  | zero => exact h
  | succ fuel ih =>
    rw [State.tsAdmit]
    split
    · dsimp only
      split
      next heq => exact ih (h.tsOffer.fst heq).tsDone
      next heq => exact ih (h.tsOffer.fst heq).storeAt.tsDone
    · exact h

theorem tsDeposit (h : s.Formed) : (s.tsDeposit e).Formed := by
  unfold State.tsDeposit
  dsimp only
  split
  next heq => exact (h.takeSeq.tsOffer.fst heq).tsDone
  next heq =>
    have offered := h.takeSeq.tsOffer.fst heq
    split
    · exact offered.storeAt.tsDone
    · exact offered.tsDrop.tellTrap.ite offered.tsPark

theorem tsRemove {index : Option Nat} {dep : Option TsEntry} (h : s.Formed) : (s.tsRemove n j index dep).Formed := by
  unfold State.tsRemove
  split
  · exact h.sliceWrite.bumpStored.tsAdmit
  · exact h.tsDone
  · exact h

theorem tsServe (h : s.Formed) : (s.tsServe e).Formed := by
  unfold State.tsServe
  dsimp only
  split
  · exact h.tsDeposit
  · exact h.tsDrop.tell fun h1 => h1.addOb.putS.retire
  · exact h.tsDrop.tell fun h1 => h1.putS.retire
  · split
    · exact h.tsGive.tsRemove.ite h.tsGive
    · split
      · exact h.tsDrop.tell fun h1 => h1.putP.retire
      · exact h.tsDrop.tellTrap.ite h.tsPark
  · split
    · exact h.tsGive.tsRemove.ite h.tsGive
    · split
      · exact h.tsDrop.tell fun h1 => h1.putP.retire
      · exact h.tsDrop.tellTrap.ite h.tsPark

theorem tsArrive (h : s.Formed) : (s.tsArrive e).Formed := (h.parkAt.ite h).ite (h.tsDrop.tellTrap.ite h.tsServe)

/-! ## Orphans, handlers, kills and resets (R25, R270, R336, R337, R342) -/

theorem passBay {b : Nat} (h : s.Formed) : (s.passBay c v b poisoned).Formed := by
  unfold State.passBay
  split
  · exact h
  · dsimp only
    split
    · exact (h.modBay.ite h).modBay
    · exact (h.modBay.ite h).modBay.addOb.asSlot fun h1 => h1.retire

theorem poisonOb {o : Oblig} (h : s.Formed) : (s.poisonOb c k v tenant o).Formed := by
  unfold State.poisonOb
  split
  · split
    · exact h
    · exact h.holdPacket.ite (h.setPoison.serveWord.ite h)
  · split
    · exact h
    · split
      · exact h.holdPacket
      · dsimp only
        refine syncBump ?_
        split
        · exact h.syncUpdate
        · exact h
  · split
    · exact h
    · split
      · exact h.holdPacket
      · dsimp only
        refine syncBump ?_
        split
        · exact h.syncUpdate
        · exact h
  · exact h.modSlot
  · exact (h.same (by rfl)).tsDeposit.ite h
  · exact h.passBay

theorem deviceSend {m : Msg} (h : s.Formed) : (s.deviceSend c m).Formed := h.modVf

theorem sendOrphans {target : Nat} {route : Bool} {gh kh : Word} (h : s.Formed) :
    (s.sendOrphans c v tenant target launch cause route gh kh obs).Formed := h.foldl fun h1 => h1.deviceSend

theorem handlerReport {addr : Word} (h : s.Formed) : (s.handlerReport c v tenant cause addr).Formed := h.event

theorem poisonLeft (h : s.Formed) : (s.poisonLeft c v tenant launch obs).Formed := h.ite (h.foldl fun h1 => h1.poisonOb).handlerReport

theorem toSupervisor {kh : Word} (h : s.Formed) : (s.toSupervisor c v tenant launch cause kh obs).Formed := by
  unfold State.toSupervisor
  split
  · exact h.sendOrphans
  · exact h.poisonLeft

theorem moveAll {t : State} {l : List Oblig} (h : s.Formed) (e : s.moveAll c k l = some t) : t.Formed := by
  induction l generalizing s with
  | nil =>
    cases e
    exact h
  | cons o l ih =>
    rw [State.moveAll] at e
    split at e
    · cases e
    · split at e
      next heq => exact ih (h.reclaim.findRoom.of_eq heq).placeOb e
      next heq => exact ih (h.reclaim.findRoom.of_eq heq).placeOb e
      · cases e

theorem passObs (h : s.Formed) : (s.passObs c k cause).1.Formed := by
  unfold State.passObs
  dsimp only
  split
  · dsimp only
    exact h.recallObs.modCore
  · dsimp only
    split
    · exact h.recallObs.modCore.toSupervisor
    · split
      · exact h.recallObs.modCore.toSupervisor
      · split
        · exact h.recallObs.modCore.toSupervisor
        · split
          · exact h.recallObs.modCore.toSupervisor
          next heq' => exact (h.recallObs.modCore.moveAll heq').sendOrphans

theorem endHandler (h : s.Formed) : (s.endHandler c v).Formed := h.modVf.modSlot

theorem abandonHandler (h : s.Formed) : (s.abandonHandler c cause).Formed := by
  unfold State.abandonHandler
  dsimp only
  refine endHandler ?_
  refine handlerReport ?_
  split
  · exact h.unlist.recallObs.modCore.foldl fun h1 => h1.poisonOb
  · exact h.unlist.recallObs.modCore.toSupervisor

theorem killAct {r : KillRec} (h : s.Formed) : (s.killAct c k r).Formed := by
  unfold State.killAct
  dsimp only
  exact h.passObs.event.modSlot

theorem killSlot {r : KillRec} (h : s.Formed) : (s.killSlot c k r).Formed := h.unlist.killAct

theorem refuseReply {m : Msg} (h : s.Formed) : (s.refuseReply c m).Formed := h.poisonOb.ite h.poisonLeft

theorem discardDeque (h : s.Formed) : (s.discardDeque c v tenant cause).Formed := h.modVf.toSupervisor

theorem discardInbox (h : s.Formed) : (s.discardInbox c v).Formed := h.modVf.foldl fun h1 => h1.refuseReply

theorem sendGangFaults (h : s.Formed) : (s.sendGangFaults c v).Formed := h.foldl fun h1 => h1.deviceSend

theorem fenceVf (h : s.Formed) : (s.fenceVf c v).Formed := by
  unfold State.fenceVf
  dsimp only
  refine event ?_
  refine sendGangFaults ?_
  refine discardInbox ?_
  refine discardDeque ?_
  split
  · exact ((h.same (by rfl)).foldl fun h1 => h1.killSlot).abandonHandler
  · exact (h.same (by rfl)).foldl fun h1 => h1.killSlot

theorem zeroWhere {gone : Nat → Bool} (h : s.Formed) : (s.zeroWhere gone).Formed := ⟨Memory.wf_filter _ h.wf⟩

theorem zeroMem (h : s.Formed) : (s.zeroMem v).Formed := by
  have zeroed := h.zeroWhere (gone := fun a => s.inVf v (s.vfPages v) a && !s.heldHome a)
  exact ⟨zeroed.wf⟩

/-! ## Counts of cycles (R304, R322) -/

theorem reclock {i : Nat} {f : Island → Island} (h : s.Formed) : (s.reclock i f).Formed := by
  unfold State.reclock
  exact h.modIsl

theorem countN {code : Nat} (h : s.Formed) : (s.countN c v code n).Formed := by
  induction n generalizing s with
  | zero => exact h
  | succ n ih => exact ih h.count

theorem passSeats {a b : Nat} (h : s.Formed) : (s.passSeats c k a b).Formed := by
  unfold State.passSeats
  dsimp only
  split
  · exact h
  · split
    · split
      · exact h.modSlot.countN
      · exact h.modSlot.countN
    · split
      · exact h.countN.ite h
      · exact h

theorem advance {tick : Nat} (h : s.Formed) : (s.advance tick).Formed := h.ite ((h.foldl fun h1 => h1.foldl fun h2 => h2.passSeats).same rfl)

theorem countSeat (h : s.Formed) : (s.countSeat c k).Formed := h.modSlot.ite h

end State.Formed
end Sys2Proof.Machine
end

section
/-! # Posted writes, contexts and turns keep the form of memory (R188, R203, R304 to R313, R338, R358) -/
namespace Sys2Proof.Machine
namespace State.Formed

variable {s t : State} {c k n reason tenant v w : Nat} {sel : Nat → Bool}

/-! ## Posted writes and held packets (R203, R248, R358) -/

theorem linkDown {port m : Nat} {addr : Word} (h : s.Formed) : (s.linkDown v c k tenant port m addr).Formed := h.event.record

theorem postAct {e : Posted} (h : s.Formed) : (s.postAct c k e w).Formed := h.ite (h.perform.serveWord.ite h.perform)

theorem postWord {i : Nat} (h : s.Formed) : (s.postWord c k i w).Formed := by
  unfold State.postWord
  split
  · exact h
  · exact h.modSlot.postAct.modSlot

theorem flushPosted (h : s.Formed) : (s.flushPosted c k n).Formed := by
  induction n generalizing s with
  | zero => exact h
  | succ n ih =>
    rw [State.flushPosted]
    split
    · exact h
    · exact ih h.postWord

theorem postedDone (h : s.Formed) (e : s.postedDone c k = some t) : t.Formed := by
  unfold State.postedDone at e
  dsimp only at e
  split at e
  · cases e
    exact h.flushPosted
  · cases e

theorem postedTo (h : s.Formed) (e : s.postedTo c k w n = some t) : t.Formed := by
  induction n generalizing s with
  | zero =>
    cases e
    exact h
  | succ n ih =>
    rw [State.postedTo] at e
    split at e
    · cases e
      exact h
    · dsimp only at e
      split at e
      · exact ih h.postWord e
      · split at e
        · cases e
        · split at e
          · cases e
          · exact ih h.postWord e

theorem replyAct {r : PostedReply} (h : s.Formed) : (s.replyAct c k r).Formed := by
  unfold State.replyAct
  split
  · exact h.linkDown.ite h
  · split
    · exact h
    · dsimp only
      refine serveWord ?_
      split
      · exact h.perform
      · exact h.setPoison

theorem replyWord {i : Nat} (h : s.Formed) : (s.replyWord c k i).Formed := by
  unfold State.replyWord
  split
  · exact h
  · exact h.modSlot.replyAct

theorem flushReplies (h : s.Formed) : (s.flushReplies c k n).Formed := by
  induction n generalizing s with
  | zero => exact h
  | succ n ih =>
    rw [State.flushReplies]
    split
    · exact h
    · exact ih h.replyWord

theorem putPacket {pa : Nat} {old new : Packet} (h : s.Formed) : (s.putPacket pa old new).Formed := by
  unfold State.putPacket
  split
  · exact h
  · exact h.modClus

theorem sweepHeld (h : s.Formed) : (s.sweepHeld c k v tenant).Formed := by
  unfold State.sweepHeld
  dsimp only
  refine modSlot ?_
  refine foldl (h.foldl fun h1 => h1.foldl fun h2 => h2.putPacket) fun h1 => ?_
  split
  · exact h1
  · exact h1.putPacket

theorem sweepSlot (h : s.Formed) : (s.sweepSlot c k v tenant).Formed := h.drainAll.flushPosted.flushReplies.sweepHeld

theorem releasePacket {p : Packet} (h : s.Formed) : (s.releasePacket p).Formed := by
  unfold State.releasePacket
  split
  · split
    · exact h.replyWord
    · exact h
  · split
    · exact h.postWord
    · exact h
  · split
    · exact h.asSlot fun h1 => h1.actHome
    · exact h
  · exact h.poisonOb
  · exact h.foldl fun h1 => h1.postAct
  · exact h.replyAct
  · exact h.zeroWhere

theorem releaseIngress (h : s.Formed) : (s.releaseIngress n).Formed := h.ite (h.foldl fun h1 => h1.ite h1.modClus.releasePacket)

/-! ## Contexts, stops and restores (R307 to R309, R338 to R341) -/

theorem writeCtx {reissue : Bool} (h : s.Formed) : (s.writeCtx c k reason reissue).Formed := by
  unfold State.writeCtx
  dsimp only
  split
  · exact h.recallObs
  · exact h.recallObs.storeWords

theorem withdraw (h : s.Formed) : (s.withdraw c k).Formed := by
  unfold State.withdraw
  split
  · exact h.unlist.modSlot
  · exact h

theorem settledSlot (h : s.Formed) (e : s.settledSlot c k = some t) : t.Formed := by
  unfold State.settledSlot at e
  split at e
  · cases e
  next heq => exact (h.drained heq).postedDone e

theorem park (h : s.Formed) : (s.park c k).Formed := h.withdraw.modSlot.writeCtx

theorem saveError (h : s.Formed) (e : s.saveError c k = some t) : t.Formed := by
  unfold State.saveError at e
  dsimp only at e
  split at e
  · cases e
  · cases e
    exact h.modSlot

theorem parkWaiting (h : s.Formed) : (s.parkWaiting c k).Formed := by
  unfold State.parkWaiting
  split
  · split
    · split
      next heq'' =>
        split
        · exact (h.settledSlot heq'').killSlot
        · exact (h.settledSlot heq'').park
      · exact h
    · exact h
  · exact h

theorem moveOut {late : Option Wait} (h : s.Formed) : (s.moveOut c k reason late).Formed := by
  unfold State.moveOut
  exact (h.same (by rfl)).modCore.modSlot

theorem stopSlot (h : s.Formed) : (s.stopSlot c k).1.Formed := by
  have swept := h.sweepSlot (c := c) (k := k) (v := (s.slotOf c k).vfid.toNat) (tenant := (s.slotOf c k).tenant.toNat)
  have saved {u : State} {f : Slot → Slot} {r r' : Nat} {b : Bool} {late : Option Wait} (h1 : u.Formed) :
      (((u.modSlot c k f).writeCtx c k r b).moveOut c k r' late).Formed := h1.modSlot.writeCtx.moveOut
  unfold State.stopSlot
  dsimp only
  split
  · exact h.killSlot
  · split
    next heq =>
      split
      · exact (h.saveError heq).killSlot
      · exact h.saveError heq
    · split
      · exact swept.writeCtx.moveOut
      · refine saved ?_
        split
        · constructor
          dsimp only
          exact swept.withdraw.wf
        · exact swept.withdraw
      · exact saved swept

theorem saveCore (h : s.Formed) : (s.saveCore v tenant c).Formed := by
  unfold State.saveCore
  exact (h.same (by rfl)).modCore

theorem saveWindows (h : s.Formed) : (s.saveWindows v tenant sel).Formed := ⟨Memory.wf_filter _ h.wf⟩

theorem dropWays {rdc l2 : Nat} (h : s.Formed) : (s.dropWays rdc l2).Formed := h.same rfl

theorem saveShared (h : s.Formed) : (s.saveShared v tenant).Formed := h.same rfl

theorem readCtx (h : s.Formed) : (s.readCtx c k reason).Formed := by
  unfold State.readCtx
  dsimp only
  split
  · exact h
  · exact h.ite (h.modSlot.ite h.modSlot.modCore)

theorem restoreAct {sv : Saved} (h : s.Formed) : (s.restoreAct sv).Formed := by
  have dropped := h.unlist (c := sv.core) (k := sv.slot) |>.dropTs (c := sv.core) (k := sv.slot) (gen := sv.act.gen)
  unfold State.restoreAct
  dsimp only
  refine modSlot (readCtx (modCore (setSlot ?_)))
  exact ⟨dropped.wf⟩

theorem restoreCore {t : TenantCore} (h : s.Formed) : (s.restoreCore t).Formed := by
  unfold State.restoreCore
  exact (h.same (by rfl)).modCore

theorem restoreMem {t : TenantMem} (h : s.Formed) : (s.restoreMem t sel).Formed := by
  unfold State.restoreMem
  refine foldl ?_ fun h1 => h1.modDie
  exact ⟨Memory.wf_patch _ h.wf⟩

theorem sweepSlots (h : s.Formed) : (s.sweepSlots v tenant).Formed := h.foldl fun h1 => h1.foldl fun h2 => h2.sweepSlot.ite h2

theorem residue (h : s.Formed) : (s.residue v).Formed := by
  unfold State.residue
  split
  · exact h
  · exact (h.sweepSlots.foldl fun h1 => h1.saveCore).saveWindows.saveShared

theorem restoreWhere {onCore : Nat → Bool} (h : s.Formed) : (s.restoreWhere v tenant onCore sel).Formed :=
  ((h.foldl fun h1 => h1.restoreMem).foldl fun h1 => h1.restoreCore).foldl fun h1 => h1.restoreAct

theorem restoreTenant (h : s.Formed) : (s.restoreTenant v tenant).Formed := h.restoreWhere

theorem lateLand {sv : Saved} (h : s.Formed) : (s.lateLand sv).Formed := by
  unfold State.lateLand
  split
  · exact h.lateOver
  · exact h.tsArrive.dropTs.lateOver

/-! ## Rows, commits and turn edges (R304 to R313) -/

theorem setReason {code : Nat} (h : s.Formed) : (s.setReason code).Formed := h.setPf

theorem commit {w : Word} (h : s.Formed) : (s.commit w).Formed := by
  unfold State.commit
  split
  · exact h.setReason
  · exact h.same rfl

theorem shortfall {r d : Nat} (h : s.Formed) : (s.shortfall r d).Formed := by
  unfold State.shortfall
  dsimp only
  refine h.ite (event ?_)
  constructor
  dsimp only
  exact (h.foldl fun h1 => h1.setVfReg).wf

theorem shortfalls (h : s.Formed) : s.shortfalls.Formed := h.foldl fun h1 => h1.foldl fun h2 => h2.shortfall

theorem setCap {r d cap : Nat} (h : s.Formed) : (s.setCap r d cap).Formed := h.setPf.shortfall

theorem setPhase {p : EdgePhase} (h : s.Formed) : (s.setPhase v p).Formed := h.same rfl

theorem lead (h : s.Formed) : (s.lead v tenant).Formed := by
  unfold State.lead
  refine foldl h.setPhase fun h1 => ?_
  split
  · exact h1
  · exact h1.modSlot.parkWaiting

theorem stopVf (h : s.Formed) : (s.stopVf v tenant).Formed := by
  have stopped {l : List (Nat × Nat)} {r : State × Nat} (h1 : r.1.Formed) :
      (l.foldl (fun acc q => let (s', hit) := acc.1.stopSlot q.1 q.2; (s', if hit then acc.2 + 1 else acc.2)) r).1.Formed := by
    induction l generalizing r with
    | nil => exact h1
    | cons q l ih => exact ih h1.stopSlot
  have reported {u : State} {p : Prop} {_ : Decidable p} {ws : List Word} (h1 : u.Formed) :
      (if p then u else (u.setVfReg v 8 (u.vfReg v 8 + 1)).event v 0x60 0 0 0 tenant ws).Formed := h1.ite h1.setVfReg.event
  have swept {u : State} (h1 : u.Formed) : ((u.sweepSlots v tenant).setPhase v .stopped).Formed := h1.sweepSlots.setPhase
  unfold State.stopVf
  refine reported ?_
  constructor
  dsimp only
  refine (swept (stopped ?_)).wf
  exact (writeSpills (h.same (by rfl))).foldl fun h1 => h1.parkWaiting

theorem enterRow {old new : Option Row} {e : Nat} (h : s.Formed) : (s.enterRow old new e).Formed :=
  (h.same (by rfl)).writeSpills.foldl fun h1 => h1.dropWays.ite (h1.same rfl)

theorem stopOut (h : s.Formed) : s.stopOut.Formed := by
  unfold State.stopOut
  refine foldl h fun h1 => ?_
  split
  · exact h1
  · exact h1.ite h1.stopVf

theorem takeLead (h : s.Formed) : s.takeLead.Formed := h.same rfl

theorem releasePackets (h : s.Formed) : s.releasePackets.Formed := h.foldl fun h1 => h1.releaseIngress

theorem finishEdge (h : s.Formed) : (s.finishEdge v).Formed := by
  unfold State.finishEdge
  dsimp only
  split
  · split
    · exact (h.residue.same (by rfl)).restoreTenant.setPhase.releasePackets
    · exact (h.residue.same (by rfl)).restoreTenant.setPhase.releasePackets.setVfReg.record
  · split
    · exact (h.residue.same (by rfl)).setPhase.releasePackets
    · exact (h.residue.same (by rfl)).setPhase.releasePackets.setVfReg.record

theorem stopNow (h : s.Formed) : s.stopNow.Formed := by
  refine h.foldl fun {u v} h1 => ?_
  split
  · exact h1
  next a _ =>
    split
    · exact h1
    · exact ⟨(h1.stopVf (v := v) (tenant := a)).wf⟩

end State.Formed
end Sys2Proof.Machine
end

section
/-! # The front end, the Kiosk and the device registers keep the form of memory (R302 to R316, R345 to R359) -/
namespace Sys2Proof.Machine
namespace State.Formed

variable {s : State} {c j l n off pa tenant v : Nat} {whole : Bool} {pasid : Option Nat} {w : Word}

/-! ## The front end (R345 to R350) -/

theorem frontTouch {a : Nat} (h : s.Formed) : (s.frontTouch v tenant a n).Formed := h.foldl fun h1 => h1.l2Touch

theorem frontPark {b : ParkedBy} (h : s.Formed) : (s.frontPark pa b).Formed := h.same rfl

theorem frontWrite {a : Nat} {bs : List Byte} (h : s.Formed) : (s.frontWrite v tenant a bs).Formed := by
  unfold State.frontWrite
  split
  · exact h.frontPark
  · split
    · exact h.performIo.flushInvals
    · exact h.same rfl

theorem doorbell (h : s.Formed) : (s.doorbell v pasid whole w).Formed := by
  unfold State.doorbell
  dsimp only
  split
  · exact h.setVfReg
  · split
    · exact h.frontPark
    · exact h.frontTouch.frontWrite.ite (h.frontTouch.ite (h.frontTouch.same rfl))

theorem writeStatus {addr : Word} (h : s.Formed) : (s.writeStatus v tenant addr w).Formed := h.frontWrite

theorem endPacket {code stage : Nat} {stat compl : Word} (h : s.Formed) : (s.endPacket v tenant code stage n stat compl).Formed := by
  unfold State.endPacket
  split
  · exact h.frontPark
  · split
    · exact h.writeStatus
    · split
      · exact h.writeStatus.syncUpdate.flushInvals
      · exact h.writeStatus

theorem unlinkLaunch {x : Launch} (h : s.Formed) : (s.unlinkLaunch l x).Formed := by
  unfold State.unlinkLaunch
  constructor
  dsimp only
  exact (h.foldl fun h1 => h1.foldl fun h2 => h2.modVf).wf

theorem endLaunch {code : Nat} (h : s.Formed) : (s.endLaunch l code).Formed := by
  unfold State.endLaunch
  split
  · exact h
  · exact h.unlinkLaunch.endPacket

theorem resetVfAll (h : s.Formed) : (s.resetVfAll v).Formed :=
  (((h.foldl fun h1 => h1.unlinkLaunch).foldl fun h1 => h1.writeStatus).same (by rfl)).zeroMem.setPf

/-! ## Trace, halts and resumes (R329, R330, R357 to R359) -/

theorem closeTrace (h : s.Formed) : (s.closeTrace c).Formed := h.ite (h.modCore.ite h.modCore.performFor.modClus)

theorem traceRecord {k st : Nat} (h : s.Formed) : (s.traceRecord c k st).Formed := by
  unfold State.traceRecord
  dsimp only
  split
  · exact h.closeTrace.modCore.closeTrace.ite h.closeTrace.modCore
  · exact h.modCore.closeTrace.ite h.modCore

theorem haltSlot {k : Nat} (h : s.Formed) : (s.haltSlot c k).Formed := by
  unfold State.haltSlot
  split
  · exact h.ite (h.abandonHandler.ite h.killSlot)
  · exact h.withdraw.modSlot

theorem haltCluster {by' : BitVec 8} (h : s.Formed) : (s.haltCluster n by').Formed := by
  unfold State.haltCluster
  split
  · exact h
  · exact ((h.foldl fun h1 => (h1.foldl fun h2 => h2.landAll).foldl fun h2 => h2.haltSlot).foldl fun h1 => h1.closeTrace).modClus

theorem crossTrigger (h : s.Formed) : s.crossTrigger.Formed := h.foldl fun h1 => h1.haltCluster

theorem kioskHalt {by' : BitVec 8} (h : s.Formed) : (s.kioskHalt n by').Formed := h.haltCluster.crossTrigger.ite h.haltCluster

theorem lateEdge (h : s.Formed) : (s.lateEdge n v).Formed := by
  unfold State.lateEdge
  dsimp only
  split
  · split
    · exact h
    · split
      · split
        · exact h
        · exact ((h.foldl fun h1 => h1.foldl fun h2 => h2.stopSlot).foldl fun h1 => h1.saveCore).saveWindows
      · refine restoreWhere ?_
        split
        · exact h
        · exact ((h.foldl fun h1 => h1.foldl fun h2 => h2.stopSlot).foldl fun h1 => h1.saveCore).saveWindows
  · split
    · exact h
    · split
      · split
        · exact h
        · exact ((h.foldl fun h1 => h1.foldl fun h2 => h2.stopSlot).foldl fun h1 => h1.saveCore).saveWindows
      · refine restoreWhere ?_
        split
        · exact h
        · exact ((h.foldl fun h1 => h1.foldl fun h2 => h2.stopSlot).foldl fun h1 => h1.saveCore).saveWindows

theorem kioskResume (h : s.Formed) : (s.kioskResume n).Formed := by
  have edges {u : State} (h1 : u.Formed) : ((List.range 8).foldl (fun s v => s.lateEdge n v) u).Formed := h1.foldl fun h2 => h2.lateEdge
  have resumed : ({ s.modClus n fun cl => { cl with halted := false, halting := false, haltBy := 0 } with
      cores := s.cores.over fun c co => if clusterOf c = n then { co with slots := co.slots.over fun _ x => x.pastBreak } else co } : State).Formed :=
    h.same rfl
  unfold State.kioskResume
  refine h.ite (writeSpills (releaseIngress (modClus ?_)))
  constructor
  dsimp only
  exact (edges resumed).wf

/-! ## Device registers (R302 to R316, R322, R327, R342, R351) -/

theorem writePart (h : s.Formed) : (s.writePart v off w).Formed := by
  unfold State.writePart
  split
  · exact h
  · exact h.setReason.ite h.setPf

theorem bringUp (h : s.Formed) : (s.bringUp v).Formed := h.ite h.setPf

theorem takeDown (h : s.Formed) : (s.takeDown v).Formed := (h.resetVfAll.ite h).setPf

theorem writeVfctl (h : s.Formed) : (s.writeVfctl v w).Formed := (h.askReset.ite h).bringUp.ite (h.askReset.ite h).takeDown

theorem preempt {h : Word} (hs : s.Formed) : (s.preempt v h).Formed := by
  unfold State.preempt
  split
  · exact hs.ite hs.modSlot.parkWaiting
  · split
    · exact (hs.same (by rfl)).ite hs
    · exact hs

theorem resume {h : Word} (hs : s.Formed) : (s.resume v h).Formed := by
  unfold State.resume
  split
  · exact hs.modSlot.ite hs
  · split
    · exact (hs.patchCtx.same (by rfl)).ite hs
    · exact hs

theorem unfence (h : s.Formed) : (s.unfence v c).Formed := h.modVf.ite h

theorem asTenant {f : State → State} (h : s.Formed) (hf : ∀ {u}, u.Formed → (f u).Formed) : (s.asTenant v tenant c f).Formed := by
  unfold State.asTenant
  split
  · exact hf h
  next t _ =>
    have acted := hf (h.modVf (c := c) (v := v) (f := fun _ => { t.cv with fenced := (s.vfOf c v).fenced }))
    exact ⟨acted.wf⟩

theorem killOn {x : Launch} (h : s.Formed) : (s.killOn l x c).Formed := by
  unfold State.killOn
  dsimp only
  refine unfence ?_
  refine asTenant ?_ (fun h1 => h1.discardDeque.discardInbox)
  split
  · exact (h.foldl fun h1 => h1.killSlot).abandonHandler
  · exact h.foldl fun h1 => h1.killSlot

theorem killSaved {y : Saved} (h : s.Formed) : (s.killSaved y).Formed := by
  have killed : ((s.dropTs y.core y.slot y.act.gen).inImage y none fun s =>
      s.killAct y.core y.slot ⟨.hbmiss, y.act.pc, y.act.hbi.setWidth 64⟩).Formed := h.dropTs.inImage fun h1 => h1.killAct
  unfold State.killSaved
  constructor
  dsimp only
  exact killed.wf

theorem killGang (h : s.Formed) : (s.killGang v c).Formed := by
  unfold State.killGang
  split
  · exact h
  · exact ((h.foldl fun h1 => h1.killOn).foldl fun h1 => h1.killSaved).endLaunch

theorem bindChan (h : s.Formed) : (s.bindChan v c w).Formed := h.setVfReg

theorem writePcsel (h : s.Formed) : (s.writePcsel v j w).Formed := h.same rfl

theorem effectPcsel (h : s.Formed) : (s.effectPcsel v j).Formed := by
  unfold State.effectPcsel
  split
  · exact h
  · exact (h.same (by rfl)).setVfReg

theorem writePwrpol (h : s.Formed) : (s.writePwrpol v w).Formed := h.ite h.setPf

theorem writeTrctl (h : s.Formed) : (s.writeTrctl w).Formed := h.same rfl

theorem effectTrctl (h : s.Formed) : s.effectTrctl.Formed := by
  unfold State.effectTrctl
  split
  · exact h
  · exact (h.same (by rfl)).ite (h.same rfl)

theorem samplePcs (h : s.Formed) : s.samplePcs.Formed := h.same rfl

theorem hostCounter (h : s.Formed) : (s.hostCounter v pasid j).1.Formed := by
  unfold State.hostCounter
  split
  · split
    · exact h
    · exact h.same rfl
  · split
    · exact h
    · exact h

theorem readLow (h : s.Formed) : (s.readLow v pasid j).1.Formed := by
  unfold State.readLow
  split
  next heq => exact h.hostCounter.fst heq
  next heq => exact (h.hostCounter.fst heq).same rfl

theorem startUpdate (h : s.Formed) : (s.startUpdate w).Formed := (h.same (by rfl)).ite h

theorem askClear (h : s.Formed) : (s.askClear w).Formed := (h.same (by rfl)).ite h

theorem writeBsctl (h : s.Formed) : (s.writeBsctl w).Formed := h.setReason.ite (h.ite ((h.stopNow.same (by rfl)).ite h)).setPf

theorem writeEpoch (h : s.Formed) : (s.writeEpoch w).Formed := h.ite h.setPf

theorem writeRes {e : Nat} (h : s.Formed) : (s.writeRes e w).Formed := h.setReason.ite h.setPf

theorem writePf (h : s.Formed) : (s.writePf off w).Formed := by
  have kiosk {u : State} {n a : Nat} (h1 : u.Formed) : (match a with
      | 0x00 => if w = 1 then u.kioskHalt n 0 else if w = 2 then u.kioskResume n else u
      | 0x08 => u.modClus n fun cl => { cl with kcfg := w &&& 0x3FF01 }
      | 0x18 => u.modClus n fun cl => { cl with ksel := w &&& 0x3FFFF }
      | _ => u).Formed := by
    split
    · exact h1.kioskHalt.ite (h1.kioskResume.ite h1)
    · exact h1.modClus
    · exact h1.modClus
    · exact h1
  have plain : (match pfPlain off with
      | some m => s.setPf off (w &&& m)
      | none => s).Formed := by
    split
    · exact h.setPf
    · exact h
  exact .ite h.writeBsctl <| .ite h.writeEpoch <| .ite h.commit <| .ite (h.writeVfctl.ite h.writePart) <| .ite h.writeRes <|
    .ite h.writePwrpol <| .ite (h.ite h.setPf) <| .ite h.writeTrctl <| .ite h.startUpdate <| .ite h.askClear <| .ite (kiosk h) plain

theorem readVf (h : s.Formed) : (s.readVf v off pasid whole).1.Formed := by
  unfold State.readVf
  dsimp only
  split
  · exact h
  · split
    · exact h
    · split
      · exact h.readLow
      · split
        · exact h
        · exact h

theorem writeVf (h : s.Formed) : (s.writeVf v off pasid whole w).Formed := by
  unfold State.writeVf
  split
  · exact h.preempt
  · split
    · exact h.resume
    · split
      · exact h.unfence
      · split
        · exact h.killGang.ite h
        · split
          · exact h.bindChan
          · split
            · exact h.writePcsel
            · split
              · exact h.doorbell
              · split
                · exact h.setVfReg
                · exact h

theorem devRead {t : State} {size : Nat} (h : s.Formed) {r : Word} (e : s.devRead size pa = some (t, r)) : t.Formed := by
  unfold State.devRead at e
  split at e
  · split at e
    · cases e
      exact h
    · cases e
  · dsimp only at e
    split at e
    · cases e
    · split at e
      · cases e
        exact h
      · cases e
        exact h.readVf
  · cases e
    exact h.same rfl

theorem devWrite {t : State} {size : Nat} (h : s.Formed) (e : s.devWrite size pa w = some t) : t.Formed := by
  unfold State.devWrite at e
  split at e
  · dsimp only at e
    split at e
    · cases e
      exact h.writePf
    · cases e
  · dsimp only at e
    split at e
    · cases e
      exact h.writeVf
    · cases e
  · cases e
    exact h.same rfl

end State.Formed
end Sys2Proof.Machine
end

section
/-! # Requests, loads and stores keep the form of memory (R171 to R210) -/
namespace Sys2Proof.Machine
namespace State.Formed

variable {s : State} {pa size : Nat} {off : BitVec 30} {g : Pred} {d : Reg} {r : Req} {a base : SSrc} {f : State → Out} {w : Want} {ea : Word}

/-! ## Requests at their homes (R172, R178, R201) -/

theorem actLoad {pr home : Bool} (h : s.Formed) : (s.actLoad d size ea pa pr home).Formed := by
  unfold State.actLoad
  split
  next heq => exact (h.loadBytes.fst heq).trap.ite (h.loadBytes.fst heq).putS.retire

theorem readEl {t : State} {w : VldsWord} {r : List (Nat × Lane) × Bool} (h : s.Formed) (e : s.readEl size w = some (t, r)) : t.Formed := by
  unfold State.readEl at e
  split at e
  · obtain ⟨q, hq, e'⟩ := Option.map_eq_some_iff.mp e
    cases e'
    exact h.devRead hq
  · cases e
    exact h.loadBytes

theorem readEls {t : State} {ls : List (Nat × VldsWord)} {r : List (Nat × Lane) × Option Word} (h : s.Formed) (e : s.readEls ls = .ok (t, r)) :
    t.Formed := by
  induction ls generalizing s r with
  | nil =>
    cases e
    exact h
  | cons l ls ih =>
    rw [State.readEls] at e
    split at e
    · cases e
    next heq =>
      split at e
      · cases e
      next heq1 =>
        cases e
        exact ih (h.readEl heq) heq1

theorem actVload {els : List VldsWord} (h : s.Formed) : FormedOut (s.actVload d size els) := by
  unfold State.actVload
  split
  · exact .fault _
  next heq => exact (h.readEls heq).trap.next
  next heq => exact (h.readEls heq).putV.retire.next

theorem actDevLanes {rest : StoreEntry} {l : List (Nat × Nat × Word)} (h : s.Formed) : FormedOut (s.actDevLanes rest l) := by
  induction l generalizing s with
  | nil => exact (h.retire.ite h.bufferStore).next
  | cons p l ih =>
    rw [State.actDevLanes]
    split
    · exact .fault _
    next heq => exact ih (h.devWrite heq)

theorem actFlush (h : s.Formed) : (s.actFlush pa).Formed := by
  unfold State.actFlush
  dsimp only
  split
  · exact h.modDie.modDie.retire
  · exact h.retire

theorem actRld {addr : Word} (h : s.Formed) : (s.actRld d addr pa).Formed := by
  unfold State.actRld
  dsimp only
  split
  · exact ((h.same (by rfl)).trap.ite (h.same (by rfl)).putS.retire).ite (h.same rfl)
  next heq => exact (h.postedTo heq).trap.ite (h.postedTo heq).putS.retire

theorem act (h : s.Formed) : FormedOut (s.act r) := by
  unfold State.act
  split
  · exact h.actLoad.next
  · exact h.actVload
  · exact h.actDevLanes
  · exact h.actFlush.next
  · exact .ite h.trap.next h.actRld.next
  · split
    · exact .fault _
    next heq => exact (h.devRead heq).putS.retire.next
  · split
    · exact .fault _
    next heq => exact (h.devWrite heq).retire.next
  · exact h.actHome.next

theorem ask (h : s.Formed) : FormedOut (s.ask r) := by
  unfold State.ask
  refine h.afterRecall (fun h1 => ?_)
  split
  · exact h1.wait.parkAt.next
  · split
    · exact h1.wait.holdPacket.next
    · exact h1.act

theorem replayStore {q : Parked} (h : s.Formed) : (s.replayStore q).Formed := by
  unfold State.replayStore
  dsimp only
  split
  · exact h
  · exact h.getD h.drainWord

theorem afterDrain (h : s.Formed) (hf : ∀ {u}, u.Formed → FormedOut (f u)) : FormedOut (s.afterDrain f) := by
  unfold State.afterDrain
  split
  · exact h.hold.next
  next heq => exact hf (h.drained heq)

theorem ownFirst {pas : List Nat} (h : s.Formed) (hf : ∀ {u}, u.Formed → FormedOut (f u)) : FormedOut (s.ownFirst pas f) :=
  .ite (h.afterDrain hf) (hf h)

theorem afterRelease {sc : Scope} (h : s.Formed) (hf : ∀ {u}, u.Formed → FormedOut (f u)) : FormedOut (s.afterRelease sc f) := by
  unfold State.afterRelease
  split
  · exact h.hold.next
  next heq => exact hf (h.release heq)

/-! ## Loads, stores, fences and tables (R136, R195 to R203, R210) -/

theorem withPlace {f : State → Place → Out} (h : s.Formed) (hf : ∀ {u p}, u.Formed → FormedOut (f u p)) : FormedOut (s.withPlace ea w f) := by
  unfold State.withPlace
  split
  · exact h.holdWalk.next
  · split
    next heq => exact (h.resolve.fst heq).trap.next
    next heq => exact .ite (h.resolve.fst heq).hold.next (hf (h.resolve.fst heq))

theorem withStore {f : State → Place → Out} (h : s.Formed) (hf : ∀ {u p}, u.Formed → FormedOut (f u p)) : FormedOut (s.withStore ea w f) := by
  unfold State.withStore
  split
  · exact h.holdWalk.next
  · split
    next heq => exact (h.resolve.fst heq).trap.next
    next heq => exact hf (h.resolve.fst heq)

theorem askDevice (h : s.Formed) : FormedOut (s.askDevice ea pa r) := .ite h.trap.next (.ite h.hold.next h.ask)

theorem loadInto {home : Bool} (h : s.Formed) : FormedOut (loadInto g s d base off size home) :=
  h.guarded (h.withStore fun h1 => .ite h1.askDevice (.ite h1.hold.next h1.ask))

theorem storeFrom {release : Option Scope} (h : s.Formed) : FormedOut (storeFrom g s a base off size release) := by
  unfold Machine.storeFrom
  refine h.guarded ?_
  refine h.withStore (fun h1 => ?_)
  split
  · split
    · exact h1.askDevice
    · exact .ite h1.trap.next (h1.afterRelease fun h2 => h2.askDevice)
  · exact h1.bufferStore.next

theorem resolveAll {l : List Word} (h : s.Formed) : (s.resolveAll w l).1.Formed := by
  induction l generalizing s with
  | nil => exact h
  | cons a l ih =>
    rw [State.resolveAll]
    split
    next heq => exact h.resolve.fst heq
    next heq =>
      have located := h.resolve.fst heq
      split
      · exact located
      · split
        next heq1 => exact (ih located).fst heq1
        next heq1 => exact (ih located).fst heq1

theorem askLanes {lanes : List (LaneLoad × MemKind)} (h : s.Formed) : FormedOut (s.askLanes d size lanes) := .ite h.hold.next h.ask

theorem storeLanes {v : Vec} {lanes : List (LaneLoad × MemKind)} (h : s.Formed) : FormedOut (s.storeLanes v size lanes) := by
  unfold State.storeLanes
  dsimp only
  split
  · exact .ite h.retire.next h.bufferStore.next
  · exact .ite h.hold.next (.ite h.hold.next h.ask)

theorem vectorPlaces {m : BitVec 16} (h : s.Formed) : (s.vectorPlaces ea m w).1.Formed := by
  unfold State.vectorPlaces
  dsimp only
  split
  · exact h
  · split
    next heq => exact h.resolveAll.fst heq
    next heq => exact h.resolveAll.fst heq

theorem afterWalks {l : List Word} {f : Out} (h : s.Formed) (hf : FormedOut f) : FormedOut (s.afterWalks w l f) := by
  unfold State.afterWalks
  split
  · split
    · exact h.hold.joinFetch.next
    · exact hf
  · exact hf

theorem execVld (h : s.Formed) : FormedOut (execVld g d base off s) := by
  unfold Machine.execVld
  refine h.guarded ?_
  split
  · exact h.trap.next
  · refine h.afterWalks ?_
    split
    next heq => exact (h.vectorPlaces.fst heq).trap.next
    next heq => exact (h.vectorPlaces.fst heq).askLanes

theorem execVst {a : VSrc} (h : s.Formed) : FormedOut (execVst g a base off s) := by
  unfold Machine.execVst
  refine h.guarded ?_
  split
  · exact h.trap.next
  · refine h.afterWalks ?_
    split
    next heq => exact (h.vectorPlaces.fst heq).trap.next
    next heq => exact (h.vectorPlaces.fst heq).storeLanes

theorem gatherPlaces {vi : Vec} {m : BitVec 16} (h : s.Formed) : (s.gatherPlaces base off vi m w).1.Formed := by
  unfold State.gatherPlaces
  dsimp only
  split
  next heq => exact h.resolveAll.fst heq
  next heq => exact h.resolveAll.fst heq

theorem execVldg {vi : VSrc} (h : s.Formed) : FormedOut (execVldg g d base off vi s) := by
  unfold Machine.execVldg
  refine h.guarded ?_
  refine h.afterWalks ?_
  split
  next heq => exact (h.gatherPlaces.fst heq).trap.next
  next heq => exact (h.gatherPlaces.fst heq).askLanes

theorem execVsts {a : VSrc} {vi : VSrc} (h : s.Formed) : FormedOut (execVsts g a base off vi s) := by
  unfold Machine.execVsts
  refine h.guarded ?_
  refine h.afterWalks ?_
  split
  next heq => exact (h.gatherPlaces.fst heq).trap.next
  next heq => exact (h.gatherPlaces.fst heq).storeLanes

theorem execFence {rst : Bool} {scope : Scope} (h : s.Formed) : FormedOut (execFence g rst scope s) := by
  unfold Machine.execFence
  refine h.guarded ?_
  dsimp only
  split
  · split
    · split
      · exact h.hold.next
      next heq'' => exact (h.postedDone heq'').retire.next
    · exact h.retire.next
  · split
    · exact h.hold.next
    next heq =>
      split
      · split
        · exact (h.release heq).hold.next
        next heq'' => exact ((h.release heq).postedDone heq'').retire.next
      · exact (h.release heq).retire.next

theorem post {e : Posted} (h : s.Formed) : (s.post e).Formed := h.retire.ite (h.modCur.retire.ite h.wait)

theorem execRld (h : s.Formed) : FormedOut (execRld g d base off s) := by
  unfold Machine.execRld
  refine h.guarded ?_
  split
  · exact h.trap.next
  · exact .ite h.hold.next (.ite h.hold.next (h.ownFirst fun h1 => h1.ask))

theorem execRst {f ord : Bool} (h : s.Formed) : FormedOut (execRst g a base off f ord s) := by
  unfold Machine.execRst
  refine h.guarded ?_
  split
  · exact h.trap.next
  · exact h.post.next

theorem execRstv {a : VSrc} {f ord : Bool} (h : s.Formed) : FormedOut (execRstv g a base off f ord s) := by
  unfold Machine.execRstv
  refine h.guarded ?_
  split
  · exact h.trap.next
  · exact h.post.next

theorem execPref (h : s.Formed) : FormedOut (execPref g base off s) := by
  unfold Machine.execPref
  refine h.guarded ?_
  split
  · exact h.retire.next
  · split
    next heq => exact (h.resolve.fst heq).retire.next
    next heq =>
      dsimp only
      split
      · exact (h.resolve.fst heq).retire.next
      · split
        · exact (h.resolve.fst heq).l2Access.retire.next
        · split
          · exact (h.resolve.fst heq).retire.next
          · exact (h.resolve.fst heq).l2Access.rdcFetch.retire.next

theorem tblInstall {t : BitVec 2} {addr : Word} (h : s.Formed) : (s.tblInstall t addr).Formed := by
  unfold State.tblInstall
  split
  · exact h.trap
  · split
    · exact h.trap
    · exact (h.modVf.addFlags.ite h.modVf).retire

theorem execTblld {t : BitVec 2} {b : SSrc} (h : s.Formed) : FormedOut (execTblld g t b s) := by
  unfold Machine.execTblld
  refine h.guarded ?_
  dsimp only
  split
  · exact h.trap.next
  · split
    · exact h.trap.next
    · split
      · exact h.wait.next
      next heq => exact ((h.drained heq).wait.ite (h.drained heq).tblInstall).next

/-! ## Full/empty instructions (R204 to R208) -/

theorem waits (h : s.Formed) (hf : ∀ {u}, u.Formed → FormedOut (f u)) : FormedOut (s.waits f) := .ite h.hwait.next (hf h)

theorem rankBelow {rank : BitVec 56} {tval : Word} (h : s.Formed) (hf : ∀ {u}, u.Formed → FormedOut (f u)) :
    FormedOut (s.rankBelow rank tval f) := .ite h.trap.next (hf h)

theorem withRoom (h : s.Formed) (hf : ∀ {u}, u.Formed → FormedOut (f u)) : FormedOut (s.withRoom f) := by
  unfold State.withRoom
  split
  next heq => exact hf (h.reserveOb.of_eq heq)
  next heq => exact (h.reserveOb.of_eq heq).holdFor.next
  next heq => exact (h.reserveOb.of_eq heq).trap.next

theorem reserving {o : Out} (hf : FormedOut o) : FormedOut (s.reserving o) := by
  unfold State.reserving
  split
  next t =>
    have h := hf.next t rfl
    split
    · exact h.next
    · exact h.unreserve.next
  · exact hf

theorem execVlds (h : s.Formed) : FormedOut (execVlds g d base off s) := by
  unfold Machine.execVlds
  refine h.guarded ?_
  refine h.waits (fun h1 => ?_)
  dsimp only
  split
  · exact h1.trap.next
  · refine h1.afterWalks ?_
    split
    next heq => exact (h1.resolveAll.fst heq).trap.next
    next heq =>
      split
      · exact (h1.resolveAll.fst heq).retire.next
      · split
        · exact (h1.resolveAll.fst heq).hold.next
        · exact (h1.resolveAll.fst heq).rankBelow fun h2 => h2.ownFirst fun h3 => h3.ask

/-! ## Fetches (R57) -/

theorem textLine {line : Nat} (h : s.Formed) : (s.textLine line).1.Formed := by
  unfold State.textLine
  dsimp only
  split
  · exact h
  · dsimp only
    exact (h.l2Access.ite (h.l2Access.same (by rfl))).modCore

theorem text {n : Nat} (h : s.Formed) : (s.text pa n).1.Formed := by
  unfold State.text
  dsimp only
  split
  · exact h.textLine
  · exact h.textLine.textLine

theorem fetchWords {a : Word} (h : s.Formed) : (s.fetchWords a).1.Formed := by
  unfold State.fetchWords
  dsimp only
  split
  next heq => exact h.resolve.fst heq
  next heq =>
    split
    · exact (h.resolve.fst heq).same rfl
    · exact (h.resolve.fst heq).text

theorem trapAt {cause : Cause} {a tval : Word} (h : s.Formed) : (s.trapAt cause a tval).Formed := h.modCur

/-! ## Control transfers (R144 to R156) -/

theorem jumpTo {t : Word} (h : s.Formed) : (s.jumpTo t).Formed := h.modCur

theorem execLoop {dist : BitVec 35} (h : s.Formed) : FormedOut (execLoop a dist s) := by
  unfold Machine.execLoop
  dsimp only
  split
  · exact h.modCur.modCur.next
  · split
    · exact h.hold.joinFetch.next
    · split
      next heq' => exact (h.modCur.fetchWords.fst heq').trapAt.next
      next heq' =>
        split
        · exact (h.modCur.fetchWords.fst heq').trapAt.next
        · exact (h.modCur.fetchWords.fst heq').modCur.next

theorem execYpt (h : s.Formed) : FormedOut (execYpt g s) := by
  unfold Machine.execYpt
  refine h.guarded ?_
  dsimp only
  split
  · split
    · exact h.hold.next
    next heq' =>
      split
      next heq'' => exact ((h.modCur.retire.settledSlot heq').saveError heq'').next
      · exact (h.modCur.retire.settledSlot heq').park.next
  · exact h.modCur.retire.next

end State.Formed
end Sys2Proof.Machine
end

section
/-! # The matrix unit, sync slots, tuples, tasks and page 10 keep the form of memory (R211 to R300, R323, R361 to R363) -/
namespace Sys2Proof.Machine
namespace State.Formed

variable {s : State} {c core stream v vf : Nat} {owe : Bool} {q : MxCmd} {g : Pred} {d : Reg} {sa sr st : SSrc} {f : State → Out} {a : VSrc}
  {cmd : Vec}

/-! ## The matrix unit (R211 to R234) -/

theorem engineWord {pa : Nat} {v : Word} {poisoned : Bool} (h : s.Formed) : (s.engineWord c vf pa v poisoned).Formed := by
  unfold State.engineWord
  dsimp only
  split
  · exact h.performFor.poisonFrom.ite h.performFor.poisonFrom.serveWord
  · exact h.performFor.ite h.performFor.serveWord

theorem mxAppend {k : Nat} {seq : Nat} (h : s.Formed) : (s.mxAppend c k v cmd seq).Formed := h.modVf

theorem execMxq (h : s.Formed) : FormedOut (execMxq g a s) := by
  unfold Machine.execMxq
  refine h.guarded ?_
  dsimp only
  split
  · exact h.trap.next
  · split
    · exact h.hwait.next
    · split
      · exact h.modVf.wait.next
      next heq => exact ((h.modVf.release heq).wait.ite (h.modVf.release heq).mxAppend.retire).next

theorem withBay {b : Nat} {f : Nat → Out} (h : s.Formed) (hf : ∀ {p}, FormedOut (f p)) : FormedOut (s.withBay b f) := by
  unfold State.withBay
  split
  · exact h.trap.next
  · split
    · exact h.trap.next
    · exact hf

theorem releaseBay {b : Nat} (h : s.Formed) : (s.releaseBay b).Formed := h.discharge.passBay.retire

theorem execRelease {bay : BitVec 4} (h : s.Formed) : FormedOut (execRelease g bay s) := by
  unfold Machine.execRelease
  refine h.guarded ?_
  dsimp only
  refine h.withBay ?_
  intro a
  split
  · exact h.trap.next
  · exact .ite h.wait.next (h.afterRecall fun h1 => h1.releaseBay.next)

theorem doTload (h : s.Formed) : (s.doTload c v q).1.Formed := by
  unfold State.doTload
  dsimp only
  split
  · exact h
  · dsimp only
    exact h.modBay

theorem tstoreWords {p : Nat} {ws : List Nat} (h : s.Formed) : (s.tstoreWords c v p cmd ws).Formed := by
  unfold State.tstoreWords
  refine foldl h fun h1 => ?_
  split
  · exact h1
  · exact h1.engineWord

theorem doTstore (h : s.Formed) : (s.doTstore c v q).1.Formed := by
  unfold State.doTstore
  split
  · exact h
  · dsimp only
    exact h.tstoreWords

theorem mmaInto {p : Nat} {poison : Bool} {blocks : Nat → Nat → List Lane} (h : s.Formed) : (s.mmaInto c p poison blocks).1.Formed := by
  unfold State.mmaInto
  dsimp only
  exact h.modAcc

theorem doMma (h : s.Formed) : (s.doMma c v cmd).1.Formed := by
  unfold State.doMma
  dsimp only
  split
  · exact h
  · exact h.mmaInto

theorem doMmasp (h : s.Formed) : (s.doMmasp c v cmd).1.Formed := by
  unfold State.doMmasp
  dsimp only
  split
  · exact h
  · exact h.mmaInto

theorem doAccz (h : s.Formed) : (s.doAccz c v cmd).Formed := by
  unfold State.doAccz
  split
  · exact h
  · exact h.modAcc

theorem doSpload (h : s.Formed) : (s.doSpload c v q).1.Formed := by
  unfold State.doSpload
  dsimp only
  exact h.modCore

theorem mxEffect (h : s.Formed) : (s.mxEffect c v q).1.Formed := by
  unfold State.mxEffect
  split
  · exact h.doTload
  · exact h.doTstore
  · exact h.doMma
  · exact h.doMmasp
  · exact h.doAccz
  · exact h.doSpload
  · exact h

theorem mxBegin (h : s.Formed) : (s.mxBegin c v q).Formed := by
  have begun {r : State × SMap (Word × Bool)} {n : Nat} {f : CoreVf → CoreVf} (h1 : r.1.Formed) :
      (({ r.1 with fresh := n } : State).modVf c v f).Formed := h1.same rfl
  unfold State.mxBegin
  refine begun ?_
  split
  · dsimp only
    split
    · exact h
    · dsimp only
      exact h.tstoreWords
  · exact h

theorem mxRun (h : s.Formed) : (s.mxRun c v q).Formed := by
  have notified {u : State} {w : Word} (h1 : u.Formed) :
      (if cmdNotify q.cmd && cmdAddr q.cmd 14 % 8 = 0 && u.inWindow c v (cmdAddr q.cmd 14) 8 then
        match u.windowPlace c v (cmdAddr q.cmd 14) with
        | some p => u.engineWord c v p.pa w false
        | none => u
      else u).Formed := by
    split
    · split
      · exact h1.engineWord
      · exact h1
    · exact h1
  unfold State.mxRun
  dsimp only
  refine notified (modCore (modVf ?_))
  split
  · dsimp only
    split
    · split
      · exact h.count.modBay
      · exact h.count
    · exact h.count
  · exact h.count.mxEffect

theorem mxPark (h : s.Formed) : (s.mxPark c v stream).Formed := by
  unfold State.mxPark
  split
  · exact h
  · split
    · exact h
    · exact h.parkAt

theorem mxStart {ofType : Nat → Bool} (h : s.Formed) : FormedOut (s.mxStart c v stream ofType) := by
  unfold State.mxStart
  split
  · exact h.mxPark.next
  · exact .ite (h.mxBegin.ite h.mxRun).next h.next

theorem execTload (h : s.Formed) : FormedOut (execTload core vf stream s) := h.mxStart

theorem execTstore (h : s.Formed) : FormedOut (execTstore core vf stream s) := h.mxStart

theorem execMma (h : s.Formed) : FormedOut (execMma core vf stream s) := h.mxStart

theorem execMmasp (h : s.Formed) : FormedOut (execMmasp core vf stream s) := h.mxStart

theorem execAccz (h : s.Formed) : FormedOut (execAccz core vf stream s) := h.mxStart

theorem execSpload (h : s.Formed) : FormedOut (execSpload core vf stream s) := h.mxStart

theorem execMxnote (h : s.Formed) : FormedOut (execMxnote core vf stream s) := h.mxStart

theorem execMxbar (h : s.Formed) : FormedOut (execMxbar core vf stream s) := h.mxStart

/-! ## Sync slots, the gang barrier and obligations (R258 to R284) -/

theorem notMovement (h : s.Formed) (hf : ∀ {u}, u.Formed → FormedOut (f u)) : FormedOut (s.notMovement f) := .ite h.decodeFault.next (hf h)

theorem withSync {sa : Word} {write : Bool} {f : State → Place → Out} (h : s.Formed) (hf : ∀ {u p}, u.Formed → FormedOut (f u p)) :
    FormedOut (s.withSync sa write f) := by
  unfold State.withSync
  split
  · exact h.holdWalk.next
  · split
    next heq => exact (h.resolve.fst heq).trap.next
    next heq =>
      have located := h.resolve.fst heq
      exact .ite located.trap.next (.ite located.hold.next (hf located))

theorem execSywait (h : s.Formed) : FormedOut (execSywait g d sa st s) :=
  h.notMovement fun h1 => h1.guarded (h1.waits fun h2 => h2.withSync fun h3 => h3.ownFirst fun h4 => h4.ask)

theorem execSyadd {sv : SSrc} (h : s.Formed) : FormedOut (execSyadd g sa sv s) :=
  h.notMovement fun h1 => h1.guarded (h1.withSync fun h2 => h2.afterRelease fun h3 => h3.ask)

theorem execSyarrive (h : s.Formed) : FormedOut (execSyarrive g d sa s) :=
  h.notMovement fun h1 => h1.guarded (h1.withSync fun h2 => h2.afterRelease fun h3 => h3.ask)

theorem execSyread {w : Bool} (h : s.Formed) : FormedOut (execSyread g d sa w s) :=
  h.notMovement fun h1 => h1.guarded (h1.withSync fun h2 => h2.ownFirst fun h3 => h3.ask)

theorem execSyret (h : s.Formed) : FormedOut (execSyret g sa s) :=
  h.notMovement fun h1 => h1.guarded (h1.withSync fun h2 => .ite h2.trap.next (h2.afterRelease fun h3 => h3.ask))

theorem reserveSync {sa : Word} (h : s.Formed) (hf : ∀ {u}, u.Formed → FormedOut (f u)) : FormedOut (s.reserveSync sa owe f) := by
  have reserved : ∀ {u : State}, u.Formed → FormedOut (if owe then u.withRoom fun s => s.afterRelease .module f else u.afterRelease .module f) :=
    fun h1 => .ite (h1.withRoom fun h2 => h2.afterRelease hf) (h1.afterRelease hf)
  exact .ite h.trap.next (reserved (h.ite h.modVf))

theorem execSyinit {sv : SSrc} {type : SlotType} (h : s.Formed) : FormedOut (execSyinit g sa sr sv type owe s) := by
  unfold Machine.execSyinit
  refine reserving ?_
  refine h.notMovement (fun h1 => ?_)
  refine h1.guarded ?_
  dsimp only
  refine h1.withSync (fun h2 => ?_)
  split
  · exact h2.trap.next
  · exact .ite h2.trap.next (h2.reserveSync fun h3 => h3.ask)

theorem execObnew {lo hi : SSrc} (h : s.Formed) : FormedOut (execObnew g d lo hi owe s) := by
  unfold Machine.execObnew
  refine reserving ?_
  refine h.notMovement (fun h1 => ?_)
  refine h1.guarded ?_
  dsimp only
  split
  · exact h1.trap.next
  · exact h1.withSync fun h2 => h2.reserveSync fun h3 => h3.ask

theorem atBarrier {rank : BitVec 56} (h : s.Formed) : (s.atBarrier rank).Formed := by
  unfold State.atBarrier
  dsimp only
  split
  · exact h.wait.ite h.modCur.retire
  · split
    · exact h.wait
    · split
      · exact h.modVf.modCur.wait.foldl fun h1 => h1.modVf.modCore
      · exact h.modVf.modCur.wait

theorem execGbar (h : s.Formed) : FormedOut (execGbar s) := by
  unfold Machine.execGbar
  refine h.notMovement (fun h1 => ?_)
  refine h1.waits (fun h2 => ?_)
  split
  · exact h2.trap.next
  · split
    · exact h2.trap.next
    · exact h2.rankBelow fun h3 => h3.afterRelease fun h4 => h4.atBarrier.next

theorem giveRecord {kind : ObKind} {obj : Word} (h : s.Formed) : FormedOut (s.giveRecord kind obj) := by
  unfold State.giveRecord
  dsimp only
  split
  · exact h.trap.next
  · split
    · exact h.trap.next
    · exact h.afterRecall fun h1 => h1.recallOb.modCore.retire.next

theorem giveActivity {o : Oblig} {h : Word} (hs : s.Formed) : FormedOut (s.giveActivity o h) := by
  unfold State.giveActivity
  split
  · exact hs.retire.next
  · split
    · exact hs.trap.next
    · split
      · exact hs.trap.next
      · refine hs.afterRecall (fun h1 => ?_)
        split
        next heq' => exact (h1.findRoom.of_eq heq').trap.next
        next heq' => exact (h1.findRoom.of_eq heq').holdFor.next
        next heq' =>
          split
          next heq'' => exact ((h1.findRoom.of_eq heq').recallOb.fst heq'').dropOb.reclaim.placeOb.retire.next

theorem execObgive {so sh : SSrc} {mode : GiveMode} {kind : ObKind} (h : s.Formed) : FormedOut (execObgive g so sh mode kind s) := by
  unfold Machine.execObgive
  refine h.notMovement (fun h1 => ?_)
  refine h1.guarded ?_
  dsimp only
  split
  · exact h1.trap.next
  · split
    · exact h1.giveRecord
    · exact h1.giveActivity
    · exact h1.afterRecall fun h2 => h2.afterRelease fun h3 => h3.recallOb.dropOb.poisonOb.retire.next

theorem execObq {si : SSrc} {fld : BitVec 2} (h : s.Formed) : FormedOut (execObq g d si fld s) := by
  unfold Machine.execObq
  refine h.notMovement (fun h1 => ?_)
  refine h1.guarded ?_
  split
  · exact h1.putS.retire.next
  · split
    · exact h1.putS.retire.next
    · refine h1.afterRecall (fun h2 => ?_)
      split
      next heq' => exact (h2.recallOb.fst heq').putS.retire.next

theorem execObrank {so : SSrc} {kind : BitVec 2} (h : s.Formed) : FormedOut (execObrank g d so kind s) := by
  unfold Machine.execObrank
  refine h.notMovement (fun h1 => ?_)
  refine h1.guarded ?_
  dsimp only
  split
  · split
    · exact h1.trap.next
    · split
      · exact h1.holdWalk.next
      · split
        next heq' => exact (h1.locate.fst heq').trap.next
        next heq' => exact (h1.locate.fst heq').putS.retire.next
  · exact h1.withSync fun h2 => h2.ownFirst fun h3 => h3.ask
  · split
    · exact h1.trap.next
    · exact h1.putS.retire.next
  · split
    · exact h1.putS.retire.next
    · exact (h1.same (by rfl)).putS.retire.next

/-! ## Tuple instructions (R293 to R298) -/

theorem withRegion {sr : Word} {write : Bool} {f : State → Place → Out} (h : s.Formed) (hf : ∀ {u p}, u.Formed → FormedOut (f u p)) :
    FormedOut (s.withRegion sr write f) := by
  unfold State.withRegion
  refine .ite h.trap.next (.ite h.holdWalk.next ?_)
  split
  next heq => exact (h.locate.fst heq).trap.next
  next heq =>
    have located := h.locate.fst heq
    exact .ite located.trap.next (.ite located.trap.next (.ite located.hold.next (hf located)))

theorem tsSend {sr : Word} {p : Place} {tag : Lane} {rank : BitVec 56} {waits : Option (BitVec 56)} {r : TsReq} (h : s.Formed) :
    (s.tsSend sr p tag rank waits r).Formed := (h.same (by rfl)).wait

theorem execTsput (h : s.Formed) : FormedOut (execTsput a sr s) := by
  unfold Machine.execTsput
  refine h.notMovement (fun h1 => ?_)
  refine h1.waits (fun h2 => ?_)
  dsimp only
  refine h2.withRegion (fun h3 => ?_)
  split
  · exact h3.trap.next
  · exact h3.rankBelow fun h4 => h4.afterRelease fun h5 => h5.tsSend.next

theorem tsRequest {vp : Reg} {take nb : Bool} {r : Vec → Vec → TsReq} (h : s.Formed) : FormedOut (s.tsRequest vp sr take nb r) := by
  unfold State.tsRequest
  dsimp only
  split
  · exact h.withRegion fun h1 => .ite h1.trap.next h1.tsSend.next
  · exact h.waits fun h1 => h1.withRegion fun h2 => .ite h2.trap.next (h2.rankBelow fun h3 => h3.tsSend.next)

theorem execTscount {vp : Reg} (h : s.Formed) : FormedOut (execTscount g d vp sr s) :=
  h.notMovement fun h1 => h1.guarded (h1.withRegion fun h2 => .ite h2.trap.next h2.tsSend.next)

/-! ## Tasks, messages, mailboxes and copies (R235 to R256) -/

theorem generalOnly (h : s.Formed) (hf : ∀ {u}, u.Formed → FormedOut (f u)) : FormedOut (s.generalOnly f) := .ite h.decodeFault.next (hf h)

theorem execFork {dist : BitVec 40} (h : s.Formed) : FormedOut (execFork g dist s) := by
  unfold Machine.execFork
  refine reserving ?_
  refine h.notMovement (fun h1 => ?_)
  refine h1.guarded ?_
  dsimp only
  split
  · exact h1.trap.next
  · split
    next heq => exact (h1.reserveDq.of_eq heq).putP.retire.next
    next heq => exact (h1.reserveDq.of_eq heq).holdFor.next
    next heq =>
      split
      · exact (h1.reserveDq.of_eq heq).forkPush.next
      · exact (h1.reserveDq.of_eq heq).withSync fun h2 => h2.ownFirst fun h3 => h3.ask

theorem withJoin {obj : Word} {f : State → Place → Out} (h : s.Formed) (hf : ∀ {u p}, u.Formed → FormedOut (f u p)) :
    FormedOut (s.withJoin obj f) := by
  unfold State.withJoin
  split
  · split
    · exact h.trap.next
    · exact hf h
  · exact h.withSync hf

theorem execTaskend (h : s.Formed) : FormedOut (execTaskend g s) := by
  unfold Machine.execTaskend
  refine h.generalOnly (fun h1 => ?_)
  refine h1.guarded ?_
  dsimp only
  split
  · exact .ite h1.trap.next h1.finish.next
  · split
    · exact h1.trap.next
    · exact h1.withJoin fun h2 => h2.afterRelease fun h3 => h3.ask

theorem enqueue {m : Msg} (h : s.Formed) : (s.enqueue m).Formed := h.modCur.modVf

theorem sendMsg {m : Msg} (h : s.Formed) : (s.sendMsg m).Formed := h.enqueue.retire.ite h.wait

theorem sending {st : Word} {also : Option Cause} {tval : Word} {f : State → Nat × Option (BitVec 12) → Out}
    (h : s.Formed) (hf : ∀ {u t}, u.Formed → FormedOut (f u t)) :
    FormedOut (s.sending st also tval f) := by
  unfold State.sending
  split
  · exact h.trap.next
  · split
    · exact h.trap.next
    · exact h.rankBelow fun h1 => .ite h1.hwait.next (h1.afterRelease fun h2 => hf h2)

theorem execSend (h : s.Formed) : FormedOut (execSend g a st s) := h.notMovement fun h1 => h1.guarded (h1.sending fun h2 => h2.sendMsg.next)

theorem execSendSys {chan : BitVec 2} (h : s.Formed) : FormedOut (execSendSys g a st chan s) := by
  unfold Machine.execSendSys
  refine h.notMovement (fun h1 => ?_)
  split
  · exact h1.decodeFault.next
  · exact h1.guarded (h1.sending fun h2 => h2.sendMsg.next)

theorem execSendr (h : s.Formed) : FormedOut (execSendr g a st s) := by
  unfold Machine.execSendr
  refine h.generalOnly (fun h1 => ?_)
  refine h1.guarded ?_
  dsimp only
  refine h1.sending (fun h2 => ?_)
  refine h2.afterDrain (fun h3 => ?_)
  refine next ?_
  refine sendMsg ?_
  split
  · exact h3.setFull
  · exact h3

theorem execReply {a sk : SSrc} (h : s.Formed) : FormedOut (execReply g a sk s) := by
  unfold Machine.execReply
  refine h.notMovement (fun h1 => ?_)
  refine h1.guarded ?_
  dsimp only
  split
  · exact h1.trap.next
  · exact h1.afterRecall fun h2 => h2.afterRelease fun h3 => h3.recallOb.dropOb.modCur.modVf.modVf.retire.next

theorem execMsgend (h : s.Formed) : FormedOut (execMsgend g s) := by
  unfold Machine.execMsgend
  split
  · exact h.decodeFault.next
  · exact h.guarded (.ite h.abandonHandler.next h.endHandler.next)

theorem boxTake {k n : Nat} (h : s.Formed) : (s.boxTake c k n).Formed := by
  unfold State.boxTake
  dsimp only
  refine modSlot ?_
  split
  · exact h.modCore
  · exact h

theorem execMbrMovement {a : SSrc} (h : s.Formed) : FormedOut (execMbrMovement g d a s) := by
  unfold Machine.execMbrMovement
  split
  · exact h.decodeFault.next
  · exact h.guarded (.ite h.decodeFault.next (.ite h.putS.boxTake.retire.next h.wait.next))

theorem execCopy {d : BitVec 5} (h : s.Formed) : FormedOut (execCopy g d a s) :=
  h.generalOnly fun h1 => h1.guarded (h1.afterRelease fun h2 => .ite h2.wait.next h2.modCur.retire.next)

theorem gangRank (h : s.Formed) : (s.gangRank).1.Formed := by
  unfold State.gangRank
  split
  · exact h
  · exact h.same rfl

theorem reduceWith {d : BitVec 5} {tree : Bool} (h : s.Formed) : FormedOut (reduceWith g d a tree s) := by
  unfold Machine.reduceWith
  refine h.generalOnly (fun h1 => ?_)
  refine h1.guarded ?_
  dsimp only
  exact h1.gangRank.rankBelow fun h2 => h2.afterRelease fun h3 => (h3.same (by rfl)).modCur.retire.next

/-! ## Page 10 (R65, R170, R310, R323, R361 to R363) -/

theorem execTurnend (h : s.Formed) : FormedOut (execTurnend g s) := h.generalOnly fun h1 => h1.guarded (h1.ite (h1.same (by rfl))).retire.next

theorem dropTlb {pasid : Option Nat} (h : s.Formed) : (s.dropTlb v pasid).Formed := h.same rfl

theorem execTlbinv {vfScope : Bool} (h : s.Formed) : FormedOut (execTlbinv g vfScope s) := by
  unfold Machine.execTlbinv
  refine h.notMovement (fun h1 => ?_)
  split
  · exact h1.decodeFault.next
  · refine h1.guarded ?_
    refine h1.afterRelease (fun h2 => ?_)
    dsimp only
    split
    · split
      · exact (h2.dropTlb.foldl fun h3 => h3.drainAll).hold.next
      · exact (h2.dropTlb.foldl fun h3 => h3.drainAll).retire.next
    · split
      · exact (h2.dropTlb.foldl fun h3 => h3.drainAll).hold.next
      · exact (h2.dropTlb.foldl fun h3 => h3.drainAll).retire.next

end State.Formed
end Sys2Proof.Machine
end

section
/-! # Launches, deliveries and engines keep the form of memory (R8 to R32, R90, R91, R240 to R257, R285) -/
namespace Sys2Proof.Machine
namespace State.Formed

variable {s t : State} {c core d die hq i k l n q tenant v vf : Nat} {poison : Bool} {e : CopyEntry} {m : Msg} {p : Place} {w : Word}

/-! ## Launches (R8 to R12, R30 to R32, R285, R345 to R350) -/

theorem putIA {ia : Nat} (h : s.Formed) : (s.putIA v ia w).Formed := by
  unfold State.putIA
  split
  · exact h.performIo.flushInvals
  · exact h

theorem mapLeaf {va : Nat} {leaf : Word → Word} {table : Nat} (h : s.Formed) : (s.mapLeaf v va leaf n table).Formed := by
  induction n generalizing s table with
  | zero => exact h.putIA.ite h
  | succ n ih =>
    have zeroed : ∀ {u : State} {t : Nat}, u.Formed → ((List.range 512).foldl (fun s i => s.putIA v (t + 8 * i) 0) u).Formed :=
      fun h1 => h1.foldl fun h2 => h2.putIA
    exact (ih h).ite ((ih (zeroed (h.same (by rfl))).putIA).ite h)

theorem mapTs {cls va page : Nat} (h : s.Formed) : (s.mapTs v tenant cls va page).Formed := by
  unfold State.mapTs
  split
  · exact h
  · exact h.mapLeaf

theorem newRegion {pa : Nat} (h : s.Formed) : (s.newRegion pa c v).Formed := by
  unfold State.newRegion
  dsimp only
  refine sliceWrite (flushInvals ⟨Memory.wf_filter _ ?_⟩)
  exact (h.foldl fun h1 => h1.sendInvals).wf

theorem makeRegion {q : Nat × Nat × Nat} (h : s.Formed) : (s.makeRegion v tenant q).Formed := by
  unfold State.makeRegion
  dsimp only
  split
  · exact (h.same (by rfl)).foldl fun h1 => h1.mapTs
  · split
    · exact ((h.same (by rfl)).foldl fun h1 => h1.mapTs).newRegion
    · exact (h.same (by rfl)).foldl fun h1 => h1.mapTs

theorem takeTouch {a : Nat} (h : s.Formed) : (s.takeTouch v tenant q a).Formed := h.frontTouch.frontTouch.frontTouch

theorem pastHead (h : s.Formed) : (s.pastHead v tenant q n).Formed := h.frontWrite

theorem rejectPacket {p : List Word} {code stage : Nat} (h : s.Formed) : (s.rejectPacket v tenant q n p code stage).Formed := h.pastHead.endPacket

theorem takePark (h : s.Formed) : (s.takePark d hq).Formed := by
  unfold State.takePark
  split
  · exact h.parkAt
  · exact h

theorem take (h : s.Formed) : (s.take d hq).Formed := by
  unfold State.take
  split
  · exact h.takePark
  · split
    · exact h
    · dsimp only
      split
      · exact h.takeTouch.rejectPacket
      · exact (h.takeTouch.pastHead.foldl fun h1 => h1.makeRegion).same rfl

theorem execLaunchTake (h : s.Formed) : FormedOut (execLaunchTake die hq s) := h.take.next

theorem startMember {g m : Nat} {x : Launch} {info : StageInfo} (h : s.Formed) : (s.startMember l g m x info).Formed := by
  unfold State.startMember
  split
  · exact h
  · dsimp only
    split
    · exact h.modVf
    · exact h.modVf.setSlot

theorem releaseGang {g : Nat} (h : s.Formed) : (s.releaseGang l g).Formed := by
  unfold State.releaseGang
  split
  · exact h
  · split
    · exact h
    · exact ((h.same (by rfl)).foldl fun h1 => h1.modCore).foldl fun h1 => h1.startMember

theorem execGangRelease {launch stage : Nat} (h : s.Formed) : FormedOut (execGangRelease launch stage s) := (h.releaseGang.ite h).next

theorem sweep (h : s.Formed) : (s.sweep l).Formed := by
  unfold State.sweep
  split
  · exact h
  · exact h.ite (h.endLaunch.ite (h.same rfl))

theorem execLaunchSweep {launch : Nat} (h : s.Formed) : FormedOut (execLaunchSweep launch s) := h.sweep.next

theorem execVqPlacement {vq : Nat} (h : s.Formed) : FormedOut (execVqPlacement vf tenant vq die hq s) := by
  unfold Machine.execVqPlacement
  dsimp only
  split
  · exact h.next
  · split
    · exact h.rejectPacket.next
    · split
      · exact h.next
      · exact .ite h.next h.setPf.next

/-! ## Pops, steals, messages and mailboxes (R22 to R26, R240, R245 to R253) -/

theorem execTaskPop {slot : Nat} (h : s.Formed) : FormedOut (execTaskPop core slot s) := by
  unfold Machine.execTaskPop
  dsimp only
  split
  · split
    · exact h.next
    next heq' => exact (h.popRec heq').dispatchRec.next
  · exact h.next

theorem execStealVisit (h : s.Formed) : FormedOut (execStealVisit core vf s) := by
  unfold Machine.execStealVisit
  split
  · exact h.next
  · split
    · exact h.modVf.next
    · split
      · exact h.next
      · split
        next heq'' => exact (h.stealRec.fst heq'').modVf.next
        next heq'' =>
          split
          · exact (h.stealRec.fst heq'').modVf.next
          · exact (h.stealRec.fst heq'').modVf.next

theorem execStealArrival (h : s.Formed) : FormedOut (execStealArrival core vf s) := by
  unfold Machine.execStealArrival
  split
  · exact h.next
  · split
    · exact h.next
    · dsimp only
      split
      · exact h.modVf.count.dispatchRec.next
      · split
        next heq'' => exact (h.roomDq.of_eq heq'').modVf.count.pushRec.next
        next heq'' => exact (h.roomDq.of_eq heq'').next
        next heq'' => exact (h.roomDq.of_eq heq'').next

theorem execStealBackoffExpiry (h : s.Formed) : FormedOut (execStealBackoffExpiry core vf s) := by
  unfold Machine.execStealBackoffExpiry
  split
  · exact h.next
  · exact (h.modVf.ite h).next

theorem execDequeSpill (h : s.Formed) : FormedOut (execDequeSpill core vf s) := by
  unfold Machine.execDequeSpill
  split
  · split
    next heq' => exact (h.spillOldest.of_eq heq').next
    next heq' => exact (h.spillOldest.of_eq heq').next
    next heq' => exact (h.spillOldest.of_eq heq').next
  · exact h.next

theorem execDequeRefill (h : s.Formed) : FormedOut (execDequeRefill core vf s) := (h.refill.ite h).next

theorem sendNext (h : s.Formed) : (s.sendNext c k).Formed := by
  unfold State.sendNext
  split
  · exact h.asSlot fun h1 => h1.enqueue.retire
  · exact h

theorem received (h : s.Formed) : (s.received c v).Formed := h.modVf

theorem arrive (h : s.Formed) (e : s.arrive m = some t) : t.Formed := by
  unfold State.arrive at e
  dsimp only at e
  split at e
  · cases e
    exact h.received.refuseReply
  · split at e
    · cases e
    · cases e
      exact h.modVf

theorem leave {xm : Nat} (h : s.Formed) (e : s.leave c k m xm = some t) : t.Formed := by
  unfold State.leave at e
  split at e
  · cases e
  · split at e
    · cases e
      exact h.received.linkDown
    · split at e
      · cases e
      · dsimp only at e
        split at e
        · cases e
          exact (h.same (by rfl)).received.linkDown
        · cases e
          exact (h.same (by rfl)).received

theorem depart (h : s.Formed) (e : s.depart c k m = some t) : t.Formed := by
  unfold State.depart at e
  split at e
  · exact h.leave e
  · split at e
    · cases e
    · exact h.arrive e

theorem execMessageEntry {slot : Nat} (h : s.Formed) : FormedOut (execMessageEntry core slot s) := by
  unfold Machine.execMessageEntry
  split
  · exact h.next
  · split
    · split
      · exact h.next
      · split
        · exact h.next
        · split
          · exact h.next
          next heq' => exact (h.depart heq').modSlot.sendNext.next
    · split
      · exact h.next
      · split
        · exact h.next
        next heq' => exact (h.depart heq').modVf.next

theorem oweReply (h : s.Formed) : (s.oweReply c m).1.Formed := by
  unfold State.oweReply
  dsimp only
  split
  · split
    next heq' => exact (h.findRoom.of_eq heq').placeOb
    next heq' => exact (h.findRoom.of_eq heq').placeOb
    next heq' =>
      dsimp only
      exact (h.findRoom.of_eq heq').modCore
  · exact h

theorem execHandlerStart (h : s.Formed) : FormedOut (execHandlerStart core s) := by
  unfold Machine.execHandlerStart
  split
  · exact h.next
  · split
    · exact h.next
    · split
      · exact h.next
      · dsimp only
        split
        · exact (h.modVf.modCore.count.setSlot.foldl fun h1 => h1.giveOb).oweReply.abandonHandler.next
        · split
          · exact (h.modVf.modCore.count.setSlot.foldl fun h1 => h1.giveOb).oweReply.abandonHandler.next
          · split
            · exact (h.modVf.modCore.count.setSlot.foldl fun h1 => h1.giveOb).oweReply.abandonHandler.next
            · exact (h.modVf.modCore.count.setSlot.foldl fun h1 => h1.giveOb).oweReply.next

theorem execHandlerBudgetExhausted (h : s.Formed) : FormedOut (execHandlerBudgetExhausted core s) := (h.abandonHandler.ite h).next

theorem dropSys (h : s.Formed) : (s.dropSys c m).Formed := h.received.handlerReport

theorem execSystemChannelMessage (h : s.Formed) : FormedOut (execSystemChannelMessage core vf s) := by
  unfold Machine.execSystemChannelMessage
  split
  · exact h.next
  · split
    · exact h.next
    · split
      · dsimp only
        split
        · exact h.modVf.dropSys.next
        · split
          · exact .ite h.modVf.dropSys.next h.modVf.modVf.received.next
          · split
            · exact h.next
            · split
              · exact h.next
              · exact h.next
              next heq₃ => exact (h.modVf.roomDq.of_eq heq₃).pushRec.received.next
      · exact h.next

theorem modEngine {e : Nat} {f : CopyEngine → CopyEngine} (h : s.Formed) : (s.modEngine d e f).Formed := h.modDie

theorem execMailboxService (h : s.Formed) : FormedOut (execMailboxService core s) := by
  unfold Machine.execMailboxService
  split
  · exact h.next
  · split
    · exact h.next
    · exact .ite h.next h.modEngine.modSlot.modVf.modCore.next

/-! ## Copies and collectives (R90, R91, R251 to R257) -/

theorem landStatus {gen : BitVec 32} {sd : BitVec 5} {coll : Bool} (h : s.Formed) : (s.landStatus c k gen sd coll w).Formed := by
  unfold State.landStatus
  dsimp only
  split
  · split
    · exact h.modSlot.patchCtx
    · exact h.modSlot
  · split
    · exact h.inImage fun h1 => h1.modSlot
    · exact h

theorem engineWalk {pasid : Nat} {ea : Word} (h : s.Formed) : (s.engineWalk c v pasid ea).Formed := h.ite (h.foldl fun h1 => h1.l2Access)

theorem engineRead (h : s.Formed) : (s.engineRead c vf p).1.Formed := by
  unfold State.engineRead
  split
  · exact h.same rfl
  · exact h.l2Access

theorem engineWrite {v : Word} {poisoned : Bool} (h : s.Formed) : (s.engineWrite c vf p v poisoned).Formed := by
  unfold State.engineWrite
  split
  · exact h.same rfl
  · exact h.engineWord.ite (h.performFor.poisonFrom.ite h.performFor)

theorem copyWord (h : s.Formed) : (s.copyWord e i poison).Formed := by
  unfold State.copyWord
  split
  · exact h
  · split
    · exact trivial
    · split
      · exact h
      · exact h
      · split
        · exact trivial
        · dsimp only
          change State.Formed _
          refine engineWrite ?_
          split
          · dsimp only
            split
            · exact h.engineWalk.engineWalk.flushInvals.ite h.engineWalk.engineWalk
            · exact (h.engineWalk.engineWalk.flushInvals.ite h.engineWalk.engineWalk).engineRead
          · split
            · exact (h.engineWalk.engineWalk.flushInvals.ite h.engineWalk.engineWalk).engineRead
            · exact (h.engineWalk.engineWalk.flushInvals.ite h.engineWalk.engineWalk).engineRead.engineRead

theorem copyWords (h : s.Formed) : (s.copyWords e n i poison).Formed := by
  induction n generalizing s i poison with
  | zero => exact h
  | succ n ih =>
    have copied := h.copyWord (e := e) (i := i) (poison := poison)
    rw [State.copyWords]
    split
    next heq => exact ih (copied.of_eq heq)
    · exact copied

theorem farWords {r : Option (Cause × Nat) × Bool} (h : s.Formed) (eq : State.farWords e n i s poison = some (t, r)) : t.Formed := by
  induction n generalizing s i poison with
  | zero =>
    cases eq
    exact h
  | succ n ih =>
    rw [State.farWords] at eq
    split at eq
    · cases eq
    · split at eq
      · cases eq
        exact h
      · split at eq
        · cases eq
        · refine ih ?_ eq
          split
          · exact h.engineWalk.same rfl
          · exact ⟨h.engineWalk.engineRead.wf⟩

theorem farCopy {r : Word} (h : s.Formed) (eq : s.farCopy e = some (t, r)) : t.Formed := by
  unfold State.farCopy at eq
  dsimp only at eq
  split at eq
  · cases eq
    exact h
  · split at eq
    · cases eq
    · split at eq
      · cases eq
        exact h.same rfl
      · split at eq
        · cases eq
          exact h.same rfl
        · obtain ⟨q, hq, e'⟩ := Option.map_eq_some_iff.mp eq
          have copied : q.1.Formed := farWords (h.same (by rfl)) hq
          suffices hqt : q.1 = t from hqt ▸ copied
          split at e'
          · split at e'
            · cases e'
              rfl
            · split at e' <;> (cases e'; rfl)
          · cases e'
            rfl
          · cases e'
            rfl

theorem runCopy (h : s.Formed) {r : Word} (e : s.runCopy e = some (t, r)) : t.Formed := by
  unfold State.runCopy at e
  split at e
  · cases e
    exact h
  · split at e
    · cases e
      exact h
    · split at e
      · exact h.farCopy e
      · split at e
        · cases e
        · split at e
          · cases e
            exact h
          · split at e
            next heq =>
              cases e
              exact h.copyWords.of_eq heq
            next heq =>
              cases e
              exact h.copyWords.of_eq heq
            · cases e

theorem copyEarly {how : Nat} (h : s.Formed) : (s.copyEarly e i how).1.Formed := by
  unfold State.copyEarly
  dsimp only
  split
  · exact h
  · split
    · exact h
    · split
      · split
        · exact h
        · split
          · exact h
          · exact h.engineWalk.engineRead
      · split
        next heq => exact h.copyWord.of_eq heq
        · exact h

theorem copyBegin (h : s.Formed) : (s.copyBegin e).1.Formed := by
  have early : ∀ {l : List Nat} {r : State × CopyEntry}, r.1.Formed →
      (l.foldl (fun r i => r.1.copyEarly r.2 i (Config.engineNow s.fresh i % 3)) r).1.Formed := by
    intro l
    induction l with
    | nil => exact id
    | cons i l ih => exact fun h1 => ih h1.copyEarly
  unfold State.copyBegin
  dsimp only
  split
  · exact h
  · exact early (h.same rfl)

theorem execCopyStart {engine : Nat} (h : s.Formed) : FormedOut (execCopyStart die engine s) := by
  unfold Machine.execCopyStart
  split
  · exact h.next
  · split
    · split
      next heq'' => exact (h.copyBegin.fst heq'').modEngine.next
    · exact h.next

theorem execCopyComplete {engine idx : Nat} (h : s.Formed) : FormedOut (execCopyComplete die engine idx s) := by
  unfold Machine.execCopyComplete
  split
  · exact h.next
  · split
    · exact h.next
    · split
      · split
        · exact h.parkAt.next
        · exact h.next
      next heq' => exact (h.runCopy heq').flushInvals.modEngine.count.landStatus.next

theorem partialAt (h : s.Formed) : (s.partialAt c vf p).1.Formed := by
  unfold State.partialAt
  split
  · exact h.same rfl
  · exact h.l2Access

theorem gatherParts {l : List Place} (h : s.Formed) : (s.gatherParts c vf l).1.Formed := by
  induction l generalizing s with
  | nil => exact h
  | cons p l ih => exact ih h.partialAt

theorem gatherAll {l : List Participant} {r : List (List (Lane × Bool))} (h : s.Formed) (e : s.gatherAll n l = .ok (t, r)) : t.Formed := by
  induction l generalizing s r with
  | nil =>
    cases e
    exact h
  | cons p l ih =>
    rw [State.gatherAll] at e
    split at e
    · cases e
    · dsimp only at e
      split at e
      · cases e
      next heq =>
        cases e
        exact ih h.engineWalk.gatherParts heq

theorem deliverTo {rs : List (Lane × Bool)} {p : Participant} (h : s.Formed) : (s.deliverTo rs p).Formed := by
  unfold State.deliverTo
  split
  · exact h.landStatus
  · exact (((h.engineWalk.performFor.foldl fun h1 => h1.poisonFrom).foldl fun h1 => h1.ite h1.serveWord).foldl fun h1 =>
    (h1.same (by rfl))).flushInvals.landStatus

theorem failAll {q : Collective} (h : s.Formed) : (s.failAll q w).Formed := h.foldl fun h1 => h1.landStatus

theorem collPark {q : Collective} (h : s.Formed) : (s.collPark q).Formed := by
  unfold State.collPark
  split
  · exact h.parkAt
  · exact h

theorem execCollectiveComplete {idx : Nat} (h : s.Formed) : FormedOut (execCollectiveComplete idx s) := by
  unfold Machine.execCollectiveComplete
  split
  · exact h.next
  · split
    · exact h.collPark.next
    · dsimp only
      split
      · exact (h.same (by rfl)).failAll.next
      · split
        · exact ((h.same (by rfl)).failAll.ite (h.same (by rfl))).next
        · split
          · exact (h.same (by rfl)).failAll.next
          · split
            · exact (h.same (by rfl)).failAll.next
            next heq' => exact (((h.same (by rfl)).gatherAll heq').foldl fun h1 => h1.deliverTo).next

theorem loseHand (h : s.Formed) : (s.loseHand c).Formed := (h.foldl fun h1 => h1.landStatus).modCore

theorem loadMovements (h : s.Formed) : s.loadMovements.Formed := h.same rfl

theorem execMovementRestart (h : s.Formed) : FormedOut (execMovementRestart core s) := by
  unfold Machine.execMovementRestart
  split
  · exact h.next
  · have restarted := h.unlist (c := core) (k := 0)
    exact next (loseHand ⟨restarted.wf⟩)

end State.Formed
end Sys2Proof.Machine
end

section
/-! # What happens on its own keeps the form of memory (R153, R172 to R176, R203, R304 to R330, R335 to R359) -/
namespace Sys2Proof.Machine
namespace State.Formed

variable {s : State} {c core idx island k slot vf : Nat}

/-! ## Stores, replies, deferred lists and fault queues (R164, R172, R203, R204, R290) -/

theorem parkStore {t : State} (h : s.Formed) (e : s.parkStore c k idx = some t) : t.Formed := by
  unfold State.parkStore at e
  dsimp only at e
  split at e
  · cases e
  · split at e
    · cases e
    · cases e
      exact h.parkAt

theorem execStoreBufferDrain (h : s.Formed) : FormedOut (execStoreBufferDrain core slot idx s) := by
  unfold Machine.execStoreBufferDrain
  split
  · exact h.next
  · split
    · exact (h.getD h.parkStore).next
    next heq => exact (h.drainWord heq).modSlot.next

theorem execPostedStoreArrival (h : s.Formed) : FormedOut (execPostedStoreArrival core slot idx s) := by
  unfold Machine.execPostedStoreArrival
  dsimp only
  split
  · exact h.next
  · exact .ite h.next (.ite h.holdPacket.next h.postWord.next)

theorem execPostedReplyArrival (h : s.Formed) : FormedOut (execPostedReplyArrival core slot idx s) := by
  unfold Machine.execPostedReplyArrival
  split
  · exact h.next
  · split
    · exact h.replyWord.next
    · split
      · exact (h.holdPacket.ite h).next
      · exact h.next

theorem tlbClear {vfScope : Bool} (h : s.Formed) : (s.tlbClear c k vfScope).1.Formed := h.foldl fun h1 => h1.drainAll

theorem again (h : s.Formed) : (s.again c k).Formed := h.modSlot

theorem served {t : State} {w : Wait} (h : s.Formed) (e : s.served c k w = some t) : t.Formed := by
  have mapped {o : Option State} {f : State → State} (ho : ∀ {u}, o = some u → (f u).Formed) (e' : o.map f = some t) : t.Formed := by
    obtain ⟨u, hu, rfl⟩ := Option.map_eq_some_iff.mp e'
    exact ho hu
  have refused {p : Prop} {_ : Decidable p} {u : State} (hu : u.Formed) (e' : (if p then none else some u) = some t) : t.Formed := by
    split at e' <;> cases e'
    exact hu
  have granted {p : Prop} {_ : Decidable p} {u : State} (hu : u.Formed) (e' : (if p then some u else none) = some t) : t.Formed := by
    split at e' <;> cases e'
    exact hu
  cases w
  case tblld =>
    unfold State.served at e
    dsimp only at e
    split at e
    · cases e
    · exact mapped (fun hu => (h.drained hu).asSlot fun h1 => h1.tblInstall) e
  case storeFull => exact granted h.modSlot e
  case postFull => exact granted h.modSlot e
  case mxFull =>
    unfold State.served at e
    dsimp only at e
    split at e
    · exact mapped (fun hu => (h.drained hu).mxAppend.asSlot fun h1 => h1.retire) e
    · cases e
  case release => exact refused (h.asSlot fun h1 => h1.releaseBay) e
  case mxdrain => exact refused (h.asSlot fun h1 => h1.retire) e
  case copyBox => exact granted (h.modSlot.asSlot fun h1 => h1.retire) e
  case mbwBox => exact refused (h.modSlot.asSlot fun h1 => h1.retire) e
  case mbrBox => exact granted (h.asSlot fun h1 => h1.putS.boxTake.retire) e
  case exiting => exact refused h.endActivity e
  case copyStatus => exact refused h.again e
  case reduceStatus => exact refused h.again e
  case fence sc rst =>
    have drained (e' : (match s.drained c k with
        | none => none
        | some s' => if rst then (s'.postedDone c k).map fun s' => s'.again c k else some (s'.again c k)) = some t) : t.Formed := by
      split at e'
      · cases e'
      next hu =>
        split at e'
        · exact mapped (fun hu' => ((h.drained hu).postedDone hu').again) e'
        · cases e'
          exact (h.drained hu).again
    cases sc
    case thread =>
      cases rst with
      | false => exact drained e
      | true => exact mapped (fun hu => (h.postedDone hu).again) e
    all_goals exact drained e
  case drain => exact mapped (fun hu => (h.drained hu).again) e
  case tlbinv =>
    unfold State.served at e
    dsimp only at e
    split at e
    next heq =>
      cases e
      exact (h.tlbClear.fst heq).again
    · cases e
  case kiosk => exact refused h.again e
  case fifo => exact refused h.again e
  case sendFull => exact granted h.sendNext e
  all_goals cases e

theorem execMemoryReply (h : s.Formed) : FormedOut (execMemoryReply core slot s) := by
  unfold Machine.execMemoryReply
  split
  · exact (h.ite (h.getD h.served)).next
  · exact h.next

theorem execDivideComplete (h : s.Formed) : FormedOut (execDivideComplete core slot s) := by
  unfold Machine.execDivideComplete
  split
  · exact h.replyS.next
  · exact (h.asSlot fun h1 => h1.putV.addFlags.retire).next
  · exact h.next

theorem execLateReplyLand {tenant : Nat} (h : s.Formed) : FormedOut (execLateReplyLand vf tenant core slot s) := by
  unfold Machine.execLateReplyLand
  split
  · exact h.next
  · exact h.lateLand.next

theorem joinHeld {w : Waiter} (h : s.Formed) : (s.joinHeld w).Formed := by
  unfold State.joinHeld
  dsimp only
  split
  · exact (h.unjoin.asSlot fun h1 => h1.actLds).ite (h.same (by rfl)).countJoin
  · exact (h.unjoin.asSlot fun h1 => h1.actVldsWord).ite (h.same (by rfl)).countJoin
  · exact (h.unjoin.asSlot fun h1 => h1.actTake).ite (h.same (by rfl)).countJoin
  · exact h.unjoin.readHome.replyS.ite (h.same (by rfl)).countJoin
  · exact (h.same (by rfl)).countJoin

theorem execDeferredEntryJoin {home : Nat} (h : s.Formed) : FormedOut (execDeferredEntryJoin home s) := by
  unfold Machine.execDeferredEntryJoin
  split
  · exact h.next
  · split
    · exact h.next
    · exact h.joinHeld.next

theorem execRdcInvalidation {die : Nat} (h : s.Formed) : FormedOut (execRdcInvalidation die idx s) := by
  unfold Machine.execRdcInvalidation
  split
  · exact h.next
  · exact h.invalArrive.next

theorem execInvalidationAck {die : Nat} (h : s.Formed) : FormedOut (execInvalidationAck die idx s) := by
  unfold Machine.execInvalidationAck
  split
  · exact h.next
  · exact h.ackArrive.next

theorem tsLand {put : Bool} (h : s.Formed) : (s.tsLand c k put).Formed := by
  unfold State.tsLand
  split
  · exact h.tsArrive.ite h
  · exact h

theorem execTsRequestArrival (h : s.Formed) : FormedOut (execTsRequestArrival core slot s) := h.tsLand.next

theorem execTsDepositArrival (h : s.Formed) : FormedOut (execTsDepositArrival core slot s) := h.tsLand.next

theorem replaySlot {q : Parked} (h : s.Formed) : FormedOut (s.replaySlot q) := by
  unfold State.replaySlot
  split
  next r _ _ =>
    have asked := h.atSlot (c := q.core) (k := q.slot) |>.ask (r := r)
    refine .ite (h.asSlot fun h1 => h1.hold).next ?_
    split
    next heq => exact (asked.next _ heq).atSlot.next
    · exact .fault _
    · exact .refused _
  · exact h.modSlot.next
  · exact h.next

theorem replay1 {q : Parked} (h : s.Formed) : FormedOut (s.replay1 q) := by
  unfold State.replay1
  dsimp only
  split
  · exact (h.same (by rfl)).replaySlot
  · exact (h.same (by rfl)).replayStore.next
  · exact (h.same (by rfl)).tsLand.tsLand.next
  · split
    · exact (h.same (by rfl)).execCopyComplete
    · exact (h.same (by rfl)).next
  · split
    · exact (h.same (by rfl)).mxStart
    · exact (h.same (by rfl)).next
  · split
    · exact (h.same (by rfl)).execCollectiveComplete
    · exact (h.same (by rfl)).next
  · exact (h.same (by rfl)).doorbell.next
  · exact (h.same (by rfl)).take.next
  · exact (h.same (by rfl)).endPacket.next
  · exact (h.same (by rfl)).frontWrite.next
  · exact (h.same (by rfl)).ringWrite.next

theorem replayAll {n : Nat} (h : s.Formed) : FormedOut (s.replayAll n) := by
  induction n generalizing s with
  | zero => exact h.writeSpills.next
  | succ n ih =>
    rw [State.replayAll]
    split
    · exact h.writeSpills.next
    next q _ =>
      have replayed := h.replay1 (q := q)
      split
      next heq => exact ih (replayed.next _ heq)
      · exact .fault _
      · exact .refused _

theorem execFaultQueueReplay {page : Nat} (h : s.Formed) : FormedOut (execFaultQueueReplay page s) := (h.same (by rfl)).replayAll

/-! ## Errors, retirements and boundaries (R153, R173 to R176, R312, R333, R335) -/

theorem execRegisterError {vec : Bool} {r : Reg} (h : s.Formed) : FormedOut (execRegisterError core slot vec r s) := by
  unfold Machine.execRegisterError
  split
  · exact (h.modSlot.ite h).next
  · exact h.modVf.next

theorem retireEvent {kind unit : Nat} {vfs : List Nat} (h : s.Formed) : (s.retireEvent kind unit c k vfs).Formed := h.event.foldl fun h1 => h1.event

theorem loseCap {r d : Nat} (h : s.Formed) : (s.loseCap r d).Formed := (h.same (by rfl)).setCap

theorem execHeartbeatMiss (h : s.Formed) : FormedOut (execHeartbeatMiss core slot s) := .ite h.next (.ite h.fenceVf.next h.modSlot.next)

theorem execHbmissDelivery (h : s.Formed) : FormedOut (execHbmissDelivery core slot s) := .ite h.next h.withdraw.modSlot.next

theorem execPtgapRecord (h : s.Formed) : FormedOut (execPtgapRecord core slot s) := (h.modSlot.ite h).next

theorem execPtgapDelivery (h : s.Formed) : FormedOut (execPtgapDelivery core slot s) := by
  unfold Machine.execPtgapDelivery
  dsimp only
  split
  · exact h.next
  · exact .ite h.next h.modSlot.next

theorem execReplyFaultDelivery (h : s.Formed) : FormedOut (execReplyFaultDelivery core slot s) := by
  unfold Machine.execReplyFaultDelivery
  dsimp only
  split
  · exact h.next
  · exact .ite h.next h.modSlot.next

theorem execActivityKill (h : s.Formed) : FormedOut (execActivityKill core slot s) := by
  unfold Machine.execActivityKill
  split
  · exact h.next
  · exact .ite h.next (.ite h.abandonHandler.next h.killSlot.next)

theorem execSlotScrubComplete {again : Bool} (h : s.Formed) : FormedOut (execSlotScrubComplete core slot again s) :=
  .ite h.next (.ite h.modSlot.retireEvent.next h.modSlot.next)

/-! ## Turn edges, clocks, counters and trace (R304 to R330) -/

theorem atTick {due : Option Nat} {f : State → State} (h : s.Formed) (hf : ∀ {u}, u.Formed → (f u).Formed) : FormedOut (s.atTick due f) := by
  unfold State.atTick
  split
  · exact h.next
  · exact (hf h.advance).next

theorem execDrainLead (h : s.Formed) : FormedOut (execDrainLead vf s) := by
  unfold Machine.execDrainLead
  refine h.atTick (fun h1 => ?_)
  split
  · exact h1.lead
  · exact h1

theorem execSynchronisedStop (h : s.Formed) : FormedOut (execSynchronisedStop vf s) := by
  unfold Machine.execSynchronisedStop
  refine h.atTick (fun h1 => ?_)
  split
  · exact h1.stopVf
  · exact h1

theorem execTurnEdgeRestore (h : s.Formed) : FormedOut (execTurnEdgeRestore vf s) := h.atTick fun h1 => h1.finishEdge.ite h1

theorem execTurnBoundary (h : s.Formed) : FormedOut (execTurnBoundary s) := h.atTick fun h1 => (h1.stopOut.same (by rfl)).enterRow

theorem execRoundBoundary (h : s.Formed) : FormedOut (execRoundBoundary s) := by
  unfold Machine.execRoundBoundary
  refine h.atTick (fun h1 => ?_)
  split
  · exact (h1.stopOut.same (by rfl)).takeLead.enterRow.shortfalls
  · exact (h1.same (by rfl)).takeLead.enterRow.shortfalls

theorem execDonationEffect (h : s.Formed) : FormedOut (execDonationEffect vf s) := h.atTick fun h1 => h1.same rfl

theorem execFrequencyStep (h : s.Formed) : FormedOut (execFrequencyStep island s) := h.atTick fun h1 => h1.reclock

theorem execRelockComplete (h : s.Formed) : FormedOut (execRelockComplete island s) := h.atTick fun h1 => h1.reclock

theorem execNcycHeldClear (h : s.Formed) : FormedOut (execNcycHeldClear island s) := h.atTick fun h1 => h1.modIsl

theorem ncycAll (h : s.Formed) : s.ncycAll.Formed := h.foldl fun h1 => h1.modIsl

theorem correct {by' : Int} {back : Bool} (h : s.Formed) : (s.correct by' back).Formed := by
  have slewed {u : State} (h1 : u.Formed) :
      (let t := { u with slew := u.slew + by', timeMin := if back then u.time else u.timeMin }
       if t.time % 1024 = 0 && t.time ≠ u.time then
         { t with islands := t.islands.over fun _ x => if x.powered then x.reanchor t.time else x }
       else t : State).Formed := (h1.same (by rfl)).ite (h1.same rfl)
  exact slewed (h.ncycAll.samplePcs.ite h.ncycAll)

theorem execTimeCorrection {ppm : Int} (h : s.Formed) : FormedOut (execTimeCorrection ppm s) := by
  unfold Machine.execTimeCorrection
  split
  · exact h.next
  · exact .ite (h.advance.correct.same (by rfl)).next (.ite h.correct.next h.next)

theorem execPcselEffect {j : Nat} (h : s.Formed) : FormedOut (execPcselEffect vf j s) := .ite h.next (h.atTick fun h1 => h1.effectPcsel)

theorem execTrctlEffect (h : s.Formed) : FormedOut (execTrctlEffect s) := h.atTick fun h1 => h1.effectTrctl

theorem execPcTotalSample (h : s.Formed) : FormedOut (execPcTotalSample s) := h.atTick fun h1 => h1.samplePcs

theorem execTraceStateRecord {state : BitVec 3} (h : s.Formed) : FormedOut (execTraceStateRecord core slot state s) := (h.traceRecord.ite h).next

/-! ## The host, firmware and links (R303, R315, R316, R351 to R359) -/

theorem execHaltComplete {cluster : Nat} (h : s.Formed) : FormedOut (execHaltComplete cluster s) := (h.modClus.ite h).next

theorem execVfReset (h : s.Formed) : FormedOut (execVfReset vf s) := (h.resetVfAll.ite h).next

theorem execRegisterWrite {vf : Option Nat} {off : Nat} {v : Word} (h : s.Formed) : FormedOut (execRegisterWrite vf off v s) := by
  unfold Machine.execRegisterWrite
  split
  · exact (h.writePf.ite h).next
  · exact (h.writeVf.ite h).next

theorem hostRead {pasid : Option (BitVec 20)} {j : Nat} (h : s.Formed) : (s.hostRead vf pasid j).Formed := by
  unfold State.hostRead
  split
  next heq => exact (h.readLow.fst heq).same rfl

theorem abandonUpdate {result : BitVec 8} (h : s.Formed) : (s.abandonUpdate result).Formed := (h.same (by rfl)).ite h

theorem execLiveUpdateAbandon {reason : BitVec 8} (h : s.Formed) : FormedOut (execLiveUpdateAbandon reason s) := by
  unfold Machine.execLiveUpdateAbandon
  split
  · exact h.atTick fun h1 => h1.abandonUpdate
  · exact (h.abandonUpdate.ite h).next

theorem execModuleStart {failed : Option (BitVec 8)} (h : s.Formed) : FormedOut (execModuleStart failed s) := by
  have started : ∀ {t : State}, t.mem = [] → t.Formed := fun e => ⟨by rw [e]; rfl⟩
  refine .ite h.next (State.Formed.next (.ite (State.Formed.loadMovements (started rfl)) (started rfl)))

theorem execLinkRetire {a b : Nat} (h : s.Formed) : FormedOut (execLinkRetire a b s) := by
  unfold Machine.execLinkRetire
  split
  · exact h.next
  · exact ((h.same (by rfl)).retireEvent.loseCap.loseCap.ite (h.same (by rfl)).retireEvent.loseCap).next

theorem modPort {p : Nat} {f : Port → Port} (h : s.Formed) : (s.modPort p f).Formed := h.same rfl

theorem execPortFailure {port : Nat} (h : s.Formed) : FormedOut (execPortFailure port s) := by
  unfold Machine.execPortFailure
  dsimp only
  refine next ?_
  split
  · exact (h.modPort.event.foldl fun h1 => h1.event).retireEvent.foldl fun h1 => h1.loseCap
  · exact h

theorem execIllegal {w : Half} (h : s.Formed) : FormedOut (execIllegal w s) := h.modCur.decodeFault.next

theorem execInstructionFetchFault {c : FetchCause} (h : s.Formed) : FormedOut (execInstructionFetchFault c s) := h.trapAt.next

end State.Formed
end Sys2Proof.Machine
end

section
/-! # Instructions keep the form of memory (R106 to R141) -/
namespace Sys2Proof.Machine
namespace State.Formed

variable {s : State}

/-! ## Float instructions -/

theorem reduceResult {g : Pred} {lat : Nat} {d : Reg} {r : Option Lane × FFlags} {empty : Lane} (h : s.Formed) :
    FormedOut (reduceResult g s lat d r empty) := h.guarded h.putV.addFlags.retire.next

/-! ## Every instruction -/

theorem exec {i : Instr} (h : s.Formed) : FormedOut (exec i s) := by
  cases i with
  | nop => exact h.guarded h.retire.next
  | mov | movi | add | addi | sub | mul | and | andi | or | ori | xor | shl | shli | shr | shri | sar | sari | sel | lea | mfs | mulh | mulhu | min |
      max | minu | maxu | abs | neg | clz | ctz | popc | brev | rotl | ext | extu | ins | sext | zext | pmovs | vextr | vblkmax => exact
      h.scalarResult
  | ldb | ldh | ldw | ldd | ldacq => exact h.loadInto
  | stb | sth | stw | std | strel => exact h.storeFrom
  | vld => exact h.execVld
  | vst => exact h.execVst
  | br => exact h.guarded h.jumpTo.next
  | brp => exact .ite h.jumpTo.next h.retire.next
  | call => exact h.guarded h.putS.jumpTo.next
  | ret => exact h.guarded (.ite h.trap.next h.jumpTo.next)
  | jmpr => exact h.guarded (.ite h.trap.next h.putS.jumpTo.next)
  | loop => exact h.execLoop
  | exit => exact .ite h.decodeFault.next (h.guarded (.ite h.trap.next h.finish.next))
  | trap => exact h.guarded h.trapAt.next
  | beat => exact h.guarded h.modCur.retire.next
  | ypt => exact h.execYpt
  | sigchk => exact .ite h.modCur.retire.next h.modCur.modCur.next
  | fence => exact h.execFence
  | lds => exact h.guarded (h.waits fun h1 => h1.withPlace fun h2 => h2.rankBelow fun h3 => h3.ownFirst fun h4 => h4.ask)
  | take => exact reserving (h.guarded (h.waits fun h1 => h1.withPlace fun h2 => h2.rankBelow fun h3 => h3.withRoom fun h4 => h4.afterDrain fun h5 =>
      h5.ask))
  | put | fill | empty => exact h.guarded (h.withPlace fun h1 => h1.afterDrain fun h2 => h2.ask)
  | vadd | vsub | vmul | vmov | vbcast | vand | vor | vxor | vshl | vshr | vsar | vshli | vshri | vsari | vaddi | vmin | vmax | vminu | vmaxu | vmulh
      | vmad | vabs | vneg | vaddsat | vsubsat | vsel | vpopc | vclz | vdot4 | vfclass | cvthf | cvtbf | cvtsf | cvtnf | tblsel | vperm | vrotl |
      vpack | vunpk => exact h.vectorResult
  | vfadd | vfmul | vffma | vfsub | vfmin | vfmax | vfabs | vfneg | vffms | vffnma | vfrcp | vfrsq | vfexp2 | vflog2 | vftanh | vfscale | vfdot2 |
      cvtfi | cvtif | cvtqf | vscale => exact h.floatResult
  | mxq => exact h.execMxq
  | sywait => exact h.execSywait
  | syadd => exact h.execSyadd
  | mts => exact .ite h.decodeFault.next (h.guarded h.retire.writeSys.next)
  | cmpeq | cmplt | cmpne | cmpge | cmpltu | cmpgeu | cmpeqi | cmplti | cmpltui | pand | por | pxor | pnot | pset | pmovp => exact h.predResult
  | div | divu | rem | remu => exact h.divideResult
  | vcmpeq | vcmpne | vcmplt | vcmpge | vcmpltu | vcmpgeu => exact h.maskResult
  | vfdiv | vfsqrt => exact h.floatDivide
  | vfcmpeq | vfcmplt | vfcmple | vfcmpun => exact h.floatMask
  | vfredsum | vfredmax => exact h.reduceResult
  | cvtfh | cvtfb | cvtfq | cvtfs | cvtfn => exact h.narrowResult
  | tblld => exact h.execTblld
  | vins => exact h.guarded h.putV.retire.next
  | vldg => exact h.execVldg
  | vsts => exact h.execVsts
  | vlds => exact h.execVlds
  | rld => exact h.execRld
  | rst => exact h.execRst
  | rstv => exact h.execRstv
  | takenb => exact reserving (h.guarded (h.withPlace fun h1 => h1.withRoom fun h2 => h2.afterDrain fun h3 => h3.ask))
  | festat => exact h.guarded (h.withPlace fun h1 => h1.ownFirst fun h2 => h2.ask)
  | pref => exact h.execPref
  | flushl => exact h.guarded (h.withPlace fun h1 => .ite h1.trap.next h1.ask)
  | syinit => exact h.execSyinit
  | syarrive => exact h.execSyarrive
  | syret => exact h.execSyret
  | syread => exact h.execSyread
  | gbar => exact h.execGbar
  | obnew => exact h.execObnew
  | obowe => exact reserving (h.notMovement fun h1 => h1.guarded (h1.withSync fun h2 => h2.ownFirst fun h3 => h3.withRoom fun h4 => h4.ask))
  | obgive => exact h.execObgive
  | obq => exact h.execObq
  | obrank => exact h.execObrank
  | tsput => exact h.execTsput
  | tscopy | tscopyNb | tstake | tstakeNb => exact h.notMovement fun h1 => h1.tsRequest
  | tsowe => exact reserving (h.notMovement fun h1 => h1.guarded (h1.withRegion fun h2 => .ite h2.trap.next (h2.withRoom fun h3 => h3.tsSend.next)))
  | tscount => exact h.execTscount
  | fork => exact h.execFork
  | taskend => exact h.execTaskend
  | send => exact h.execSend
  | sendSys => exact h.execSendSys
  | sendr => exact h.execSendr
  | reply => exact h.execReply
  | msgend => exact h.execMsgend
  | mbw => exact h.generalOnly fun h1 => h1.guarded (.ite h1.wait.next h1.modCur.retire.next)
  | mbr => exact h.generalOnly fun h1 => h1.guarded h1.putS.retire.next
  | mbrMovement => exact h.execMbrMovement
  | copy => exact h.execCopy
  | reduceExact | reduceTree => exact h.reduceWith
  | claim => exact reserving (h.guarded (h.withBay (h.waits fun h1 => h1.rankBelow fun h2 => h2.withRoom fun h3 => .ite h3.modBay.addOb.retire.next
      h3.modBay.wait.next)))
  | release => exact h.execRelease
  | mxstat => exact h.guarded (.ite h.trap.next (h.modVf.ite h).putS.retire.next)
  | mxdrain => exact h.guarded (.ite h.trap.next (.ite h.retire.next h.wait.next))
  | trapret => exact .ite h.decodeFault.next h.modCur.next
  | rdctr | rdturn => exact h.guarded h.putS.retire.next
  | pwrhint => exact h.generalOnly fun h1 => h1.guarded h1.modIsl.retire.next
  | turnend => exact h.execTurnend
  | tlbinv => exact h.execTlbinv
  | dbgbrk => exact h.guarded (.ite h.kioskHalt.wait.next h.trap.next)
  | halt => exact .ite h.decodeFault.next (h.guarded h.retire.kioskHalt.next)
  | setmode => exact .ite h.decodeFault.next h.modCur.retire.next
  | setmodeConst => exact .ite h.decodeFault.next h.modCore.retire.next
  | tload => exact h.execTload
  | tstore => exact h.execTstore
  | mma => exact h.execMma
  | mmasp => exact h.execMmasp
  | accz => exact h.execAccz
  | spload => exact h.execSpload
  | mxnote => exact h.execMxnote
  | mxbar => exact h.execMxbar
  | launchTake => exact h.execLaunchTake
  | gangRelease => exact h.execGangRelease
  | launchSweep => exact h.execLaunchSweep
  | doorbell => exact (h.doorbell.ite h).next
  | vqPlacement => exact h.execVqPlacement
  | taskPop => exact h.execTaskPop
  | stealVisit => exact h.execStealVisit
  | stealArrival => exact h.execStealArrival
  | stealBackoffExpiry => exact h.execStealBackoffExpiry
  | dequeSpill => exact h.execDequeSpill
  | dequeRefill => exact h.execDequeRefill
  | messageEntry => exact h.execMessageEntry
  | handlerStart => exact h.execHandlerStart
  | handlerBudgetExhausted => exact h.execHandlerBudgetExhausted
  | systemChannelMessage => exact h.execSystemChannelMessage
  | mailboxService => exact h.execMailboxService
  | copyStart => exact h.execCopyStart
  | copyComplete => exact h.execCopyComplete
  | collectiveComplete => exact h.execCollectiveComplete
  | movementRestart => exact h.execMovementRestart
  | storeBufferDrain => exact h.execStoreBufferDrain
  | postedStoreArrival => exact h.execPostedStoreArrival
  | postedReplyArrival => exact h.execPostedReplyArrival
  | memoryReply => exact h.execMemoryReply
  | divideComplete => exact h.execDivideComplete
  | lateReplyLand => exact h.execLateReplyLand
  | deferredEntryJoin => exact h.execDeferredEntryJoin
  | rdcInvalidation => exact h.execRdcInvalidation
  | invalidationAck => exact h.execInvalidationAck
  | faultQueueReplay => exact h.execFaultQueueReplay
  | uncorrectableError => exact .ite h.next (h.setPoison.serveWord.ite h.setPoison).next
  | busRepair => exact (h.ite h.modDie).next
  | busRetire => exact .ite h.next h.modDie.retireEvent.loseCap.loseCap.next
  | matrixUnitRetire => exact .ite h.next h.modCore.retireEvent.next
  | obligationStateLoss => exact h.askReset.next
  | heartbeatMiss => exact h.execHeartbeatMiss
  | hbmissDelivery => exact h.execHbmissDelivery
  | ptgapRecord => exact h.execPtgapRecord
  | ptgapDelivery => exact h.execPtgapDelivery
  | replyFaultDelivery => exact h.execReplyFaultDelivery
  | activityKill => exact h.execActivityKill
  | slotScrubComplete => exact h.execSlotScrubComplete
  | drainLead => exact h.execDrainLead
  | synchronisedStop => exact h.execSynchronisedStop
  | turnEdgeRestore => exact h.execTurnEdgeRestore
  | turnBoundary => exact h.execTurnBoundary
  | roundBoundary => exact h.execRoundBoundary
  | capacityChange => exact (h.setCap.ite h).next
  | donationEffect => exact h.execDonationEffect
  | frequencyStep => exact h.execFrequencyStep
  | relockComplete => exact h.execRelockComplete
  | powerCapHold | powerCapRelease => exact (h.modIsl.ite h).next
  | ncycAnchor => exact .ite h.next (h.atTick fun h1 => h1.modIsl)
  | ncycHeldClear => exact h.execNcycHeldClear
  | timeCorrection => exact h.execTimeCorrection
  | traceStateRecord => exact h.execTraceStateRecord
  | kioskHalt => exact (h.kioskHalt.ite h).next
  | kioskResume => exact h.kioskResume.next
  | crossTrigger => exact h.crossTrigger.next
  | haltComplete => exact h.execHaltComplete
  | bscommit => exact (h.commit.ite h).next
  | bsepochWrite => exact (h.writeEpoch.ite h).next
  | vfUp => exact (h.bringUp.ite h).next
  | vfDown => exact (h.takeDown.ite h).next
  | vfReset => exact h.execVfReset
  | partitionWrite => exact (h.writePart.ite h).next
  | preempt => exact (h.preempt.ite h).next
  | resume => exact (h.resume.ite h).next
  | unfence => exact (h.unfence.ite h).next
  | killgang => exact (h.killGang.ite h).next
  | syschanBind => exact (h.bindChan.ite h).next
  | pcselWrite => exact (h.writePcsel.ite h).next
  | pcselEffect => exact h.execPcselEffect
  | trctlWrite => exact h.writeTrctl.next
  | trctlEffect => exact h.execTrctlEffect
  | timelRead | pctlRead => exact (h.hostRead.ite h).next
  | residencyWrite => exact (h.writeRes.ite h).next
  | pwrpolWrite => exact (h.writePwrpol.ite h).next
  | updcmd => exact (h.startUpdate.ite h).next
  | liveUpdateTakeover => exact .ite h.next (h.same (by rfl)).next
  | lodgeFailover => exact (h.same (by rfl)).next
  | bootclr => exact (h.askClear.ite h).next
  | moduleStart => exact h.execModuleStart
  | registerWrite => exact h.execRegisterWrite
  | linkRetire => exact h.execLinkRetire
  | flitReplay | portRetrain | portTrainingComplete => exact (h.modPort.ite h).next
  | portFailure => exact h.execPortFailure
  | tsRequestArrival => exact h.execTsRequestArrival
  | tsDepositArrival => exact h.execTsDepositArrival
  | illegal => exact h.execIllegal
  | instructionFetchFault => exact h.execInstructionFetchFault
  | pageUnavailable => exact (h.ite (h.same (by rfl))).next
  | busHoldEnd => exact h.modDie.replayAll
  | laneRepair => exact ((h.same (by rfl)).ite h).next
  | liveUpdateAbandon => exact h.execLiveUpdateAbandon
  | registerError => exact h.execRegisterError
  | pcTotalSample => exact h.execPcTotalSample
  | channelRetire => exact .ite h.next h.modDie.retireEvent.setCap.next
  | clusterRetire => exact .ite h.next h.modClus.retireEvent.setCap.next
  | islandPowerDown | islandStart => exact .ite h.next h.modIsl.next

end State.Formed
end Sys2Proof.Machine
end

section
/-! # A step keeps the form of memory (R18, R158, R162) -/
namespace Sys2Proof.Machine
namespace State.Formed

variable {s : State} {own : Bool}

/-! ## The issue of an instruction (R16, R18, R59) -/

theorem actRun {a : Act} (h : s.Formed) : FormedOut (Act.run a s) := by
  cases a with
  | movementRestart => exact h.execMovementRestart
  | activityKill => exact h.execActivityKill
  | replyFaultDelivery => exact h.execReplyFaultDelivery
  | ptgapDelivery => exact h.execPtgapDelivery
  | hbmissDelivery => exact h.execHbmissDelivery
  | handlerBudgetExhausted => exact h.execHandlerBudgetExhausted
  | instructionFetchFault => exact h.execInstructionFetchFault
  | illegal => exact h.execIllegal
  | drainLead => exact h.execDrainLead
  | synchronisedStop => exact h.execSynchronisedStop
  | turnBoundary => exact h.execTurnBoundary
  | roundBoundary => exact h.execRoundBoundary
  | turnEdgeRestore => exact h.execTurnEdgeRestore
  | donationEffect => exact h.execDonationEffect
  | frequencyStep => exact h.execFrequencyStep
  | relockComplete => exact h.execRelockComplete
  | pcselEffect => exact h.execPcselEffect
  | trctlEffect => exact h.execTrctlEffect
  | pcTotalSample => exact h.execPcTotalSample
  | heartbeatMiss => exact h.execHeartbeatMiss
  | ptgapRecord => exact h.execPtgapRecord
  | traceStateRecord => exact h.execTraceStateRecord
  | vfReset => exact h.execVfReset
  | storeBufferDrain => exact h.execStoreBufferDrain
  | postedStoreArrival => exact h.execPostedStoreArrival
  | postedReplyArrival => exact h.execPostedReplyArrival
  | memoryReply => exact h.execMemoryReply
  | divideComplete => exact h.execDivideComplete
  | tsRequestArrival => exact h.execTsRequestArrival
  | tsDepositArrival => exact h.execTsDepositArrival
  | slotScrubComplete => exact h.execSlotScrubComplete
  | messageEntry => exact h.execMessageEntry
  | lateReplyLand => exact h.execLateReplyLand
  | deferredEntryJoin => exact h.execDeferredEntryJoin
  | rdcInvalidation => exact h.execRdcInvalidation
  | invalidationAck => exact h.execInvalidationAck
  | taskPop => exact h.execTaskPop
  | stealVisit => exact h.execStealVisit
  | stealArrival => exact h.execStealArrival
  | stealBackoffExpiry => exact h.execStealBackoffExpiry
  | dequeRefill => exact h.execDequeRefill
  | systemChannelMessage => exact h.execSystemChannelMessage
  | handlerStart => exact h.execHandlerStart
  | mailboxService => exact h.execMailboxService
  | copyStart => exact h.execCopyStart
  | copyComplete => exact h.execCopyComplete
  | collectiveComplete => exact h.execCollectiveComplete
  | matrix n =>
    match n with
    | 0 | 1 | 2 | 3 | 4 | 5 | 6 | 7 | 8 | _ + 9 =>
      unfold Machine.Act.run
      exact h.mxStart
  | launchTake => exact h.execLaunchTake
  | gangRelease => exact h.execGangRelease
  | launchSweep => exact h.execLaunchSweep
  | vqPlacement => exact h.execVqPlacement
  | haltComplete => exact h.execHaltComplete
  | liveUpdateTimeout => exact h.execLiveUpdateAbandon
  | faultQueueReplay => exact h.execFaultQueueReplay
  | waitPark => exact h.parkWaiting.next

theorem fetchInstr (h : s.Formed) : (s.fetchInstr).1.Formed := by
  unfold State.fetchInstr
  dsimp only
  split
  · exact h
  · split
    · exact h
    · split
      next heq' => exact h.fetchWords.fst heq'
      next heq' => exact h.fetchWords.fst heq'
      next heq' =>
        split
        · exact h.fetchWords.fst heq'
        · exact h.fetchWords.fst heq'

theorem idleSeat (h : s.Formed) : (s.idleSeat own).Formed := h.count.ite h

theorem stopped {t : State} {f : Foot} {begun : State → State}
    (h : s.Formed) (hf : ∀ {u}, u.Formed → (begun u).Formed) (e : s.stopped own f begun = some t) :
    t.Formed := by
  unfold State.stopped at e
  split at e
  · cases e
    exact h.idleSeat.wait
  · cases e
    exact (hf h.gangRank).trap.ite h.gangRank.idleSeat.wait
  · split at e
    · cases e
      exact (hf h).modCur
    · split at e
      · cases e
        exact (hf (h.same (by rfl))).trap
      · cases e

theorem begin {i : Instr} {f : Foot} {ws : List Half} (h : s.Formed) : (s.begin i f ws).Formed := h.modCur.ite h.modCur.count

theorem setInstr {len : Nat} {ws : List Half} (h : s.Formed) : (s.setInstr len ws).Formed := h.modCur

theorem issue (h : s.Formed) : (s.issue own).Formed := by
  unfold State.issue
  dsimp only
  split
  next heq => exact (h.modCur.fetchInstr.fst heq).idleSeat.wait.joinFetch
  next heq => exact (h.modCur.fetchInstr.fst heq).idleSeat.trap
  next heq => exact (h.modCur.fetchInstr.fst heq).idleSeat
  next heq => exact (h.modCur.fetchInstr.fst heq).idleSeat
  next heq =>
    have decoded {n : Nat} {l : List Half} := (h.modCur.fetchInstr.fst heq).setInstr (len := n) (ws := l)
    split
    · exact decoded.idleSeat.trapAt
    · split
      · exact decoded.idleSeat.begin
      · split
        · exact decoded.begin
        · split
          next heq' => exact decoded.stopped (fun h1 => h1.begin) heq'
          · exact decoded.begin

theorem takeSeat {c k n tick : Nat} {donated : Bool} (h : s.Formed) : (s.takeSeat c k n tick donated).Formed := by
  unfold State.takeSeat
  dsimp only
  split
  · change State.Formed _
    refine idleSeat ?_
    split
    · exact h.advance.settle.modCore.atSlot.modVf.count
    · exact h.advance.settle.modCore.atSlot.countSeat
  · refine issue ?_
    split
    · exact h.advance.settle.modCore.atSlot.modVf.count
    · exact h.advance.settle.modCore.atSlot.countSeat

/-! ## What comes next -/

theorem bring {d : Due} (h : s.Formed) : (s.bring d).Formed := h.advance

theorem seatMove {rest : List Move} (h : s.Formed) : (s.seatMove rest).Formed := by
  unfold State.seatMove
  split
  · exact h.same rfl
  · split
    · exact h.bring
    · exact (h.same (by rfl)).takeSeat

theorem eventMove {i : Instr} {rest : List Move} (h : s.Formed) : (s.eventMove i rest).Formed := by
  unfold State.eventMove
  split
  · exact h.same rfl
  · dsimp only
    split
    · exact h.bring
    · split
      · exact h.takeSeat
      · exact h.same rfl

theorem idleMove (h : s.Formed) : s.idleMove.Formed := by
  unfold State.idleMove
  split
  · exact h
  · split
    · exact h
    · exact h.bring
    · exact h.seatMove

theorem pick (h : s.Formed) : s.pick.Formed := by
  unfold State.pick
  split
  · exact h
  · split
    · exact h.idleMove
    · exact h.seatMove
    · exact h.eventMove

/-! ## One step -/

theorem step (h : s.Formed) : FormedOut (step s) := by
  unfold Machine.step
  split
  next heq => exact (h.pick.of_eq heq).next
  next heq => exact (h.pick.of_eq heq).exec
  next heq => exact (h.pick.of_eq heq).actRun

end State.Formed
end Sys2Proof.Machine
end

section
/-! # Every step keeps the canonical form of memory (O37) -/
namespace Sys2Proof.Machine

/-- Settles O37: what a step picks leaves the form of memory as it is, and so does each instruction and each act. -/
theorem memoryForm : Obligations.MemoryForm := by
  unfold Obligations.MemoryForm
  intro s t hs ht
  exact (State.Formed.step ⟨hs⟩).next t ht |>.wf

end Sys2Proof.Machine
end

section
/-! # What an access below 0x0200_0000 reaches (O15; R159 to R161) -/
namespace Sys2Proof.Machine

variable {s : State} {ea : Word} {w : Want} {c v va : Nat}

/-! ## The checks at a window's place (R165, R171, R174) -/

/-- A window's place lets a data access through: it is writable, carries full/empty bits and is no tuple region. -/
theorem check_window {pa : Nat} (hw : w.fetch = false) : Place.check { pa := pa, kind := .window } w = none := by
  simp [Place.check, hw]

theorem check_window_fetch {pa : Nat} (hw : w.fetch = true) : Place.check { pa := pa, kind := .window } w = some .perm := by
  simp [Place.check, hw]

/-! ## The place of a window address (R159 to R161) -/

theorem windowPlace_local (hva : va < 0x20000) :
    s.windowPlace c v va = ((s.banks v)[va / 8192]?).map fun b => { pa := localBase c + b * 8192 + va % 8192, kind := .window } := by
  unfold State.windowPlace
  rw [if_pos hva]
  cases (s.banks v)[va / 8192]? with
  | none => rfl
  | some b => rfl

theorem windowPlace_spad {q : Nat} (hq : q < 0x800000) :
    s.windowPlace c v (0x1000000 + q) =
      if q < (s.spad v).2 then some { pa := spadBase (clusterOf c) + (s.spad v).1 + q, kind := .window } else none := by
  have hlocal : ¬ 0x1000000 + q < 0x20000 := by omega
  have hspad : 0x1000000 + q < 0x1800000 := by omega
  simp [State.windowPlace, hlocal, hspad]

theorem windowPlace_unused (hva : (0x20000 ≤ va ∧ va < 0x1000000) ∨ 0x1800000 ≤ va) : s.windowPlace c v va = none := by
  have hlocal : ¬ va < 0x20000 := by omega
  have hspad : ¬ (0x1000000 ≤ va ∧ va < 0x1800000) := by omega
  simp [State.windowPlace, hlocal, hspad]

/-- Every place that a window address has is one of kind window, at some physical address. -/
theorem windowPlace_kind {p : Place} (h : s.windowPlace c v va = some p) : ∃ pa, p = { pa := pa, kind := .window } := by
  unfold State.windowPlace at h
  split at h
  · split at h
    · exact ⟨_, (Option.some.inj h).symm⟩
    · cases h
  · split at h
    · split at h
      · exact ⟨_, (Option.some.inj h).symm⟩
      · cases h
    · cases h

/-! ## An aligned access below 0x0200_0000 -/

theorem resolve_window_movement (halign : ea.toNat % w.size = 0) (hea : ea.toNat < 0x2000000) (hslot : s.slot = 0) :
    s.resolve ea w = (s, .error .perm) := by
  simp [State.resolve, State.locate, halign, hea, hslot]

/-- An access of another slot reaches the window's place, if the address has one and the place's checks pass. -/
theorem resolve_window (halign : ea.toNat % w.size = 0) (hea : ea.toNat < 0x2000000) (hslot : s.slot ≠ 0) :
    s.resolve ea w = (s, match s.windowPlace s.core s.bankVf ea.toNat with
      | some p => ((p.check w).map Except.error).getD (.ok p)
      | none => .error .perm) := by
  unfold State.resolve State.locate
  rw [if_neg (by simpa using halign), if_pos hea, if_neg hslot]
  cases s.windowPlace s.core s.bankVf ea.toNat with
  | none => rfl
  | some p =>
    dsimp only
    cases p.check w with
    | none => rfl
    | some e => rfl

theorem resolve_window_none (halign : ea.toNat % w.size = 0) (hea : ea.toNat < 0x2000000)
    (hplace : s.windowPlace s.core s.bankVf ea.toNat = none) : s.resolve ea w = (s, .error .perm) := by
  by_cases hslot : s.slot = 0
  · exact resolve_window_movement halign hea hslot
  · rw [resolve_window halign hea hslot, hplace]

theorem resolve_window_data {pa : Nat} (halign : ea.toNat % w.size = 0) (hea : ea.toNat < 0x2000000) (hslot : s.slot ≠ 0) (hw : w.fetch = false)
    (hplace : s.windowPlace s.core s.bankVf ea.toNat = some { pa := pa, kind := .window }) :
    s.resolve ea w = (s, .ok { pa := pa, kind := .window }) := by
  rw [resolve_window halign hea hslot, hplace]
  dsimp only
  rw [check_window hw]
  rfl

theorem resolve_window_fetch (halign : ea.toNat % w.size = 0) (hea : ea.toNat < 0x2000000) (hw : w.fetch = true) :
    s.resolve ea w = (s, .error .perm) := by
  cases hplace : s.windowPlace s.core s.bankVf ea.toNat with
  | none => exact resolve_window_none halign hea hplace
  | some p =>
    obtain ⟨pa, rfl⟩ := windowPlace_kind hplace
    by_cases hslot : s.slot = 0
    · exact resolve_window_movement halign hea hslot
    · rw [resolve_window halign hea hslot, hplace]
      dsimp only
      rw [check_window_fetch hw]
      rfl

end Sys2Proof.Machine
end

section
/-! # Settling O15 -/
namespace Sys2Proof.Machine

/-- Settles O15: below 0x0200_0000 an access reaches the place its window gives, which lets every data access and no fetch through. -/
theorem windows : Obligations.Windows := by
  unfold Obligations.Windows
  refine ⟨fun s ea w halign hw hslot hea => ?banks, fun s ea w q halign hw hslot hea hq => ?spad, fun s ea w halign hea hcase => ?perm⟩
  case banks =>
    have hplace := windowPlace_local (s := s) (c := s.core) (v := s.bankVf) hea
    cases hb : (s.banks s.bankVf)[ea.toNat / 8192]? with
    | none => exact resolve_window_none halign (by omega) (by rw [hplace, hb]; rfl)
    | some b => exact resolve_window_data halign (by omega) hslot hw (by rw [hplace, hb]; rfl)
  case spad =>
    have hplace := windowPlace_spad (s := s) (c := s.core) (v := s.bankVf) hq
    rw [← hea] at hplace
    refine ⟨fun hin => ?_, fun hout => ?_⟩
    · exact resolve_window_data halign (by omega) hslot hw (by rw [hplace, if_pos hin])
    · exact resolve_window_none halign (by omega) (by rw [hplace, if_neg (by omega)])
  case perm =>
    rcases hcase with hslot | hgap | hbeyond | hw
    · exact resolve_window_movement halign hea hslot
    · exact resolve_window_none halign hea (windowPlace_unused (.inl hgap))
    · exact resolve_window_none halign hea (windowPlace_unused (.inr hbeyond))
    · exact resolve_window_fetch halign hea hw

end Sys2Proof.Machine
end

section
/-! # What a record of an event, and the loss of a capacity, leave alone (R175, R176, R233, R312, R343) -/
namespace Sys2Proof.Machine

variable {s t : State}

/-! ## What a die's firmware knows of its buses and channels (R175, R176) -/

/-- A die's repairs, holds, moves and retirements: all but what its caches, its engines and their messages hold. -/
def Die.upkeep (x : Die) : Die :=
  { busHeld := x.busHeld, busShifts := x.busShifts, busFailed := x.busFailed, busMoving := x.busMoving, busRetired := x.busRetired,
    chanRetired := x.chanRetired }

/-- No bus or channel of a die is repaired, held, moved or retired. -/
structure UpkeepKept (s t : State) : Prop where
  die : ∀ d, (t.die d).upkeep = (s.die d).upkeep

namespace UpkeepKept

theorem refl (s : State) : UpkeepKept s s := ⟨fun _ => rfl⟩

theorem trans {s t u : State} (h : UpkeepKept s t) (h' : UpkeepKept t u) : UpkeepKept s u := ⟨fun d => (h'.die d).trans (h.die d)⟩

/-- What leaves the dies alone. -/
theorem same {s t : State} (h : t.dies = s.dies) : UpkeepKept s t := ⟨fun d => by rw [State.die, State.die, h]⟩

theorem modDie (s : State) (d : Nat) (f : Die → Die) (h : ∀ x, (f x).upkeep = x.upkeep) : UpkeepKept s (s.modDie d f) := by
  constructor
  intro d'
  by_cases hd : d' = d
  · subst hd
    rw [State.die_modDie, h]
  · rw [State.die_modDie_ne s f hd]

theorem l2Touch (s : State) (v pa : Nat) (write : Bool) : UpkeepKept s (s.l2Touch v pa write) := by
  unfold State.l2Touch State.l2Pass
  split
  next d _ =>
    dsimp only
    split
    · exact .refl s
    · split
      · exact modDie s d (fun x => { x with l2 := x.l2.put _ _ }) fun _ => rfl
      · exact .trans (modDie s d (fun x => x.l2Fill _ _ write) fun _ => rfl) (same rfl)
  · exact .refl s

theorem sendInvals (s : State) (core slot die line : Nat) : UpkeepKept s (s.sendInvals core slot die line) := by
  refine foldl_relates refl trans _ (fun s d => ?_) _ s
  exact modDie s d _ fun _ => rfl

theorem performAt (s : State) (die core slot : Nat) (cells : List (Nat × Byte)) : UpkeepKept s (s.performAt die core slot cells) := by
  refine .trans (t := { s with mem := s.mem.patch cells, poison := s.poison.filter fun a => !(wholeWords cells).elem a }) (same rfl)
    (foldl_relates refl trans _ (fun s line => ?_) _ _)
  dsimp only
  generalize (if isRemote die line = true then (s.die die).rdc.look line else none) = copy
  have near (o : State) (h : UpkeepKept s o) : UpkeepKept s (match rangeOf line with
      | .near _ | .far _ => o.sendInvals core slot die line
      | _ => o) := by
    split
    · exact h.trans (sendInvals ..)
    · exact h.trans (sendInvals ..)
    · exact h
  cases copy with
  | none => exact near s (refl s)
  | some bs => exact near _ (modDie s die _ fun _ => rfl)

theorem performIo (s : State) (slot v : Nat) (cells : List (Nat × Byte)) : UpkeepKept s (s.performIo slot v cells) :=
  trans (foldl_relates refl trans _ (fun s _ => l2Touch s v _ true) _ s) (performAt ..)

end UpkeepKept

/-! ## Units (R175, R176, R233, R312, R354, R355) -/

/-- Cores, clusters, links, ports, buses and channels are as they were. -/
structure UnitsKept (s t : State) : Prop where
  cores : t.cores = s.cores
  clusters : t.clusters = s.clusters
  linksRetired : t.linksRetired = s.linksRetired
  ports : t.ports = s.ports
  upkeep : UpkeepKept s t

namespace UnitsKept

theorem refl (s : State) : UnitsKept s s := ⟨rfl, rfl, rfl, rfl, .refl s⟩

theorem trans {s t u : State} (h : UnitsKept s t) (h' : UnitsKept t u) : UnitsKept s u :=
  ⟨h'.cores.trans h.cores, h'.clusters.trans h.clusters, h'.linksRetired.trans h.linksRetired, h'.ports.trans h.ports, h.upkeep.trans h'.upkeep⟩

theorem setPf (s : State) (off : Nat) (w : Word) : UnitsKept s (s.setPf off w) := ⟨rfl, rfl, rfl, rfl, .same rfl⟩

theorem coreOf (h : UnitsKept s t) (c : Nat) : t.coreOf c = s.coreOf c := by rw [State.coreOf, State.coreOf, h.cores]

theorem clus (h : UnitsKept s t) (n : Nat) : t.clus n = s.clus n := by rw [State.clus, State.clus, h.clusters]

theorem port (h : UnitsKept s t) (p : Nat) : t.port p = s.port p := by rw [State.port, State.port, h.ports]

theorem busHeld (h : UnitsKept s t) (d : Nat) : (t.die d).busHeld = (s.die d).busHeld := by
  show (t.die d).upkeep.busHeld = (s.die d).upkeep.busHeld
  rw [h.upkeep.die]

theorem busRetired (h : UnitsKept s t) (d : Nat) : (t.die d).busRetired = (s.die d).busRetired := by
  show (t.die d).upkeep.busRetired = (s.die d).upkeep.busRetired
  rw [h.upkeep.die]

theorem chanRetired (h : UnitsKept s t) (d : Nat) : (t.die d).chanRetired = (s.die d).chanRetired := by
  show (t.die d).upkeep.chanRetired = (s.die d).upkeep.chanRetired
  rw [h.upkeep.die]

end UnitsKept

/-! ## Records (R343) -/

/-- No unit changes, and of the physical function's registers only those of its event ring (R343). -/
structure Reports (s t : State) : Prop extends UnitsKept s t where
  pfReg : ∀ off < 0xB000, t.pfReg off = s.pfReg off

namespace Reports

theorem refl (s : State) : Reports s s := ⟨.refl s, fun _ _ => rfl⟩

theorem trans {s t u : State} (h : Reports s t) (h' : Reports t u) : Reports s u :=
  ⟨h.toUnitsKept.trans h'.toUnitsKept, fun off ho => (h'.pfReg off ho).trans (h.pfReg off ho)⟩

theorem foldl {α : Type} (f : State → α → State) (step : ∀ s a, Reports s (f s a)) (l : List α) (s : State) : Reports s (l.foldl f s) :=
  foldl_relates refl trans f step l s

theorem setVfReg (s : State) (v off : Nat) (w : Word) : Reports s (s.setVfReg v off w) := ⟨⟨rfl, rfl, rfl, rfl, .same rfl⟩, fun _ _ => rfl⟩

theorem setPf (s : State) {off : Nat} (w : Word) (h : 0xB000 ≤ off) : Reports s (s.setPf off w) :=
  ⟨.setPf .., fun _ ho => State.pfReg_setPf_ne s w (Nat.ne_of_lt (Nat.lt_of_lt_of_le ho h))⟩

theorem performIo (s : State) (slot v : Nat) (cells : List (Nat × Byte)) : Reports s (s.performIo slot v cells) := by
  have hunits := UpkeepKept.performIo s slot v cells
  obtain ⟨mem, poison, dies, fresh, he⟩ := WritesOnly.performIo s slot v cells
  rw [he] at hunits ⊢
  exact ⟨⟨rfl, rfl, rfl, rfl, hunits⟩, fun _ _ => rfl⟩

theorem signal (s : State) (f n : Nat) : Reports s (s.signal f n) := by
  unfold State.signal
  dsimp only
  split
  · split <;> exact ⟨⟨rfl, rfl, rfl, rfl, .same rfl⟩, fun _ _ => rfl⟩
  · exact ⟨⟨rfl, rfl, rfl, rfl, .same rfl⟩, fun _ _ => rfl⟩

theorem ringWrite (s : State) (v pa : Nat) (r : EventRec) : Reports s (s.ringWrite v pa r) := by
  unfold State.ringWrite
  split
  · exact ⟨⟨rfl, rfl, rfl, rfl, .same rfl⟩, fun _ _ => rfl⟩
  · split
    · exact ⟨⟨rfl, rfl, rfl, rfl, .same rfl⟩, fun _ _ => rfl⟩
    · exact performIo ..

theorem addEvents (s : State) (l : List EventRec) : Reports s { s with events := l } := ⟨⟨rfl, rfl, rfl, rfl, .same rfl⟩, fun _ _ => rfl⟩

/-- A record enters its ring, if its place there is mapped. -/
theorem ringPlaced (s : State) (ring i : Nat) (r : EventRec) : Reports s (match s.ringPlace ring i with
    | some pa => s.ringWrite ring pa r
    | none => s) := by
  split
  · exact ringWrite ..
  · exact .refl s

theorem event (s : State) (ring code cause core slot tenant : Nat) (detail : List Word) :
    Reports s (s.event ring code cause core slot tenant detail) := by
  unfold State.event State.record
  by_cases hr : ring < 8 <;> simp only [hr, ↓reduceIte]
  · split
    · exact setVfReg ..
    · exact .trans (.trans (ringPlaced s ..) (setVfReg ..)) (.trans (addEvents ..) (signal ..))
  · split
    · exact setPf s _ (by decide)
    · exact .trans (.trans (ringPlaced s ..) (setPf _ _ (by decide))) (.trans (addEvents ..) (signal ..))

/-- The records of a retirement (R343). -/
theorem retireEvent (s : State) (kind unit c k : Nat) (vfs : List Nat) : Reports s (s.retireEvent kind unit c k vfs) :=
  .trans (event ..) (foldl _ (fun s _ => event s ..) vfs _)

/-- The records of a port that is down (R343, R355). -/
theorem portDown (s : State) (p : Nat) : Reports s (s.portDown p) := .trans (event ..) (foldl _ (fun s _ => event s ..) _ _)

/-- The shortfall rule cuts minima, which are no registers of the physical function (R312). -/
theorem shortfall (s : State) (r d : Nat) : Reports s (s.shortfall r d) := by
  unfold State.shortfall
  dsimp only
  split
  · exact .refl s
  · have cut (u : State) (h : Reports s u) (b : Band) : Reports s { u with band := b } :=
      h.trans ⟨⟨rfl, rfl, rfl, rfl, .same rfl⟩, fun _ _ => rfl⟩
    refine .trans (cut _ (foldl _ (fun u v => ?_) _ s) _) (event ..)
    exact setVfReg ..

end Reports

/-! ## Capacities (R312, R315) -/

theorem UnitsKept.setCap (s : State) (r d cap : Nat) : UnitsKept s (s.setCap r d cap) := .trans (.setPf ..) (Reports.shortfall ..).toUnitsKept

theorem UnitsKept.loseCap (s : State) (r d : Nat) : UnitsKept s (s.loseCap r d) :=
  .trans (t := { s with fresh := s.fresh + 1 }) ⟨rfl, rfl, rfl, rfl, .same rfl⟩ (.setCap ..)

theorem Reports.capOf {r : Nat} (h : Reports s t) (hr : r < 5) (d : Nat) : t.capOf r d = s.capOf r d := by
  rw [State.capOf, State.capOf, h.pfReg _ (by omega)]

/-- A die's field of a capacity register with another number in it. -/
def capWord (x c d : Nat) : Word := BitVec.ofNat 64 (x - x / 2 ^ (16 * d) % 2048 * 2 ^ (16 * d) + c % 2048 * 2 ^ (16 * d))

theorem capWord_self {x c d : Nat} (hx : x < 2 ^ 64) (hd : d < 4) : (capWord x c d).toNat / 2 ^ (16 * d) % 2048 = c % 2048 := by
  rw [capWord, BitVec.toNat_ofNat]
  interval_cases d <;> simp only [Nat.reduceMul, Nat.reducePow] at * <;> omega

theorem capWord_ne {x c d d' : Nat} (hx : x < 2 ^ 64) (hd : d < 4) (hd' : d' < 4) (h : d' ≠ d) :
    (capWord x c d).toNat / 2 ^ (16 * d') % 2048 = x / 2 ^ (16 * d') % 2048 := by
  rw [capWord, BitVec.toNat_ofNat]
  interval_cases d <;> interval_cases d' <;> simp only [Nat.reduceMul, Nat.reducePow] at * <;> omega

/-- A capacity is a field of its register. -/
theorem State.capOf_eq (s : State) (r d : Nat) : s.capOf r d = (s.pfReg (0x40 + 8 * r)).toNat / 2 ^ (16 * d) % 2048 := by
  rw [State.capOf, field, show 16 * d + 10 + 1 - 16 * d = 11 by omega, show 2 ^ 11 = 2048 from rfl]

/-- A change of a capacity sets its field, and then the shortfall rule applies (R312). -/
theorem State.setCap_eq (s : State) (r d cap : Nat) :
    s.setCap r d cap = (s.setPf (0x40 + 8 * r) (capWord (s.pfReg (0x40 + 8 * r)).toNat cap d)).shortfall r d := by
  unfold State.setCap capWord field
  dsimp only
  rw [show 16 * d + 10 + 1 - 16 * d = 11 by omega, show 2 ^ 11 = 2048 from rfl]

theorem State.capOf_setCap (s : State) {r d : Nat} (cap : Nat) (hr : r < 5) (hd : d < 4) : (s.setCap r d cap).capOf r d = cap % 2048 := by
  rw [State.setCap_eq, (Reports.shortfall ..).capOf hr, State.capOf_eq, State.pfReg_setPf]
  exact capWord_self (BitVec.isLt _) hd

/-- A change of a capacity leaves every other one. -/
theorem State.capOf_setCap_ne (s : State) {r d r' d' : Nat} (cap : Nat) (hr : r' < 5) (hd : d < 4) (hd' : d' < 4) (h : r' ≠ r ∨ d' ≠ d) :
    (s.setCap r d cap).capOf r' d' = s.capOf r' d' := by
  rw [State.setCap_eq, (Reports.shortfall ..).capOf hr, State.capOf_eq, State.capOf_eq]
  by_cases he : r' = r
  · subst he
    rw [State.pfReg_setPf]
    exact capWord_ne (BitVec.isLt _) hd hd' (by simpa using h)
  · rw [State.pfReg_setPf_ne s _ (by omega)]

/-- What is left of a capacity after a retirement is no more than there was (R312). -/
theorem State.capOf_loseCap_le (s : State) {r d r' d' : Nat} (hr : r' < 5) (hd : d < 4) (hd' : d' < 4) :
    (s.loseCap r d).capOf r' d' ≤ s.capOf r' d' := by
  unfold State.loseCap
  by_cases h : r' = r ∧ d' = d
  · obtain ⟨rfl, rfl⟩ := h
    rw [State.capOf_setCap _ _ hr hd]
    exact (Nat.mod_le ..).trans (Nat.min_le_left ..)
  · exact (State.capOf_setCap_ne _ _ hr hd hd' (by tauto)).le

/-- Losses of one resource, die by die. -/
theorem State.capOf_loseCaps_le (s : State) {r r' d' : Nat} (l : List Nat) (hl : ∀ d ∈ l, d < 4) (hr : r' < 5) (hd' : d' < 4) :
    (l.foldl (fun s d => s.loseCap r d) s).capOf r' d' ≤ s.capOf r' d' := by
  induction l generalizing s with
  | nil => exact Nat.le_refl _
  | cons d l ih =>
    exact (ih _ fun x hx => hl x (List.mem_cons_of_mem d hx)).trans (State.capOf_loseCap_le s hr (hl d List.mem_cons_self) hd')

theorem UnitsKept.loseCaps (s : State) (r : Nat) (l : List Nat) : UnitsKept s (l.foldl (fun s d => s.loseCap r d) s) :=
  foldl_relates refl trans _ (fun s d => loseCap s r d) l s

end Sys2Proof.Machine
end

section
/-! # Errors and repairs: what each event does (R173, R175, R335, R354, R355) -/
namespace Sys2Proof.Machine

open Sys2Proof.Safety

variable {s : State} {a b c d k n p pa w : Nat}

/-! ## Sets of numbers -/

theorem mem_setAdd (l : List Nat) (a : Nat) : a ∈ setAdd l a := List.mem_of_elem_eq_true (setAdd_elem l a)

theorem not_mem_setDel (l : List Nat) (a : Nat) : a ∉ setDel l a := by simp [setDel]

theorem mem_setDel {l : List Nat} {a x : Nat} (h : x ≠ a) : x ∈ setDel l a ↔ x ∈ l := by simp [setDel, h]

theorem length_setAdd {l : List Nat} {a : Nat} (h : a ∉ l) : (setAdd l a).length = l.length + 1 := by
  induction l with
  | nil => rfl
  | cons x l ih =>
    obtain ⟨hx, hl⟩ : a ≠ x ∧ a ∉ l := by simpa using h
    simp only [setAdd, if_neg hx]
    split
    · rfl
    · rw [List.length_cons, ih hl, List.length_cons]

/-! ## Uncorrectable errors (R173, R335) -/

theorem exec_uncorrectableError (a : Nat) (s : State) : exec (.uncorrectableError a) s = execUncorrectableError a s := rfl

/-- The poisoned word's deferred list is empty, so its service leaves it full, where it has a full/empty bit. -/
theorem exec_uncorrectableError_alone (hmem : isMemory (a / 8 * 8) = true) (halone : ∀ x ∈ s.waiters, x.pa ≠ a / 8 * 8) :
    exec (.uncorrectableError a) s = .next (if hasFE (a / 8 * 8) = true then (s.setPoison (a / 8 * 8)).setFull (a / 8 * 8) true
      else s.setPoison (a / 8 * 8)) := by
  rw [exec_uncorrectableError, execUncorrectableError]
  simp only [hmem, Bool.not_true, Bool.false_eq_true, if_false]
  rw [State.serveWord_alone (s.setPoison (a / 8 * 8)) _ halone]

/-! ## Register errors (R335) -/

/-- The VF whose shared registers an activity in slot `k` uses; the movement slot's own are those of index 8. -/
def State.sharedOwner (s : State) (c k : Nat) : Nat := if k = 0 then 8 else (s.slotOf c k).vfid.toNat

theorem exec_registerError_priv {vec : Bool} {n : BitVec 5} (hold : (s.slotOf c k).holds = true) :
    exec (.registerError c k vec (.priv n)) s =
      .next (s.modSlot c k fun x => { x with regErr := x.regErr.filter (· != (vec, n)) ++ [(vec, n)] }) :=
  congrArg Host.Outcome.next (if_pos hold)

theorem exec_registerError_shared (vec : Bool) (n : BitVec 5) :
    exec (.registerError c k vec (.shared n)) s = .next (s.modVf c (s.sharedOwner c k) fun cv =>
      if vec then { cv with wPoison := cv.wPoison.filter (· != n) ++ [n] } else { cv with cPoison := cv.cPoison.filter (· != n) ++ [n] }) := rfl

theorem exec_obligationStateLoss (v : Nat) : exec (.obligationStateLoss v) s = .next (s.askReset v) := rfl

/-- A VF whose reset is asked for has the bit in its control register (R315). -/
theorem askReset_asked {v : Nat} (hv : v < 8) : bit ((s.askReset v).pfReg (0x100 + 0x80 * v)) 1 = true := by
  rw [State.askReset, if_pos hv, State.pfReg_setPf, bit, BitVec.testBit_toNat, BitVec.getLsbD_or]
  simp

/-! ## Buses (R172, R175, R176) -/

/-- A connection of a bus fails: the bus is held and shifts past it. -/
def State.busShifted (s : State) (d b conn n : Nat) : State :=
  s.modDie d fun x => { x with busShifts := x.busShifts.put b (n + 1), busFailed := x.busFailed ++ [(b, conn)], busHeld := setAdd x.busHeld b }

theorem exec_busRepair {conn : Nat} (hd : d < 4) (hshift : ((s.die d).busShifts.look b).getD 0 = n) (hn : n < 4)
    (hretired : b ∉ (s.die d).busRetired) : exec (.busRepair d b conn) s = .next (s.busShifted d b conn n) := by
  refine congrArg Host.Outcome.next ?_
  rw [hshift]
  refine if_neg ?_
  simpa using ⟨⟨hn, hretired⟩, hd⟩

/-- A bus of near memory that is held or moves keeps what it serves from being reached (R172). -/
theorem busHolds_near (hpa : rangeOf pa = .near d) : s.busHolds pa = ((s.die d).busHeld ++ (s.die d).busMoving).elem (busOf pa) := by
  simp only [State.busHolds, hpa]

theorem busHolds_spad {n : Nat} (hpa : rangeOf pa = .spad n) :
    s.busHolds pa = ((s.die (n / 96)).busHeld ++ (s.die (n / 96)).busMoving).elem (busOf pa) := by
  simp only [State.busHolds, hpa]

theorem busShifted_unavail {conn : Nat} (hpa : rangeOf pa = .near d) (hb : busOf pa = b) : (s.busShifted d b conn n).isUnavail pa = true := by
  rw [State.isUnavail, busHolds_near hpa, hb, State.busShifted, State.die_modDie]
  simp [mem_setAdd]

/-- The bus's traffic goes on. -/
def State.busFreed (s : State) (d b : Nat) : State :=
  s.modDie d fun x => { x with busHeld := setDel x.busHeld b, busMoving := setDel x.busMoving b }

theorem exec_busHoldEnd (d b : Nat) (s : State) : exec (.busHoldEnd d b) s = State.replayAll s.faultQ.length (s.busFreed d b) := rfl

theorem busFreed_pageGone : (s.busFreed d b).pageGone pa = s.pageGone pa := rfl

/-- What another bus or another die's serves is held as before. -/
theorem busFreed_busHolds_ne (h : busOf pa ≠ b ∨ homeDie pa ≠ d) : (s.busFreed d b).busHolds pa = s.busHolds pa := by
  have on (d' : Nat) (hd : busOf pa ≠ b ∨ d' ≠ d) : (((s.busFreed d b).die d').busHeld ++ ((s.busFreed d b).die d').busMoving).elem (busOf pa) =
      ((s.die d').busHeld ++ (s.die d').busMoving).elem (busOf pa) := by
    by_cases he : d' = d
    · subst he
      have hb : busOf pa ≠ b := by simpa using hd
      rw [State.busFreed, State.die_modDie, Bool.eq_iff_iff]
      simp [mem_setDel hb]
    · rw [State.busFreed, State.die_modDie_ne s _ he]
  cases hr : rangeOf pa with
  | near d' => rw [busHolds_near hr, busHolds_near hr, on d' (by simpa only [homeDie, hr] using h)]
  | spad n => rw [busHolds_spad hr, busHolds_spad hr, on (n / 96) (by simpa only [homeDie, hr] using h)]
  | loc _ | far _ | device | unmapped => simp only [State.busHolds, hr]

/-- What the bus itself serves is held no longer. -/
theorem busFreed_busHolds (hb : busOf pa = b) (hd : homeDie pa = d) : (s.busFreed d b).busHolds pa = false := by
  have off : (((s.busFreed d b).die d).busHeld ++ ((s.busFreed d b).die d).busMoving).elem (busOf pa) = false := by
    rw [hb, State.busFreed, State.die_modDie]
    simp [not_mem_setDel]
  cases hr : rangeOf pa with
  | near d' =>
    have hd' : d' = d := by simpa only [homeDie, hr] using hd
    rw [busHolds_near hr, hd', off]
  | spad n =>
    have hd' : n / 96 = d := by simpa only [homeDie, hr] using hd
    rw [busHolds_spad hr, hd', off]
  | loc _ | far _ | device | unmapped => simp only [State.busHolds, hr]

theorem homeDie_near (hpa : rangeOf pa = .near d) : homeDie pa = d := by simp only [homeDie, hpa]

theorem busFreed_isUnavail (hb : busOf pa = b) (hd : homeDie pa = d) : (s.busFreed d b).isUnavail pa = s.pageGone pa := by
  rw [State.isUnavail, busFreed_busHolds hb hd, Bool.or_false, busFreed_pageGone]

/-! ### Replay (R172) -/

theorem writeSpills_none (h : NoHeldSpills s) : s.writeSpills = s := by
  unfold State.writeSpills
  have written (p : Nat × Core) (hp : p ∈ s.cores) : (p.2.obs.filter fun o => o.unwritten) = [] := by
    rw [List.filter_eq_nil_iff]
    intro o ho
    simp [h p hp o ho]
  have fold (l : SMap Core) (hl : ∀ p ∈ l, (p.2.obs.filter fun o => o.unwritten) = []) (u : State) :
      l.foldl (fun s p => (p.2.obs.filter fun o => o.unwritten).foldl (fun s o => s.writeSpill p.1 o) s) u = u := by
    induction l with
    | nil => rfl
    | cons p l ih =>
      rw [List.foldl_cons, hl p List.mem_cons_self]
      exact ih fun q hq => hl q (List.mem_cons_of_mem p hq)
  exact fold s.cores written s

/-- Nothing replays while each parked request's page is unavailable. -/
theorem replayAll_waits (hq : ∀ q ∈ s.faultQ, s.isUnavail q.pa = true) (hspills : NoHeldSpills s) (n : Nat) : State.replayAll n s = .next s := by
  have hnext : s.nextReplay = none := by
    rw [State.nextReplay, List.find?_eq_none]
    intro q hmem
    simp [hq q hmem]
  cases n with
  | zero => rw [State.replayAll, writeSpills_none hspills]
  | succ n => rw [State.replayAll, hnext, writeSpills_none hspills]

/-- A request that stands alone in its queue is the next to replay once its page is available. -/
theorem nextReplay_alone {q : Parked} (hq : s.faultQ = [q]) (havail : s.isUnavail q.pa = false) : s.nextReplay = some q := by
  have hin : s.inQueue q = true := by simp [State.inQueue, hq]
  simp [State.nextReplay, hq, havail, hin]

/-- A slot whose fetch has parked runs again. -/
def State.fetchReplayed (s : State) (c k : Nat) : State := { s with faultQ := [] }.modSlot c k fun x => { x with status := .run }

theorem replay1_fetch {q : Parked} (hq : s.faultQ = [q]) (hby : q.by' = .slot) (hwait : (s.slotOf q.core q.slot).status = .wait (.fetch pa)) :
    s.replay1 q = .next (s.fetchReplayed q.core q.slot) := by
  have hnone : s.faultQ.erase q = [] := by simp [hq]
  unfold State.replay1
  simp only [hby, hnone]
  rw [State.replaySlot]
  simp only [State.slotOf, State.coreOf] at hwait ⊢
  rw [hwait]
  rfl

theorem SMap.mem_of_look {α : Type} {m : SMap α} {k : Nat} {x : α} (h : m.look k = some x) : (k, x) ∈ m := by
  induction m with
  | nil => cases h
  | cons p m ih =>
    obtain ⟨j, y⟩ := p
    rw [SMap.look] at h
    split at h
    next hj =>
      cases h
      exact hj ▸ List.mem_cons_self
    next => exact List.mem_cons_of_mem _ (ih h)

theorem SMap.mem_put {α : Type} {m : SMap α} {k : Nat} {x : α} {p : Nat × α} (h : p ∈ m.put k x) : p = (k, x) ∨ p ∈ m := by
  induction m with
  | nil => exact .inl (List.mem_singleton.1 h)
  | cons q m ih =>
    rw [SMap.put] at h
    split at h
    · exact (List.mem_cons.1 h).imp_right (List.mem_cons_of_mem q)
    · rcases List.mem_cons.1 h with rfl | h
      · exact .inr List.mem_cons_self
      · exact (ih h).imp_right (List.mem_cons_of_mem q)

/-- A change of a core that leaves its obligations leaves none to be written. -/
theorem noHeldSpills_modCore (h : NoHeldSpills s) (c : Nat) (f : Core → Core) (hf : ∀ x, (f x).obs = x.obs) : NoHeldSpills (s.modCore c f) := by
  intro p hp
  rcases SMap.mem_put hp with rfl | hp
  · cases hc : s.cores.look c with
    | none => simp [hf, State.coreOf, hc]
    | some x => simpa [hf, State.coreOf, hc] using h _ (SMap.mem_of_look hc)
  · exact h p hp

theorem noHeldSpills_fetchReplayed (h : NoHeldSpills s) : NoHeldSpills (s.fetchReplayed c k) :=
  noHeldSpills_modCore (s := { s with faultQ := [] }) h c _ fun _ => rfl

theorem replayAll_fetch {q : Parked} (hq : s.faultQ = [q]) (havail : s.isUnavail q.pa = false) (hby : q.by' = .slot)
    (hwait : (s.slotOf q.core q.slot).status = .wait (.fetch pa)) (hspills : NoHeldSpills s) :
    State.replayAll 1 s = .next (s.fetchReplayed q.core q.slot) := by
  rw [State.replayAll, nextReplay_alone hq havail]
  simp only [replay1_fetch hq hby hwait]
  rw [State.replayAll, writeSpills_none (noHeldSpills_fetchReplayed hspills)]

/-! ## Links and ports (R354, R355) -/

theorem exec_laneRepair (hlink : linked a b = true) (hab : (a, b) ∉ s.linksRetired) (hba : (b, a) ∉ s.linksRetired) :
    exec (.laneRepair a b) s = .next { s with lanesRepaired := s.lanesRepaired ++ [(a, b)] } := by
  refine congrArg Host.Outcome.next (if_pos ?_)
  simp [hlink, hab, hba]

@[simp] theorem State.port_modPort (s : State) (p : Nat) (f : Port → Port) : (s.modPort p f).port p = f (s.port p) := by
  simp [State.port, State.modPort]

theorem exec_flitReplay (hp : p < 16) (hretired : (s.port p).retired = false) (htraining : (s.port p).training = false) :
    exec (.flitReplay p) s =
      .next (s.modPort p fun x => { x with replays := x.replays + 1, recent := s.recentReplays p ++ [s.now] }) := by
  refine congrArg Host.Outcome.next (if_pos ?_)
  simp [hp, hretired, htraining]

theorem exec_portRetrain (hp : p < 16) (hretired : (s.port p).retired = false) (htraining : (s.port p).training = false)
    (hrate : (s.port p).rate < 2) (hreplays : 64 < (s.recentReplays p).length) :
    exec (.portRetrain p) s = .next (s.modPort p fun x => { x with rate := x.rate + 1, training := true, recent := [] }) := by
  refine congrArg Host.Outcome.next (if_pos ?_)
  simp [hp, hretired, htraining, hrate, hreplays]

theorem exec_portTrainingComplete (hp : p < 16) (htraining : (s.port p).training = true) :
    exec (.portTrainingComplete p) s = .next (s.modPort p fun x => { x with training := false }) := by
  refine congrArg Host.Outcome.next (if_pos ?_)
  simp [hp, htraining]

end Sys2Proof.Machine
end

section
/-! # Retirements: what each leaves of the units and of their capacities (R176, R233, R312, R354, R355) -/
namespace Sys2Proof.Machine

open Sys2Proof.Safety

variable {s : State} {a b c d n p : Nat}

/-! ## Buses (R176) -/

/-- A bus without a spare is retired, and its range moves. -/
def State.busGone (s : State) (d b : Nat) : State :=
  s.modDie d fun x => { x with busRetired := setAdd x.busRetired b, busHeld := setDel x.busHeld b, busMoving := setAdd x.busMoving b }

theorem exec_busRetire (hshift : ((s.die d).busShifts.look b).getD 0 = n) (hn : 4 ≤ n) (hretired : b ∉ (s.die d).busRetired) :
    exec (.busRetire d b) s = .next ((((s.busGone d b).retireEvent 2 b (coreAt d 0 0) 0 []).loseCap 0 d).loseCap 3 d) := by
  refine if_neg ?_
  rw [hshift]
  simpa using ⟨hn, hretired⟩

/-! ## Matrix units (R233) -/

theorem exec_matrixUnitRetire (hc : validCore c = true) (hretired : (s.coreOf c).mxRetired = false) :
    exec (.matrixUnitRetire c) s = .next ((s.modCore c fun x => { x with mxRetired := true }).retireEvent 5 c c 0
      ((List.range 8).filter fun v => s.bayMask v != 0)) := by
  refine if_neg ?_
  simp [hc, hretired]

/-! ## Channels (R176, R312) -/

def State.chanGone (s : State) (d ch : Nat) : State := s.modDie d fun x => { x with chanRetired := setAdd x.chanRetired ch }

theorem exec_channelRetire {ch : Nat} (hd : d < 4) (hch : ch < 16) (hretired : ch ∉ (s.die d).chanRetired) :
    exec (.channelRetire d ch) s = .next (((s.chanGone d ch).retireEvent 1 ch (coreAt d 0 0) 0 []).setCap 1 d
      (1024 * (16 - ((s.die d).chanRetired.length + 1)) / 16)) := by
  have hlen : ((s.chanGone d ch).die d).chanRetired.length = (s.die d).chanRetired.length + 1 := by
    rw [State.chanGone, State.die_modDie]
    exact length_setAdd hretired
  rw [← hlen]
  refine if_neg ?_
  simpa using ⟨⟨hd, hch⟩, hretired⟩

/-! ## Clusters (R312) -/

def State.clusGone (s : State) (n : Nat) : State := s.modClus n fun x => { x with retired := true }

/-- The clusters of a cluster's die that are retired. -/
def State.retiredBeside (s : State) (n : Nat) : Nat := (s.clusters.filter fun p => p.2.retired && p.1 / 96 == n / 96).length

theorem exec_clusterRetire (hn : n < 384) (hretired : (s.clus n).retired = false) :
    exec (.clusterRetire n) s = .next (((s.clusGone n).retireEvent 4 n (clusterCore n 0) 0
      ((List.range 8).filter fun v => s.slotMask v != 0)).setCap 4 (n / 96) (1024 * (96 - (s.clusGone n).retiredBeside n) / 96)) := by
  refine if_neg ?_
  simpa [hretired] using hn

/-- Of entries that a test refuses, with one put among them that it takes, it takes that one. -/
theorem SMap.filter_put {α : Type} {m : SMap α} {k : Nat} {x : α} {f : Nat × α → Bool} (hm : ∀ p ∈ m, f p = false) (hx : f (k, x) = true) :
    (m.put k x).filter f = [(k, x)] := by
  have none (l : SMap α) (hl : ∀ p ∈ l, f p = false) : l.filter f = [] := by
    rw [List.filter_eq_nil_iff]
    intro p hp
    simp [hl p hp]
  induction m with
  | nil => simp [SMap.put, hx]
  | cons q m ih =>
    have hrest : ∀ p ∈ m, f p = false := fun p hp => hm p (List.mem_cons_of_mem q hp)
    rw [SMap.put]
    split
    · rw [List.filter_cons_of_pos hx, none m hrest]
    · rw [List.filter_cons_of_neg (by simp [hm q List.mem_cons_self]), ih hrest]

theorem clusGone_retiredBeside (h : ∀ p ∈ s.clusters, p.2.retired = false) : (s.clusGone n).retiredBeside n = 1 := by
  have hone : (s.clusGone n).clusters.filter (fun p => p.2.retired && p.1 / 96 == n / 96) = [(n, { s.clus n with retired := true })] := by
    refine SMap.filter_put (fun p hp => ?_) (by simp)
    simp [h p hp]
  rw [State.retiredBeside, hone, List.length_singleton]

theorem stalled_of_retired (h : (s.clus (clusterOf c)).retired = true) : s.stalled c = true := by simp [State.stalled, h]

/-! ## Links (R354) -/

/-- A link is retired, and the bandwidth of its first die falls. -/
def State.linkGone (s : State) (a b : Nat) : State :=
  ({ s with linksRetired := s.linksRetired ++ [(a, b)] }.retireEvent 3 (8 * a + b) (coreAt a 0 0) 0 []).loseCap 2 a

theorem exec_linkRetire (hlink : linked a b = true) (hab : (a, b) ∉ s.linksRetired) (hba : (b, a) ∉ s.linksRetired) :
    exec (.linkRetire a b) s = .next (if b < 4 then (s.linkGone a b).loseCap 2 b else s.linkGone a b) := by
  refine if_neg ?_
  simp [hlink, hab, hba]

theorem linkGone_linksRetired : (s.linkGone a b).linksRetired = s.linksRetired ++ [(a, b)] :=
  (UnitsKept.loseCap ..).linksRetired.trans (Reports.retireEvent ..).linksRetired

theorem linkGone_capOf_le (ha : a < 4) : (s.linkGone a b).capOf 2 a ≤ s.capOf 2 a := by
  refine (State.capOf_loseCap_le _ (by decide) ha ha).trans (Nat.le_of_eq ?_)
  exact (Reports.retireEvent ..).capOf (by decide) a

/-! ## Ports (R355) -/

/-- A port is retired, and its partners hear of it. -/
def State.portGone (s : State) (p : Nat) : State :=
  ((s.modPort p fun x => { x with retired := true, training := false, rate := 3 }).portDown p).retireEvent 3 (64 + p) 0 0 []

theorem exec_portFailure (hp : p < 16) (hretired : (s.port p).retired = false) (hrate : (s.port p).rate = 2) :
    exec (.portFailure p) s = .next ((List.range 4).foldl (fun s d => s.loseCap 2 d) (s.portGone p)) := by
  refine congrArg Host.Outcome.next (if_pos ?_)
  simp [hp, hretired, hrate]

theorem portGone_reports : Reports (s.modPort p fun x => { x with retired := true, training := false, rate := 3 }) (s.portGone p) :=
  .trans (.portDown ..) (.retireEvent ..)

end Sys2Proof.Machine
end

section
/-! # Settling O58 -/
namespace Sys2Proof.Machine

open Sys2Proof.Safety

/-- A retired bus is held no more, and the capacities of its die are no more than they were. -/
theorem busRetire_retires (s : State) (d b n : Nat) (hshift : ((s.die d).busShifts.look b).getD 0 = n) (hn : 4 ≤ n)
    (hretired : b ∉ (s.die d).busRetired) :
    ∃ t, exec (.busRetire d b) s = .next t ∧ b ∈ (t.die d).busRetired ∧ b ∉ (t.die d).busHeld ∧
      (d < 4 → t.capOf 0 d ≤ s.capOf 0 d ∧ t.capOf 3 d ≤ s.capOf 3 d) := by
  have hreport := Reports.retireEvent (s.busGone d b) 2 b (coreAt d 0 0) 0 []
  have hunits := hreport.toUnitsKept.trans (.trans (.loseCap _ 0 d) (.loseCap _ 3 d))
  have hcap (r : Nat) (hr : r < 5) (hd : d < 4) :
      ((((s.busGone d b).retireEvent 2 b (coreAt d 0 0) 0 []).loseCap 0 d).loseCap 3 d).capOf r d ≤ s.capOf r d :=
    calc _ ≤ _ := State.capOf_loseCap_le _ hr hd hd
      _ ≤ _ := State.capOf_loseCap_le _ hr hd hd
      _ = s.capOf r d := hreport.capOf hr d
  refine ⟨_, exec_busRetire hshift hn hretired, ?_, ?_, fun hd => ⟨hcap 0 (by decide) hd, hcap 3 (by decide) hd⟩⟩
  · rw [hunits.busRetired, State.busGone, State.die_modDie]
    exact mem_setAdd ..
  · rw [hunits.busHeld, State.busGone, State.die_modDie]
    exact not_mem_setDel _ _

theorem matrixUnitRetire_retires (s : State) (c : Nat) (hc : validCore c = true) (hretired : (s.coreOf c).mxRetired = false) :
    ∃ t, exec (.matrixUnitRetire c) s = .next t ∧ (t.coreOf c).mxRetired = true := by
  refine ⟨_, exec_matrixUnitRetire hc hretired, ?_⟩
  rw [(Reports.retireEvent ..).coreOf, State.coreOf_modCore]

theorem channelRetire_retires (s : State) (d ch : Nat) (hd : d < 4) (hch : ch < 16) (hretired : ch ∉ (s.die d).chanRetired) :
    ∃ t, exec (.channelRetire d ch) s = .next t ∧ ch ∈ (t.die d).chanRetired ∧
      t.capOf 1 d = 1024 * (16 - ((s.die d).chanRetired.length + 1)) / 16 := by
  refine ⟨_, exec_channelRetire hd hch hretired, ?_, ?_⟩
  · rw [(UnitsKept.setCap ..).chanRetired, (Reports.retireEvent ..).chanRetired, State.chanGone, State.die_modDie]
    exact mem_setAdd ..
  · rw [State.capOf_setCap _ _ (by decide) hd]
    exact Nat.mod_eq_of_lt (by omega)

theorem clusterRetire_retires (s : State) (n : Nat) (hn : n < 384) (hretired : (s.clus n).retired = false) :
    ∃ t, exec (.clusterRetire n) s = .next t ∧ (t.clus n).retired = true ∧ (∀ c, clusterOf c = n → t.stalled c = true) ∧
      ((∀ p ∈ s.clusters, p.2.retired = false) → t.capOf 4 (n / 96) = 1013) := by
  have hgone (vfs : List Nat) (cap : Nat) :
      ((((s.clusGone n).retireEvent 4 n (clusterCore n 0) 0 vfs).setCap 4 (n / 96) cap).clus n).retired = true := by
    rw [(UnitsKept.setCap ..).clus, (Reports.retireEvent ..).clus, State.clusGone, State.clus_modClus]
  refine ⟨_, exec_clusterRetire hn hretired, hgone .., fun c hc => stalled_of_retired (by rw [hc]; exact hgone ..), fun hnone => ?_⟩
  rw [State.capOf_setCap _ _ (by decide) (by omega), clusGone_retiredBeside hnone]

theorem linkRetire_retires (s : State) (a b : Nat) (hlink : linked a b = true) (hab : (a, b) ∉ s.linksRetired) (hba : (b, a) ∉ s.linksRetired) :
    ∃ t, exec (.linkRetire a b) s = .next t ∧ t.linksRetired = s.linksRetired ++ [(a, b)] ∧ (a < 4 → t.capOf 2 a ≤ s.capOf 2 a) := by
  refine ⟨_, exec_linkRetire hlink hab hba, ?_, fun ha => ?_⟩
  · split
    · exact (UnitsKept.loseCap ..).linksRetired.trans linkGone_linksRetired
    · exact linkGone_linksRetired
  · split
    next hb => exact (State.capOf_loseCap_le _ (by decide) hb ha).trans (linkGone_capOf_le ha)
    next => exact linkGone_capOf_le ha

theorem portFailure_retires (s : State) (p : Nat) (hp : p < 16) (hretired : (s.port p).retired = false) (hrate : (s.port p).rate = 2) :
    ∃ t, exec (.portFailure p) s = .next t ∧ (t.port p).retired = true ∧ ∀ d, d < 4 → t.capOf 2 d ≤ s.capOf 2 d := by
  refine ⟨_, exec_portFailure hp hretired hrate, ?_, fun d hd => ?_⟩
  · rw [(UnitsKept.loseCaps ..).port, portGone_reports.port, State.port_modPort]
  · refine (State.capOf_loseCaps_le _ _ (fun x hx => List.mem_range.1 hx) (by decide) hd).trans (Nat.le_of_eq ?_)
    exact portGone_reports.capOf (by decide) d

/-- Settles O58: each event's answer is computed, and a record of it, or the loss of a capacity, leaves the units as the event left them. -/
theorem errorsRepairs : Obligations.ErrorsRepairs := by
  unfold Obligations.ErrorsRepairs
  refine ⟨?uncorrectable, ?privReg, ?sharedReg, ?stateLoss, ?busRepair, ?busHoldEnd, ?busReplay, busRetire_retires, matrixUnitRetire_retires,
    channelRetire_retires, clusterRetire_retires, ?links, ?flitReplay, ?retrain, ?trained, portFailure_retires⟩
  case uncorrectable =>
    rintro s a _ rfl hmem halone
    refine ⟨_, exec_uncorrectableError_alone hmem halone, ?_⟩
    split
    next hfe =>
      have hpoison : ((s.setPoison (a / 8 * 8)).setFull (a / 8 * 8) true).isPoisoned (a / 8 * 8) = true := State.isPoisoned_setPoison ..
      exact ⟨fun _ => rfl, hpoison, fun _ => State.isFull_setFull .., fun hno => absurd (hfe.symm.trans hno) (by decide)⟩
    next hfe => exact ⟨fun _ => rfl, State.isPoisoned_setPoison .., fun h => absurd h hfe, fun _ => rfl⟩
  case privReg =>
    intro s c k vec n hold
    refine ⟨_, exec_registerError_priv hold, fun _ => rfl, ?_⟩
    rw [State.slotOf_modSlot]
    exact List.mem_append_right _ (List.mem_singleton.2 rfl)
  case sharedReg =>
    intro s c k vec n
    refine ⟨_, exec_registerError_shared vec n, fun _ => rfl, ?_⟩
    show n ∈ if vec then (State.vfOf _ c (s.sharedOwner c k)).wPoison else (State.vfOf _ c (s.sharedOwner c k)).cPoison
    rw [State.vfOf_modVf]
    cases vec <;> exact List.mem_append_right _ (List.mem_singleton.2 rfl)
  case stateLoss =>
    intro s v hv
    refine ⟨_, exec_obligationStateLoss v, ?_, askReset_asked hv⟩
    rw [State.askReset, if_pos hv]
    exact fun _ => rfl
  case busRepair =>
    intro s d b conn n hd hshift hn hretired
    refine ⟨_, exec_busRepair hd hshift hn hretired, fun _ => rfl, ?_, ?_, ?_, fun pa hpa hb => busShifted_unavail hpa hb⟩
    · rw [State.busShifted, State.die_modDie]
      exact SMap.look_put_self ..
    · rw [State.busShifted, State.die_modDie]
      exact mem_setAdd ..
    · rw [State.busShifted, State.die_modDie]
  case busHoldEnd =>
    intro s d b hq hspills
    have hwait : ∀ q ∈ (s.busFreed d b).faultQ, (s.busFreed d b).isUnavail q.pa = true := by
      intro q hmem
      obtain ⟨hother, hun⟩ := hq q hmem
      rw [State.isUnavail, busFreed_busHolds_ne hother, busFreed_pageGone]
      exact hun
    refine ⟨s.busFreed d b, (exec_busHoldEnd d b s).trans (replayAll_waits hwait hspills _), fun _ => rfl, ?_,
      fun pa hpa hb => busFreed_isUnavail hb (homeDie_near hpa)⟩
    rw [State.busFreed, State.die_modDie]
    exact not_mem_setDel _ _
  case busReplay =>
    intro s d b q hq hb hd hpage hby hspills hwait
    have havail : (s.busFreed d b).isUnavail q.pa = false := (busFreed_isUnavail hb hd).trans hpage
    have hreplay : State.replayAll s.faultQ.length (s.busFreed d b) = .next ((s.busFreed d b).fetchReplayed q.core q.slot) := by
      rw [hq]
      exact replayAll_fetch hq havail hby hwait hspills
    refine ⟨_, (exec_busHoldEnd d b s).trans hreplay, fun _ => rfl, rfl, ?_⟩
    rw [State.fetchReplayed, State.slotOf_modSlot]
  case links =>
    intro s a b hlink hab hba
    exact ⟨linkRetire_retires s a b hlink hab hba, _, exec_laneRepair hlink hab hba, fun _ => rfl, rfl⟩
  case flitReplay =>
    intro s p hp hretired htraining
    exact ⟨_, exec_flitReplay hp hretired htraining, fun _ => rfl, by rw [State.port_modPort]⟩
  case retrain =>
    intro s p hp hretired htraining hrate hreplays
    exact ⟨_, exec_portRetrain hp hretired htraining hrate hreplays, fun _ => rfl, by rw [State.port_modPort], by rw [State.port_modPort]⟩
  case trained =>
    intro s p hp htraining
    exact ⟨_, exec_portTrainingComplete hp htraining, fun _ => rfl, by rw [State.port_modPort], by rw [State.port_modPort]⟩

end Sys2Proof.Machine
end
